-- ==== Sys2Proof/Word.lean ====
section
/-! DEFINITION. The word types of the Hexina W768 (R5, R32) and nothing else: the bit-field and byte-order
helpers stand in Machine/Base.lean. -/

namespace Sys2Proof

/-- A 32-bit instruction word, lane or scalar (R23, R32). -/
abbrev Word := BitVec 32
/-- One byte of memory (R5). -/
abbrev Byte := BitVec 8
/-- The 32 lanes of a vector register (R3, R23); lane 0 first. -/
abbrev Lanes := Vector Word 32

end Sys2Proof
end

