-- ==== Sys2Proof/Config.lean ====
section
/-! DEFINITION. What the W768 fixes (R1 to R3, the figures of the chapters) and the free values: what the
spec leaves open, as opaque constants nothing can evaluate. -/

namespace Sys2Proof.Config

/-- Group width W (R3). -/
abbrev lanes : Nat := 32
/-- SIMT cores of the package (R3). -/
abbrev cores : Nat := 768
/-- SIMT cores of one die (R3). -/
abbrev coresPerDie : Nat := 192
/-- Cores of one cluster (R3). -/
abbrev coresPerCluster : Nat := 8
/-- Clusters of the package: 24 per die (R3). -/
abbrev clusters : Nat := 96
/-- Dies of the package (R3). -/
abbrev dies : Nat := 4
/-- Bytes of one stack: 48 GiB (R235). -/
abbrev stackBytes : Nat := 48 * 1024 * 1024 * 1024
/-- Bytes of the package memory: 384 GiB (R3, R235). -/
abbrev memBytes : Nat := 8 * stackBytes
/-- The fixed physical address of die 0's system register block (R303). -/
abbrev sysBase : Nat := 0x7F_0000_0000
/-- The first physical address of CXL expander memory (R403). -/
abbrev expanderBase : Nat := 0x80_0000_0000
/-- L2 slices of one die (R3). -/
abbrev slicesPerDie : Nat := 96
/-- Lines of an L1 of 128 KiB, of a fly cache of 32 MiB, of an L2 slice of 1.5 MiB (R3, R146). -/
abbrev l1Lines : Nat := 512
abbrev flyLines : Nat := 131072
abbrev sliceLines : Nat := 6144
/-- Image lines that a core's register cache of 256 KiB holds (R3, R26). -/
abbrev regLines : Nat := 1024
/-- Sectors of a die's hold ways of 8 MiB (R360). -/
abbrev holdSectors : Nat := 262144
/-- The MODE of a group's first fragment at launch, and of a handler (R43, R308). -/
abbrev modeReset : Word := 0x0080_0000#32
/-- A join of none (R25). -/
abbrev noJoin : Word := 0xFFFF_FFFF#32
/-- The time at or above which a home slice asks for a rebase (R180, R332). -/
abbrev rebaseTime : Nat := 2 ^ 47
/-- The reserve of R332. -/
abbrev reserveTime : Nat := 2 ^ 48 - 2 ^ 40
/-- Units of weight issued at the start of a wave or round, and by a loan (R273, R274). -/
abbrev weightUnit : Nat := 2 ^ 63

/-- FREE VALUE: which of the results that R86 allows a transcendental word gives (log 8); the argument names the function, the type,
the modes and the operand. -/
opaque freeChoice : Nat → Nat
/-- FREE VALUE: the contents of a temporary at scene start (R20: undefined). R36 check 5 keeps any read of it out. -/
opaque freeTemp : Nat → Word
/-- FREE VALUE: the low halves and the poison of a queue entry that `ldhi` pushes (R100: it keeps d's, and a queue has none; log 64). -/
opaque freePush : Nat → Word
/-- FREE VALUE: whether a flash image's Ed448ph signature verifies under the key fused in a die (R405);
the cryptography is outside the model. Arguments: die, image bytes, signature bytes. -/
opaque signatureOk : Nat → List Byte → List Byte → Bool
/-- FREE VALUE: the SHAKE256 digest of R405 and R406 as 64 bytes. -/
opaque digest : List Byte → List Byte
/-- FREE VALUE: the identity key's signature over an SPDM MEASUREMENTS response (R406). -/
opaque identitySign : List Byte → List Byte
/-- FREE VALUE: the ROM version that an SPDM MEASUREMENTS response carries (R406). -/
opaque romVersion : List Byte
/-- FREE VALUE: the fused rollback count of each die (R405). -/
opaque rollback : Nat → Nat
/-- FREE VALUE: the bytes of DRAM temperature and power sensors in a PLDM report (R404, R408). -/
opaque sensor : Nat → Nat → Nat

end Sys2Proof.Config
end

