-- ==== Sys2Proof/Syntax.lean ====
section
/-! DEFINITION. The steps of the W768: one constructor per row of spec/opcode_table.json. The 162 words carry
their encoded fields (R32, R38); the 97 events carry plain data naming what they act on. -/

namespace Sys2Proof

/-- An 8-bit operand selector (R38), one constructor per kind; every byte names exactly one. -/
inductive Sel where
  | v (n : BitVec 7)   -- 0x00-0x7F
  | s (n : BitVec 5)   -- 0x80-0x9F
  | q (n : BitVec 4)   -- 0xA0-0xAF
  | p (n : BitVec 3)   -- 0xB0-0xB7
  | t (n : BitVec 3)   -- 0xB8-0xBF
  | k (n : BitVec 6)   -- 0xC0-0xFF
  deriving DecidableEq, Repr

/-- A register a control core writes: register n of core c, of die d (R303), or the launch-unit register at
byte off of a partition's block (R330). -/
inductive RegAddr where
  | core (c n : Nat)
  | die (d n : Nat)
  | unit (part off : Nat)
  deriving DecidableEq, Repr

/-- The kinds of imprecise errors (R350). -/
inductive ErrKind where
  | store | homelost | bank | copy | wave | writeback
  deriving DecidableEq, Repr

/-- The RoCEv2 opcodes the receive engine tells apart (R397). -/
inductive NetOp where
  | writeFirst | writeMiddle | writeLast | writeOnly | readRequest | fetchAdd | other
  deriving DecidableEq, Repr

/-- One inbound packet of the Ethernet ports (R397 to R401): the fields the receive engine checks and uses. -/
structure NetPacket where
  part : Nat            -- partition whose tables serve the queue pair
  port : Nat            -- Ethernet port it arrives on
  qpn  : Nat            -- queue pair number
  reliable : Bool       -- for a reliable-connected queue pair
  op   : NetOp
  psn  : BitVec 24
  pkey : BitVec 16
  rkey : BitVec 32
  va   : Nat            -- virtual address of the first byte
  len  : Nat            -- bytes of a READ
  data : List Byte      -- bytes of a WRITE
  add  : BitVec 64      -- operand of a FETCH_ADD
  deriving DecidableEq, Repr

/-- A PCIe or CXL device's DMA access at physical addresses (R403). -/
inductive DmaRequest where
  | read (pa len : Nat)
  | write (pa : Nat) (data : List Byte)
  deriving DecidableEq, Repr

/-- One signed image of the configuration flash (R405). -/
structure FlashImage where
  bytes : List Byte
  version : Nat
  signature : List Byte
  deriving DecidableEq, Repr

/-- One core's entry in the signed configuration record (R372). -/
structure CoreRecord where
  core : Nat            -- 0 to 767
  maxStep : Nat         -- MAX
  step : Nat            -- STEP
  limit : Nat           -- LIMIT
  window : Nat          -- WINDOW in microseconds
  deriving DecidableEq, Repr

/-- The root ports that a die's PCIe and CXL lanes make (R403): one of 16 lanes, two of 8, four of 4. -/
inductive LaneSplit where
  | x16 | x8 | x4
  deriving DecidableEq, Repr

/-- The signed configuration record: margins, quarantine list, repair map, port mode and lanes, addresses (R372, R376, R379, R398, R403,
R407). -/
structure ConfigRecord where
  raw : List Byte
  version : Nat
  signature : List Byte
  cores : List CoreRecord
  quarantined : List Nat          -- cores listed as quarantined
  retired : List (Nat × Nat)      -- (die, slice) retired by the repair map
  endpoint : Bool                 -- PCIe/CXL port in endpoint mode
  lanes : LaneSplit               -- root ports in root mode
  expanders : List Nat            -- bytes of CXL expander memory on each root port, in port order
  macs : List (BitVec 48)         -- MAC address of each Ethernet port
  i3c : BitVec 8                  -- I3C static address of the management link
  deriving DecidableEq, Repr

/-- The configuration flash (R405, R406). -/
structure Flash where
  images : List FlashImage
  record : ConfigRecord
  deriving DecidableEq, Repr

/-- The steps of the machine: 162 words and 97 events, one constructor per row of the opcode table. -/
inductive Instr where
  /-- `scene` (R34, opcode 0x01). -/
  | scene (l : BitVec 5)
  /-- `end` (R35, opcode 0x02). -/
  | sceneEnd (x : BitVec 8) (y : BitVec 8) (z : BitVec 8)
  /-- `jmp` (R92, opcode 0x03). -/
  | jmp (f : BitVec 24)
  /-- `call` (R92, opcode 0x04). -/
  | call (f : BitVec 24)
  /-- `jmpr` (R93, opcode 0x05). -/
  | jmpr (a : Sel)
  /-- `callr` (R93, opcode 0x06). -/
  | callr (a : Sel)
  /-- `brc` (R94, opcode 0x07). -/
  | brc (p : BitVec 3) (j : BitVec 10) (f : BitVec 11)
  /-- `bru` (R95, opcode 0x08). -/
  | bru (p : BitVec 3) (c : BitVec 2) (f : BitVec 19)
  /-- `exit` (R96, opcode 0x09). -/
  | exit
  /-- `trap` (R97, opcode 0x0A). -/
  | trap (i : BitVec 16)
  /-- `yield` (R98, opcode 0x0B). -/
  | yield
  /-- `brk` (R97, opcode 0x0C). -/
  | brk (i : BitVec 16)
  /-- `nop` (R99, opcode 0x0D). -/
  | nop
  /-- `ldi` (R100, opcode 0x10). -/
  | ldi (d : Sel) (i : BitVec 16)
  /-- `ldhi` (R100, opcode 0x11). -/
  | ldhi (d : Sel) (i : BitVec 16)
  /-- `mov` (R101, opcode 0x12). -/
  | mov (d : Sel) (a : Sel)
  /-- `modei` (R44, opcode 0x13). -/
  | modei (d : BitVec 8) (i : BitVec 16)
  /-- `mode` (R44, opcode 0x14). -/
  | mode (a : Sel)
  /-- `rdsp` (R102, opcode 0x15). -/
  | rdsp (d : Sel) (n : BitVec 16)
  /-- `wrsp` (R103, opcode 0x16). -/
  | wrsp (s : Sel) (n : BitVec 16)
  /-- `winld` (R104, opcode 0x17). -/
  | winld (w : BitVec 3) (n : BitVec 8)
  /-- `winsub` (R105, opcode 0x18). -/
  | winsub (s : BitVec 3) (d : BitVec 3) (a : Sel) (b : Sel)
  /-- `rdtag` (R107, opcode 0x19). -/
  | rdtag (d : Sel) (a : Sel)
  /-- `retag` (R108, opcode 0x1A). -/
  | retag (d : Sel) (a : Sel) (b : Sel)
  /-- `add` (R109, opcode 0x20). -/
  | add (d : Sel) (a : Sel) (b : Sel)
  /-- `sub` (R109, opcode 0x21). -/
  | sub (d : Sel) (a : Sel) (b : Sel)
  /-- `mul` (R109, opcode 0x22). -/
  | mul (d : Sel) (a : Sel) (b : Sel)
  /-- `mulhi` (R109, opcode 0x23). -/
  | mulhi (d : Sel) (a : Sel) (b : Sel)
  /-- `mad` (R109, opcode 0x24). -/
  | mad (d : Sel) (a : Sel) (b : Sel)
  /-- `min` (R109, opcode 0x25). -/
  | min (d : Sel) (a : Sel) (b : Sel)
  /-- `max` (R109, opcode 0x26). -/
  | max (d : Sel) (a : Sel) (b : Sel)
  /-- `absd` (R109, opcode 0x27). -/
  | absd (d : Sel) (a : Sel) (b : Sel)
  /-- `and` (R109, opcode 0x28). -/
  | and (d : Sel) (a : Sel) (b : Sel)
  /-- `or` (R109, opcode 0x29). -/
  | or (d : Sel) (a : Sel) (b : Sel)
  /-- `xor` (R109, opcode 0x2A). -/
  | xor (d : Sel) (a : Sel) (b : Sel)
  /-- `andn` (R109, opcode 0x2B). -/
  | andn (d : Sel) (a : Sel) (b : Sel)
  /-- `not` (R109, opcode 0x2C). -/
  | not (d : Sel) (a : Sel)
  /-- `shl` (R109, opcode 0x2D). -/
  | shl (d : Sel) (a : Sel) (b : Sel)
  /-- `shr` (R109, opcode 0x2E). -/
  | shr (d : Sel) (a : Sel) (b : Sel)
  /-- `sar` (R109, opcode 0x2F). -/
  | sar (d : Sel) (a : Sel) (b : Sel)
  /-- `rol` (R109, opcode 0x30). -/
  | rol (d : Sel) (a : Sel) (b : Sel)
  /-- `fshl` (R110, opcode 0x31). -/
  | fshl (d : Sel) (a : Sel) (b : Sel)
  /-- `fshr` (R110, opcode 0x32). -/
  | fshr (d : Sel) (a : Sel) (b : Sel)
  /-- `lut3` (R111, opcode 0x33). -/
  | lut3 (d : Sel) (a : Sel) (b : Sel)
  /-- `clz` (R109, opcode 0x34). -/
  | clz (d : Sel) (a : Sel)
  /-- `ffs` (R109, opcode 0x35). -/
  | ffs (d : Sel) (a : Sel)
  /-- `popc` (R109, opcode 0x36). -/
  | popc (d : Sel) (a : Sel)
  /-- `brev` (R109, opcode 0x37). -/
  | brev (d : Sel) (a : Sel)
  /-- `bfx` (R112, opcode 0x38). -/
  | bfx (d : Sel) (a : Sel) (b : Sel)
  /-- `bfi` (R112, opcode 0x39). -/
  | bfi (d : Sel) (a : Sel) (b : Sel)
  /-- `cmpeq` (R113, opcode 0x3A). -/
  | cmpeq (d : Sel) (a : Sel) (b : Sel)
  /-- `cmpne` (R113, opcode 0x3B). -/
  | cmpne (d : Sel) (a : Sel) (b : Sel)
  /-- `cmplt` (R113, opcode 0x3C). -/
  | cmplt (d : Sel) (a : Sel) (b : Sel)
  /-- `cmple` (R113, opcode 0x3D). -/
  | cmple (d : Sel) (a : Sel) (b : Sel)
  /-- `sel` (R114, opcode 0x3E). -/
  | sel (d : Sel) (a : Sel) (b : Sel)
  /-- `sad` (R115, opcode 0x3F). -/
  | sad (d : Sel) (a : Sel) (b : Sel)
  /-- `fadd` (R119, opcode 0x40). -/
  | fadd (d : Sel) (a : Sel) (b : Sel)
  /-- `fsub` (R119, opcode 0x41). -/
  | fsub (d : Sel) (a : Sel) (b : Sel)
  /-- `fmul` (R119, opcode 0x42). -/
  | fmul (d : Sel) (a : Sel) (b : Sel)
  /-- `fma` (R119, opcode 0x43). -/
  | fma (d : Sel) (a : Sel) (b : Sel)
  /-- `fmin` (R120, opcode 0x44). -/
  | fmin (d : Sel) (a : Sel) (b : Sel)
  /-- `fmax` (R120, opcode 0x45). -/
  | fmax (d : Sel) (a : Sel) (b : Sel)
  /-- `fcmpeq` (R121, opcode 0x46). -/
  | fcmpeq (d : Sel) (a : Sel) (b : Sel)
  /-- `fcmplt` (R121, opcode 0x47). -/
  | fcmplt (d : Sel) (a : Sel) (b : Sel)
  /-- `fcmple` (R121, opcode 0x48). -/
  | fcmple (d : Sel) (a : Sel) (b : Sel)
  /-- `fcmpun` (R121, opcode 0x49). -/
  | fcmpun (d : Sel) (a : Sel) (b : Sel)
  /-- `fabs` (R122, opcode 0x4A). -/
  | fabs (d : Sel) (a : Sel)
  /-- `fneg` (R122, opcode 0x4B). -/
  | fneg (d : Sel) (a : Sel)
  /-- `rcp` (R123, opcode 0x4C). -/
  | rcp (d : Sel) (a : Sel)
  /-- `rsqrt` (R123, opcode 0x4D). -/
  | rsqrt (d : Sel) (a : Sel)
  /-- `sqrt` (R123, opcode 0x4E). -/
  | sqrt (d : Sel) (a : Sel)
  /-- `exp2` (R123, opcode 0x4F). -/
  | exp2 (d : Sel) (a : Sel)
  /-- `log2` (R123, opcode 0x50). -/
  | log2 (d : Sel) (a : Sel)
  /-- `sinpi` (R123, opcode 0x51). -/
  | sinpi (d : Sel) (a : Sel)
  /-- `cospi` (R123, opcode 0x52). -/
  | cospi (d : Sel) (a : Sel)
  /-- `tanh` (R123, opcode 0x53). -/
  | tanh (d : Sel) (a : Sel)
  /-- `rnd` (R124, opcode 0x54). -/
  | rnd (d : Sel) (a : Sel)
  /-- `frac` (R124, opcode 0x55). -/
  | frac (d : Sel) (a : Sel)
  /-- `cvt` (R125, opcode 0x56). -/
  | cvt (d : Sel) (a : Sel)
  /-- `dotk` (R127, opcode 0x57). -/
  | dotk (d : Sel) (a : Sel) (b : Sel)
  /-- `dot4` (R126, opcode 0x58). -/
  | dot4 (d : Sel) (a : Sel) (b : Sel)
  /-- `dot2` (R126, opcode 0x59). -/
  | dot2 (d : Sel) (a : Sel) (b : Sel)
  /-- `fclass` (R128, opcode 0x5A). -/
  | fclass (d : Sel) (a : Sel) (b : Sel)
  /-- `ldexp` (R129, opcode 0x5B). -/
  | ldexp (d : Sel) (a : Sel) (b : Sel)
  /-- `qshf` (R131, opcode 0x60). -/
  | qshf (d : Sel) (a : Sel) (b : Sel)
  /-- `qswp` (R131, opcode 0x61). -/
  | qswp (d : Sel) (a : Sel) (b : Sel)
  /-- `qred` (R131, opcode 0x62). -/
  | qred (d : Sel) (a : Sel) (b : Sel)
  /-- `shfi` (R132, opcode 0x63). -/
  | shfi (d : Sel) (a : Sel) (b : Sel)
  /-- `shfx` (R132, opcode 0x64). -/
  | shfx (d : Sel) (a : Sel) (b : Sel)
  /-- `shfu` (R132, opcode 0x65). -/
  | shfu (d : Sel) (a : Sel) (b : Sel)
  /-- `shfd` (R132, opcode 0x66). -/
  | shfd (d : Sel) (a : Sel) (b : Sel)
  /-- `redx` (R133, opcode 0x67). -/
  | redx (d : Sel) (a : Sel) (b : Sel)
  /-- `scanx` (R133, opcode 0x68). -/
  | scanx (d : Sel) (a : Sel) (b : Sel)
  /-- `ballot` (R134, opcode 0x69). -/
  | ballot (d : Sel) (a : Sel)
  /-- `vote` (R134, opcode 0x6A). -/
  | vote (d : Sel) (a : Sel) (b : Sel)
  /-- `match` (R135, opcode 0x6B). -/
  | matchLanes (d : Sel) (a : Sel)
  /-- `bcst` (R132, opcode 0x6C). -/
  | bcst (d : Sel) (a : Sel) (b : Sel)
  /-- `elect` (R136, opcode 0x6D). -/
  | elect (d : Sel)
  /-- `pset` (R116, opcode 0x70). -/
  | pset (d : Sel) (a : Sel)
  /-- `pget` (R116, opcode 0x71). -/
  | pget (d : Sel) (a : Sel)
  /-- `pand` (R116, opcode 0x72). -/
  | pand (d : Sel) (a : Sel) (b : Sel)
  /-- `por` (R116, opcode 0x73). -/
  | por (d : Sel) (a : Sel) (b : Sel)
  /-- `pxor` (R116, opcode 0x74). -/
  | pxor (d : Sel) (a : Sel) (b : Sel)
  /-- `pnot` (R116, opcode 0x75). -/
  | pnot (d : Sel) (a : Sel)
  /-- `pmask` (R116, opcode 0x76). -/
  | pmask (d : Sel) (a : Sel)
  /-- `ldb` (R157, opcode 0x80). -/
  | ldb (d : Sel) (a : Sel) (w : BitVec 3) (k : BitVec 5)
  /-- `ldh` (R157, opcode 0x81). -/
  | ldh (d : Sel) (a : Sel) (w : BitVec 3) (k : BitVec 5)
  /-- `ldw` (R157, opcode 0x82). -/
  | ldw (d : Sel) (a : Sel) (w : BitVec 3) (k : BitVec 5)
  /-- `ldq` (R157, opcode 0x83). -/
  | ldq (d : Sel) (a : Sel) (w : BitVec 3) (k : BitVec 5)
  /-- `stb` (R159, opcode 0x84). -/
  | stb (d : Sel) (a : Sel) (w : BitVec 3) (k : BitVec 5)
  /-- `sth` (R159, opcode 0x85). -/
  | sth (d : Sel) (a : Sel) (w : BitVec 3) (k : BitVec 5)
  /-- `stw` (R159, opcode 0x86). -/
  | stw (d : Sel) (a : Sel) (w : BitVec 3) (k : BitVec 5)
  /-- `stq` (R159, opcode 0x87). -/
  | stq (d : Sel) (a : Sel) (w : BitVec 3) (k : BitVec 5)
  /-- `faa` (R160, opcode 0x88). -/
  | faa (d : Sel) (a : Sel) (w : BitVec 3) (k : BitVec 5)
  /-- `fmn` (R160, opcode 0x89). -/
  | fmn (d : Sel) (a : Sel) (w : BitVec 3) (k : BitVec 5)
  /-- `fmx` (R160, opcode 0x8A). -/
  | fmx (d : Sel) (a : Sel) (w : BitVec 3) (k : BitVec 5)
  /-- `fand` (R160, opcode 0x8B). -/
  | fand (d : Sel) (a : Sel) (w : BitVec 3) (k : BitVec 5)
  /-- `fior` (R160, opcode 0x8C). -/
  | fior (d : Sel) (a : Sel) (w : BitVec 3) (k : BitVec 5)
  /-- `fxor` (R160, opcode 0x8D). -/
  | fxor (d : Sel) (a : Sel) (w : BitVec 3) (k : BitVec 5)
  /-- `swp` (R160, opcode 0x8E). -/
  | swp (d : Sel) (a : Sel) (w : BitVec 3) (k : BitVec 5)
  /-- `cas` (R163, opcode 0x8F). -/
  | cas (d : Sel) (a : Sel) (w : BitVec 3) (k : BitVec 5)
  /-- `radd` (R165, opcode 0x90). -/
  | radd (d : Sel) (a : Sel) (w : BitVec 3) (k : BitVec 5)
  /-- `rmin` (R165, opcode 0x91). -/
  | rmin (d : Sel) (a : Sel) (w : BitVec 3) (k : BitVec 5)
  /-- `rmax` (R165, opcode 0x92). -/
  | rmax (d : Sel) (a : Sel) (w : BitVec 3) (k : BitVec 5)
  /-- `ror` (R165, opcode 0x93). -/
  | ror (d : Sel) (a : Sel) (w : BitVec 3) (k : BitVec 5)
  /-- `pfl` (R166, opcode 0x94). -/
  | pfl (t : BitVec 1) (a : Sel) (w : BitVec 3) (k : BitVec 5)
  /-- `cpy` (R167, opcode 0x95). -/
  | cpy (s : BitVec 3) (d : BitVec 3) (a : Sel)
  /-- `fence` (R169, opcode 0xA0). -/
  | fence (s : BitVec 3)
  /-- `bara` (R172, opcode 0xA1). -/
  | bara (g : BitVec 1) (p : BitVec 2) (h : BitVec 4)
  /-- `barw` (R172, opcode 0xA2). -/
  | barw (g : BitVec 1) (p : BitVec 2) (h : BitVec 4)
  /-- `bars` (R172, opcode 0xA3). -/
  | bars (g : BitVec 1) (p : BitVec 2) (h : BitVec 4)
  /-- `barinit` (R172, opcode 0xA4). -/
  | barinit (c : Sel) (g : BitVec 1) (p : BitVec 2) (h : BitVec 4)
  /-- `mwne` (R174, opcode 0xA5). -/
  | mwne (d : Sel) (a : Sel) (w : BitVec 3) (k : BitVec 5)
  /-- `mwge` (R174, opcode 0xA6). -/
  | mwge (d : Sel) (a : Sel) (w : BitVec 3) (k : BitVec 5)
  /-- `drain` (R170, opcode 0xA7). -/
  | drain
  /-- `cwait` (R175, opcode 0xA8). -/
  | cwait (c : BitVec 8)
  /-- `hop` (R226, opcode 0xB0). -/
  | hop (h : BitVec 4) (a : Sel)
  /-- `wload` (R227, opcode 0xB1). -/
  | wload (n : BitVec 3)
  /-- `stage` (R228, opcode 0xB2). -/
  | stage (n : BitVec 3)
  /-- `chain` (R228, opcode 0xB3). -/
  | chain (n : BitVec 3)
  /-- `cmit` (R229, opcode 0xB4). -/
  | cmit (c : BitVec 8)
  /-- `cdisc` (R229, opcode 0xB5). -/
  | cdisc (c : BitVec 8)
  /-- `qcfg` (R230, opcode 0xB6). -/
  | qcfg (q : BitVec 4) (a : Sel)
  /-- `cstat` (R231, opcode 0xB7). -/
  | cstat (d : BitVec 5) (a : Sel)
  /-- `wfree` (R232, opcode 0xB8). -/
  | wfree (a : Sel) (b : Sel)
  /-- `gbind` (R289, opcode 0xC0). -/
  | gbind (n : BitVec 3)
  /-- `gprog` (R290, opcode 0xC1). -/
  | gprog (n : BitVec 3)
  /-- `gmark` (R291, opcode 0xC2). -/
  | gmark (n : BitVec 3)
  /-- `gprop` (R292, opcode 0xC3). -/
  | gprop (n : BitVec 3)
  /-- `gcoll` (R293, opcode 0xC4). -/
  | gcoll (n : BitVec 3)
  /-- `gclr` (R291, opcode 0xC5). -/
  | gclr (n : BitVec 3)
  /-- `gwait` (R294, opcode 0xC6). -/
  | gwait (t : BitVec 4)
  /-- `gstat` (R295, opcode 0xC7). -/
  | gstat (d : Sel) (a : Sel) (b : Sel)
  /-- `bexec` (R252, opcode 0xC8). -/
  | bexec (n : BitVec 3)
  /-- `rowop` (R254, opcode 0xC9). -/
  | rowop (n : BitVec 3)
  /-- `bpage` (R256, opcode 0xCA). -/
  | bpage (d : BitVec 3)
  /-- `tret` (R310, opcode 0xD0). -/
  | tret
  /-- `rdsys` (R311, opcode 0xD1). -/
  | rdsys (d : Sel) (n : BitVec 16)
  /-- `wrsys` (R312, opcode 0xD2). -/
  | wrsys (s : Sel) (n : BitVec 16)
  /-- `ptest` (R313, opcode 0xD3). -/
  | ptest (d : Sel) (a : Sel)
  /-- `pclr` (R314, opcode 0xD4). -/
  | pclr (d : Sel)
  /-- `sigck` (R315, opcode 0xD5). -/
  | sigck

  /-- DEFERRED_RESULT_LANDS (R47): A load, atomic, pop or status result lands in the image and the register becomes full. -/
  | deferredResultLands (r : Nat)
  /-- EMPTY_WAIT_END (R48): A fragment waiting on an empty register repeats its start check when the register is full. -/
  | emptyWaitEnd (u : Nat) (slot : Bool)
  /-- STALLED_PERFORM_RESUME (R37): A perform step stalled on a full queue, path or buffer continues once room frees. -/
  | stalledPerformResume (u : Nat) (slot : Bool)
  /-- PREEMPTION_REQUEST (R27): Each fragment of a group stops at its next scene boundary and its lines become evictable. -/
  | preemptionRequest (gang : Nat)
  /-- GROUP_RESUME (R28): A pre-empted group resumes from its image on any suitable core. -/
  | groupResume (gang core : Nat)
  /-- PARKED_GROUP_READY (R327): A parked group whose wait ended becomes issue-resident at the next free place. -/
  | parkedGroupReady (u : Nat)
  /-- PTS_SELF_INCREMENT (R186): A resident group's program time rises by 1 every 256 clocks. -/
  | ptsSelfIncrement (u : Nat)
  /-- LINE_EVICTION (R186): Evicting a line raises the home slice's memory time mts. -/
  | lineEviction (line : Nat)
  /-- HOME_LOAD (R182): A load request at the home extends the line's read time and returns value and lease. -/
  | homeLoad (r i : Nat)
  /-- HOME_STORE (R183): A store acts at the home with a new write time. -/
  | homeStore (r i : Nat)
  /-- HOME_ATOMIC (R184): An atomic or merged atomic acts at its home at one logical time. -/
  | homeAtomic (pkt : Nat)
  /-- STORE_ACKNOWLEDGE (R352): A home acknowledges a side effect and the group's outstanding count falls. -/
  | storeAcknowledge (r : Nat)
  /-- WC_SECTOR_TIMEOUT (R148): A WC sector leaves the buffer 4,096 clocks after its first write. -/
  | wcSectorTimeout (core i : Nat)
  /-- GATHER_WINDOW_EXPIRY (R150): The collection window ends and the merged load request is sent. -/
  | gatherWindowExpiry (r : Nat)
  /-- GATHER_WAKE (R150): The collector wakes a group when the last sector its load needs has landed. -/
  | gatherWake (r : Nat)
  /-- AGENT_LINE_RELEASE (R154): An engine agent releases a line after writing its last byte and waiting requests are served. -/
  | agentLineRelease (cmd line : Nat)
  /-- COPY_RETIRE (R168): A copy retires when its last destination byte is written, freeing its ranges. -/
  | copyRetire (cmd : Nat)
  /-- FENCE_PERFORM (R192): A fence performs once earlier side effects reached its scope, releasing held work. -/
  | fencePerform (u : Nat)
  /-- DRAIN_COMPLETE (R170): A drain wait ends when its stores are acknowledged and copies retired. -/
  | drainComplete (u : Nat) (slot : Bool)
  /-- MWAIT_WATCH_FIRE (R174): A write to a watched word wakes the memory waiter to read again. -/
  | mwaitWatchFire (u : Nat) (slot : Bool)
  /-- MWAIT_POLL (R174): A waiter with no free watch reads the word again every 2,048 clocks. -/
  | mwaitPoll (u : Nat) (slot : Bool)
  /-- SEQUENCER_ISSUE (R219): The engine sequencer issues a command once its dependencies and orders are satisfied. -/
  | sequencerIssue (cmd : Nat)
  /-- WLOAD_RETIRE (R220): A wload retires when its last byte is in the granules, which become loaded. -/
  | wloadRetire (cmd : Nat)
  /-- WFREE_RETIRE (R220): A wfree retires when its granules are empty. -/
  | wfreeRetire (cmd : Nat)
  /-- ENGINE_OUTPUT_ENTRY (R218): The engine writes an output entry when the output queue has room. -/
  | engineOutputEntry (cmd : Nat)
  /-- STAGE_RETIRE (R220): A stage or chain retires when its last output entry is in its queue. -/
  | stageRetire (cmd : Nat)
  /-- REHEARSAL_HELD (R221): A finished rehearsal command is held, or moved to its queue if already released. -/
  | rehearsalHeld (cmd : Nat)
  /-- ENGINE_BITSTEP_REPLAY (R370): A bit-step whose shadow check mismatches runs again at 2 clocks. -/
  | engineBitstepReplay (core : Nat)
  /-- BANK_COMMAND_COMPLETE (R248): A bexec or rowop ends by adding its done value to the done word. -/
  | bankCommandComplete (cmd : Nat)
  /-- BANK_ROW_WRITE (R247): A bank unit back-invalidates a line at its home and then writes it. -/
  | bankRowWrite (cmd line : Nat)
  /-- DEMAND_WAIT_TIMEOUT (R245): After 2 µs of compute with demand waiting the unit hands the bank back. -/
  | demandWaitTimeout (bank : Nat)
  /-- BANK_REFRESH (R245): Refresh takes the bank at the unit's next element boundary. -/
  | bankRefresh (bank : Nat)
  /-- WAVE_ARRIVAL (R262): A graph command arrives at its controller, takes the binding and resets its tag's record. -/
  | waveArrival (wave : Nat)
  /-- GBIND_APPLY (R262): A gbind acts at its controller as one step in arrival order. -/
  | gbindApply (wave : Nat)
  /-- WAVE_START (R280): A controller starts a wave once earlier conflicting waves have ended and issues weight. -/
  | waveStart (wave : Nat)
  /-- MARKER_MESSAGE (R268): A bank unit combines an arriving value into its target and forwards changes. -/
  | markerMessage (wave i : Nat)
  /-- WEIGHT_RETURN (R274): A unit with no work returns its weight to the controller. -/
  | weightReturn (wave bank : Nat)
  /-- WEIGHT_LOAN (R274): A unit short of weight asks the controller for a loan of 2^63 units. -/
  | weightLoan (wave bank : Nat)
  /-- COLLECT_PUSH (R278): A collection pushes an entry into its queue when the queue has room. -/
  | collectPush (wave : Nat)
  /-- LAUNCH_WATCH_FIRE (R321): The watch on a tail or slot line fires and the launch unit reads the prompt book. -/
  | launchWatchFire (part queue : Nat)
  /-- PREDECESSOR_RELEASE (R320): A launch waiting for predecessors starts, or ends PREDFAIL, when they complete. -/
  | predecessorRelease (launch : Nat)
  /-- GANG_PLACEMENT (R324): A dispatcher places a gang on consecutive cores when a place is free. -/
  | gangPlacement (cluster launch core : Nat)
  /-- GANG_STEAL (R323): A dispatcher with a free place and empty range steals gangs from a victim. -/
  | gangSteal (cluster launch victim : Nat)
  /-- CLUSTER_CLEAR (R325): After 50 µs without consecutive cores a dispatcher clears its cluster by eviction. -/
  | clusterClear (cluster launch core : Nat)
  /-- PROGRESS_EVICTION (R330): After 50 µs without placement, waiting gangs of a launch are evicted to place unplaced ones. -/
  | progressEviction (launch : Nat)
  /-- LAUNCH_COMPLETION (R333): A launch completes and its completion record is written to its callboard ring. -/
  | launchCompletion (launch : Nat)
  /-- CALLBOARD_AGE_TRIGGER (R334): A ring interrupts when its oldest unsignalled record is AGE µs old. -/
  | callboardAgeTrigger (part ring : Nat)
  /-- CALLBOARD_HOLD_RELEASE (R334): A record held on a full ring is written once the consumer's head advances. -/
  | callboardHoldRelease (launch : Nat)
  /-- PARK_RETRY (R331): A PARK write resumes a trap-parked group at TRAPPC. -/
  | parkRetry (part slot : Nat)
  /-- PARK_DELIVER (R331): A PARK write delivers the parked trap to the user handler step. -/
  | parkDeliver (part slot : Nat)
  /-- PARK_KILL_GANG (R331): A PARK write kills the parked group's gang with no relaunch. -/
  | parkKillGang (part slot : Nat)
  /-- QUIESCE (R330): Setting QUIESCE stops placement and evicts every group of the partition. -/
  | quiesce (part : Nat)
  /-- REBASE (R332): A REBASE write resets the partition's logical times to 0. -/
  | rebase (part : Nat)
  /-- TEARDOWN (R364): A teardown kills the partition's address space, work and launches in order. -/
  | teardown (part : Nat)
  /-- TEARDOWN_CLEAR (R351): A CLEAR write clears TDONE and resumes serving the partition's queues. -/
  | teardownClear (part : Nat)
  /-- SHOOTDOWN_GO (R345): A GO write starts a package-wide translation shootdown of a range. -/
  | shootdownGo (part : Nat) (value : Word)
  /-- SHOOTDOWN_DONE (R345): BUSY clears once all dropped translations and dependent accesses have settled. -/
  | shootdownDone (part : Nat)
  /-- PARTID_WRITE (R305): A control-core write of PARTID, accepted only with no group on the core, drops the core TLB. -/
  | partidWrite (core : Nat) (value : Word)
  /-- PTROOT_WRITE (R305): A PTROOT write, refused while groups are resident except the dead root, drops the core TLB. -/
  | ptrootWrite (core : Nat) (value : Word)
  /-- GRAPHCTL_WRITE (R414): Assigns a graph id to a wave controller unless a wave of it is queued or running. -/
  | graphctlWrite (part r : Nat) (value : Word)
  /-- MARGIN_WRITE (R373): A STEP write slews the core rail to a new level. -/
  | marginWrite (core : Nat) (value : Word)
  /-- LTELIM_WRITE (R375): An LTELIM write sets the limit and starts a new window. -/
  | ltelimWrite (core : Nat) (value : Word)
  /-- LTEWIN_WRITE (R375): An LTEWIN write sets the window length and starts a new window. -/
  | ltewinWrite (core : Nat) (value : Word)
  /-- QUAR_WRITE (R377): A control-core write quarantines or releases a core. -/
  | quarWrite (core : Nat) (value : Word)
  /-- HEALTH_WRITE (R379): A control-core write replaces the whole HEALTH register. -/
  | healthWrite (die : Nat) (value : Word)
  /-- REGISTER_WRITE (R306): A write to a register with no behaviour of its own, applied one at a time. -/
  | registerWrite (reg : RegAddr) (value : Word)
  /-- LATE_TRANSITION_EVENT (R368): A shadow-latch mismatch replays the word and counts an LTE. -/
  | lateTransitionEvent (core : Nat)
  /-- LTE_WINDOW_EXPIRY (R374): A margin window of WINDOW µs ends and the next begins. -/
  | lteWindowExpiry (core : Nat)
  /-- SLICE_ERROR_THRESHOLD (R379): A slice with over 16 uncorrectable errors in an hour is listed for retirement. -/
  | sliceErrorThreshold (die slice : Nat)
  /-- IMPRECISE_ERROR (R350): An error found after commit poisons sectors and writes an error record. -/
  | impreciseError (kind : ErrKind) (slot : Nat) (ord : BitVec 8) (pa : Nat)
  /-- UNDERSTUDY_COMPARE (R361): Primary and understudy signatures are compared and held stores released. -/
  | understudyCompare (u : Nat)
  /-- DIE_FAILURE (R366): A failed die's lines read poisoned and its gangs take the poison fate. -/
  | dieFailure (die : Nat)
  /-- DIE_LINK_FAILURE (R393): A die-link port degrades to half width or fails and traffic is rerouted. -/
  | dieLinkFailure (die port : Nat) (full : Bool)
  /-- THERMAL_GATE (R408): Above 100 °C a die halves scene issue on its cores. -/
  | thermalGate (die : Nat)
  /-- THERMAL_STOP (R408): At 110 °C a die stops and is treated as lost. -/
  | thermalStop (die : Nat)
  /-- COMBINE_REQUEST_ARRIVAL (R386): A combine-channel request at a switch port merges or takes a table entry. -/
  | combineRequestArrival (pkt : Nat)
  /-- COMBINE_HOLD_EXPIRY (R386): A held combine request's WIN clocks end and it becomes ready to send. -/
  | combineHoldExpiry (pkt : Nat)
  /-- REPLY_SPLIT (R388): A switch splits a reply using its decombining record. -/
  | replySplit (reply : Nat)
  /-- RECOVER_REPLY (R389): The home answers a RECOVER reply from its log with each constituent's value. -/
  | recoverReply (reply : Nat)
  /-- RECORD_EXPIRY (R390): A record unmatched 64 µs after creation is freed. -/
  | recordExpiry (record : Nat)
  /-- SWITCH_RESET (R390): A switch resets on an uncorrectable control error, losing records and resending packets. -/
  | switchReset (die stage switch : Nat)
  /-- COMBTEST_DISARM (R392): A COMBTEST write of MODE 0 disarms fault injection. -/
  | combtestDisarm (die : Nat) (value : Word)
  /-- COMBTEST_CORRUPT_COPY (R392): A COMBTEST write of MODE 1 arms corruption of one copy of the next records. -/
  | combtestCorruptCopy (die : Nat) (value : Word)
  /-- COMBTEST_LOSE_RECORD (R392): A COMBTEST write of MODE 2 arms loss of both copies of the next records. -/
  | combtestLoseRecord (die : Nat) (value : Word)
  /-- COMBTEST_RESET_SWITCH (R392): A COMBTEST write of MODE 3 resets the target switch once. -/
  | combtestResetSwitch (die : Nat) (value : Word)
  /-- RDMA_WRITE (R401): An inbound RDMA WRITE is checked and applied as ordinary coherent stores. -/
  | rdmaWrite (p : NetPacket)
  /-- RDMA_READ (R401): An inbound RDMA READ reads at the homes as a system observer. -/
  | rdmaRead (p : NetPacket)
  /-- ATOMIC_FETCH_ADD (R401): An inbound 8-byte FETCH_ADD acts at the home as one step. -/
  | atomicFetchAdd (p : NetPacket)
  /-- INVALID_REQUEST (R397): An unsupported opcode or queue pair is NAKed and the queue pair enters error. -/
  | invalidRequest (p : NetPacket)
  /-- DEVICE_DMA (R403): A PCIe or CXL device read or write acts at the homes as a system observer. -/
  | deviceDma (q : DmaRequest)
  /-- PLDM_MONITORING (R404): A PLDM monitoring request over MCTP reports health, temperature and power. -/
  | pldmMonitoring (die : Nat)
  /-- PLDM_FIRMWARE_UPDATE (R404): A PLDM firmware update writes the configuration flash. -/
  | pldmFirmwareUpdate (f : Flash)
  /-- SPDM_MEASUREMENTS (R406): An SPDM MEASUREMENTS request returns signed measurements. -/
  | spdmMeasurements
  /-- POWER_ON_BOOT (R405): Each die's boot ROM verifies images and configuration and releases the control cores. -/
  | powerOnBoot
  /-- THERMAL_UNGATE (R408): When a die's junction temperature falls back to 100 °C or below, it stops gating issue on its SIMT cores. -/
  | thermalUngate (die : Nat)
  /-- BISNP_RESPONSE (R247): A CXL-attached host's response to a BISnp arrives and lets the waiting bank unit write the line. -/
  | bisnpResponse (cmd line : Nat)
  /-- HOME_LOG_EXPIRY (R389): A home slice's log entry for a merged returning request is discarded 64 µs after the request was applied. -/
  | homeLogExpiry (entry : Nat)
  deriving DecidableEq, Repr

end Sys2Proof
end

