-- ==== Sys2Proof/Decode.lean ====
section
/-! DEFINITION. The decoder of instruction words, total on any bytes and rejecting by name, and after it the
encoder, both from the formats of R32 and the opcode map of R52. -/

namespace Sys2Proof

/-- Why a word is no instruction. -/
inductive DecodeError where
  | shortInput                       -- fewer than four bytes
  | reservedOpcode (op : BitVec 8)   -- R53: an illegal-instruction fault
  | unusedField (op : BitVec 8)      -- R32: a nonzero unused field or a fixed field's other value; illegal operand
  deriving DecidableEq, Repr

/-- The operand selector of a byte (R38). -/
def selOf (b : BitVec 8) : Sel :=
  if b.extractLsb' 7 1 = 0#1 then .v (b.extractLsb' 0 7)
  else if b.extractLsb' 5 3 = 4#3 then .s (b.extractLsb' 0 5)
  else if b.extractLsb' 4 4 = 0xA#4 then .q (b.extractLsb' 0 4)
  else if b.extractLsb' 3 5 = 0x16#5 then .p (b.extractLsb' 0 3)
  else if b.extractLsb' 3 5 = 0x17#5 then .t (b.extractLsb' 0 3)
  else .k (b.extractLsb' 0 6)

/-- The words of opcodes 0x00 to 0x0F (R52), by the low opcode nibble; fields only, no zero check. -/
def looseRow0 (n : Nat) (w : Word) : Option Instr :=
  match n with
  | 0x1 => some (.scene (w.extractLsb' 19 5))
  | 0x2 => some (.sceneEnd (w.extractLsb' 16 8) (w.extractLsb' 8 8) (w.extractLsb' 0 8))
  | 0x3 => some (.jmp (w.extractLsb' 0 24))
  | 0x4 => some (.call (w.extractLsb' 0 24))
  | 0x5 => some (.jmpr (selOf (w.extractLsb' 8 8)))
  | 0x6 => some (.callr (selOf (w.extractLsb' 8 8)))
  | 0x7 => some (.brc (w.extractLsb' 21 3) (w.extractLsb' 11 10) (w.extractLsb' 0 11))
  | 0x8 => some (.bru (w.extractLsb' 21 3) (w.extractLsb' 19 2) (w.extractLsb' 0 19))
  | 0x9 => some (.exit)
  | 0xA => some (.trap (w.extractLsb' 0 16))
  | 0xB => some (.yield)
  | 0xC => some (.brk (w.extractLsb' 0 16))
  | 0xD => some (.nop)
  | _ => none

/-- The words of opcodes 0x10 to 0x1F (R52), by the low opcode nibble; fields only, no zero check. -/
def looseRow1 (n : Nat) (w : Word) : Option Instr :=
  match n with
  | 0x0 => some (.ldi (selOf (w.extractLsb' 16 8)) (w.extractLsb' 0 16))
  | 0x1 => some (.ldhi (selOf (w.extractLsb' 16 8)) (w.extractLsb' 0 16))
  | 0x2 => some (.mov (selOf (w.extractLsb' 16 8)) (selOf (w.extractLsb' 8 8)))
  | 0x3 => some (.modei (w.extractLsb' 16 8) (w.extractLsb' 0 16))
  | 0x4 => some (.mode (selOf (w.extractLsb' 8 8)))
  | 0x5 => some (.rdsp (selOf (w.extractLsb' 16 8)) (w.extractLsb' 0 16))
  | 0x6 => some (.wrsp (selOf (w.extractLsb' 16 8)) (w.extractLsb' 0 16))
  | 0x7 => some (.winld (w.extractLsb' 16 3) (w.extractLsb' 0 8))
  | 0x8 => some (.winsub (w.extractLsb' 20 3) (w.extractLsb' 16 3) (selOf (w.extractLsb' 8 8)) (selOf (w.extractLsb' 0 8)))
  | 0x9 => some (.rdtag (selOf (w.extractLsb' 16 8)) (selOf (w.extractLsb' 8 8)))
  | 0xA => some (.retag (selOf (w.extractLsb' 16 8)) (selOf (w.extractLsb' 8 8)) (selOf (w.extractLsb' 0 8)))
  | _ => none

/-- The words of opcodes 0x20 to 0x2F (R52), by the low opcode nibble; fields only, no zero check. -/
def looseRow2 (n : Nat) (w : Word) : Option Instr :=
  match n with
  | 0x0 => some (.add (selOf (w.extractLsb' 16 8)) (selOf (w.extractLsb' 8 8)) (selOf (w.extractLsb' 0 8)))
  | 0x1 => some (.sub (selOf (w.extractLsb' 16 8)) (selOf (w.extractLsb' 8 8)) (selOf (w.extractLsb' 0 8)))
  | 0x2 => some (.mul (selOf (w.extractLsb' 16 8)) (selOf (w.extractLsb' 8 8)) (selOf (w.extractLsb' 0 8)))
  | 0x3 => some (.mulhi (selOf (w.extractLsb' 16 8)) (selOf (w.extractLsb' 8 8)) (selOf (w.extractLsb' 0 8)))
  | 0x4 => some (.mad (selOf (w.extractLsb' 16 8)) (selOf (w.extractLsb' 8 8)) (selOf (w.extractLsb' 0 8)))
  | 0x5 => some (.min (selOf (w.extractLsb' 16 8)) (selOf (w.extractLsb' 8 8)) (selOf (w.extractLsb' 0 8)))
  | 0x6 => some (.max (selOf (w.extractLsb' 16 8)) (selOf (w.extractLsb' 8 8)) (selOf (w.extractLsb' 0 8)))
  | 0x7 => some (.absd (selOf (w.extractLsb' 16 8)) (selOf (w.extractLsb' 8 8)) (selOf (w.extractLsb' 0 8)))
  | 0x8 => some (.and (selOf (w.extractLsb' 16 8)) (selOf (w.extractLsb' 8 8)) (selOf (w.extractLsb' 0 8)))
  | 0x9 => some (.or (selOf (w.extractLsb' 16 8)) (selOf (w.extractLsb' 8 8)) (selOf (w.extractLsb' 0 8)))
  | 0xA => some (.xor (selOf (w.extractLsb' 16 8)) (selOf (w.extractLsb' 8 8)) (selOf (w.extractLsb' 0 8)))
  | 0xB => some (.andn (selOf (w.extractLsb' 16 8)) (selOf (w.extractLsb' 8 8)) (selOf (w.extractLsb' 0 8)))
  | 0xC => some (.not (selOf (w.extractLsb' 16 8)) (selOf (w.extractLsb' 8 8)))
  | 0xD => some (.shl (selOf (w.extractLsb' 16 8)) (selOf (w.extractLsb' 8 8)) (selOf (w.extractLsb' 0 8)))
  | 0xE => some (.shr (selOf (w.extractLsb' 16 8)) (selOf (w.extractLsb' 8 8)) (selOf (w.extractLsb' 0 8)))
  | 0xF => some (.sar (selOf (w.extractLsb' 16 8)) (selOf (w.extractLsb' 8 8)) (selOf (w.extractLsb' 0 8)))
  | _ => none

/-- The words of opcodes 0x30 to 0x3F (R52), by the low opcode nibble; fields only, no zero check. -/
def looseRow3 (n : Nat) (w : Word) : Option Instr :=
  match n with
  | 0x0 => some (.rol (selOf (w.extractLsb' 16 8)) (selOf (w.extractLsb' 8 8)) (selOf (w.extractLsb' 0 8)))
  | 0x1 => some (.fshl (selOf (w.extractLsb' 16 8)) (selOf (w.extractLsb' 8 8)) (selOf (w.extractLsb' 0 8)))
  | 0x2 => some (.fshr (selOf (w.extractLsb' 16 8)) (selOf (w.extractLsb' 8 8)) (selOf (w.extractLsb' 0 8)))
  | 0x3 => some (.lut3 (selOf (w.extractLsb' 16 8)) (selOf (w.extractLsb' 8 8)) (selOf (w.extractLsb' 0 8)))
  | 0x4 => some (.clz (selOf (w.extractLsb' 16 8)) (selOf (w.extractLsb' 8 8)))
  | 0x5 => some (.ffs (selOf (w.extractLsb' 16 8)) (selOf (w.extractLsb' 8 8)))
  | 0x6 => some (.popc (selOf (w.extractLsb' 16 8)) (selOf (w.extractLsb' 8 8)))
  | 0x7 => some (.brev (selOf (w.extractLsb' 16 8)) (selOf (w.extractLsb' 8 8)))
  | 0x8 => some (.bfx (selOf (w.extractLsb' 16 8)) (selOf (w.extractLsb' 8 8)) (selOf (w.extractLsb' 0 8)))
  | 0x9 => some (.bfi (selOf (w.extractLsb' 16 8)) (selOf (w.extractLsb' 8 8)) (selOf (w.extractLsb' 0 8)))
  | 0xA => some (.cmpeq (selOf (w.extractLsb' 16 8)) (selOf (w.extractLsb' 8 8)) (selOf (w.extractLsb' 0 8)))
  | 0xB => some (.cmpne (selOf (w.extractLsb' 16 8)) (selOf (w.extractLsb' 8 8)) (selOf (w.extractLsb' 0 8)))
  | 0xC => some (.cmplt (selOf (w.extractLsb' 16 8)) (selOf (w.extractLsb' 8 8)) (selOf (w.extractLsb' 0 8)))
  | 0xD => some (.cmple (selOf (w.extractLsb' 16 8)) (selOf (w.extractLsb' 8 8)) (selOf (w.extractLsb' 0 8)))
  | 0xE => some (.sel (selOf (w.extractLsb' 16 8)) (selOf (w.extractLsb' 8 8)) (selOf (w.extractLsb' 0 8)))
  | 0xF => some (.sad (selOf (w.extractLsb' 16 8)) (selOf (w.extractLsb' 8 8)) (selOf (w.extractLsb' 0 8)))
  | _ => none

/-- The words of opcodes 0x40 to 0x4F (R52), by the low opcode nibble; fields only, no zero check. -/
def looseRow4 (n : Nat) (w : Word) : Option Instr :=
  match n with
  | 0x0 => some (.fadd (selOf (w.extractLsb' 16 8)) (selOf (w.extractLsb' 8 8)) (selOf (w.extractLsb' 0 8)))
  | 0x1 => some (.fsub (selOf (w.extractLsb' 16 8)) (selOf (w.extractLsb' 8 8)) (selOf (w.extractLsb' 0 8)))
  | 0x2 => some (.fmul (selOf (w.extractLsb' 16 8)) (selOf (w.extractLsb' 8 8)) (selOf (w.extractLsb' 0 8)))
  | 0x3 => some (.fma (selOf (w.extractLsb' 16 8)) (selOf (w.extractLsb' 8 8)) (selOf (w.extractLsb' 0 8)))
  | 0x4 => some (.fmin (selOf (w.extractLsb' 16 8)) (selOf (w.extractLsb' 8 8)) (selOf (w.extractLsb' 0 8)))
  | 0x5 => some (.fmax (selOf (w.extractLsb' 16 8)) (selOf (w.extractLsb' 8 8)) (selOf (w.extractLsb' 0 8)))
  | 0x6 => some (.fcmpeq (selOf (w.extractLsb' 16 8)) (selOf (w.extractLsb' 8 8)) (selOf (w.extractLsb' 0 8)))
  | 0x7 => some (.fcmplt (selOf (w.extractLsb' 16 8)) (selOf (w.extractLsb' 8 8)) (selOf (w.extractLsb' 0 8)))
  | 0x8 => some (.fcmple (selOf (w.extractLsb' 16 8)) (selOf (w.extractLsb' 8 8)) (selOf (w.extractLsb' 0 8)))
  | 0x9 => some (.fcmpun (selOf (w.extractLsb' 16 8)) (selOf (w.extractLsb' 8 8)) (selOf (w.extractLsb' 0 8)))
  | 0xA => some (.fabs (selOf (w.extractLsb' 16 8)) (selOf (w.extractLsb' 8 8)))
  | 0xB => some (.fneg (selOf (w.extractLsb' 16 8)) (selOf (w.extractLsb' 8 8)))
  | 0xC => some (.rcp (selOf (w.extractLsb' 16 8)) (selOf (w.extractLsb' 8 8)))
  | 0xD => some (.rsqrt (selOf (w.extractLsb' 16 8)) (selOf (w.extractLsb' 8 8)))
  | 0xE => some (.sqrt (selOf (w.extractLsb' 16 8)) (selOf (w.extractLsb' 8 8)))
  | 0xF => some (.exp2 (selOf (w.extractLsb' 16 8)) (selOf (w.extractLsb' 8 8)))
  | _ => none

/-- The words of opcodes 0x50 to 0x5F (R52), by the low opcode nibble; fields only, no zero check. -/
def looseRow5 (n : Nat) (w : Word) : Option Instr :=
  match n with
  | 0x0 => some (.log2 (selOf (w.extractLsb' 16 8)) (selOf (w.extractLsb' 8 8)))
  | 0x1 => some (.sinpi (selOf (w.extractLsb' 16 8)) (selOf (w.extractLsb' 8 8)))
  | 0x2 => some (.cospi (selOf (w.extractLsb' 16 8)) (selOf (w.extractLsb' 8 8)))
  | 0x3 => some (.tanh (selOf (w.extractLsb' 16 8)) (selOf (w.extractLsb' 8 8)))
  | 0x4 => some (.rnd (selOf (w.extractLsb' 16 8)) (selOf (w.extractLsb' 8 8)))
  | 0x5 => some (.frac (selOf (w.extractLsb' 16 8)) (selOf (w.extractLsb' 8 8)))
  | 0x6 => some (.cvt (selOf (w.extractLsb' 16 8)) (selOf (w.extractLsb' 8 8)))
  | 0x7 => some (.dotk (selOf (w.extractLsb' 16 8)) (selOf (w.extractLsb' 8 8)) (selOf (w.extractLsb' 0 8)))
  | 0x8 => some (.dot4 (selOf (w.extractLsb' 16 8)) (selOf (w.extractLsb' 8 8)) (selOf (w.extractLsb' 0 8)))
  | 0x9 => some (.dot2 (selOf (w.extractLsb' 16 8)) (selOf (w.extractLsb' 8 8)) (selOf (w.extractLsb' 0 8)))
  | 0xA => some (.fclass (selOf (w.extractLsb' 16 8)) (selOf (w.extractLsb' 8 8)) (selOf (w.extractLsb' 0 8)))
  | 0xB => some (.ldexp (selOf (w.extractLsb' 16 8)) (selOf (w.extractLsb' 8 8)) (selOf (w.extractLsb' 0 8)))
  | _ => none

/-- The words of opcodes 0x60 to 0x6F (R52), by the low opcode nibble; fields only, no zero check. -/
def looseRow6 (n : Nat) (w : Word) : Option Instr :=
  match n with
  | 0x0 => some (.qshf (selOf (w.extractLsb' 16 8)) (selOf (w.extractLsb' 8 8)) (selOf (w.extractLsb' 0 8)))
  | 0x1 => some (.qswp (selOf (w.extractLsb' 16 8)) (selOf (w.extractLsb' 8 8)) (selOf (w.extractLsb' 0 8)))
  | 0x2 => some (.qred (selOf (w.extractLsb' 16 8)) (selOf (w.extractLsb' 8 8)) (selOf (w.extractLsb' 0 8)))
  | 0x3 => some (.shfi (selOf (w.extractLsb' 16 8)) (selOf (w.extractLsb' 8 8)) (selOf (w.extractLsb' 0 8)))
  | 0x4 => some (.shfx (selOf (w.extractLsb' 16 8)) (selOf (w.extractLsb' 8 8)) (selOf (w.extractLsb' 0 8)))
  | 0x5 => some (.shfu (selOf (w.extractLsb' 16 8)) (selOf (w.extractLsb' 8 8)) (selOf (w.extractLsb' 0 8)))
  | 0x6 => some (.shfd (selOf (w.extractLsb' 16 8)) (selOf (w.extractLsb' 8 8)) (selOf (w.extractLsb' 0 8)))
  | 0x7 => some (.redx (selOf (w.extractLsb' 16 8)) (selOf (w.extractLsb' 8 8)) (selOf (w.extractLsb' 0 8)))
  | 0x8 => some (.scanx (selOf (w.extractLsb' 16 8)) (selOf (w.extractLsb' 8 8)) (selOf (w.extractLsb' 0 8)))
  | 0x9 => some (.ballot (selOf (w.extractLsb' 16 8)) (selOf (w.extractLsb' 8 8)))
  | 0xA => some (.vote (selOf (w.extractLsb' 16 8)) (selOf (w.extractLsb' 8 8)) (selOf (w.extractLsb' 0 8)))
  | 0xB => some (.matchLanes (selOf (w.extractLsb' 16 8)) (selOf (w.extractLsb' 8 8)))
  | 0xC => some (.bcst (selOf (w.extractLsb' 16 8)) (selOf (w.extractLsb' 8 8)) (selOf (w.extractLsb' 0 8)))
  | 0xD => some (.elect (selOf (w.extractLsb' 16 8)))
  | _ => none

/-- The words of opcodes 0x70 to 0x7F (R52), by the low opcode nibble; fields only, no zero check. -/
def looseRow7 (n : Nat) (w : Word) : Option Instr :=
  match n with
  | 0x0 => some (.pset (selOf (w.extractLsb' 16 8)) (selOf (w.extractLsb' 8 8)))
  | 0x1 => some (.pget (selOf (w.extractLsb' 16 8)) (selOf (w.extractLsb' 8 8)))
  | 0x2 => some (.pand (selOf (w.extractLsb' 16 8)) (selOf (w.extractLsb' 8 8)) (selOf (w.extractLsb' 0 8)))
  | 0x3 => some (.por (selOf (w.extractLsb' 16 8)) (selOf (w.extractLsb' 8 8)) (selOf (w.extractLsb' 0 8)))
  | 0x4 => some (.pxor (selOf (w.extractLsb' 16 8)) (selOf (w.extractLsb' 8 8)) (selOf (w.extractLsb' 0 8)))
  | 0x5 => some (.pnot (selOf (w.extractLsb' 16 8)) (selOf (w.extractLsb' 8 8)))
  | 0x6 => some (.pmask (selOf (w.extractLsb' 16 8)) (selOf (w.extractLsb' 8 8)))
  | _ => none

/-- The words of opcodes 0x80 to 0x8F (R52), by the low opcode nibble; fields only, no zero check. -/
def looseRow8 (n : Nat) (w : Word) : Option Instr :=
  match n with
  | 0x0 => some (.ldb (selOf (w.extractLsb' 16 8)) (selOf (w.extractLsb' 8 8)) (w.extractLsb' 5 3) (w.extractLsb' 0 5))
  | 0x1 => some (.ldh (selOf (w.extractLsb' 16 8)) (selOf (w.extractLsb' 8 8)) (w.extractLsb' 5 3) (w.extractLsb' 0 5))
  | 0x2 => some (.ldw (selOf (w.extractLsb' 16 8)) (selOf (w.extractLsb' 8 8)) (w.extractLsb' 5 3) (w.extractLsb' 0 5))
  | 0x3 => some (.ldq (selOf (w.extractLsb' 16 8)) (selOf (w.extractLsb' 8 8)) (w.extractLsb' 5 3) (w.extractLsb' 0 5))
  | 0x4 => some (.stb (selOf (w.extractLsb' 16 8)) (selOf (w.extractLsb' 8 8)) (w.extractLsb' 5 3) (w.extractLsb' 0 5))
  | 0x5 => some (.sth (selOf (w.extractLsb' 16 8)) (selOf (w.extractLsb' 8 8)) (w.extractLsb' 5 3) (w.extractLsb' 0 5))
  | 0x6 => some (.stw (selOf (w.extractLsb' 16 8)) (selOf (w.extractLsb' 8 8)) (w.extractLsb' 5 3) (w.extractLsb' 0 5))
  | 0x7 => some (.stq (selOf (w.extractLsb' 16 8)) (selOf (w.extractLsb' 8 8)) (w.extractLsb' 5 3) (w.extractLsb' 0 5))
  | 0x8 => some (.faa (selOf (w.extractLsb' 16 8)) (selOf (w.extractLsb' 8 8)) (w.extractLsb' 5 3) (w.extractLsb' 0 5))
  | 0x9 => some (.fmn (selOf (w.extractLsb' 16 8)) (selOf (w.extractLsb' 8 8)) (w.extractLsb' 5 3) (w.extractLsb' 0 5))
  | 0xA => some (.fmx (selOf (w.extractLsb' 16 8)) (selOf (w.extractLsb' 8 8)) (w.extractLsb' 5 3) (w.extractLsb' 0 5))
  | 0xB => some (.fand (selOf (w.extractLsb' 16 8)) (selOf (w.extractLsb' 8 8)) (w.extractLsb' 5 3) (w.extractLsb' 0 5))
  | 0xC => some (.fior (selOf (w.extractLsb' 16 8)) (selOf (w.extractLsb' 8 8)) (w.extractLsb' 5 3) (w.extractLsb' 0 5))
  | 0xD => some (.fxor (selOf (w.extractLsb' 16 8)) (selOf (w.extractLsb' 8 8)) (w.extractLsb' 5 3) (w.extractLsb' 0 5))
  | 0xE => some (.swp (selOf (w.extractLsb' 16 8)) (selOf (w.extractLsb' 8 8)) (w.extractLsb' 5 3) (w.extractLsb' 0 5))
  | 0xF => some (.cas (selOf (w.extractLsb' 16 8)) (selOf (w.extractLsb' 8 8)) (w.extractLsb' 5 3) (w.extractLsb' 0 5))
  | _ => none

/-- The words of opcodes 0x90 to 0x9F (R52), by the low opcode nibble; fields only, no zero check. -/
def looseRow9 (n : Nat) (w : Word) : Option Instr :=
  match n with
  | 0x0 => some (.radd (selOf (w.extractLsb' 16 8)) (selOf (w.extractLsb' 8 8)) (w.extractLsb' 5 3) (w.extractLsb' 0 5))
  | 0x1 => some (.rmin (selOf (w.extractLsb' 16 8)) (selOf (w.extractLsb' 8 8)) (w.extractLsb' 5 3) (w.extractLsb' 0 5))
  | 0x2 => some (.rmax (selOf (w.extractLsb' 16 8)) (selOf (w.extractLsb' 8 8)) (w.extractLsb' 5 3) (w.extractLsb' 0 5))
  | 0x3 => some (.ror (selOf (w.extractLsb' 16 8)) (selOf (w.extractLsb' 8 8)) (w.extractLsb' 5 3) (w.extractLsb' 0 5))
  | 0x4 => some (.pfl (w.extractLsb' 16 1) (selOf (w.extractLsb' 8 8)) (w.extractLsb' 5 3) (w.extractLsb' 0 5))
  | 0x5 => some (.cpy (w.extractLsb' 20 3) (w.extractLsb' 16 3) (selOf (w.extractLsb' 8 8)))
  | _ => none

/-- The words of opcodes 0xA0 to 0xAF (R52), by the low opcode nibble; fields only, no zero check. -/
def looseRowA (n : Nat) (w : Word) : Option Instr :=
  match n with
  | 0x0 => some (.fence (w.extractLsb' 0 3))
  | 0x1 => some (.bara (w.extractLsb' 15 1) (w.extractLsb' 4 2) (w.extractLsb' 0 4))
  | 0x2 => some (.barw (w.extractLsb' 15 1) (w.extractLsb' 4 2) (w.extractLsb' 0 4))
  | 0x3 => some (.bars (w.extractLsb' 15 1) (w.extractLsb' 4 2) (w.extractLsb' 0 4))
  | 0x4 => some (.barinit (selOf (w.extractLsb' 16 8)) (w.extractLsb' 15 1) (w.extractLsb' 4 2) (w.extractLsb' 0 4))
  | 0x5 => some (.mwne (selOf (w.extractLsb' 16 8)) (selOf (w.extractLsb' 8 8)) (w.extractLsb' 5 3) (w.extractLsb' 0 5))
  | 0x6 => some (.mwge (selOf (w.extractLsb' 16 8)) (selOf (w.extractLsb' 8 8)) (w.extractLsb' 5 3) (w.extractLsb' 0 5))
  | 0x7 => some (.drain)
  | 0x8 => some (.cwait (w.extractLsb' 0 8))
  | _ => none

/-- The words of opcodes 0xB0 to 0xBF (R52), by the low opcode nibble; fields only, no zero check. -/
def looseRowB (n : Nat) (w : Word) : Option Instr :=
  match n with
  | 0x0 => some (.hop (w.extractLsb' 16 4) (selOf (w.extractLsb' 8 8)))
  | 0x1 => some (.wload (w.extractLsb' 10 3))
  | 0x2 => some (.stage (w.extractLsb' 10 3))
  | 0x3 => some (.chain (w.extractLsb' 10 3))
  | 0x4 => some (.cmit (w.extractLsb' 0 8))
  | 0x5 => some (.cdisc (w.extractLsb' 0 8))
  | 0x6 => some (.qcfg (w.extractLsb' 16 4) (selOf (w.extractLsb' 8 8)))
  | 0x7 => some (.cstat (w.extractLsb' 16 5) (selOf (w.extractLsb' 8 8)))
  | 0x8 => some (.wfree (selOf (w.extractLsb' 8 8)) (selOf (w.extractLsb' 0 8)))
  | _ => none

/-- The words of opcodes 0xC0 to 0xCF (R52), by the low opcode nibble; fields only, no zero check. -/
def looseRowC (n : Nat) (w : Word) : Option Instr :=
  match n with
  | 0x0 => some (.gbind (w.extractLsb' 10 3))
  | 0x1 => some (.gprog (w.extractLsb' 10 3))
  | 0x2 => some (.gmark (w.extractLsb' 10 3))
  | 0x3 => some (.gprop (w.extractLsb' 10 3))
  | 0x4 => some (.gcoll (w.extractLsb' 10 3))
  | 0x5 => some (.gclr (w.extractLsb' 10 3))
  | 0x6 => some (.gwait (w.extractLsb' 0 4))
  | 0x7 => some (.gstat (selOf (w.extractLsb' 16 8)) (selOf (w.extractLsb' 8 8)) (selOf (w.extractLsb' 0 8)))
  | 0x8 => some (.bexec (w.extractLsb' 10 3))
  | 0x9 => some (.rowop (w.extractLsb' 10 3))
  | 0xA => some (.bpage (w.extractLsb' 16 3))
  | _ => none

/-- The words of opcodes 0xD0 to 0xDF (R52), by the low opcode nibble; fields only, no zero check. -/
def looseRowD (n : Nat) (w : Word) : Option Instr :=
  match n with
  | 0x0 => some (.tret)
  | 0x1 => some (.rdsys (selOf (w.extractLsb' 16 8)) (w.extractLsb' 0 16))
  | 0x2 => some (.wrsys (selOf (w.extractLsb' 16 8)) (w.extractLsb' 0 16))
  | 0x3 => some (.ptest (selOf (w.extractLsb' 16 8)) (selOf (w.extractLsb' 8 8)))
  | 0x4 => some (.pclr (selOf (w.extractLsb' 16 8)))
  | 0x5 => some (.sigck)
  | _ => none

/-- The word's instruction by opcode and field places alone (R32, R52); none for a reserved opcode (R53). -/
def looseDecode (w : Word) : Option Instr :=
  let n := (w.extractLsb' 24 4).toNat
  match (w.extractLsb' 28 4).toNat with
  | 0x0 => looseRow0 n w
  | 0x1 => looseRow1 n w
  | 0x2 => looseRow2 n w
  | 0x3 => looseRow3 n w
  | 0x4 => looseRow4 n w
  | 0x5 => looseRow5 n w
  | 0x6 => looseRow6 n w
  | 0x7 => looseRow7 n w
  | 0x8 => looseRow8 n w
  | 0x9 => looseRow9 n w
  | 0xA => looseRowA n w
  | 0xB => looseRowB n w
  | 0xC => looseRowC n w
  | 0xD => looseRowD n w
  | _ => none

/-- The bits of a word of this instruction that the encoding fixes, opcode included (R32 and the entries): mask and value. -/
def fixedBits : Instr → Word × Word
  | .scene _ => (0xFF07FFFF#32, 0x01000000#32)
  | .sceneEnd _ _ _ => (0xFF000000#32, 0x02000000#32)
  | .jmp _ => (0xFF000000#32, 0x03000000#32)
  | .call _ => (0xFF000000#32, 0x04000000#32)
  | .jmpr _ => (0xFFFF00FF#32, 0x05000000#32)
  | .callr _ => (0xFFFF00FF#32, 0x06000000#32)
  | .brc _ _ _ => (0xFF000000#32, 0x07000000#32)
  | .bru _ _ _ => (0xFF000000#32, 0x08000000#32)
  | .exit => (0xFFFFFFFF#32, 0x09000000#32)
  | .trap _ => (0xFFFF0000#32, 0x0A000000#32)
  | .yield => (0xFFFFFFFF#32, 0x0B000000#32)
  | .brk _ => (0xFFFF0000#32, 0x0C000000#32)
  | .nop => (0xFFFFFFFF#32, 0x0D000000#32)
  | .ldi _ _ => (0xFF000000#32, 0x10000000#32)
  | .ldhi _ _ => (0xFF000000#32, 0x11000000#32)
  | .mov _ _ => (0xFF0000FF#32, 0x12000000#32)
  | .modei _ _ => (0xFF000000#32, 0x13000000#32)
  | .mode _ => (0xFFFF00FF#32, 0x14000000#32)
  | .rdsp _ _ => (0xFF000000#32, 0x15000000#32)
  | .wrsp _ _ => (0xFF000000#32, 0x16000000#32)
  | .winld _ _ => (0xFFF8FF00#32, 0x17000000#32)
  | .winsub _ _ _ _ => (0xFF880000#32, 0x18000000#32)
  | .rdtag _ _ => (0xFF0000FF#32, 0x19000000#32)
  | .retag _ _ _ => (0xFF000000#32, 0x1A000000#32)
  | .add _ _ _ => (0xFF000000#32, 0x20000000#32)
  | .sub _ _ _ => (0xFF000000#32, 0x21000000#32)
  | .mul _ _ _ => (0xFF000000#32, 0x22000000#32)
  | .mulhi _ _ _ => (0xFF000000#32, 0x23000000#32)
  | .mad _ _ _ => (0xFF000000#32, 0x24000000#32)
  | .min _ _ _ => (0xFF000000#32, 0x25000000#32)
  | .max _ _ _ => (0xFF000000#32, 0x26000000#32)
  | .absd _ _ _ => (0xFF000000#32, 0x27000000#32)
  | .and _ _ _ => (0xFF000000#32, 0x28000000#32)
  | .or _ _ _ => (0xFF000000#32, 0x29000000#32)
  | .xor _ _ _ => (0xFF000000#32, 0x2A000000#32)
  | .andn _ _ _ => (0xFF000000#32, 0x2B000000#32)
  | .not _ _ => (0xFF0000FF#32, 0x2C000000#32)
  | .shl _ _ _ => (0xFF000000#32, 0x2D000000#32)
  | .shr _ _ _ => (0xFF000000#32, 0x2E000000#32)
  | .sar _ _ _ => (0xFF000000#32, 0x2F000000#32)
  | .rol _ _ _ => (0xFF000000#32, 0x30000000#32)
  | .fshl _ _ _ => (0xFF000000#32, 0x31000000#32)
  | .fshr _ _ _ => (0xFF000000#32, 0x32000000#32)
  | .lut3 _ _ _ => (0xFF000000#32, 0x33000000#32)
  | .clz _ _ => (0xFF0000FF#32, 0x34000000#32)
  | .ffs _ _ => (0xFF0000FF#32, 0x35000000#32)
  | .popc _ _ => (0xFF0000FF#32, 0x36000000#32)
  | .brev _ _ => (0xFF0000FF#32, 0x37000000#32)
  | .bfx _ _ _ => (0xFF000000#32, 0x38000000#32)
  | .bfi _ _ _ => (0xFF000000#32, 0x39000000#32)
  | .cmpeq _ _ _ => (0xFF000000#32, 0x3A000000#32)
  | .cmpne _ _ _ => (0xFF000000#32, 0x3B000000#32)
  | .cmplt _ _ _ => (0xFF000000#32, 0x3C000000#32)
  | .cmple _ _ _ => (0xFF000000#32, 0x3D000000#32)
  | .sel _ _ _ => (0xFF000000#32, 0x3E000000#32)
  | .sad _ _ _ => (0xFF000000#32, 0x3F000000#32)
  | .fadd _ _ _ => (0xFF000000#32, 0x40000000#32)
  | .fsub _ _ _ => (0xFF000000#32, 0x41000000#32)
  | .fmul _ _ _ => (0xFF000000#32, 0x42000000#32)
  | .fma _ _ _ => (0xFF000000#32, 0x43000000#32)
  | .fmin _ _ _ => (0xFF000000#32, 0x44000000#32)
  | .fmax _ _ _ => (0xFF000000#32, 0x45000000#32)
  | .fcmpeq _ _ _ => (0xFF000000#32, 0x46000000#32)
  | .fcmplt _ _ _ => (0xFF000000#32, 0x47000000#32)
  | .fcmple _ _ _ => (0xFF000000#32, 0x48000000#32)
  | .fcmpun _ _ _ => (0xFF000000#32, 0x49000000#32)
  | .fabs _ _ => (0xFF0000FF#32, 0x4A000000#32)
  | .fneg _ _ => (0xFF0000FF#32, 0x4B000000#32)
  | .rcp _ _ => (0xFF0000FF#32, 0x4C000000#32)
  | .rsqrt _ _ => (0xFF0000FF#32, 0x4D000000#32)
  | .sqrt _ _ => (0xFF0000FF#32, 0x4E000000#32)
  | .exp2 _ _ => (0xFF0000FF#32, 0x4F000000#32)
  | .log2 _ _ => (0xFF0000FF#32, 0x50000000#32)
  | .sinpi _ _ => (0xFF0000FF#32, 0x51000000#32)
  | .cospi _ _ => (0xFF0000FF#32, 0x52000000#32)
  | .tanh _ _ => (0xFF0000FF#32, 0x53000000#32)
  | .rnd _ _ => (0xFF0000FF#32, 0x54000000#32)
  | .frac _ _ => (0xFF0000FF#32, 0x55000000#32)
  | .cvt _ _ => (0xFF0000FF#32, 0x56000000#32)
  | .dotk _ _ _ => (0xFF000000#32, 0x57000000#32)
  | .dot4 _ _ _ => (0xFF000000#32, 0x58000000#32)
  | .dot2 _ _ _ => (0xFF000000#32, 0x59000000#32)
  | .fclass _ _ _ => (0xFF000000#32, 0x5A000000#32)
  | .ldexp _ _ _ => (0xFF000000#32, 0x5B000000#32)
  | .qshf _ _ _ => (0xFF000000#32, 0x60000000#32)
  | .qswp _ _ _ => (0xFF000000#32, 0x61000000#32)
  | .qred _ _ _ => (0xFF000000#32, 0x62000000#32)
  | .shfi _ _ _ => (0xFF000000#32, 0x63000000#32)
  | .shfx _ _ _ => (0xFF000000#32, 0x64000000#32)
  | .shfu _ _ _ => (0xFF000000#32, 0x65000000#32)
  | .shfd _ _ _ => (0xFF000000#32, 0x66000000#32)
  | .redx _ _ _ => (0xFF000000#32, 0x67000000#32)
  | .scanx _ _ _ => (0xFF000000#32, 0x68000000#32)
  | .ballot _ _ => (0xFF0000FF#32, 0x69000000#32)
  | .vote _ _ _ => (0xFF000000#32, 0x6A000000#32)
  | .matchLanes _ _ => (0xFF0000FF#32, 0x6B000000#32)
  | .bcst _ _ _ => (0xFF000000#32, 0x6C000000#32)
  | .elect _ => (0xFF00FFFF#32, 0x6D000000#32)
  | .pset _ _ => (0xFF0000FF#32, 0x70000000#32)
  | .pget _ _ => (0xFF0000FF#32, 0x71000000#32)
  | .pand _ _ _ => (0xFF000000#32, 0x72000000#32)
  | .por _ _ _ => (0xFF000000#32, 0x73000000#32)
  | .pxor _ _ _ => (0xFF000000#32, 0x74000000#32)
  | .pnot _ _ => (0xFF0000FF#32, 0x75000000#32)
  | .pmask _ _ => (0xFF0000FF#32, 0x76000000#32)
  | .ldb _ _ _ _ => (0xFF000000#32, 0x80000000#32)
  | .ldh _ _ _ _ => (0xFF000000#32, 0x81000000#32)
  | .ldw _ _ _ _ => (0xFF000000#32, 0x82000000#32)
  | .ldq _ _ _ _ => (0xFF000000#32, 0x83000000#32)
  | .stb _ _ _ _ => (0xFF000000#32, 0x84000000#32)
  | .sth _ _ _ _ => (0xFF000000#32, 0x85000000#32)
  | .stw _ _ _ _ => (0xFF000000#32, 0x86000000#32)
  | .stq _ _ _ _ => (0xFF000000#32, 0x87000000#32)
  | .faa _ _ _ _ => (0xFF000000#32, 0x88000000#32)
  | .fmn _ _ _ _ => (0xFF000000#32, 0x89000000#32)
  | .fmx _ _ _ _ => (0xFF000000#32, 0x8A000000#32)
  | .fand _ _ _ _ => (0xFF000000#32, 0x8B000000#32)
  | .fior _ _ _ _ => (0xFF000000#32, 0x8C000000#32)
  | .fxor _ _ _ _ => (0xFF000000#32, 0x8D000000#32)
  | .swp _ _ _ _ => (0xFF000000#32, 0x8E000000#32)
  | .cas _ _ _ _ => (0xFF000000#32, 0x8F000000#32)
  | .radd _ _ _ _ => (0xFF000000#32, 0x90000000#32)
  | .rmin _ _ _ _ => (0xFF000000#32, 0x91000000#32)
  | .rmax _ _ _ _ => (0xFF000000#32, 0x92000000#32)
  | .ror _ _ _ _ => (0xFF000000#32, 0x93000000#32)
  | .pfl _ _ _ _ => (0xFFFE0000#32, 0x94000000#32)
  | .cpy _ _ _ => (0xFF8800FF#32, 0x95000000#32)
  | .fence _ => (0xFFFFFFF8#32, 0xA0000000#32)
  | .bara _ _ _ => (0xFFFF7FC0#32, 0xA1000000#32)
  | .barw _ _ _ => (0xFFFF7FC0#32, 0xA2000000#32)
  | .bars _ _ _ => (0xFFFF7FC0#32, 0xA3000000#32)
  | .barinit _ _ _ _ => (0xFF007FC0#32, 0xA4000000#32)
  | .mwne _ _ _ _ => (0xFF000000#32, 0xA5000000#32)
  | .mwge _ _ _ _ => (0xFF000000#32, 0xA6000000#32)
  | .drain => (0xFFFFFFFF#32, 0xA7000000#32)
  | .cwait _ => (0xFFFFFF00#32, 0xA8000000#32)
  | .hop _ _ => (0xFFF000FF#32, 0xB0000000#32)
  | .wload _ => (0xFFFFE3FF#32, 0xB1008000#32)
  | .stage _ => (0xFFFFE3FF#32, 0xB2008000#32)
  | .chain _ => (0xFFFFE3FF#32, 0xB3008000#32)
  | .cmit _ => (0xFFFFFF00#32, 0xB4000000#32)
  | .cdisc _ => (0xFFFFFF00#32, 0xB5000000#32)
  | .qcfg _ _ => (0xFFF000FF#32, 0xB6A00000#32)
  | .cstat _ _ => (0xFFE000FF#32, 0xB7800000#32)
  | .wfree _ _ => (0xFFFF0000#32, 0xB8000000#32)
  | .gbind _ => (0xFFFFE3FF#32, 0xC0008000#32)
  | .gprog _ => (0xFFFFE3FF#32, 0xC1008000#32)
  | .gmark _ => (0xFFFFE3FF#32, 0xC2008000#32)
  | .gprop _ => (0xFFFFE3FF#32, 0xC3008000#32)
  | .gcoll _ => (0xFFFFE3FF#32, 0xC4008000#32)
  | .gclr _ => (0xFFFFE3FF#32, 0xC5008000#32)
  | .gwait _ => (0xFFFFFFF0#32, 0xC6000000#32)
  | .gstat _ _ _ => (0xFF000000#32, 0xC7000000#32)
  | .bexec _ => (0xFFFFE3FF#32, 0xC8008000#32)
  | .rowop _ => (0xFFFFE3FF#32, 0xC9008000#32)
  | .bpage _ => (0xFFF8FFFF#32, 0xCA000000#32)
  | .tret => (0xFFFFFFFF#32, 0xD0000000#32)
  | .rdsys _ _ => (0xFF000000#32, 0xD1000000#32)
  | .wrsys _ _ => (0xFF000000#32, 0xD2000000#32)
  | .ptest _ _ => (0xFF0000FF#32, 0xD3000000#32)
  | .pclr _ => (0xFF00FFFF#32, 0xD4000000#32)
  | .sigck => (0xFFFFFFFF#32, 0xD5000000#32)
  | _ => (0#32, 0#32)

/-- The instruction of a word (R32, R36 checks 1 and 6 as far as fixed fields go). -/
def decodeWord (w : Word) : Except DecodeError Instr :=
  match looseDecode w with
  | none => .error (.reservedOpcode (w.extractLsb' 24 8))
  | some i =>
    if w &&& (fixedBits i).1 = (fixedBits i).2 then .ok i
    else .error (.unusedField (w.extractLsb' 24 8))

/-- The little-endian word of four bytes (R5). -/
def wordOfBytes (b0 b1 b2 b3 : Byte) : Word := b3 ++ b2 ++ b1 ++ b0

/-- The instruction at the front of a byte list and the bytes after it (R5, R32). -/
def decodeBytes : List Byte → Except DecodeError (Instr × List Byte)
  | b0 :: b1 :: b2 :: b3 :: rest =>
    match decodeWord (wordOfBytes b0 b1 b2 b3) with
    | .ok i => .ok (i, rest)
    | .error e => .error e
  | _ => .error .shortInput

/-- The byte of a selector (R38). -/
def selByte : Sel → BitVec 8
  | .v n => 0#1 ++ n
  | .s n => 4#3 ++ n
  | .q n => 0xA#4 ++ n
  | .p n => 0x16#5 ++ n
  | .t n => 0x17#5 ++ n
  | .k n => 3#2 ++ n

/-- The 32-bit word of an instruction, from the formats of R32 and the entries' field tables; none for an event. -/
def encode? : Instr → Option Word
  | .scene l => some (0x01#8 ++ l ++ 0#19)
  | .sceneEnd x y z => some (0x02#8 ++ x ++ y ++ z)
  | .jmp f => some (0x03#8 ++ f)
  | .call f => some (0x04#8 ++ f)
  | .jmpr a => some (0x05#8 ++ 0#8 ++ selByte a ++ 0#8)
  | .callr a => some (0x06#8 ++ 0#8 ++ selByte a ++ 0#8)
  | .brc p j f => some (0x07#8 ++ p ++ j ++ f)
  | .bru p c f => some (0x08#8 ++ p ++ c ++ f)
  | .exit => some (0x09#8 ++ 0#24)
  | .trap i => some (0x0A#8 ++ 0#8 ++ i)
  | .yield => some (0x0B#8 ++ 0#24)
  | .brk i => some (0x0C#8 ++ 0#8 ++ i)
  | .nop => some (0x0D#8 ++ 0#24)
  | .ldi d i => some (0x10#8 ++ selByte d ++ i)
  | .ldhi d i => some (0x11#8 ++ selByte d ++ i)
  | .mov d a => some (0x12#8 ++ selByte d ++ selByte a ++ 0#8)
  | .modei d i => some (0x13#8 ++ d ++ i)
  | .mode a => some (0x14#8 ++ 0#8 ++ selByte a ++ 0#8)
  | .rdsp d n => some (0x15#8 ++ selByte d ++ n)
  | .wrsp s n => some (0x16#8 ++ selByte s ++ n)
  | .winld w n => some (0x17#8 ++ 0#5 ++ w ++ 0#8 ++ n)
  | .winsub s d a b => some (0x18#8 ++ 0#1 ++ s ++ 0#1 ++ d ++ selByte a ++ selByte b)
  | .rdtag d a => some (0x19#8 ++ selByte d ++ selByte a ++ 0#8)
  | .retag d a b => some (0x1A#8 ++ selByte d ++ selByte a ++ selByte b)
  | .add d a b => some (0x20#8 ++ selByte d ++ selByte a ++ selByte b)
  | .sub d a b => some (0x21#8 ++ selByte d ++ selByte a ++ selByte b)
  | .mul d a b => some (0x22#8 ++ selByte d ++ selByte a ++ selByte b)
  | .mulhi d a b => some (0x23#8 ++ selByte d ++ selByte a ++ selByte b)
  | .mad d a b => some (0x24#8 ++ selByte d ++ selByte a ++ selByte b)
  | .min d a b => some (0x25#8 ++ selByte d ++ selByte a ++ selByte b)
  | .max d a b => some (0x26#8 ++ selByte d ++ selByte a ++ selByte b)
  | .absd d a b => some (0x27#8 ++ selByte d ++ selByte a ++ selByte b)
  | .and d a b => some (0x28#8 ++ selByte d ++ selByte a ++ selByte b)
  | .or d a b => some (0x29#8 ++ selByte d ++ selByte a ++ selByte b)
  | .xor d a b => some (0x2A#8 ++ selByte d ++ selByte a ++ selByte b)
  | .andn d a b => some (0x2B#8 ++ selByte d ++ selByte a ++ selByte b)
  | .not d a => some (0x2C#8 ++ selByte d ++ selByte a ++ 0#8)
  | .shl d a b => some (0x2D#8 ++ selByte d ++ selByte a ++ selByte b)
  | .shr d a b => some (0x2E#8 ++ selByte d ++ selByte a ++ selByte b)
  | .sar d a b => some (0x2F#8 ++ selByte d ++ selByte a ++ selByte b)
  | .rol d a b => some (0x30#8 ++ selByte d ++ selByte a ++ selByte b)
  | .fshl d a b => some (0x31#8 ++ selByte d ++ selByte a ++ selByte b)
  | .fshr d a b => some (0x32#8 ++ selByte d ++ selByte a ++ selByte b)
  | .lut3 d a b => some (0x33#8 ++ selByte d ++ selByte a ++ selByte b)
  | .clz d a => some (0x34#8 ++ selByte d ++ selByte a ++ 0#8)
  | .ffs d a => some (0x35#8 ++ selByte d ++ selByte a ++ 0#8)
  | .popc d a => some (0x36#8 ++ selByte d ++ selByte a ++ 0#8)
  | .brev d a => some (0x37#8 ++ selByte d ++ selByte a ++ 0#8)
  | .bfx d a b => some (0x38#8 ++ selByte d ++ selByte a ++ selByte b)
  | .bfi d a b => some (0x39#8 ++ selByte d ++ selByte a ++ selByte b)
  | .cmpeq d a b => some (0x3A#8 ++ selByte d ++ selByte a ++ selByte b)
  | .cmpne d a b => some (0x3B#8 ++ selByte d ++ selByte a ++ selByte b)
  | .cmplt d a b => some (0x3C#8 ++ selByte d ++ selByte a ++ selByte b)
  | .cmple d a b => some (0x3D#8 ++ selByte d ++ selByte a ++ selByte b)
  | .sel d a b => some (0x3E#8 ++ selByte d ++ selByte a ++ selByte b)
  | .sad d a b => some (0x3F#8 ++ selByte d ++ selByte a ++ selByte b)
  | .fadd d a b => some (0x40#8 ++ selByte d ++ selByte a ++ selByte b)
  | .fsub d a b => some (0x41#8 ++ selByte d ++ selByte a ++ selByte b)
  | .fmul d a b => some (0x42#8 ++ selByte d ++ selByte a ++ selByte b)
  | .fma d a b => some (0x43#8 ++ selByte d ++ selByte a ++ selByte b)
  | .fmin d a b => some (0x44#8 ++ selByte d ++ selByte a ++ selByte b)
  | .fmax d a b => some (0x45#8 ++ selByte d ++ selByte a ++ selByte b)
  | .fcmpeq d a b => some (0x46#8 ++ selByte d ++ selByte a ++ selByte b)
  | .fcmplt d a b => some (0x47#8 ++ selByte d ++ selByte a ++ selByte b)
  | .fcmple d a b => some (0x48#8 ++ selByte d ++ selByte a ++ selByte b)
  | .fcmpun d a b => some (0x49#8 ++ selByte d ++ selByte a ++ selByte b)
  | .fabs d a => some (0x4A#8 ++ selByte d ++ selByte a ++ 0#8)
  | .fneg d a => some (0x4B#8 ++ selByte d ++ selByte a ++ 0#8)
  | .rcp d a => some (0x4C#8 ++ selByte d ++ selByte a ++ 0#8)
  | .rsqrt d a => some (0x4D#8 ++ selByte d ++ selByte a ++ 0#8)
  | .sqrt d a => some (0x4E#8 ++ selByte d ++ selByte a ++ 0#8)
  | .exp2 d a => some (0x4F#8 ++ selByte d ++ selByte a ++ 0#8)
  | .log2 d a => some (0x50#8 ++ selByte d ++ selByte a ++ 0#8)
  | .sinpi d a => some (0x51#8 ++ selByte d ++ selByte a ++ 0#8)
  | .cospi d a => some (0x52#8 ++ selByte d ++ selByte a ++ 0#8)
  | .tanh d a => some (0x53#8 ++ selByte d ++ selByte a ++ 0#8)
  | .rnd d a => some (0x54#8 ++ selByte d ++ selByte a ++ 0#8)
  | .frac d a => some (0x55#8 ++ selByte d ++ selByte a ++ 0#8)
  | .cvt d a => some (0x56#8 ++ selByte d ++ selByte a ++ 0#8)
  | .dotk d a b => some (0x57#8 ++ selByte d ++ selByte a ++ selByte b)
  | .dot4 d a b => some (0x58#8 ++ selByte d ++ selByte a ++ selByte b)
  | .dot2 d a b => some (0x59#8 ++ selByte d ++ selByte a ++ selByte b)
  | .fclass d a b => some (0x5A#8 ++ selByte d ++ selByte a ++ selByte b)
  | .ldexp d a b => some (0x5B#8 ++ selByte d ++ selByte a ++ selByte b)
  | .qshf d a b => some (0x60#8 ++ selByte d ++ selByte a ++ selByte b)
  | .qswp d a b => some (0x61#8 ++ selByte d ++ selByte a ++ selByte b)
  | .qred d a b => some (0x62#8 ++ selByte d ++ selByte a ++ selByte b)
  | .shfi d a b => some (0x63#8 ++ selByte d ++ selByte a ++ selByte b)
  | .shfx d a b => some (0x64#8 ++ selByte d ++ selByte a ++ selByte b)
  | .shfu d a b => some (0x65#8 ++ selByte d ++ selByte a ++ selByte b)
  | .shfd d a b => some (0x66#8 ++ selByte d ++ selByte a ++ selByte b)
  | .redx d a b => some (0x67#8 ++ selByte d ++ selByte a ++ selByte b)
  | .scanx d a b => some (0x68#8 ++ selByte d ++ selByte a ++ selByte b)
  | .ballot d a => some (0x69#8 ++ selByte d ++ selByte a ++ 0#8)
  | .vote d a b => some (0x6A#8 ++ selByte d ++ selByte a ++ selByte b)
  | .matchLanes d a => some (0x6B#8 ++ selByte d ++ selByte a ++ 0#8)
  | .bcst d a b => some (0x6C#8 ++ selByte d ++ selByte a ++ selByte b)
  | .elect d => some (0x6D#8 ++ selByte d ++ 0#16)
  | .pset d a => some (0x70#8 ++ selByte d ++ selByte a ++ 0#8)
  | .pget d a => some (0x71#8 ++ selByte d ++ selByte a ++ 0#8)
  | .pand d a b => some (0x72#8 ++ selByte d ++ selByte a ++ selByte b)
  | .por d a b => some (0x73#8 ++ selByte d ++ selByte a ++ selByte b)
  | .pxor d a b => some (0x74#8 ++ selByte d ++ selByte a ++ selByte b)
  | .pnot d a => some (0x75#8 ++ selByte d ++ selByte a ++ 0#8)
  | .pmask d a => some (0x76#8 ++ selByte d ++ selByte a ++ 0#8)
  | .ldb d a w k => some (0x80#8 ++ selByte d ++ selByte a ++ w ++ k)
  | .ldh d a w k => some (0x81#8 ++ selByte d ++ selByte a ++ w ++ k)
  | .ldw d a w k => some (0x82#8 ++ selByte d ++ selByte a ++ w ++ k)
  | .ldq d a w k => some (0x83#8 ++ selByte d ++ selByte a ++ w ++ k)
  | .stb d a w k => some (0x84#8 ++ selByte d ++ selByte a ++ w ++ k)
  | .sth d a w k => some (0x85#8 ++ selByte d ++ selByte a ++ w ++ k)
  | .stw d a w k => some (0x86#8 ++ selByte d ++ selByte a ++ w ++ k)
  | .stq d a w k => some (0x87#8 ++ selByte d ++ selByte a ++ w ++ k)
  | .faa d a w k => some (0x88#8 ++ selByte d ++ selByte a ++ w ++ k)
  | .fmn d a w k => some (0x89#8 ++ selByte d ++ selByte a ++ w ++ k)
  | .fmx d a w k => some (0x8A#8 ++ selByte d ++ selByte a ++ w ++ k)
  | .fand d a w k => some (0x8B#8 ++ selByte d ++ selByte a ++ w ++ k)
  | .fior d a w k => some (0x8C#8 ++ selByte d ++ selByte a ++ w ++ k)
  | .fxor d a w k => some (0x8D#8 ++ selByte d ++ selByte a ++ w ++ k)
  | .swp d a w k => some (0x8E#8 ++ selByte d ++ selByte a ++ w ++ k)
  | .cas d a w k => some (0x8F#8 ++ selByte d ++ selByte a ++ w ++ k)
  | .radd d a w k => some (0x90#8 ++ selByte d ++ selByte a ++ w ++ k)
  | .rmin d a w k => some (0x91#8 ++ selByte d ++ selByte a ++ w ++ k)
  | .rmax d a w k => some (0x92#8 ++ selByte d ++ selByte a ++ w ++ k)
  | .ror d a w k => some (0x93#8 ++ selByte d ++ selByte a ++ w ++ k)
  | .pfl t a w k => some (0x94#8 ++ 0#7 ++ t ++ selByte a ++ w ++ k)
  | .cpy s d a => some (0x95#8 ++ 0#1 ++ s ++ 0#1 ++ d ++ selByte a ++ 0#8)
  | .fence s => some (0xA0#8 ++ 0#21 ++ s)
  | .bara g p h => some (0xA1#8 ++ 0#8 ++ g ++ 0#9 ++ p ++ h)
  | .barw g p h => some (0xA2#8 ++ 0#8 ++ g ++ 0#9 ++ p ++ h)
  | .bars g p h => some (0xA3#8 ++ 0#8 ++ g ++ 0#9 ++ p ++ h)
  | .barinit c g p h => some (0xA4#8 ++ selByte c ++ g ++ 0#9 ++ p ++ h)
  | .mwne d a w k => some (0xA5#8 ++ selByte d ++ selByte a ++ w ++ k)
  | .mwge d a w k => some (0xA6#8 ++ selByte d ++ selByte a ++ w ++ k)
  | .drain => some (0xA7#8 ++ 0#24)
  | .cwait c => some (0xA8#8 ++ 0#16 ++ c)
  | .hop h a => some (0xB0#8 ++ 0#4 ++ h ++ selByte a ++ 0#8)
  | .wload n => some (0xB1#8 ++ 4#11 ++ n ++ 0#10)
  | .stage n => some (0xB2#8 ++ 4#11 ++ n ++ 0#10)
  | .chain n => some (0xB3#8 ++ 4#11 ++ n ++ 0#10)
  | .cmit c => some (0xB4#8 ++ 0#16 ++ c)
  | .cdisc c => some (0xB5#8 ++ 0#16 ++ c)
  | .qcfg q a => some (0xB6#8 ++ 10#4 ++ q ++ selByte a ++ 0#8)
  | .cstat d a => some (0xB7#8 ++ 4#3 ++ d ++ selByte a ++ 0#8)
  | .wfree a b => some (0xB8#8 ++ 0#8 ++ selByte a ++ selByte b)
  | .gbind n => some (0xC0#8 ++ 4#11 ++ n ++ 0#10)
  | .gprog n => some (0xC1#8 ++ 4#11 ++ n ++ 0#10)
  | .gmark n => some (0xC2#8 ++ 4#11 ++ n ++ 0#10)
  | .gprop n => some (0xC3#8 ++ 4#11 ++ n ++ 0#10)
  | .gcoll n => some (0xC4#8 ++ 4#11 ++ n ++ 0#10)
  | .gclr n => some (0xC5#8 ++ 4#11 ++ n ++ 0#10)
  | .gwait t => some (0xC6#8 ++ 0#20 ++ t)
  | .gstat d a b => some (0xC7#8 ++ selByte d ++ selByte a ++ selByte b)
  | .bexec n => some (0xC8#8 ++ 4#11 ++ n ++ 0#10)
  | .rowop n => some (0xC9#8 ++ 4#11 ++ n ++ 0#10)
  | .bpage d => some (0xCA#8 ++ 0#5 ++ d ++ 0#16)
  | .tret => some (0xD0#8 ++ 0#24)
  | .rdsys d n => some (0xD1#8 ++ selByte d ++ n)
  | .wrsys s n => some (0xD2#8 ++ selByte s ++ n)
  | .ptest d a => some (0xD3#8 ++ selByte d ++ selByte a ++ 0#8)
  | .pclr d => some (0xD4#8 ++ selByte d ++ 0#16)
  | .sigck => some (0xD5#8 ++ 0#24)
  | .deferredResultLands _ => none
  | .emptyWaitEnd _ _ => none
  | .stalledPerformResume _ _ => none
  | .preemptionRequest _ => none
  | .groupResume _ _ => none
  | .parkedGroupReady _ => none
  | .ptsSelfIncrement _ => none
  | .lineEviction _ => none
  | .homeLoad _ _ => none
  | .homeStore _ _ => none
  | .homeAtomic _ => none
  | .storeAcknowledge _ => none
  | .wcSectorTimeout _ _ => none
  | .gatherWindowExpiry _ => none
  | .gatherWake _ => none
  | .agentLineRelease _ _ => none
  | .copyRetire _ => none
  | .fencePerform _ => none
  | .drainComplete _ _ => none
  | .mwaitWatchFire _ _ => none
  | .mwaitPoll _ _ => none
  | .sequencerIssue _ => none
  | .wloadRetire _ => none
  | .wfreeRetire _ => none
  | .engineOutputEntry _ => none
  | .stageRetire _ => none
  | .rehearsalHeld _ => none
  | .engineBitstepReplay _ => none
  | .bankCommandComplete _ => none
  | .bankRowWrite _ _ => none
  | .demandWaitTimeout _ => none
  | .bankRefresh _ => none
  | .waveArrival _ => none
  | .gbindApply _ => none
  | .waveStart _ => none
  | .markerMessage _ _ => none
  | .weightReturn _ _ => none
  | .weightLoan _ _ => none
  | .collectPush _ => none
  | .launchWatchFire _ _ => none
  | .predecessorRelease _ => none
  | .gangPlacement _ _ _ => none
  | .gangSteal _ _ _ => none
  | .clusterClear _ _ _ => none
  | .progressEviction _ => none
  | .launchCompletion _ => none
  | .callboardAgeTrigger _ _ => none
  | .callboardHoldRelease _ => none
  | .parkRetry _ _ => none
  | .parkDeliver _ _ => none
  | .parkKillGang _ _ => none
  | .quiesce _ => none
  | .rebase _ => none
  | .teardown _ => none
  | .teardownClear _ => none
  | .shootdownGo _ _ => none
  | .shootdownDone _ => none
  | .partidWrite _ _ => none
  | .ptrootWrite _ _ => none
  | .graphctlWrite _ _ _ => none
  | .marginWrite _ _ => none
  | .ltelimWrite _ _ => none
  | .ltewinWrite _ _ => none
  | .quarWrite _ _ => none
  | .healthWrite _ _ => none
  | .registerWrite _ _ => none
  | .lateTransitionEvent _ => none
  | .lteWindowExpiry _ => none
  | .sliceErrorThreshold _ _ => none
  | .impreciseError _ _ _ _ => none
  | .understudyCompare _ => none
  | .dieFailure _ => none
  | .dieLinkFailure _ _ _ => none
  | .thermalGate _ => none
  | .thermalStop _ => none
  | .combineRequestArrival _ => none
  | .combineHoldExpiry _ => none
  | .replySplit _ => none
  | .recoverReply _ => none
  | .recordExpiry _ => none
  | .switchReset _ _ _ => none
  | .combtestDisarm _ _ => none
  | .combtestCorruptCopy _ _ => none
  | .combtestLoseRecord _ _ => none
  | .combtestResetSwitch _ _ => none
  | .rdmaWrite _ => none
  | .rdmaRead _ => none
  | .atomicFetchAdd _ => none
  | .invalidRequest _ => none
  | .deviceDma _ => none
  | .pldmMonitoring _ => none
  | .pldmFirmwareUpdate _ => none
  | .spdmMeasurements => none
  | .powerOnBoot => none
  | .thermalUngate _ => none
  | .bisnpResponse _ _ => none
  | .homeLogExpiry _ => none

/-- The word of a word-instruction; 0, which decodes to nothing, for an event. -/
def encode (i : Instr) : Word := (encode? i).getD 0#32

/-- The four bytes of a word, lowest address first (R5). -/
def bytesOfWord (w : Word) : List Byte :=
  [w.extractLsb' 0 8, w.extractLsb' 8 8, w.extractLsb' 16 8, w.extractLsb' 24 8]

/-- The words an instruction is stored as. -/
def encodeBytes (i : Instr) : List Byte := bytesOfWord (encode i)

/-- The instruction the decoder reads from an instruction whose bits are w (every W768 word is 32 bits, one word). -/
def decodeTableWord (_nbits w : Nat) : Option Instr :=
  match decodeBytes (bytesOfWord (BitVec.ofNat 32 w)) with
  | .ok (i, _) => some i
  | .error _ => none

end Sys2Proof
end

