-- ==== Sys2Proof/Machine/Base.lean ====
section
/-! DEFINITION. Bit fields, byte order, tables keyed by number, and lane helpers, used by every layer above. -/

namespace Sys2Proof.Machine

/-- Bits [hi:lo] of a word as a number (R4, R6). -/
def bits (x : Word) (hi lo : Nat) : Nat := (x.toNat >>> lo) % 2 ^ (hi + 1 - lo)

/-- Bit i of a word. -/
def bitOf (x : Word) (i : Nat) : Bool := x.getLsbD i

/-- The word with bit i set to b. -/
def setBit (x : Word) (i : Nat) (b : Bool) : Word :=
  if b then x ||| (1#32 <<< i) else x &&& ~~~(1#32 <<< i)

/-- The word whose bit l is f l, for the 32 lanes. -/
def maskOf (f : Nat → Bool) : Word :=
  BitVec.ofNat 32 ((List.range 32).foldl (fun acc l => if f l then acc + 2 ^ l else acc) 0)

/-- Sext of R6: the n-bit value at the bottom of x, sign-extended to 32 bits. -/
def sext (x : Word) (n : Nat) : Word :=
  let v := x.toNat % 2 ^ n
  if v < 2 ^ (n - 1) then BitVec.ofNat 32 v else BitVec.ofNat 32 (v + 2 ^ 32 - 2 ^ n)

/-- The lanes of a mask in ascending order. -/
def lanesOf (m : Word) : List Nat := (List.range 32).filter (fun l => m.getLsbD l)

/-- The lowest lane of a mask, 0 for an empty one. -/
def lowLane (m : Word) : Nat := (lanesOf m).headD 0

/-- A lane's value; 0 outside the 32 lanes. -/
def laneAt (x : Lanes) (l : Nat) : Word := x[l]?.getD 0#32

/-- The lanes whose values are f l. -/
def lanesFrom (f : Nat → Word) : Lanes := Vector.ofFn fun i => f i.val

/-- Every lane the same value. -/
def lanesAll (x : Word) : Lanes := Vector.replicate 32 x

/-- New values in the lanes of m, the old ones elsewhere. -/
def mergeLanes (m : Word) (new old : Lanes) : Lanes :=
  lanesFrom fun l => if m.getLsbD l then laneAt new l else laneAt old l

/-- The bytes of a value, least significant first (R5). -/
def bytesLE (n : Nat) (x : Nat) : List Byte := (List.range n).map fun i => BitVec.ofNat 8 (x >>> (8 * i))

/-- The value of a byte list, least significant first (R5). -/
def ofBytesLE (bs : List Byte) : Nat := bs.foldr (fun b acc => b.toNat + 256 * acc) 0

/-- Ceiling division. -/
def ceilDiv (a b : Nat) : Nat := (a + b - 1) / b

/-- Sums that stop at a bound (saturating counters). -/
def satAdd (a b top : Nat) : Nat := min (a + b) top

/-- A table from numbers to values, given as a list with a default. -/
abbrev Tbl (α : Type) := List (Nat × α)

/-- The table's entry at k, or d. -/
def tget {α : Type} (t : Tbl α) (k : Nat) (d : α) : α :=
  match t with
  | [] => d
  | (j, x) :: r => if j = k then x else tget r k d

/-- The table's entry at k, if there is one. -/
def tfind {α : Type} (t : Tbl α) (k : Nat) : Option α :=
  match t with
  | [] => none
  | (j, x) :: r => if j = k then some x else tfind r k

/-- The table with entry k set to x; every other entry keeps its value. -/
def tset {α : Type} (t : Tbl α) (k : Nat) (x : α) : Tbl α :=
  (k, x) :: t.filter (fun e => e.1 ≠ k)

/-- The table without entry k. -/
def terase {α : Type} (t : Tbl α) (k : Nat) : Tbl α := t.filter (fun e => e.1 ≠ k)

/-- The first element of a list with the property replaced by f of it. -/
def updFirst {α : Type} (p : α → Bool) (f : α → α) : List α → List α
  | [] => []
  | x :: r => if p x then f x :: r else x :: updFirst p f r

/-- Every element with the property replaced by f of it. -/
def updAll {α : Type} (p : α → Bool) (f : α → α) (xs : List α) : List α :=
  xs.map fun x => if p x then f x else x

/-- A physical address's line, sector, stack, home die and home slice (R3, R146, R235). -/
def lineOf (pa : Nat) : Nat := pa / 256
def sectorOf (pa : Nat) : Nat := pa / 32
def stackOf (pa : Nat) : Nat := pa / Config.stackBytes

/-- The die that homes a physical address: stacks 2d and 2d+1 (R235); expander lines are homed on die 0 (R403). -/
def homeDie (pa : Nat) : Nat := if pa < Config.memBytes then stackOf pa / 2 else 0

/-- The home slice of a line, DESIGN CHOICE (log 6): the fixed hash of R146 is the line number modulo the slices not retired (R379). -/
def homeSlice (retired : List (Nat × Nat)) (pa : Nat) : Nat :=
  let d := homeDie pa
  let live := (List.range Config.slicesPerDie).filter (fun s => !retired.contains (d, s))
  live.getD (lineOf pa % live.length) 0

/-- The row of a byte within its stack, and whether it is a zero row (R235, R236). -/
def rowOf (pa : Nat) : Nat := (pa % Config.stackBytes) / 524288
def zeroRow (pa : Nat) : Bool := pa < Config.memBytes && rowOf pa % 512 == 0

/-- The bank of a byte among the package's 4,096: stack, DRAM die, bank (R235). -/
def bankOf (pa : Nat) : Nat :=
  stackOf pa * 512 + (pa % Config.stackBytes / 32768 % 16) * 32 + pa % Config.stackBytes / 1024 % 32

/-- Core geometry (R3, R102): the die and cluster of a core, the first core of a cluster. -/
def dieOfCore (c : Nat) : Nat := c / Config.coresPerDie
def clusterOfCore (c : Nat) : Nat := c / Config.coresPerCluster
def dieOfCluster (k : Nat) : Nat := k / 24

/-- Clocks of a number of nanoseconds at 1.9 GHz (R3), rounded up. -/
def clksOfNs (n : Nat) : Nat := ceilDiv (n * 19) 10
/-- Clocks of a number of microseconds at 1.9 GHz (R3). -/
def clksOfUs (n : Nat) : Nat := n * 1900
/-- The package nanosecond count at a clock count, DEDUCED (log 5): floor(clk / 1.9). -/
def nsOfClk (c : Nat) : Nat := c * 10 / 19

end Sys2Proof.Machine
end

