-- ==== Sys2Proof/Machine/Legal.lean ====
section
/-! DEFINITION. What the decoder of a scene judges in one word without any state: its class (R51, R52), the operands
it reads and writes (R36, R48), operand kinds and encoding limits (R36 check 6, R38 to R42). -/

namespace Sys2Proof.Machine

/-- The kinds of operand selector (R38). -/
inductive Kind where
  | v | s | q | p | t | k
  deriving DecidableEq, Repr

/-- The kind of a selector. -/
def kindOf : Sel → Kind
  | .v _ => .v | .s _ => .s | .q _ => .q | .p _ => .p | .t _ => .t | .k _ => .k

/-- The operand positions of R48: sources a and b, and d. -/
inductive Pos where
  | a | b | d
  deriving DecidableEq, Repr

/-- One operand of a word: its selector, the kinds legal there, whether it is read and written. -/
structure Opd where
  sel : Sel
  kinds : List Kind
  rd : Bool
  wr : Bool
  deriving DecidableEq, Repr

/-- The instruction classes of R51. -/
inductive WClass where
  | immediate | deferred | commit | final
  deriving DecidableEq, Repr

/-- The operands of a word, position by position, and its class before R39 changes it. -/
structure Shape where
  cls : WClass := .immediate
  d : Option Opd := none
  a : Option Opd := none
  b : Option Opd := none
  /-- a scalar destination may stand over per-lane sources (R38) -/
  uniform : Bool := false
  deriving DecidableEq, Repr

/-- A per-lane source (R38), a per-lane destination, a scalar or constant source, a predicate destination. -/
def laneSrc (x : Sel) : Option Opd := some { sel := x, kinds := [.v, .s, .t, .p, .k], rd := true, wr := false }
def laneDst (x : Sel) : Option Opd := some { sel := x, kinds := [.v, .s, .t, .p, .q], rd := false, wr := true }
def laneUpd (x : Sel) : Option Opd := some { sel := x, kinds := [.v, .s, .t, .p], rd := true, wr := true }
def uniSrc (x : Sel) : Option Opd := some { sel := x, kinds := [.s, .k], rd := true, wr := false }
def srcIn (ks : List Kind) (x : Sel) : Option Opd := some { sel := x, kinds := ks, rd := true, wr := false }
def dstIn (ks : List Kind) (x : Sel) : Option Opd := some { sel := x, kinds := ks, rd := false, wr := true }
def updIn (ks : List Kind) (x : Sel) : Option Opd := some { sel := x, kinds := ks, rd := true, wr := true }

/-- The common shapes: two sources, one source, d read as well, a compare, a shuffle with a uniform count. -/
def lane2 (d a b : Sel) : Shape := { d := laneDst d, a := laneSrc a, b := laneSrc b }
def lane1 (d a : Sel) : Shape := { d := laneDst d, a := laneSrc a }
def lane3 (d a b : Sel) : Shape := { d := laneUpd d, a := laneSrc a, b := laneSrc b }
def cmp2 (d a b : Sel) : Shape := { d := dstIn [.p] d, a := laneSrc a, b := laneSrc b }
/-- A shuffle whose count b is per lane: v, t, scalar or constant (R131, R132). -/
def lane2n (d a b : Sel) : Shape := { d := laneDst d, a := laneSrc a, b := srcIn [.v, .t, .s, .k] b }
def lane2u (d a b : Sel) : Shape := { d := laneDst d, a := laneSrc a, b := uniSrc b }
/-- Memory words (R156 to R165): a per-lane or uniform offset. -/
def offSrc (x : Sel) : Option Opd := srcIn [.v, .t, .s, .k] x
def loadShape (d a : Sel) : Shape := { cls := .deferred, d := dstIn [.v, .s] d, a := offSrc a }
def storeShape (d a : Sel) : Shape := { cls := .commit, d := srcIn [.v, .t, .s, .k] d, a := offSrc a }
def atomShape (d a : Sel) : Shape := { cls := .deferred, d := updIn [.v, .s] d, a := offSrc a }
/-- A descriptor in s(4n) to s(4n+3) (R227, R252, R288). -/
def descShape (n : BitVec 3) : Shape := { cls := .commit, a := srcIn [.s] (.s (BitVec.ofNat 5 (4 * n.toNat))) }
def finalShape : Shape := { cls := .final }
def commitShape : Shape := { cls := .commit }

/-- The shape of every word, from the entries of R91 to R315. redx takes the destinations that R133 names, scalar, v and t, and no p or q
(R38 and R39 allow those in general; DEDUCED, log 92). -/
def shape : Instr → Shape
  | .scene _ | .sceneEnd _ _ _ | .nop | .modei _ _ => {}
  | .jmp _ | .exit | .trap _ | .yield | .brk _ | .bara _ _ _ | .barw _ _ _ | .bars _ _ _ | .drain | .cwait _
  | .gwait _ | .tret => finalShape
  | .call _ => { cls := .final, d := dstIn [.s] (.s 31#5) }
  | .jmpr a => { cls := .final, a := srcIn [.s] a }
  | .callr a => { cls := .final, a := srcIn [.s] a, d := dstIn [.s] (.s 31#5) }
  | .brc p _ _ | .bru p _ _ => { cls := .final, a := srcIn [.p] (.p p) }
  | .ldi d _ => { d := laneDst d }
  | .ldhi d _ => { d := updIn [.v, .s, .t, .p, .q] d }
  | .mov d a => { d := laneDst d, a := srcIn [.v, .s, .t, .p, .k, .q] a,
                  cls := if kindOf a = .q then .deferred else .immediate }
  | .mode a => { a := uniSrc a }
  | .rdsp d _ => { d := laneDst d, uniform := true }
  | .wrsp s _ => { cls := .commit, d := uniSrc s }
  | .winld _ _ => commitShape
  | .winsub _ _ a b => { cls := .commit, a := uniSrc a, b := uniSrc b }
  | .rdtag d a => { d := dstIn [.v, .t, .s] d, a := srcIn [.v, .t] a, uniform := true }
  | .retag d a b => { d := dstIn [.v, .t] d, a := srcIn [.v, .t] a, b := uniSrc b }
  | .add d a b | .sub d a b | .mul d a b | .mulhi d a b | .min d a b | .max d a b | .absd d a b | .and d a b
  | .or d a b | .xor d a b | .andn d a b | .shl d a b | .shr d a b | .sar d a b | .rol d a b | .bfx d a b
  | .fadd d a b | .fsub d a b | .fmul d a b | .fmin d a b | .fmax d a b | .ldexp d a b => lane2 d a b
  | .qshf d a b | .shfi d a b => lane2n d a b
  | .sel d a b => { d := dstIn [.v, .t, .p, .q] d, a := laneSrc a, b := laneSrc b }
  | .mad d a b | .fshl d a b | .fshr d a b | .lut3 d a b | .bfi d a b | .sad d a b | .fma d a b | .dot2 d a b
  | .dot4 d a b => lane3 d a b
  | .not d a | .clz d a | .ffs d a | .popc d a | .brev d a | .fabs d a | .fneg d a | .rcp d a | .rsqrt d a
  | .sqrt d a | .exp2 d a | .log2 d a | .sinpi d a | .cospi d a | .tanh d a | .rnd d a | .frac d a => lane1 d a
  | .cmpeq d a b | .cmpne d a b | .cmplt d a b | .cmple d a b | .fcmpeq d a b | .fcmplt d a b | .fcmple d a b
  | .fcmpun d a b => cmp2 d a b
  | .cvt d a => { d := laneDst d, a := srcIn [.v, .t] a }
  | .dotk d a b => { d := laneUpd d, a := srcIn [.v] a, b := srcIn [.v] b }
  | .fclass d a b => { d := dstIn [.p] d, a := laneSrc a, b := uniSrc b }
  | .qswp d a b | .qred d a b | .shfx d a b | .shfu d a b | .shfd d a b | .bcst d a b => lane2u d a b
  | .redx d a b => { d := dstIn [.v, .t, .s] d, a := laneSrc a, b := uniSrc b, uniform := true }
  | .scanx d a b => { d := dstIn [.v, .t] d, a := laneSrc a, b := uniSrc b }
  | .ballot d a => { d := dstIn [.s] d, a := srcIn [.v, .t, .p] a, uniform := true }
  | .vote d a b => { d := dstIn [.s, .p] d, a := laneSrc a, b := uniSrc b, uniform := true }
  | .matchLanes d a => { d := dstIn [.v] d, a := laneSrc a }
  | .elect d => { d := dstIn [.p, .s] d, uniform := true }
  | .pset d a | .pmask d a => { d := dstIn [.p] d, a := uniSrc a }
  | .pget d a => { d := dstIn [.s] d, a := srcIn [.p] a, uniform := true }
  | .pand d a b | .por d a b | .pxor d a b => { d := dstIn [.p] d, a := srcIn [.p] a, b := srcIn [.p] b }
  | .pnot d a => { d := dstIn [.p] d, a := srcIn [.p] a }
  | .ldb d a _ _ | .ldh d a _ _ | .ldw d a _ _ | .ldq d a _ _ => loadShape d a
  | .stb d a _ _ | .sth d a _ _ | .stw d a _ _ | .radd d a _ _ | .rmin d a _ _ | .rmax d a _ _ | .ror d a _ _ =>
    storeShape d a
  | .stq d a _ _ => { cls := .commit, d := srcIn [.v, .s] d, a := offSrc a }
  | .faa d a _ _ | .fmn d a _ _ | .fmx d a _ _ | .fand d a _ _ | .fior d a _ _ | .fxor d a _ _ | .swp d a _ _
  | .cas d a _ _ => atomShape d a
  | .pfl _ a _ _ => { cls := .commit, a := offSrc a }
  | .cpy _ _ a => { cls := .commit, a := uniSrc a }
  | .fence _ | .cmit _ | .cdisc _ | .bpage _ | .sigck => commitShape
  | .barinit c _ _ _ => { cls := .commit, d := uniSrc c }
  | .mwne d a _ _ | .mwge d a _ _ => { cls := .final, d := uniSrc d, a := uniSrc a }
  | .hop _ a | .qcfg _ a => { cls := .commit, a := uniSrc a }
  | .wload n | .stage n | .chain n | .gbind n | .gprog n | .gmark n | .gprop n | .gcoll n | .gclr n | .bexec n
  | .rowop n => descShape n
  | .cstat d a => { cls := .deferred, d := dstIn [.s] (.s d), a := uniSrc a, uniform := true }
  | .wfree a b => { cls := .commit, a := uniSrc a, b := uniSrc b }
  | .gstat d a b => { cls := .deferred, d := dstIn [.v, .s] d, a := uniSrc a,
                      b := if kindOf d = .v then none else uniSrc b, uniform := true }
  | .rdsys d _ => { d := dstIn [.v, .t, .s, .p] d, uniform := true }
  | .wrsys s _ => { cls := .commit, d := uniSrc s }
  | .ptest d a => { d := dstIn [.p, .s] d, a := srcIn [.v, .t, .s, .p] a, uniform := true }
  | .pclr d => { d := dstIn [.v, .t, .p, .s] d }
  | _ => {}

/-- The opcodes' rows that are words; every other row is an event (R52). -/
def isWord (i : Instr) : Bool := (encode? i).isSome

/-- The class of a word (R51): a q destination makes it commit-time (R39). -/
def classOfWord (i : Instr) : WClass :=
  let sh := shape i
  match sh.d with
  | some o => if o.wr && kindOf o.sel == .q then .commit else sh.cls
  | none => sh.cls

def isFinal (i : Instr) : Bool := classOfWord i == .final

/-- The n registers from a selector on; those beyond the file do not exist. -/
def Sel.run : Sel → Nat → List Sel
  | .v x, n => ((List.range n).filter fun i => decide (x.toNat + i < 128)).map fun i => .v (BitVec.ofNat 7 (x.toNat + i))
  | .s x, n => ((List.range n).filter fun i => decide (x.toNat + i < 32)).map fun i => .s (BitVec.ofNat 5 (x.toNat + i))
  | x, _ => [x]

/-- How many registers an operand covers (R77, R157, R159, R163, R227). -/
def spanOf (i : Instr) (pos : Pos) : Nat :=
  match i, pos with
  | .ldq _ _ _ _, .d | .stq _ _ _ _, .d => 4
  | .cas _ _ _ _, .d => 2
  | .dotk _ _ _, .a | .dotk _ _ _, .b => 2
  | .wload _, .a | .stage _, .a | .chain _, .a | .gbind _, .a | .gprog _, .a | .gmark _, .a | .gprop _, .a
  | .gcoll _, .a | .gclr _, .a | .bexec _, .a | .rowop _, .a => 4
  | _, _ => 1

/-- The operands of a word by position. -/
def operands (i : Instr) : List (Pos × Opd) :=
  let sh := shape i
  (sh.a.toList.map fun o => (.a, o)) ++ (sh.b.toList.map fun o => (.b, o)) ++ (sh.d.toList.map fun o => (.d, o))

/-- The registers a word reads, with the position whose mode bit judges them (R36, R48). -/
def readsOf (i : Instr) : List (Pos × Sel) :=
  (operands i).flatMap fun (pos, o) =>
    if o.rd && kindOf o.sel != .k && kindOf o.sel != .q then (Sel.run o.sel (spanOf i pos)).map fun x => (pos, x) else []

/-- The registers a word writes; a push writes none (R36, R39). pclr counts as a write of its register (R314 "Like any write", where R49 says
it writes no data; DEDUCED, log 90). -/
def writesOf (i : Instr) : List Sel :=
  match (shape i).d with
  | some o =>
    if o.wr && kindOf o.sel != .q then Sel.run o.sel (match i with | .ldq _ _ _ _ => 4 | _ => 1) else []
  | none => []

/-- The published destination of a deferred producer (R35, R47). -/
def produces (i : Instr) : Option Sel :=
  if classOfWord i = .deferred then (shape i).d.map (·.sel) else none

/-- The byte of a selector (R38). -/
def selCode (x : Sel) : BitVec 8 := selByte x

/-- A constant's index in the table of R40. -/
def constIn (x : Sel) (ok : Nat → Bool) : Bool :=
  match x with
  | .k n => ok n.toNat
  | _ => true

/-- The encoding limits that the entries state (R36 check 6; constants of count positions with a stated range). -/
def limits : Instr → Bool
  | .brc _ j _ => j != 0#10
  | .bru _ c _ => c != 3#2
  | .modei d n =>
    match d.toNat with
    | 0 => decide (n.toNat < 256)
    | 1 => decide (n.toNat < 8)
    | 2 => decide (n.toNat < 14)
    | 3 => decide (n.toNat < 5)
    | 4 => decide (n.toNat < 64)
    | _ => false
  | .rdsp d n =>
    decide (n.toNat ≤ 22) && !(decide (n.toNat ≤ 2) && kindOf d == .s)
      && (!(n.toNat == 17 || n.toNat == 18) || kindOf d == .s)
  | .wrsp _ n => n.toNat == 19 || n.toNat == 20 || n.toNat == 21
  | .retag _ _ b => constIn b fun k => decide (k ≤ 12) || k == 15
  | .dotk _ a b =>
    match a, b with
    | .v x, .v y => x.toNat % 2 == 0 && y.toNat % 2 == 0
    | _, _ => false
  | .qswp _ _ b => constIn b fun k => decide (1 ≤ k) && decide (k ≤ 3)
  | .qred _ _ b | .redx _ _ b | .scanx _ _ b => constIn b fun k => decide (k ≤ 5)
  | .shfx _ _ b | .shfu _ _ b | .shfd _ _ b => constIn b fun k => decide (1 ≤ k) && decide (k ≤ 5)
  | .vote _ _ b => constIn b fun k => decide (k ≤ 3)
  | .mov d a => kindOf a != .q || kindOf d == .v || kindOf d == .s
  | .ldq d _ _ _ | .stq d _ _ _ =>
    match d with
    | .v x => x.toNat % 4 == 0
    | .s x => x.toNat % 4 == 0
    | _ => true
  | .cas d _ _ _ =>
    match d with
    | .v x => x.toNat % 2 == 0
    | .s x => x.toNat % 2 == 0
    | _ => true
  | .fence k => decide (k.toNat ≤ 5)
  | .bara g _ p | .barw g _ p | .bars g _ p | .barinit _ g _ p => g == 0#1 || decide (p.toNat ≤ 7)
  | .gstat d _ b => kindOf d != .v || b == .v 0#7
  | _ => true

/-- Whether a word is a reduction (R165). -/
def isReduction : Instr → Bool
  | .radd _ _ _ _ | .rmin _ _ _ _ | .rmax _ _ _ _ | .ror _ _ _ _ => true
  | _ => false

/-- R156's illegal combination at a reduction: a scalar d with a per-lane offset (R159 exempts stores from it). -/
def reduceOk (i : Instr) : Bool :=
  let sh := shape i
  !(isReduction i && (sh.d.any fun o => kindOf o.sel == .s) && sh.a.any fun o => kindOf o.sel == .v || kindOf o.sel == .t)

/-- Operand kinds (R38, R39, R156): each kind legal in its position, no destination p0, a scalar destination only over
scalar and constant sources. -/
def kindsOk (i : Instr) : Bool :=
  let sh := shape i
  reduceOk i &&
  ((operands i).all fun e => e.2.kinds.contains (kindOf e.2.sel))
    && (match sh.d with
        | some o => !(o.wr && o.sel == .p 0#3)
            && !(o.wr && kindOf o.sel == .s && !sh.uniform && sh.cls != .final && (operands i).any fun e =>
              e.2.rd && (kindOf e.2.sel == .v || kindOf e.2.sel == .t || kindOf e.2.sel == .p))
        | none => true)

/-- A word that passes check 6 of R36, the register count apart. -/
def legal (i : Instr) : Bool := kindsOk i && limits i

/-- Every v register a word names is below the kernel's register count (R24). -/
def fitsRegs (regs : Nat) (i : Instr) : Bool :=
  ((readsOf i).map (·.2) ++ writesOf i).all fun x =>
    match x with
    | .v n => decide (n.toNat < regs)
    | _ => true

end Sys2Proof.Machine
end

