-- ==== Sys2Proof/Machine/Num.lean ====
section
/-! DEFINITION. Numbers bit by bit: element types (R45, R67), range rules (R68), formats (R70 to R72), rounding (R73
to R75), conversions (R76), fused sums (R82), constants (R40 to R42). -/

namespace Sys2Proof.Machine

/-- Element type codes (R45). -/
abbrev tI32 : Nat := 0
abbrev tN32 : Nat := 1
abbrev tF32 : Nat := 2
abbrev tBF16 : Nat := 3
abbrev tF16 : Nat := 4
abbrev tI16 : Nat := 5
abbrev tN16 : Nat := 6
abbrev tI8 : Nat := 7
abbrev tN8 : Nat := 8
abbrev tE4M3 : Nat := 9
abbrev tE5M2 : Nat := 10
abbrev tK4 : Nat := 11
abbrev tFX : Nat := 12
abbrev tTAG : Nat := 13
abbrev tRAW : Nat := 15

/-- The element width of a type (R67, R70, R77); RAW counts as one 32-bit element. -/
def widthOf (e : Nat) : Nat :=
  match e with
  | 3 | 4 | 5 | 6 => 16
  | 7 | 8 | 9 | 10 => 8
  | 11 => 4
  | _ => 32

/-- Elements per lane. -/
def countOf (e : Nat) : Nat := 32 / widthOf e

/-- Type sets of R90 and R118. -/
def setA (e : Nat) : Bool := e == 0 || e == 1 || e == 5 || e == 6 || e == 7 || e == 8 || e == 12
def setZ (e : Nat) : Bool := e == 0 || e == 1 || e == 5 || e == 6 || e == 7 || e == 8
def setW (e : Nat) : Bool := e == 0 || e == 1
def setF (e : Nat) : Bool := e == 2 || e == 3 || e == 4
def setF8 (e : Nat) : Bool := e == 9 || e == 10
def setAny (e : Nat) : Bool := decide (e ≤ 13)
def signedT (e : Nat) : Bool := e == 0 || e == 5 || e == 7 || e == 12

/-- Element i of a lane, w bits wide; element 0 is the least significant (R67). -/
def elemAt (x : Word) (w i : Nat) : Nat := x.toNat / 2 ^ (w * i) % 2 ^ w

/-- The lane whose n elements of w bits are f i. -/
def joinElems (w n : Nat) (f : Nat → Nat) : Word :=
  BitVec.ofNat 32 ((List.range n).foldl (fun acc i => acc + f i % 2 ^ w * 2 ^ (w * i)) 0)

/-- The integer an element encodes (R67): two's complement for the signed types. -/
def intOf (e w x : Nat) : Int := if signedT e && decide (2 ^ (w - 1) ≤ x) then (x : Int) - 2 ^ w else x

/-- The bounds of a type's range (R67). -/
def minOf (e : Nat) : Int := if signedT e then -(2 ^ (widthOf e - 1)) else 0
def maxOf (e : Nat) : Int := if signedT e then 2 ^ (widthOf e - 1) - 1 else 2 ^ widthOf e - 1

/-- R68: an exact result modulo 2^w, or at the nearest bound under SAT. -/
def fitInt (sat : Bool) (e : Nat) (v : Int) : Nat :=
  let x := if sat then (if v < minOf e then minOf e else if maxOf e < v then maxOf e else v) else v
  (x % 2 ^ widthOf e).toNat

/-- R73: a magnitude q + r / d (r < d) rounded to an integer; neg is the value's sign. -/
def roundMag (rm : Nat) (neg : Bool) (q r d : Nat) : Nat :=
  if r = 0 then q
  else
    let up : Bool :=
      match rm with
      | 0 => decide (d < 2 * r) || (2 * r == d && q % 2 == 1)
      | 1 => false
      | 2 => neg
      | 3 => !neg
      | _ => decide (d ≤ 2 * r)
    if up then q + 1 else q

/-- m · 2^e rounded to a multiple of 2^q; answers the multiple (R73). -/
def roundTo2 (rm : Nat) (neg : Bool) (m : Nat) (e q : Int) : Nat :=
  if q ≤ e then m * 2 ^ (e - q).toNat
  else
    let d := 2 ^ (q - e).toNat
    roundMag rm neg (m / d) (m % d) d

/-- A signed exact value v / 2^k rounded to an integer (R69, R76). -/
def roundInt (rm : Nat) (v : Int) (k : Nat) : Int :=
  let m := roundTo2 rm (decide (v < 0)) v.natAbs (-(k : Int)) 0
  if v < 0 then -(m : Int) else m

/-- A floating-point format (R70). -/
structure Fmt where
  eb : Nat
  fb : Nat
  bias : Nat
  /-- largest finite value: significand and exponent -/
  maxM : Nat
  maxE : Int
  nan : Nat
  /-- has the exponent all ones for infinities and NaNs -/
  ieee : Bool
  /-- overflow by the IEEE rule (F32, F16, BF16) -/
  wide : Bool
  deriving DecidableEq, Repr

/-- The format of a floating-point type (R70). -/
def fmtOf (e : Nat) : Fmt :=
  match e with
  | 3 => { eb := 8, fb := 7, bias := 127, maxM := 255, maxE := 120, nan := 0x7FC0, ieee := true, wide := true }
  | 4 => { eb := 5, fb := 10, bias := 15, maxM := 2047, maxE := 5, nan := 0x7E00, ieee := true, wide := true }
  | 9 => { eb := 4, fb := 3, bias := 7, maxM := 14, maxE := 5, nan := 0x7F, ieee := false, wide := false }
  | 10 => { eb := 5, fb := 2, bias := 15, maxM := 7, maxE := 13, nan := 0x7E, ieee := true, wide := false }
  | _ => { eb := 8, fb := 23, bias := 127, maxM := 2 ^ 24 - 1, maxE := 104, nan := 0x7FC00000, ieee := true, wide := true }

/-- A decoded floating-point value: NaN, an infinity, or (−1)^neg · m · 2^e. -/
inductive FVal where
  | nan
  | inf (neg : Bool)
  | num (neg : Bool) (m : Nat) (e : Int)
  deriving DecidableEq, Repr

def FVal.isNan : FVal → Bool
  | .nan => true
  | _ => false
def FVal.isInf : FVal → Bool
  | .inf _ => true
  | _ => false
def FVal.isZero : FVal → Bool
  | .num _ 0 _ => true
  | _ => false
def FVal.neg : FVal → Bool
  | .nan => false
  | .inf n => n
  | .num n _ _ => n
def FVal.negate : FVal → FVal
  | .nan => .nan
  | .inf n => .inf (!n)
  | .num n m e => .num (!n) m e

/-- The value of an encoding (R70); under FTZ a subnormal reads as zero of its sign (R72). -/
def Fmt.decode (f : Fmt) (ftz : Bool) (x : Nat) : FVal :=
  let neg := decide (x / 2 ^ (f.eb + f.fb) % 2 = 1)
  let ex := x / 2 ^ f.fb % 2 ^ f.eb
  let fr := x % 2 ^ f.fb
  if f.ieee && ex == 2 ^ f.eb - 1 then (if fr = 0 then .inf neg else .nan)
  else if !f.ieee && ex == 2 ^ f.eb - 1 && fr == 2 ^ f.fb - 1 then .nan
  else if ex = 0 then .num neg (if ftz then 0 else fr) (1 - (f.bias : Int) - f.fb)
  else .num neg (2 ^ f.fb + fr) ((ex : Int) - f.bias - f.fb)

/-- The encodings of zero, infinity and the largest finite value of a sign. -/
def Fmt.zero (f : Fmt) (neg : Bool) : Nat := if neg then 2 ^ (f.eb + f.fb) else 0
def Fmt.infinity (f : Fmt) (neg : Bool) : Nat := f.zero neg + (2 ^ f.eb - 1) * 2 ^ f.fb
def Fmt.largest (f : Fmt) (neg : Bool) : Nat :=
  f.zero neg + (f.maxE + f.fb + f.bias).toNat * 2 ^ f.fb + (f.maxM - 2 ^ f.fb)

/-- The overflow result (R74). -/
def Fmt.overflow (f : Fmt) (rm : Nat) (sat neg : Bool) : Nat :=
  if f.wide then
    if rm == 0 || rm == 4 || (rm == 2 && neg) || (rm == 3 && !neg) then f.infinity neg else f.largest neg
  else if sat then f.largest neg
  else if f.ieee then f.infinity neg else f.nan

/-- RoundTo of R73, R74 and R72: a nonzero or signed-zero exact value as an encoding. -/
def Fmt.round (f : Fmt) (rm : Nat) (ftz sat neg : Bool) (m : Nat) (e : Int) : Nat :=
  if m = 0 then f.zero neg
  else
    let top : Int := (Nat.log2 m : Int) + e
    let qu := top - f.fb
    let mu := roundTo2 rm neg m e qu
    let lo := min qu f.maxE
    if f.maxM * 2 ^ (f.maxE - lo).toNat < mu * 2 ^ (qu - lo).toNat then f.overflow rm sat neg
    else
      let emin : Int := 1 - f.bias
      if ftz && decide ((Nat.log2 mu : Int) + qu < emin) then f.zero neg
      else
        let q := max top emin - f.fb
        let r := roundTo2 rm neg m e q
        if r < 2 ^ f.fb then f.zero neg + r
        else if r < 2 ^ (f.fb + 1) then f.zero neg + (q + f.fb + f.bias).toNat * 2 ^ f.fb + (r - 2 ^ f.fb)
        else f.zero neg + (q + 1 + f.fb + f.bias).toNat * 2 ^ f.fb

/-- An exact signed value as an integer multiple of 2^e. -/
def FVal.at : FVal → Int → Int
  | .num n m e, q => let x : Int := m * 2 ^ (e - q).toNat; if n then -x else x
  | _, _ => 0
def FVal.exp : FVal → Int
  | .num _ _ e => e
  | _ => 0

/-- The rounded sum of finite exact values, with the zero sign of R75. -/
def Fmt.sum (f : Fmt) (rm : Nat) (ftz sat : Bool) (xs : List FVal) : Nat :=
  let q : Int := xs.foldl (fun (q : Int) x => if x.isZero then q else min q x.exp) 1000
  let t : Int := xs.foldl (fun (t : Int) x => if x.isZero then t else t + x.at q) 0
  if t = 0 then
    let sign := match xs with
      | [] => false
      | x :: r =>
        if xs.all FVal.isZero && r.all (fun y => y.neg == x.neg) then x.neg else rm == 2
    f.zero sign
  else f.round rm ftz sat (decide (t < 0)) t.natAbs q

/-- The product of two values: NaN for ∞ × 0 (R82, R119). -/
def FVal.mul : FVal → FVal → FVal
  | .nan, _ => .nan
  | _, .nan => .nan
  | .inf a, .inf b => .inf (a != b)
  | .inf a, .num b m _ => if m = 0 then .nan else .inf (a != b)
  | .num a m _, .inf b => if m = 0 then .nan else .inf (a != b)
  | .num a m e, .num b n k => .num (a != b) (m * n) (e + k)

/-- Fused of R82 over exact products and d: NaN, an infinity, or the one rounding of the exact sum. -/
def Fmt.fused (f : Fmt) (rm : Nat) (ftz sat : Bool) (xs : List FVal) : Nat :=
  if xs.any FVal.isNan then f.nan
  else
    match xs.filter FVal.isInf with
    | [] => f.sum rm ftz sat xs
    | x :: r => if r.all fun y => y.neg == x.neg then f.infinity x.neg else f.nan

/-- Comparison of two values that are no NaN: x < y (R120, R121); zeros are equal. -/
def FVal.lt (x y : FVal) : Bool :=
  match x, y with
  | .inf a, .inf b => a && !b
  | .inf a, .num _ _ _ => a
  | .num _ _ _, .inf b => !b
  | .num _ _ e, .num _ _ k => let q := min e k; decide (x.at q < y.at q)
  | _, _ => false

/-- Whether two values that are no NaN are equal (R121). -/
def FVal.eqv (x y : FVal) : Bool := !x.isNan && !y.isNan && !x.lt y && !y.lt x

/-- A finite, infinite or NaN value written in a format: conversions between floating-point types (R76). -/
def Fmt.ofVal (f : Fmt) (rm : Nat) (ftz sat : Bool) : FVal → Nat
  | .nan => f.nan
  | .inf n => if f.ieee then f.infinity n else if sat then f.largest n else f.nan
  | .num n m e => f.round rm ftz sat n m e

/-- An encoding with FTZ applied to its input: a subnormal becomes zero of its sign (R72, R120). -/
def Fmt.flushed (f : Fmt) (ftz : Bool) (x : Nat) : Nat :=
  match f.decode ftz x with
  | .num n 0 _ => f.zero n
  | _ => x

/-- One element converted from type e to type d (R76). An integer or FX32 zero becomes +0 of a floating-point type in every rounding mode
(R75 speaks of addends only; DEDUCED, log 91). -/
def convElem (rm : Nat) (ftz sat : Bool) (e d : Nat) (x : Nat) : Nat :=
  let ef := setF e || setF8 e
  let df := setF d || setF8 d
  if ef then
    let v := (fmtOf e).decode ftz x
    if df then (fmtOf d).ofVal rm ftz sat v
    else
      match v with
      | .nan => 0
      | .inf n => fitInt true d (if n then minOf d else maxOf d)
      | .num n m q =>
        let s : Int := if d == tFX then -16 else 0
        let r := roundTo2 rm n m q s
        fitInt true d (if n then -(r : Int) else r)
  else
    let v := intOf e (widthOf e) x
    if df then (fmtOf d).round rm ftz sat (decide (v < 0)) v.natAbs (if e == tFX then -16 else 0)
    else if e == tFX && d != tFX then fitInt sat d (roundInt rm v 16)
    else if e != tFX && d == tFX then fitInt sat d (v * 65536)
    else fitInt sat d v

/-- Constants as exact fractions n / d with a binary exponent, by K number (R40); none for K63. ln 2 and its inverse
are given to 160 bits, more than any type of R41 can tell apart. -/
def constFrac (k : Nat) : Option (Int × Nat) :=
  if k ≤ 32 then some (k, 1)
  else if k ≤ 48 then some (32 - (k : Int), 1)
  else
    match k with
    | 49 => some (1, 2) | 50 => some (1, 4) | 51 => some (1, 8) | 52 => some (1, 16)
    | 53 => some (1, 2 ^ 10) | 54 => some (1, 2 ^ 16) | 55 => some (1, 2 ^ 24)
    | 56 => some (64, 1) | 57 => some (128, 1) | 58 => some (256, 1)
    | 59 => some (1, 3) | 60 => some (1, 255)
    | 61 => some (1013035739299659071135698605846798551586536899366, 2 ^ 160)
    | 62 => some (2108501164428393954197770173035669514763056903506, 2 ^ 160)
    | _ => none

/-- Whether a constant is integral (R41). -/
def constIntegral (k : Nat) : Bool := decide (k ≤ 48) || k == 56 || k == 57 || k == 58

/-- A constant as a lane of type e (R41); none where the table says trap. -/
def constLane (ftz : Bool) (e k : Nat) : Option Word :=
  let w := widthOf e
  let fill (x : Nat) : Word := joinElems w (countOf e) fun _ => x
  if setF e || setF8 e then
    let f := fmtOf e
    match constFrac k with
    | none => some (fill (if e == 9 then f.largest false else f.infinity false))
    | some (n, d) =>
      if d = 1 then some (fill (f.round 0 ftz false (decide (n < 0)) n.natAbs 0))
      else
        -- n / d to 64 bits beyond the point with a sticky bit below them: enough for round-to-nearest-even
        let q := n.natAbs * 2 ^ 64 / d
        let r := n.natAbs * 2 ^ 64 % d
        some (fill (f.round 0 ftz false (decide (n < 0)) (2 * q + (if r = 0 then 0 else 1)) (-65)))
  else if e == tFX then
    match constFrac k with
    | none => some 0x7FFF_FFFF#32
    | some (n, d) =>
      let m := n.natAbs * 65536
      let r := roundMag 0 (decide (n < 0)) (m / d) (m % d) d
      some (BitVec.ofInt 32 (if n < 0 then -(r : Int) else r))
  else if setZ e then
    match constFrac k with
    | none => some (fill (maxOf e).toNat)
    | some (n, _) =>
      if constIntegral k && decide (minOf e ≤ n) && decide (n ≤ maxOf e) then some (fill (n % 2 ^ w).toNat) else none
  else none

/-- A constant in a count position (R42). -/
def constCount (k : Nat) : Option Word :=
  if k = 63 then some 0xFFFF_FFFF#32
  else
    match constFrac k with
    | some (n, _) => if constIntegral k && decide (0 ≤ n) then some (BitVec.ofInt 32 n) else none
    | none => none

end Sys2Proof.Machine
end

