-- ==== Sys2Proof/Machine/GroupState.lean ====
section
/-! DEFINITION. The state of a group: registers, PC slots, split stack, trap state (R7 to R28, R43 to R50), the
scene in issue, and the prompt book's kept values (R318). -/

namespace Sys2Proof.Machine

/-- A vector register (R23, R46, R47, R49). -/
structure VReg where
  /-- R23: 32 bits per lane; reset 0 (R322) -/
  lanes : Lanes := Vector.replicate 32 0#32
  /-- R45, R46: 4-bit format tag; reset RAW = 15 (R322) -/
  tag : BitVec 4 := 15#4
  /-- R49: poison, bit l for lane l; reset clear (R322) -/
  pois : Word := 0#32
  /-- R47: full/empty; reset full (R322) -/
  full : Bool := true
  deriving DecidableEq, Repr

/-- A scalar register (R23). -/
structure SReg where
  /-- R23: 32 bits; reset 0 (R322) -/
  val : Word := 0#32
  /-- R49: poison; reset clear (R322) -/
  pois : Bool := false
  /-- R47: full/empty; reset full (R322) -/
  full : Bool := true
  deriving DecidableEq, Repr

/-- A predicate register (R23): one bit and one poison bit per lane; p0's home is unused, it reads all ones (R38). -/
structure PReg where
  /-- R23: bit l for lane l; reset 0, p1 to p7 clear (R322) -/
  val : Word := 0#32
  /-- R49: poison; reset clear (R322) -/
  pois : Word := 0#32
  deriving DecidableEq, Repr

/-- What a queue selector is bound as (R217, R230). -/
inductive QKind where
  | unbound
  | input (fmt : BitVec 2)
  | output
  | collect
  deriving DecidableEq, Repr

/-- A group's binding of a queue (R217, R223). -/
structure QBind where
  /-- R230: kind and format; reset unbound (R322) -/
  kind : QKind := .unbound
  /-- R223: the binding is marked lost; reset no (R322) -/
  lost : Bool := false
  deriving DecidableEq, Repr

/-- The STATE field of a PC slot (R25). -/
inductive SlotState where
  | empty | ready | waiting | atJoin
  deriving DecidableEq, Repr

/-- The WAIT field of a PC slot (R25). -/
inductive WaitKind where
  | none | barrier | mwne | mwgeS | mwgeU | drain | cwait | gwait | fence
  deriving DecidableEq, Repr

/-- Why a fragment that is ready by STATE is held at its header: an empty register (R48), its routed
trap, or the other slot's handler, to retry its scene or to take a pending trap word (R308). -/
inductive Hold where
  | none
  | emptyReg
  | handlerRetry
  | handlerPend (info : Word)
  /-- its routed trap has parked the group (R308) -/
  | trapPark
  /-- its trap word waits for the park that the other fragment's routed trap has set off (R308; log 81) -/
  | parkPend (info : Word)
  deriving DecidableEq, Repr

/-- A PC slot, and an entry of the split stack (R13, R25). -/
structure Slot where
  /-- R25: MASK, 32 bits; reset 0 -/
  mask : Word := 0#32
  /-- R25, R88: PC, a code offset; reset 0 -/
  pc : Word := 0#32
  /-- R25: JOIN; reset none -/
  join : Word := Config.noJoin
  /-- R43: MODE; reset 0x0080_0000 -/
  mode : Word := Config.modeReset
  /-- R25: STATE; reset empty -/
  st : SlotState := .empty
  /-- R25: WAIT; reset none -/
  wait : WaitKind := .none
  /-- R25: WARG; reset 0 -/
  warg : Word := 0#32
  /-- R25: WADDR, 57 bits; reset 0 -/
  waddr : BitVec 57 := 0#57
  /-- R25: WSPACE; reset 0 -/
  wspace : BitVec 2 := 0#2
  /-- R25, R308: HANDLER bit of this slot; reset 0 -/
  handler : Bool := false
  /-- R25, R48, R308: PEND bit and the other reasons a fragment is held; reset none -/
  hold : Hold := .none
  /-- R174: a watch is registered for this waiter; reset no -/
  watched : Bool := false
  /-- R174, R284: a write to the watched word happened; reset no -/
  fired : Bool := false
  /-- R174: physical address of a watched global word; reset 0 -/
  wpa : Nat := 0
  /-- R172: the generation a barrier waiter waits to pass; R170, R284: the key that follows the accesses a drain, or the
  commands a gwait, waits for; reset 0 -/
  wgen : Nat := 0
  /-- R175: engine commands a cwait waits for, by id; reset none -/
  wcmds : List Nat := []
  /-- R174: clock of the next poll of a waiter without a watch; reset 0 -/
  due : Nat := 0
  /-- R20: a scene of this fragment is in issue or stalled in "perform"; reset no -/
  busy : Bool := false
  deriving DecidableEq, Repr

/-- The prompt book's values the launch unit keeps while the launch runs (R318, R322). -/
structure Book where
  priority : Nat := 0
  replay : Bool := false
  ufrac : Nat := 0
  code : Nat := 0          -- virtual address of the code image
  codeLen : Nat := 0
  nblock : Nat := 0
  threads : Nat := 0
  bpg : Nat := 1
  regs : Nat := 0
  scratch : Nat := 0       -- P of R141
  gran : Nat := 0          -- G of R210
  queues : Nat := 0        -- Q of R217
  wintab : Nat := 0
  wincount : Nat := 0
  pltab : Nat := 0
  handler : Word := Config.noJoin
  ring : Nat := 0
  launchId : BitVec 64 := 0#64
  pred0 : BitVec 64 := 0#64
  pred1 : BitVec 64 := 0#64
  entry : Word := 0#32
  deriving DecidableEq, Repr

/-- Where a group is (R26 to R28, R308, R324, R327). -/
inductive Place where
  | resident      -- issue-resident on its core
  | parked        -- placed, not issue-resident (R327)
  | trapParked    -- parked by a routed trap (R308)
  | evicted       -- pre-empted; its state is its image (R27)
  | ended         -- every slot empty (R18)
  deriving DecidableEq, Repr

/-- Region classes (R143). -/
inductive Class where
  | priv | readShared | coherent | bank
  deriving DecidableEq, Repr

/-- Window policies (R137). -/
inductive Policy where
  | normal | nt | wc
  deriving DecidableEq, Repr

/-- One held store lane of an understudied group (R360). -/
structure HeldStore where
  op : BitVec 8
  va : Nat
  pa : Nat
  cls : Class
  policy : Policy
  size : Nat
  data : BitVec 128
  signed : Bool
  ord : BitVec 8
  /-- key of the word, or of the part of it before the comparison at the 64th held lane: its place in the group's program order -/
  word : Nat
  /-- header offset of its scene (R352) -/
  pc : Word
  deriving DecidableEq, Repr

/-- A group: its context image (R25) and where it stands in the launch. -/
structure Grp where
  /-- MODEL: the group's key in the state; reset 0 -/
  uid : Nat := 0
  /-- R7: key of its gang in the state -/
  gang : Nat := 0
  /-- R7: key of its launch in the state -/
  launch : Nat := 0
  /-- R301: partition 0 to 7 -/
  part : Nat := 0
  /-- R302: system level (tenant otherwise) -/
  system : Bool := false
  /-- R7, R102: GROUP, BLOCK, GANGB, GANG, NGROUP -/
  groupNo : Nat := 0
  block : Nat := 0
  gangB : Nat := 0
  gangNo : Nat := 0
  nGroup : Nat := 0
  /-- R324: core it runs on, 0 to 767 -/
  core : Nat := 0
  /-- R141: its core's number within the gang, in placement order -/
  coreIdx : Nat := 0
  /-- R324, R331: group-image slot number -/
  imgSlot : Nat := 0
  /-- R304, R324: virtual address of the context-image region in force when it was placed -/
  imgBase : Nat := 0
  /-- R27, R327: resident, parked, evicted or ended -/
  place : Place := .resident
  /-- R27: a pre-emption request is pending -/
  preempt : Bool := false
  /-- R308: a routed trap parks the group once both fragments are at a scene boundary -/
  parking : Bool := false
  /-- R26: its image lines are in the register cache of its core (else its state is the image in memory) -/
  cached : Bool := true
  /-- R26: clock at which its image lines were last used (log 82) -/
  used : Nat := 0
  /-- R180: largest time to which pts rose while the image was in memory (log 13) -/
  ptsLate : Nat := 0
  /-- R318: the launch's kept prompt book -/
  book : Book := {}
  /-- R11: lanes that started -/
  started : Word := 0#32
  /-- R13, R25: PC slots 0 and 1 -/
  slot0 : Slot := {}
  slot1 : Slot := {}
  /-- R15, R25: split stack, top first, at most 64 entries; DEPTH is its length -/
  stack : List Slot := []
  /-- R307: TRAPINFO and TRAPPC, 32 bits; reset 0 (R102) -/
  trapInfo : Word := 0#32
  trapPc : Word := 0#32
  /-- R308, R331: slot of the fragment whose routed trap parked the group -/
  trapSlot : Bool := false
  /-- R25, R308: SAVEDMODE -/
  savedMode : Word := 0#32
  /-- R180: PTS, 48 bits -/
  pts : Nat := 0
  /-- R352: ORD -/
  ord : BitVec 8 := 0#8
  /-- R359: SIG, starts at 0 -/
  sig : BitVec 64 := 0#64
  /-- R342: translation-fault report, FVA dword and kind dword -/
  faultVa : BitVec 64 := 0#64
  faultInfo : BitVec 64 := 0#64
  /-- R23: v0 to v127 (those below book.regs exist) -/
  v : Vector VReg 128 := Vector.replicate 128 {}
  /-- R23: s0 to s31 -/
  s : Vector SReg 32 := Vector.replicate 32 {}
  /-- R23: p0 to p7 -/
  p : Vector PReg 8 := Vector.replicate 8 {}
  /-- R23, R137: windows w0 to w7, 128-bit descriptors -/
  w : Vector (BitVec 128) 8 := Vector.replicate 8 0#128
  /-- R226: h0 to h15, log2 of the hop in 4 bits; at launch h_i holds i -/
  h : Vector (BitVec 4) 16 := Vector.ofFn fun i => BitVec.ofNat 4 i.val
  /-- R217: bindings of q0 to q15 -/
  q : Vector QBind 16 := Vector.replicate 16 {}
  /-- R171: arrival records by barrier-phase code; absent is none -/
  arr : Tbl Nat := []
  /-- R192: scope of the outstanding fence and the side effects it waits for -/
  fence : Option Nat := none
  /-- R326: the fragment that issued last was slot 1 -/
  lastSlot1 : Bool := false
  /-- R186: clock of the last self-increment or of becoming resident -/
  ptsSince : Nat := 0
  /-- R186: clocks of earlier residence not yet counted in pts -/
  ptsAcc : Nat := 0
  /-- R189: largest time of the writes of the group's retired copies -/
  cpyTime : Nat := 0
  /-- R195: key below which a leased copy does not serve the group: it may lack side effects that a fence of the group has made visible -/
  since : Nat := 0
  /-- R154: lines that the group's copies and collections have written, which it loads from their homes -/
  copied : List Nat := []
  /-- R358: uid of the twin group of an understudied gang -/
  twin : Option Nat := none
  /-- R362: words performed by the primary alone that the group has passed -/
  solo : Nat := 0
  /-- R358: this is the understudy copy -/
  under : Bool := false
  /-- R360: held store lanes, oldest first -/
  held : List HeldStore := []
  /-- MODEL (log 70): scenes the group has issued, by which a copy of an understudied group sees whether its twin is ahead of it -/
  scenes : Nat := 0
  /-- R363: a comparison of it has failed, so nothing that waits for one is performed any more -/
  mism : Bool := false
  /-- R358: the comparison at the eviction boundary has been asked for -/
  evCmp : Bool := false
  /-- R361: comparison points not yet compared, oldest first: the signature at each and the held lanes before it -/
  points : List (BitVec 64 × Nat) := []
  /-- R315: which of them are a sigck's, for whose result the group does not wait -/
  lax : List Bool := []
  deriving DecidableEq, Repr

/-- Where an access goes: memory, or byte a of the scratchpad of a gang's core (R141). -/
inductive Target where
  | mem (pa : Nat) (cls : Class)
  | scratch (gang core : Nat) (a : Nat)
  deriving DecidableEq, Repr

/-- One lane's access (R149). -/
structure Acc where
  lane : Nat := 0
  va : Nat := 0
  tgt : Target := .mem 0 .coherent
  size : Nat := 4
  /-- store data or operand, and the second operand of cas -/
  data : BitVec 128 := 0#128
  data2 : Word := 0#32
  done : Bool := false
  /-- value returned and its poison -/
  res : BitVec 128 := 0#128
  rpois : Bool := false
  deriving DecidableEq, Repr

/-- A program image's operator (R241). -/
structure POp where
  code : Nat := 0
  arg : Nat := 0
  deriving DecidableEq, Repr

/-- A postfix program installed in a slot (R240). -/
structure Prog where
  ty : Nat := 0          -- 0 I32, 1 FX32, 2 F32
  ctx : Nat := 0         -- 0 element, 1 node, 2 edge
  ops : List POp := []
  pool : List Word := []
  deriving DecidableEq, Repr

/-- A commit-time word or deferred producer captured at "execute", with its operand values (R37, R51). -/
structure SOp where
  idx : Nat := 0
  ins : Instr := .nop
  /-- lanes it acts in (R12) -/
  act : Word := 0#32
  /-- MODE at the word -/
  mode : Word := 0#32
  /-- data operand registers (d, d+1, ...) per lane, and the poison of each lane over all of them -/
  data : List Lanes := []
  dpois : Word := 0#32
  /-- offset operand per lane and its poison -/
  off : Lanes := Vector.replicate 32 0#32
  opois : Word := 0#32
  /-- scalar operands or descriptor words, and whether any is poisoned -/
  desc : List Word := []
  cpois : Bool := false
  /-- what "Check" resolved: lane accesses, the pieces (offset, length, target) of a source and a destination range, and
  a window descriptor -/
  accs : List Acc := []
  /-- R250: the intermediate physical frames that bpage lists -/
  ipas : List Nat := []
  src : List (Nat × Nat × Target) := []
  dst : List (Nat × Nat × Target) := []
  wval : BitVec 128 := 0#128
  /-- the postfix program named by the word, as it stood at "Check" (R243) -/
  prog : Option Prog := none
  deriving DecidableEq, Repr

/-- The final word of a scene, read at "execute" (R51). -/
inductive Final where
  | none
  | jump (target : Word) (link : Bool)
  | brc (p : BitVec 3) (target join : Word)
  | bru (p : BitVec 3) (c : BitVec 2) (target : Word)
  | exit
  | trapWord (cls : Nat) (code : BitVec 16)
  | yield
  | tret
  | barrier (arrive wait : Bool) (gang : Bool) (id phase : Nat)
  | mwait (kind : WaitKind) (comparand : Word)
  | drain
  | cwait (cue : BitVec 8)
  | gwait (tag : BitVec 4)
  deriving DecidableEq, Repr

/-- The phase of a scene in issue (R37): its body words, a "Check" step that waits for a descriptor read (R139), "perform". -/
inductive Phase where
  | body | check | perform
  deriving DecidableEq, Repr

/-- The scene in issue (R20, R37): its words, the scene buffer and what its body words captured. -/
structure Issue where
  /-- a scene is in issue; reset no -/
  live : Bool := false
  /-- R37: body words, or the "perform" step -/
  phase : Phase := .body
  /-- the group as it stood at scene start; its register files are the scene buffer laid over that state -/
  g : Grp := {}
  /-- R19, R20: the group as it stood at scene start -/
  g0 : Grp := {}
  /-- issuing slot -/
  slot : Bool := false
  /-- header offset -/
  pc : Word := 0#32
  /-- index of the next word to execute -/
  idx : Nat := 0
  /-- the scene's words by index: header 0, body 1 to len, trailer len + 1 -/
  words : List Word := []
  /-- R12: the fragment's mask -/
  mask : Word := 0#32
  /-- R44: MODE as it stands at the next word -/
  mode : Word := Config.modeReset
  /-- R20: t0 to t7 -/
  t : Vector VReg 8 := Vector.replicate 8 {}
  /-- lanes of each v register the scene wrote, and whether it wrote the tag -/
  vmask : Vector Word 128 := Vector.replicate 128 0#32
  vtagged : Vector Bool 128 := Vector.replicate 128 false
  /-- scalars the scene wrote -/
  swrote : Vector Bool 32 := Vector.replicate 32 false
  /-- lanes of each predicate the scene wrote -/
  pmask : Vector Word 8 := Vector.replicate 8 0#32
  /-- commit-time words and deferred producers in program order -/
  ops : List SOp := []
  /-- R51: the final word -/
  final : Final := .none
  /-- R102: the clock sample of the last CLK read in this scene -/
  clk : Option Nat := none
  /-- R175: keys below this one were taken before the scene's effects were performed -/
  mark : Nat := 0
  /-- R352: the scene has taken its store ordinal, and which -/
  bearing : Bool := false
  ord : BitVec 8 := 0#8
  /-- R174: the word a memory wait reads, as "Check" resolved it -/
  wacc : Acc := {}
  /-- R361: the comparison of the word that performs next has been asked for -/
  cmp : Bool := false
  /-- R361: the group waits for the comparison at its 64th held store lane -/
  pause : Bool := false
  deriving DecidableEq, Repr

end Sys2Proof.Machine
end

