-- ==== Sys2Proof/Machine/MemState.lean ====
section
/-! DEFINITION. The memory system's state: memory bytes and poison, home lines and lease copies (R146, R180),
requests in flight, agents' ownership (R154), copies (R167), the fabric's tables (R382 to R391). -/

namespace Sys2Proof.Machine

/-- Memory: (address, byte) pairs, addresses strictly rising, no byte equal to what an unlisted address reads as
(0, log 2). -/
abbrev Memory := List Host.Cell

/-- The kinds of request (R156 to R165). -/
inductive ReqKind where
  | load | store | atomic | reduction
  deriving DecidableEq, Repr

/-- The atomic operations (R160, R165). -/
inductive AtomOp where
  | add | min | max | and | or | xor | swp | cas
  deriving DecidableEq, Repr

/-- Where a deferred result lands (R47): registers of a group; no register for stores. -/
inductive Dest where
  | none
  | v (n regs : Nat)
  | s (n regs : Nat)
  deriving DecidableEq, Repr

/-- A request in flight: one memory word of one scene (R150, R157 to R165, R352). -/
structure Req where
  id : Nat := 0
  uid : Nat := 0
  core : Nat := 0
  part : Nat := 0
  kind : ReqKind := .load
  op : AtomOp := .add
  signed : Bool := false        -- E of an atomic is I32 (N32 otherwise)
  policy : Policy := .normal
  accs : List Acc := []
  dest : Dest := .none
  tag : BitVec 4 := 15#4        -- tag set when the result lands
  ext : Nat := 0                -- bits of a sign-extended load, 0 for none
  act : Word := 0#32            -- lanes that act
  ord : BitVec 8 := 0#8
  imgSlot : Nat := 0
  /-- R150: the clock at which the collection window of each of its lines ends -/
  wins : Tbl Nat := []
  /-- R150: the lines whose merged request has gone out, with the program time it carries -/
  sent : Tbl Nat := []
  /-- R150: the collector has woken the group -/
  woken : Bool := false
  /-- R352: the home's acknowledgement has been counted -/
  acked : Bool := false
  /-- R166: a prefetch that waits at its homes, and whether it fills L1 -/
  pre : Option Bool := none
  /-- R362: the twin group that this word, performed by the primary, stands for too, and the word's place in that group's order -/
  twin : Option (Nat × Nat) := none
  deriving DecidableEq, Repr

/-- A line's times at its home (R180). -/
structure LineTimes where
  wts : Nat := 0
  rts : Nat := 0
  part : Nat := 0
  /-- R147: an NT access has marked the line for early eviction -/
  early : Bool := false
  deriving DecidableEq, Repr

/-- A leased copy of a line in an L1 (core) or a fly cache (die) (R146, R182). -/
structure Copy where
  /-- core of an L1; 768 + die for a fly cache -/
  site : Nat := 0
  line : Nat := 0
  part : Nat := 0
  w : Nat := 0
  r : Nat := 0
  /-- R145: the group whose private line this is, else none -/
  owner : Option Nat := none
  readShared : Bool := false
  /-- R195: the key at which its oldest sector was read at the home -/
  born : Nat := 0
  /-- valid sectors, their bytes and poison -/
  sectors : BitVec 8 := 0#8
  bytes : Memory := []
  pois : BitVec 8 := 0#8
  /-- R147: an NT access has marked the line for early eviction -/
  early : Bool := false
  deriving DecidableEq, Repr

/-- A write-combining buffer entry (R148). -/
structure WcEntry where
  uid : Nat := 0
  sector : Nat := 0
  /-- bytes written and their values -/
  mask : BitVec 32 := 0#32
  data : BitVec 256 := 0#256
  since : Nat := 0
  lanes : List (Nat × Nat) := []   -- store lanes it holds: request and access number (R149)
  bank : Bool := false      -- of a bank page, which is never dirty (R146)
  deriving DecidableEq, Repr

/-- A translation held by a TLB (R340, R341). -/
structure TlbEntry where
  part : Nat := 0
  va : Nat := 0
  pa : Nat := 0
  ipa : Nat := 0
  size : Nat := 4096
  cls : Class := .coherent
  sys : Bool := false
  level : Nat := 1        -- level of the first-stage leaf
  deriving DecidableEq, Repr

/-- A pointer entry held by a walk cache (R341): the entry of a stage's table at a level for the addresses of an index prefix, under a
second-stage root, and the table it names. -/
structure PtrEntry where
  part : Nat := 0
  root : Word := 0#32      -- PTROOT under which it was read (R341)
  stage : Nat := 0         -- 0 the first stage, 1 the second (R336)
  level : Nat := 1         -- its table's level (R337)
  prefix_ : Nat := 0       -- index bits that reach it (R337)
  next : Nat := 0          -- address of the table it names (R341)
  deriving DecidableEq, Repr

/-- A copy in the copy engine (R167, R168). -/
structure CopyCmd where
  id : Nat := 0
  uid : Nat := 0
  core : Nat := 0
  part : Nat := 0
  imgSlot : Nat := 0
  ord : BitVec 8 := 0#8
  /-- bytes read at commit and still to write: offset, where each goes, value, poison of its source sector -/
  bytes : List (Nat × Target × Byte × Bool) := []
  /-- destination ranges in scratchpad and source ranges in scratchpad (R151) -/
  dstRanges : List (Nat × Nat × Nat × Nat) := []
  srcRanges : List (Nat × Nat × Nat × Nat) := []
  /-- coherent destination lines still owned (R154) -/
  owned : List Nat := []
  /-- program time at its commit; its writes take later times (R154) -/
  pts : Nat := 0
  /-- largest time its writes took (R189) -/
  time : Nat := 0
  /-- R345: destination pages were dropped by a shootdown; (va, ipa range) of the destination -/
  dstVa : Nat := 0
  len : Nat := 0
  global : Bool := false
  retranslate : Bool := false
  deriving DecidableEq, Repr

/-- One constituent of a combining request (R387). -/
structure Constituent where
  req : Nat := 0
  acc : Nat := 0
  operand : Word := 0#32
  deriving DecidableEq, Repr

/-- What a packet carries (R383, R385): an atomic or reduction; a marker message; weight that a wave's units return to its controller on a
die (R391). -/
inductive PktKind where
  | atomic (op : AtomOp) (signed ret : Bool)
  | marker (wave : Nat) (target : Nat)
  | weight (wave die amount : Nat)
  deriving DecidableEq, Repr

/-- One switch output port a packet passes: die, stage, switch, output digit (R382). -/
structure Hop where
  die : Nat := 0
  stage : Nat := 0
  sw : Nat := 0
  out : Nat := 0
  deriving DecidableEq, Repr

/-- A packet on the combine or requests channel on its way to its home (R382 to R387). -/
structure Packet where
  id : Nat := 0
  part : Nat := 0
  kind : PktKind := .atomic .add false true
  pa : Nat := 0
  operand : Word := 0#32
  list : List Constituent := []
  pts : Nat := 0
  /-- hops still ahead; the first one is where it is held when held is set -/
  path : List Hop := []
  held : Bool := false
  due : Nat := 0
  /-- R386: it waits at that hop outside the table, to be sent uncombined -/
  ready : Bool := false
  /-- R383: packets of lower-numbered channels that have passed it there since it became ready -/
  passed : Nat := 0
  deriving DecidableEq, Repr

/-- A decombining record (R387): copies usable 0 to 2. -/
structure Record where
  id : Nat := 0
  at_ : Hop := {}
  aId : Nat := 0
  bId : Nat := 0
  k : Nat := 0
  /-- entries of both lists -/
  n : Nat := 0
  x : Word := 0#32
  op : AtomOp := .add
  signed : Bool := false
  good : Nat := 2
  due : Nat := 0
  deriving DecidableEq, Repr

/-- A reply on its way back, or a RECOVER reply back at the home (R388, R389). -/
structure Reply where
  id : Nat := 0
  home : Nat := 0          -- H, the id of the request as it arrived
  cur : Nat := 0           -- current id
  lo : Nat := 0
  hi : Nat := 0
  value : Word := 0#32
  pois : Bool := false
  recover : Bool := false
  deriving DecidableEq, Repr

/-- A home slice's log entry for a merged returning request (R389). -/
structure HomeLog where
  id : Nat := 0            -- H
  die : Nat := 0
  list : List Constituent := []
  value : Word := 0#32
  pois : Bool := false
  op : AtomOp := .add
  signed : Bool := false
  time : Nat := 0
  due : Nat := 0
  deriving DecidableEq, Repr

/-- A fence that has performed (R193 to R195): its agent, its moment, and the groups its scope included then. -/
structure FenceRec where
  /-- the group's key; none for a hart -/
  by_ : Option Nat := none
  scope : Nat := 0         -- scope number of the fence (R193)
  die : Nat := 0           -- die of its agent (R193)
  key : Nat := 0           -- the moment it performed: side effects of lower keys come before it (R194)
  incl : List Nat := []    -- keys of the groups its scope included then (R193)
  deriving DecidableEq, Repr

/-- An agent's store that waits at its home for a line that another agent owns or a wload holds (R154, R222). -/
structure AgentStore where
  part : Nat := 0
  pts : Nat := 0           -- the agent's logical time, above which it writes (R189)
  pa : Nat := 0            -- where its first byte goes (R154)
  bytes : List Byte := []  -- the bytes stored (R154)
  bank : Bool := false     -- into a bank page, which is never dirty (R146)
  deriving DecidableEq, Repr

/-- An access that waits at a home for a line that an agent owns or a wload holds (R154, R222): an access of a load or store, an atomic's
packet, the read of a memory waiter, or the descriptor reads of a scene at "Check". -/
inductive LineWait where
  | load (req acc : Nat)
  | store (req acc : Nat)
  | atomic (pkt : Nat)
  | mwait (uid : Nat) (slot : Bool)
  | check (uid : Nat) (slot : Bool)
  deriving DecidableEq, Repr

/-- A shootdown in progress in a partition (R345). -/
structure Shootdown where
  busy : Bool := false
  lo : Nat := 0
  len : Nat := 0
  stage2 : Bool := false
  all : Bool := false
  /-- keys below this one belong to work that the shootdown waits for -/
  mark : Nat := 0
  /-- the key that the GO took: keys below it were taken before it -/
  at_ : Nat := 0
  deriving DecidableEq, Repr

end Sys2Proof.Machine
end

