-- ==== Sys2Proof/Machine/UnitState.lean ====
section
/-! DEFINITION. The state of the butterfly engine (R207 to R234), of the bank units (R235 to R258) and of marker
waves (R261 to R297). -/

namespace Sys2Proof.Machine

/-- The states of a weight granule (R212). -/
inductive GranState where
  | empty | loading | loaded
  deriving DecidableEq, Repr

/-- A weight granule (R212): state, format, poison mark and 4,096 bytes (a sparse list, absent bytes 0). -/
structure Granule where
  st : GranState := .empty
  i8 : Bool := false
  pois : Bool := false
  bytes : Memory := []
  deriving DecidableEq, Repr

/-- One 32-lane queue entry (R217). -/
structure Entry where
  lanes : Lanes := Vector.replicate 32 0#32
  pois : Word := 0#32
  deriving DecidableEq, Repr

/-- A pending pop or status request (R218, R231, R295). -/
structure Pending where
  id : Nat := 0
  uid : Nat := 0
  dest : Dest := .none
  act : Word := 0#32
  /-- the entry it received, once it has one -/
  got : Option Entry := none
  tag : BitVec 4 := 15#4
  /-- R362: the words that the group's primary had performed for both copies before it -/
  solo : Nat := 0
  /-- R295: a gstat still to be taken: its tag and its word, none for the vector form -/
  ask : Option (Nat × Option Nat) := none
  deriving DecidableEq, Repr

/-- A queue of a block on a core (R217). -/
structure Queue where
  entries : List Entry := []
  pops : List Pending := []
  deriving DecidableEq, Repr

/-- Engine state of a block on a core, keyed by gang and core number within the gang (R223). -/
structure EngBlock where
  gang : Nat := 0
  coreIdx : Nat := 0
  gran : Tbl Granule := []
  queues : Tbl Queue := []
  deriving DecidableEq, Repr

inductive ECmdKind where
  | wload | stage | wfree
  deriving DecidableEq, Repr

inductive ECmdState where
  | waiting | running | held | retired | dropped
  deriving DecidableEq, Repr

/-- A sequencer command (R219 to R222, R227, R228). -/
structure ECmd where
  id : Nat := 0
  uid : Nat := 0
  core : Nat := 0
  gang : Nat := 0
  coreIdx : Nat := 0
  kind : ECmdKind := .stage
  cue : Nat := 255
  deps : List Nat := []
  st : ECmdState := .waiting
  /-- first granule and count (all regions of a chain; for wload and wfree as given) -/
  gran : Nat := 0
  count : Nat := 0
  i8 : Bool := false
  /-- wload: source bytes as they stood at commit, granules counted from the first that a poisoned sector reaches, held
  lines (R222) -/
  bytes : Memory := []
  poisAt : List Nat := []
  holds : List Nat := []
  /-- stage and chain: log2 N, hops in order, widths, formats, queues, oscale -/
  n : Nat := 4
  hops : List Nat := []
  inW : Nat := 16
  midW : Nat := 16
  outFmt : Nat := 0
  inFmt : BitVec 2 := 0#2
  inQ : Nat := 0
  outQ : Nat := 0
  oscale : Int := 0
  rehearsal : Bool := false
  released : Bool := false
  /-- a dropped command still owes the discard of this many input entries (R220) -/
  owes : Nat := 0
  /-- outputs computed and not yet delivered -/
  outs : List Entry := []
  /-- status (R231) -/
  clamped : Nat := 0
  twice : Nat := 0
  steps : Nat := 0
  pois : Bool := false
  badScale : Bool := false
  /-- input entries in the row buffer; all of them are there; the stages have run (R213, R214) -/
  ins : List Entry := []
  took : Bool := false
  computed : Bool := false
  deriving DecidableEq, Repr

/-- A page list (R249, R250): a launch's slot, keyed by partition, table address and slot. -/
structure PageList where
  part : Nat := 0
  tab : Nat := 0
  slot : Nat := 0
  first : Nat := 0
  /-- physical frame of each 64 KiB frame; none is the absent mark -/
  frames : List (Option Nat) := []
  /-- effective class bank and page at least 64 KiB, per frame (R251 CLASS) -/
  bankOk : List Bool := []
  /-- intermediate physical frame of each, which a stage 2 shootdown names (R250, R344) -/
  ipas : List Nat := []
  stale : Bool := false
  deriving DecidableEq, Repr

/-- A bank window resolved through its list (R249): base, limit and the list's key. -/
structure BWin where
  base : Nat := 0
  limit : Nat := 0
  list : Nat := 0        -- list slot
  deriving DecidableEq, Repr

/-- A bexec or rowop in the bank-command path (R246 to R255). -/
structure BankCmd where
  id : Nat := 0
  uid : Nat := 0
  core : Nat := 0
  part : Nat := 0
  imgSlot : Nat := 0
  ord : BitVec 8 := 0#8
  tab : Nat := 0                 -- the launch's page-list table
  rowop : Bool := false
  copy : Bool := false           -- rowop operation 1
  z : BWin := {}
  x : BWin := {}
  y : Option BWin := none
  count : Nat := 0               -- elements or frames
  prog : Prog := {}
  doneVa : Nat := 0
  donePa : Nat := 0
  doneBank : Bool := false       -- the done word lies in a bank page
  /-- byte offsets at which the Z rows still to write start, the first row's where Z starts -/
  todo : List Nat := []
  poisoned : Bool := false       -- a source it has read was poisoned (R153)
  stopped : Bool := false        -- ended early by an error, with the rows left unwritten (R250)
  time : Nat := 0                -- largest logical time of what it has written (R255)
  /-- lines whose BISnp has been answered (R247) -/
  snooped : List Nat := []
  deriving DecidableEq, Repr

/-- A bank unit's mode (R244, R245). -/
structure BankMode where
  compute : Bool := false
  since : Nat := 0
  /-- demand accesses that wait for the bank: request or packet, access, a write; and the clock since which one has waited -/
  waits : List (Nat × Nat × Bool) := []
  /-- the clock since which a demand access has waited -/
  waitFrom : Nat := 0
  deriving DecidableEq, Repr

/-- A graph table entry (R261). -/
structure Graph where
  node : BWin := {}
  edge : BWin := {}
  tab : Nat := 0
  count : Nat := 0
  deriving DecidableEq, Repr

inductive WaveKind where
  | gbind | gmark | gprop | gcoll | gclr
  deriving DecidableEq, Repr

inductive WaveState where
  | path | queued | running | ended
  deriving DecidableEq, Repr

/-- A marker message (R268, R274): target node, value (one element for bits), poison per element, weight. -/
structure Marker where
  id : Nat := 0
  target : Nat := 0
  /-- signed elements: the exact sum of R391 for SUM -/
  value : List Int := []
  pois : Word := 0#32
  weight : Nat := 0
  count : Nat := 1          -- original messages it stands for (R275)
  deriving DecidableEq, Repr

/-- A wave or gbind command (R262 to R287). -/
structure Wave where
  id : Nat := 0
  uid : Nat := 0
  solo : Nat := 0            -- R362: the words that its group had performed for both copies before it
  core : Nat := 0
  part : Nat := 0
  launch : Nat := 0
  imgSlot : Nat := 0
  ord : BitVec 8 := 0#8
  kind : WaveKind := .gmark
  st : WaveState := .path
  tag : Nat := 0
  graph : Nat := 0
  ctrl : Nat := 0
  /-- the graph a gbind binds, or the binding taken at arrival -/
  bind : Option Graph := none
  prog : Option Prog := none
  clearFirst : Bool := false
  dst : Nat := 0             -- destination bit or slot
  src : Nat := 0
  sel : Nat := 0
  visit : Nat := 0
  slotKind : Bool := false   -- gclr kind, or vector value kind
  vkind : Nat := 0
  comb : Nat := 0
  hop : Nat := 0
  incl : Bool := false
  chained : Bool := false
  /-- R282: earlier waves whose end a chained wave holds its shares for; R270: a round is to begin -/
  chainOf : List Nat := []
  go : Bool := false
  /-- R285: the graph id was unbound at arrival -/
  nograph : Bool := false
  mask : Word := 0#32
  /-- gcoll: emit kind, queue or window target, capacity -/
  emit1 : Bool := false
  queue : Option Nat := none
  gang : Nat := 0
  coreIdx : Nat := 0
  outVa : Nat := 0
  outTgt : List (Nat × Nat × Target) := []   -- pieces of the range: offset, length, target
  retranslate : Bool := false          -- R277, R345: its pages were dropped by a shootdown
  cap : Nat := 0
  entries : List Nat := []             -- nodes still to process, push or write, ascending
  pos : Nat := 0                       -- next entry's index
  owned : List Nat := []               -- lines owned until the end (R154)
  wrote : List Nat := []               -- lines it has written (R155)
  lastPush : Bool := false             -- the closing entry has been pushed (R278)
  qlost : Bool := false                -- its queue has become lost since it was committed (R223, R278)
  /-- R273: weight issued and returned, loans pending -/
  issued : Nat := 0
  returned : Nat := 0
  units : Tbl Nat := []                -- weight each bank unit holds
  outbox : Tbl (List Marker) := []     -- messages a unit lacks weight for
  msgs : List Marker := []
  /-- R270: round, nodes changed in this round, banks that rescan -/
  round : Nat := 0
  frontier : List Nat := []
  rescanBanks : List Nat := []
  /-- sources of this wave (those a chained wave has added included) -/
  sources : List Nat := []
  /-- R239: malformed nodes met; R247: lines whose BISnp has been sent -/
  malformed : List Nat := []
  snooped : List Nat := []
  /-- R262: place in the order of arrival at its controller -/
  seq : Nat := 0
  start : Nat := 0
  time : Nat := 0
  deriving DecidableEq, Repr

/-- A wave record of a launch's tag (R285). -/
structure WaveRec where
  rescan : Bool := false
  nograph : Bool := false
  badEdge : Bool := false
  abort : Bool := false
  badNode : Bool := false
  ovf : Bool := false
  sat : Bool := false
  command : Nat := 0
  graph : Nat := 0
  st : Nat := 0
  changed : Nat := 0
  sent : Nat := 0
  combined : Nat := 0
  loans : Nat := 0
  collected : Nat := 0
  malformed : Nat := 0
  skipped : Nat := 0
  ns : Nat := 0
  rounds : Nat := 0
  wave : Nat := 0           -- the wave it records
  deriving DecidableEq, Repr

/-- A tag of a launch (R263): waves arrived and not ended, the record, the largest time of their writes. -/
structure TagState where
  count : Nat := 0
  record : WaveRec := {}
  time : Nat := 0
  deriving DecidableEq, Repr

end Sys2Proof.Machine
end

