-- ==== Sys2Proof/Machine/SysState.lean ====
section
/-! DEFINITION. The state of cores, dies, partitions, launches and gangs (R301 to R335, R344 to R351, R358, R367 to
R381, R392, R397 to R408). -/

namespace Sys2Proof.Machine

/-- One scheduler of a core (R326). -/
structure Sched where
  /-- R326: rotation of issue-resident groups, front first -/
  rot : List Nat := []
  /-- R326: the last scene issued was a handler's -/
  lastH : Bool := false
  /-- R408: a gated scheduler skipped its last boundary -/
  gate : Bool := false
  deriving DecidableEq, Repr

/-- A SIMT core: its system registers (R303), caches' book-keeping and schedulers. -/
structure CoreState where
  /-- R304: PARTID, 32 bits; reset 0 -/
  partid : Word := 0#32
  /-- R304: PTROOT; reset 0 (the dead root) -/
  ptroot : Word := 0#32
  /-- R304: CTXBASE; reset 0 -/
  ctxbase : Word := 0#32
  /-- R304: TRAPVEC; reset 0x0000_0100 -/
  trapvec : Word := 0x100#32
  /-- R372: MARGIN; reset by the record (0) -/
  margin : Word := 0#32
  /-- R372: LTECNT; reset 0 -/
  ltecnt : Word := 0#32
  /-- R372: LTELIM; reset by the record (64) -/
  ltelim : Word := 64#32
  /-- R372: LTEWIN; reset by the record (1,000) -/
  ltewin : Word := 1000#32
  /-- R372: QUAR; reset by the record (0) -/
  quar : Word := 0#32
  /-- R304: GCWIN; reset 16 -/
  gcwin : Word := 16#32
  /-- R374: clock the margin window started; reset 0 -/
  winStart : Nat := 0
  /-- R148: write-combining buffer, oldest first, at most 64 entries; reset empty -/
  wc : List WcEntry := []
  /-- R154: WC sectors that have left the buffer and wait at their home for an owned or held line; reset none -/
  wcOut : List WcEntry := []
  /-- R341: core TLB; reset empty -/
  tlb : List TlbEntry := []
  /-- R326: four schedulers -/
  scheds : Vector Sched 4 := Vector.replicate 4 {}
  /-- R327: parked groups whose wait ended, in the order they became ready -/
  readyParked : List Nat := []
  deriving DecidableEq, Repr

/-- A die: its system registers (R303), margin log and health (R378, R379), failures (R366, R408). -/
structure DieState where
  /-- R392: COMBWIN; reset WIN 8 -/
  combwin : Word := 8#32
  /-- R392: COMBTEST; reset 0 -/
  combtest : Word := 0#32
  /-- R392: FABSTAT; reset 0 -/
  fabstat : Word := 0#32
  /-- R304: LEASE; reset 10 -/
  lease : Word := 10#32
  /-- R379: HEALTH; reset 0 -/
  health : Word := 0#32
  /-- R378: margin log entries by j mod 64, and the count; reset empty, 0 -/
  log : Tbl (BitVec 64) := []
  logCount : Word := 0#32
  /-- R366: the die has failed; reset no -/
  failed : Bool := false
  /-- R408: issue is gated; reset no -/
  gated : Bool := false
  /-- R393: die-link ports failed, and ports at half width, by number 0 to 7; reset none -/
  linksFailed : List Nat := []
  linksHalf : List Nat := []
  /-- R379: clocks of uncorrectable errors per slice; reset none -/
  sliceErrs : Tbl (List Nat) := []
  /-- R379: slices awaiting retirement; reset none -/
  retiring : List Nat := []
  /-- R405: its boot ROM has passed the flash and applied the record; reset no -/
  passed : Bool := false
  /-- R405: control cores released in M-mode; reset no -/
  released : Bool := false
  /-- R341, R397: the TLB of each cluster of the die, by its number in the die; reset empty -/
  ctlb : Tbl (List TlbEntry) := []
  /-- R341: the walk cache, newest first, at most 1,024 pointer entries; reset empty -/
  wcache : List PtrEntry := []
  deriving DecidableEq, Repr

/-- A callboard ring's book-keeping (R334). -/
structure RingState where
  count : Nat := 0            -- records written (j)
  unsignalled : Nat := 0
  oldest : Nat := 0           -- clock of the oldest unsignalled record
  deriving DecidableEq, Repr

/-- A launch queue's book-keeping (R317): next index to take, completed indices not yet passed by the head. -/
structure QueueState where
  next : Word := 0#32
  head : Word := 0#32
  done : List Word := []
  deriving DecidableEq, Repr

/-- A partition's launch-unit registers (R330, R335, R344, R351, R381, R399, R414) and tables (R261, R301). -/
structure PartState where
  /-- R330: QTABHI:QTABLO, CBTABHI:CBTABLO; reset 0 -/
  qtablo : Word := 0#32
  qtabhi : Word := 0#32
  cbtablo : Word := 0#32
  cbtabhi : Word := 0#32
  /-- R330: CTXLEN; reset 0 -/
  ctxlen : Word := 0#32
  /-- R330: CTL.QUIESCE; reset 0 -/
  quiesce : Bool := false
  /-- R330: STAT.REBASEREQ, STAT.REBASELATE; reset 0 -/
  rebaseReq : Bool := false
  rebaseLate : Bool := false
  /-- R336, R346: second-stage root through which the partition's launch unit and engines walk: the last nonzero PTROOT
  of its cores (log 14); reset 0 -/
  agentRoot : Word := 0#32
  /-- R344: S1ROOT, SDVALO, SDVAHI, SDCTL; reset 0 -/
  s1root : Word := 0#32
  sdvalo : Word := 0#32
  sdvahi : Word := 0#32
  sdctl : Word := 0#32
  /-- R345: the shootdown in progress; SDSTAT.BUSY; reset none -/
  sd : Shootdown := {}
  /-- R351: ERRLO, ERRHI, ERRCTL, ERRHEAD, ERRDROP; reset 0 -/
  errlo : Word := 0#32
  errhi : Word := 0#32
  errctl : Word := 0#32
  errhead : Word := 0#32
  errdrop : Word := 0#32
  /-- R351: error records written (j); reset 0 -/
  errcount : Nat := 0
  /-- R351, R364: torn down: queues not served until CLEAR; reset no -/
  torn : Bool := false
  /-- R351, R364: a teardown has begun whose TDONE has not been cleared; reset no -/
  tdown : Bool := false
  /-- R335: CBLOST; reset 0 -/
  cblost : Word := 0#32
  /-- R381: HLTHCTL; reset 0 -/
  hlthctl : Word := 0#32
  /-- R399: NKTABLO, NKTABHI, NKCTL, QPTABLO, QPTABHI, QPCTL; reset 0 -/
  nktablo : Word := 0#32
  nktabhi : Word := 0#32
  nkctl : Word := 0#32
  qptablo : Word := 0#32
  qptabhi : Word := 0#32
  qpctl : Word := 0#32
  /-- R414: controller of each graph id; reset 0 -/
  graphctl : Vector (BitVec 5) 16 := Vector.replicate 16 0#5
  /-- R261: graph table of 16 entries; reset unbound -/
  graphs : Tbl Graph := []
  /-- R284: largest time of the writes of each graph's ended waves; reset none -/
  waveTimes : Tbl Nat := []
  /-- R401: largest time of the accesses of each queue pair's packets so far; reset none -/
  qpTimes : Tbl Nat := []
  /-- R240, R301: 16 program slots; reset empty -/
  progs : Tbl Prog := []
  /-- R317: launch queues' book-keeping; reset next and head 0 -/
  queues : Tbl QueueState := []
  /-- R334: callboard rings' book-keeping; reset 0 -/
  rings : Tbl RingState := []
  /-- R320: the last completed launch of each id still held: launch id, STATUS, largest final pts -/
  completed : List (BitVec 64 × Nat × Nat) := []
  deriving DecidableEq, Repr

/-- A barrier phase (R171). -/
structure Barrier where
  limit : Option Nat := none       -- none: the launch's limit (R171)
  count : Nat := 0
  gen : Nat := 0
  time : Nat := 0
  /-- R172: release time of each completed generation -/
  released : Tbl Nat := []
  deriving DecidableEq, Repr

/-- Where a gang stands (R323, R328, R355). -/
inductive GangPlace where
  | placed | evicting | parked | ended
  deriving DecidableEq, Repr

/-- A placed or parked gang (R8, R9, R141, R171, R204, R324). -/
structure Gang where
  /-- MODEL: key -/
  id : Nat := 0
  /-- R7, R323: its launch, partition, GANG and priority -/
  launch : Nat := 0
  part : Nat := 0
  gangNo : Nat := 0
  priority : Nat := 0
  /-- R324: cores in placement order; kept numbering across moves (R141) -/
  cores : List Nat := []
  /-- R323, R328: placed, being evicted, parked or ended -/
  place : GangPlace := .placed
  /-- R328: placement order -/
  placedAt : Nat := 0
  /-- R330: clock since which every group waits -/
  waitSince : Nat := 0
  /-- R141: scratchpad bytes of each core, by core number in the gang -/
  scratch : Tbl Memory := []
  /-- R153: poisoned scratchpad sectors: (core number, sector) -/
  scratchPois : List (Nat × Nat) := []
  /-- R171: barrier phases by code -/
  bars : Tbl Barrier := []
  /-- R304, R324: the context-image region in force when it was placed, and the byte offset of its gang image there -/
  imgBase : Nat := 0
  imgSlot : Nat := 0
  /-- R358: the understudy gang's or primary gang's key -/
  twin : Option Nat := none
  under : Bool := false
  /-- R356: relaunches of this gang number so far -/
  attempts : Nat := 0
  /-- R355, R365: the gang was killed or met a dead root: its open blocks do not run to their end -/
  killed : Bool := false
  /-- R333: blocks that have run to their end -/
  ran : Nat := 0
  deriving DecidableEq, Repr

/-- A dispatcher's range of a launch's gangs (R323): next unplaced and one past the last. -/
structure Range where
  cluster : Nat := 0
  lo : Nat := 0
  hi : Nat := 0
  deriving DecidableEq, Repr

/-- A launch the launch unit holds (R318 to R323, R333). -/
structure Launch where
  /-- MODEL: key -/
  id : Nat := 0
  /-- R302, R317, R318: partition, queue, record index, level and kept prompt book -/
  part : Nat := 0
  queue : Nat := 0
  index : Word := 0#32
  system : Bool := false
  book : Book := {}
  /-- R319, R320: refused for the LAUNCHID of another incomplete launch, which a predecessor of that id goes on to name -/
  dup : Bool := false
  /-- R322: window descriptor 0 as read -/
  win0 : BitVec 128 := 0#128
  /-- R320: waits for predecessors -/
  waiting : Bool := false
  /-- R333: completed (its record is written or held) -/
  complete : Bool := false
  /-- R319: STATUS so far -/
  status : Nat := 0
  /-- R349: no further gang is placed -/
  ending : Bool := false
  /-- R323: each dispatcher's range of its gangs -/
  ranges : List Range := []
  /-- R356: gang numbers to place again: (gang number, attempts, pts base at the kill) -/
  again : List (Nat × Nat × Nat) := []
  /-- R333: gangs that have ended -/
  endedGangs : Nat := 0
  /-- R263: wave tags -/
  tags : Tbl TagState := []
  /-- R333: record fields -/
  fclass : Nat := 0
  fcount : Nat := 0
  blocks : Nat := 0
  relaunched : Nat := 0
  mismatch : Nat := 0
  /-- R181: tL and P; largest final pts of its groups -/
  tl : Nat := 0
  predPts : Nat := 0
  finalPts : Nat := 0
  /-- R188, R333: largest time of its bank commands' writes -/
  unitTime : Nat := 0
  /-- R330: clock of its last placement -/
  lastPlaced : Nat := 0
  /-- R325: clock at which its ranges were dealt -/
  dealtAt : Nat := 0
  /-- R323: clock at which each dispatcher last took a gang of it, by cluster -/
  turns : Tbl Nat := []
  /-- R330: a progress eviction owes the place it makes to a gang that does not wait -/
  owed : Bool := false
  /-- R325: clusters cleared for its next gang -/
  clearing : List Nat := []
  /-- R335: a record bound for an invalid or full ring 0 -/
  held : Bool := false
  deriving DecidableEq, Repr

/-- A group's tombstone (R352): kept until its outstanding count is 0. -/
structure Tombstone where
  imgSlot : Nat := 0
  part : Nat := 0
  launch : Nat := 0
  launchId : BitVec 64 := 0#64
  block : Nat := 0
  groupNo : Nat := 0
  outstanding : Nat := 0
  /-- virtual address of its layout, the last 2 KiB of its image slot (R352) -/
  va : Nat := 0
  /-- header offset per ordinal, and side effects outstanding per ordinal -/
  scenes : Tbl Word := []
  pending : Tbl Nat := []
  deriving DecidableEq, Repr

/-- What a port puts before each response to a queue pair (R398): its own MAC address, and what the pair's entry says. -/
structure PacketHead where
  port : Nat := 0
  srcMac : BitVec 48 := 0#48
  dmac : BitVec 48 := 0#48
  sgid : BitVec 128 := 0#128
  dgid : BitVec 128 := 0#128
  udpSrc : BitVec 16 := 0#16
  tclass : Byte := 0#8
  hopLim : Byte := 0#8
  dqpn : BitVec 24 := 0#24
  deriving DecidableEq, Repr

/-- What the machine sends out: interrupts and messages (R308, R334, R351, R381, R397, R401, R404, R406). -/
inductive Output where
  | interrupt (hart iid : Nat)
  | trapInterrupt (die part imgSlot : Nat)
  | nak (head : PacketHead) (part qpn : Nat) (psn : BitVec 24) (invalid : Bool)
  | ack (head : PacketHead) (part qpn : Nat) (psn : BitVec 24) (msn : Nat)
  | readResponse (head : PacketHead) (part qpn : Nat) (psn : BitVec 24) (data : List Byte) (pois : Bool)
  | atomicResponse (head : PacketHead) (part qpn : Nat) (psn : BitVec 24) (old : BitVec 64) (pois : Bool)
  | dmaData (data : List Byte) (pois : Bool)
  | bisnp (line : Nat)
  | pldm (die : Nat) (health : Word) (temperature power : Nat)
  | thermal (die : Nat) (kind : Nat)
  | measurements (body signature : List Byte)
  | hartData (hart : Nat) (data : List Byte) (pois : Bool)
  deriving DecidableEq, Repr

/-- One move of the world, in the order it happens (log 1): an event of the opcode table, the machine's own next move, a
packet or a device's access that waited at a home, the next scene of a group's fragment, a passage of clocks, a control-core hart's
access or FENCE (R188), a page list written by the runtime or system software (R249), a program image that the runtime installs
(R240), power going off and on again (R405), an uncorrectable error found in a sector of
memory, of a scratchpad or of a cache's copy when it is read (R153). -/
inductive Move where
  | own
  | packet (p : NetPacket)
  | dma (q : DmaRequest)
  | event (i : Instr)
  | issue (uid : Nat) (slot : Bool)
  | wait (clocks : Nat)
  | hartStore (hart part pa : Nat) (data : List Byte)
  | hartLoad (hart part pa len : Nat)
  | hartFence (hart die : Nat)
  | pageList (p : PageList)
  | program (part slot : Nat) (image : List Byte)
  | powerCycle
  | readError (t : Target)
  | copyError (site line sector : Nat)
  deriving DecidableEq, Repr

end Sys2Proof.Machine
end

