-- ==== Sys2Proof/Machine/State.lean ====
section
/-! DEFINITION. The machine's state, the reasons a step stops, and the state after reset. -/

namespace Sys2Proof.Machine

/-- The machine's faults. Each is SAFE: the model stops where the spec gives no effect. -/
inductive Fault where
  /-- Raised by an access that translates to a physical address where no memory exists (R235, R403). Safe. -/
  | noMemory (pa : Nat)
  /-- Raised by an access to a die's system register block other than a control core's aligned 32-bit access to what
  stands there: R303 gives the block's effect for these only. Safe. -/
  | systemBlock (pa : Nat)
  deriving DecidableEq, Repr

/-- The machine's refusals. -/
inductive Refusal where
  /-- Raised by an arm of exec whose instruction has no meaning yet. Safe. -/
  | notModelled (mnemonic : String)
  deriving DecidableEq, Repr

/-- The state of the W768: everything the spec gives the machine, as plain data. -/
structure State where
  /-- R102: package clock count, 64 bits read; reset 0 (DESIGN CHOICE, log 3) -/
  clk : Nat
  /-- MODEL (log 1): the moves still to come, in order; reset none -/
  agenda : List Move
  /-- R20, R37: the scene in issue; reset none -/
  iss : Issue
  /-- R37, R218: scenes stalled in their "perform" step; reset none -/
  stowed : List Issue
  /-- R7, R25: groups; reset none -/
  groups : List Grp
  /-- R7, R141, R171: gangs; reset none -/
  gangs : List Gang
  /-- R318, R320: launches; reset none -/
  launches : List Launch
  /-- R352: tombstones; reset none -/
  tombs : List Tombstone
  /-- R303: per-core state by core 0 to 767 (absent: at reset) -/
  cores : Tbl CoreState
  /-- R303: per-die state by die 0 to 3 (absent: at reset) -/
  dies : Tbl DieState
  /-- R301, R330: per-partition state by partition 0 to 7 (absent: at reset) -/
  parts : Tbl PartState
  /-- R5, R235: package and expander memory bytes; reset nothing listed -/
  mem : Memory
  /-- R153: poisoned 32-byte sectors; reset none -/
  pois : List Nat
  /-- R350: partition that last wrote a dirty sector; reset none -/
  dirty : Tbl Nat
  /-- R180: home lines' times by line; absent: not on chip; reset none -/
  lines : Tbl LineTimes
  /-- R186: memory time mts by slice and partition code; reset 0 -/
  mts : Tbl Nat
  /-- R146: leased, private and read-shared copies; reset none -/
  copies : List Copy
  /-- R150, R157 to R165: requests in flight, in the order performed; reset none -/
  reqs : List Req
  /-- R167: copy engine commands, in the order performed; reset none -/
  cpys : List CopyCmd
  /-- R217, R223: engine state of blocks on cores; reset none -/
  engs : List EngBlock
  /-- R219: sequencer commands in commit order, retired ones kept for cstat; reset none -/
  ecmds : List ECmd
  /-- R231, R295: status results still to land; reset none -/
  status : List Pending
  /-- R193 to R195: fences that have performed; reset none -/
  fences : List FenceRec
  /-- R154, R222: agents' stores that wait at their homes, in order; reset none -/
  stalls : List AgentStore
  /-- R154: accesses that wait at homes for lines that agents own or wloads hold, in the order they arrived; reset none -/
  lineWaits : List LineWait
  /-- R249: page lists; reset none -/
  plists : List PageList
  /-- R246: bank commands; reset none -/
  bcmds : List BankCmd
  /-- R244: bank units' modes by bank; reset normal -/
  banks : Tbl BankMode
  /-- R262: waves and gbinds, in the order performed; reset none -/
  waves : List Wave
  /-- R382 to R387: packets in the fabric; reset none -/
  pkts : List Packet
  /-- R387: decombining records; reset none -/
  recs : List Record
  /-- R388: replies; reset none -/
  replies : List Reply
  /-- R389: home logs; reset none -/
  hlogs : List HomeLog
  /-- R188, R180: program times of control-core harts; reset 0 -/
  harts : Tbl Nat
  /-- R405: configuration flash; reset empty (DESIGN CHOICE, log 3) -/
  flash : Flash
  /-- R403, R405: the boot's configuration record (port mode, expander size, repair map); reset none -/
  conf : ConfigRecord
  /-- R405: all four dies released their control cores; reset no -/
  booted : Bool
  /-- R247: lines a CXL-attached host caches; reset none -/
  hostLines : List Nat
  /-- R308, R334, R351, R381, R401, R404: what has been sent out, newest first; reset none -/
  out : List Output
  /-- MODEL (log 12): the scheduler that issued last, as core * 4 + scheduler; reset 0 -/
  turn : Nat
  /-- MODEL (log 1): the events since a scheduler issued last; reset 0 -/
  evs : Nat
  /-- MODEL (log 1): the family of events whose turn was last; reset 0 -/
  evTurn : Nat
  /-- MODEL (log 1): the key of the event that each family had last; reset none -/
  evLast : Tbl Nat
  /-- MODEL: counter of fresh keys; reset 1 -/
  fresh : Nat
  /-- MODEL (log 4): counter of free values taken; reset 0 (DESIGN CHOICE) -/
  free : Nat
  deriving DecidableEq, Repr

/-- An empty configuration record: the reset values in parentheses of R372 apply. -/
def emptyRecord : ConfigRecord :=
  { raw := [], version := 0, signature := [], cores := [], quarantined := [], retired := [],
    endpoint := false, lanes := .x16, expanders := [], macs := [], i3c := 0#8 }

/-- The machine right after reset: no group, no launch, every register at its reset value. -/
def State.reset : State :=
  { clk := 0, agenda := [], iss := {}, stowed := [], groups := [], gangs := [], launches := [], tombs := [],
    cores := [], dies := [], parts := [], mem := [], pois := [], dirty := [], lines := [], mts := [],
    copies := [], reqs := [], cpys := [], engs := [], ecmds := [], status := [], fences := [], stalls := [], lineWaits := [],
    plists := [], bcmds := [],
    banks := [], waves := [], pkts := [], recs := [], replies := [], hlogs := [], harts := [],
    flash := { images := [], record := emptyRecord }, conf := emptyRecord, booted := false,
    hostLines := [], out := [], turn := 0, evs := 0, evTurn := 0, evLast := [], fresh := 1, free := 0 }

end Sys2Proof.Machine
end

