-- ==== Sys2Proof/Machine/Store.lean ====
section
/-! DEFINITION. Reading and writing the parts of the state by key, memory bytes and poison marks. -/

namespace Sys2Proof.Machine

/-- The outcome type of every step. -/
abbrev Out := Host.Outcome State Fault Refusal

/-- Core c's state (at its reset values until something is written). -/
def State.core (s : State) (c : Nat) : CoreState := tget s.cores c {}
def State.setCore (s : State) (c : Nat) (x : CoreState) : State := { s with cores := tset s.cores c x }
def State.updCore (s : State) (c : Nat) (f : CoreState → CoreState) : State := s.setCore c (f (s.core c))

/-- Die d's state. -/
def State.die (s : State) (d : Nat) : DieState := tget s.dies d {}
def State.setDie (s : State) (d : Nat) (x : DieState) : State := { s with dies := tset s.dies d x }
def State.updDie (s : State) (d : Nat) (f : DieState → DieState) : State := s.setDie d (f (s.die d))

/-- Partition p's state. -/
def State.part (s : State) (p : Nat) : PartState := tget s.parts p {}
def State.setPart (s : State) (p : Nat) (x : PartState) : State := { s with parts := tset s.parts p x }
def State.updPart (s : State) (p : Nat) (f : PartState → PartState) : State := s.setPart p (f (s.part p))

/-- The group of a key, and the state with it changed. -/
def State.grp (s : State) (u : Nat) : Option Grp := s.groups.find? (fun g => g.uid == u)
def State.updGrp (s : State) (u : Nat) (f : Grp → Grp) : State :=
  { s with groups := updFirst (fun g => g.uid == u) f s.groups }

/-- The gang of a key, and the state with it changed. -/
def State.gang (s : State) (k : Nat) : Option Gang := s.gangs.find? (fun g => g.id == k)
def State.updGang (s : State) (k : Nat) (f : Gang → Gang) : State :=
  { s with gangs := updFirst (fun g => g.id == k) f s.gangs }

/-- The launch of a key, and the state with it changed. -/
def State.launch (s : State) (k : Nat) : Option Launch := s.launches.find? (fun l => l.id == k)
def State.updLaunch (s : State) (k : Nat) (f : Launch → Launch) : State :=
  { s with launches := updFirst (fun l => l.id == k) f s.launches }

/-- The groups of a gang. -/
def State.gangGroups (s : State) (k : Nat) : List Grp := s.groups.filter (fun g => g.gang == k)

/-- A fresh key, and the state that has spent it. -/
def State.takeKey (s : State) : Nat × State := (s.fresh, { s with fresh := s.fresh + 1 })

/-- A message added to what has been sent out. -/
def State.send (s : State) (o : Output) : State := { s with out := o :: s.out }

/-- A group's slot by side. -/
def Grp.slot (g : Grp) (i : Bool) : Slot := if i then g.slot1 else g.slot0
def Grp.setSlot (g : Grp) (i : Bool) (x : Slot) : Grp := if i then { g with slot1 := x } else { g with slot0 := x }
def Grp.updSlot (g : Grp) (i : Bool) (f : Slot → Slot) : Grp := g.setSlot i (f (g.slot i))

/-- Memory's invariant: addresses strictly rising, no listed byte 0 (what an unlisted address reads as, log 2). -/
def Memory.wf : Memory → Bool
  | [] => true
  | [c] => c.2 != 0#8
  | c :: d :: r => c.2 != 0#8 && decide (c.1 < d.1) && Memory.wf (d :: r)

/-- What an unlisted address reads as, DESIGN CHOICE (log 2): 0. -/
abbrev unlisted : Byte := 0#8

/-- The byte at an address. -/
def readByte (m : Memory) (a : Nat) : Byte :=
  match m with
  | [] => unlisted
  | (b, x) :: r => if b = a then x else readByte r a

/-- The cells of a run of bytes from an address, those equal to unlisted left out. -/
def cellsOf (a : Nat) : List Byte → Memory
  | [] => []
  | b :: r => if b = unlisted then cellsOf (a + 1) r else (a, b) :: cellsOf (a + 1) r

/-- Memory with a run of bytes written at an address: the one operation that writes memory. -/
def writeRun (m : Memory) (a : Nat) (bs : List Byte) : Memory :=
  m.filter (fun c => c.1 < a) ++ cellsOf a bs ++ m.filter (fun c => a + bs.length ≤ c.1)

/-- The run of n bytes from an address. -/
def readRun (m : Memory) (a n : Nat) : List Byte := (List.range n).map fun i => readByte m (a + i)

/-- The n bytes at an address as a number (R5). -/
def readNat (m : Memory) (a n : Nat) : Nat := ofBytesLE (readRun m a n)

/-- Whether any sector of a byte range is poisoned (R153). -/
def rangePois (p : List Nat) (a n : Nat) : Bool :=
  p.any fun k => decide (a / 32 ≤ k) && decide (k ≤ (a + n - 1) / 32) && decide (0 < n)

/-- The poison marks after clean data is written over a range: whole sectors it covers are cleared (R153). -/
def clearPois (p : List Nat) (a n : Nat) : List Nat :=
  p.filter fun k => !(decide (a ≤ 32 * k) && decide (32 * k + 32 ≤ a + n))

/-- The marks with a sector's set. -/
def markPois (p : List Nat) (k : Nat) : List Nat := if p.contains k then p else k :: p

/-- Bytes per sector set as poisoned over a range. -/
def markRange (p : List Nat) (a n : Nat) : List Nat :=
  if n = 0 then p else ((List.range ((a + n - 1) / 32 - a / 32 + 1)).map (· + a / 32)).foldl markPois p

/-- Root ports of a lane split (R403). -/
def splitPorts : LaneSplit → Nat
  | .x16 => 1 | .x8 => 2 | .x4 => 4

/-- The bytes of CXL expander memory behind the root ports of a record, in port order (R403): none in endpoint mode. -/
def expanderSizes (r : ConfigRecord) : List Nat := if r.endpoint then [] else r.expanders.take (splitPorts r.lanes)

/-- The root port whose expander holds a byte of expander memory, and the offset there (R403): ports follow one another. -/
def expanderAt : List Nat → Nat → Option (Nat × Nat)
  | [], _ => none
  | n :: r, off => if off < n then some (0, off) else (expanderAt r (off - n)).map fun x => (x.1 + 1, x.2)

/-- Why a physical address cannot be accessed as memory: no memory there (R235, R403), or the system block (R303). -/
def State.paFault (s : State) (pa n : Nat) : Option Fault :=
  if pa + n ≤ Config.memBytes then none
  else if Config.expanderBase ≤ pa ∧ (expanderAt (expanderSizes s.conf) (pa - Config.expanderBase)).isSome
      ∧ (expanderAt (expanderSizes s.conf) (pa - Config.expanderBase + (n - 1))).isSome then none
  else if Config.sysBase ≤ pa ∧ pa < Config.sysBase + 4 * 0x100_0000 then some (.systemBlock pa)
  else some (.noMemory pa)

/-- Bytes of physical memory as the home reads them: zero rows read 0 (R236). -/
def State.readPa (s : State) (pa n : Nat) : List Byte :=
  (List.range n).map fun i => if zeroRow (pa + i) then 0#8 else readByte s.mem (pa + i)

def State.readPaNat (s : State) (pa n : Nat) : Nat := ofBytesLE (s.readPa pa n)

/-- Clean bytes written to physical memory: zero rows discard them (R236), covered sectors lose their mark (R153),
lines of a failed die drop them (R366). -/
def State.writePa (s : State) (pa : Nat) (bs : List Byte) : State :=
  if zeroRow pa ∨ (s.die (homeDie pa)).failed = true then s
  else { s with mem := writeRun s.mem pa bs, pois := clearPois s.pois pa bs.length }

/-- Whether bytes of physical memory are poisoned: a mark, which a zero row never takes (R236), or a failed home die (R153, R366). -/
def State.paPois (s : State) (pa n : Nat) : Bool := (!zeroRow pa && rangePois s.pois pa n) || (s.die (homeDie pa)).failed

/-- Scratchpad bytes of a gang's core (R141). -/
def State.scratchMem (s : State) (k core : Nat) : Memory :=
  match s.gang k with
  | some g => tget g.scratch core []
  | none => []

def State.setScratch (s : State) (k core : Nat) (m : Memory) : State :=
  s.updGang k fun g => { g with scratch := tset g.scratch core m }

/-- Bytes a target holds, and whether one of their sectors is poisoned. -/
def State.readTarget (s : State) (t : Target) (n : Nat) : List Byte :=
  match t with
  | .mem pa _ => s.readPa pa n
  | .scratch k c a => readRun (s.scratchMem k c) a n

def State.targetPois (s : State) (t : Target) (n : Nat) : Bool :=
  match t with
  | .mem pa _ => s.paPois pa n
  | .scratch k c a =>
    match s.gang k with
    | some g => rangePois ((g.scratchPois.filter (fun e => e.1 == c)).map (·.2)) a n
    | none => false

/-- Clean bytes written to a target. -/
def State.writeTarget (s : State) (t : Target) (bs : List Byte) : State :=
  match t with
  | .mem pa _ => s.writePa pa bs
  | .scratch k c a =>
    s.updGang k fun g =>
      { g with
        scratch := tset g.scratch c (writeRun (tget g.scratch c []) a bs)
        scratchPois := g.scratchPois.filter fun e =>
          !(e.1 == c && decide (a ≤ 32 * e.2) && decide (32 * e.2 + 32 ≤ a + bs.length)) }

/-- A target's sector marked poisoned; a write to a zero row is discarded with its mark (R236). -/
def State.poisonTarget (s : State) (t : Target) : State :=
  match t with
  | .mem pa _ => if zeroRow pa then s else { s with pois := markPois s.pois (sectorOf pa) }
  | .scratch k c a =>
    s.updGang k fun g =>
      { g with scratchPois := if g.scratchPois.contains (c, a / 32) then g.scratchPois else (c, a / 32) :: g.scratchPois }

/-- A line an agent owns: a copy (R167), or a running collection (R277). -/
def State.owned (s : State) (line : Nat) : Bool :=
  (s.cpys.any fun c => c.owned.contains line) || s.waves.any fun w => w.owned.contains line

/-- A line under a wload's hold (R222): stores and atomics wait. -/
def State.lineHeld (s : State) (line : Nat) : Bool := s.ecmds.any fun c => c.holds.contains line

/-- The sectors of a range become dirty, with the partition that wrote them (R350). -/
def State.noteDirty (s : State) (pa n part : Nat) : State :=
  { s with dirty := (List.range ((pa + n - 1) / 32 - pa / 32 + 1)).foldl (fun t i => tset t (pa / 32 + i) part) s.dirty }

/-- A target some bytes further. -/
def Target.shift (t : Target) (n : Nat) : Target :=
  match t with
  | .mem pa c => .mem (pa + n) c
  | .scratch k c a => .scratch k c (a + n)

/-- Whether two byte ranges of targets overlap. -/
def Target.overlap (t : Target) (n : Nat) (u : Target) (m : Nat) : Bool :=
  match t, u with
  | .mem a _, .mem b _ => decide (a < b + m) && decide (b < a + n)
  | .scratch k c a, .scratch j d b => k == j && c == d && decide (a < b + m) && decide (b < a + n)
  | _, _ => false

/-- The tombstone of an image slot, and the state with it changed (R352). -/
def State.tomb (s : State) (part slot : Nat) : Option Tombstone :=
  s.tombs.find? (fun t => t.part == part && t.imgSlot == slot)
def State.updTomb (s : State) (part slot : Nat) (f : Tombstone → Tombstone) : State :=
  { s with tombs := updFirst (fun t => t.part == part && t.imgSlot == slot) f s.tombs }

/-- One side effect acknowledged: the outstanding count falls (R352). -/
def State.ackSide (s : State) (part slot : Nat) (ord : BitVec 8) (n : Nat) : State :=
  s.updTomb part slot fun t =>
    { t with outstanding := t.outstanding - n
             pending := tset t.pending ord.toNat (tget t.pending ord.toNat 0 - n) }

/-- One side effect performed: the outstanding count rises (R352). -/
def State.addSide (s : State) (part slot : Nat) (ord : BitVec 8) (pc : Word) (n : Nat) : State :=
  s.updTomb part slot fun t =>
    { t with outstanding := t.outstanding + n
             scenes := tset t.scenes ord.toNat pc
             pending := tset t.pending ord.toNat (tget t.pending ord.toNat 0 + n) }

end Sys2Proof.Machine
end

