-- ==== Sys2Proof/Machine/Home.lean ====
section
/-! DEFINITION. What a home slice does: times of loads, stores and atomics (R180 to R186), lease copies (R146,
R182, R183), waiters' watches (R174), the rebase request (R332). -/

namespace Sys2Proof.Machine

/-- The place of a request in a group's program order: the group's own request, or a word its primary has performed for it too (R185,
R362). -/
def Req.placeFor (q : Req) (u : Nat) : Option Nat :=
  if q.uid = u then some q.id else (q.twin.filter fun t => t.1 == u).map (·.2)

/-- Whether an access takes its place in the sequentially consistent order (R147, R187): coherent and bank lines under the
normal policy, and atomics under any policy. -/
def ordered (kind : ReqKind) (policy : Policy) (t : Target) : Bool :=
  match t with
  | .mem _ .coherent | .mem _ .bank => policy == .normal || kind == .atomic || kind == .reduction
  | _ => false

def Req.isWrite (r : Req) : Bool := r.kind != .load

/-- Whether a request stands before another in the other's group. -/
def Req.precedes (q r : Req) : Bool :=
  match q.placeFor r.uid with
  | some k => decide (k < r.id) && q.pre.isNone
  | none => false

/-- Whether access n of a request may act before an access of its group that stands earlier (R145, R185): that one is done, or the two are
not both ordered and do not touch the same bytes, unless both are loads. -/
def Req.passes (r : Req) (a : Acc) (q : Req) (b : Acc) : Bool :=
  b.done || (!(ordered r.kind r.policy a.tgt && ordered q.kind q.policy b.tgt)
    && !((r.isWrite || q.isWrite) && a.tgt.overlap a.size b.tgt b.size))

/-- Whether access n of a request may act now, some lanes that act with it apart (R159, R185): every earlier ordered access of the group is
done when it is ordered, and no earlier access of the group that touches its bytes is left, unless both are loads. -/
def State.mayActWith (s : State) (lanes : List (Nat × Nat)) (r : Req) (n : Nat) : Bool :=
  match r.accs[n]? with
  | none => false
  | some a =>
    let clear (q : Req) (b : Acc × Nat) : Bool := lanes.contains (q.id, b.2) || r.passes a q b.1
    r.pre.isSome || (s.reqs.all fun q => !q.precedes r || q.accs.zipIdx.all (clear q)) && (r.accs.zipIdx.take n).all (clear r)

/-- Whether access n of a request may act now (R159, R185). -/
def State.mayAct (s : State) (r : Req) (n : Nat) : Bool := s.mayActWith [] r n

/-- Whether a command is a group's own, or one that its primary has performed for it too (R362). -/
def Grp.has (g : Grp) (uid : Nat) : Bool := uid == g.uid || (g.under && g.twin == some uid)

/-- The key of mts: one memory time per slice and partition (R186, R332). -/
def State.mtsKey (s : State) (pa part : Nat) : Nat :=
  (homeDie pa * Config.slicesPerDie + homeSlice s.conf.retired pa) * 8 + part

/-- A line's times at its home: a line not on chip is filled with wts = rts = mts (R186). -/
def State.lineTimes (s : State) (pa part : Nat) : LineTimes :=
  match tfind s.lines (lineOf pa) with
  | some t => t
  | none => { wts := tget s.mts (s.mtsKey pa part) 0, rts := tget s.mts (s.mtsKey pa part) 0, part := part }

/-- A line leaves its home slice: the slice's memory time passes its read time (R186), and its dirty sectors are written back
(R350). -/
def State.evictLine (s : State) (line : Nat) : State :=
  match tfind s.lines line with
  | none => s
  | some t =>
    let k := s.mtsKey (256 * line) t.part
    { s with mts := tset s.mts k (max (tget s.mts k 0) t.rts), lines := terase s.lines line,
             dirty := s.dirty.filter fun e => e.1 / 8 != line }

/-- The line that leaves a home slice which holds more lines than it has room for (R3, R146): other than the line just set, one marked
for early eviction where there is one (R147), and of these the one whose times were set longest ago (which one is DESIGN CHOICE,
log 71). -/
def State.overflowing (s : State) (pa : Nat) : Option Nat :=
  let here (l : Nat) : Bool :=
    homeDie (256 * l) == homeDie pa && homeSlice s.conf.retired (256 * l) == homeSlice s.conf.retired pa
  let ls := s.lines.filter fun e => here e.1
  let others := ls.filter fun e => e.1 != lineOf pa
  if Config.sliceLines < ls.length then (((others.filter (·.2.early)).getLast?).or others.getLast?).map (·.1) else none

/-- A line's times set at its home slice, which makes room for it (R146, R186). -/
def State.setLine (s : State) (pa : Nat) (t : LineTimes) : State :=
  let s : State := { s with lines := tset s.lines (lineOf pa) t }
  match s.overflowing pa with
  | some l => s.evictLine l
  | none => s

/-- The lease length of a line's home die (R182, R304). -/
def State.leaseLen (s : State) (pa : Nat) : Nat := bits (s.die (homeDie pa)).lease 7 0

/-- A time assigned by a home: at or above 2^47 the slice asks for a rebase, at or above the reserve it sets REBASELATE (R180,
R332). -/
def State.noteTime (s : State) (part t : Nat) : State :=
  if t < Config.rebaseTime then s
  else s.updPart part fun p => { p with rebaseReq := true, rebaseLate := p.rebaseLate || decide (Config.reserveTime ≤ t) }

/-- A load at the home (R182): the lease is extended to pts + L; answers the lease [wts, rts]. -/
def State.homeLoad (s : State) (pa part pts : Nat) : LineTimes × State :=
  let t := s.lineTimes pa part
  let t' := { t with rts := max t.rts (pts + s.leaseLen pa), part := part }
  (t', (s.setLine pa t').noteTime part t'.rts)

/-- The time a store or atomic takes at the home (R183, R184). -/
def State.writeTime (s : State) (pa part pts : Nat) : Nat := max pts ((s.lineTimes pa part).rts + 1)

/-- The home's times after a write at time t; the line's other leased copies keep theirs. -/
def State.stampLine (s : State) (pa part t : Nat) : State :=
  (s.setLine pa { s.lineTimes pa part with wts := t, rts := t, part := part }).noteTime part t

/-- The site of a core's L1 and of a die's fly cache in the list of copies. -/
def l1Site (core : Nat) : Nat := core
def flySite (die : Nat) : Nat := Config.cores + die

/-- Whether a core's requests to a line go through its die's fly cache (R146). -/
def viaFly (core pa : Nat) : Bool := dieOfCore core != homeDie pa

/-- An NT access of a core marks the line for early eviction (R147): at its home slice, or the copies in the core's fly cache where the
line is homed on another die. -/
def State.markEarly (s : State) (core pa part : Nat) : State :=
  if viaFly core pa then
    { s with copies := updAll (fun c => c.site == flySite (dieOfCore core) && c.line == lineOf pa) (fun c => { c with early := true }) s.copies }
  else s.setLine pa { s.lineTimes pa part with early := true }

/-- A write performed at a word: waiters whose watched word it touches are told (R174). -/
def Slot.touched (x : Slot) (hit : Slot → Bool) : Slot :=
  if x.watched && hit x then { x with fired := true } else x

/-- The word a memory waiter watches (R25, R141, R174): its physical word, or a scratchpad word. -/
def watchTarget (g : Grp) (x : Slot) : Target :=
  let a := x.waddr.toNat
  match x.wspace.toNat with
  | 0 => .mem x.wpa .coherent
  | 1 => .scratch g.gang g.coreIdx a
  | _ => .scratch g.gang (a / g.book.scratch) (a % g.book.scratch)

/-- A write performed at a target fires every watch on a word it touches (R174). -/
def State.fireWatches (s : State) (t : Target) (n : Nat) : State :=
  { s with groups := s.groups.map fun g =>
      { g with slot0 := g.slot0.touched (fun x => Target.overlap t n (watchTarget g x) 4)
               slot1 := g.slot1.touched (fun x => Target.overlap t n (watchTarget g x) 4) } }

/-- The copy of a line at a site that holds the bytes of an access (R146: fill per sector). -/
def State.copyAt (s : State) (site pa n : Nat) (owner : Option Nat) : Option Copy :=
  s.copies.find? fun c =>
    c.site == site && c.line == lineOf pa && c.owner == owner
      && (List.range 8).all fun k =>
        c.sectors.getLsbD k || decide (32 * k + 32 ≤ pa % 256) || decide (pa % 256 + n ≤ 32 * k)

/-- The sectors of a line that an access touches. -/
def sectorBits (pa n : Nat) : BitVec 8 :=
  BitVec.ofNat 8 ((List.range 8).foldl (fun acc k =>
    if decide (32 * k < pa % 256 + n) && decide (pa % 256 < 32 * k + 32) then acc + 2 ^ k else acc) 0)

/-- A copy of the home's present line content at a site, with a lease. -/
def State.freshCopy (s : State) (site pa n : Nat) (w r : Nat) (owner : Option Nat) (rs : Bool) : Copy :=
  let base := lineOf pa * 256
  { site := site, line := lineOf pa, w := w, r := r, owner := owner, readShared := rs,
    born := s.fresh, sectors := sectorBits pa n, bytes := writeRun [] 0 (s.readPa base 256),
    pois := BitVec.ofNat 8 ((List.range 8).foldl (fun acc k =>
      if s.paPois (base + 32 * k) 32 then acc + 2 ^ k else acc) 0) }

/-- Lines a site of copies has room for (R3, R146): an L1, or a fly cache. -/
def siteLines (site : Nat) : Nat := if site < Config.cores then Config.l1Lines else Config.flyLines

/-- The copies with room for one more at a site: where it is full, a copy marked for early eviction leaves where there is one (R147), and
of these the one filled longest ago (R3, R146; which one is DESIGN CHOICE, log 71). -/
def makeCopyRoom (site : Nat) (cs : List Copy) : List Copy :=
  let here := cs.filter fun c => c.site == site
  if siteLines site ≤ here.length then
    match ((here.filter (·.early)).getLast?).or here.getLast? with
    | some c => cs.erase c
    | none => cs
  else cs

/-- A copy put in place of what the site held of its line and owner, where the site has room or makes it. -/
def State.putCopy (s : State) (c : Copy) : State :=
  let rest := s.copies.filter fun d => !(d.site == c.site && d.line == c.line && d.owner == c.owner)
  { s with copies := c :: makeCopyRoom c.site rest }

/-- The bytes and poison of an access served by a copy. -/
def Copy.serve (c : Copy) (pa n : Nat) : List Byte × Bool :=
  (readRun c.bytes (pa % 256) n, !((c.pois &&& sectorBits pa n) == 0#8))

/-- The copies a write of an issuing core leaves: its own copy of the line takes the home's content and the lease
[t, t] (R146, R183; DEDUCED, log 10), every other copy stays. -/
def State.refreshCopies (s : State) (core pa t : Nat) : State :=
  { s with copies := s.copies.map fun c =>
      if c.line == lineOf pa && c.owner == none && !c.readShared
          && (c.site == l1Site core || (viaFly core pa && c.site == flySite (dieOfCore core))) then
        { s.freshCopy c.site pa 1 t t none false with sectors := c.sectors, part := c.part } else c }

/-- Leased and private copies of a line dropped: after an NT or WC store, no copy is older than the home (R191, R195; log
22). -/
def State.dropCopies (s : State) (pa : Nat) : State :=
  { s with copies := s.copies.filter fun c => c.line != lineOf pa || c.readShared }

/-- A bank unit's write of a line (R188, R247): the home drops its copy and raises mts past rts, and to a time that the write may not
precede (R280); answers the time the write takes. -/
def State.backInvalidate (s : State) (pa part from_ : Nat) : Nat × State :=
  let t := s.lineTimes pa part
  let k := s.mtsKey pa part
  let m := max (max (tget s.mts k 0) (t.rts + 1)) from_
  (m, ({ s with mts := tset s.mts k m, lines := terase s.lines (lineOf pa) }).noteTime part m)

/-- Whether a write to a physical address goes through to memory (R146): a page list or a translation in some TLB says that its page is of
class bank, or none says what it is (DEDUCED, log 53). -/
def State.bankPage (s : State) (pa : Nat) : Bool :=
  let maps (e : TlbEntry) : Bool := decide (e.pa ≤ pa) && decide (pa < e.pa + e.size)
  let holds (p : TlbEntry → Bool) : Bool := (s.cores.any fun c => c.2.tlb.any p) || s.dies.any fun d => d.2.ctlb.any fun k => k.2.any p
  (s.plists.any fun p => (p.frames.zip p.bankOk).contains (some (pa / 65536), true))
    || holds (fun e => maps e && e.cls == .bank) || !holds maps

/-- The sectors that some bytes lie in become dirty (R146, R350). -/
def State.noteSectors (s : State) (part : Nat) (pas : List Nat) : State :=
  ((pas.map (· / 32)).eraseDups).foldl (fun s k => s.noteDirty (32 * k) 32 part) s

/-- A coherent store at its home, as one step: the line takes its time, its sectors become dirty unless the page is of class bank
(R146), watches fire; answers its time (R183). -/
def State.homeStore (s : State) (part pts pa : Nat) (bs : List Byte) (bank : Bool) : Nat × State :=
  let t := s.writeTime pa part pts
  let s : State := (s.writePa pa bs).stampLine pa part t
  (t, (if bank then s else s.noteDirty pa bs.length part).fireWatches (.mem pa .coherent) bs.length)

/-- Whether a store to a line may act now (R154, R222): no agent owns it and no wload holds it. -/
def State.lineFree (s : State) (line : Nat) : Bool := !s.owned line && !s.lineHeld line

/-- Whether a demand access waits for its bank (R245), which a line that is not on chip needs, and a write to a bank page, which goes
through (R146): the unit holds the bank, or a read of the bank waits before a write. -/
def State.bankHolds (s : State) (pa : Nat) (write : Bool) : Bool :=
  let b := tget s.banks (bankOf pa) {}
  decide (pa < Config.memBytes) && (b.compute || (write && b.waits.any fun w => !w.2.2))
    && ((tfind s.lines (lineOf pa)).isNone || (write && s.bankPage pa))

/-- A demand access waits for its bank. -/
def State.demand (s : State) (pa : Nat) (key : Nat × Nat) (write : Bool) : State :=
  let b := tget s.banks (bankOf pa) {}
  if b.waits.any fun w => w.1 == key.1 && w.2.1 == key.2 then s
  else { s with banks := tset s.banks (bankOf pa) { b with waits := b.waits ++ [(key.1, key.2, write)],
                                                           waitFrom := if b.waits.isEmpty then s.clk else b.waitFrom } }

/-- A demand access has been served. -/
def State.served (s : State) (key : Nat × Nat) : State :=
  { s with banks := s.banks.map fun b => (b.1, { b.2 with waits := b.2.waits.filter fun w => !(w.1 == key.1 && w.2.1 == key.2) }) }

/-- An access that has reached its home waits there for its line, behind those that arrived before it (R154). -/
def State.await (s : State) (w : LineWait) : State :=
  if s.lineWaits.contains w then s else { s with lineWaits := s.lineWaits ++ [w] }

/-- Accesses that have acted, or are gone, wait for no line any more. -/
def State.unawait (s : State) (gone : LineWait → Bool) : State :=
  { s with lineWaits := s.lineWaits.filter fun w => !gone w }

/-- Whether a waiting access is one of a group's own reads that belong to no request: a memory waiter's, a scene's descriptors. -/
def LineWait.readsOf (w : LineWait) (u : Nat) : Bool :=
  match w with
  | .mwait v _ | .check v _ => v == u
  | _ => false

/-- An ordinary coherent store of an agent that is no group (a launch unit, a network engine, a hart; R188). It waits at its home
while another agent owns the line or a wload holds it (R154, R222), for its bank (R245), and behind the partition's stores that wait;
answers its time. -/
def State.agentStore (s : State) (part pts pa : Nat) (bs : List Byte) (bank : Bool := false) : Nat × State :=
  if !s.lineFree (lineOf pa) || s.bankHolds pa true || s.stalls.any fun x => x.part == part then
    (pts, { s with stalls := s.stalls ++ [{ part := part, pts := pts, pa := pa, bytes := bs, bank := bank }] })
  else s.homeStore part pts pa bs bank

/-- A command that is gone makes no demand any more. -/
def State.unwait (s : State) (id : Nat) : State :=
  { s with banks := s.banks.map fun b => (b.1, { b.2 with waits := b.2.waits.filter fun w => w.1 != id }) }

/-- Whether a line may be written by a bank unit now (R154, R222, R245): it is free, and no demand access waits for its bank, or none has
waited for 2 µs of the unit's compute. -/
def State.unitFree (s : State) (line : Nat) : Bool :=
  let b := tget s.banks (bankOf (256 * line)) {}
  s.lineFree line && (b.waits.isEmpty || (b.compute && decide (s.clk < b.waitFrom + clksOfUs 2)))

/-- The first waiting store of an agent whose line is free acts, or makes its demand on its bank (R245); later ones of the partition take
later times. -/
def State.serveStall (s : State) : State :=
  match s.stalls.find? fun x => (s.stalls.find? fun y => y.part == x.part) == some x && s.lineFree (lineOf x.pa) with
  | none => s
  | some x =>
    if s.bankHolds x.pa true then s.demand x.pa (0, 2 * lineOf x.pa + 1) true
    else
      let r := s.homeStore x.part x.pts x.pa x.bytes x.bank
      let after (y : AgentStore) : AgentStore := if y.part = x.part then { y with pts := max y.pts r.1 } else y
      State.served { r.2 with stalls := (r.2.stalls.erase x).map after } (0, 2 * lineOf x.pa + 1)

/-- Stores of an agent that act at their homes in order, each after the one before it (R188); whether a page is of class bank, its own
translation may say (R146). -/
def State.homeStores (s : State) (part pts : Nat) (xs : List (Nat × List Byte)) (bank : Nat → Bool := fun _ => false) : Nat × State :=
  match xs with
  | [] => (pts, s)
  | (pa, bs) :: r => let x := s.homeStore part pts pa bs (bank pa || s.bankPage pa); State.homeStores x.2 part x.1 r bank

end Sys2Proof.Machine
end

