-- ==== Sys2Proof/Machine/Report.lean ====
section
/-! DEFINITION. Imprecise errors and the error records that report them (R350 to R352). -/

namespace Sys2Proof.Machine

/-- The KIND code of an error record (R350). -/
def errKindCode : ErrKind → Nat
  | .store => 1 | .homelost => 2 | .bank => 3 | .copy => 4 | .wave => 5 | .writeback => 6

/-- An error record's bytes (R350). -/
def errorBytes (launchId kind group block pc pa phase : Nat) : List Byte :=
  bytesLE 8 launchId ++ bytesLE 4 (kind + group * 256) ++ bytesLE 4 block ++ bytesLE 4 pc ++ bytesLE 4 0
    ++ bytesLE 8 (pa + phase * 2 ^ 63)

/-- An error record written to a partition's ring, or dropped and counted (R351); the ring is at a physical address. -/
def State.errorRecord (s : State) (part launchId kind group block pc pa : Nat) : State :=
  let p := s.part part
  let l2n := bits p.errctl 4 0
  let n := 2 ^ l2n
  if l2n = 0 ∨ n ≤ (BitVec.ofNat 32 p.errcount - p.errhead).toNat then
    s.updPart part fun p => { p with errdrop := if p.errdrop = BitVec.allOnes 32 then p.errdrop else p.errdrop + 1#32 }
  else
    let j := p.errcount
    let base := p.errlo.toNat + bits p.errhi 15 0 * 2 ^ 32
    let bs := errorBytes launchId kind group block pc pa ((j / n + 1) % 2)
    let s : State := (s.agentStore part 0 (base + 32 * (j % n)) bs).2
    let s : State := s.updPart part fun p => { p with errcount := j + 1 }
    s.send (.interrupt (bits p.errctl 11 8) (bits p.errctl 22 12))

/-- An imprecise error (R350): the sector is poisoned and the origin is named through its tombstone (R352). -/
def State.imprecise (s : State) (kind : ErrKind) (part slot : Nat) (ord : BitVec 8) (pa : Nat) : State :=
  let s : State := if kind = .homelost then s else { s with pois := markPois s.pois (sectorOf pa) }
  match s.tomb part slot with
  | none => s.errorRecord part 0 (errKindCode kind) 0xFFFF 0 0 (pa / 32 * 32)
  | some t =>
    let s : State := s.updLaunch t.launch fun l => { l with fcount := satAdd l.fcount 1 65535 }
    s.errorRecord part t.launchId.toNat (errKindCode kind) t.groupNo t.block (tget t.scenes ord.toNat 0#32).toNat (pa / 32 * 32)

/-- An imprecise error that concerns no sector (R350): its record names address 0. -/
def State.bareError (s : State) (kind : ErrKind) (part slot : Nat) (ord : BitVec 8) : State :=
  match s.tomb part slot with
  | none => s.errorRecord part 0 (errKindCode kind) 0xFFFF 0 0 0
  | some t =>
    let s : State := s.updLaunch t.launch fun l => { l with fcount := satAdd l.fcount 1 65535 }
    s.errorRecord part t.launchId.toNat (errKindCode kind) t.groupNo t.block (tget t.scenes ord.toNat 0#32).toNat 0

end Sys2Proof.Machine
end

