-- ==== Sys2Proof/Machine/Translate.lean ====
section
/-! DEFINITION. Two-stage address translation (R336 to R342): walks, TLBs, the report of a failed walk. -/

namespace Sys2Proof.Machine

/-- How a translation fails: a precise translation fault of a kind (R342), or a machine stop on a table address
where no memory is. -/
inductive WalkErr where
  | trap (kind stage level : Nat)
  | stop (f : Fault)
  deriving DecidableEq, Repr

/-- A valid leaf: frame address, size, class code, SYS, level (R338, R339). -/
structure Leaf where
  frame : Nat
  size : Nat
  cls : Nat
  sys : Bool
  level : Nat
  deriving DecidableEq, Repr

/-- The size of a leaf by level and SPAN (R339); none where the table reads MALFORMED. -/
def leafSize (level span : Nat) : Option Nat :=
  match level, span with
  | 1, 0 => some 4096 | 1, 1 => some 16384 | 1, 2 => some 65536 | 1, 3 => some 262144
  | 2, 0 => some 0x20_0000 | 2, 1 => some 0x80_0000 | 2, 2 => some 0x200_0000
  | 3, 0 => some 0x4000_0000
  | _, _ => none

/-- One table entry judged (R338): a next table, a leaf, or a failing kind (1 NOTVALID, 2 MALFORMED). -/
def judgeEntry (e : BitVec 64) (stage level : Nat) : Except Nat (Nat ⊕ Leaf) :=
  let span := (e.extractLsb' 2 2).toNat
  let frame := (e.extractLsb' 12 40).toNat * 4096
  if e.getLsbD 0 = false then .error 1
  else if e.extractLsb' 52 12 ≠ 0#12 ∨ e.extractLsb' 9 3 ≠ 0#3 ∨ e.extractLsb' 6 2 ≠ 0#2 then .error 2
  else if stage = 1 ∧ (e.getLsbD 8 = true ∨ e.extractLsb' 4 2 ≠ 0#2) then .error 2
  else if e.getLsbD 1 = false then
    if level ≤ 1 ∨ span ≠ 0 then .error 2 else .ok (.inl frame)
  else
    match leafSize level span with
    | none => .error 2
    | some n =>
      if frame % n ≠ 0 then .error 2
      else .ok (.inr { frame := frame, size := n, cls := (e.extractLsb' 4 2).toNat, sys := e.getLsbD 8, level := level })

/-- A table entry read at its home (R341): poison is kind 5 (R342). -/
def State.readEntry (s : State) (pa stage level : Nat) : Except WalkErr (BitVec 64) :=
  match s.paFault pa 8 with
  | some f => .error (.stop f)
  | none => if s.paPois pa 8 then .error (.trap 5 stage level) else .ok (BitVec.ofNat 64 (s.readPaNat pa 8))

/-- The index of an address at a level (R337). -/
def levelIndex (a level : Nat) : Nat := a / 2 ^ (12 + 9 * (level - 1)) % 512

/-- The address prefix that selects an entry at a level. -/
def levelPrefix (a level : Nat) : Nat := a / 2 ^ (12 + 9 * (level - 1))

/-- The table a walk cache names for an address at a level of a stage (R341). -/
def findPtr (cs : List PtrEntry) (part : Nat) (root : Word) (stage level a : Nat) : Option Nat :=
  (cs.find? fun c => c.part == part && c.root == root && c.stage == stage && c.level == level && c.prefix_ == levelPrefix a level).map (·.next)

/-- A walk of one stage from a table at a level downwards (R336 to R338), with the pointer entries it has used. The walk cache supplies
the pointers it holds; other entries are read where locate puts them. -/
def State.walkFrom (s : State) (cs : List PtrEntry) (part : Nat) (root : Word) (stage a : Nat)
    (locate : Nat → Except WalkErr (List PtrEntry × Nat)) : (level : Nat) → (table : Nat) → Except WalkErr (List PtrEntry × Leaf)
  | 0, _ => .error (.trap 2 stage 1)
  | k + 1, table =>
    match findPtr cs part root stage (k + 1) a with
    | some next => s.walkFrom cs part root stage a locate k next
    | none =>
      match locate (table + 8 * levelIndex a (k + 1)) with
      | .error e => .error e
      | .ok (more, pa) =>
        match s.readEntry pa stage (k + 1) with
        | .error e => .error e
        | .ok e =>
          match judgeEntry e stage (k + 1) with
          | .error kind => .error (.trap kind stage (k + 1))
          | .ok (.inl next) =>
            let c : PtrEntry := { part := part, root := root, stage := stage, level := k + 1, prefix_ := levelPrefix a (k + 1), next := next }
            match s.walkFrom cs part root stage a locate k next with
            | .error e => .error e
            | .ok (ps, leaf) => .ok (more ++ c :: ps, leaf)
          | .ok (.inr leaf) => .ok (more, leaf)

/-- The second stage: an intermediate physical address to a physical address and its leaf (R336, R337). -/
def State.walk2 (s : State) (cs : List PtrEntry) (part : Nat) (ptroot : Word) (ipa : Nat) :
    Except WalkErr (List PtrEntry × Nat × Leaf) :=
  if 2 ^ 44 ≤ ipa then .error (.trap 2 1 5)
  else
    match s.walkFrom cs part ptroot 1 ipa (fun pa => .ok ([], pa)) 5 (ptroot.toNat * 4096) with
    | .error e => .error e
    | .ok (ps, leaf) => .ok (ps, leaf.frame + ipa % leaf.size, leaf)

/-- The class of its code (R338). -/
def classOf (n : Nat) : Class :=
  match n with
  | 0 => .priv | 1 => .readShared | 2 => .coherent | _ => .bank

/-- The class of a translation with an effective page of n bytes (R340): a bank leaf below 64 KiB is coherent to ordinary accesses, and
as no bank page refuses its bank commands with CLASS. -/
def pageClass (code n : Nat) : Class := if classOf code = .bank ∧ n < 65536 then .coherent else classOf code

/-- A whole walk with a walk cache: the TLB entry of the effective page (R340), and the pointer entries it has used. -/
def State.walkWith (s : State) (cs : List PtrEntry) (part : Nat) (ptroot : Word) (va : Nat) :
    Except WalkErr (List PtrEntry × TlbEntry) :=
  let root := (s.part part).s1root
  let locate (ipa : Nat) : Except WalkErr (List PtrEntry × Nat) :=
    match s.walk2 cs part ptroot ipa with
    | .error e => .error e
    | .ok (ps, pa, _) => .ok (ps, pa)
  if root = 0#32 then .error (.trap 1 0 5)
  else
    match s.walkFrom cs part ptroot 0 va locate 5 (root.toNat * 4096) with
    | .error e => .error e
    | .ok (ps, l1) =>
      let ipa := l1.frame + va % l1.size
      match s.walk2 cs part ptroot ipa with
      | .error e => .error e
      | .ok (qs, pa, l2) =>
        let n := min l1.size l2.size
        .ok (ps ++ qs, { part := part, va := va / n * n, ipa := ipa / n * n, pa := pa / n * n, size := n,
                         cls := pageClass l1.cls n, sys := l1.sys, level := l1.level })

/-- A whole walk that reads every entry at its home. -/
def State.walk (s : State) (part : Nat) (ptroot : Word) (va : Nat) : Except WalkErr TlbEntry :=
  match s.walkWith [] part ptroot va with
  | .error e => .error e
  | .ok (_, e) => .ok e

/-- A TLB entry that covers an address for a partition (R341). -/
def TlbEntry.covers (e : TlbEntry) (part va : Nat) : Bool :=
  e.part == part && decide (e.va ≤ va) && decide (va < e.va + e.size)

/-- The cluster TLB of a core (R341). -/
def State.clusterTlb (s : State) (core : Nat) : List TlbEntry :=
  tget (s.die (dieOfCore core)).ctlb (clusterOfCore core % 24) []

/-- The translation of an address for a core (R341): core TLB, cluster TLB, a walk through the die's walk cache, whose pointers are
answered too; the dead root fails with kind 4 at level 5 (R342, R346). -/
def State.lookupWith (s : State) (core part va : Nat) : Except WalkErr (List PtrEntry × TlbEntry) :=
  let c := s.core core
  if c.ptroot = 0#32 then .error (.trap 4 0 5)
  else
    match c.tlb.find? (fun e => e.covers part va) with
    | some e => .ok ([], e)
    | none =>
      match (s.clusterTlb core).find? (fun e => e.covers part va) with
      | some e => .ok ([], e)
      | none => s.walkWith (s.die (dieOfCore core)).wcache part c.ptroot va

def State.lookup (s : State) (core part va : Nat) : Except WalkErr TlbEntry :=
  match s.lookupWith core part va with
  | .error e => .error e
  | .ok (_, e) => .ok e

/-- The state with a translation held in the core's and its cluster's TLB, of 256 and 4,096 entries, and the pointers of its walk in the
die's walk cache, of 1,024 (R341). -/
def State.fillTlb (s : State) (core : Nat) (ps : List PtrEntry) (e : TlbEntry) : State :=
  let s : State := s.updCore core fun c =>
    if c.tlb.contains e then c else { c with tlb := (e :: c.tlb).take 256 }
  s.updDie (dieOfCore core) fun d =>
    let k := clusterOfCore core % 24
    let t := tget d.ctlb k []
    let d : DieState := { d with wcache := (ps.filter (fun p => !d.wcache.contains p) ++ d.wcache).take 1024 }
    if t.contains e then d else { d with ctlb := tset d.ctlb k ((e :: t).take 4096) }

/-- A translated address for a group's access: physical address, entry; a SYS page refuses a tenant with kind 3
(R342). -/
def State.translate (s : State) (core part : Nat) (system : Bool) (va : Nat) : Except WalkErr (Nat × TlbEntry) :=
  match s.lookup core part va with
  | .error e => .error e
  | .ok e => if e.sys && !system then .error (.trap 3 0 e.level) else .ok (e.pa + (va - e.va), e)

/-- The TLBs filled with the translations of a list of addresses; failing ones leave nothing (R341). -/
def State.touchTlb (s : State) (core part : Nat) (vas : List Nat) : State :=
  vas.foldl (fun s va =>
    match s.lookupWith core part va with
    | .ok (ps, e) => s.fillTlb core ps e
    | .error _ => s) s

/-- The page starts that a byte range crosses, at 4 KiB steps (every page size is a multiple, R339). -/
def pagesOf (va n : Nat) : List Nat :=
  if n = 0 then [] else
    (List.range ((va + n - 1) / 4096 - va / 4096 + 1)).map fun i => if i = 0 then va else (va / 4096 + i) * 4096

/-- The fault report dwords of R342. -/
def faultDwords (va kind stage access level : Nat) : BitVec 64 × BitVec 64 :=
  (BitVec.ofNat 64 (va % 2 ^ 57),
   BitVec.ofNat 64 (kind + stage * 16 + access * 32 + level * 256))

/-- Reads of a translated byte range by an agent through a partition's tables, with the root of a core: none where a
page fails (R338, R341). -/
def State.agentPas (s : State) (core part : Nat) (system : Bool) (va n : Nat) : Option (List Nat) :=
  ((List.range n).mapM fun i =>
    match s.translate core part system (va + i) with
    | .ok (pa, _) => if (s.paFault pa 1).isNone then some pa else none
    | .error _ => none)

end Sys2Proof.Machine
end

