-- ==== Sys2Proof/Machine/Image.lean ====
section
/-! DEFINITION. A group's register files by number, its context image in memory (R22, R25, R26, R28), its tombstone's bytes (R352), and the
gang image (R171, R204, R324). -/

namespace Sys2Proof.Machine

/-- Vector register n of a group; reset values beyond the file. -/
def Grp.vreg (g : Grp) (n : Nat) : VReg := (g.v[n]?).getD {}
def Grp.sreg (g : Grp) (n : Nat) : SReg := (g.s[n]?).getD {}
/-- Predicate n: p0 reads all ones and is never poisoned (R23, R38). -/
def Grp.preg (g : Grp) (n : Nat) : PReg :=
  if n = 0 then { val := BitVec.allOnes 32, pois := 0#32 } else (g.p[n]?).getD {}
def Grp.window (g : Grp) (n : Nat) : BitVec 128 := (g.w[n]?).getD 0#128
def Grp.hopReg (g : Grp) (n : Nat) : Nat := ((g.h[n]?).getD 0#4).toNat
def Grp.qbind (g : Grp) (n : Nat) : QBind := (g.q[n]?).getD {}

def Grp.setV (g : Grp) (n : Nat) (r : VReg) : Grp := { g with v := g.v.setIfInBounds n r }
def Grp.setS (g : Grp) (n : Nat) (r : SReg) : Grp := { g with s := g.s.setIfInBounds n r }
/-- p0 is read-only (R23): writing it changes nothing. -/
def Grp.setP (g : Grp) (n : Nat) (r : PReg) : Grp := if n = 0 then g else { g with p := g.p.setIfInBounds n r }
def Grp.setW (g : Grp) (n : Nat) (d : BitVec 128) : Grp := { g with w := g.w.setIfInBounds n d }
def Grp.setH (g : Grp) (n : Nat) (x : BitVec 4) : Grp := { g with h := g.h.setIfInBounds n x }
def Grp.setQ (g : Grp) (n : Nat) (b : QBind) : Grp := { g with q := g.q.setIfInBounds n b }

/-- n bytes at an offset of a byte list, as a number (R5). -/
def natAt (bs : List Byte) (off n : Nat) : Nat := ofBytesLE ((bs.drop off).take n)
def wordAt (bs : List Byte) (off : Nat) : Word := BitVec.ofNat 32 (natAt bs off 4)

/-- A byte list cut or padded with zeros to a length. -/
def padTo (n : Nat) (bs : List Byte) : List Byte := bs.take n ++ List.replicate (n - bs.length) 0#8

/-- The STATE and WAIT codes of a slot (R25). -/
def SlotState.code : SlotState → Nat
  | .empty => 0 | .ready => 1 | .waiting => 2 | .atJoin => 3
def WaitKind.code : WaitKind → Nat
  | .none => 0 | .barrier => 1 | .mwne => 2 | .mwgeS => 3 | .mwgeU => 4 | .drain => 5 | .cwait => 6 | .gwait => 7 | .fence => 8
def SlotState.ofCode (n : Nat) : SlotState :=
  match n with
  | 0 => .empty | 1 => .ready | 2 => .waiting | _ => .atJoin
def WaitKind.ofCode (n : Nat) : WaitKind :=
  match n with
  | 1 => .barrier | 2 => .mwne | 3 => .mwgeS | 4 => .mwgeU | 5 => .drain | 6 => .cwait | 7 => .gwait | 8 => .fence | _ => .none

/-- The bytes of a PC slot in a context image (R25). A fragment held at its header, for an empty register (R48) or for the other slot's
handler (R308), has no WAIT code in the table: it is written with STATE 1 and WAIT 0 (DESIGN CHOICE, log 68). -/
def slotBytes (x : Slot) : List Byte :=
  bytesLE 4 x.mask.toNat ++ bytesLE 4 x.pc.toNat ++ bytesLE 4 x.join.toNat ++ bytesLE 4 x.mode.toNat
    ++ bytesLE 4 (x.st.code + 16 * x.wait.code) ++ bytesLE 4 x.warg.toNat ++ bytesLE 8 (x.waddr.toNat + x.wspace.toNat * 2 ^ 57)

/-- A PC slot from its bytes (R25, R28); what the format does not hold is kept. -/
def Slot.ofBytes (x : Slot) (bs : List Byte) : Slot :=
  { x with mask := wordAt bs 0, pc := wordAt bs 4, join := wordAt bs 8, mode := wordAt bs 12,
           st := .ofCode (natAt bs 16 4 % 4), wait := .ofCode (natAt bs 16 4 / 16 % 16), warg := wordAt bs 20,
           waddr := BitVec.ofNat 57 (natAt bs 24 8), wspace := BitVec.ofNat 2 (natAt bs 24 8 / 2 ^ 57) }

/-- Whether a software trap is pending at a slot's next header (R25, R308). -/
def Slot.pends (x : Slot) : Bool := match x.hold with | .handlerPend _ | .parkPend _ => true | _ => false

/-- Line 0 of a group's context image (R25). -/
def Grp.line0 (g : Grp) : List Byte :=
  let b (x : Bool) : Nat := if x then 1 else 0
  slotBytes g.slot0 ++ slotBytes g.slot1
    ++ bytesLE 4 (g.stack.length + 256 * b g.slot0.handler + 512 * b g.slot1.handler
        + 1024 * b g.slot0.pends + 2048 * b g.slot1.pends)
    ++ bytesLE 4 g.trapInfo.toNat ++ bytesLE 4 g.trapPc.toNat ++ bytesLE 4 g.savedMode.toNat
    ++ bytesLE 8 g.pts ++ bytesLE 4 g.ord.toNat ++ bytesLE 4 0 ++ bytesLE 8 g.sig.toNat ++ bytesLE 8 0
    ++ bytesLE 8 g.faultVa.toNat ++ bytesLE 8 g.faultInfo.toNat
    ++ (List.range 8).flatMap fun n => bytesLE 16 (g.window n).toNat

/-- The byte of a queue binding in line 1: kind in [1:0], format in [3:2], lost in [4] (log 68). -/
def QBind.code (b : QBind) : Nat :=
  (match b.kind with | .unbound => 0 | .input f => 1 + 4 * f.toNat | .output => 2 | .collect => 3) + if b.lost then 16 else 0
def QBind.ofCode (n : Nat) : QBind :=
  { kind := match n % 4 with | 0 => .unbound | 1 => .input (BitVec.ofNat 2 (n / 4)) | 2 => .output | _ => .collect
    lost := n / 16 % 2 == 1 }

/-- Line 1 (R25): its contents in the order in which the table lists them; the places of the bytes are the model's (DESIGN CHOICE,
log 68): scalars at 0x00, their poison at 0x80 and full bits at 0x84, predicates at 0x88, their poison at 0xA8, hop registers at 0xC8,
bindings at 0xD0. -/
def Grp.line1 (g : Grp) : List Byte :=
  let bit (f : SReg → Bool) : Nat := (maskOf fun n => f (g.sreg n)).toNat
  ((List.range 32).flatMap fun n => bytesLE 4 (g.sreg n).val.toNat) ++ bytesLE 4 (bit (·.pois)) ++ bytesLE 4 (bit (·.full))
    ++ ((List.range 8).flatMap fun n => bytesLE 4 (g.preg n).val.toNat)
    ++ ((List.range 8).flatMap fun n => bytesLE 4 (g.preg n).pois.toNat)
    ++ ((List.range 8).map fun n => BitVec.ofNat 8 (g.hopReg (2 * n) + 16 * g.hopReg (2 * n + 1)))
    ++ ((List.range 16).map fun n => BitVec.ofNat 8 (g.qbind n).code)

/-- Line 2 (R25): v tags, 4 bits each, at 0x00; v full bits at 0x40 (places DESIGN CHOICE, log 68). -/
def Grp.line2 (g : Grp) : List Byte :=
  ((List.range 64).map fun n => BitVec.ofNat 8 ((g.vreg (2 * n)).tag.toNat + 16 * (g.vreg (2 * n + 1)).tag.toNat))
    ++ (List.range 16).map fun n =>
      BitVec.ofNat 8 ((List.range 8).foldl (fun a k => a + if (g.vreg (8 * n + k)).full then 2 ^ k else 0) 0)

/-- The context image of a group (R25), (13 + n/2) lines; unlisted bytes are zero. The split stack's oldest entry lies lowest (DESIGN
CHOICE, log 68). -/
def Grp.image (g : Grp) : List Byte :=
  padTo 256 g.line0 ++ padTo 256 g.line1 ++ padTo 256 g.line2 ++ padTo 2048 (g.stack.reverse.flatMap slotBytes)
    ++ padTo 512 ((List.range g.book.regs).flatMap fun n => bytesLE 4 (g.vreg n).pois.toNat)
    ++ (List.range g.book.regs).flatMap fun n => (List.range 32).flatMap fun l => bytesLE 4 (laneAt (g.vreg n).lanes l).toNat

/-- A group as its image holds it (R25, R28): every field of the maps from the bytes, and the times its pts rose to since they were
written; what no byte holds is kept. -/
def Grp.ofImage (g : Grp) (bs : List Byte) : Grp :=
  let flags := natAt bs 0x40 4
  let slot (i : Nat) (x : Slot) : Slot :=
    let y := x.ofBytes (bs.drop (32 * i))
    { y with handler := flags / 2 ^ (8 + i) % 2 == 1, hold := if x.pends && flags / 2 ^ (10 + i) % 2 == 0 then .none else x.hold }
  let entry (i : Nat) : Slot := (g.stack.reverse.getD i {}).ofBytes (bs.drop (0x300 + 32 * i))
  let sbit (off n : Nat) : Bool := (wordAt bs off).getLsbD n
  { g with
    slot0 := slot 0 g.slot0, slot1 := slot 1 g.slot1
    stack := ((List.range (min (flags % 128) 64)).map entry).reverse
    trapInfo := wordAt bs 0x44, trapPc := wordAt bs 0x48, savedMode := wordAt bs 0x4C
    pts := max g.ptsLate (natAt bs 0x50 6), ptsLate := 0, ord := BitVec.ofNat 8 (natAt bs 0x58 1), sig := BitVec.ofNat 64 (natAt bs 0x60 8)
    faultVa := BitVec.ofNat 64 (natAt bs 0x70 8), faultInfo := BitVec.ofNat 64 (natAt bs 0x78 8)
    w := Vector.ofFn fun (n : Fin 8) => BitVec.ofNat 128 (natAt bs (0x80 + 16 * n.val) 16)
    s := Vector.ofFn fun (n : Fin 32) =>
      { val := wordAt bs (0x100 + 4 * n.val), pois := sbit 0x180 n.val, full := sbit 0x184 n.val }
    p := Vector.ofFn fun (n : Fin 8) => { val := wordAt bs (0x188 + 4 * n.val), pois := wordAt bs (0x1A8 + 4 * n.val) }
    h := Vector.ofFn fun (n : Fin 16) => BitVec.ofNat 4 (natAt bs (0x1C8 + n.val / 2) 1 / 16 ^ (n.val % 2))
    q := Vector.ofFn fun (n : Fin 16) => .ofCode (natAt bs (0x1D0 + n.val) 1)
    v := Vector.ofFn fun (n : Fin 128) =>
      if n.val < g.book.regs then
        { lanes := lanesFrom fun l => wordAt bs (0xD00 + 128 * n.val + 4 * l)
          tag := BitVec.ofNat 4 (natAt bs (0x200 + n.val / 2) 1 / 16 ^ (n.val % 2))
          pois := wordAt bs (0xB00 + 4 * n.val)
          full := natAt bs (0x240 + n.val / 8) 1 / 2 ^ (n.val % 8) % 2 == 1 }
      else g.vreg n.val }

/-- A tombstone's 2 KiB at offset 0x7800 of its image slot (R352). -/
def Tombstone.bytes (t : Tombstone) : List Byte :=
  padTo 1024 (bytesLE 8 t.launchId.toNat ++ bytesLE 4 t.block ++ bytesLE 4 t.groupNo ++ bytesLE 4 t.outstanding)
    ++ (List.range 256).flatMap fun j => bytesLE 4 (tget t.scenes j 0#32).toNat

/-- The virtual address of a group's image slot (R304, R324): 32 KiB slots of the region in force when it was placed (R305). -/
def Grp.imageVa (g : Grp) : Nat := g.imgBase + g.imgSlot * 32768

/-- Bytes cut into the lines they fill from an address on (R25). -/
def chunk (bs : List Byte) : List (Nat × List Byte) :=
  (List.range (ceilDiv bs.length 256)).map fun k => (256 * k, (bs.drop (256 * k)).take 256)

/-- Whole lines at a virtual address, a multiple of 256, written through a core's translations as far as they translate to memory. -/
def State.writeLines (s : State) (core part va : Nat) (bs : List Byte) : State :=
  (chunk bs).foldl (fun s c =>
    match s.translate core part true (va + c.1) with
    | .ok (pa, _) => if (s.paFault pa c.2.length).isNone then s.writePa pa c.2 else s
    | .error _ => s) s

/-- The bytes in memory at a virtual address, a multiple of 256; where a line does not translate to memory, those given. -/
def State.readLines (s : State) (core part va : Nat) (own : List Byte) : List Byte :=
  (chunk own).flatMap fun c =>
    match s.translate core part true (va + c.1) with
    | .ok (pa, _) => if (s.paFault pa c.2.length).isNone then s.readPa pa c.2.length else c.2
    | .error _ => c.2

/-- A group's image and its tombstone written to its slot (R25 to R27, R352). -/
def State.writeImage (s : State) (g : Grp) : State :=
  let s : State := s.writeLines g.core g.part g.imageVa g.image
  match s.tomb g.part g.imgSlot with
  | some t => s.writeLines g.core g.part (g.imageVa + 0x7800) t.bytes
  | none => s

/-- The code word of a group at an offset, 0 where none can be read. -/
def State.codeAt (s : State) (g : Grp) (core : Nat) (off : Word) : Word :=
  match s.translate core g.part g.system (g.book.code + off.toNat) with
  | .ok (pa, _) => if (s.paFault pa 4).isNone then BitVec.ofNat 32 (s.readPaNat pa 4) else 0#32
  | .error _ => 0#32

/-- The report of the trap or brk word whose scene ends before a header (R96, R307): the word before the trailer, its index counted from
the scene's header. An image's PEND bit says that it is still to be taken and holds no report (log 83). -/
def State.pendInfo (s : State) (g : Grp) (core : Nat) (pc : Word) : Word :=
  let w := s.codeAt g core (pc - 8#32)
  let isHeader (k : Nat) : Bool := (s.codeAt g core (pc - 8#32 - BitVec.ofNat 32 (4 * k))).toNat / 2 ^ 24 == 1
  let idx := (((List.range 24).map (· + 1)).find? isHeader).getD 0
  let report (cls : Nat) (n : BitVec 16) : Word := BitVec.ofNat 32 (cls * 2 ^ 26 + idx * 2 ^ 21 + n.toNat)
  match decodeWord w with
  | .ok (.brk n) => report 17 n
  | .ok (.trap n) => report 16 n
  | _ => report 16 0#16

/-- A group as its image in memory holds it, read through a core's translations (R28); a PEND bit that the kept slot does not have is
restored with its word's report. -/
def State.readImage (s : State) (g : Grp) (core : Nat) : Grp :=
  let bs := s.readLines core g.part g.imageVa g.image
  let h := g.ofImage bs
  let restore (i : Nat) (x : Slot) : Slot :=
    if natAt bs 0x40 4 / 2 ^ (10 + i) % 2 = 1 ∧ x.pends = false then { x with hold := .handlerPend (s.pendInfo g core x.pc) } else x
  { h with slot0 := restore 0 h.slot0, slot1 := restore 1 h.slot1 }

/-- The image lines of a group leave the register cache of its core (R26, R27, R343): they are written to memory, where its state is from
then on. -/
def State.saveImage (s : State) (u : Nat) : State :=
  match s.grp u with
  | some g => if g.cached then (s.writeImage g).updGrp u fun x => { x with cached := false } else s
  | none => s

/-- The image lines of a group fetched into the register cache of its core (R26, R28). -/
def State.fetchImage (s : State) (u : Nat) : State :=
  match s.grp u with
  | some g => if g.cached then s else s.updGrp u fun _ => { s.readImage g g.core with cached := true }
  | none => s

/-- A change of a group's registers or slots that reaches its image wherever that is (R22). -/
def State.updImage (s : State) (u : Nat) (f : Grp → Grp) : State :=
  match s.grp u with
  | none => s
  | some g =>
    if g.cached then s.updGrp u f
    else
      let h := f (s.readImage g g.core)
      (s.updGrp u fun _ => h).writeImage h

/-- Image lines of a group: 13 + n/2 (R25). -/
def Grp.lines (g : Grp) : Nat := 13 + ceilDiv g.book.regs 2

/-- The groups whose image lines the register cache of a core holds (R26). -/
def State.cachedOn (s : State) (core : Nat) : List Grp :=
  s.groups.filter fun g => g.core == core && g.cached && g.place != .ended

/-- The group other than u whose lines were used longest ago. -/
def longestUnused (u : Nat) (gs : List Grp) : Option Grp :=
  gs.foldl (fun b g =>
    if g.uid = u then b
    else match b with
      | none => some g
      | some x => if g.used < x.used then some g else b) none

/-- Image lines pushed out while a core's register cache holds more than 256 KiB (R3, R26, R27): those of the group used longest ago, all
of them (which leave, and that they leave together, is DESIGN CHOICE, log 82). -/
def State.pushLines (s : State) (u core : Nat) : Nat → State
  | 0 => s
  | n + 1 =>
    let gs := s.cachedOn core
    if (gs.map Grp.lines).sum ≤ Config.regLines then s
    else
      match longestUnused u gs with
      | none => s
      | some g => (s.saveImage g.uid).pushLines u core n

/-- A group's image lines brought into the register cache of its core, where others make room (R26). -/
def State.useImage (s : State) (u : Nat) : State :=
  match s.grp u with
  | none => s
  | some g => ((s.fetchImage u).updGrp u fun x => { x with used := s.clk }).pushLines u g.core 64

/-- Cores one gang of a book needs (R7, R319). -/
def Book.groups (b : Book) : Nat := ceilDiv b.threads 32
def Book.coresPerBlock (b : Book) : Nat := ceilDiv b.groups 32
def Book.gangCores (b : Book) : Nat := b.bpg * b.coresPerBlock

/-- The bytes of a gang image (R324): 64 KiB, then k × P, rounded up to 64 KiB. -/
def Book.gangImageSize (b : Book) : Nat := 65536 + ceilDiv (b.gangCores * b.scratch) 65536 * 65536

/-- The scratchpad contents that a gang image holds from its byte 64 KiB on, core by core (R204). -/
def State.gangBytes (s : State) (k : Gang) (b : Book) : List Byte :=
  (List.range b.gangCores).flatMap fun i => s.readTarget (.scratch k.id i 0) b.scratch

/-- The keys of a gang's barrier phases (R171), in the order in which its image holds them: the gang's, then each block's. -/
def gangPhases (bpg : Nat) : List Nat :=
  List.range 32 ++ (List.range bpg).flatMap fun b => (List.range 64).map fun i => 1024 * (b + 1) + i

/-- The 24 bytes of a barrier phase in a gang image (R171, R204): limit, all ones for the launch's; count; generation; largest program
time (places DESIGN CHOICE, log 84). -/
def Barrier.bytes (b : Barrier) : List Byte :=
  bytesLE 4 (b.limit.getD 0xFFFFFFFF) ++ bytesLE 4 b.count ++ bytesLE 8 b.gen ++ bytesLE 8 b.time

/-- A barrier phase as its bytes hold it; what no byte holds is kept. -/
def Barrier.ofBytes (b : Barrier) (bs : List Byte) : Barrier :=
  let n := natAt bs 0 4
  { b with limit := if n = 0xFFFFFFFF then none else some n, count := natAt bs 4 4, gen := natAt bs 8 6, time := natAt bs 16 6 }

/-- The arrival records of a gang's groups that hold a generation (R171), those for which its image has room: group, key, generation. -/
def State.arrivals (s : State) (k : Gang) (bpg : Nat) : List (Nat × Nat × Nat) :=
  ((s.gangGroups k.id).flatMap fun g => g.arr.map fun e => (g.uid, e.1, e.2)).take ((65536 - 24 * (gangPhases bpg).length) / 8)

/-- The barrier state and the arrival records in a gang image, whole lines from its start (R171, R204): a record's generation with bit 63
set (places DESIGN CHOICE, log 84). -/
def State.barrierBytes (s : State) (k : Gang) (bpg : Nat) : List Byte :=
  let bs := ((gangPhases bpg).flatMap fun c => (tget k.bars c {}).bytes)
    ++ (s.arrivals k bpg).flatMap fun a => bytesLE 8 (2 ^ 63 + a.2.2)
  padTo (ceilDiv bs.length 256 * 256) bs

/-- A gang's barrier state and allocations written to its image (R27, R204), through the translations of a core of its. -/
def State.writeGangImage (s : State) (k : Gang) (core : Nat) : State :=
  match s.launch k.launch with
  | some l =>
    (s.writeLines core k.part (k.imgBase + k.imgSlot) (s.barrierBytes k l.book.bpg)).writeLines core k.part
      (k.imgBase + k.imgSlot + 65536) (s.gangBytes k l.book)
  | none => s

/-- A gang's barrier phases from the bytes of its image. -/
def Gang.barsFrom (k : Gang) (bpg : Nat) (bs : List Byte) : Tbl Barrier :=
  (gangPhases bpg).zipIdx.foldl (fun t c =>
    let x := (tget t c.1 {}).ofBytes (bs.drop (24 * c.2))
    if x = tget t c.1 {} then t else tset t c.1 x) k.bars

/-- A gang restored from its image (R204): allocations, barrier state, and its groups' arrival records. -/
def State.readGangImage (s : State) (k : Gang) (core : Nat) : State :=
  match s.launch k.launch with
  | some l =>
    let bpg := l.book.bpg
    let bs := s.readLines core k.part (k.imgBase + k.imgSlot + 65536) (s.gangBytes k l.book)
    let hs := s.readLines core k.part (k.imgBase + k.imgSlot) (s.barrierBytes k bpg)
    let recs := (s.arrivals k bpg).zipIdx.map fun a => (a.1, natAt hs (24 * (gangPhases bpg).length + 8 * a.2) 8)
    let s : State := recs.foldl (fun s r =>
      s.updGrp r.1.1 fun g => { g with arr := if r.2 / 2 ^ 63 = 1 then tset g.arr r.1.2.1 (r.2 % 2 ^ 48) else terase g.arr r.1.2.1 }) s
    s.updGang k.id fun g =>
      { g with bars := g.barsFrom bpg hs
               scratch := (List.range l.book.gangCores).map fun i => (i, writeRun [] 0 ((bs.drop (i * l.book.scratch)).take l.book.scratch)) }
  | none => s

end Sys2Proof.Machine
end

