-- ==== Sys2Proof/Machine/Release.lean ====
section
/-! DEFINITION. Fragments and the split stack (R13 to R18), the end of groups, gangs and launches, and the work they
leave: WC sectors (R148), engine commands (R220 to R224), waits (R176). -/

namespace Sys2Proof.Machine

/-- A fragment left without a partner (R18): with an empty stack its join becomes none; otherwise it takes the top
entry's join and the entry moves into the other slot. A fragment waiting at its join continues. -/
def Grp.noPartner (g : Grp) (i : Bool) : Grp :=
  let wake (x : Slot) : Slot := if x.st = .atJoin then { x with st := .ready } else x
  match g.stack with
  | [] => g.updSlot i fun x => wake { x with join := Config.noJoin }
  | top :: rest =>
    let g := g.updSlot i fun x => wake { x with join := top.join }
    { g.setSlot (!i) top with stack := rest }

/-- Whether a group has ended: both slots and the stack empty (R18). -/
def Grp.over (g : Grp) : Bool := g.slot0.st == .empty && g.slot1.st == .empty && g.stack.isEmpty

/-- The fragment in a slot ends (R17): the slot empties and keeps its MODE (R206); the other fragment, if any, is left without a
partner. -/
def Grp.endSlot (g : Grp) (i : Bool) : Grp :=
  let g := g.setSlot i { mode := (g.slot i).mode }
  if (g.slot (!i)).st = .empty then g else g.noPartner (!i)

/-- Whether a fragment is held at its header with a trap still to be taken (R97, R308). -/
def Slot.trapHeld (x : Slot) : Bool := x.pends || x.hold == .trapPark

/-- Whether a fragment stands at its join at a scene boundary (R16), also one held there that is to issue its scene again (R48, R308); a
handler's join does not count (R309), and a fragment whose trap is still to be taken does not stop there before it (R97, R308). -/
def Slot.atEnd (x : Slot) : Bool :=
  x.st == .ready && !x.trapHeld && !x.handler && !x.busy && x.join != Config.noJoin && x.pc == x.join

/-- A fragment at its join stops (R16); when its partner is there too, the two fuse into the lower slot with the MODE of the
one that arrived last. -/
def Grp.stopAt (g : Grp) (i : Bool) : Grp :=
  let x := g.slot i
  let y := g.slot (!i)
  if x.atEnd then
    if y.st = .atJoin ∧ y.join = x.join then
      let f : Slot := { mask := x.mask ||| y.mask, pc := x.join, join := x.join, mode := x.mode, st := .ready }
      Grp.noPartner { g with slot0 := f, slot1 := {} } false
    else g.updSlot i fun x => { x with st := .atJoin, hold := .none }
  else g

/-- R16 and R18 applied as often as their conditions arise. -/
def Grp.stops : Nat → Grp → Grp
  | 0, g => g
  | n + 1, g => if g.slot0.atEnd || g.slot1.atEnd then Grp.stops n ((g.stopAt false).stopAt true) else g

/-- The fragment in slot i at a scene boundary (R16, R18). -/
def Grp.boundary (g : Grp) (i : Bool) : Grp := Grp.stops 130 (g.stopAt i)

/-- The fragment that has a mask, in a slot or on the stack, changed. -/
def Grp.updFrag (g : Grp) (m : Word) (f : Slot → Slot) : Grp :=
  let is (x : Slot) : Bool := x.mask == m && x.st != .empty
  let put (x : Slot) : Slot := if is x then f x else x
  { g with slot0 := put g.slot0, slot1 := put g.slot1, stack := g.stack.map put }

/-- The slot that holds the fragment with a mask, if one does. -/
def Grp.whereIs (g : Grp) (m : Word) : Option Bool :=
  if g.slot0.mask = m ∧ g.slot0.st ≠ .empty then some false
  else if g.slot1.mask = m ∧ g.slot1.st ≠ .empty then some true
  else none

/-- A divergent branch's split (R14); none when it would push a 65th stack entry (R15). -/
def Grp.split (g : Grp) (i : Bool) (taken : Word) (fallPc target join : Word) : Option Grp :=
  let x := g.slot i
  let y := g.slot (!i)
  if y.st ≠ .empty ∧ 64 ≤ g.stack.length then none
  else
    let stack := if y.st = .empty then g.stack else { y with watched := false, fired := false, due := 0 } :: g.stack
    let fall : Slot := { x with mask := x.mask &&& ~~~taken, pc := fallPc, join := join }
    let tk : Slot := { mask := taken, pc := target, join := join, mode := x.mode, st := .ready }
    some { (g.setSlot i fall).setSlot (!i) tk with stack := stack }

/-- A store acknowledged in a request: its accesses in a sector are done (R352). -/
def Req.doneIn (r : Req) (sector : Nat) : Req :=
  { r with accs := r.accs.map fun a =>
      match a.tgt with
      | .mem pa _ => if pa / 32 = sector then { a with done := true } else a
      | _ => a }

/-- The lanes of a request that a WC sector held are done (R148, R352); lanes that a later sector holds are not (R149). -/
def Req.doneLanes (r : Req) (lanes : List (Nat × Nat)) : Req :=
  { r with accs := r.accs.zipIdx.map fun x => if lanes.contains (r.id, x.2) then { x.1 with done := true } else x.1 }

/-- Whether a WC sector holds a lane of a request. -/
def WcEntry.holds (e : WcEntry) (r : Nat) : Bool := e.lanes.any fun l => l.1 == r

/-- Whether a WC sector may be written as far as its group's order goes (R145, R159): no earlier access of the group to its bytes is
left, an earlier sector of the same bytes among them (R149). -/
def State.wcReady (s : State) (e : WcEntry) : Bool :=
  e.lanes.all fun l => (s.reqs.filter fun r => r.id == l.1).all fun r => s.mayActWith e.lanes r l.2

/-- A WC sector's masked bytes written at its home (R148, R190); on a lost die they are dropped, with a record for each store (R366). -/
def State.wcWrite (s : State) (e : WcEntry) (part : Nat) : State :=
  let pa := e.sector * 32
  let byte (s : State) (i : Nat) : State :=
    if e.mask.getLsbD i then s.writePa (pa + i) [e.data.extractLsb' (8 * i) 8] else s
  let s : State :=
    if (s.die (homeDie pa)).failed then
      (s.reqs.filter fun r => e.holds r.id).foldl (fun s r => s.imprecise .homelost r.part r.imgSlot r.ord pa) s
    else
      let s : State := (List.range 32).foldl byte s
      let s : State := if e.mask = BitVec.allOnes 32 then { s with pois := clearPois s.pois pa 32 } else s
      let s : State := s.dropCopies pa
      (if e.bank then s else s.noteDirty pa 32 part).fireWatches (.mem pa .coherent) 32
  let gone (w : LineWait) : Bool := match w with | .store r i => e.lanes.contains (r, i) | _ => false
  { s with reqs := updAll (fun r => e.holds r.id) (fun r => r.doneLanes e.lanes) s.reqs,
           lineWaits := s.lineWaits.filter fun w => !gone w }

/-- A sector that waits at a home for its line, under the first of the store lanes that it holds (R154). -/
def WcEntry.waiter (e : WcEntry) : LineWait := let l := e.lanes.headD (0, 0); .store l.1 l.2

/-- A WC sector leaves the buffer of a core: it is written, or waits at a home whose line is owned or held, for its bank, or for its
group's earlier accesses to its bytes (R145, R148, R154, R245). -/
def State.wcLeave (s : State) (core : Nat) (e : WcEntry) : State :=
  if !s.lineFree (e.sector / 8) || s.bankHolds (32 * e.sector) true || !s.wcReady e then
    let s : State := if !s.lineFree (e.sector / 8) && s.wcReady e then s.await e.waiter else s
    s.updCore core fun c => { c with wcOut := c.wcOut ++ [e] }
  else s.wcWrite e (((s.grp e.uid).map (·.part)).getD 0)

/-- The WC sectors of a core that satisfy p leave, oldest first (R148). -/
def State.wcFlush (s : State) (core : Nat) (p : WcEntry → Bool) : State :=
  let out := (s.core core).wc.filter p
  out.foldl (fun s e => s.wcLeave core e) (s.updCore core fun c => { c with wc := c.wc.filter (fun e => !p e) })

/-- All WC sectors of a group leave (fence, drain, exit, pre-emption: R148, R190). -/
def State.wcFlushGroup (s : State) (u core : Nat) : State := s.wcFlush core fun e => e.uid == u

/-- An engine command still in its sequencer (R219, R220). -/
def ECmd.live (c : ECmd) : Bool := c.st == .waiting || c.st == .running || c.st == .held

/-- The ids of commands that depend, directly or through others, on dropped ones (R219, R220). -/
def dropClosure (cmds : List ECmd) : Nat → List Nat → List Nat
  | 0, ids => ids
  | n + 1, ids =>
    let more := (cmds.filter fun c =>
      c.live && !ids.contains c.id && c.deps.any ids.contains).map (·.id)
    if more.isEmpty then ids else dropClosure cmds n (ids ++ more)

/-- Whether a command is a wload of a block that covers a granule. -/
def ECmd.loads (c : ECmd) (gang coreIdx k : Nat) : Bool :=
  c.kind == .wload && c.gang == gang && c.coreIdx == coreIdx && decide (c.gran ≤ k) && decide (k < c.gran + c.count)

/-- Engine commands are dropped with their dependents (R220): wloads end their holds and their granules are empty, but the bytes of a
granule that was not yet loaded stay for the earlier stages that read it, and another wload of it goes on; a stage that has not taken its
input still owes its discard. -/
def State.dropCmds (s : State) (ids : List Nat) : State :=
  let all := dropClosure s.ecmds s.ecmds.length ids
  let gone (c : ECmd) : Bool := all.contains c.id && c.live
  let dead := s.ecmds.filter gone
  let drop (c : ECmd) : ECmd :=
    { c with st := .dropped, outs := [], holds := [],
             owes := if c.kind == .stage && !c.took then ceilDiv (2 ^ c.n) 32 - c.ins.length else 0, ins := [] }
  let freeGran (e : EngBlock) : EngBlock :=
    dead.foldl (fun e c =>
      if c.kind == .wload && c.gang == e.gang && c.coreIdx == e.coreIdx then
        { e with gran := (List.range c.count).foldl (fun t i =>
            let x := tget t (c.gran + i) {}
            let other := s.ecmds.any fun d => d.live && !gone d && d.loads e.gang e.coreIdx (c.gran + i)
            if x.st == .loading && !other then tset t (c.gran + i) { x with st := .empty } else t) e.gran }
      else e) e
  { s with ecmds := s.ecmds.map (fun c => if gone c then drop c else c), engs := s.engs.map freeGran }

/-- The engine block of a gang's core. -/
def State.eng (s : State) (gang coreIdx : Nat) : EngBlock :=
  (s.engs.find? (fun e => e.gang == gang && e.coreIdx == coreIdx)).getD { gang := gang, coreIdx := coreIdx }

/-- The engine block of a gang's core replaced. -/
def State.setEng (s : State) (e : EngBlock) : State :=
  { s with engs := e :: s.engs.filter fun x => !(x.gang == e.gang && x.coreIdx == e.coreIdx) }

/-- The engine state of a block on a core is dropped (R223, R224): commands, rehearsal results, granules, queues; a collection has lost
its queue (R278); every pending pop lands as 0 with poison set when the block was pre-empted. -/
def State.dropEngine (s : State) (gang coreIdx : Nat) (preempted : Bool) : State :=
  let ids := (s.ecmds.filter fun c => c.gang == gang && c.coreIdx == coreIdx).map (·.id)
  let pops := (s.eng gang coreIdx).queues.flatMap fun q => q.2.pops
  let landed := pops.map fun p => { p with got := some { lanes := lanesAll 0#32, pois := BitVec.allOnes 32 } }
  let s : State := s.dropCmds ids
  let s : State := { s with
    ecmds := s.ecmds.map fun c => if c.gang == gang && c.coreIdx == coreIdx then { c with owes := 0 } else c
    engs := s.engs.filter fun x => !(x.gang == gang && x.coreIdx == coreIdx)
    status := s.status ++ landed
    waves := updAll (fun w => w.kind == .gcoll && w.gang == gang && w.coreIdx == coreIdx) (fun w => { w with qlost := true }) s.waves }
  if preempted then
    let lose (b : QBind) : QBind := if b.kind = .unbound then b else { b with lost := true }
    let mine (g : Grp) : Bool := g.gang == gang && g.coreIdx == coreIdx
    { s with groups := updAll mine (fun g => { g with q := g.q.map lose }) s.groups }
  else s

/-- The discards that dropped commands still owe of some queues of a block end, with those queues' last bindings (R220, R224). -/
def State.forgive (s : State) (gang coreIdx : Nat) (qs : List Nat) : State :=
  { s with ecmds := updAll (fun c => c.gang == gang && c.coreIdx == coreIdx && c.st == .dropped && qs.contains c.inQ)
                      (fun c => { c with owes := 0 }) s.ecmds }

/-- The bindings of a group removed (R224): a queue whose last binding goes loses its entries. -/
def State.unbindAll (s : State) (g : Grp) : State :=
  let bound (x : Grp) (n : Nat) : Bool :=
    match x.q[n]? with
    | some b => b.kind != .unbound
    | none => false
  let others := s.groups.filter fun x =>
    x.gang == g.gang && x.coreIdx == g.coreIdx && x.uid != g.uid && x.place != .ended
  let gone := (List.range 16).filter fun n => bound g n && !others.any fun x => bound x n
  let e := s.eng g.gang g.coreIdx
  let clear (q : Nat × Queue) : Nat × Queue := if gone.contains q.1 then (q.1, { q.2 with entries := [] }) else q
  let s : State := if gone.isEmpty then s else (s.forgive g.gang g.coreIdx gone).setEng { e with queues := e.queues.map clear }
  s.updGrp g.uid fun x => { x with q := Vector.replicate 16 {} }

/-- A group out of its core's rotations and ready list (R326, R327). -/
def State.unschedule (s : State) (u core : Nat) : State :=
  s.updCore core fun c =>
    { c with scheds := c.scheds.map fun d => { d with rot := d.rot.filter (· != u) },
             readyParked := c.readyParked.filter (· != u) }

/-- What follows a group's end (R96, R147, R148, R224, R333): WC sectors leave, its private copies go, bindings go, the block's engine state is
freed with its last group on the core, and a gang whose groups have all ended has run to its end. -/
def State.afterEnd (s : State) (u : Nat) : State :=
  match s.grp u with
  | none => s
  | some g =>
    let s : State := s.wcFlushGroup u g.core
    let s : State := (({ s with copies := s.copies.filter fun c => c.owner != some u } : State).unwait u).unawait fun w => w.readsOf u
    let s : State := s.unbindAll g
    let s : State := s.updGrp u fun x => { x with place := .ended }
    let s : State := s.unschedule u g.core
    let s : State := s.updLaunch g.launch fun l => { l with finalPts := max l.finalPts g.pts }
    let live := (s.gangGroups g.gang).filter fun x => x.place != .ended
    let s : State := if live.any fun x => x.coreIdx == g.coreIdx then s else s.dropEngine g.gang g.coreIdx false
    let s : State :=
      if live.any fun x => x.block == g.block then s
      else s.updGang g.gang fun k => { k with ran := if k.killed then k.ran else k.ran + 1 }
    if live.isEmpty then
      let ran := ((s.gang g.gang).map (·.ran)).getD 0
      let s : State := s.updGang g.gang fun k => { k with place := .ended }
      s.updLaunch g.launch fun l =>
        if g.under then l else { l with endedGangs := l.endedGangs + 1, blocks := l.blocks + ran }
    else s

/-- The words of held lanes in program order, each with its lanes. -/
def heldWords (hs : List HeldStore) : List (List HeldStore) :=
  ((hs.map (·.word)).eraseDups).map fun w => hs.filter fun h => h.word == w

/-- A group's held stores are discarded (R355, R363): the primary's no longer count as outstanding. -/
def State.discardHeld (s : State) (u : Nat) : State :=
  match s.grp u with
  | none => s
  | some g =>
    let s : State :=
      if g.under then s
      else (heldWords g.held).foldl (fun s w => s.ackSide g.part g.imgSlot ((w.head?.map (·.ord)).getD 0#8) 1) s
    s.updGrp u fun g => { g with held := [], points := [], lax := [] }

/-- Every fragment of a group ends at once (R355, R365). -/
def State.killGroup (s : State) (u : Nat) : State :=
  let s : State := s.discardHeld u
  let s : State := s.updGrp u fun g => { g with slot0 := {}, slot1 := {}, stack := [], fence := none }
  s.afterEnd u

/-- The kill procedure of R355: every group of the gang, and of its understudy or primary (R358), ends; a scene in
issue is discarded unless it is in its "perform" step; work already committed runs on. -/
def State.killGang (s : State) (k : Nat) : State :=
  match s.gang k with
  | none => s
  | some gang =>
    let ks := k :: gang.twin.toList
    let us := (s.groups.filter fun g => ks.contains g.gang && g.place != .ended).map (·.uid)
    let s : State := if s.iss.live && us.contains s.iss.g.uid && s.iss.phase == .body then { s with iss := {} } else s
    let s : State := { s with stowed := s.stowed.filter fun i => !(us.contains i.g.uid && i.phase == .check) }
    let s : State := ks.foldl (fun s k => s.updGang k fun x => { x with killed := true }) s
    us.foldl State.killGroup s

/-- The launch ends (R349): it waits for no predecessor (R377), its gangs are killed, no further gang is placed, its record carries the
status and class. -/
def State.endLaunch (s : State) (l status fclass : Nat) : State :=
  let s : State := s.updLaunch l fun x =>
    if x.ending then x
    else { x with ending := true, waiting := false, status := status, ranges := [], again := [],
                  fclass := if x.fclass = 0 then fclass else x.fclass }
  ((s.gangs.filter fun g => g.launch == l && g.place != .ended).map (·.id)).foldl State.killGang s

/-- Every page list of a partition whose frames a dropped range touches is stale (R250). -/
def State.staleLists (s : State) (part : Nat) (hit : PageList → Bool) : State :=
  { s with plists := updAll (fun p => p.part == part && hit p) (fun p => { p with stale := true }) s.plists }

/-- The translations of a partition, and its pointers, dropped from every TLB and walk cache of every die (R345). -/
def State.dropTlbs (s : State) (part : Nat) (hit : TlbEntry → Bool) (ptr : PtrEntry → Bool) : State :=
  let keep (t : List TlbEntry) : List TlbEntry := t.filter fun e => !(e.part == part && hit e)
  { s with
    cores := s.cores.map fun c => (c.1, { c.2 with tlb := keep c.2.tlb })
    dies := s.dies.map fun d => (d.1, { d.2 with ctlb := d.2.ctlb.map fun k => (k.1, keep k.2),
                                                 wcache := d.2.wcache.filter fun p => !(p.part == part && ptr p) }) }

/-- Whether a fragment waits on a word in memory or scratchpad (R174). -/
def Slot.mwaits (x : Slot) : Bool := x.st == .waiting && (x.wait == .mwne || x.wait == .mwgeS || x.wait == .mwgeU)

/-- The first address and the length of what a pointer entry covers. -/
def PtrEntry.range (p : PtrEntry) : Nat × Nat := (p.prefix_ * 2 ^ (12 + 9 * (p.level - 1)), 2 ^ (12 + 9 * (p.level - 1)))

/-- The read-shared copies of a partition dropped, those of the shot-down pages among them (R147, R345; DESIGN CHOICE, log 73). -/
def State.dropShared (s : State) (part : Nat) : State :=
  { s with copies := s.copies.filter fun c => !(c.readShared && c.part == part) }

/-- Whether a shootdown's range touches n bytes at an address (R344). -/
def Shootdown.meets (d : Shootdown) (a n : Nat) : Bool := d.all || (decide (a < d.lo + d.len) && decide (d.lo < a + n))

/-- Whether a shootdown's range covers a frame or a page of a list (R250, R345). -/
def Shootdown.hits (d : Shootdown) (l : PageList) : Bool :=
  if d.stage2 && !d.all then l.ipas.any fun f => d.meets (f * 65536) 65536 else d.meets (l.first * 65536) (l.frames.length * 65536)

/-- A memory waiter whose word lies in a range shot down reads again, translating anew (R174, R345). -/
def Shootdown.wakes (d : Shootdown) (x : Slot) : Slot :=
  if x.mwaits && x.wspace == 0#2 && (d.stage2 || d.meets x.waddr.toNat 4) then { x with fired := x.watched, due := 0 } else x

/-- A shootdown of a range begins (R345): translations, pointers and read-shared copies go, lists that hold a frame of it go stale (R250),
copies, collections and memory waiters translate again, BUSY is set. -/
def State.startShootdown (s : State) (part start len : Nat) (st2 all : Bool) : State :=
  let d : Shootdown := { busy := true, lo := start, len := len, stage2 := st2, all := all, mark := s.fresh, at_ := s.fresh }
  let meets := d.meets
  let hit (e : TlbEntry) : Bool := if st2 then meets e.ipa e.size else meets e.va e.size
  let ptr (p : PtrEntry) : Bool := all || ((if st2 then p.stage == 0 || meets p.range.1 p.range.2 else p.stage == 0 && meets p.range.1 p.range.2))
  let cpyHit (c : CopyCmd) : Bool := c.global && (st2 || meets c.dstVa c.len)
  let waveHit (w : Wave) : Bool :=
    w.kind == .gcoll && w.st != .ended && w.queue.isNone && (st2 || meets w.outVa (w.cap * (if w.emit1 then 68 else 4)))
  let s : State := ((s.dropTlbs part hit ptr).staleLists part d.hits).dropShared part
  let wake (g : Grp) : Grp := { g with slot0 := d.wakes g.slot0, slot1 := d.wakes g.slot1, stack := g.stack.map d.wakes }
  let s : State := { s with
    fresh := s.fresh + 1
    groups := updAll (fun g => g.part == part && g.cached) wake s.groups
    cpys := updAll (fun c => c.part == part && cpyHit c) (fun c => { c with retranslate := true }) s.cpys
    waves := updAll (fun w => w.part == part && waveHit w) (fun w => { w with retranslate := true }) s.waves }
  s.updPart part fun p => { p with sd := d }

/-- The lines a collection still owns are released: those it has written take a time after every lease of them (R154), which the wave's
time reaches (R284); the others keep their times (R155). -/
def State.freeLines (s : State) (w : Wave) : State :=
  (w.owned.filter w.wrote.contains).foldl (fun s l =>
    let t := s.writeTime (256 * l) w.part w.time
    let s : State := s.stampLine (256 * l) w.part t
    { s with waves := updFirst (fun x => x.id == w.id) (fun x => { x with time := max x.time t }) s.waves }) s

/-- The time that follows a wave's writes and those of the waves of its graph ordered before it (R280, R284). -/
def State.waveTime (s : State) (w : Wave) : Nat := max w.time (tget (s.part w.part).waveTimes w.graph 0)

/-- The nanoseconds a wave has run (R285): none for one that has not started. -/
def State.waveNs (s : State) (w : Wave) : Nat := if w.st == .running then nsOfClk s.clk - nsOfClk w.start else 0

/-- A wave's time noted for its graph (R280, R284). -/
def State.noteWave (s : State) (w : Wave) : State :=
  let t := s.waveTime w
  s.updPart w.part fun p => { p with waveTimes := tset p.waveTimes w.graph t }

/-- A wave ends with ABORT (R287): its writes so far remain, its messages are dropped, and it counts as ended. -/
def State.abortWave (s : State) (w : Wave) : State :=
  let s : State := (s.freeLines w).unwait w.id
  let w := (s.waves.find? fun x => x.id == w.id).getD w
  let mine (p : Packet) : Bool := match p.kind with | .marker k _ | .weight k _ _ => k == w.id | .atomic _ _ _ => false
  let s : State := { s with waves := s.waves.filter fun x => x.id != w.id, pkts := s.pkts.filter fun p => !mine p }
  let s : State := s.ackSide w.part w.imgSlot w.ord 1
  let ns := s.waveNs w
  let m := s.waveTime w
  (s.noteWave w).updLaunch w.launch fun l =>
    let t := tget l.tags w.tag {}
    let r := if t.record.wave = w.id then { t.record with abort := true, st := 4, ns := ns } else t.record
    { l with tags := tset l.tags w.tag { count := t.count - 1, record := r, time := max t.time m } }

/-- The cores that belong to a partition (R304). -/
def State.partCores (s : State) (part : Nat) : List Nat :=
  (s.cores.filter fun c => bitOf c.2.partid 3 && bits c.2.partid 2 0 == part).map (·.1)

/-- Every wait of a partition's groups ends (R364), those parked by a trap too; a parked group is ready then. -/
def State.endWaits (s : State) (part : Nat) : State :=
  let wake (x : Slot) : Slot :=
    if x.st = .waiting then { x with st := .ready, wait := .none, warg := 0#32, waddr := 0#57, wspace := 0#2, watched := false }
    else { x with hold := .none }
  let freeGrp (g : Grp) : Grp :=
    { g with slot0 := wake g.slot0, slot1 := wake g.slot1, stack := g.stack.map wake, fence := none, parking := false,
             place := if g.place = .trapParked then (if (s.gang g.gang).any fun k => k.place == .placed then .parked else .evicted)
                      else g.place }
  let us := (s.groups.filter fun g => g.part == part && g.place != .ended).map (·.uid)
  let s : State := us.foldl (fun s u => ((s.updImage u freeGrp).unwait u).unawait fun w => w.readsOf u) s
  (s.groups.filter fun g => g.part == part && g.place == .parked).foldl (fun s g =>
    if (s.core g.core).readyParked.contains g.uid then s
    else s.updCore g.core fun c => { c with readyParked := c.readyParked ++ [g.uid] }) s

/-- A bank command stops early, reported as an imprecise error (R248, R250, R350). -/
def State.stopBank (s : State) (c : BankCmd) : State :=
  let s : State := { s with bcmds := updFirst (fun b => b.id == c.id) (fun b => { b with stopped := true, todo := [] }) s.bcmds }
  s.bareError .bank c.part c.imgSlot c.ord

/-- The work of a partition's groups is cancelled (R364): held stores discarded, commands dropped, waves aborted, bank commands stopped,
copies ended. -/
def State.cancelWork (s : State) (part : Nat) : State :=
  let mine := (s.groups.filter fun g => g.part == part).map (·.uid)
  let s : State := mine.foldl State.discardHeld s
  let s : State := s.dropCmds ((s.ecmds.filter fun c => mine.contains c.uid).map (·.id))
  let s : State := (s.waves.filter fun w => w.part == part && w.kind != .gbind && (w.st == .queued || w.st == .running)).foldl State.abortWave s
  let lost (w : Wave) : Bool := w.part == part && (w.st == .path || w.kind == .gbind)
  let s : State := (s.waves.filter lost).foldl (fun s w => s.ackSide w.part w.imgSlot w.ord 1) s
  let s : State := (s.cpys.filter fun c => c.part == part).foldl (fun s c => (s.ackSide c.part c.imgSlot c.ord 1).unwait c.id) s
  let s : State := (s.bcmds.filter fun b => b.part == part && !b.todo.isEmpty).foldl State.stopBank s
  { s with
    waves := s.waves.filter fun w => !lost w
    cpys := s.cpys.filter fun c => c.part != part }

/-- A teardown of a partition (R364): dead roots and a shootdown of everything; waits ended, work cancelled; launches complete as
TORNDOWN. -/
def State.teardownPart (s : State) (part : Nat) : State :=
  let s : State := (s.partCores part).foldl (fun s c => s.updCore c fun x => { x with ptroot := 0#32, tlb := [] }) s
  let s : State := (s.startShootdown part 0 0 false true).updPart part fun p => { p with torn := true, tdown := true }
  let s : State := (s.endWaits part).cancelWork part
  let down (l : Launch) : Launch := { l with ending := true, status := 6, ranges := [], again := [], waiting := false }
  { s with launches := updAll (fun l => l.part == part && !l.complete) down s.launches }

/-- The poison fate and the understudy fate (R356), for the gang of a group; fclass 15 or 0. -/
def State.gangFate (s : State) (k : Nat) (fclass : Nat) : State :=
  match s.gang k with
  | none => s
  | some gang =>
    match s.launch gang.launch with
    | none => s
    | some l =>
      let s : State := if fclass = 0 then s else s.updLaunch l.id fun x => { x with fclass := if x.fclass = 0 then fclass else x.fclass }
      if l.book.replay = false then s.teardownPart l.part
      else if 2 ≤ gang.attempts then s.endLaunch l.id 5 fclass
      else
        let top := (s.gangGroups k).foldl (fun m g => max m g.pts) 0
        let s : State := s.killGang k
        s.updLaunch l.id fun x =>
          { x with relaunched := satAdd x.relaunched l.book.bpg 65535,
                   blocks := l.blocks,
                   endedGangs := x.endedGangs - 1,
                   again := x.again ++ [(gang.gangNo, gang.attempts + 1, top + 1)] }

end Sys2Proof.Machine
end

