-- ==== Sys2Proof/Machine/Ops.lean ====
section
/-! DEFINITION. The named operations of the machine: taking an exception and returning from one (R307 to
R310, R347 to R349), pre-emption and resumption (R27, R28, R204). -/

namespace Sys2Proof.Machine

/-- Trap classes by number (R307). -/
def clsDecode : Nat := 1
def clsIllegalInstr : Nat := 2
def clsIllegalOperand : Nat := 3
def clsFormat : Nat := 4
def clsWindow : Nat := 5
def clsAlign : Nat := 6
def clsAttribute : Nat := 7
def clsTranslation : Nat := 8
def clsEmpty : Nat := 9
def clsSplit : Nat := 10
def clsBarrier : Nat := 11
def clsEngine : Nat := 12
def clsGraph : Nat := 13
def clsBank : Nat := 14
def clsPoison : Nat := 15
def clsTrapWord : Nat := 16
def clsBreak : Nat := 17
def clsPrivilege : Nat := 18

/-- The report of a precise trap (R307, R342). -/
structure Trap where
  cls : Nat
  idx : Nat
  cause : Nat := 0
  detail : Nat := 0
  /-- translation-fault report dwords of class 8 -/
  fva : BitVec 64 := 0#64
  finfo : BitVec 64 := 0#64
  deriving DecidableEq, Repr

/-- The TRAPINFO word of a report (R307). -/
def Trap.word (t : Trap) : Word :=
  BitVec.ofNat 32 (t.cls * 2 ^ 26 + t.idx % 32 * 2 ^ 21 + t.cause % 32 * 2 ^ 16 + t.detail % 2 ^ 16)

/-- The report that a TRAPINFO word holds (R307). -/
def Trap.ofWord (x : Word) : Trap := { cls := bits x 31 26, idx := bits x 25 21, cause := bits x 20 16, detail := bits x 15 0 }

/-- Whether a translation fault is of kind DEAD (R342, R346). -/
def Trap.dead (t : Trap) : Bool := t.cls == clsTranslation && (t.finfo.extractLsb' 0 4).toNat == 4

/-- TRAPINFO, TRAPPC and, for class 8, the fault report written (R307, R342). -/
def Grp.report (g : Grp) (info pc : Word) : Grp := { g with trapInfo := info, trapPc := pc }
def Grp.reportFault (g : Grp) (t : Trap) : Grp :=
  if t.cls = clsTranslation then { g with faultVa := t.fva, faultInfo := t.finfo } else g

/-- The fragment of slot i enters the user handler (R308, last step). -/
def Grp.enterHandler (g : Grp) (i : Bool) : Grp :=
  let g := { g with savedMode := (g.slot i).mode }
  g.updSlot i fun x =>
    { x with handler := true, pc := g.book.handler, mode := Config.modeReset, st := .ready, hold := .none }

/-- Whether TRAPVEC routes a class to the control cores (R304, R308): never class 15. -/
def routed (trapvec : Word) (c : Nat) : Bool := c != clsPoison && bitOf trapvec c

/-- R308 from the handler step on: no handler ends the launch; a running handler in the other slot holds the
fragment; otherwise it enters. -/
def State.handlerStep (s : State) (u : Nat) (i : Bool) (c : Nat) (info pc : Word) : State :=
  match s.grp u with
  | none => s
  | some g =>
    if g.book.handler = Config.noJoin then (s.updGrp u fun x => x.report info pc).endLaunch g.launch 4 c
    else if (g.slot (!i)).handler then
      s.updGrp u fun x => x.updSlot i fun y =>
        { y with pc := pc, hold := if c = clsTrapWord ∨ c = clsBreak then .handlerPend info else .handlerRetry }
    else s.updGrp u fun x => (x.report info pc).enterHandler i

/-- Whether a group stands at a scene boundary (R27): no scene of it is in issue or stalled. -/
def State.atBoundary (s : State) (u : Nat) : Bool :=
  !(s.iss.live && s.iss.g.uid == u) && !s.stowed.any fun i => i.g.uid == u

/-- A group whose routed trap parks it leaves its place at its boundary (R27, R308), and the die's control cores are interrupted with its
image; its lines are in memory then (R343). -/
def State.settlePark (s : State) (u : Nat) : State :=
  match s.grp u with
  | none => s
  | some g =>
    if g.parking = true ∧ g.place ≠ .ended ∧ s.atBoundary u = true then
      let s : State := s.updGrp u fun x =>
        { x with place := .trapParked, parking := false, ptsAcc := if x.place = .resident then s.clk - x.ptsSince else x.ptsAcc }
      ((s.unschedule u g.core).saveImage u).send (.trapInterrupt (dieOfCore g.core) g.part g.imgSlot)
    else s

/-- The parks that a step has made ready. -/
def State.settleParks (s : State) : State := ((s.groups.filter (·.parking)).map (·.uid)).foldl State.settlePark s

/-- TakeTrap (R308): a precise trap t of the fragment in slot i of group u; pc is TRAPPC's value (the scene's header,
or the next header for classes 16 and 17). A running handler of the other slot keeps its own TRAPINFO and TRAPPC
(log 11). A trap that comes while the other fragment's routed trap waits for the group's boundary is held with its fragment until that park
has ended (DESIGN CHOICE, log 81). -/
def State.takeTrap (s : State) (u : Nat) (i : Bool) (t : Trap) (pc : Word) : State :=
  match s.grp u with
  | none => s
  | some g =>
    let told : State := s.updGrp u fun x => (x.report t.word pc).reportFault t
    let ends := t.dead || (g.slot i).handler || t.cls == clsPoison
    if g.parking = true ∧ ends = false then
      s.updGrp u fun x => x.updSlot i fun y =>
        { y with pc := pc, hold := if t.cls = clsTrapWord ∨ t.cls = clsBreak then .parkPend t.word else .handlerRetry }
    else if t.dead then (told.updGang g.gang fun k => { k with killed := true }).killGroup u
    else if (g.slot i).handler then
      if t.cls = clsPoison then told.gangFate g.gang 15 else told.endLaunch g.launch 4 t.cls
    else if t.cls = clsPoison then told.gangFate g.gang 15
    else if routed (s.core g.core).trapvec t.cls then
      let s : State := told.updGrp u fun x =>
        { x.updSlot i (fun y => { y with pc := pc, hold := .trapPark }) with parking := true, trapSlot := i }
      s.settlePark u
    else (s.updGrp u fun x => x.reportFault t).handlerStep u i t.cls t.word pc

/-- A fragment that waited for the other slot's handler is released (R308): it retries its scene, or takes its pending
trap word from the handler step. -/
def State.releaseHeld (s : State) (u : Nat) (i : Bool) : State :=
  match s.grp u with
  | none => s
  | some g =>
    let x := g.slot i
    match x.hold with
    | .handlerRetry => s.updGrp u fun g => g.updSlot i fun y => { y with hold := .none }
    | .handlerPend info =>
      (s.updGrp u fun g => g.updSlot i fun y => { y with hold := .none }).handlerStep u i (bits info 31 26) info x.pc
    | .parkPend info =>
      (s.updGrp u fun g => g.updSlot i fun y => { y with hold := .none }).takeTrap u i (Trap.ofWord info) x.pc
    | _ => s

/-- The return from a handler (R310): PC from TRAPPC, MODE from the saved MODE, the flag cleared; then the other
fragment is released. -/
def State.returnTrap (s : State) (u : Nat) (i : Bool) : State :=
  let s : State := s.updGrp u fun g =>
    g.updSlot i fun x => { x with pc := g.trapPc, mode := g.savedMode, handler := false }
  (s.updGrp u fun g => g.boundary i).releaseHeld u (!i)

/-- A group joins the back of a scheduler's rotation: the one with the fewest groups, the lowest-numbered of those
(R326; which scheduler is DESIGN CHOICE, log 12). -/
def State.schedule (s : State) (u core : Nat) : State :=
  s.updCore core fun c =>
    let n (k : Nat) : Nat := ((c.scheds[k]?).getD {}).rot.length
    let k := (List.range 4).foldl (fun b k => if n k < n b then k else b) 0
    let d : Sched := (c.scheds[k]?).getD {}
    { c with scheds := c.scheds.setIfInBounds k { d with rot := d.rot ++ [u] } }

/-- Issue-resident groups of a core (R324, R327). -/
def State.residents (s : State) (core : Nat) : Nat :=
  (s.groups.filter fun g => g.core == core && g.place == .resident).length

/-- A group made issue-resident on its core (R186, R326). -/
def State.makeResident (s : State) (u : Nat) : State :=
  match s.grp u with
  | none => s
  | some g =>
    (s.updGrp u fun x => { x with place := .resident, ptsSince := s.clk - x.ptsAcc, ptsAcc := 0 }).schedule u g.core

/-- A group that leaves its issue-resident place without leaving its core; its uncounted clocks of residence are kept (R186, R327). -/
def State.leaveResident (s : State) (u core : Nat) : State :=
  (s.updGrp u fun x => { x with place := .parked, ptsAcc := s.clk - x.ptsSince }).unschedule u core

/-- The private copies and watches of a group that leaves its core go (R147, R174, R190), its WC sectors first; its memory waits read again
on resume (R174). -/
def State.leaveCore (s : State) (u core : Nat) : State :=
  let s : State := s.wcFlushGroup u core
  let s : State := (({ s with copies := s.copies.filter fun c => c.owner != some u } : State).unwait u).unawait fun w => w.readsOf u
  let lose (x : Slot) : Slot := { x with watched := false, due := 0 }
  let s : State := s.updGrp u fun g => { g with slot0 := lose g.slot0, slot1 := lose g.slot1 }
  s.unschedule u core

/-- A group's program time raised (R182 to R184), also while its image is in memory. -/
def Grp.raise (g : Grp) (t : Nat) : Grp :=
  { g with pts := max g.pts t, ptsLate := if g.cached then g.ptsLate else max g.ptsLate t }
def State.raisePts (s : State) (u t : Nat) : State := s.updGrp u fun g => g.raise t

/-- Whether a slot's fragment waits through a scheduler-visible primitive (R30): not a drain and not a fence. -/
def Slot.visibleWait (x : Slot) : Bool := x.st == .waiting && x.wait != .fence && x.wait != .drain

/-- Whether every live fragment of a group waits through a scheduler-visible primitive (R30). -/
def Grp.allWait (g : Grp) : Bool :=
  let w (x : Slot) : Bool := x.st == .empty || x.visibleWait || x.st == .atJoin
  w g.slot0 && w g.slot1 && (g.slot0.st == .waiting || g.slot1.st == .waiting)

/-- Whether a group committed a graph command before a point of its program order (R284, R295): by the command's key, and of an understudy,
whose primary performs its commands, by their count (R362). -/
def Grp.committed (g : Grp) (w : Wave) (key : Nat) : Bool :=
  if g.under then g.twin == some w.uid && decide (w.solo < key) else w.uid == g.uid && decide (w.id < key)

/-- The point of a group's program order at which it stands, for its graph commands (R284, R362). -/
def State.commitKey (s : State) (u : Nat) : Nat :=
  match s.grp u with
  | some g => if g.under then g.solo else s.fresh
  | none => s.fresh

/-- A waiting fragment continues (R30, R176, R327): its wait record is cleared, in its image where the group is evicted, and a parked
group whose wait ended becomes a ready parked group. -/
def State.endWait (s : State) (u : Nat) (slot : Bool) : State :=
  let s : State := s.updImage u fun g => (g.updSlot slot fun x =>
    { x with st := .ready, wait := .none, warg := 0#32, waddr := 0#57, wspace := 0#2, watched := false, fired := false,
             wcmds := [], due := 0 }).boundary slot
  match s.grp u with
  | none => s
  | some g =>
    if g.place = .parked && !(s.core g.core).readyParked.contains u then
      s.updCore g.core fun c => { c with readyParked := c.readyParked ++ [u] }
    else s

/-- Whether a drain's condition holds for a group (R170, R360): its NT and WC stores earlier than a key acknowledged, those still held
included, its WC buffer empty, its copies earlier than the key retired. -/
def State.drained (s : State) (g : Grp) (before : Nat) : Bool :=
  !(s.reqs.any fun r => (r.placeFor g.uid).any (fun k => decide (k < before)) && r.kind == .store && r.policy != .normal)
    && !((s.core g.core).wc.any fun e => e.uid == g.uid) && !(s.cpys.any fun c => g.has c.uid && decide (c.id < before))
    && !(g.held.any fun h => h.policy != .normal && decide (h.word < before))

/-- The waits that end through commands, waves and releases (R175, R284): cwait with every command retired or dropped,
gwait with its tag's count 0 and the group's commands arrived; a drain with nothing left ends at once (R176). -/
def State.wakeSlot (s : State) (u : Nat) (slot : Bool) : State :=
  match s.grp u with
  | none => s
  | some g =>
    let x := g.slot slot
    if x.st != .waiting then s
    else
      match x.wait with
      | .cwait =>
        let live (c : ECmd) : Bool := x.wcmds.contains c.id && (c.st == .waiting || c.st == .running || c.st == .held)
        if s.ecmds.any live then s else s.endWait u slot
      | .drain => if s.drained g x.wgen then (s.raisePts u g.cpyTime).endWait u slot else s
      | .gwait =>
        let tag := bits x.warg 3 0
        let ts := ((s.launch g.launch).map fun l => tget l.tags tag {}).getD {}
        if ts.count != 0 || (s.waves.any fun w => w.st == .path && g.committed w x.wgen) then s
        else (s.raisePts u ts.time).endWait u slot
      | _ => s

def State.wakeWaits (s : State) : State :=
  (s.groups.map (·.uid)).foldl (fun s u => (s.wakeSlot u false).wakeSlot u true) s

/-- A group evicted with its gang (R27, R190): its WC sectors leave. -/
def State.evictGroup (s : State) (u core : Nat) : State :=
  let s : State := (s.fetchImage u).leaveCore u core
  s.updGrp u fun x =>
    { x with place := if x.place = .trapParked then .trapParked else .evicted, preempt := false, evCmp := false,
             ptsAcc := if x.place = .resident then s.clk - x.ptsSince else x.ptsAcc }

/-- A gang whose pre-emption was asked for and whose groups are all at a boundary leaves its cores (R27, R190, R204,
R223): groups are evicted, engine state is dropped and their bindings are lost, the images are written where the groups' later results
land, the waits for its commands end (R175, R220), the gang is parked. -/
def State.evictGang (s : State) (k : Nat) : State :=
  match s.gang k with
  | none => s
  | some gang =>
    let gs := (s.gangGroups k).filter fun g => g.place != .ended
    let s : State := gs.foldl (fun s g => s.evictGroup g.uid g.core) s
    let s : State := (List.range gang.cores.length).foldl (fun s i => s.dropEngine k i true) s
    let s : State := gs.foldl (fun s g => s.saveImage g.uid) s
    let s : State := s.writeGangImage gang (gang.cores.headD 0)
    (s.updGang k fun x => { x with place := .parked, cores := [] }).wakeWaits

/-- Whether a copy or a collection still has to reach the scratchpads of some gangs (R204). -/
def State.scratchBusy (s : State) (ks : List Nat) : Bool :=
  (s.cpys.any fun c => (c.dstRanges ++ c.srcRanges).any fun r => ks.contains r.1)
    || s.waves.any fun w => w.kind == .gcoll && w.st != .ended && w.outTgt.any fun p =>
      match p.2.2 with
      | .scratch k _ _ => ks.contains k
      | .mem _ _ => false

/-- Whether a copy of an understudied group has fallen behind its twin, and goes on to the twin's boundary (R358, R361; log 70). -/
def State.behindTwin (s : State) (g : Grp) : Bool :=
  match g.twin.bind s.grp with
  | some t => t.place != .ended && decide (g.scenes < t.scenes)
  | none => false

/-- Whether a group waits at a point of comparison: until its twin has reached the point (R361), and until the comparison has been made
where its effect comes next; a sigck does not wait for the result (R315). -/
def State.atPoint (s : State) (g : Grp) : Bool :=
  let reached := ((g.twin.bind s.grp).map fun t => t.points.length).getD 0
  g.points.zipIdx.any fun p => !(g.lax.getD p.2 false && decide (p.2 < reached))

/-- Whether a group may not issue now: a pending pre-emption or park keeps it at its boundary (R27, R308), or it waits at a point of
comparison until its twin has reached the point (R361). -/
def State.heldBack (s : State) (g : Grp) : Bool := (g.preempt && !s.behindTwin g) || g.parking || s.atPoint g

/-- A gang's pending pre-emption takes effect once every group of it and of its twin is at a boundary, and at the same one in both
copies (R27), its scratchpad accesses have taken effect (R204), and each understudied group has made its comparison there (R358). -/
def State.settleGang (s : State) (k : Nat) : State :=
  match s.gang k with
  | none => s
  | some gang =>
    let ks := k :: gang.twin.toList
    let gs := s.groups.filter fun g => ks.contains g.gang && g.place != .ended
    if gang.place = .evicting ∧ gs.all (fun g => s.atBoundary g.uid && !s.behindTwin g) = true ∧ s.scratchBusy ks = false then
      if gs.all fun g => g.points.isEmpty && (g.evCmp || g.twin.isNone || g.mism) then ks.foldl State.evictGang s
      else
        let due (g : Grp) : Bool := ks.contains g.gang && g.place != .ended && g.points.isEmpty && g.twin.isSome && !g.evCmp && !g.mism
        let ask (g : Grp) : Grp := { g with points := [(g.sig, g.held.length)], lax := [false], evCmp := true }
        { s with groups := updAll due ask s.groups }
    else s

/-- Every pending pre-emption whose condition has come to hold takes effect. -/
def State.settleGangs (s : State) : State :=
  ((s.gangs.filter fun g => g.place == .evicting).map (·.id)).foldl State.settleGang s

end Sys2Proof.Machine
end

