-- ==== Sys2Proof/Machine/Flags.lean ====
section
/-! DEFINITION. The fields of MODE (R43, R44) and the marks that travel with registers: which tag a result carries
(R46), how poison combines (R49). -/

namespace Sys2Proof.Machine

/-- MODE's fields (R43). -/
def modeLut (m : Word) : Nat := bits m 7 0
def modeGp (m : Word) : Nat := bits m 10 8
def modeEt (m : Word) : Nat := bits m 14 11
def modeRm (m : Word) : Nat := bits m 17 15
def modeSat (m : Word) : Bool := bitOf m 18
def modeFtz (m : Word) : Bool := bitOf m 19
def modeHlp (m : Word) : Bool := bitOf m 23
/-- Whether an empty source at a position traps: EA, EB, ED (R43, R48). -/
def modeEmpty (m : Word) : Pos → Bool
  | .a => bitOf m 20
  | .b => bitOf m 21
  | .d => bitOf m 22

/-- The word with bits [hi:lo] set to n. -/
def putBits (m : Word) (hi lo n : Nat) : Word :=
  let k := 2 ^ (hi + 1 - lo)
  BitVec.ofNat 32 (m.toNat / 2 ^ (hi + 1) * 2 ^ (hi + 1) + n % k * 2 ^ lo + m.toNat % 2 ^ lo)

/-- modei's effect (R44) on a MODE that its limits let pass. -/
def modeSet (m : Word) (d n : Nat) : Word :=
  match d with
  | 0 => putBits m 7 0 n
  | 1 => putBits m 10 8 n
  | 2 => putBits m 14 11 n
  | 3 => putBits m 17 15 n
  | _ => putBits m 23 18 n

/-- Whether mode and wrsp MODE accept a value (R43, R44). -/
def modeOk (x : Word) : Bool := bits x 31 24 == 0 && decide (bits x 14 11 < 14) && decide (bits x 17 15 < 5)

/-- An operand as a word reads it: its lanes, their poison, and the tag of a v register or temporary. -/
structure Val where
  lanes : Lanes := Vector.replicate 32 0#32
  pois : Word := 0#32
  tag : Option Nat := none
  deriving DecidableEq, Repr

/-- Lane l of an operand. -/
def Val.at (x : Val) (l : Nat) : Word := laneAt x.lanes l

/-- The tag of moves, logic, shifts, shuffles and selects (R46): source a's, RAW for a scalar or predicate, E for a
constant. -/
def passTag (a : Sel) (x : Val) (e : Nat) : Nat :=
  match a with
  | .k _ => e
  | _ => x.tag.getD tRAW

/-- The poison of a word of all-poisoned or clean lanes. -/
def allPois (b : Bool) : Word := if b then BitVec.allOnes 32 else 0#32

/-- The lanes of a mask as 1 and 0 (R38, predicates as sources). -/
def maskLanes (m : Word) : Lanes := lanesFrom fun l => if m.getLsbD l then 1#32 else 0#32

/-- The lanes whose value is nonzero (R38, predicates as destinations). -/
def nonzeroLanes (x : Lanes) : Word := maskOf fun l => laneAt x l != 0#32

end Sys2Proof.Machine
end

