-- ==== Sys2Proof/Machine/Operands.lean ====
section
/-! DEFINITION. The scene buffer (R20): how the words of the scene in issue read their operands and write their
results, which lanes act (R12, R50), the effective type and its checks (R38 to R42, R46). -/

namespace Sys2Proof.Machine

/-- The report of a trap at the word that executes (R307). -/
def Issue.trap (i : Issue) (cls detail : Nat) : Trap := { cls := cls, idx := i.idx, detail := detail }

/-- A condition that must hold, else an illegal-operand trap at the word. -/
def Issue.need (i : Issue) (ok : Bool) : Except Trap Unit :=
  if ok then .ok () else .error (i.trap clsIllegalOperand 0)

/-- A register, predicate or temporary as it stands at the word (R20); p0 reads all ones (R38). -/
def Issue.val (i : Issue) : Sel → Val
  | .v n => let r := i.g.vreg n.toNat; { lanes := r.lanes, pois := r.pois, tag := some r.tag.toNat }
  | .s n => let r := i.g.sreg n.toNat; { lanes := lanesAll r.val, pois := allPois r.pois }
  | .p n => let r := i.g.preg n.toNat; { lanes := maskLanes r.val, pois := r.pois }
  | .t n => let r := i.t[n.toNat]?.getD {}; { lanes := r.lanes, pois := r.pois, tag := some r.tag.toNat }
  | .q _ => {}
  | .k _ => {}

/-- Source x of a word with effective type e: constants by R41; a q selector is illegal (R39). -/
def Issue.src (i : Issue) (e : Nat) (x : Sel) : Except Trap Val :=
  match x with
  | .k n =>
    match constLane (modeFtz i.mode) e n.toNat with
    | some w => .ok { lanes := lanesAll w }
    | none => .error (i.trap clsIllegalOperand 0)
  | .q _ => .error (i.trap clsIllegalOperand 0)
  | _ => .ok (i.val x)

/-- Source x in a count position (R42). A constant that R42 refuses in a position without a range of its own traps here, at the word (R41;
DEDUCED, log 19). -/
def Issue.count (i : Issue) (x : Sel) : Except Trap Val :=
  match x with
  | .k n =>
    match constCount n.toNat with
    | some w => .ok { lanes := lanesAll w }
    | none => .error (i.trap clsIllegalOperand 0)
  | .q _ => .error (i.trap clsIllegalOperand 0)
  | _ => .ok (i.val x)

/-- The guard p[GP] (R12). -/
def Issue.guard (i : Issue) : PReg := i.g.preg (modeGp i.mode)

/-- The lowest acting lane, for the report of a tag that fails in every lane (R307). -/
def Issue.lowActing (i : Issue) : Nat := lowLane (i.mask &&& i.guard.val)

/-- The active lanes (R12); a poisoned guard in any lane of the mask is consumed (R50). A word asks for them when its type set, tags,
constants and counts have been judged, so that one of these traps is reported before the guard's poison (DEDUCED, log 17). -/
def Issue.active (i : Issue) : Except Trap Word :=
  let bad := i.guard.pois &&& i.mask
  if bad = 0#32 then .ok (i.mask &&& i.guard.val) else .error (i.trap clsPoison (lowLane bad))

/-- The effective type (R46): MODE.ET, or source a's tag under TAG. -/
def Issue.etype (i : Issue) (a : Sel) : Except Trap Nat :=
  let e := modeEt i.mode
  if e = tTAG then
    match (i.val a).tag with
    | none => .error (i.trap clsIllegalOperand 0)
    | some t => if t = tRAW then .error (i.trap clsFormat i.lowActing) else .ok t
  else .ok e

/-- The tag check of a source against a type (R46). -/
def Issue.checkTag (i : Issue) (e : Nat) (x : Sel) : Except Trap Unit :=
  match (i.val x).tag with
  | some t => if t = e ∨ t = tRAW then .ok () else .error (i.trap clsFormat i.lowActing)
  | none => .ok ()

/-- The tag check of several sources. -/
def Issue.checkTags (i : Issue) (e : Nat) : List Sel → Except Trap Unit
  | [] => .ok ()
  | x :: r =>
    match i.checkTag e x with
    | .error t => .error t
    | .ok _ => i.checkTags e r

/-- The guard and every register the word names, as a v register with lanes of m replaced (R12, R46, R49). -/
def VReg.put (r : VReg) (m : Word) (tag : Nat) (x : Lanes) (p : Word) : VReg :=
  { r with lanes := mergeLanes m x r.lanes
           tag := if m = 0#32 then r.tag else BitVec.ofNat 4 tag
           pois := (r.pois &&& ~~~m) ||| (p &&& m) }

/-- A result written in the lanes of m: to a v, t, s or p register of the scene buffer, or captured as a push (R38,
R39, R89); a scalar takes the value of the lowest lane of m. -/
def Issue.put (i : Issue) (ins : Instr) (d : Sel) (m : Word) (tag : Nat) (x : Lanes) (p : Word) : Issue :=
  match d with
  | .v n =>
    let k := n.toNat
    { i with g := i.g.setV k ((i.g.vreg k).put m tag x p)
             vmask := i.vmask.setIfInBounds k ((i.vmask[k]?).getD 0#32 ||| m)
             vtagged := i.vtagged.setIfInBounds k ((i.vtagged[k]?).getD false || m != 0#32) }
  | .t n => { i with t := i.t.setIfInBounds n.toNat (VReg.put (i.t[n.toNat]?.getD {}) m tag x p) }
  | .s n =>
    if m = 0#32 then i
    else
      let r := i.g.sreg n.toNat
      { i with g := i.g.setS n.toNat { r with val := laneAt x (lowLane m), pois := p.getLsbD (lowLane m) }
               swrote := i.swrote.setIfInBounds n.toNat true }
  | .p n =>
    let k := n.toNat
    let r := i.g.preg k
    { i with g := i.g.setP k { val := (r.val &&& ~~~m) ||| (nonzeroLanes x &&& m), pois := (r.pois &&& ~~~m) ||| (p &&& m) }
             pmask := if k = 0 then i.pmask else i.pmask.setIfInBounds k ((i.pmask[k]?).getD 0#32 ||| m) }
  | .q _ =>
    { i with ops := i.ops ++ [{ idx := i.idx, ins := ins, act := m, mode := i.mode,
                                data := [mergeLanes m x (lanesAll 0#32)], dpois := p &&& m }] }
  | .k _ => i

/-- A uniform result (R89, R133, R134): written to scalar d whatever lanes act. -/
def Issue.putUniform (i : Issue) (n : Nat) (x : Word) (p : Bool) : Issue :=
  let r := i.g.sreg n
  { i with g := i.g.setS n { r with val := x, pois := p }, swrote := i.swrote.setIfInBounds n true }

/-- A trap in a scene (R20, R37): its effects are discarded and the trap is taken with the header's address; a pending pre-emption
takes effect at that boundary (R27). -/
def State.trapIssue (s : State) (i : Issue) (t : Trap) : State :=
  let s : State := s.updGrp i.g.uid fun g => g.updSlot i.slot fun x => { x with busy := false }
  (s.takeTrap i.g.uid i.slot t i.pc).settleGang i.g.gang

/-- A trap in the scene in issue. -/
def State.trapScene (s : State) (t : Trap) : State := State.trapIssue { s with iss := {} } s.iss t

/-- A body word of the scene in issue at "execute" (R37): an operand that R36's last check refuses traps; else the
word acts on the scene buffer, and the next word is next. With no scene at its body words nothing happens. -/
def State.word (s : State) (ins : Instr) (f : Issue → Except Trap Issue) : Out :=
  let i := s.iss
  if i.live && i.phase == .body then
    if legal ins && fitsRegs i.g.book.regs ins then
      match f i with
      | .ok j => .next { s with iss := { j with idx := i.idx + 1 } }
      | .error t => .next (s.trapScene t)
    else .next (s.trapScene (i.trap clsIllegalOperand 0))
  else .next s

/-- R90 for one source: f per lane of the effective type, with the tag it writes. -/
def Issue.lane1 (i : Issue) (ins : Instr) (set : Nat → Bool) (chk : Bool) (d a : Sel) (pass : Bool)
    (f : Nat → Word → Word) : Except Trap Issue := do
  let e ← i.etype a
  i.need (set e)
  if chk then i.checkTags e [a]
  let x ← i.src e a
  let m ← i.active
  .ok (i.put ins d m (if pass then passTag a x e else e) (lanesFrom fun l => f e (x.at l)) x.pois)

/-- R90 for two sources; cnt: b stands in a count position (R42). The guard is judged last (DEDUCED, log 17). -/
def Issue.lane2 (i : Issue) (ins : Instr) (set : Nat → Bool) (chk cnt : Bool) (d a b : Sel) (pass : Bool)
    (f : Nat → Word → Word → Word) : Except Trap Issue := do
  let e ← i.etype a
  i.need (set e)
  if chk then i.checkTags e [a, b]
  let x ← i.src e a
  let y ← if cnt then i.count b else i.src e b
  let m ← i.active
  .ok (i.put ins d m (if pass then passTag a x e else e) (lanesFrom fun l => f e (x.at l) (y.at l)) (x.pois ||| y.pois))

/-- R90 for two sources and d; tagD: the type d is checked against and the tag the result carries, none for a's. -/
def Issue.lane3 (i : Issue) (ins : Instr) (set : Nat → Bool) (chk cnt : Bool) (d a b : Sel) (tagD : Nat → Option Nat)
    (f : Nat → Word → Word → Word → Word) : Except Trap Issue := do
  let e ← i.etype a
  i.need (set e)
  if chk then i.checkTags e [a, b]
  match tagD e with
  | some t => i.checkTag t d
  | none => .ok ()
  let x ← i.src e a
  let y ← if cnt then i.count b else i.src e b
  let z := i.val d
  let m ← i.active
  .ok (i.put ins d m ((tagD e).getD (passTag a x e)) (lanesFrom fun l => f e (x.at l) (y.at l) (z.at l))
    (x.pois ||| y.pois ||| z.pois))

/-- A compare (R113, R121): per lane, the relation in every element. -/
def Issue.compare (i : Issue) (ins : Instr) (set : Nat → Bool) (d a b : Sel) (f : Nat → Nat → Nat → Bool) : Except Trap Issue :=
  i.lane2 ins set true false d a b false fun e x y =>
    let w := widthOf e
    if (List.range (countOf e)).all fun k => f e (elemAt x w k) (elemAt y w k) then 1#32 else 0#32

/-- A function applied element by element (R67, R90). -/
def elems1 (e : Nat) (x : Word) (f : Nat → Nat) : Word :=
  joinElems (widthOf e) (countOf e) fun k => f (elemAt x (widthOf e) k)
def elems2 (e : Nat) (x y : Word) (f : Nat → Nat → Nat) : Word :=
  joinElems (widthOf e) (countOf e) fun k => f (elemAt x (widthOf e) k) (elemAt y (widthOf e) k)
def elems3 (e : Nat) (x y z : Word) (f : Nat → Nat → Nat → Nat) : Word :=
  joinElems (widthOf e) (countOf e) fun k => f (elemAt x (widthOf e) k) (elemAt y (widthOf e) k) (elemAt z (widthOf e) k)

end Sys2Proof.Machine
end

