-- ==== Sys2Proof/Machine/Moves.lean ====
section
/-! DEFINITION. Meanings of the moves (R44, R99 to R108) at "execute"; wrsp, winld and winsub are captured here and
checked and performed at the trailer (Machine/Check.lean, Machine/Perform.lean). -/

namespace Sys2Proof.Machine

/-- A commit-time word or deferred producer captured for the "Check" and "perform" steps (R37, R51). -/
def Issue.capture (i : Issue) (o : SOp) : Issue := { i with ops := i.ops ++ [{ o with idx := i.idx, mode := i.mode }] }

/-- NOP (R99). -/
def execNop (s : State) : Out := s.word .nop fun i => .ok i

/-- LDI (R100): the sign-extended immediate, tag RAW, poison clear. -/
def execLdi (d : Sel) (n : BitVec 16) (s : State) : Out :=
  s.word (.ldi d n) fun i => do
    let m ← i.active
    .ok (i.put (.ldi d n) d m tRAW (lanesAll (n.signExtend 32)) 0#32)

/-- What ldhi reads of its destination (R100). A queue has no value to read, so the low halves and the poison of an entry that ldhi
pushes are free values (DESIGN CHOICE, log 64). -/
def Issue.lowHalf (i : Issue) (clk : Nat) (d : Sel) : Val :=
  match d with
  | .q _ => { lanes := lanesFrom fun l => Config.freePush (64 * clk + l), pois := Config.freePush (64 * clk + 32) }
  | _ => i.val d

/-- LDHI (R100): the immediate over the low half of d; d's poison is kept; a q destination is a push. -/
def execLdhi (d : Sel) (n : BitVec 16) (s : State) : Out :=
  s.word (.ldhi d n) fun i => do
    let m ← i.active
    let z := i.lowHalf s.clk d
    .ok (i.put (.ldhi d n) d m tRAW (lanesFrom fun l => n ++ (z.at l).extractLsb' 0 16) z.pois)

/-- MOV (R101): a copy with a's tag and poison; with a q source a deferred pop (R39). -/
def execMov (d a : Sel) (s : State) : Out :=
  s.word (.mov d a) fun i => do
    if kindOf a = .q then
      let m ← i.active
      .ok (i.capture { ins := .mov d a, act := m })
    else
      let e ← i.etype a
      let x ← i.src e a
      let m ← i.active
      .ok (i.put (.mov d a) d m (passTag a x e) x.lanes x.pois)

/-- MODEI (R44): one field of the fragment's MODE. -/
def execModei (d : BitVec 8) (n : BitVec 16) (s : State) : Out :=
  s.word (.modei d n) fun i => .ok { i with mode := modeSet i.mode d.toNat n.toNat }

/-- MODE (R44): the fragment's MODE from a scalar or constant. -/
def execMode (a : Sel) (s : State) : Out :=
  s.word (.mode a) fun i => do
    let x ← i.count a
    if x.pois ≠ 0#32 then .error (i.trap clsPoison 0)
    else
      i.need (modeOk (x.at 0))
      .ok { i with mode := x.at 0 }

/-- The lanes of the fragment's quads (R19). -/
def quadLanes (m : Word) : Word := maskOf fun l => (List.range 4).any fun k => m.getLsbD (l / 4 * 4 + k)

/-- The helper lanes at a word (R19, R102). -/
def Issue.helpers (i : Issue) (act : Word) : Word := if modeHlp i.mode then quadLanes i.mask &&& ~~~act else 0#32

/-- rdsp CAPS of the W768 (R54, R102): log2 W = 5, revision 1, all three units present. -/
def capsWord : Word := 0x715#32

/-- A uniform special number's value (R102). -/
def Issue.special (i : Issue) (clk : Nat) (act : Word) (n : Nat) : Word :=
  let g := i.g
  match n with
  | 3 => BitVec.ofNat 32 g.groupNo
  | 4 => BitVec.ofNat 32 g.block
  | 5 => BitVec.ofNat 32 g.gangB
  | 6 => BitVec.ofNat 32 g.gangNo
  | 7 => BitVec.ofNat 32 g.nGroup
  | 8 => BitVec.ofNat 32 g.book.nblock
  | 9 => 32#32
  | 10 => g.book.launchId.extractLsb' 0 32
  | 11 => BitVec.ofNat 32 g.core
  | 12 => BitVec.ofNat 32 (clusterOfCore g.core)
  | 13 => BitVec.ofNat 32 (dieOfCore g.core)
  | 14 => BitVec.ofNat 32 clk
  | 15 => BitVec.ofNat 32 (i.clk.getD clk / 2 ^ 32)
  | 16 => BitVec.ofNat 32 (nsOfClk clk)
  | 17 => act
  | 18 => i.helpers act
  | 19 => i.mode
  | 20 => g.trapInfo
  | 21 => g.trapPc
  | _ => capsWord

/-- RDSP (R102). -/
def execRdsp (d : Sel) (n : BitVec 16) (s : State) : Out :=
  s.word (.rdsp d n) fun i => do
    let m ← i.active
    let x : Lanes :=
      match n.toNat with
      | 0 => lanesFrom fun l => BitVec.ofNat 32 l
      | 1 => lanesFrom fun l => BitVec.ofNat 32 (l % 4)
      | 2 => lanesFrom fun l => BitVec.ofNat 32 (l / 4)
      | k => lanesAll (i.special s.clk m k)
    let i : Issue := if n = 14#16 then { i with clk := some s.clk } else i
    .ok (i.put (.rdsp d n) d m tRAW x 0#32)

/-- WRSP (R103): captured; TRAPINFO and TRAPPC only in a handler fragment. -/
def execWrsp (src : Sel) (n : BitVec 16) (s : State) : Out :=
  s.word (.wrsp src n) fun i => do
    i.need (n == 19#16 || (i.g.slot i.slot).handler)
    let x ← i.count src
    .ok (i.capture { ins := .wrsp src n, act := i.mask, desc := [x.at 0], cpois := x.pois != 0#32 })

/-- WINLD (R104): captured; it acts when some lane is active (R12; log 15). -/
def execWinld (w : BitVec 3) (n : BitVec 8) (s : State) : Out :=
  s.word (.winld w n) fun i => do
    let m ← i.active
    .ok (i.capture { ins := .winld w n, act := m })

/-- WINSUB (R105): captured with its offset and length; it acts when some lane is active (R12; log 15). -/
def execWinsub (src d : BitVec 3) (a b : Sel) (s : State) : Out :=
  s.word (.winsub src d a b) fun i => do
    let x ← i.count a
    let y ← i.count b
    let m ← i.active
    .ok (i.capture { ins := .winsub src d a b, act := m, desc := [x.at 0, y.at 0], cpois := (x.pois ||| y.pois) != 0#32 })

/-- RDTAG (R107): a's tag, zero-extended; poison clear. -/
def execRdtag (d a : Sel) (s : State) : Out :=
  s.word (.rdtag d a) fun i => do
    let m ← i.active
    .ok (i.put (.rdtag d a) d m tRAW (lanesAll (BitVec.ofNat 32 ((i.val a).tag.getD 0))) 0#32)

/-- RETAG (R108): a copy of a with tag b. -/
def execRetag (d a b : Sel) (s : State) : Out :=
  s.word (.retag d a b) fun i => do
    let x := i.val a
    let y ← i.count b
    let t := (y.at 0).toNat
    i.need (decide (t ≤ 12) || t == 15)
    let m ← i.active
    .ok (i.put (.retag d a b) d m t x.lanes x.pois)

end Sys2Proof.Machine
end

