-- ==== Sys2Proof/Machine/Control.lean ====
section
/-! DEFINITION. Meanings of the control words (R92 to R98, R310) at "execute": each judges its target or predicate and
leaves the scene's final word, which the trailer applies (R37). -/

namespace Sys2Proof.Machine

/-- The address of the word that executes (R33). -/
def Issue.addr (i : Issue) : Word := i.pc + BitVec.ofNat 32 (4 * i.idx)

/-- A target off words from the executing word (R33); n is the width of off. -/
def Issue.target (i : Issue) (off : Word) (n : Nat) : Word := i.addr + 4#32 * sext off n

/-- JMP (R92). -/
def execJmp (f : BitVec 24) (s : State) : Out :=
  s.word (.jmp f) fun i => .ok { i with final := .jump (i.target (f.setWidth 32) 24) false }

/-- CALL (R92): a jump that writes the link into s31. -/
def execCall (f : BitVec 24) (s : State) : Out :=
  s.word (.call f) fun i => .ok { i with final := .jump (i.target (f.setWidth 32) 24) true }

/-- The target of jmpr and callr (R93): alignment is judged before poison. -/
def Issue.regTarget (i : Issue) (a : Sel) : Except Trap Word :=
  let x := i.val a
  if bits (x.at 0) 1 0 ≠ 0 then .error (i.trap clsIllegalOperand 0)
  else if x.pois ≠ 0#32 then .error (i.trap clsPoison (lowLane i.mask))
  else .ok (x.at 0)

/-- JMPR (R93). -/
def execJmpr (a : Sel) (s : State) : Out :=
  s.word (.jmpr a) fun i => do
    let t ← i.regTarget a
    .ok { i with final := .jump t false }

/-- CALLR (R93). -/
def execCallr (a : Sel) (s : State) : Out :=
  s.word (.callr a) fun i => do
    let t ← i.regTarget a
    .ok { i with final := .jump t true }

/-- A branch predicate (R50, R94, R95): poison in any lane of the mask is consumed. -/
def Issue.branch (i : Issue) (p : Nat) : Except Trap Word :=
  let r := i.g.preg p
  let bad := r.pois &&& i.mask
  if bad = 0#32 then .ok (r.val &&& i.mask) else .error (i.trap clsPoison (lowLane bad))

/-- BRC (R94): a split that R309 or R15 refuses traps here. -/
def execBrc (p : BitVec 3) (j : BitVec 10) (f : BitVec 11) (s : State) : Out :=
  s.word (.brc p j f) fun i => do
    let t ← i.branch p.toNat
    let splits := t != 0#32 && t != i.mask
    i.need (!(splits && (i.g.slot i.slot).handler))
    if splits && (i.g.slot (!i.slot)).st != .empty && decide (64 ≤ i.g.stack.length) then .error (i.trap clsSplit 0)
    else .ok { i with final := .brc p (i.target (f.setWidth 32) 11) (i.addr + 4#32 * j.setWidth 32) }

/-- BRU (R95). -/
def execBru (p : BitVec 3) (c : BitVec 2) (f : BitVec 19) (s : State) : Out :=
  s.word (.bru p c f) fun i => do
    let _ ← i.branch p.toNat
    .ok { i with final := .bru p c (i.target (f.setWidth 32) 19) }

/-- EXIT (R96). -/
def execExit (s : State) : Out := s.word .exit fun i => .ok { i with final := .exit }

/-- TRAP (R97): a software trap taken after the scene commits. -/
def execTrap (n : BitVec 16) (s : State) : Out :=
  s.word (.trap n) fun i => .ok { i with final := .trapWord clsTrapWord n }

/-- BRK (R97): a breakpoint taken after the scene commits. -/
def execBrk (n : BitVec 16) (s : State) : Out :=
  s.word (.brk n) fun i => .ok { i with final := .trapWord clsBreak n }

/-- YIELD (R98). -/
def execYield (s : State) : Out := s.word .yield fun i => .ok { i with final := .yield }

/-- TRET (R310): only in a handler fragment. -/
def execTret (s : State) : Out :=
  s.word .tret fun i => do
    i.need (i.g.slot i.slot).handler
    .ok { i with final := .tret }

end Sys2Proof.Machine
end

