-- ==== Sys2Proof/Machine/Trans.lean ====
section
/-! DEFINITION. The transcendentals (R86, R87, R123): exact cases, the square root, and for every other result a free
value of the machine kept within the bound of R86 around a close approximation of the exact result (log 8). -/

namespace Sys2Proof.Machine

/-- Bits of the fixed-point numbers of the approximations. -/
abbrev fixP : Nat := 128
/-- ln 2 and pi in units of 2^-128. -/
def ln2Fix : Nat := 0xb17217f7d1cf79abc9e3b39803f2f6af
def piFix : Nat := 0x3243f6a8885a308d313198a2e03707344

/-- The integer square root, bit by bit from bit k down. -/
def isqrtFrom (n : Nat) : Nat → Nat → Nat
  | 0, r => if (r + 1) * (r + 1) ≤ n then r + 1 else r
  | k + 1, r =>
    let t := r + 2 ^ (k + 1)
    isqrtFrom n k (if t * t ≤ n then t else r)
def isqrt (n : Nat) : Nat := if n = 0 then 0 else isqrtFrom n (Nat.log2 n / 2) 0

/-- A quotient with about 128 significant bits: m · 2^e. -/
def quot (a b : Nat) : Nat × Int :=
  let k := fixP + Nat.log2 b - Nat.log2 a
  (a * 2 ^ k / b, -(k : Int))

/-- Sum of terms t, t · y / (k + 1), t · y² / ((k + 1)(k + 2)), ... in fixed point. -/
def expTail (y : Nat) : (fuel k t : Nat) → Nat
  | 0, _, _ => 0
  | n + 1, k, t => t + expTail y n (k + 1) (t * y / 2 ^ fixP / (k + 1))

/-- 2^f for a fixed-point fraction f, as a fixed-point number from 1 to 2. -/
def exp2Frac (f : Nat) : Nat := expTail (f * ln2Fix / 2 ^ fixP) 48 0 (2 ^ fixP)

/-- The fixed-point floor of m · 2^e. -/
def toFix (m : Nat) (e : Int) : Nat := roundTo2 1 false m e (-(fixP : Int))

/-- exp2 of a value: m · 2^e. -/
def approxExp2 (neg : Bool) (m : Nat) (e : Int) : Nat × Int :=
  let x := toFix m e
  let n : Int := if neg then -((x : Int) / 2 ^ fixP) - 1 else (x : Int) / 2 ^ fixP
  let f := if neg then 2 ^ fixP - 1 - x % 2 ^ fixP else x % 2 ^ fixP
  (exp2Frac f, n - fixP)

/-- Sum over k of z^(2k+1) / (2k + 1) in fixed point. -/
def atanhTail (z2 : Nat) : (fuel k t : Nat) → Nat
  | 0, _, _ => 0
  | n + 1, k, t => t / (2 * k + 1) + atanhTail z2 n (k + 1) (t * z2 / 2 ^ fixP)

/-- log2 of a positive value, as a signed fixed-point number. -/
def approxLog2 (m : Nat) (e : Int) : Int :=
  let k := Nat.log2 m
  let z := (m - 2 ^ k) * 2 ^ fixP / (m + 2 ^ k)
  let l := 2 * atanhTail (z * z / 2 ^ fixP) 44 0 z
  (e + k) * 2 ^ fixP + (l * 2 ^ fixP / ln2Fix : Nat)

/-- 1 − u/(2·3) + u²/(2·3·4·5) − ... in fixed point. -/
def sinTail (u : Nat) : (fuel k : Nat) → Nat
  | 0, _ => 2 ^ fixP
  | n + 1, k => 2 ^ fixP - u * sinTail u n (k + 2) / 2 ^ fixP / ((k + 1) * (k + 2))

/-- sin(π r) for a positive multiple of 2^e that is no multiple of 1/2 (e below −1): sign and m · 2^e, below 1 as the exact
result is. -/
def approxSinpi (m : Nat) (e : Int) : Bool × Nat × Int :=
  let one := 2 ^ (-e).toNat
  let r := m % (2 * one)
  let neg := decide (one ≤ r)
  let r := r % one
  let r := if one < 2 * r then one - r else r
  let y := toFix r e * piFix / 2 ^ fixP
  (neg, min (r * (piFix * sinTail (y * y / 2 ^ fixP) 24 1 / 2 ^ fixP)) (one * 2 ^ fixP - 1), e - fixP)

/-- tanh of a positive value: m · 2^e. -/
def approxTanh (m : Nat) (e : Int) : Nat × Int :=
  if 6 ≤ (Nat.log2 m : Int) + e then (2 ^ fixP - 1, -(fixP : Int))
  else if (Nat.log2 m : Int) + e < -1 then
    -- expm1(y) = y · E(y), y = 2x below 1
    let n := m * expTail (toFix m (e + 1)) 44 1 (2 ^ fixP)
    quot n (n + 2 * 2 ^ (fixP - 1 - e).toNat)
  else
    let y := toFix m (e + 1) * 2 ^ fixP / ln2Fix
    let a := exp2Frac (y % 2 ^ fixP) * 2 ^ (y / 2 ^ fixP)
    quot (a - 2 ^ fixP) (a + 2 ^ fixP)

/-- A free value within b ulps of the exact result m · 2^e, ulps of the format at that result (R86): the choice is a
fixed function of the input, and candidates stand half an ulp apart, from the first at or above the lower bound to the last at
or below the upper one; the lowest rounds away from zero and every other toward it, so a candidate between two values of the format
stays within the bound; top1 keeps the result at most 1. -/
def Fmt.within (f : Fmt) (b key : Nat) (ftz neg top1 : Bool) (m : Nat) (e : Int) : Nat :=
  let u : Int := max ((Nat.log2 m : Int) + e) (1 - (f.bias : Int)) - f.fb - 1
  let x := roundTo2 1 false m e (u - 40)
  let lo := (x + 2 ^ 40 + 1) / 2 ^ 40 - 2 * b
  let hi := (x - 1) / 2 ^ 40 + 2 * b
  let c := lo + Config.freeChoice key % (hi - lo + 1)
  let rm := if c = lo then (if neg then 2 else 3) else 1
  let c := if top1 then min c (2 ^ (-u).toNat) else c
  if f.maxM * 2 ^ (f.maxE - min u f.maxE).toNat < c * 2 ^ (u - min u f.maxE).toNat then f.infinity neg
  else f.round rm ftz false neg c u

/-- A transcendental's number, for the key of its free value. -/
inductive Tran where
  | rcp | rsqrt | sqrt | exp2 | log2 | sinpi | cospi | tanh
  deriving DecidableEq, Repr

def Tran.code : Tran → Nat
  | .rcp => 0 | .rsqrt => 1 | .sqrt => 2 | .exp2 => 3 | .log2 => 4 | .sinpi => 5 | .cospi => 6 | .tanh => 7

/-- Whether m is a power of two. -/
def isPow2 (m : Nat) : Bool := m != 0 && m == 2 ^ Nat.log2 m

/-- The bound in ulps (R86). -/
def Tran.bound (t : Tran) (e : Nat) : Nat :=
  match t with
  | .rcp | .rsqrt | .sqrt => 1
  | _ => if e == tF32 then 2 else 1

/-- Infinite inputs (R87). -/
def Tran.ofInf (t : Tran) (f : Fmt) (neg : Bool) : Nat :=
  match t with
  | .rcp => f.zero neg
  | .rsqrt => if neg then f.nan else f.zero false
  | .sqrt | .log2 => if neg then f.nan else f.infinity false
  | .exp2 => if neg then f.zero false else f.infinity false
  | .sinpi | .cospi => f.nan
  | .tanh => f.round 0 false false neg 1 0

/-- Zero inputs (R87). -/
def Tran.ofZero (t : Tran) (f : Fmt) (neg : Bool) : Nat :=
  match t with
  | .rcp | .rsqrt => f.infinity neg
  | .sqrt | .sinpi | .tanh => f.zero neg
  | .exp2 | .cospi => f.round 0 false false false 1 0
  | .log2 => f.infinity true

/-- The square root, correctly rounded (R86): a root to 64 bits beyond the point with a sticky bit. -/
def Fmt.root (f : Fmt) (rm : Nat) (ftz : Bool) (m : Nat) (e : Int) : Nat :=
  let (m, e) := if e % 2 = 0 then (m, e) else (2 * m, e - 1)
  let n := m * 2 ^ 128
  let r := isqrt n
  f.round rm ftz false false (2 * r + (if r * r = n then 0 else 1)) (e / 2 - 65)

/-- One element of a transcendental (R86, R87, R123). -/
def Tran.elem (t : Tran) (ty rm : Nat) (ftz : Bool) (x : Nat) : Nat :=
  let f := fmtOf ty
  let key := t.code * 2 ^ 48 + ty * 2 ^ 40 + f.flushed ftz x
  let near (neg top1 : Bool) (a : Nat × Int) : Nat := f.within (t.bound ty) key ftz neg top1 a.1 a.2
  match f.decode ftz x with
  | .nan => f.nan
  | .inf neg => t.ofInf f neg
  | .num neg m e =>
    if m = 0 then t.ofZero f neg
    else
      let odd := m / 2 ^ (-e).toNat % 2 == 1
      let whole := decide (0 ≤ e) || m % 2 ^ (-e).toNat == 0
      let half := decide (e < 0) && m % 2 ^ (-e).toNat == 2 ^ ((-e).toNat - 1)
      match t with
      | .rcp =>
        if isPow2 m then f.round 0 ftz false neg 1 (-(e + Nat.log2 m))
        else let q := quot 1 m; near neg false (q.1, q.2 - e)
      | .rsqrt =>
        if neg then f.nan
        else
          let (m, e) := if e % 2 = 0 then (m, e) else (2 * m, e - 1)
          if isPow2 m && Nat.log2 m % 2 == 0 then f.round 0 ftz false false 1 (-(e / 2) - Nat.log2 m / 2)
          else near false false (isqrt (2 ^ 300 / m), -150 - e / 2)
      | .sqrt => if neg then f.nan else f.root rm ftz m e
      | .exp2 =>
        if 10 ≤ (Nat.log2 m : Int) + e then (if neg then f.within (t.bound ty) key ftz false false 1 (-1024) else f.infinity false)
        else if whole then
          let n : Int := m * 2 ^ e.toNat / 2 ^ (-e).toNat
          let n := if neg then -n else n
          if n < 2 - (f.bias : Int) - f.fb - 1 then near false false (1, n) else f.round 0 ftz false false 1 n
        else near false false (approxExp2 neg m e)
      | .log2 =>
        if neg then f.nan
        else if isPow2 m then
          let n : Int := e + Nat.log2 m
          f.round 0 ftz false (decide (n < 0)) n.natAbs 0
        else
          let l := approxLog2 m e
          near (decide (l < 0)) false (l.natAbs, -(fixP : Int))
      | .sinpi =>
        if whole then f.zero neg
        else if half then f.round 0 ftz false (odd != neg) 1 0
        else let a := approxSinpi m e; near (a.1 != neg) false a.2
      | .cospi =>
        if whole then f.round 0 ftz false (decide (e ≤ 0) && odd) 1 0
        else if half then f.zero false
        else let a := approxSinpi (m + 2 ^ ((-e).toNat - 1)) e; near a.1 false a.2
      | .tanh => near neg true (approxTanh m e)

end Sys2Proof.Machine
end

