-- ==== Sys2Proof/Machine/FloatOps.lean ====
section
/-! DEFINITION. Meanings of the floating-point words (R118 to R129). -/

namespace Sys2Proof.Machine

/-- The modifiers a floating-point word takes from MODE: rounding, FTZ, SAT (R43). -/
structure FMode where
  rm : Nat
  ftz : Bool
  sat : Bool
  deriving DecidableEq, Repr

/-- The modifiers of the scene in issue. -/
def Issue.fm (i : Issue) : FMode := { rm := modeRm i.mode, ftz := modeFtz i.mode, sat := modeSat i.mode }

/-- An element's value after FTZ on inputs (R72). -/
def FMode.get (m : FMode) (e x : Nat) : FVal := (fmtOf e).decode m.ftz x
/-- An exact sum with its special cases, rounded once into type e (R82). -/
def FMode.sum (m : FMode) (e : Nat) (xs : List FVal) : Nat := (fmtOf e).fused m.rm m.ftz m.sat xs

/-- fadd of two elements (R119). -/
def FMode.add (m : FMode) (e x y : Nat) : Nat := m.sum e [m.get e x, m.get e y]

/-- fmin and fmax of two elements (R120): −0 below +0; one NaN gives the other operand. -/
def FMode.minMax (m : FMode) (max : Bool) (e x y : Nat) : Nat :=
  let u := m.get e x
  let v := m.get e y
  let f := fmtOf e
  match u, v with
  | .nan, .nan => f.nan
  | .nan, _ => f.flushed m.ftz y
  | _, .nan => f.flushed m.ftz x
  | _, _ =>
    let less := u.lt v || (u.isZero && v.isZero && u.neg && !v.neg)
    f.flushed m.ftz (if less != max then x else y)

/-- FADD (R119). -/
def execFadd (d a b : Sel) (s : State) : Out :=
  s.word (.fadd d a b) fun i => i.lane2 (.fadd d a b) setF true false d a b false fun e x y =>
    elems2 e x y fun x y => i.fm.add e x y
/-- FSUB (R119). -/
def execFsub (d a b : Sel) (s : State) : Out :=
  s.word (.fsub d a b) fun i => i.lane2 (.fsub d a b) setF true false d a b false fun e x y =>
    elems2 e x y fun x y => i.fm.sum e [i.fm.get e x, (i.fm.get e y).negate]
/-- FMUL (R119): a zero product takes the exclusive OR of the signs. -/
def execFmul (d a b : Sel) (s : State) : Out :=
  s.word (.fmul d a b) fun i => i.lane2 (.fmul d a b) setF true false d a b false fun e x y =>
    elems2 e x y fun x y => (fmtOf e).ofVal i.fm.rm i.fm.ftz i.fm.sat ((i.fm.get e x).mul (i.fm.get e y))
/-- FMA (R81, R82, R119): one rounding of x · y + z. -/
def execFma (d a b : Sel) (s : State) : Out :=
  s.word (.fma d a b) fun i => i.lane3 (.fma d a b) setF true false d a b some fun e x y z =>
    elems3 e x y z fun x y z => i.fm.sum e [(i.fm.get e x).mul (i.fm.get e y), i.fm.get e z]
/-- FMIN (R120). -/
def execFmin (d a b : Sel) (s : State) : Out :=
  s.word (.fmin d a b) fun i => i.lane2 (.fmin d a b) setF true false d a b false fun e x y =>
    elems2 e x y fun x y => i.fm.minMax false e x y
/-- FMAX (R120). -/
def execFmax (d a b : Sel) (s : State) : Out :=
  s.word (.fmax d a b) fun i => i.lane2 (.fmax d a b) setF true false d a b false fun e x y =>
    elems2 e x y fun x y => i.fm.minMax true e x y

/-- The types of the compares, fabs, fneg and fclass (R121, R122, R128). -/
def setFF8 (e : Nat) : Bool := setF e || setF8 e

/-- FCMPEQ (R121). -/
def execFcmpeq (d a b : Sel) (s : State) : Out :=
  s.word (.fcmpeq d a b) fun i => i.compare (.fcmpeq d a b) setFF8 d a b fun e x y => (i.fm.get e x).eqv (i.fm.get e y)
/-- FCMPLT (R121). -/
def execFcmplt (d a b : Sel) (s : State) : Out :=
  s.word (.fcmplt d a b) fun i => i.compare (.fcmplt d a b) setFF8 d a b fun e x y => (i.fm.get e x).lt (i.fm.get e y)
/-- FCMPLE (R121). -/
def execFcmple (d a b : Sel) (s : State) : Out :=
  s.word (.fcmple d a b) fun i => i.compare (.fcmple d a b) setFF8 d a b fun e x y =>
    (i.fm.get e x).lt (i.fm.get e y) || (i.fm.get e x).eqv (i.fm.get e y)
/-- FCMPUN (R121). -/
def execFcmpun (d a b : Sel) (s : State) : Out :=
  s.word (.fcmpun d a b) fun i => i.compare (.fcmpun d a b) setFF8 d a b fun e x y =>
    (i.fm.get e x).isNan || (i.fm.get e y).isNan

/-- The sign bit of an element (R122). -/
def signBit (e : Nat) : Nat := 2 ^ (widthOf e - 1)

/-- FABS (R122): the sign bit cleared, every other bit copied. -/
def execFabs (d a : Sel) (s : State) : Out :=
  s.word (.fabs d a) fun i => i.lane1 (.fabs d a) setFF8 true d a false fun e x => elems1 e x fun x => x % signBit e
/-- FNEG (R122): the sign bit inverted. -/
def execFneg (d a : Sel) (s : State) : Out :=
  s.word (.fneg d a) fun i => i.lane1 (.fneg d a) setFF8 true d a false fun e x =>
    elems1 e x fun x => (x + signBit e) % 2 ^ widthOf e

/-- A transcendental word (R123). -/
def Issue.tran (i : Issue) (t : Tran) (ins : Instr) (d a : Sel) : Except Trap Issue :=
  i.lane1 ins setF true d a false fun e x => elems1 e x fun x => t.elem e i.fm.rm i.fm.ftz x

/-- RCP (R123). -/
def execRcp (d a : Sel) (s : State) : Out := s.word (.rcp d a) fun i => i.tran .rcp (.rcp d a) d a
/-- RSQRT (R123). -/
def execRsqrt (d a : Sel) (s : State) : Out := s.word (.rsqrt d a) fun i => i.tran .rsqrt (.rsqrt d a) d a
/-- SQRT (R123). -/
def execSqrt (d a : Sel) (s : State) : Out := s.word (.sqrt d a) fun i => i.tran .sqrt (.sqrt d a) d a
/-- EXP2 (R123). -/
def execExp2 (d a : Sel) (s : State) : Out := s.word (.exp2 d a) fun i => i.tran .exp2 (.exp2 d a) d a
/-- LOG2 (R123). -/
def execLog2 (d a : Sel) (s : State) : Out := s.word (.log2 d a) fun i => i.tran .log2 (.log2 d a) d a
/-- SINPI (R123). -/
def execSinpi (d a : Sel) (s : State) : Out := s.word (.sinpi d a) fun i => i.tran .sinpi (.sinpi d a) d a
/-- COSPI (R123). -/
def execCospi (d a : Sel) (s : State) : Out := s.word (.cospi d a) fun i => i.tran .cospi (.cospi d a) d a
/-- TANH (R123). -/
def execTanh (d a : Sel) (s : State) : Out := s.word (.tanh d a) fun i => i.tran .tanh (.tanh d a) d a

/-- RND (R124): the integer nearest x under RM, with the sign of x. -/
def execRnd (d a : Sel) (s : State) : Out :=
  s.word (.rnd d a) fun i => i.lane1 (.rnd d a) setF true d a false fun e x =>
    elems1 e x fun x =>
      let f := fmtOf e
      match i.fm.get e x with
      | .nan => f.nan
      | .inf n => f.infinity n
      | .num n m q => f.round 1 false false n (roundTo2 i.fm.rm n m q 0) 0

/-- FRAC (R124): x − trunc(x), zero with the sign of x. -/
def execFrac (d a : Sel) (s : State) : Out :=
  s.word (.frac d a) fun i => i.lane1 (.frac d a) setF true d a false fun e x =>
    elems1 e x fun x =>
      let f := fmtOf e
      match i.fm.get e x with
      | .num n m q => f.round 1 i.fm.ftz false n (if 0 ≤ q then 0 else m % 2 ^ (-q).toNat) q
      | _ => f.nan

/-- CVT (R76, R125): the source type is a's tag; elements without a partner are +0. -/
def execCvt (d a : Sel) (s : State) : Out :=
  s.word (.cvt d a) fun i => do
    let x := i.val a
    let t := x.tag.getD tRAW
    i.need (modeEt i.mode != tK4)
    if t = tRAW then .error (i.trap clsFormat i.lowActing)
    else
      let e ← i.etype a
      i.need (t != tK4 && e != tK4)
      let m ← i.active
      let f (l : Nat) : Word := joinElems (widthOf e) (countOf e) fun k =>
        if k < countOf t then
          if t = e ∧ setFF8 e = false then elemAt (x.at l) (widthOf e) k
          else convElem i.fm.rm i.fm.ftz i.fm.sat t e (elemAt (x.at l) (widthOf t) k)
        else 0
      .ok (i.put (.cvt d a) d m e (lanesFrom f) x.pois)

/-- A product of two elements for a fused sum, with its special cases (R82). -/
def FMode.prod (m : FMode) (e x y : Nat) : FVal := (m.get e x).mul (m.get e y)

/-- A fused sum of products and d into F32, in which an ∞ × 0 pair gives NaN (R82). -/
def FMode.dot (m : FMode) (e n : Nat) (x y z : Word) : Word :=
  let w := widthOf e
  BitVec.ofNat 32 (m.sum tF32 (((List.range n).map fun k => m.prod e (elemAt x w k) (elemAt y w k)) ++ [m.get tF32 z.toNat]))

/-- DOT2 (R81, R126). -/
def execDot2 (d a b : Sel) (s : State) : Out :=
  s.word (.dot2 d a b) fun i =>
    i.lane3 (.dot2 d a b) (fun e => e == tBF16 || e == tF16) true false d a b (fun _ => some tF32) fun e x y z =>
      i.fm.dot e 2 x y z

/-- The accumulator type of dot4 (R81, R126). -/
def dot4Type (e : Nat) : Nat := if e = tI8 then tI32 else if e = tN8 then tN32 else tF32

/-- DOT4 (R81, R126): floating-point fused, or an exact integer sum with R68 applied once. -/
def execDot4 (d a b : Sel) (s : State) : Out :=
  s.word (.dot4 d a b) fun i =>
    i.lane3 (.dot4 d a b) (fun e => setF8 e || e == tI8 || e == tN8) true false d a b (fun e => some (dot4Type e)) fun e x y z =>
      if setF8 e then i.fm.dot e 4 x y z
      else
        let c := dot4Type e
        let v : Int := (List.range 4).foldl
          (fun (acc : Int) k => acc + intOf e 8 (elemAt x 8 k) * intOf e 8 (elemAt y 8 k)) (intOf c 32 z.toNat)
        BitVec.ofNat 32 (fitInt i.fm.sat c v)

/-- Eight times the value of a 4-bit code under a type (R78). -/
def codeVal8 (ty c : Nat) : Int :=
  let m := c % 8
  let mag : Int :=
    match ty, m with
    | 1, 1 => 4 | 1, 2 => 8 | 1, 3 => 12 | 1, 4 => 16 | 1, 5 => 24 | 1, 6 => 32 | 1, 7 => 48
    | 2, 1 => 1 | 2, 2 => 2 | 2, 3 => 4 | 2, 4 => 8 | 2, 5 => 16 | 2, 6 => 32 | 2, 7 => 64
    | 3, 1 => 8 | 3, 2 => 16 | 3, 3 => 24 | 3, 4 => 32 | 3, 5 => 48 | 3, 6 => 64 | 3, 7 => 96
    | _, _ => 0
  if ty = 0 then 8 * (if c < 8 then (c : Int) else (c : Int) - 16) else if 8 ≤ c then -mag else mag

/-- The exact value of a K4 block product as a value for the fused sum (R83): S · (4 + Ma)(4 + Mb) · 2^(Ea + Eb − 24). -/
def blockProd (sa sb : Nat) (a b : Nat → Nat) : FVal :=
  let t : Int := (List.range 32).foldl (fun (acc : Int) c => acc + codeVal8 (sa / 64) (a c) * codeVal8 (sb / 64) (b c)) 0
  let v := t * (4 + (sa % 4 : Nat)) * (4 + (sb % 4 : Nat))
  .num (decide (v < 0)) v.natAbs (((sa / 4 % 16 + sb / 4 % 16 : Nat) : Int) - 24)

/-- The last committed value of a v register or predicate of the issuing group, as a helper or other non-active lane
supplies it (R19, R130); temporaries have no committed value. p0 reads all ones, and a scalar gives its committed value and poison, in a
lane that never started too (R38 and R116 against R11 and R19; DEDUCED, log 88). -/
def State.committed (s : State) (x : Sel) : Val :=
  match x with
  | .t _ => s.iss.val x
  | _ => ({ s.iss with g := s.iss.g0 } : Issue).val x

/-- The lane value and poison a quad instruction reads from lane j (R19, R130). -/
def Issue.quadRead (i : Issue) (x old : Val) (m : Word) (j : Nat) : Word × Bool :=
  if m.getLsbD j then (x.at j, x.pois.getLsbD j)
  else if modeHlp i.mode then (old.at j, old.pois.getLsbD j)
  else (0#32, false)

/-- DOTK (R83, R127): a block product per quad. -/
def execDotk (d a b : Sel) (s : State) : Out :=
  s.word (.dotk d a b) fun i => do
    let e ← i.etype a
    i.need (e == tK4)
    i.checkTags tK4 [a, b]
    i.checkTag tF32 d
    let next (x : Sel) : Sel := (Sel.run x 2).getD 1 x
    let z := i.val d
    let m ← i.active
    let rd (x : Sel) (j : Nat) : Word × Bool := i.quadRead (i.val x) (s.committed x) m j
    let code (x : Sel) (q c : Nat) : Nat := elemAt (rd x (4 * q + c / 8)).1 4 (c % 8)
    let scale (x : Sel) (q : Nat) : Nat := (rd (next x) (4 * q)).1.toNat % 256
    let res (l : Nat) : Word :=
      let q := l / 4
      BitVec.ofNat 32 (i.fm.sum tF32 [blockProd (scale a q) (scale b q) (code a q) (code b q), i.fm.get tF32 (z.at l).toNat])
    let bad (l : Nat) : Bool :=
      let q := l / 4
      ((List.range 4).any fun k => (rd a (4 * q + k)).2 || (rd b (4 * q + k)).2)
        || (rd (next a) (4 * q)).2 || (rd (next b) (4 * q)).2 || z.pois.getLsbD l
    .ok (i.put (.dotk d a b) d m tF32 (lanesFrom fun l => if m.getLsbD l then res l else 0#32)
      (maskOf fun l => m.getLsbD l && bad l))

/-- The class bit of an element (R128). -/
def classBit (e x : Nat) : Nat :=
  let f := fmtOf e
  match f.decode false x with
  | .nan => 8
  | .inf n => if n then 0 else 7
  | .num n 0 _ => if n then 3 else 4
  | .num n m _ => if m < 2 ^ f.fb then (if n then 2 else 5) else (if n then 1 else 6)

/-- FCLASS (R128). -/
def execFclass (d a b : Sel) (s : State) : Out :=
  s.word (.fclass d a b) fun i => do
    let e ← i.etype a
    i.need (setFF8 e)
    i.checkTags e [a]
    let x ← i.src e a
    let y ← i.count b
    let m ← i.active
    let f (l : Nat) : Word :=
      if (List.range (countOf e)).all fun k => (y.at l).getLsbD (classBit e (elemAt (x.at l) (widthOf e) k)) then 1#32 else 0#32
    .ok (i.put (.fclass d a b) d m tRAW (lanesFrom f) (x.pois ||| y.pois))

/-- LDEXP (R129): a · 2^n, n read as I32. -/
def execLdexp (d a b : Sel) (s : State) : Out :=
  s.word (.ldexp d a b) fun i => do
    let e ← i.etype a
    i.need (setF e)
    i.checkTags e [a]
    i.checkTag tI32 b
    let x ← i.src e a
    let y ← i.src tI32 b
    let m ← i.active
    let one (n : Int) (v : Nat) : Nat :=
      match i.fm.get e v with
      | .nan => (fmtOf e).nan
      | .inf g => (fmtOf e).infinity g
      | .num g u q => (fmtOf e).round i.fm.rm i.fm.ftz i.fm.sat g u (q + max (-1000) (min 1000 n))
    .ok (i.put (.ldexp d a b) d m e (lanesFrom fun l => elems1 e (x.at l) (one (y.at l).toInt)) (x.pois ||| y.pois))

end Sys2Proof.Machine
end

