-- ==== Sys2Proof/Machine/Integer.lean ====
section
/-! DEFINITION. Meanings of the integer words (R109 to R115). -/

namespace Sys2Proof.Machine

/-- An exact integer or FX32 result brought into an element by R68. -/
def fitElem (mode : Word) (e : Nat) (v : Int) : Nat := fitInt (modeSat mode) e v

/-- The integer of an element of type e. -/
def elemInt (e x : Nat) : Int := intOf e (widthOf e) x

/-- A product of FX32 elements rounded under RM to a multiple of 2^-16 (R69), any other product exact. -/
def scaleProd (mode : Word) (e : Nat) (v : Int) : Int := if e = tFX then roundInt (modeRm mode) v 16 else v

/-- ADD (R109). -/
def execAdd (d a b : Sel) (s : State) : Out :=
  s.word (.add d a b) fun i => i.lane2 (.add d a b) setA true false d a b false fun e x y =>
    elems2 e x y fun x y => fitElem i.mode e (elemInt e x + elemInt e y)
/-- SUB (R109). -/
def execSub (d a b : Sel) (s : State) : Out :=
  s.word (.sub d a b) fun i => i.lane2 (.sub d a b) setA true false d a b false fun e x y =>
    elems2 e x y fun x y => fitElem i.mode e (elemInt e x - elemInt e y)
/-- MUL (R109, R69). -/
def execMul (d a b : Sel) (s : State) : Out :=
  s.word (.mul d a b) fun i => i.lane2 (.mul d a b) setA true false d a b false fun e x y =>
    elems2 e x y fun x y => fitElem i.mode e (scaleProd i.mode e (elemInt e x * elemInt e y))
/-- MULHI (R109): the high half of the product, floor(x · y / 2^w). -/
def execMulhi (d a b : Sel) (s : State) : Out :=
  s.word (.mulhi d a b) fun i => i.lane2 (.mulhi d a b) setZ true false d a b false fun e x y =>
    elems2 e x y fun x y => fitInt false e (elemInt e x * elemInt e y / 2 ^ widthOf e)
/-- MAD (R109, R69): the range rule applies once, to the whole sum. -/
def execMad (d a b : Sel) (s : State) : Out :=
  s.word (.mad d a b) fun i => i.lane3 (.mad d a b) setA true false d a b some fun e x y z =>
    elems3 e x y z fun x y z =>
      let one : Int := if e = tFX then 65536 else 1
      fitElem i.mode e (scaleProd i.mode e (elemInt e x * elemInt e y + elemInt e z * one))
/-- MIN (R109). -/
def execMin (d a b : Sel) (s : State) : Out :=
  s.word (.min d a b) fun i => i.lane2 (.min d a b) setA true false d a b false fun e x y =>
    elems2 e x y fun x y => if elemInt e y < elemInt e x then y else x
/-- MAX (R109). -/
def execMax (d a b : Sel) (s : State) : Out :=
  s.word (.max d a b) fun i => i.lane2 (.max d a b) setA true false d a b false fun e x y =>
    elems2 e x y fun x y => if elemInt e x < elemInt e y then y else x
/-- ABSD (R109). -/
def execAbsd (d a b : Sel) (s : State) : Out :=
  s.word (.absd d a b) fun i => i.lane2 (.absd d a b) setA true false d a b false fun e x y =>
    elems2 e x y fun x y => fitElem i.mode e ((elemInt e x - elemInt e y).natAbs : Int)

/-- AND (R109). -/
def execAnd (d a b : Sel) (s : State) : Out :=
  s.word (.and d a b) fun i => i.lane2 (.and d a b) setAny false false d a b true fun _ x y => x &&& y
/-- OR (R109). -/
def execOr (d a b : Sel) (s : State) : Out :=
  s.word (.or d a b) fun i => i.lane2 (.or d a b) setAny false false d a b true fun _ x y => x ||| y
/-- XOR (R109). -/
def execXor (d a b : Sel) (s : State) : Out :=
  s.word (.xor d a b) fun i => i.lane2 (.xor d a b) setAny false false d a b true fun _ x y => x ^^^ y
/-- ANDN (R109). -/
def execAndn (d a b : Sel) (s : State) : Out :=
  s.word (.andn d a b) fun i => i.lane2 (.andn d a b) setAny false false d a b true fun _ x y => x &&& ~~~y
/-- NOT (R109). -/
def execNot (d a : Sel) (s : State) : Out :=
  s.word (.not d a) fun i => i.lane1 (.not d a) setAny false d a true fun _ x => ~~~x

/-- A shift amount: the whole 32-bit b of the lane modulo the element width (R109). -/
def shiftBy (e : Nat) (y : Word) : Nat := y.toNat % widthOf e

/-- SHL (R109). -/
def execShl (d a b : Sel) (s : State) : Out :=
  s.word (.shl d a b) fun i => i.lane2 (.shl d a b) setA false true d a b true fun e x y =>
    elems1 e x fun x => x * 2 ^ shiftBy e y % 2 ^ widthOf e
/-- SHR (R109). -/
def execShr (d a b : Sel) (s : State) : Out :=
  s.word (.shr d a b) fun i => i.lane2 (.shr d a b) setA false true d a b true fun e x y =>
    elems1 e x fun x => x / 2 ^ shiftBy e y
/-- SAR (R109): copies of the sign bit of the element shift in. -/
def execSar (d a b : Sel) (s : State) : Out :=
  s.word (.sar d a b) fun i => i.lane2 (.sar d a b) setA false true d a b true fun e x y =>
    elems1 e x fun x =>
      let w := widthOf e
      let v : Int := if 2 ^ (w - 1) ≤ x then (x : Int) - 2 ^ w else x
      (v / 2 ^ shiftBy e y % 2 ^ w).toNat
/-- ROL (R109). -/
def execRol (d a b : Sel) (s : State) : Out :=
  s.word (.rol d a b) fun i => i.lane2 (.rol d a b) setA false true d a b true fun e x y =>
    elems1 e x fun x =>
      let n := shiftBy e y
      x * 2 ^ n % 2 ^ widthOf e + x / 2 ^ (widthOf e - n)

/-- The tag check of a funnel shift's sources (R110): I32, N32 or RAW. -/
def Issue.checkW (i : Issue) (x : Sel) : Except Trap Unit :=
  match (i.val x).tag with
  | some t => if t = tI32 ∨ t = tN32 ∨ t = tRAW then .ok () else .error (i.trap clsFormat i.lowActing)
  | none => .ok ()

/-- The funnel shifts' common part (R110). -/
def Issue.funnel (i : Issue) (ins : Instr) (d a b : Sel) (f : Word → Word → Nat → Word) : Except Trap Issue := do
  let e ← i.etype a
  i.need (setW e)
  i.checkW a
  i.checkW d
  let x ← i.src e a
  let y ← i.count b
  let z := i.val d
  let m ← i.active
  .ok (i.put ins d m e (lanesFrom fun l => f (z.at l) (x.at l) ((y.at l).toNat % 32)) (x.pois ||| y.pois ||| z.pois))

/-- FSHL (R110). -/
def execFshl (d a b : Sel) (s : State) : Out :=
  s.word (.fshl d a b) fun i => i.funnel (.fshl d a b) d a b fun z x n => if n = 0 then z else (z <<< n) ||| (x >>> (32 - n))
/-- FSHR (R110). -/
def execFshr (d a b : Sel) (s : State) : Out :=
  s.word (.fshr d a b) fun i => i.funnel (.fshr d a b) d a b fun z x n => if n = 0 then z else (z >>> n) ||| (x <<< (32 - n))

/-- LUT3 (R111): bit j is bit d[j]·4 + a[j]·2 + b[j] of MODE.LUT. -/
def execLut3 (d a b : Sel) (s : State) : Out :=
  s.word (.lut3 d a b) fun i => i.lane3 (.lut3 d a b) setAny false false d a b (fun _ => none) fun _ x y z =>
    maskOf fun j =>
      let n (v : Word) : Nat := if v.getLsbD j then 1 else 0
      modeLut i.mode / 2 ^ (n z * 4 + n x * 2 + n y) % 2 == 1

/-- CLZ (R109): leading zero bits of the element. -/
def execClz (d a : Sel) (s : State) : Out :=
  s.word (.clz d a) fun i => i.lane1 (.clz d a) setZ true d a false fun e x =>
    elems1 e x fun x => if x = 0 then widthOf e else widthOf e - 1 - Nat.log2 x
/-- FFS (R109): index of the least significant 1. -/
def execFfs (d a : Sel) (s : State) : Out :=
  s.word (.ffs d a) fun i => i.lane1 (.ffs d a) setZ true d a false fun e x =>
    elems1 e x fun x => ((List.range (widthOf e)).find? fun k => x / 2 ^ k % 2 == 1).getD (widthOf e)
/-- POPC (R109): number of 1 bits. -/
def execPopc (d a : Sel) (s : State) : Out :=
  s.word (.popc d a) fun i => i.lane1 (.popc d a) setZ true d a false fun e x =>
    elems1 e x fun x => ((List.range (widthOf e)).filter fun k => x / 2 ^ k % 2 == 1).length
/-- BREV (R109): bits of the element in reverse order. -/
def execBrev (d a : Sel) (s : State) : Out :=
  s.word (.brev d a) fun i => i.lane1 (.brev d a) setZ true d a false fun e x =>
    elems1 e x fun x => (List.range (widthOf e)).foldl (fun acc k => 2 * acc + x / 2 ^ k % 2) 0

/-- The position and width of a bit field (R112). -/
def fieldPos (y : Word) : Nat := bits y 4 0
def fieldLen (y : Word) : Nat := min (bits y 12 8) (32 - fieldPos y)

/-- BFX (R112). -/
def execBfx (d a b : Sel) (s : State) : Out :=
  s.word (.bfx d a b) fun i => i.lane2 (.bfx d a b) setW true true d a b false fun e x y =>
    let n := fieldLen y
    let f := x.toNat / 2 ^ fieldPos y % 2 ^ n
    if n = 0 then 0#32 else if e = tI32 then sext (BitVec.ofNat 32 f) n else BitVec.ofNat 32 f
/-- BFI (R112). -/
def execBfi (d a b : Sel) (s : State) : Out :=
  s.word (.bfi d a b) fun i => i.lane3 (.bfi d a b) setW true true d a b some fun _ x y z =>
    let n := fieldLen y
    let p := fieldPos y
    if n = 0 then z else putBits z (p + n - 1) p (x.toNat % 2 ^ n)

/-- CMPEQ (R113). -/
def execCmpeq (d a b : Sel) (s : State) : Out :=
  s.word (.cmpeq d a b) fun i => i.compare (.cmpeq d a b) setA d a b fun _ x y => x == y
/-- CMPNE (R113): every element differs. -/
def execCmpne (d a b : Sel) (s : State) : Out :=
  s.word (.cmpne d a b) fun i => i.compare (.cmpne d a b) setA d a b fun _ x y => x != y
/-- CMPLT (R113). -/
def execCmplt (d a b : Sel) (s : State) : Out :=
  s.word (.cmplt d a b) fun i => i.compare (.cmplt d a b) setA d a b fun e x y => decide (elemInt e x < elemInt e y)
/-- CMPLE (R113). -/
def execCmple (d a b : Sel) (s : State) : Out :=
  s.word (.cmple d a b) fun i => i.compare (.cmple d a b) setA d a b fun e x y => decide (elemInt e x ≤ elemInt e y)

/-- SEL (R114): acts in every lane of the mask; a where p[GP] is set, b where it is clear. -/
def execSel (d a b : Sel) (s : State) : Out :=
  s.word (.sel d a b) fun i => do
    let e ← i.etype a
    let x ← i.src e a
    let y ← i.src e b
    let _ ← i.active
    let g := i.guard.val
    .ok (i.put (.sel d a b) d i.mask (passTag a x e) (lanesFrom fun l => if g.getLsbD l then x.at l else y.at l)
      (((x.pois &&& g) ||| (y.pois &&& ~~~g)) ||| i.guard.pois))

/-- The accumulator type of sad (R115). -/
def sadType (e : Nat) : Nat :=
  if e = tFX then tFX else if signedT e then tI32 else tN32

/-- SAD (R115): a sum of absolute differences into the 32-bit accumulator d. -/
def execSad (d a b : Sel) (s : State) : Out :=
  s.word (.sad d a b) fun i => i.lane3 (.sad d a b) setA true false d a b (fun e => some (sadType e)) fun e x y z =>
    let c := sadType e
    let w := widthOf e
    let v : Int := (List.range (countOf e)).foldl
      (fun (acc : Int) k => acc + ((elemInt e (elemAt x w k) - elemInt e (elemAt y w k)).natAbs : Int)) (intOf c 32 z.toNat)
    BitVec.ofNat 32 (fitElem i.mode c v)

end Sys2Proof.Machine
end

