-- ==== Sys2Proof/Machine/CrossLane.lean ====
section
/-! DEFINITION. Meanings of the cross-lane words (R130 to R136). -/

namespace Sys2Proof.Machine

/-- A lane value and its poison as a group-wide shuffle reads lane j (R130): the scene buffer's in an active lane, the
last committed value in any other, so too of a scalar that the scene has written (R19 against R20 and R38; DEDUCED, log 88). -/
def groupRead (x old : Val) (m : Word) (j : Nat) : Word × Bool :=
  if m.getLsbD j then (x.at j, x.pois.getLsbD j) else (old.at j, old.pois.getLsbD j)

/-- QSHF (R131): a of lane 4q + (b mod 4). -/
def execQshf (d a b : Sel) (s : State) : Out :=
  s.word (.qshf d a b) fun i => do
    let e ← i.etype a
    let x ← i.src e a
    let y ← i.count b
    let m ← i.active
    let rd (l : Nat) : Word × Bool :=
      i.quadRead x (match a with | .k _ => x | _ => s.committed a) m (l / 4 * 4 + (y.at l).toNat % 4)
    .ok (i.put (.qshf d a b) d m (passTag a x e) (lanesFrom fun l => (rd l).1)
      (maskOf fun l => (rd l).2 || y.pois.getLsbD l))

/-- The committed value of a source for lanes that do not act; constants have one value. -/
def State.oldOf (s : State) (a : Sel) (x : Val) : Val :=
  match a with
  | .k _ => x
  | _ => s.committed a

/-- QSWP (R131): a of lane l XOR m. -/
def execQswp (d a b : Sel) (s : State) : Out :=
  s.word (.qswp d a b) fun i => do
    let e ← i.etype a
    let x ← i.src e a
    let y ← i.count b
    let n := (y.at 0).toNat
    i.need (decide (1 ≤ n) && decide (n ≤ 3))
    let m ← i.active
    let rd (l : Nat) : Word × Bool := i.quadRead x (s.oldOf a x) m (l ^^^ n)
    .ok (i.put (.qswp d a b) d m (passTag a x e) (lanesFrom fun l => (rd l).1) (maskOf fun l => (rd l).2))

/-- The types of a function of R133's table. -/
def redSet (f e : Nat) : Bool := if f < 3 then setA e || setF e else setAny e

/-- The tag check and the tag of a function of R133's table. -/
def redTag (f : Nat) (a : Sel) (x : Val) (e : Nat) : Nat := if f < 3 then e else passTag a x e

/-- Two lanes combined under a floating-point or order or logic function (R133). -/
def Issue.combine (i : Issue) (f e : Nat) (x y : Word) : Word :=
  match f with
  | 0 => if setF e then elems2 e x y fun x y => i.fm.add e x y
         else elems2 e x y fun x y => fitElem i.mode e (elemInt e x + elemInt e y)
  | 1 => if setF e then elems2 e x y fun x y => i.fm.minMax false e x y
         else elems2 e x y fun x y => if elemInt e y < elemInt e x then y else x
  | 2 => if setF e then elems2 e x y fun x y => i.fm.minMax true e x y
         else elems2 e x y fun x y => if elemInt e x < elemInt e y then y else x
  | 3 => x &&& y
  | 4 => x ||| y
  | _ => x ^^^ y

/-- The identity of a function (R133). -/
def redIdentity (f e : Nat) : Word :=
  match f with
  | 1 => elems1 e 0#32 fun _ => if setF e then (fmtOf e).infinity false else (maxOf e % 2 ^ widthOf e).toNat
  | 2 => elems1 e 0#32 fun _ => if setF e then (fmtOf e).infinity true else (minOf e % 2 ^ widthOf e).toNat
  | 3 => BitVec.allOnes 32
  | _ => 0#32

/-- Integer and FX32 add over a list of lanes: exact, R68 once (R133). -/
def Issue.sumLanes (i : Issue) (e : Nat) (xs : List Word) : Word :=
  joinElems (widthOf e) (countOf e) fun k =>
    fitElem i.mode e (xs.foldl (fun (acc : Int) x => acc + elemInt e (elemAt x (widthOf e) k)) 0)

/-- A function over a list of lanes in order, other than floating-point add (R133). -/
def Issue.foldLanes (i : Issue) (f e : Nat) (xs : List Word) : Word :=
  if f = 0 then i.sumLanes e xs
  else
    match xs with
    | [] => redIdentity f e
    | x :: r => r.foldl (i.combine f e) x

/-- Two possibly absent lanes combined. -/
def joinOpt (g : Word → Word → Word) : Option Word → Option Word → Option Word
  | some x, some y => some (g x y)
  | some x, none => some x
  | none, y => y

/-- The steps of R133's floating-point add: at step k lane l takes in lane src k l; absent lanes are skipped. -/
def treeSteps (g : Word → Word → Word) (src : Nat → Nat → Option Nat) : List Nat → List (Option Word) → List (Option Word)
  | [], xs => xs
  | k :: r, xs =>
    treeSteps g src r ((List.range 32).map fun l =>
      match src k l with
      | some j => joinOpt g (xs.getD l none) (xs.getD j none)
      | none => xs.getD l none)

/-- A lane as a function of R133 takes it in: a floating-point element of add, min and max reads as the default NaN of its format
(R71) and flushed under FTZ (R72), also where it is the only lane combined (DEDUCED, log 63). -/
def Issue.taken (i : Issue) (f e : Nat) (x : Word) : Word :=
  if f < 3 ∧ setF e = true then
    elems1 e x fun k => if ((fmtOf e).decode (modeFtz i.mode) k).isNan then (fmtOf e).nan else (fmtOf e).flushed (modeFtz i.mode) k
  else x

/-- The lanes of a source that act, absent elsewhere. -/
def presentLanes (x : Val) (m : Word) : List (Option Word) :=
  (List.range 32).map fun l => if m.getLsbD l then some (x.at l) else none

/-- The reduction of the active lanes (R133). -/
def Issue.reduce (i : Issue) (f e : Nat) (x : Val) (m : Word) : Word :=
  if f = 0 ∧ setF e = true then
    ((treeSteps (i.combine 0 e) (fun k l => some (l ^^^ 2 ^ k)) [0, 1, 2, 3, 4] ((presentLanes x m).map (·.map (i.taken 0 e)))).getD 0 none).getD 0#32
  else i.foldLanes f e ((lanesOf m).map fun l => i.taken f e (x.at l))

/-- The inclusive prefixes of the active lanes (R133). -/
def Issue.prefixes (i : Issue) (f e : Nat) (x : Val) (m : Word) : List Word :=
  if f = 0 ∧ setF e = true then
    (treeSteps (i.combine 0 e) (fun k l => if 2 ^ k ≤ l then some (l - 2 ^ k) else none) [0, 1, 2, 3, 4]
      ((presentLanes x m).map (·.map (i.taken 0 e)))).map fun o => o.getD 0#32
  else (List.range 32).map fun l => i.foldLanes f e (((lanesOf m).filter fun j => decide (j ≤ l)).map fun j => i.taken f e (x.at j))

/-- QRED (R131): a function of R133 over the quad, (lane 0 with 1) with (lane 2 with 3). The add of an integer or FX32 type is one exact sum
with the range rule once, as R133 says of reductions (R131's pairs would saturate twice; DEDUCED, log 89). -/
def execQred (d a b : Sel) (s : State) : Out :=
  s.word (.qred d a b) fun i => do
    let e ← i.etype a
    let y ← i.count b
    let f := (y.at 0).toNat
    i.need (decide (f ≤ 5) && redSet f e)
    if f < 3 then i.checkTag e a
    let x ← i.src e a
    let m ← i.active
    let rd (j : Nat) : Word × Bool := i.quadRead x (s.oldOf a x) m j
    let res (l : Nat) : Word :=
      let q := l / 4 * 4
      let v (k : Nat) : Word := (rd (q + k)).1
      if f = 0 ∧ setF e = false then i.sumLanes e [v 0, v 1, v 2, v 3]
      else i.combine f e (i.combine f e (v 0) (v 1)) (i.combine f e (v 2) (v 3))
    .ok (i.put (.qred d a b) d m (redTag f a x e) (lanesFrom res)
      (maskOf fun l => (List.range 4).any fun k => (rd (l / 4 * 4 + k)).2))

/-- The common part of the group-wide shuffles (R130, R132): lane l receives a of lane src l b_l, with that lane's poison; withB adds
the poison of b in lane l (shfi alone). A scalar b's poison is not taken: R49 counts a scalar source as read by every lane, and the poison
rules of R108 and R131 to R134 leave the scalar operand out (DEDUCED, log 85: the rules of the words are followed, here and in qswp, qred,
bcst, redx, scanx, vote and retag). -/
def Issue.shuffle (i : Issue) (s : State) (ins : Instr) (d a b : Sel) (withB : Bool) (ok : Nat → Bool)
    (src : Nat → Nat → Nat) : Except Trap Issue := do
  let e ← i.etype a
  let x ← i.src e a
  let y ← i.count b
  i.need (ok (y.at 0).toNat)
  let m ← i.active
  let rd (l : Nat) : Word × Bool := groupRead x (s.oldOf a x) m (src l (y.at l).toNat)
  .ok (i.put ins d m (passTag a x e) (lanesFrom fun l => (rd l).1)
    (maskOf fun l => (rd l).2 || (withB && y.pois.getLsbD l)))

/-- A count n of shfx, shfu and shfd: 1 to log2 W (R132). -/
def countOk (n : Nat) : Bool := decide (1 ≤ n) && decide (n ≤ 5)

/-- SHFI (R132). -/
def execShfi (d a b : Sel) (s : State) : Out :=
  s.word (.shfi d a b) fun i => i.shuffle s (.shfi d a b) d a b true (fun _ => true) fun _ n => n % 32
/-- SHFX (R132). -/
def execShfx (d a b : Sel) (s : State) : Out :=
  s.word (.shfx d a b) fun i => i.shuffle s (.shfx d a b) d a b false countOk fun l n => l ^^^ (32 / 2 ^ n)
/-- SHFU (R132). -/
def execShfu (d a b : Sel) (s : State) : Out :=
  s.word (.shfu d a b) fun i => i.shuffle s (.shfu d a b) d a b false countOk fun l n =>
    if 32 / 2 ^ n ≤ l then l - 32 / 2 ^ n else l
/-- SHFD (R132). -/
def execShfd (d a b : Sel) (s : State) : Out :=
  s.word (.shfd d a b) fun i => i.shuffle s (.shfd d a b) d a b false countOk fun l n =>
    if l + 32 / 2 ^ n < 32 then l + 32 / 2 ^ n else l
/-- BCST (R132). -/
def execBcst (d a b : Sel) (s : State) : Out :=
  s.word (.bcst d a b) fun i => i.shuffle s (.bcst d a b) d a b false (fun _ => true) fun _ n => n % 32

/-- REDX (R133): over the active lanes; a scalar d is written whenever the mask is not empty, a v or t d in the mask, its tag
with it also when no lane acts (DEDUCED, log 62: R133's "written in every lane of the fragment's mask" over R46). -/
def execRedx (d a b : Sel) (s : State) : Out :=
  s.word (.redx d a b) fun i => do
    let e ← i.etype a
    let y ← i.count b
    let f := (y.at 0).toNat
    i.need (decide (f ≤ 5) && redSet f e)
    if f < 3 then i.checkTag e a
    let x ← i.src e a
    let m ← i.active
    let r := i.reduce f e x m
    let p := (x.pois &&& m) != 0#32
    match d with
    | .s n => .ok (i.putUniform n.toNat r p)
    | _ => .ok (i.put (.redx d a b) d i.mask (redTag f a x e) (lanesAll r) (allPois p))

/-- SCANX (R133): inclusive prefixes in active lanes, exclusive ones in the other lanes of the mask; the tag is written also when
no lane acts (DEDUCED, log 62). -/
def execScanx (d a b : Sel) (s : State) : Out :=
  s.word (.scanx d a b) fun i => do
    let e ← i.etype a
    let y ← i.count b
    let f := (y.at 0).toNat
    i.need (decide (f ≤ 5) && redSet f e)
    if f < 3 then i.checkTag e a
    let x ← i.src e a
    let m ← i.active
    let r := i.prefixes f e x m
    let p := maskOf fun l => (lanesOf (x.pois &&& m)).any fun j => decide (j ≤ l)
    .ok (i.put (.scanx d a b) d i.mask (redTag f a x e) (lanesFrom fun l => r.getD l 0#32) p)

/-- BALLOT (R134). Its entry names no type, so no effective type is formed: under ET = TAG a source tagged RAW is read as any
other (DEDUCED, log 62; vote the same). -/
def execBallot (d a : Sel) (s : State) : Out :=
  s.word (.ballot d a) fun i => do
    let x := i.val a
    let m ← i.active
    match d with
    | .s n => .ok (i.putUniform n.toNat (nonzeroLanes x.lanes &&& m) ((x.pois &&& m) != 0#32))
    | _ => .ok i

/-- The result of a vote over the active lanes (R134). -/
def voteResult (f : Nat) (ones m : Word) : Bool :=
  match f with
  | 0 => ones != 0#32
  | 1 => ones == m
  | 2 => ones == 0#32
  | _ => ones == 0#32 || ones == m

/-- VOTE (R134): written whenever the mask is not empty; no effective type is formed but for a constant a (DEDUCED, log 62). -/
def execVote (d a b : Sel) (s : State) : Out :=
  s.word (.vote d a b) fun i => do
    let x ← match a with
      | .k _ => i.src (← i.etype a) a
      | _ => .ok (i.val a)
    let y ← i.count b
    let f := (y.at 0).toNat
    i.need (decide (f ≤ 3))
    let m ← i.active
    let r := voteResult f (nonzeroLanes x.lanes &&& m) m
    let p := (x.pois &&& m) != 0#32
    match d with
    | .s n => .ok (i.putUniform n.toNat (if r then 1#32 else 0#32) p)
    | _ => .ok (i.put (.vote d a b) d i.mask tRAW (lanesAll (if r then 1#32 else 0#32)) (allPois p))

/-- Whether two keys are equal under a type (R135). -/
def keysEqual (e : Nat) (x y : Word) : Bool :=
  if setF e || setF8 e then
    (List.range (countOf e)).all fun k =>
      ((fmtOf e).decode false (elemAt x (widthOf e) k)).eqv ((fmtOf e).decode false (elemAt y (widthOf e) k))
  else x == y

/-- MATCH (R135): the mask of active lanes with an equal key; a lane is always in its own. -/
def execMatchLanes (d a : Sel) (s : State) : Out :=
  s.word (.matchLanes d a) fun i => do
    let e ← i.etype a
    i.checkTag e a
    let x ← i.src e a
    let m ← i.active
    let r (l : Nat) : Word := maskOf fun j => m.getLsbD j && (j == l || keysEqual e (x.at l) (x.at j))
    .ok (i.put (.matchLanes d a) d m tRAW (lanesFrom r) (allPois ((x.pois &&& m) != 0#32)))

/-- ELECT (R136): the lowest-numbered active lane. -/
def execElect (d : Sel) (s : State) : Out :=
  s.word (.elect d) fun i => do
    let m ← i.active
    match d with
    | .s n => if m = 0#32 then .ok i else .ok (i.putUniform n.toNat (BitVec.ofNat 32 (lowLane m)) false)
    | _ => .ok (i.put (.elect d) d i.mask tRAW (maskLanes (maskOf fun l => m != 0#32 && l == lowLane m)) 0#32)

end Sys2Proof.Machine
end

