-- ==== Sys2Proof/Machine/Regs.lean ====
section
/-! DEFINITION. The system registers: reading, legality of a value, writing, and what writes set off (R303 to R306,
R372 to R381, R392, R414); quarantine and health; quiesce, rebase, shootdowns and parks (R331, R332, R345). -/

namespace Sys2Proof.Machine

/-- A field of a health word replaced. -/
def setField (x : Word) (hi lo v : Nat) : Word :=
  BitVec.ofNat 32 (x.toNat - bits x hi lo * 2 ^ lo + v % 2 ^ (hi + 1 - lo) * 2 ^ lo)

/-- A new margin window with WINCNT 0 (R374, R375). -/
def CoreState.newWindow (c : CoreState) (clk : Nat) : CoreState :=
  { c with ltecnt := setField c.ltecnt 15 0 0, winStart := clk }

/-- The windows that have ended by a clock passed (R374): each starts where the one before it ends. -/
def CoreState.rollWindow (c : CoreState) (clk : Nat) : CoreState :=
  let w := clksOfUs (bits c.ltewin 19 0)
  if 0 < w ∧ c.winStart + w ≤ clk then c.newWindow (c.winStart + (clk - c.winStart) / w * w) else c

/-- A core's system register, or its die's, by number (R303); none where R303 lists no register. -/
def State.readReg (s : State) (core n : Nat) : Option Word :=
  let c := s.core core
  let d := dieOfCore core
  let x := s.die d
  match n with
  | 0x000 => some (BitVec.ofNat 32 (0x07681000 + d))
  | 0x001 => some 0x400#32
  | 0x002 => some c.partid
  | 0x003 => some c.ptroot
  | 0x004 => some c.ctxbase
  | 0x005 => some c.trapvec
  | 0x010 => some c.margin
  | 0x011 => some (c.rollWindow s.clk).ltecnt
  | 0x012 => some c.ltelim
  | 0x013 => some c.ltewin
  | 0x014 => some c.quar
  | 0x018 => some c.gcwin
  | 0x020 => some x.combwin
  | 0x021 => some x.combtest
  | 0x022 => some x.fabstat
  | 0x028 => some x.lease
  | 0x030 => some x.health
  | _ => none

/-- The registers a system-level group may write (R303, column S). -/
def groupWritable (n : Nat) : Bool := [0x010, 0x012, 0x013, 0x018, 0x020, 0x021, 0x028].contains n

/-- The registers a control core may write (R303, column CC). -/
def hartWritable (n : Nat) : Bool :=
  [0x002, 0x003, 0x004, 0x005, 0x010, 0x011, 0x012, 0x013, 0x014, 0x018, 0x020, 0x021, 0x022, 0x028, 0x030].contains n

/-- Whether a value may be written to a register (R304, R372, R379, R392): zero fields zero, no illegal value. -/
def regValueOk (max n : Nat) (x : Word) : Bool :=
  match n with
  | 0x002 => bits x 31 4 == 0
  | 0x003 => true
  | 0x004 => true
  | 0x005 => bits x 31 19 == 0 && !bitOf x 15 && !bitOf x 0
  | 0x010 => decide (bits x 7 0 ≤ max)
  | 0x011 => true
  | 0x012 => bits x 31 16 == 0 && bits x 15 0 != 0
  | 0x013 => bits x 31 20 == 0 && decide (1 ≤ bits x 19 0) && decide (bits x 19 0 ≤ 1000000)
  | 0x014 => bits x 31 3 == 0
  | 0x018 => bits x 31 7 == 0 && decide (bits x 6 0 ≤ 64)
  | 0x020 => bits x 31 9 == 0 && !bitOf x 7 && decide (bits x 6 0 ≤ 64)
  | 0x021 => bits x 31 24 == 0 && bits x 15 14 == 0 && bits x 7 2 == 0 && bits x 13 12 != 3
  | 0x022 => true
  | 0x028 => bits x 31 8 == 0 && bits x 7 0 != 0
  | 0x030 => bits x 30 27 == 0
  | _ => false

/-- The MAX field of a core's MARGIN (R372). -/
def State.marginMax (s : State) (core : Nat) : Nat := bits (s.core core).margin 15 8

/-- Clusters of a partition, ascending: those whose cores' PARTID name it (R301, R304). -/
def State.partClusters (s : State) (part : Nat) : List Nat :=
  (List.range Config.clusters).filter fun k =>
    let c := s.core (8 * k)
    bitOf c.partid 3 && bits c.partid 2 0 == part

/-- The partition that owns a core, if one does (R304). -/
def State.corePart (s : State) (core : Nat) : Option Nat :=
  let c := s.core core
  if bitOf c.partid 3 then some (bits c.partid 2 0) else none

def State.quarantined (s : State) (core : Nat) : Bool := bitOf (s.core core).quar 0

/-- Whether UFRAC selects a block of a gang (R318, R358). -/
def Book.understudied (b : Book) (gangNo : Nat) : Bool :=
  (List.range b.bpg).any fun i => decide ((gangNo * b.bpg + i) % 128 < b.ufrac)

/-- Clusters of a partition with k consecutive cores that are not quarantined and whose die lives (R377). -/
def State.fitting (s : State) (part k : Nat) : List Nat :=
  (s.partClusters part).filter fun cl =>
    !(s.die (dieOfCluster cl)).failed &&
      (List.range (9 - k)).any fun o => (List.range k).all fun i => !s.quarantined (8 * cl + o + i)

/-- The resource check of R319 that R377 repeats: one gang fits, with its understudy on another cluster. -/
def State.fits (s : State) (part : Nat) (b : Book) : Bool :=
  let n := (s.fitting part b.gangCores).length
  decide (b.gangCores ≤ 8) && decide ((if b.ufrac = 0 then 1 else 2) ≤ n)

/-- The conditions of R380 over HEALTH's other fields; REPLACE is due where one holds. -/
def replaceCauses (h : Word) : List Bool :=
  [decide (8 < bits h 7 0), decide (4 < bits h 12 8), decide (32 < bits h 20 13), bitOf h 25, bitOf h 26, bits h 12 8 == 31, bits h 20 13 == 255]
def replaceDue (h : Word) : Bool := (replaceCauses h).contains true

/-- A HEALTH value that a control core writes over another (R379, R380): a condition that comes to hold by it sets REPLACE; one that held
before lets the write clear REPLACE (DEDUCED, log 80). -/
def healthWritten (old x : Word) : Word :=
  if ((replaceCauses old).zip (replaceCauses x)).contains (false, true) then setBit x 31 true else x

/-- HEALTH of a die takes a value (R379). -/
def State.setHealth (s : State) (d : Nat) (h : Word) : State := s.updDie d fun x => { x with health := h }

/-- HEALTH of a die changes by f, and REPLACE is set where R380 asks (R379, R380; what a write has cleared stays so until the next change,
DEDUCED, log 80). -/
def State.healthEvent (s : State) (d : Nat) (f : Word → Word) : State :=
  let h := f (s.die d).health
  s.setHealth d (if replaceDue h then setBit h 31 true else h)

/-- The interrupts of one event that has changed HEALTH registers (R381): each partition with EN set takes one where a core of it was
quarantined or released, REPLACE became set on a die, or a die serving it changed LINKLOST or DIELOST. -/
def State.alarm (s old : State) (part : Option Nat) : State :=
  let replaced := (List.range 4).any fun d => bitOf (s.die d).health 31 && !bitOf (old.die d).health 31
  let linked (p : Nat) : Bool := (s.partClusters p).any fun k =>
    bits (s.die (dieOfCluster k)).health 26 25 != bits (old.die (dieOfCluster k)).health 26 25
  (List.range 8).foldl (fun t p =>
    let r := (t.part p).hlthctl
    if bitOf r 27 && (replaced || part == some p || linked p) then t.send (.interrupt (bits r 3 0) (bits r 26 16)) else t) s

/-- A margin-log entry of a core (R378). -/
def State.logMargin (s : State) (core kind : Nat) : State :=
  let d := dieOfCore core
  let e : BitVec 64 := BitVec.ofNat 64
    (nsOfClk s.clk % 2 ^ 40 * 2 ^ 24 + bits (s.core core).margin 7 0 * 4096 + kind * 256 + core % 192)
  s.updDie d fun x => { x with log := tset x.log (x.logCount.toNat % 64) e, logCount := x.logCount + 1#32 }

/-- A gang's groups are asked to stop at their boundaries (R27, R328). -/
def State.askEvict (s : State) (k : Nat) : State :=
  match s.gang k with
  | none => s
  | some gang =>
    let ks := k :: gang.twin.toList
    let s : State := { s with
      gangs := updAll (fun g => ks.contains g.id && g.place == .placed) (fun g => { g with place := .evicting }) s.gangs
      groups := updAll (fun g => ks.contains g.gang && g.place != .ended) (fun g => { g with preempt := true }) s.groups }
    s.settleGang k

/-- Launches of a partition that no longer fit are killed and complete REFUSED (R377). -/
def State.recheck (s : State) (part : Nat) : State :=
  ((s.launches.filter fun l => l.part == part && !l.complete && !l.ending && !s.fits part l.book).map (·.id)).foldl
    (fun s l => s.endLaunch l 1 0) s

/-- A core's quarantine takes hold (R376, R377, R379): QCORES rises, its gangs are evicted, launches are rechecked. -/
def State.quarantine (s : State) (core : Nat) : State :=
  let d := dieOfCore core
  let s : State := (s.healthEvent d fun h => setField h 7 0 (min (bits h 7 0 + 1) 192)).alarm s (s.corePart core)
  let s : State := ((s.gangs.filter fun g => g.cores.contains core && g.place != .ended).map (·.id)).foldl State.askEvict s
  match s.corePart core with
  | some p => s.recheck p
  | none => s

/-- One late-transition event of a core or its engine counted in the window that it falls in (R374). -/
def State.countLte (s : State) (core : Nat) : State :=
  let s : State := s.updCore core fun c => c.rollWindow s.clk
  let s : State := s.updCore core fun c => { c with ltecnt := setField c.ltecnt 15 0 (min (bits c.ltecnt 15 0 + 1) 65535) }
  let c := s.core core
  if bits c.ltecnt 15 0 ≤ bits c.ltelim 15 0 then s
  else if 0 < bits c.margin 7 0 then
    let s : State := s.updCore core fun c =>
      { (c.newWindow s.clk) with
        margin := setField c.margin 7 0 (bits c.margin 7 0 - 1)
        ltecnt := setField (setField c.ltecnt 15 0 0) 31 16 (min (bits c.ltecnt 31 16 + 1) 65535) }
    s.logMargin core 1
  else if bitOf c.quar 0 = false then
    let s : State := s.updCore core fun c => { c with quar := 3#32, ltecnt := setField c.ltecnt 15 0 0 }
    (s.logMargin core 2).quarantine core
  else s.updCore core fun c => { c with ltecnt := setField c.ltecnt 15 0 0 }

/-- A switch loses every record and table entry and resends what it holds uncombined (R390). -/
def State.resetSwitch (s : State) (d stage sw : Nat) : State :=
  let here (h : Hop) : Bool := h.die == d && h.stage == stage && h.sw == sw
  let freed (p : Packet) : Packet :=
    match p.path with
    | h :: _ => if p.held && here h then { p with held := false, ready := true } else p
    | [] => p
  { s with recs := s.recs.filter (fun r => !here r.at_), pkts := s.pkts.map freed }

/-- A COMBTEST value written (R392): MODE 3 resets the switch once and sets COUNT to 0. -/
def State.writeCombtest (s : State) (d : Nat) (x : Word) : State :=
  if bits x 1 0 = 3 then
    (s.updDie d fun y => { y with combtest := setField x 23 16 0 }).resetSwitch d (bits x 13 12) (bits x 11 8)
  else s.updDie d fun y => { y with combtest := x }

/-- A core's live root is its partition's agents' root (log 14). -/
def State.noteRoot (s : State) (core : Nat) : State :=
  let c := s.core core
  if bitOf c.partid 3 && c.ptroot != 0#32 then
    s.updPart (bits c.partid 2 0) fun p => { p with agentRoot := c.ptroot }
  else s

/-- A legal value written to a core's register, or its die's, by a group or a control core (R306, R372, R377, R379). -/
def State.writeReg (s : State) (core n : Nat) (x : Word) : State :=
  let d := dieOfCore core
  match n with
  | 0x002 => (s.updCore core fun c => { c with partid := x, tlb := [] }).noteRoot core
  | 0x003 => (s.updCore core fun c => { c with ptroot := x, tlb := [] }).noteRoot core
  | 0x004 => s.updCore core fun c => { c with ctxbase := x }
  | 0x005 => s.updCore core fun c => { c with trapvec := x }
  | 0x010 => s.updCore core fun c => { c with margin := setField c.margin 7 0 (bits x 7 0) }
  | 0x011 => s.updCore core fun c => { c.rollWindow s.clk with ltecnt := x }
  | 0x012 => s.updCore core fun c => { c.newWindow s.clk with ltelim := x }
  | 0x013 => s.updCore core fun c => { c.newWindow s.clk with ltewin := x }
  | 0x014 =>
    let was := bitOf (s.core core).quar 0
    let now := bitOf x 0
    let s : State := s.updCore core fun c => { c with quar := if now then x else 0#32 }
    if now && !was then (s.logMargin core 3).quarantine core
    else if was && !now then
      (s.healthEvent d fun h => setField h 7 0 (bits h 7 0 - 1)).alarm s (s.corePart core)
    else s
  | 0x018 => s.updCore core fun c => { c with gcwin := x }
  | 0x020 => s.updDie d fun y => { y with combwin := x }
  | 0x021 => s.writeCombtest d x
  | 0x022 => s.updDie d fun y => { y with fabstat := x }
  | 0x028 => s.updDie d fun y => { y with lease := x }
  | 0x030 => (s.setHealth d (healthWritten (s.die d).health x)).alarm s none
  | _ => s

/-- Whether a group stands on its core: resident, parked, or parked by a trap in a gang that has not been evicted (R305, R324). -/
def State.onCore (s : State) (g : Grp) : Bool :=
  g.place == .resident || g.place == .parked
    || (g.place == .trapParked && (s.gang g.gang).any fun k => k.place == .placed || k.place == .evicting)

/-- Whether a core holds a group, resident or parked (R305). -/
def State.coreBusy (s : State) (core : Nat) : Bool := s.groups.any fun g => g.core == core && s.onCore g

/-- A control core's store to a register (R304, R305): an illegal value, a register it may not write, and PARTID or
PTROOT with a group on the core (the dead root excepted) are dropped. -/
def State.hartWriteReg (s : State) (core n : Nat) (x : Word) : State :=
  if hartWritable n && regValueOk (s.marginMax core) n x
      && !((n == 2 || (n == 3 && x != 0#32)) && s.coreBusy core) then s.writeReg core n x
  else s

/-- Nothing of a partition is in flight: no request, copy, engine or bank command, wave or result (R330, R364). -/
def State.quiet (s : State) (part : Nat) : Bool :=
  let mine (u : Nat) : Bool := s.groups.any fun g => g.uid == u && g.part == part
  !(s.reqs.any fun r => r.part == part) && !(s.cpys.any fun c => c.part == part)
    && !(s.bcmds.any fun b => b.part == part) && !(s.waves.any fun w => w.part == part && w.st != .ended)
    && !(s.ecmds.any fun c => mine c.uid && (c.st == .waiting || c.st == .running || c.st == .held))
    && !(s.stowed.any fun i => i.g.part == part) && !(s.status.any fun p => mine p.uid)

/-- STAT.QUIESCED (R330): every group evicted and nothing in flight. -/
def State.quiesced (s : State) (part : Nat) : Bool :=
  (s.part part).quiesce && s.quiet part
    && !(s.gangs.any fun g => g.part == part && (g.place == .placed || g.place == .evicting))

/-- TDCTL.TDONE (R351, R364): the partition is torn down, its groups have exited and nothing is in flight. -/
def State.tdone (s : State) (part : Nat) : Bool :=
  (s.part part).tdown && s.quiet part && !(s.groups.any fun g => g.part == part && g.place != .ended)

/-- A launch-unit register of a partition as a control core reads it (R330, R335, R344, R351, R381, R399, R414). -/
def State.readUnit (s : State) (part off : Nat) : Word :=
  let p := s.part part
  let b (x : Bool) : Nat := if x then 1 else 0
  match off with
  | 0x00 => p.qtablo | 0x04 => p.qtabhi | 0x08 => p.cbtablo | 0x0C => p.cbtabhi | 0x10 => p.ctxlen
  | 0x18 => BitVec.ofNat 32 (b p.quiesce)
  | 0x1C => BitVec.ofNat 32 (b (s.quiesced part) + 2 * b p.rebaseReq + 4 * b p.rebaseLate)
  | 0x20 => p.s1root | 0x24 => p.sdvalo | 0x28 => p.sdvahi | 0x2C => p.sdctl
  | 0x30 => BitVec.ofNat 32 (b p.sd.busy)
  | 0x34 => p.errlo | 0x38 => p.errhi | 0x3C => p.errctl | 0x40 => p.errhead | 0x44 => p.errdrop
  | 0x48 => BitVec.ofNat 32 (2 * b (s.tdone part))
  | 0x4C => p.hlthctl
  | 0x50 => p.nktablo | 0x54 => p.nktabhi | 0x58 => p.nkctl | 0x5C => p.qptablo | 0x60 => p.qptabhi | 0x64 => p.qpctl
  | 0x68 => p.cblost
  | 0x6C | 0x70 | 0x74 | 0x78 =>
    let r := (off - 0x6C) / 4
    BitVec.ofNat 32 ((List.range 4).foldl (fun acc k => acc + ((p.graphctl[4 * r + k]?).getD 0#5).toNat * 256 ^ k) 0)
  | _ => 0#32

/-- A value written to a launch-unit register that sets off nothing else (R304: an illegal value is dropped). -/
def PartState.writePlain (p : PartState) (off : Nat) (x : Word) : PartState :=
  let hi16 := bits x 31 16 == 0
  match off with
  | 0x00 => if x.toNat % 64 = 0 then { p with qtablo := x } else p
  | 0x04 => if hi16 then { p with qtabhi := x } else p
  | 0x08 => if x.toNat % 64 = 0 then { p with cbtablo := x } else p
  | 0x0C => if hi16 then { p with cbtabhi := x } else p
  | 0x10 => if hi16 then { p with ctxlen := x } else p
  | 0x18 => if bits x 31 2 = 0 then { p with quiesce := bitOf x 0 } else p
  | 0x20 => { p with s1root := x }
  | 0x24 => if bits x 11 0 = 0 then { p with sdvalo := x } else p
  | 0x28 => if bits x 31 25 = 0 then { p with sdvahi := x } else p
  | 0x2C =>
    if bits x 7 6 = 0 ∧ bits x 31 10 = 0 ∧ 12 ≤ bits x 5 0 ∧ bits x 5 0 ≤ 57 then { p with sdctl := x } else p
  | 0x34 => if x.toNat % 32 = 0 then { p with errlo := x } else p
  | 0x38 => if hi16 then { p with errhi := x } else p
  | 0x3C => if bits x 4 0 ≤ 16 ∧ bits x 7 5 = 0 ∧ bits x 31 23 = 0 then { p with errctl := x } else p
  | 0x40 => { p with errhead := x }
  | 0x4C => if bits x 31 28 = 0 ∧ bits x 15 4 = 0 then { p with hlthctl := x } else p
  | 0x50 => if x.toNat % 64 = 0 then { p with nktablo := x } else p
  | 0x54 => if hi16 then { p with nktabhi := x } else p
  | 0x58 => if bits x 31 5 = 0 ∧ bits x 4 0 ≤ 16 then { p with nkctl := x } else p
  | 0x5C => if x.toNat % 64 = 0 then { p with qptablo := x } else p
  | 0x60 => if hi16 then { p with qptabhi := x } else p
  | 0x64 => if bits x 31 5 = 0 ∧ bits x 4 0 ≤ 14 then { p with qpctl := x } else p
  | _ => p

/-- GRAPHCTLr written (R414): a controller that would change while a wave of its graph is queued or running keeps the
whole register. Commands still on their way to a controller that its die's loss has taken travel to the new one (R366). -/
def State.writeGraphctl (s : State) (part r : Nat) (x : Word) : State :=
  let p := s.part part
  let new (k : Nat) : BitVec 5 := BitVec.ofNat 5 (bits x (8 * k + 4) (8 * k))
  let busy (g : Nat) : Bool := s.waves.any fun w =>
    w.part == part && w.graph == g && w.kind != .gbind && (w.st == .queued || w.st == .running)
  let zero := (List.range 4).all fun k => bits x (8 * k + 7) (8 * k + 5) == 0
  let clash := (List.range 4).any fun k => busy (4 * r + k) && new k != (p.graphctl[4 * r + k]?).getD 0#5
  if r < 4 ∧ zero = true ∧ clash = false then
    let move (w : Wave) : Wave :=
      if w.part = part ∧ w.graph / 4 = r ∧ w.st = .path ∧ (s.die (w.ctrl / 8)).failed = true then { w with ctrl := (new (w.graph % 4)).toNat }
      else w
    { s.setPart part { p with graphctl := Vector.ofFn fun i =>
        if i.val / 4 = r then new (i.val % 4) else (p.graphctl[i.val]?).getD 0#5 } with waves := s.waves.map move }
  else s

/-- QUIESCE set (R330): nothing more is placed and every gang of the partition is asked to leave. -/
def State.doQuiesce (s : State) (part : Nat) : State :=
  let s : State := s.updPart part fun p => { p with quiesce := true }
  ((s.gangs.filter fun g => g.part == part && g.place == .placed).map (·.id)).foldl State.askEvict s

/-- REBASE written once the partition is quiesced (R332): leased copies dropped, every time of the partition 0, in its groups' images
too. -/
def State.doRebase (s : State) (part : Nat) : State :=
  let cleared (p : PartState) : PartState :=
    { p with
      rebaseReq := false
      rebaseLate := false
      waveTimes := []
      qpTimes := []
      completed := p.completed.map fun c => (c.1, c.2.1, 0) }
  let still (b : Barrier) : Barrier := { b with time := 0, released := b.released.map fun r => (r.1, 0) }
  let us := (s.groups.filter fun g => g.part == part && g.place != .ended).map (·.uid)
  let s : State := us.foldl (fun s u => s.updImage u fun g => { g with pts := 0, cpyTime := 0 }) s
  { (s.updPart part cleared) with
    launches := updAll (fun l => l.part == part) (fun l => { l with tl := 0, predPts := 0, finalPts := 0, unitTime := 0,
                                                                         tags := l.tags.map fun t => (t.1, { t.2 with time := 0 }) }) s.launches
    gangs := updAll (fun g => g.part == part) (fun g => { g with bars := g.bars.map fun b => (b.1, still b.2) }) s.gangs
    copies := s.copies.filter fun c => !(c.owner == none && !c.readShared && c.part == part)
    lines := s.lines.map fun l => if l.2.part = part then (l.1, { l.2 with wts := 0, rts := 0 }) else l
    mts := s.mts.map fun m => if m.1 % 8 = part then (m.1, 0) else m
    groups := updAll (fun g => g.part == part) (fun g => { g with pts := 0, cpyTime := 0 }) s.groups
    harts := s.harts.map fun h => if h.1 % 8 = part then (h.1, 0) else h }

/-- A shootdown's GO (R344, R345): dropped while BUSY or with an illegal or misaligned range. -/
def State.doShootdown (s : State) (part : Nat) (x : Word) : State :=
  let p := s.part part
  let start := bits p.sdvalo 31 12 * 4096 + bits p.sdvahi 24 0 * 2 ^ 32
  let len := 2 ^ bits x 5 0
  let all := bitOf x 9
  let st2 := bitOf x 8
  let legal := bits x 7 6 == 0 && bits x 30 10 == 0 && decide (12 ≤ bits x 5 0) && decide (bits x 5 0 ≤ 57)
    && start % len == 0
  if p.sd.busy = true ∨ legal = false then s
  else (s.startShootdown part start len st2 all).updPart part fun p => { p with sdctl := x &&& 0x7FFF_FFFF#32 }

/-- Whether the page of a bank command's done word was dropped by a partition's shootdown (R248, R345); by a stage 2 one it may have been. -/
def State.doneDropped (s : State) (c : BankCmd) : Bool :=
  let d := (s.part c.part).sd
  d.all || d.stage2 || (decide (c.doneVa < d.lo + d.len) && decide (d.lo < c.doneVa + 4))

/-- Whether a shootdown has settled (R345): every access, copy and done add translated before the GO has been performed; a bank command that
uses a stale list has stopped, since its units write nothing more through it (R250). -/
def State.shootdownSettled (s : State) (part : Nat) : Bool :=
  let m := (s.part part).sd.mark
  (s.part part).sd.busy
    && !(s.reqs.any fun r => r.part == part && decide (r.id < m) && r.accs.any fun a => !a.done)
    && !(s.stowed.any fun i => i.g.part == part) && !(s.stalls.any fun x => x.part == part)
    && !(s.bcmds.any fun c => c.part == part && decide (c.id < m) && s.doneDropped c)
    && !(s.groups.any fun g => g.part == part && !g.held.isEmpty) && !(s.cpys.any fun c => c.part == part && c.retranslate)
    && !(s.ecmds.any fun c => c.kind == .wload && decide (c.id < m) && !c.holds.isEmpty && s.groups.any fun g => g.uid == c.uid && g.part == part)

/-- The group parked by a trap that a PARK write's slot names (R331). -/
def State.trapParked (s : State) (part slot : Nat) : Option Grp :=
  s.groups.find? fun g => g.part == part && g.imgSlot == slot && g.place == .trapParked

/-- A trap-parked group leaves its park: resident at once when its core has room, else parked and ready, or evicted
with its gang (R327, R331); its registers are those of its image, which software may have changed (R26, R28). -/
def State.unpark (s : State) (u : Nat) : State :=
  match s.grp u with
  | none => s
  | some g =>
    match s.gang g.gang with
    | none => s
    | some k =>
      let s : State := s.fetchImage u
      if k.place = .placed ∨ k.place = .evicting then
        let s : State := s.useImage u
        if s.residents g.core < 32 then s.makeResident u
        else (s.updGrp u fun x => { x with place := .parked }).updCore g.core fun c =>
          { c with readyParked := c.readyParked ++ [u] }
      else s.updGrp u fun x => { x with place := .evicted }

end Sys2Proof.Machine
end

