-- ==== Sys2Proof/Machine/EvFault.lean ====
section
/-! DEFINITION. Imprecise errors and error records (R350, R351), loss of dies (R366), the neighbour behind a die-link port (R382). -/

namespace Sys2Proof.Machine

/-- IMPRECISE_ERROR (R350): found by hardware at a home (STORE, WRITEBACK) or an agent, for a side effect that carries its partition
(R385) and its group's image slot there (R352), named together: 8 times the slot, plus the partition (R301). A WRITEBACK names the
partition that last wrote the dirty sector and no group. -/
def execImpreciseError (kind : ErrKind) (slot : Nat) (ord : BitVec 8) (pa : Nat) (s : State) : Out :=
  if kind = .writeback then
    let part := tget s.dirty (sectorOf pa) 0
    .next (({ s with pois := markPois s.pois (sectorOf pa) } : State).errorRecord part 0 6 0xFFFF 0 0 (pa / 32 * 32))
  else
    match s.tomb (slot % 8) (slot / 8) with
    | none => .next s
    | some _ => .next (s.imprecise kind (slot % 8) (slot / 8) ord pa)

/-- A die that is lost (R366): its lines read poisoned from then on, through its flag and with no copy of them left, and its neighbours'
HEALTH shows DIELOST. -/
def State.markLost (s : State) (d : Nat) : State :=
  let s : State := s.updDie d fun x => { x with failed := true }
  let s : State := { s with copies := s.copies.filter fun c => homeDie (256 * c.line) != d }
  [d ^^^ 1, d ^^^ 2].foldl (fun s n => if (s.die n).failed then s else s.healthEvent n fun h => setBit h 26 true) s

/-- What a die's loss does to its agents and gangs (R366): waves at its controllers end with ABORT, and every gang with a group, an
understudy or a scratchpad there takes the poison fate, with no class-15 trap to set FCLASS (R356). -/
def State.afterLoss (s : State) (d : Nat) : State :=
  let s : State := (s.waves.filter fun w => w.ctrl / 8 == d && w.kind != .gbind && (w.st == .queued || w.st == .running)).foldl
    State.abortWave s
  let s : State := s.wakeWaits
  let ks := (s.gangs.filter fun g => !g.under && g.place != .ended &&
    ((g.cores.any fun c => dieOfCore c == d) ||
      (match g.twin with
       | some t => ((s.gang t).map fun x => x.cores.any fun c => dieOfCore c == d).getD false
       | none => false))).map (·.id)
  ks.foldl (fun s k => s.gangFate k 0) s

/-- Dies lost by one event (R366, R381, R393). -/
def State.loseDiesSince (s old : State) (ds : List Nat) : State :=
  let new := ds.filter fun d => !(s.die d).failed
  new.foldl State.afterLoss ((new.foldl State.markLost s).alarm old none)

/-- The neighbour a die-link port of a die leads to (R382): ports 0 to 3 to die d XOR 1, 4 to 7 to die d XOR 2. -/
def linkNeighbour (d port : Nat) : Nat := if port < 4 then d ^^^ 1 else d ^^^ 2

end Sys2Proof.Machine
end

