-- ==== Sys2Proof/Machine/Agents.lean ====
section
/-! DEFINITION. Reads and writes of the launch unit and the receive engines through a partition's translation, and
callboard interrupts (R181, R188, R334). -/

namespace Sys2Proof.Machine

/-- An agent's translation of one address (log 14): physical address and entry. -/
def State.agentXlate (s : State) (part va : Nat) : Option (Nat × TlbEntry) :=
  let root := (s.part part).agentRoot
  if root = 0#32 then none
  else
    match s.walk part root va with
    | .error _ => none
    | .ok e =>
      let pa := e.pa + (va - e.va)
      if (s.paFault pa 1).isNone then some (pa, e) else none

/-- A run of bytes read by an agent: none when a page fails to translate or a byte is poisoned. -/
def State.agentRead (s : State) (part va n : Nat) : Option (List Byte) :=
  if va / 4096 = (va + n - 1) / 4096 then
    match s.agentXlate part va with
    | some (pa, _) => if s.paPois pa n then none else some (s.readPa pa n)
    | none => none
  else
    (List.range n).mapM fun i =>
      match s.agentXlate part (va + i) with
      | some (pa, _) => if s.paPois pa 1 then none else some ((s.readPa pa 1).headD 0#8)
      | none => none

/-- Whether a page's lines take their places in the logical order (R143, R180). -/
def TlbEntry.timed (e : TlbEntry) : Bool := e.cls == .coherent || e.cls == .bank

/-- The reads of a run of bytes take their place in the logical order (R181, R182, R187): each line's lease is extended to the agent's
time, which passes its write time; answers the agent's time. -/
def State.agentMark (s : State) (part pts va n : Nat) : Nat × State :=
  (List.range ((va + n - 1) / 256 - va / 256 + 1)).foldl (fun (x : Nat × State) k =>
    match x.2.agentXlate part (max va (256 * (va / 256 + k))) with
    | some (pa, e) =>
      if e.timed then
        let t := x.2.homeLoad pa part x.1
        (max x.1 t.1.wts, t.2)
      else x
    | none => x) (pts, s)

/-- Whether an agent's store at an address acts at once: no other agent owns the line and no wload holds it (R154, R222). -/
def State.agentFree (s : State) (part va : Nat) : Bool :=
  match s.agentXlate part va with
  | some (pa, _) => s.lineFree (lineOf pa)
  | none => true

/-- Naturally aligned words stored by an agent, in order, as coherent stores (R188); a failing page drops the store. -/
def State.agentWrite (s : State) (part pts va : Nat) : List Word → Nat × State
  | [] => (pts, s)
  | w :: r =>
    let x : Nat × State :=
      match s.agentXlate part va with
      | some (pa, e) => s.agentStore part pts pa (bytesLE 4 w.toNat) (e.cls == .bank)
      | none => (pts, s)
    State.agentWrite x.2 part x.1 (va + 4) r

/-- The number at an offset of a byte list (R5). -/
def fieldAt (bs : List Byte) (off n : Nat) : Nat := ofBytesLE ((bs.drop off).take n)

/-- A partition's callboard descriptor (R334), read at its physical table. -/
structure RingDesc where
  base : Nat := 0
  log2n : Nat := 0
  cnt : Nat := 0
  age : Nat := 0
  hart : Nat := 0
  iid : Nat := 0
  headVa : Nat := 0
  deriving DecidableEq, Repr

def State.ringDesc (s : State) (part ring : Nat) : RingDesc :=
  let p := s.part part
  let bs := s.readPa (p.cbtablo.toNat + bits p.cbtabhi 15 0 * 2 ^ 32 + 32 * ring) 32
  let w := BitVec.ofNat 32 (fieldAt bs 0x0C 4)
  { base := fieldAt bs 0 8, log2n := fieldAt bs 8 4 % 32, cnt := fieldAt bs 9 1, age := fieldAt bs 10 2,
    hart := bits w 3 0, iid := bits w 26 16, headVa := fieldAt bs 0x10 8 }

/-- Whether a ring is valid (R334): LOG2N from 1 to 16. -/
def RingDesc.valid (d : RingDesc) : Bool := decide (1 ≤ d.log2n) && decide (d.log2n ≤ 16)

/-- A ring's interrupt, which signals every written record (R334). -/
def State.ringInterrupt (s : State) (part ring : Nat) : State :=
  let d := s.ringDesc part ring
  (s.updPart part fun p =>
    { p with rings := tset p.rings ring { tget p.rings ring {} with unsignalled := 0 } }).send (.interrupt d.hart d.iid)

/-- A launch queue's descriptor (R316). -/
structure QueueDesc where
  base : Nat := 0
  n : Nat := 1
  level : Bool := false
  netok : Bool := false
  die : Nat := 0
  maxpri : Nat := 0
  pkey : Nat := 0
  tailVa : Nat := 0
  headVa : Nat := 0
  serves : Bool := false
  deriving DecidableEq, Repr

def State.queueDesc (s : State) (part q : Nat) : QueueDesc :=
  let p := s.part part
  let bs := s.readPa (p.qtablo.toNat + bits p.qtabhi 15 0 * 2 ^ 32 + 32 * q) 32
  let w := BitVec.ofNat 32 (fieldAt bs 8 4)
  { base := fieldAt bs 0 8, n := 2 ^ bits w 4 0, level := bitOf w 8, netok := bitOf w 9, die := bits w 11 10, maxpri := bits w 14 12,
    pkey := bits w 31 16, tailVa := fieldAt bs 0x10 8, headVa := fieldAt bs 0x18 8,
    serves := bitOf w 15 && bits w 7 5 == 0 && decide (bits w 4 0 ≤ 16) && fieldAt bs 0x0C 4 == 0 }

end Sys2Proof.Machine
end

