-- ==== Sys2Proof/Machine/Postfix.lean ====
section
/-! DEFINITION. Postfix programs of the bank units (R240 to R243, R290): images verified, and one evaluation. -/

namespace Sys2Proof.Machine

/-- An operator's arity: what it pops and pushes (R241); none for a reserved code. -/
def opArity (code : Nat) : Option (Nat × Nat) :=
  if 0x01 ≤ code ∧ code ≤ 0x0A then some (0, 1)
  else if (0x10 ≤ code ∧ code ≤ 0x19) ∨ (0x1A ≤ code ∧ code ≤ 0x1E) then some (2, 1)
  else if 0x20 ≤ code ∧ code ≤ 0x23 then some (1, 1)
  else
    match code with
    | 0x28 => some (3, 1)
    | 0x30 => some (1, 2)
    | 0x31 => some (2, 2)
    | 0x32 => some (1, 0)
    | 0x33 => some (2, 3)
    | _ => none

/-- Whether an operator is legal in a context (R241): 0 element, 1 node, 2 edge. -/
def opContext (code ctx : Nat) : Bool :=
  match code with
  | 0x03 | 0x07 | 0x08 => ctx == 2
  | 0x04 | 0x05 | 0x06 | 0x09 => ctx != 0
  | _ => true

/-- Whether an operator's argument is in range (R241). -/
def opArg (code ctx arg : Nat) : Bool :=
  match code with
  | 0x01 => if ctx = 0 then decide (arg ≤ 1) else decide (arg ≤ 11)
  | 0x02 => decide (arg ≤ 15)
  | 0x04 => decide (arg < 48)
  | 0x09 => decide (arg ≤ 31)
  | _ => arg == 0

/-- The operators of an image judged in ascending index (R290): a reason and an index, or the stack depth at the end. -/
def judgeOps (len ctx : Nat) : List Nat → Nat → Nat → Except (Nat × Nat) Nat
  | [], _, depth => .ok depth
  | h :: r, i, depth =>
    if len ≤ i then
      if h = 0 then judgeOps len ctx r (i + 1) depth else .error (3, i)
    else
      match opArity (h / 256) with
      | none => .error (3, i)
      | some (a, b) =>
        if !opContext (h / 256) ctx then .error (5, i)
        else if !opArg (h / 256) ctx (h % 256) then .error (4, i)
        else if depth < a then .error (6, i)
        else if 4 < depth - a + b then .error (7, i)
        else judgeOps len ctx r (i + 1) (depth - a + b)

/-- A program image of 128 bytes verified (R240, R243, R290). -/
def verifyImage (img : List Byte) : Except (Nat × Nat) Prog :=
  let h := BitVec.ofNat 32 (fieldAt img 0 4)
  let ty := bits h 1 0
  let ctx := bits h 5 4
  let len := bits h 12 8
  let halves := (List.range 24).map fun i => fieldAt img (0x10 + 2 * i) 2
  if ty = 3 ∨ ctx = 3 ∨ bits h 3 2 ≠ 0 ∨ bits h 7 6 ≠ 0 ∨ bits h 31 13 ≠ 0 ∨ fieldAt img 4 12 ≠ 0 then .error (1, 0)
  else if len < 1 ∨ 24 < len then .error (2, 0)
  else
    match judgeOps len ctx halves 0 0 with
    | .error e => .error e
    | .ok d =>
      if d = 1 then
        .ok { ty := ty, ctx := ctx, ops := (halves.take len).map fun h => { code := h / 256, arg := h % 256 },
              pool := (List.range 16).map fun k => BitVec.ofNat 32 (fieldAt img (0x40 + 4 * k) 4) }
      else .error (8, len - 1)

/-- The status word gprog writes (R290). -/
def gprogStatus : Except (Nat × Nat) Prog → Word
  | .ok _ => 1#32
  | .error (r, i) => BitVec.ofNat 32 (2 ^ 31 + r * 2 ^ 16 + i)

/-- What the operators of a program can read (R241, R242). -/
structure PEnv where
  attr : Nat → Word
  slot : Nat → Nat → Word
  inp : Word := 0#32
  ntype : Nat := 0
  deg : Nat := 0
  etype : Nat := 0
  /-- the edge weight in units of 1/256 -/
  ew : Int := 0
  marks : Word := 0#32
  idx : Nat := 0

/-- The modifiers of a bank unit: RNE, subnormals kept, no saturation (R242). -/
def bankMode : FMode := { rm := 0, ftz := false, sat := false }

/-- An exact integer pushed in a program's type (R242). -/
def pushInt (ty : Nat) (n : Int) : Word :=
  match ty with
  | 0 => BitVec.ofInt 32 n
  | 1 => BitVec.ofInt 32 (n * 65536)
  | _ => BitVec.ofNat 32 ((fmtOf tF32).round 0 false false (decide (n < 0)) n.natAbs 0)

/-- EW pushed (R242). -/
def pushEw (ty : Nat) (w : Int) : Word :=
  match ty with
  | 0 => BitVec.ofInt 32 (roundInt 0 w 8)
  | 1 => BitVec.ofInt 32 (w * 256)
  | _ => BitVec.ofNat 32 ((fmtOf tF32).round 0 false false (decide (w < 0)) w.natAbs (-8))

/-- A relation's result in a program's type (R242). -/
def pushBool (ty : Nat) (b : Bool) : Word := pushInt ty (if b then 1 else 0)

/-- ADD, SUB, MUL, MIN, MAX by type (R242). -/
def arith (ty code : Nat) (a b : Word) : Word :=
  let f (x : Word) : FVal := bankMode.get tF32 x.toNat
  if ty = 2 then
    let r : Nat :=
      match code with
      | 0x10 => bankMode.sum tF32 [f a, f b]
      | 0x11 => bankMode.sum tF32 [f a, (f b).negate]
      | 0x12 => (fmtOf tF32).ofVal 0 false false ((f a).mul (f b))
      | 0x13 => bankMode.minMax false tF32 a.toNat b.toNat
      | _ => bankMode.minMax true tF32 a.toNat b.toNat
    BitVec.ofNat 32 r
  else
    match code with
    | 0x10 => a + b
    | 0x11 => a - b
    | 0x12 => if ty = 0 then a * b else BitVec.ofInt 32 (roundInt 0 (a.toInt * b.toInt) 16)
    | 0x13 => if a.slt b then a else b
    | _ => if a.slt b then b else a

/-- EQ, NE, LT, LE, LTU by type (R242). -/
def relation (ty code : Nat) (a b : Word) : Bool :=
  let f (x : Word) : FVal := bankMode.get tF32 x.toNat
  match code with
  | 0x1A => if ty = 2 then (f a).eqv (f b) else a == b
  | 0x1B => if ty = 2 then !(f a).eqv (f b) else a != b
  | 0x1C => if ty = 2 then (f a).lt (f b) else a.slt b
  | 0x1D => if ty = 2 then (f a).lt (f b) || (f a).eqv (f b) else a.sle b
  | _ => a.ult b

/-- One operator on the stack, top first (R241, R242). -/
def Prog.opStep (p : Prog) (v : PEnv) (o : POp) (st : List Word) : List Word :=
  match o.code, st with
  | 0x01, _ => v.attr o.arg :: st
  | 0x02, _ => p.pool.getD o.arg 0#32 :: st
  | 0x03, _ => v.inp :: st
  | 0x04, _ => v.slot (o.arg / 16) (o.arg % 16) :: st
  | 0x05, _ => pushInt p.ty v.ntype :: st
  | 0x06, _ => pushInt p.ty v.deg :: st
  | 0x07, _ => pushEw p.ty v.ew :: st
  | 0x08, _ => pushInt p.ty v.etype :: st
  | 0x09, _ => pushInt p.ty (if bitOf v.marks o.arg then 1 else 0) :: st
  | 0x0A, _ => pushInt p.ty v.idx :: st
  | 0x15, b :: a :: r => (a &&& b) :: r
  | 0x16, b :: a :: r => (a ||| b) :: r
  | 0x17, b :: a :: r => (a ^^^ b) :: r
  | 0x18, b :: a :: r => (a <<< (b.toNat % 32)) :: r
  | 0x19, b :: a :: r => (a >>> (b.toNat % 32)) :: r
  | 0x20, a :: r => (if p.ty = 2 then a ^^^ 0x8000_0000#32 else -a) :: r
  | 0x21, a :: r => (if p.ty = 2 then a &&& 0x7FFF_FFFF#32 else if a.slt 0#32 then -a else a) :: r
  | 0x22, a :: r => (~~~a) :: r
  | 0x23, a :: r => pushBool p.ty (a == 0#32) :: r
  | 0x28, c :: f :: t :: r => (if c != 0#32 then t else f) :: r
  | 0x30, a :: r => a :: a :: r
  | 0x31, b :: a :: r => a :: b :: r
  | 0x32, _ :: r => r
  | 0x33, b :: a :: r => a :: b :: a :: r
  | c, b :: a :: r => if c ≤ 0x14 then arith p.ty c a b :: r else pushBool p.ty (relation p.ty c a b) :: r
  | _, _ => st

/-- A program's result: the top of the stack at the end (R242). -/
def Prog.eval (p : Prog) (v : PEnv) : Word := (p.ops.foldl (fun st o => p.opStep v o st) []).headD 0#32

/-- The byte offsets within a node record whose sectors a program reads (R153, R238, R241). -/
def Prog.nodeReads (p : Prog) : List Nat :=
  p.ops.flatMap fun o =>
    match o.code with
    | 0x01 => [0x10 + 4 * o.arg]
    | 0x04 => [0x40 + 64 * (o.arg / 16) + 4 * (o.arg % 16)]
    | 0x05 => [8]
    | 0x06 => [0]
    | 0x09 => [0x0C]
    | _ => []

/-- Whether a program holds an operator. -/
def Prog.has (p : Prog) (code : Nat) : Bool := p.ops.any fun o => o.code == code

end Sys2Proof.Machine
end

