-- ==== Sys2Proof/Machine/Butterfly.lean ====
section
/-! DEFINITION. The arithmetic of the butterfly engine (R84, R85, R207 to R216): block floating point, weights in
granules, chains of stages, and their outputs. -/

namespace Sys2Proof.Machine

/-- An exact number n · 2^e. -/
abbrev Exact := Int × Int

def exAdd (a b : Exact) : Exact :=
  let q := min a.2 b.2
  (a.1 * 2 ^ (a.2 - q).toNat + b.1 * 2 ^ (b.2 - q).toNat, q)
def exMul (a b : Exact) : Exact := (a.1 * b.1, a.2 + b.2)

/-- A decoded value as R85 takes it: NaN is 0, an infinity is 2^128 of its sign. -/
def exOf : FVal → Exact
  | .nan => (0, 0)
  | .inf n => (if n then -1 else 1, 128)
  | .num n m e => (if n then -(m : Int) else m, e)

/-- An input lane in its queue's format (R213). -/
def inputValue (fmt : BitVec 2) (x : Word) : Exact :=
  match fmt.toNat with
  | 0 => exOf ((fmtOf tF32).decode false x.toNat)
  | 1 => (x.toInt, -16)
  | _ => exOf ((fmtOf tBF16).decode false (x.toNat % 65536))

/-- A BFP block (R84) with what its conversion counts (R231). -/
structure Bfp where
  e : Int := 0
  ms : List Int := []
  clamped : Bool := false
  twice : Bool := false
  deriving DecidableEq, Repr

/-- A value's mantissa under exponent byte E (R85). -/
def bfpMant (w : Nat) (E : Int) (v : Exact) : Int :=
  let m := roundTo2 0 (decide (v.1 < 0)) v.1.natAbs (v.2 + w - 2 - (E - 127)) 0
  if v.1 < 0 then -(m : Int) else m

/-- The loop of R85. -/
def bfpLoop (w : Nat) (vs : List Exact) (twice : Bool) : Nat → Int → Bfp
  | 0, E => { e := E, ms := vs.map (bfpMant w E), twice := twice }
  | k + 1, E =>
    if 255 < E then
      let top : Int := 2 ^ (w - 1) - 1
      { e := 255, ms := vs.map fun v => max (-top) (min top (bfpMant w 255 v)), clamped := true, twice := twice }
    else
      let ms := vs.map (bfpMant w E)
      if ms.any fun m => m.natAbs == 2 ^ (w - 1) then bfpLoop w vs true k (E + 1)
      else { e := if ms.all (· == 0) then 0 else E, ms := ms, twice := twice }

/-- A block converted to BFP of width w (R85). -/
def toBfp (w : Nat) (vs : List Exact) : Bfp :=
  let tops := (vs.filter fun v => v.1 != 0).map fun v => (Nat.log2 v.1.natAbs : Int) + v.2
  match tops with
  | [] => { ms := vs.map fun _ => 0 }
  | t :: r => bfpLoop w vs false 4 (max (127 + r.foldl max t) 1)

/-- The values of a block (R84). -/
def Bfp.values (b : Bfp) (w : Nat) : List Exact := b.ms.map fun m => (m, b.e - 127 - (w - 2))

/-- A vector in the engine: values and poison by element, and what its conversions counted. -/
structure EVec where
  xs : Array Exact := #[]
  ps : Array Bool := #[]
  clamped : Nat := 0
  twice : Nat := 0

/-- A vector converted block by block to width w (R84, R85, R216): blocks of 32, one block when N = 16. -/
def EVec.convert (v : EVec) (w : Nat) : EVec :=
  let n := v.xs.size
  let k := min n 32
  (List.range (n / k)).foldl (fun (o : EVec) b =>
    let c := toBfp w ((List.range k).map fun i => v.xs.getD (b * k + i) (0, 0))
    let bad := (List.range k).any fun i => v.ps.getD (b * k + i) false
    { xs := o.xs ++ (c.values w).toArray, ps := o.ps ++ Array.replicate k bad,
      clamped := o.clamped + (if c.clamped then 1 else 0), twice := o.twice + (if c.twice then 1 else 0) })
    { clamped := v.clamped, twice := v.twice }

/-- A byte of a region that starts at a granule (R211). -/
def regionByte (gran : Tbl Granule) (first b : Nat) : Nat := (readByte (tget gran (first + b / 4096) {}).bytes (b % 4096)).toNat

/-- A scale byte's value (R79), as an exact number, and its type. -/
def scaleOf (b : Nat) : Exact := (4 + (b % 4 : Nat), (b / 4 % 16 : Nat) - 9)

/-- The four weights of pair p (R208, R211, R212), N = 2^n. -/
def pairWeights (gran : Tbl Granule) (first n : Nat) (i8 : Bool) (p : Nat) : Exact × Exact × Exact × Exact :=
  if i8 then
    let sc := scaleOf (regionByte gran first (2 * n + p / 8))
    let w (k : Nat) : Exact :=
      let b := regionByte gran first (4 * p + k)
      exMul (if b < 128 then (b : Int) else (b : Int) - 256, 0) sc
    (w 0, w 1, w 2, w 3)
  else
    let sb := regionByte gran first (n + p / 8)
    let w (c : Nat) : Exact := exMul (codeVal8 (sb / 64) c, -3) (scaleOf sb)
    let x := regionByte gran first (2 * p)
    let y := regionByte gran first (2 * p + 1)
    (w (x % 16), w (x / 16), w (y % 16), w (y / 16))

/-- One stage (R207, R216): exact sums, and the poison of each pair and of the region. -/
def EVec.stage (v : EVec) (gran : Tbl Granule) (first : Nat) (i8 : Bool) (size h : Nat) : EVec :=
  let n := v.xs.size
  let all := (List.range size).any fun k => (tget gran (first + k) {}).pois
  let x (i : Nat) : Exact := v.xs.getD i (0, 0)
  let y (j : Nat) : Exact :=
    let k := j % (2 * h)
    if k < h then
      let w := pairWeights gran first n i8 (j / (2 * h) * h + k)
      exAdd (exMul w.1 (x j)) (exMul w.2.1 (x (j + h)))
    else
      let w := pairWeights gran first n i8 (j / (2 * h) * h + (k - h))
      exAdd (exMul w.2.2.1 (x (j - h))) (exMul w.2.2.2 (x j))
  let bad (j : Nat) : Bool :=
    all || v.ps.getD j false || v.ps.getD (if j % (2 * h) < h then j + h else j - h) false
  { v with xs := ((List.range n).map y).toArray, ps := ((List.range n).map bad).toArray }

/-- An output element in its format (R208, R215). -/
def outputWord (fmt : Nat) (oscale : Int) (v : Exact) : Word :=
  let neg := decide (v.1 < 0)
  if fmt = 2 then
    let m := roundTo2 0 neg v.1.natAbs (v.2 + oscale + 16) 0
    BitVec.ofNat 32 (fitInt true tFX (if neg then -(m : Int) else m))
  else BitVec.ofNat 32 ((fmtOf (if fmt = 0 then tF32 else tBF16)).round 0 false false neg v.1.natAbs (v.2 + oscale))

/-- A vector's entries, 32 elements each (R215). -/
def EVec.entries (v : EVec) (fmt : Nat) (oscale : Int) : List Entry :=
  let n := v.xs.size
  (List.range (ceilDiv n 32)).map fun k =>
    { lanes := lanesFrom fun l => if 32 * k + l < n then outputWord fmt oscale (v.xs.getD (32 * k + l) (0, 0)) else 0#32
      pois := maskOf fun l => decide (32 * k + l < n) && v.ps.getD (32 * k + l) false }

/-- A chain run on the entries it took (R209, R213 to R216): outputs and the counts of its status. -/
def ECmd.compute (c : ECmd) (gran : Tbl Granule) : ECmd :=
  let n := 2 ^ c.n
  let lane (i : Nat) : Word × Bool :=
    let e := c.ins.getD (i / 32) {}
    (laneAt e.lanes (i % 32), e.pois.getLsbD (i % 32))
  let input : EVec :=
    { xs := ((List.range n).map fun i => inputValue c.inFmt (lane i).1).toArray, ps := ((List.range n).map fun i => (lane i).2).toArray }
  let size := c.count / c.hops.length
  let pairs := if c.i8 then 1024 else 2048
  let go (st : EVec × Nat) (sh : Nat × Nat) : EVec × Nat :=
    let w := if sh.2 = 0 then c.inW else c.midW
    let v := (st.1.convert w).stage gran (c.gran + sh.2 * size) c.i8 size (2 ^ sh.1)
    (v, st.2 + ceilDiv (n / 2) pairs * w)
  let r := c.hops.zipIdx.foldl go (input, 0)
  let outs := r.1.entries c.outFmt c.oscale
  let badSc := c.i8 && (List.range c.hops.length).any fun s => (List.range (ceilDiv (n / 2) 8)).any fun b =>
    64 ≤ regionByte gran (c.gran + s * size) (2 * n + b)
  { c with computed := true, ins := [], outs := outs, clamped := min 255 r.1.clamped, twice := min 255 r.1.twice,
           steps := r.2, pois := outs.any fun e => e.pois != 0#32, badScale := badSc }

/-- A command's state as cstat shows it (R231). -/
def ECmd.stateCode (c : ECmd) : Nat :=
  match c.st with
  | .waiting => 1 | .running => 2 | .held => 3 | .retired => 4 | .dropped => 5

/-- The status word of a command (R231). -/
def ECmd.word (c : ECmd) : Word :=
  let b (x : Bool) (n : Nat) : Nat := if x then 2 ^ n else 0
  BitVec.ofNat 32 (c.clamped * 2 ^ 24 + c.twice * 2 ^ 16 + min 255 (c.steps / 16) * 2 ^ 8 + b c.pois 5 + b c.badScale 4
    + b (c.clamped != 0) 3 + c.stateCode)

end Sys2Proof.Machine
end

