-- ==== Sys2Proof/Machine/Access.lean ====
section
/-! DEFINITION. Windows (R137, R138), the checks of a memory word's accesses in their order (R140, R143), and the
checks of a command's byte ranges. -/

namespace Sys2Proof.Machine

/-- The fields of a window descriptor (R137). -/
def winBase (w : BitVec 128) : Nat := (w.extractLsb' 0 57).toNat
def winLimit (w : BitVec 128) : Nat := (w.extractLsb' 64 49).toNat
def winSpace (w : BitVec 128) : Nat := (w.extractLsb' 113 2).toNat
def winPolicyCode (w : BitVec 128) : Nat := (w.extractLsb' 115 2).toNat
def winPlist (w : BitVec 128) : Nat := (w.extractLsb' 120 4).toNat
def winPlv (w : BitVec 128) : Bool := w.getLsbD 124

/-- The policy of a window (R137). -/
def winPolicy (w : BitVec 128) : Policy :=
  match winPolicyCode w with
  | 1 => .nt
  | 2 => .wc
  | _ => .normal

/-- The size of a scratchpad space for a group (R141). -/
def Grp.spaceSize (g : Grp) (gangCores space : Nat) : Nat :=
  if space = 1 then g.book.scratch else gangCores * g.book.scratch

/-- A descriptor that winld and winsub may write (R138). -/
def winOk (g : Grp) (gangCores : Nat) (w : BitVec 128) : Bool :=
  w.extractLsb' 57 7 == 0#7 && w.extractLsb' 117 3 == 0#3 && w.extractLsb' 125 3 == 0#3
    && winPolicyCode w != 3 && decide (winLimit w ≤ 2 ^ 48) && decide (winBase w + winLimit w ≤ 2 ^ 57)
    && (winSpace w == 0 || (winPolicyCode w == 0 && !winPlv w))
    && (winSpace w == 0 || winSpace w == 3 || decide (winBase w + winLimit w ≤ g.spaceSize gangCores (winSpace w)))

/-- Why the "Check" step ends: a precise trap, or an access the machine stops on. -/
inductive Stop where
  | trap (t : Trap)
  | fault (f : Fault)
  deriving DecidableEq, Repr

/-- What an access does, for the attribute check (R143, R144, R167, R174, R251). -/
inductive AccKind where
  | load | store | atomic | wait | doneAdd
  deriving DecidableEq, Repr

/-- Whether a space and class allow an access kind (R141, R143, R174, R251). -/
def attrOk (k : AccKind) (space : Nat) (cls : Class) : Bool :=
  match k with
  | .load => true
  | .store | .atomic => space != 3 && (space != 0 || cls != .readShared)
  | .wait => space != 3 && (space != 0 || (cls != .priv && cls != .readShared))
  | .doneAdd => space == 0 && cls != .priv && cls != .readShared

/-- The access code of a translation-fault report (R342). -/
def AccKind.code : AccKind → Nat
  | .load | .wait => 0
  | .store | .atomic => 1
  | .doneAdd => 3

/-- A translation failure reported for a lane (R342). -/
def walkStop (idx lane va access : Nat) : WalkErr → Stop
  | .stop f => .fault f
  | .trap kind stage level =>
    let r := faultDwords va kind stage access level
    .trap { cls := clsTranslation, idx := idx, detail := lane, fva := r.1, finfo := r.2 }

/-- The address a window offset reaches (R141); translated in global and parameter space. -/
def State.reach (s : State) (g : Grp) (idx lane access space va : Nat) : Except Stop Target :=
  match space with
  | 1 => .ok (.scratch g.gang g.coreIdx va)
  | 2 => .ok (.scratch g.gang (va / g.book.scratch) (va % g.book.scratch))
  | _ =>
    match s.translate g.core g.part g.system va with
    | .ok (pa, e) => .ok (.mem pa e.cls)
    | .error e => .error (walkStop idx lane va access e)

/-- The class of a target; scratchpad has none, and counts as coherent. -/
def Target.cls (t : Target) : Class :=
  match t with
  | .mem _ c => c
  | .scratch _ _ _ => .coherent

/-- The machine's stop on a target where no memory is. -/
def State.targetFault (s : State) (t : Target) (n : Nat) : Option Fault :=
  match t with
  | .mem pa _ => s.paFault pa n
  | .scratch _ _ _ => none

/-- Every access of a list reached, or the first failure in lane order. -/
def State.reachAll (s : State) (g : Grp) (idx access space base : Nat) : List (Nat × Nat) → Except Stop (List Acc)
  | [] => .ok []
  | (l, rel) :: r =>
    match s.reach g idx l access space (base + rel) with
    | .error e => .error e
    | .ok t =>
      match s.reachAll g idx access space base r with
      | .error e => .error e
      | .ok xs => .ok ({ lane := l, va := base + rel, tgt := t } :: xs)

/-- The checks of R140 from the bound on, each over every access before the next, for accesses given as lane and
offset. -/
def State.checkAccess (s : State) (g : Grp) (idx : Nat) (w : BitVec 128) (kind : AccKind) (access size : Nat)
    (ls : List (Nat × Nat)) : Except Stop (List Acc) :=
  let base := winBase w
  match ls.find? fun e => decide (winLimit w < e.2 + size) with
  | some e => .error (.trap { cls := clsWindow, idx := idx, detail := e.1 })
  | none =>
    match ls.find? fun e => (base + e.2) % size != 0 with
    | some e => .error (.trap { cls := clsAlign, idx := idx, detail := e.1 })
    | none =>
      match s.reachAll g idx access (winSpace w) base ls with
      | .error e => .error e
      | .ok accs =>
        match accs.find? fun a => !attrOk kind (winSpace w) a.tgt.cls with
        | some a => .error (.trap { cls := clsAttribute, idx := idx, detail := a.lane })
        | none =>
          match accs.findSome? fun a => s.targetFault a.tgt size with
          | some f => .error (.fault f)
          | none => .ok (accs.map fun a => { a with size := size })

/-- The pieces of a byte range of a space, with its offset, length and address: pages of 4 KiB, or the parts of each
core's scratchpad. -/
def rangePieces (g : Grp) (space va n : Nat) : List (Nat × Nat × Nat) :=
  let step := if space = 2 then g.book.scratch else if space = 1 then 2 ^ 57 else 4096
  if n = 0 ∨ step = 0 then []
  else (List.range ((va + n - 1) / step - va / step + 1)).map fun i =>
    let a := if i = 0 then va else (va / step + i) * step
    let b := min ((va / step + i + 1) * step) (va + n)
    (a - va, b - a, a)

/-- A range's pieces reached, or the first failure. -/
def State.reachPieces (s : State) (g : Grp) (idx lane access space : Nat) :
    List (Nat × Nat × Nat) → Except Stop (List (Nat × Nat × Target))
  | [] => .ok []
  | (o, n, a) :: r =>
    match s.reach g idx lane access space a with
    | .error e => .error e
    | .ok t =>
      match s.reachPieces g idx lane access space r with
      | .error e => .error e
      | .ok xs => .ok ((o, n, t) :: xs)

/-- The checks of a byte range as of loads or stores by a command (R167, R227, R277): bound, translation, attribute. -/
def State.checkRange (s : State) (g : Grp) (idx lane : Nat) (w : BitVec 128) (kind : AccKind) (access off n : Nat) :
    Except Stop (List (Nat × Nat × Target)) :=
  if winLimit w < off + n then .error (.trap { cls := clsWindow, idx := idx, detail := lane })
  else
    match s.reachPieces g idx lane access (winSpace w) (rangePieces g (winSpace w) (winBase w + off) n) with
    | .error e => .error e
    | .ok ps =>
      match ps.find? fun p => !attrOk kind (winSpace w) p.2.2.cls with
      | some _ => .error (.trap { cls := clsAttribute, idx := idx, detail := lane })
      | none =>
        match ps.findSome? fun p => s.targetFault p.2.2 p.2.1 with
        | some f => .error (.fault f)
        | none => .ok ps

/-- The target of each byte run of a range, and the bytes and poison it holds (R153). -/
def State.readPieces (s : State) (ps : List (Nat × Nat × Target)) : List Byte :=
  ps.flatMap fun p => s.readTarget p.2.2 p.2.1

/-- The target of a byte offset of a range. -/
def pieceAt (ps : List (Nat × Nat × Target)) (off : Nat) : Option Target :=
  ps.findSome? fun p => if p.1 ≤ off ∧ off < p.1 + p.2.1 then some (p.2.2.shift (off - p.1)) else none

/-- The byte range of an access in words of window offset (R140): relative offset of a lane. -/
def relOf (off : Word) (k size : Nat) : Nat := off.toNat + k * size

end Sys2Proof.Machine
end

