-- ==== Sys2Proof/Machine/MemWords.lean ====
section
/-! DEFINITION. Meanings of the memory and synchronisation words (R156 to R175) at "execute": operands are read into the
scene's list of later effects; "Check" and "perform" act on it at the trailer (Machine/Check.lean,
Machine/Perform.lean). -/

namespace Sys2Proof.Machine

/-- Whether a word makes one access for the group (R156): offset and data scalar or constant. R156 names a scalar d only; a constant or
temporary d is read for a reduction as R159 has it for a store, and a constant d counts as a scalar here (DEDUCED, log 67). -/
def uniformAccess (d a : Sel) : Bool :=
  let u (x : Sel) : Bool := kindOf x == .s || kindOf x == .k
  u d && u a

/-- The lanes that access: one for a uniform access, if any lane is active (R156). -/
def accessLanes (d a : Sel) (m : Word) : Word :=
  if uniformAccess d a && m != 0#32 then BitVec.ofNat 32 (2 ^ lowLane m) else m

/-- The data operand's n registers as a store or atomic reads them: a constant is converted to MODE.ET (R159). -/
def Issue.dataOf (i : Issue) (d : Sel) (n : Nat) : Except Trap (List Lanes × Word) :=
  match d with
  | .k _ =>
    if modeEt i.mode = tTAG then .error (i.trap clsIllegalOperand 0)
    else
      match i.src (modeEt i.mode) d with
      | .ok x => .ok ([x.lanes], 0#32)
      | .error t => .error t
  | _ =>
    let xs := (Sel.run d n).map i.val
    .ok (xs.map (·.lanes), xs.foldl (fun p x => p ||| x.pois) 0#32)

/-- A load captured (R157, R158). -/
def Issue.loadWord (i : Issue) (ins : Instr) (d a : Sel) : Except Trap Issue := do
  let x ← i.count a
  let m ← i.active
  .ok (i.capture { ins := ins, act := accessLanes d a m, off := x.lanes, opois := x.pois })

/-- A store captured with its data, n registers of it (R159). -/
def Issue.storeWord (i : Issue) (ins : Instr) (d a : Sel) (n : Nat) : Except Trap Issue := do
  let x ← i.count a
  let y ← i.dataOf d n
  let m ← i.active
  .ok (i.capture { ins := ins, act := accessLanes d a m, off := x.lanes, opois := x.pois, data := y.1, dpois := y.2 })

/-- The effective type of an atomic (R160): MODE.ET, or d's tag under TAG; where d carries none it counts as RAW, which no atomic takes. -/
def Issue.atomType (i : Issue) (d : Sel) : Nat := if modeEt i.mode = tTAG then (i.val d).tag.getD tRAW else modeEt i.mode

/-- An atomic or reduction captured (R160, R163, R165): E is MODE.ET or d's tag, I32 or N32 (a RAW d under TAG is an illegal operand), and
d is checked against it. The effective type is kept as the scene's MODE.ET at the word. For cas both d and d + 1 are checked (R160 names
d; DEDUCED, log 93). -/
def Issue.atomWord (i : Issue) (ins : Instr) (d a : Sel) (n : Nat) : Except Trap Issue := do
  let e := i.atomType d
  i.need (e == tI32 || e == tN32)
  i.checkTags e (Sel.run d n)
  let x ← i.count a
  let y ← match d with
    | .k _ => (i.src e d).map fun z => ([z.lanes], 0#32)
    | _ => i.dataOf d n
  let m ← i.active
  .ok (i.capture { ins := ins, act := accessLanes d a m, off := x.lanes, opois := x.pois, data := y.1, dpois := y.2,
                   desc := [BitVec.ofNat 32 e] })

/-- LDB, LDH, LDW, LDQ (R157, R158). -/
def execLdb (d a : Sel) (w : BitVec 3) (k : BitVec 5) (s : State) : Out :=
  s.word (.ldb d a w k) fun i => i.loadWord (.ldb d a w k) d a
def execLdh (d a : Sel) (w : BitVec 3) (k : BitVec 5) (s : State) : Out :=
  s.word (.ldh d a w k) fun i => i.loadWord (.ldh d a w k) d a
def execLdw (d a : Sel) (w : BitVec 3) (k : BitVec 5) (s : State) : Out :=
  s.word (.ldw d a w k) fun i => i.loadWord (.ldw d a w k) d a
def execLdq (d a : Sel) (w : BitVec 3) (k : BitVec 5) (s : State) : Out :=
  s.word (.ldq d a w k) fun i => i.loadWord (.ldq d a w k) d a

/-- STB, STH, STW, STQ (R159). -/
def execStb (d a : Sel) (w : BitVec 3) (k : BitVec 5) (s : State) : Out :=
  s.word (.stb d a w k) fun i => i.storeWord (.stb d a w k) d a 1
def execSth (d a : Sel) (w : BitVec 3) (k : BitVec 5) (s : State) : Out :=
  s.word (.sth d a w k) fun i => i.storeWord (.sth d a w k) d a 1
def execStw (d a : Sel) (w : BitVec 3) (k : BitVec 5) (s : State) : Out :=
  s.word (.stw d a w k) fun i => i.storeWord (.stw d a w k) d a 1
def execStq (d a : Sel) (w : BitVec 3) (k : BitVec 5) (s : State) : Out :=
  s.word (.stq d a w k) fun i => i.storeWord (.stq d a w k) d a 4

/-- FAA to CAS (R160 to R164). -/
def execFaa (d a : Sel) (w : BitVec 3) (k : BitVec 5) (s : State) : Out :=
  s.word (.faa d a w k) fun i => i.atomWord (.faa d a w k) d a 1
def execFmn (d a : Sel) (w : BitVec 3) (k : BitVec 5) (s : State) : Out :=
  s.word (.fmn d a w k) fun i => i.atomWord (.fmn d a w k) d a 1
def execFmx (d a : Sel) (w : BitVec 3) (k : BitVec 5) (s : State) : Out :=
  s.word (.fmx d a w k) fun i => i.atomWord (.fmx d a w k) d a 1
def execFand (d a : Sel) (w : BitVec 3) (k : BitVec 5) (s : State) : Out :=
  s.word (.fand d a w k) fun i => i.atomWord (.fand d a w k) d a 1
def execFior (d a : Sel) (w : BitVec 3) (k : BitVec 5) (s : State) : Out :=
  s.word (.fior d a w k) fun i => i.atomWord (.fior d a w k) d a 1
def execFxor (d a : Sel) (w : BitVec 3) (k : BitVec 5) (s : State) : Out :=
  s.word (.fxor d a w k) fun i => i.atomWord (.fxor d a w k) d a 1
def execSwp (d a : Sel) (w : BitVec 3) (k : BitVec 5) (s : State) : Out :=
  s.word (.swp d a w k) fun i => i.atomWord (.swp d a w k) d a 1
def execCas (d a : Sel) (w : BitVec 3) (k : BitVec 5) (s : State) : Out :=
  s.word (.cas d a w k) fun i => i.atomWord (.cas d a w k) d a 2

/-- RADD, RMIN, RMAX, ROR (R165). -/
def execRadd (d a : Sel) (w : BitVec 3) (k : BitVec 5) (s : State) : Out :=
  s.word (.radd d a w k) fun i => i.atomWord (.radd d a w k) d a 1
def execRmin (d a : Sel) (w : BitVec 3) (k : BitVec 5) (s : State) : Out :=
  s.word (.rmin d a w k) fun i => i.atomWord (.rmin d a w k) d a 1
def execRmax (d a : Sel) (w : BitVec 3) (k : BitVec 5) (s : State) : Out :=
  s.word (.rmax d a w k) fun i => i.atomWord (.rmax d a w k) d a 1
def execRor (d a : Sel) (w : BitVec 3) (k : BitVec 5) (s : State) : Out :=
  s.word (.ror d a w k) fun i => i.atomWord (.ror d a w k) d a 1

/-- PFL (R166). -/
def execPfl (t : BitVec 1) (a : Sel) (w : BitVec 3) (k : BitVec 5) (s : State) : Out :=
  s.word (.pfl t a w k) fun i => i.loadWord (.pfl t a w k) (.v 0#7) a

/-- CPY (R167): captured with its length. -/
def execCpy (src d : BitVec 3) (a : Sel) (s : State) : Out :=
  s.word (.cpy src d a) fun i => do
    let x ← i.count a
    let m ← i.active
    .ok (i.capture { ins := .cpy src d a, act := m, desc := [x.at 0], cpois := x.pois != 0#32 })

/-- FENCE (R169). -/
def execFence (scope : BitVec 3) (s : State) : Out :=
  s.word (.fence scope) fun i => do
    let m ← i.active
    .ok (i.capture { ins := .fence scope, act := m })

/-- The imm16 of a barrier word (R172). -/
def barImm (g : BitVec 1) (p : BitVec 2) (h : BitVec 4) : Nat := g.toNat * 32768 + p.toNat * 16 + h.toNat

/-- BARA, BARW, BARS (R172): which Syntax field holds what: g the scope, p the phase, h the id. They act for the group whatever the guard
holds or its poison (R12 does not name them among its exceptions; DEDUCED, log 94). -/
def execBara (g : BitVec 1) (p : BitVec 2) (h : BitVec 4) (s : State) : Out :=
  s.word (.bara g p h) fun i => .ok { i with final := .barrier true false (g == 1#1) h.toNat p.toNat }
def execBarw (g : BitVec 1) (p : BitVec 2) (h : BitVec 4) (s : State) : Out :=
  s.word (.barw g p h) fun i => .ok { i with final := .barrier false true (g == 1#1) h.toNat p.toNat }
def execBars (g : BitVec 1) (p : BitVec 2) (h : BitVec 4) (s : State) : Out :=
  s.word (.bars g p h) fun i => .ok { i with final := .barrier true true (g == 1#1) h.toNat p.toNat }

/-- BARINIT (R172): the count's range is checked here. -/
def execBarinit (c : Sel) (g : BitVec 1) (p : BitVec 2) (h : BitVec 4) (s : State) : Out :=
  s.word (.barinit c g p h) fun i => do
    let x ← i.count c
    let n := (x.at 0).toNat
    i.need (decide (1 ≤ n) && decide (n ≤ 1024))
    let m ← i.active
    .ok (i.capture { ins := .barinit c g p h, act := m, desc := [x.at 0] })

/-- The comparand of a memory wait (R174). A constant under ET = TAG is an illegal operand: R41 has no row for TAG (DEDUCED, log 96). -/
def Issue.comparand (i : Issue) (d : Sel) : Except Trap Word :=
  match i.dataOf d 1 with
  | .ok x => .ok (laneAt (x.1.headD (lanesAll 0#32)) 0)
  | .error t => .error t

/-- MWNE and MWGE (R174): the whole fragment waits; the address is checked at the trailer. -/
def execMwne (d a : Sel) (w : BitVec 3) (k : BitVec 5) (s : State) : Out :=
  s.word (.mwne d a w k) fun i => do
    let c ← i.comparand d
    let x ← i.count a
    .ok { (i.capture { ins := .mwne d a w k, act := BitVec.ofNat 32 (2 ^ lowLane i.mask), off := x.lanes, opois := x.pois }) with
          final := .mwait .mwne c }
def execMwge (d a : Sel) (w : BitVec 3) (k : BitVec 5) (s : State) : Out :=
  s.word (.mwge d a w k) fun i => do
    let e := modeEt i.mode
    i.need (e == tI32 || e == tN32)
    let c ← i.comparand d
    let x ← i.count a
    .ok { (i.capture { ins := .mwge d a w k, act := BitVec.ofNat 32 (2 ^ lowLane i.mask), off := x.lanes, opois := x.pois }) with
          final := .mwait (if e = tI32 then .mwgeS else .mwgeU) c }

/-- DRAIN (R170): it waits whatever the guard holds (DEDUCED, log 94). -/
def execDrain (s : State) : Out := s.word .drain fun i => .ok { i with final := .drain }

/-- CWAIT (R175): it waits whatever the guard holds (DEDUCED, log 94). -/
def execCwait (c : BitVec 8) (s : State) : Out := s.word (.cwait c) fun i => .ok { i with final := .cwait c }

end Sys2Proof.Machine
end

