-- ==== Sys2Proof/Machine/HomeAccess.lean ====
section
/-! DEFINITION. One access served: which lines are owned or held (R154, R222), loads from L1, fly cache and home (R145 to
R147, R182), stores and atomics at the home (R183, R184), the order of a group's accesses (R185), watches (R174). -/

namespace Sys2Proof.Machine

/-- What an atomic writes for an old value and an operand (R160, R163). -/
def atomResult (op : AtomOp) (signed : Bool) (old x y : Word) : Word :=
  let less (a b : Word) : Bool := if signed then a.slt b else a.ult b
  match op with
  | .add => old + x
  | .min => if less x old then x else old
  | .max => if less old x then x else old
  | .and => old &&& x
  | .or => old ||| x
  | .xor => old ^^^ x
  | .swp => x
  | .cas => if old = x then y else old

/-- Bytes at an address with held stores and reductions laid over them in their order (R360). -/
def overlayHeld (s : State) (hs : List HeldStore) (pa : Nat) (bs : List Byte) : List Byte :=
  hs.foldl (fun bs h =>
    let base := s.readPa h.pa h.size
    let cur := (List.range h.size).map fun i =>
      if pa ≤ h.pa + i ∧ h.pa + i < pa + bs.length then bs.getD (h.pa + i - pa) 0#8 else base.getD i 0#8
    let old := BitVec.ofNat 32 (ofBytesLE cur)
    let x : Word := h.data.extractLsb' 0 32
    let new : List Byte :=
      match h.op.toNat with
      | 0x90 => bytesLE 4 (atomResult .add h.signed old x 0#32).toNat
      | 0x91 => bytesLE 4 (atomResult .min h.signed old x 0#32).toNat
      | 0x92 => bytesLE 4 (atomResult .max h.signed old x 0#32).toNat
      | 0x93 => bytesLE 4 (atomResult .or h.signed old x 0#32).toNat
      | _ => bytesLE h.size h.data.toNat
    (List.range bs.length).map fun i =>
      if h.pa ≤ pa + i ∧ pa + i < h.pa + h.size then new.getD (pa + i - h.pa) 0#8 else bs.getD i 0#8) bs

/-- A held lane put in its place by key. -/
def HeldStore.insert (h : HeldStore) : List HeldStore → List HeldStore
  | [] => [h]
  | x :: r => if h.word < x.word then h :: x :: r else x :: h.insert r

/-- The held data that an access of a group reads back (R360): its copy's, the group's own as far as it precedes the access. -/
def State.heldSeen (s : State) (g : Grp) (before : Nat) : List HeldStore :=
  if g.twin.isNone then []
  else
    let of (x : Grp) : List HeldStore :=
      if x.uid = g.uid then x.held.filter fun h => decide (h.word < before) else if x.gang = g.gang then x.held else []
    (s.groups.flatMap of).foldl (fun hs h => h.insert hs) []

/-- Bytes at a physical address as a group reads them with its copy's held data (R360). -/
def State.withHeld (s : State) (g : Grp) (before pa : Nat) (bs : List Byte) : List Byte := overlayHeld s (s.heldSeen g before) pa bs

/-- Whether the held data that an access of a group reads back covers a sector, clean, through one store word (R153, R360). -/
def State.heldClean (s : State) (g : Grp) (before pa : Nat) : Bool :=
  let stores := (s.heldSeen g before).filter fun h => h.op.toNat < 0x90 || 0x93 < h.op.toNat
  (heldWords stores).any fun w => (List.range 32).all fun i =>
    w.any fun h => decide (h.pa ≤ pa / 32 * 32 + i) && decide (pa / 32 * 32 + i < h.pa + h.size)

/-- No ordered access of a group is left (R185, R139). -/
def State.orderedDone (s : State) (u : Nat) : Bool :=
  s.reqs.all fun q => (q.placeFor u).isNone || q.pre.isSome || q.accs.all fun b => b.done || !ordered q.kind q.policy b.tgt

/-- Every access of a group has acted but those that wait in its write-combining buffer (R154, R246). -/
def State.accessesDone (s : State) (u : Nat) : Bool :=
  s.reqs.all fun q => (q.placeFor u).isNone || q.pre.isSome || (q.kind == .store && q.policy == .wc) || q.accs.all (·.done)

/-- The bytes of an access at the home, and their poison. -/
def State.homeBytes (s : State) (pa n : Nat) : List Byte × Bool := (s.readPa pa n, s.paPois pa n)

/-- Sectors added to a copy a site already holds (R146: fill per sector). -/
def State.fillCopy (s : State) (c : Copy) : State :=
  match s.copies.find? fun d => d.site == c.site && d.line == c.line && d.owner == c.owner && d.readShared == c.readShared && d.w == c.w && d.r == c.r with
  | none => s.putCopy c
  | some d =>
    let keep (b : Nat × Byte) : Bool := d.sectors.getLsbD (b.1 / 32)
    let mine := d.bytes.filter keep
    let more := (List.range 8).foldl (fun (m : Memory) k =>
      if c.sectors.getLsbD k && !d.sectors.getLsbD k then writeRun m (32 * k) (readRun c.bytes (32 * k) 32) else m) mine
    s.putCopy { d with born := min d.born c.born, sectors := d.sectors ||| c.sectors, bytes := more,
                       pois := (d.pois &&& d.sectors) ||| (c.pois &&& c.sectors &&& ~~~d.sectors) }

/-- Whether a leased copy may serve a load of a group (R182): its lease has not run out for the group, it is no older than the fences that
the group's own fences follow (R195), and it is of no line that a command of the group has written (R154). -/
def Grp.mayUse (g : Grp) (c : Copy) : Bool :=
  c.readShared || (decide (g.pts ≤ c.r) && decide (g.since ≤ c.born) && !g.copied.contains c.line)

/-- Whether a load of a group hits a copy near it (R145, R146, R182): answers the copy and whether it is the L1's. -/
def State.hit (s : State) (g : Grp) (pa n : Nat) (cls : Class) : Option (Copy × Bool) :=
  let l1 := l1Site g.core
  match cls with
  | .priv => (s.copyAt l1 pa n (some g.uid)).map fun c => (c, true)
  | _ =>
    match s.copyAt l1 pa n none with
    | some c =>
      if g.mayUse c then some (c, true)
      else if viaFly g.core pa then
        ((s.copyAt (flySite (dieOfCore g.core)) pa n none).filter g.mayUse).map fun c => (c, false)
      else none
    | none =>
      if viaFly g.core pa then
        ((s.copyAt (flySite (dieOfCore g.core)) pa n none).filter g.mayUse).map fun c => (c, false)
      else none

/-- A group has read a line at its home: its program time passes the line's write time (R182), and what its commands wrote there (R154). -/
def State.sawLine (s : State) (u line w : Nat) : State :=
  s.updGrp u fun g => { g.raise w with copied := g.copied.filter (· != line) }

/-- A load at the home (R145, R147, R182): value, poison and the state with times, copies and pts moved. reqPts is the
program time the request carries; a group whose own time the lease does not reach asks again with its own (R150). A private line fills
the L1 only while its group is on the core (R147), and an NT load fills none and marks its line (R147). -/
def State.loadHome (s : State) (g : Grp) (pa n reqPts : Nat) (cls : Class) (policy : Policy) (l1 : Bool) : List Byte × Bool × State :=
  let x := s.homeBytes pa n
  let l1Copy (w r : Nat) (owner : Option Nat) (rs : Bool) (s : State) : State :=
    let copy (site : Nat) : Copy := { s.freshCopy site pa n w r owner rs with part := g.part }
    let s : State := if viaFly g.core pa && owner.isNone then s.fillCopy (copy (flySite (dieOfCore g.core))) else s
    if l1 && (owner.isNone || s.onCore g) then s.fillCopy (copy (l1Site g.core)) else s
  match policy with
  | .nt => (x.1, x.2, s.markEarly g.core pa g.part)
  | .wc => (x.1, x.2, s)
  | .normal =>
    match cls with
    | .priv => (x.1, x.2, l1Copy 0 (2 ^ 48 - 1) (some g.uid) false s)
    | .readShared => (x.1, x.2, l1Copy 0 (2 ^ 48 - 1) none true s)
    | _ =>
      let t := s.homeLoad pa g.part (if g.pts ≤ max (s.lineTimes pa g.part).rts (reqPts + s.leaseLen pa) then reqPts else g.pts)
      let s : State := t.2.sawLine g.uid (lineOf pa) t.1.wts
      (x.1, x.2, l1Copy t.1.wts t.1.rts none false s)

/-- A load served by a copy near the core: a fly-cache copy fills L1 under its own lease (R146); pts rises to the copy's
write time (R182). -/
def State.loadHit (s : State) (g : Grp) (c : Copy) (inL1 : Bool) (pa n : Nat) : List Byte × Bool × State :=
  let x := c.serve pa n
  let s : State := if inL1 then s else s.fillCopy { c with site := l1Site g.core, sectors := c.sectors &&& sectorBits pa n }
  (x.1, x.2, if c.owner.isNone && !c.readShared then s.raisePts g.uid c.w else s)

/-- One load at once, from the nearest place that may serve it (R139: the read of a window descriptor). -/
def State.loadNow (s : State) (g : Grp) (pa n : Nat) (cls : Class) : List Byte × Bool × State :=
  let x : List Byte × Bool × State :=
    match s.hit g pa n cls with
    | some (c, l1) => s.loadHit g c l1 pa n
    | none => s.loadHome g pa n (((s.grp g.uid).map (·.pts)).getD g.pts) cls .normal true
  (s.withHeld g s.fresh pa x.1, x.2.1 && !s.heldClean g s.fresh pa, x.2.2)

/-- The coherent and bank lines of a range. -/
def leasedLines (ps : List (Nat × Nat × Target)) : List Nat :=
  (ps.flatMap fun p =>
    match p.2.2 with
    | .mem pa .coherent | .mem pa .bank =>
      (List.range ((pa + p.2.1 - 1) / 256 - pa / 256 + 1)).map (· + pa / 256)
    | _ => []).eraseDups

/-- An agent reads a source range as loads at its commit, in the group's order (R154, R182, R222): each coherent line's lease is extended
and the group's program time passes its write time. -/
def State.agentLoads (s : State) (u part : Nat) (ps : List (Nat × Nat × Target)) : State :=
  (leasedLines ps).foldl (fun (s : State) l =>
    let t := s.homeLoad (256 * l) part (((s.grp u).map fun g => g.pts).getD 0)
    t.2.raisePts u t.1.wts) s

/-- The program times of the groups a word was performed for pass a time (R183, R184, R362). -/
def State.raiseFor (s : State) (q : Req) (t : Nat) : State :=
  let s : State := s.raisePts q.uid t
  match q.twin with
  | some (v, _) => s.raisePts v t
  | none => s

/-- The core on which a gang's core number stands (R141). -/
def State.coreAt (s : State) (k c : Nat) : Option Nat := (s.gang k).bind fun g => g.cores[c]?

/-- The number of watches registered at a home slice, or at a core's scratchpad (R8, R174). -/
def State.watchesAt (s : State) (t : Target) : Nat :=
  let same (u : Target) : Bool :=
    match t, u with
    | .mem a _, .mem b _ => homeDie a == homeDie b && homeSlice s.conf.retired a == homeSlice s.conf.retired b
    | .scratch k c _, .scratch j d _ => (s.coreAt k c).isSome && s.coreAt k c == s.coreAt j d
    | _, _ => false
  (s.groups.map fun g =>
    (if g.slot0.watched && same (watchTarget g g.slot0) then 1 else 0)
      + (if g.slot1.watched && same (watchTarget g g.slot1) then 1 else 0)).sum

/-- A group that begins a scheduler-visible wait yields its place to a ready parked group of its core (R327). -/
def State.beganWait (s : State) (u : Nat) : State :=
  match s.grp u with
  | none => s
  | some g =>
    let s : State := s.updGang g.gang fun k => { k with waitSince := s.clk }
    match (s.core g.core).readyParked with
    | v :: rest =>
      if g.place = .resident && g.allWait then
        let s : State := s.leaveResident u g.core
        (s.updCore g.core fun c => { c with readyParked := rest }).makeResident v
      else s
    | [] => s

/-- A slot's wait condition over a word (R174). -/
def Slot.met (x : Slot) (v : Word) : Bool :=
  match x.wait with
  | .mwne => v != x.warg
  | .mwgeS => x.warg.sle v
  | .mwgeU => decide (x.warg.toNat ≤ v.toNat)
  | _ => false

/-- A memory waiter waits on the word at its WADDR, translated anew as it reads, when it resumes and after a shootdown (R25, R28, R174, R345);
where that fails it keeps its word, and reads nothing (DESIGN CHOICE, log 103). -/
def State.rewatch (s : State) (g : Grp) (x : Slot) : Slot :=
  if x.mwaits && x.wspace == 0#2 then
    match s.translate g.core g.part g.system x.waddr.toNat with
    | .ok (pa, _) => { x with wpa := pa }
    | .error _ => x
  else x

/-- Whether a memory waiter's word stands where its WADDR translates to now (R345). -/
def State.stillMapped (s : State) (g : Grp) (x : Slot) : Bool :=
  x.wspace != 0#2 || match s.translate g.core g.part g.system x.waddr.toNat with
    | .ok (pa, _) => pa == x.wpa
    | .error _ => false

/-- The key under which a memory waiter makes its demand on a bank (R245). -/
def mwaitKey (u : Nat) (slot : Bool) : Nat × Nat := (u, 2 * (2 ^ 60 + slot.toNat))

/-- One read of a memory waiter at its home or owning scratchpad, never a copy (R174): the wait ends, or a watch is
registered, or the next poll is 2,048 clocks on. -/
def State.mwaitRead (s : State) (u : Nat) (slot : Bool) : State :=
  match s.grp u with
  | none => s
  | some g =>
    let s : State := (s.served (mwaitKey u slot)).unawait fun w => w == .mwait u slot
    let x := g.slot slot
    let t := watchTarget g x
    let bs := match t with
      | .mem pa _ => s.withHeld g s.fresh pa (s.readPa pa 4)
      | .scratch _ _ _ => s.readTarget t 4
    let v := BitVec.ofNat 32 (ofBytesLE bs)
    let s : State :=
      match t with
      | .mem pa _ =>
        let h := s.homeLoad pa g.part g.pts
        h.2.raisePts u h.1.wts
      | .scratch _ _ _ => s
    if x.met v then s.endWait u slot
    else if x.watched then s.updGrp u fun y => y.updSlot slot fun z => { z with fired := false }
    else if s.watchesAt t < 32 then s.updGrp u fun y => y.updSlot slot fun z => { z with watched := true, fired := false }
    else s.updGrp u fun y => y.updSlot slot fun z => { z with due := s.clk + 2048 }

/-- Whether a memory waiter may read now: its group's earlier accesses are done, its word is where its page lies now, no agent owns the line,
and no unit holds its bank (R154, R185, R245, R345). -/
def State.mwaitReady (s : State) (g : Grp) (x : Slot) : Bool :=
  s.orderedDone g.uid && s.stillMapped g x &&
    match watchTarget g x with
    | .mem pa _ => !s.owned (lineOf pa) && !s.bankHolds pa false
    | .scratch _ _ _ => true

/-- A memory waiter that reads its word (R174): it does so where it may, once its group's earlier
accesses are done; else it waits at the home for the line (R154), or makes its demand
on the bank (R245). -/
def State.mwaitTry (s : State) (u : Nat) (slot : Bool) : State :=
  if !s.orderedDone u then s
  else
  let s : State := match s.grp u with
    | some g => if s.stillMapped g (g.slot slot) then s else s.updGrp u fun y => y.updSlot slot (s.rewatch g)
    | none => s
  match s.grp u with
  | none => s
  | some g =>
    let x := g.slot slot
    if s.mwaitReady g x then s.mwaitRead u slot
    else if !s.stillMapped g x then s
    else
      match watchTarget g x with
      | .mem pa _ => if s.owned (lineOf pa) then s.await (.mwait u slot) else s.demand pa (mwaitKey u slot) false
      | .scratch _ _ _ => s

end Sys2Proof.Machine
end

