-- ==== Sys2Proof/Machine/UnitCheck.lean ====
section
/-! DEFINITION. The "Check" step of engine, bank and graph words (R225, R251, R286, R413): each cause in its order, against
the hop registers, bindings, granules and lists as the earlier words of the scene leave them (R225). -/

namespace Sys2Proof.Machine

/-- What "Check" works on: the machine, and the group, engine state and page lists as later words of the scene will see
them (R225). -/
structure Ck where
  s : State
  g : Grp
  e : EngBlock
  lists : List PageList

/-- A command fault with its cause (R225, R251, R286). -/
def cmdTrap (cls idx cause : Nat) : Stop := .trap { cls := cls, idx := idx, cause := cause }

/-- The first cause of a list that holds. -/
def firstCause (cls idx : Nat) : List (Nat × Bool) → Except Stop Unit
  | [] => .ok ()
  | (c, b) :: r => if b then .error (cmdTrap cls idx c) else firstCause cls idx r

/-- A poisoned descriptor or operand (R50, R225, R251, R288). -/
def SOp.poisonStop (o : SOp) : Except Stop Unit :=
  if o.cpois then .error (.trap { cls := clsPoison, idx := o.idx, detail := lowLane o.act }) else .ok ()

/-- Descriptor word n. -/
def SOp.dw (o : SOp) (n : Nat) : Word := o.desc.getD n 0#32

/-- R(N, format) in granules (R211), N = 2^n. -/
def regionSize (n : Nat) (i8 : Bool) : Nat :=
  if i8 then ceilDiv (2 * 2 ^ n + 2 ^ n / 16) 4096 else ceilDiv (2 ^ n + 2 ^ n / 16) 4096

/-- The hop registers of a command's stages, first to last (R209), as log2 of the hops. -/
def stageHops (g : Grp) (first last : Nat) : List Nat :=
  if first ≤ last then (List.range (last - first + 1)).map fun k => g.hopReg (first + k)
  else (List.range (first - last + 1)).map fun k => g.hopReg (first - k)

def Ck.granule (k : Ck) (n : Nat) : Granule := tget k.e.gran n {}

/-- wload (R225, R227). -/
def Ck.wload (k : Ck) (o : SOp) : Except Stop (SOp × Ck) := do
  o.poisonStop
  let d := o.dw
  let first := bits (d 2) 15 0
  let count := bits (d 2) 31 16
  firstCause clsEngine o.idx
    [(1, bits (d 0) 31 27 != 0 || bits (d 3) 31 2 != 0 || decide (2 ≤ bits (d 3) 1 0)),
     (4, count == 0 || decide (k.g.book.gran < first + count)),
     (5, bits (d 0) 7 0 == 255)]
  let ps ← k.s.checkRange k.g o.idx (lowLane o.act) (k.g.window (bits (d 0) 26 24)) .load 3 (d 1).toNat (count * 4096)
  let mark (t : Tbl Granule) (j : Nat) : Tbl Granule := tset t (first + j) { st := .loading, i8 := bits (d 3) 1 0 == 1 }
  .ok ({ o with src := ps }, { k with e := { k.e with gran := (List.range count).foldl mark k.e.gran } })

/-- stage and chain (R225, R228), the causes in R225's order, GRANULE before LOST also where R234's example speaks of LOST (DEDUCED, log 101). -/
def Ck.stage (k : Ck) (o : SOp) (single : Bool) : Except Stop (SOp × Ck) := do
  o.poisonStop
  let d := o.dw
  let n := bits (d 1) 4 0
  let first := bits (d 0) 27 24
  let last := bits (d 0) 31 28
  let hops := stageHops k.g first last
  let inQ := bits (d 1) 15 12
  let outQ := bits (d 1) 19 16
  let qin := k.g.qbind inQ
  let qout := k.g.qbind outQ
  let g0 := bits (d 2) 15 0
  let head := k.granule g0
  let total := hops.length * regionSize n head.i8
  let isInput := match qin.kind with | .input _ => true | _ => false
  firstCause clsEngine o.idx
    [(1, bits (d 1) 31 29 != 0 || bits (d 1) 11 10 == 3 || decide (2 ≤ bits (d 1) 9 8) || decide (3 ≤ bits (d 1) 7 5)
        || decide (n < 4) || decide (16 < n) || bits (d 2) 31 16 != 0 || d 3 != 0#32 || (single && bits (d 1) 9 8 != 0)),
     (2, (single && first != last) || hops.any fun h => decide (n - 1 < h)),
     (3, decide (k.g.book.queues ≤ inQ) || decide (k.g.book.queues ≤ outQ) || !isInput || qout.kind != .output),
     (4, decide (k.g.book.gran < g0 + total) || head.st == .empty
        || (List.range total).any fun j => (k.granule (g0 + j)).st == .empty || (k.granule (g0 + j)).i8 != head.i8),
     (5, bits (d 0) 7 0 == 255),
     (6, qin.lost || qout.lost)]
  .ok (o, k)

/-- The granules and queues of a block on a core as its committed commands leave them (R212, R225, R232). -/
def State.engView (s : State) (gang coreIdx : Nat) : EngBlock :=
  let e := s.eng gang coreIdx
  let step (t : Tbl Granule) (c : ECmd) : Tbl Granule :=
    (List.range c.count).foldl (fun (t : Tbl Granule) j =>
      match c.kind with
      | .wfree => terase t (c.gran + j)
      | .wload => tset t (c.gran + j) { st := .loading, i8 := c.i8 }
      | .stage => t) t
  { e with gran := (s.ecmds.filter fun c => c.live && c.gang == gang && c.coreIdx == coreIdx).foldl step e.gran }

/-- Other groups of the block on the core that bind a queue otherwise, those whose binding is marked lost among them (R217, R223, R230). -/
def Ck.bindClash (k : Ck) (n : Nat) (kind : QKind) : Bool :=
  k.s.groups.any fun x => x.gang == k.g.gang && x.coreIdx == k.g.coreIdx && x.uid != k.g.uid && x.place != .ended
    && (x.qbind n).kind != .unbound && (x.qbind n).kind != kind

/-- A queue named by an unretired command of the block (R230): of the engine, or a collection that has not ended. -/
def State.queueNamed (s : State) (gang coreIdx n : Nat) : Bool :=
  (s.ecmds.any fun c => c.gang == gang && c.coreIdx == coreIdx && c.kind == .stage && (c.inQ == n || c.outQ == n)
    && (c.st == .waiting || c.st == .running || c.st == .held || c.owes != 0))
  || s.waves.any fun w => w.kind == .gcoll && w.gang == gang && w.coreIdx == coreIdx && w.queue == some n && w.st != .ended

/-- The kind a qcfg value names (R230). -/
def qcfgKind (x : Word) : QKind :=
  match bits x 1 0 with
  | 0 => .unbound
  | 1 => .input (BitVec.ofNat 2 (bits x 3 2))
  | 2 => .output
  | _ => .collect

/-- qcfg (R230). The queue and its commands are looked at as they stand at "Check", before this scene's own pushes and commands, and a binding
after an unbind changes no binding (DEDUCED, log 100). -/
def Ck.qcfg (k : Ck) (o : SOp) (n : Nat) : Except Stop (SOp × Ck) := do
  o.poisonStop
  let x := o.dw 0
  let kind := qcfgKind x
  let b := k.g.qbind n
  let q : Queue := tget k.e.queues n {}
  firstCause clsEngine o.idx
    [(1, bits x 31 4 != 0 || bits x 3 2 == 3 || (bits x 3 2 != 0 && bits x 1 0 != 1)),
     (3, decide (k.g.book.queues ≤ n) || (kind != .unbound && (k.bindClash n kind
        || (b.kind != .unbound && b.kind != kind && (!q.entries.isEmpty || k.s.queueNamed k.g.gang k.g.coreIdx n)))))]
  .ok (o, { k with g := k.g.setQ n { kind := kind, lost := false } })

/-- wfree (R232). -/
def Ck.wfree (k : Ck) (o : SOp) : Except Stop (SOp × Ck) := do
  o.poisonStop
  let a := (o.dw 0).toNat
  let b := (o.dw 1).toNat
  firstCause clsEngine o.idx [(4, b == 0 || decide (k.g.book.gran < a + b))]
  .ok (o, { k with e := { k.e with gran := (List.range b).foldl (fun t j => terase t (a + j)) k.e.gran } })

/-- A page list of the launch's table. -/
def Ck.list (k : Ck) (slot : Nat) : Option PageList :=
  k.lists.find? fun p => p.part == k.g.part && p.tab == k.g.book.pltab && p.slot == slot

/-- The frames of a window within its list, as indices of the list (R249). -/
def listFrames (p : PageList) (base n : Nat) : List (Option Nat) :=
  (List.range ((base + n - 1) / 65536 - base / 65536 + 1)).map fun i => if base / 65536 + i < p.first then none else some (base / 65536 + i - p.first)

/-- A bank window (R251, R413): its bound over n bytes, then LIST, then CLASS; causes are cls's own 4 and 2. -/
def Ck.bankWindow (k : Ck) (cls : Nat) (o : SOp) (w n : Nat) : Except Stop Unit :=
  let d := k.g.window w
  let stop := winLimit d
  if stop < n then .error (.trap { cls := clsWindow, idx := o.idx, detail := lowLane o.act })
  else if winPlv d = false then .error (cmdTrap cls o.idx 4)
  else
    match k.list (winPlist d) with
    | none => .error (cmdTrap cls o.idx 4)
    | some p =>
      let fs := if stop = 0 then [] else listFrames p (winBase d) stop
      let present (f : Option Nat) : Bool :=
        match f with
        | none => false
        | some i => (p.frames[i]?.getD none).isSome
      let isBank (f : Option Nat) : Bool :=
        match f with
        | none => false
        | some i => p.bankOk[i]?.getD false && ((p.frames[i]?.getD none).map fun x => decide (65536 * x < Config.memBytes)).getD false
      if !fs.all present then .error (cmdTrap cls o.idx 4)
      else if !fs.all isBank then .error (cmdTrap cls o.idx 2)
      else .ok ()

/-- The program of a slot that a word needs (R243, R251, R286): of a context, and of a type when one is asked. -/
def Ck.program (k : Ck) (slot ctx : Nat) (ty : Option Nat) : Option Prog :=
  (tfind (k.s.part k.g.part).progs slot).filter fun p => p.ctx == ctx && (ty.isNone || ty == some p.ty)

/-- A done, status or image window (R251, R290, R413): the checks of R140 for one word of 4 bytes. -/
def Ck.wordWindow (k : Ck) (o : SOp) (w off : Nat) (kind : AccKind) : Except Stop (List Acc) :=
  k.s.checkAccess k.g o.idx (k.g.window w) kind 3 4 [(lowLane o.act, off)]

/-- bexec (R252, R413): every window its descriptor names is checked, Y too when the program does not read it. -/
def Ck.bexec (k : Ck) (o : SOp) : Except Stop (SOp × Ck) := do
  o.poisonStop
  let d := o.dw
  let count := (d 1).toNat
  let bad (i : Nat) : Bool := bitOf (d 0) i
  firstCause clsBank o.idx
    [(1, bits (d 0) 31 20 != 0 || bad 15 || bad 11 || bad 7 || bad 3 || count == 0 || decide (2 ^ 30 < count) || d 3 != 0#32)]
  match k.program (bits (d 0) 19 16) 0 none with
  | none => .error (cmdTrap clsBank o.idx 3)
  | some p =>
    k.bankWindow clsBank o (bits (d 0) 2 0) (4 * count)
    k.bankWindow clsBank o (bits (d 0) 6 4) (4 * count)
    k.bankWindow clsBank o (bits (d 0) 10 8) (4 * count)
    let a ← k.wordWindow o (bits (d 0) 14 12) (d 2).toNat .doneAdd
    .ok ({ o with accs := a, prog := some p }, k)

/-- rowop (R254, R413). -/
def Ck.rowop (k : Ck) (o : SOp) : Except Stop (SOp × Ck) := do
  o.poisonStop
  let d := o.dw
  let n := (d 1).toNat
  let copy := bits (d 0) 1 0 == 1
  let z := winBase (k.g.window (bits (d 0) 6 4))
  let x := winBase (k.g.window (bits (d 0) 10 8))
  let overlap := x != z && decide (x < z + 65536 * n) && decide (z < x + 65536 * n)
  firstCause clsBank o.idx
    [(1, bits (d 0) 31 15 != 0 || bitOf (d 0) 11 || bitOf (d 0) 7 || bits (d 0) 3 2 != 0 || decide (2 ≤ bits (d 0) 1 0)
        || n == 0 || decide (2 ^ 24 < n) || d 3 != 0#32 || z % 65536 != 0 || (copy && (x % 65536 != 0 || overlap)))]
  k.bankWindow clsBank o (bits (d 0) 6 4) (65536 * n)
  if copy then k.bankWindow clsBank o (bits (d 0) 10 8) (65536 * n)
  let a ← k.wordWindow o (bits (d 0) 14 12) (d 2).toNat .doneAdd
  .ok ({ o with accs := a }, k)

/-- The frames bpage translates (R256), or the first failure. -/
def State.bpageFrames (s : State) (g : Grp) (o : SOp) : List Nat → Except Stop (List (Nat × TlbEntry))
  | [] => .ok []
  | f :: r =>
    match s.translate g.core g.part g.system (65536 * f) with
    | .error e => .error (walkStop o.idx (lowLane o.act) (65536 * f) 3 e)
    | .ok x =>
      match s.bpageFrames g o r with
      | .error e => .error e
      | .ok xs => .ok (x :: xs)

/-- bpage (R256). -/
def Ck.bpage (k : Ck) (o : SOp) (w : Nat) : Except Stop (SOp × Ck) := do
  o.poisonStop
  let d := k.g.window w
  let first := winBase d / 65536
  let n := if winLimit d = 0 then 0 else (winBase d + winLimit d - 1) / 65536 - first + 1
  firstCause clsBank o.idx [(1, decide (2 ^ 24 < n)), (4, winPlv d == false || winSpace d != 0)]
  let fs ← k.s.bpageFrames k.g o ((List.range n).map (first + ·))
  firstCause clsBank o.idx
    [(2, fs.any fun f => f.2.cls != .bank || decide (f.2.size < 65536) || decide (Config.memBytes ≤ f.1))]
  let ipas := fs.zipIdx.map fun f => (f.1.2.ipa + (65536 * (first + f.2) - f.1.2.va)) / 65536
  let p : PageList := { part := k.g.part, tab := k.g.book.pltab, slot := winPlist d, first := first,
                        frames := fs.map fun f => some (f.1 / 65536), bankOk := fs.map fun _ => true,
                        ipas := ipas }
  let other (q : PageList) : Bool := !(q.part == p.part && q.tab == p.tab && q.slot == p.slot)
  .ok ({ o with accs := fs.map fun f => { va := 0, tgt := .mem f.1 .bank }, ipas := ipas }, { k with lists := p :: k.lists.filter other })

/-- gbind (R289): a count of 0 unbinds and checks no window. -/
def Ck.gbind (k : Ck) (o : SOp) : Except Stop (SOp × Ck) := do
  o.poisonStop
  let d := o.dw
  let count := (d 1).toNat
  let nw := bits (d 0) 6 4
  let ew := bits (d 0) 10 8
  firstCause clsGraph o.idx
    [(1, bits (d 0) 31 11 != 0 || bitOf (d 0) 7 || d 2 != 0#32 || d 3 != 0#32
        || (count != 0 && (winBase (k.g.window nw) % 256 != 0 || winBase (k.g.window ew) % 8 != 0)))]
  if count ≠ 0 then
    k.bankWindow clsGraph o nw (256 * count)
    k.bankWindow clsGraph o ew 0
  .ok (o, k)

/-- gprog (R290): the image window, then the status window. -/
def Ck.gprog (k : Ck) (o : SOp) : Except Stop (SOp × Ck) := do
  o.poisonStop
  let d := o.dw
  let iw := k.g.window (bits (d 0) 6 4)
  let l := lowLane o.act
  firstCause clsGraph o.idx [(1, bits (d 0) 31 11 != 0 || bitOf (d 0) 7 || d 3 != 0#32)]
  if winLimit iw < (d 1).toNat + 128 then .error (.trap { cls := clsWindow, idx := o.idx, detail := l })
  else if (d 1).toNat % 4 ≠ 0 then .error (.trap { cls := clsAlign, idx := o.idx, detail := l })
  else
    let ps ← k.s.checkRange k.g o.idx l iw .load 3 (d 1).toNat 128
    let sw := k.g.window (bits (d 0) 10 8)
    if winLimit sw < (d 2).toNat + 4 then .error (.trap { cls := clsWindow, idx := o.idx, detail := l })
    else if (d 2).toNat % 4 ≠ 0 then .error (.trap { cls := clsAlign, idx := o.idx, detail := l })
    else
      let a ← k.wordWindow o (bits (d 0) 10 8) (d 2).toNat .store
      .ok ({ o with src := ps, accs := a }, k)

/-- gmark (R291). -/
def Ck.gmark (k : Ck) (o : SOp) : Except Stop (SOp × Ck) := do
  o.poisonStop
  let d := o.dw
  firstCause clsGraph o.idx [(1, bits (d 0) 31 18 != 0 || d 1 != 0#32 || d 2 != 0#32 || d 3 != 0#32)]
  match k.program (bits (d 0) 11 8) 1 none with
  | none => .error (cmdTrap clsGraph o.idx 3)
  | some p => .ok ({ o with prog := some p }, k)

/-- gclr (R291). -/
def Ck.gclr (k : Ck) (o : SOp) : Except Stop (SOp × Ck) := do
  o.poisonStop
  let d := o.dw
  firstCause clsGraph o.idx
    [(1, bits (d 0) 31 14 != 0 || (bitOf (d 0) 13 && decide (3 ≤ bits (d 0) 12 8)) || d 1 != 0#32 || d 2 != 0#32 || d 3 != 0#32)]
  .ok (o, k)

/-- gprop (R267, R268, R292). -/
def Ck.gprop (k : Ck) (o : SOp) : Except Stop (SOp × Ck) := do
  o.poisonStop
  let d := o.dw
  let kind := bits (d 0) 20 19
  let comb := bits (d 0) 18 16
  let hop := bits (d 0) 15 8
  let bad := bits (d 0) 31 28 != 0 || kind == 3 || decide (6 ≤ comb)
    || (kind == 0 && !(comb == 0 || comb == 1 || comb == 4)) || (comb == 5 && hop != 1)
    || (bitOf (d 0) 21 && (hop != 0 || decide (4 ≤ comb)))
    || bits (d 2) 31 29 != 0 || bits (d 2) 23 21 != 0 || bits (d 2) 15 13 != 0 || bits (d 2) 7 5 != 0
    || (kind != 0 && (decide (3 ≤ bits (d 2) 20 16) || decide (3 ≤ bits (d 2) 12 8))) || d 3 != 0#32
  firstCause clsGraph o.idx [(1, bad)]
  if bitOf (d 0) 23 then
    let ty := if kind = 1 then some 0 else if kind = 2 then some 1 else none
    match k.program (bits (d 0) 27 24) 2 ty with
    | none => .error (cmdTrap clsGraph o.idx 3)
    | some p => .ok ({ o with prog := some p }, k)
  else .ok (o, k)

/-- gcoll (R277, R293). -/
def Ck.gcoll (k : Ck) (o : SOp) : Except Stop (SOp × Ck) := do
  o.poisonStop
  let d := o.dw
  let toQueue := bitOf (d 0) 14
  let n := bits (d 0) 23 20
  let q := k.g.qbind n
  let size := if bitOf (d 0) 13 then 68 else 4
  firstCause clsGraph o.idx
    [(1, bits (d 0) 31 24 != 0 || bitOf (d 0) 19 || bitOf (d 0) 15 || (toQueue && d 1 != 0#32) || d 3 != 0#32),
     (5, toQueue && (decide (k.g.book.queues ≤ n) || q.kind != .collect || q.lost))]
  if toQueue then .ok (o, k)
  else
    let w := k.g.window (bits (d 0) 18 16)
    let l := lowLane o.act
    let n := (d 2).toNat * size
    if winLimit w < (d 1).toNat + n then .error (.trap { cls := clsWindow, idx := o.idx, detail := l })
    else if (d 1).toNat % 4 ≠ 0 then .error (.trap { cls := clsAlign, idx := o.idx, detail := l })
    else
      let ps ← k.s.checkRange k.g o.idx l w .store 3 (d 1).toNat n
      .ok ({ o with dst := ps }, k)

/-- A push or pop (R39, R218): the queue is bound by the group for that use, else an illegal-operand trap; a lost binding is
an engine-command fault with cause LOST. -/
def Ck.queueUse (k : Ck) (o : SOp) (n : Nat) (push : Bool) : Except Stop (SOp × Ck) :=
  let b := k.g.qbind n
  let right :=
    match b.kind with
    | .unbound => false
    | .input _ => push
    | .output | .collect => !push
  if !right || decide (k.g.book.queues ≤ n) then .error (.trap { cls := clsIllegalOperand, idx := o.idx })
  else if b.lost then .error (cmdTrap clsEngine o.idx 6)
  else .ok (o, k)

end Sys2Proof.Machine
end

