-- ==== Sys2Proof/Machine/Check.lean ====
section
/-! DEFINITION. The "Check" step of a scene (R37): every commit-time word and deferred producer in program order, then
the final word. -/

namespace Sys2Proof.Machine

/-- What a memory word does (R157 to R166, R174): its window, displacement, access size and kind. -/
def memForm : Instr → Option (Nat × Nat × Nat × AccKind)
  | .ldb _ _ w k => some (w.toNat, k.toNat, 1, .load)
  | .ldh _ _ w k => some (w.toNat, k.toNat, 2, .load)
  | .ldw _ _ w k => some (w.toNat, k.toNat, 4, .load)
  | .ldq _ _ w k => some (w.toNat, k.toNat, 16, .load)
  | .stb _ _ w k => some (w.toNat, k.toNat, 1, .store)
  | .sth _ _ w k => some (w.toNat, k.toNat, 2, .store)
  | .stw _ _ w k => some (w.toNat, k.toNat, 4, .store)
  | .stq _ _ w k => some (w.toNat, k.toNat, 16, .store)
  | .faa _ _ w k | .fmn _ _ w k | .fmx _ _ w k | .fand _ _ w k | .fior _ _ w k | .fxor _ _ w k | .swp _ _ w k
  | .cas _ _ w k | .radd _ _ w k | .rmin _ _ w k | .rmax _ _ w k | .ror _ _ w k => some (w.toNat, k.toNat, 4, .atomic)
  | .mwne _ _ w k | .mwge _ _ w k => some (w.toNat, k.toNat, 4, .wait)
  | _ => none

/-- A memory word's accesses (R140): poison of offset or data first, then the address checks; its window stands as at
scene start (R106). -/
def Ck.memory (k : Ck) (o : SOp) (w disp size : Nat) (kind : AccKind) : Except Stop (SOp × Ck) :=
  let bad := o.act &&& (o.opois ||| o.dpois)
  if bad ≠ 0#32 then .error (.trap { cls := clsPoison, idx := o.idx, detail := lowLane bad })
  else
    let ls := (lanesOf o.act).map fun l => (l, relOf (laneAt o.off l) disp size)
    match k.s.checkAccess k.g o.idx (k.g.window w) kind kind.code size ls with
    | .error e => .error e
    | .ok accs =>
      let data (a : Acc) : BitVec 128 :=
        BitVec.ofNat 128 ((o.data.zipIdx.map fun x => (laneAt x.1 a.lane).toNat * 2 ^ (32 * x.2)).sum % 2 ^ (8 * size))
      let second (a : Acc) : Word := laneAt (o.data.getD 1 (lanesAll 0#32)) a.lane
      .ok ({ o with accs := accs.map fun a => { a with data := data a, data2 := second a } }, k)

/-- pfl (R166): a poisoned offset traps; a lane that fails another check, or lies in scratchpad, is dropped; alignment is
never checked. Its size in R140's bound is the 256 bytes that R166 asks for (DEDUCED, log 97). -/
def Ck.prefetch (k : Ck) (o : SOp) (w disp : Nat) : Except Stop (SOp × Ck) :=
  let bad := o.act &&& o.opois
  let d := k.g.window w
  if bad ≠ 0#32 then .error (.trap { cls := clsPoison, idx := o.idx, detail := lowLane bad })
  else
    let ls := (lanesOf o.act).map fun l => (l, relOf (laneAt o.off l) disp 256)
    let good := ls.filterMap fun e =>
      if winLimit d < e.2 + 256 ∨ winSpace d = 1 ∨ winSpace d = 2 then none
      else
        match k.s.reach k.g o.idx e.1 0 (winSpace d) (winBase d + e.2) with
        | .ok t => if (k.s.targetFault t 1).isNone then some ({ lane := e.1, va := winBase d + e.2, tgt := t, size := 1 } : Acc) else none
        | .error _ => none
    .ok ({ o with accs := good }, k)

/-- cpy (R167): poison, both bounds, both translations, the destination's attribute. -/
def Ck.copy (k : Ck) (o : SOp) (src dst : Nat) : Except Stop (SOp × Ck) :=
  let n := (o.desc.getD 0 0#32).toNat
  let ws := k.g.window src
  let wd := k.g.window dst
  let l := lowLane o.act
  if o.cpois then .error (.trap { cls := clsPoison, idx := o.idx, detail := l })
  else if winLimit ws < n ∨ winLimit wd < n then .error (.trap { cls := clsWindow, idx := o.idx, detail := l })
  else
    match k.s.checkRange k.g o.idx l ws .load 3 0 n with
    | .error e => .error e
    | .ok ps =>
      match k.s.checkRange k.g o.idx l wd .store 3 0 n with
      | .error e => .error e
      | .ok pd => .ok ({ o with src := ps, dst := pd }, k)

/-- The cores of a group's gang (R141). -/
def State.gangCoresOf (s : State) (g : Grp) : Nat :=
  match s.gang g.gang with
  | some k => max k.cores.length g.book.gangCores
  | none => g.book.gangCores

/-- winld (R104, R138, R139): the descriptor is read once, as an ordinary load; the value it returns is checked. -/
def Ck.winld (k : Ck) (o : SOp) (n : Nat) : Except Stop (SOp × Ck) :=
  let l := lowLane o.act
  if k.g.book.wincount ≤ n then .error (.trap { cls := clsWindow, idx := o.idx, detail := l })
  else
    let va := k.g.book.wintab + 16 * n
    match k.s.translate k.g.core k.g.part k.g.system va with
    | .error e => .error (walkStop o.idx l va 0 e)
    | .ok (pa, e) =>
      match k.s.paFault pa 16 with
      | some f => .error (.fault f)
      | none =>
        let g := (k.s.grp k.g.uid).getD k.g
        let x := k.s.loadNow { k.g with pts := g.pts } pa 16 e.cls
        let v : BitVec 128 := BitVec.ofNat 128 (ofBytesLE x.1)
        if x.2.1 then .error (.trap { cls := clsPoison, idx := o.idx, detail := l })
        else if winOk k.g (k.s.gangCoresOf k.g) v then .ok ({ o with wval := v }, { k with s := x.2.2 })
        else .error (.trap { cls := clsWindow, idx := o.idx, detail := l })

/-- winsub (R105, R138). An empty window may begin at 2^57, one past the last address: BASE has 57 bits and holds 0 then (DEDUCED,
log 66). -/
def Ck.winsub (k : Ck) (o : SOp) (src : Nat) : Except Stop (SOp × Ck) :=
  let w := k.g.window src
  let a := (o.desc.getD 0 0#32).toNat
  let b := (o.desc.getD 1 0#32).toNat
  let l := lowLane o.act
  let v : BitVec 128 :=
    BitVec.ofNat 128 (w.toNat / 2 ^ 113 * 2 ^ 113 + b * 2 ^ 64 + w.toNat / 2 ^ 57 % 128 * 2 ^ 57 + (winBase w + a) % 2 ^ 57)
  if o.cpois then .error (.trap { cls := clsPoison, idx := o.idx, detail := l })
  else if winLimit w < a + b ∨ 2 ^ 57 < winBase w + a + b ∨ winOk k.g (k.s.gangCoresOf k.g) v = false then
    .error (.trap { cls := clsWindow, idx := o.idx, detail := l })
  else .ok ({ o with wval := v }, k)

/-- wrsp (R103): poison, then the value. -/
def Ck.wrsp (k : Ck) (o : SOp) (n : Nat) : Except Stop (SOp × Ck) :=
  let x := o.desc.getD 0 0#32
  if o.cpois then .error (.trap { cls := clsPoison, idx := o.idx, detail := lowLane o.act })
  else if (n = 19 ∧ modeOk x = false) ∨ (n = 21 ∧ bits x 1 0 ≠ 0) then .error (.trap { cls := clsIllegalOperand, idx := o.idx })
  else .ok (o, k)

/-- wrsys (R312): the register, then poison, then the value. -/
def Ck.wrsys (k : Ck) (o : SOp) (n : Nat) : Except Stop (SOp × Ck) :=
  let x := o.desc.getD 0 0#32
  if (k.s.readReg k.g.core n).isNone ∨ groupWritable n = false then .error (.trap { cls := clsIllegalOperand, idx := o.idx })
  else if o.cpois then .error (.trap { cls := clsPoison, idx := o.idx, detail := lowLane o.act })
  else if regValueOk (k.s.marginMax k.g.core) n x = false then .error (.trap { cls := clsIllegalOperand, idx := o.idx })
  else .ok (o, k)

/-- The key of a barrier phase in its gang: the block's barriers apart, the gang's below 1,024 (R171). -/
def barKey (g : Grp) (gang : Bool) (id phase : Nat) : Nat :=
  (if gang then 0 else 1024 * (g.gangB + 1)) + 4 * id + phase

/-- The key of a group's arrival record (R171). -/
def arrKey (gang : Bool) (id phase : Nat) : Nat := (if gang then 64 else 0) + 4 * id + phase

/-- A barrier phase's state (R171). -/
def State.barrier (s : State) (g : Grp) (gang : Bool) (id phase : Nat) : Barrier :=
  match s.gang g.gang with
  | some k => tget k.bars (barKey g gang id phase) {}
  | none => {}

/-- A barrier-phase fault (R172). -/
def barTrap (idx : Nat) : Stop := .trap { cls := clsBarrier, idx := idx }

/-- barinit (R172): no arrival counted at the phase. -/
def Ck.barinit (k : Ck) (o : SOp) (gang : Bool) (id phase : Nat) : Except Stop (SOp × Ck) :=
  if (k.s.barrier k.g gang id phase).count ≠ 0 then .error (barTrap o.idx) else .ok (o, k)

/-- An operand value out of its range (R225, R226, R231, R295): an illegal-operand trap, before poison is judged (log 17). -/
def SOp.needValue (o : SOp) (ok : Bool) : Except Stop Unit :=
  if ok then .ok () else .error (.trap { cls := clsIllegalOperand, idx := o.idx })

/-- A word whose effects come at "perform" and that acts in some lane, checked (R37). -/
def Ck.acting (k : Ck) (o : SOp) : Except Stop (SOp × Ck) :=
  match o.ins with
  | .wrsp _ n => k.wrsp o n.toNat
  | .winld _ n => k.winld o n.toNat
  | .winsub src _ _ _ => k.winsub o src.toNat
  | .pfl _ _ w d => k.prefetch o w.toNat d.toNat
  | .cpy src d _ => k.copy o src.toNat d.toNat
  | .barinit _ g p h => k.barinit o (g == 1#1) h.toNat p.toNat
  | .hop h _ => do
    let x := (o.dw 0).toNat
    o.needValue ((List.range 16).any fun j => x == 2 ^ j)
    o.poisonStop
    let l := ((List.range 16).find? fun j => x == 2 ^ j).getD 0
    .ok (o, { k with g := k.g.setH h.toNat (BitVec.ofNat 4 l) })
  | .wload _ => k.wload o
  | .stage _ => k.stage o true
  | .chain _ => k.stage o false
  | .cmit c | .cdisc c => do
    firstCause clsEngine o.idx [(5, c == 255#8)]
    .ok (o, k)
  | .qcfg q _ => k.qcfg o q.toNat
  | .cstat _ _ => do
    o.needValue (decide ((o.dw 0).toNat ≤ 255))
    o.poisonStop
    .ok (o, k)
  | .gstat _ _ _ => do
    o.needValue (decide ((o.dw 0).toNat ≤ 15) && decide ((o.dw 1).toNat ≤ 15))
    o.poisonStop
    .ok (o, k)
  | .wfree _ _ => k.wfree o
  | .gbind _ => k.gbind o
  | .gprog _ => k.gprog o
  | .gmark _ => k.gmark o
  | .gprop _ => k.gprop o
  | .gcoll _ => k.gcoll o
  | .gclr _ => k.gclr o
  | .bexec _ => k.bexec o
  | .rowop _ => k.rowop o
  | .bpage w => k.bpage o w.toNat
  | _ =>
    match memForm o.ins with
    | some (w, d, size, kind) => k.memory o w d size kind
    | none => .ok (o, k)

/-- A word whose effects come at "perform", checked (R37); words that act in no lane are checked for nothing but their
queue and, for wrsys, R312's checks, which stand whatever lanes act (R12, R39; log 15). -/
def Ck.op (k : Ck) (o : SOp) : Except Stop (SOp × Ck) :=
  match o.ins with
  | .mov (.q n) _ => k.queueUse o n.toNat true
  | .mov _ (.q n) => k.queueUse o n.toNat false
  | .wrsys _ n => k.wrsys o n.toNat
  | ins =>
    match (shape ins).d with
    | some { sel := .q n, .. } => k.queueUse o n.toNat true
    | _ => if o.act = 0#32 then .ok (o, k) else k.acting o

/-- All of a scene's later effects, in program order. -/
def Ck.ops (k : Ck) : List SOp → Except Stop (List SOp × Ck)
  | [] => .ok ([], k)
  | o :: r =>
    match k.op o with
    | .error e => .error e
    | .ok (o', k') =>
      match k'.ops r with
      | .error e => .error e
      | .ok (xs, k'') => .ok (o' :: xs, k'')

/-- The final word's check (R172): an arrival at a phase whose earlier arrival by the group is still open faults. -/
def State.checkFinal (s : State) (i : Issue) : Except Stop Unit :=
  match i.final with
  | .barrier true _ gang id phase =>
    let g := (s.grp i.g.uid).getD i.g
    let b := s.barrier g gang id phase
    if tfind g.arr (arrKey gang id phase) = some b.gen then .error (barTrap (i.words.length - 2))
    else .ok ()
  | _ => .ok ()

/-- "Check" of the scene in issue (R37): the resolved effects and the machine with the times of the descriptor reads. -/
def State.checkScene (s : State) (i : Issue) : Except Stop (List SOp × State) :=
  let g := (s.grp i.g.uid).getD i.g
  let view : Grp := { i.g with h := g.h, q := g.q, w := i.g.w }
  match Ck.ops { s := s, g := view, e := s.engView i.g.gang i.g.coreIdx, lists := s.plists } i.ops with
  | .error e => .error e
  | .ok (xs, k) =>
    match s.checkFinal i with
    | .error e => .error e
    | .ok _ => .ok (xs, k.s)

end Sys2Proof.Machine
end

