-- ==== Sys2Proof/Machine/WaveMath.lean ====
section
/-! DEFINITION. Pure parts of marker waves: combiners (R268 to R272), merging of messages in a switch (R275, R391), what waves read
and write (R279), conflicts (R280 to R282). -/

namespace Sys2Proof.Machine

/-- OR, AND, MIN, MAX of one element (R268), elements as signed numbers. -/
def combineElem (comb : Nat) (a b : Int) : Int :=
  let x := BitVec.ofInt 32 a
  let y := BitVec.ofInt 32 b
  match comb with
  | 0 => (x ||| y).toInt
  | 1 => (x &&& y).toInt
  | 2 => min a b
  | 3 => max a b
  | _ => a

/-- Elementwise combination. -/
def combineVals (comb : Nat) (a b : List Int) : List Int := List.zipWith (combineElem comb) a b

/-- Two messages of one wave combined in a switch (R275, R391): none where a sum leaves its 48-bit field; FIRST keeps one of the two, the
earlier over slots, and over bits one that is 1, since a 0 is ignored (R272). -/
def Marker.merge (comb : Nat) (slots : Bool) (a b : Marker) : Option Marker :=
  let both : Marker := { a with weight := a.weight + b.weight, count := a.count + b.count }
  if comb = 5 then
    let v := List.zipWith (· + ·) a.value b.value
    if v.all fun x => decide (-(2 ^ 47) ≤ x) && decide (x < 2 ^ 47) then some { both with value := v, pois := a.pois ||| b.pois } else none
  else if comb = 4 then
    if slots || a.value.headD 0 != 0 then some both else some { both with value := b.value, pois := b.pois }
  else some { both with value := combineVals comb a.value b.value, pois := a.pois ||| b.pois }

/-- A wave changed by its id; its record, if its tag still shows it (R263, R285). -/
def State.wave (s : State) (id : Nat) : Option Wave := s.waves.find? fun w => w.id == id
def State.updWave (s : State) (id : Nat) (f : Wave → Wave) : State := { s with waves := updFirst (fun w => w.id == id) f s.waves }
def State.updRec (s : State) (w : Wave) (f : WaveRec → WaveRec) : State :=
  s.updLaunch w.launch fun l =>
    let t := tget l.tags w.tag {}
    if t.record.wave = w.id then { l with tags := tset l.tags w.tag { t with record := f t.record } } else l

/-- Two marker packets at one port merge (R275, R391): the earlier keeps its place; none where they may not. -/
def State.mergeMarkers (s : State) (wave q p : Nat) : Option State :=
  match s.wave wave with
  | none => none
  | some w =>
    match w.msgs.find? (fun m => m.id == q), w.msgs.find? (fun m => m.id == p) with
    | some a, some b =>
      match a.merge w.comb w.slotKind b with
      | none => none
      | some m =>
        let f (x : Wave) : Wave := { x with msgs := updFirst (fun y => y.id == q) (fun _ => m) (x.msgs.filter fun y => y.id != p) }
        let s : State := s.updWave wave f
        some (s.updRec w fun r => { r with combined := (r.combined + 1) % 2 ^ 64 })
    | _, _ => none

/-- A marker or slot that waves read and write (R279). -/
inductive Mark where
  | bit (n : Nat)
  | slot (n : Nat)
  deriving DecidableEq, Repr

/-- The markers and slots a program reads (R279). -/
def Prog.marks (p : Prog) : List Mark :=
  p.ops.filterMap fun o =>
    match o.code with
    | 0x09 => some (.bit o.arg)
    | 0x04 => some (.slot (o.arg / 16))
    | _ => none

def progMarks (p : Option Prog) : List Mark :=
  match p with
  | some p => p.marks
  | none => []

/-- A wave's destination; its visit bit (FIRST over slots, R272). -/
def Wave.dest (w : Wave) : Mark := if w.slotKind then .slot w.dst else .bit w.dst
def Wave.visits (w : Wave) : List Mark := if w.kind = .gprop ∧ w.comb = 4 ∧ w.slotKind then [.bit w.visit] else []

/-- What a wave reads, the read of its own destination by a gprop apart (R279, R281). -/
def Wave.reads (w : Wave) : List Mark :=
  match w.kind with
  | .gmark => progMarks w.prog
  | .gprop => [.bit w.sel, if w.slotKind then .slot w.src else .bit w.src] ++ w.visits ++ progMarks w.prog
  | .gcoll => .bit w.sel :: (if w.emit1 then [.slot 0] else [])
  | _ => []

/-- What a wave writes (R279). -/
def Wave.writes (w : Wave) : List Mark :=
  match w.kind with
  | .gmark | .gclr => [w.dest]
  | .gprop => w.dest :: w.visits
  | _ => []

def meetsMarks (a b : List Mark) : Bool := a.any fun x => b.contains x

/-- Whether two waves conflict (R279). -/
def Wave.conflicts (a b : Wave) : Bool :=
  let all (w : Wave) : List Mark := w.reads ++ w.writes
  meetsMarks a.writes (all b) || meetsMarks b.writes (all a)

/-- Two gprops that may run at once (R281). -/
def Wave.joint (a b : Wave) : Bool :=
  a.kind == .gprop && b.kind == .gprop && a.dest == b.dest && a.comb == b.comb && decide (a.comb ≤ 3)
    && !meetsMarks a.writes b.reads && !meetsMarks b.writes a.reads

/-- Whether wave w may start behind the earlier wave e while e runs (R282). -/
def Wave.chains (w e : Wave) : Bool :=
  w.chained && w.kind == .gprop && e.kind == .gprop && decide (e.comb ≤ 3) && w.reads.contains e.dest
    && !meetsMarks w.writes (e.reads ++ e.writes)

/-- Whether a chained wave w propagates while the earlier wave e runs (R282): what e changes only adds sources, or makes a source value
grow the way w combines and sends it, so that the result is that of running w after e; else w holds its shares. Of the bit kind, a value that
has still to grow sends under OR, AND and FIRST nothing that would not stand in the end, with an edge program too (R267, R272); of a vector
kind, a program that does not read IN sends the same whatever the value. -/
def Wave.follows (w e : Wave) : Bool :=
  let source : Mark := if w.slotKind then .slot w.src else .bit w.src
  let same := w.comb == e.comb || (!w.slotKind && e.comb != 1 && w.comb != 1)
  let readsIn := match w.prog with | some p => p.ops.any fun o => o.code == 0x03 | none => false
  let fixed := w.slotKind && w.prog.isSome && !readsIn
  !(progMarks w.prog).contains e.dest && (e.dest != .bit w.sel || e.comb != 1)
    && (e.dest != source || fixed || (same && (w.prog.isNone || !w.slotKind)))

end Sys2Proof.Machine
end

