-- ==== Sys2Proof/Machine/Fabric.lean ====
section
/-! DEFINITION. The combining fabric (R382 to R393): the path of a combine-channel request, merging, replies split by
records, recovery, expiry, switch resets, failure of a die link (R393). -/

namespace Sys2Proof.Machine

/-- The hops of a packet inside one die from an input port to an output port (R382). -/
def diePath (d a b : Nat) : List Hop :=
  [{ die := d, stage := 0, sw := a / 4, out := b / 16 },
   { die := d, stage := 1, sw := b / 16 * 4 + a / 4 % 4, out := b / 4 % 4 },
   { die := d, stage := 2, sw := b / 4, out := b % 4 }]

/-- The fabric port of a core (R382), and the port of a home slice: four slices a cluster, two a port. -/
def corePort (c : Nat) : Nat := 2 * (c % Config.coresPerDie / 8) + c % 8 / 4
def slicePort (k : Nat) : Nat := k / 2

/-- What is attached to the 64 ports of a die's fabric (R382): half of a cluster with its two home slices, a link to die d XOR 1 or d XOR 2,
a stack, four banks of the fly cache, the wave controllers and the launch unit, the control cores with walkers, registers and outside
ports. -/
inductive PortUse where
  | cluster (c half : Nat)
  | link (neighbour k : Nat)
  | stack (k : Nat)
  | fly (firstBank : Nat)
  | controllers
  | system
  deriving DecidableEq, Repr

def portUse (p : Nat) : PortUse :=
  if p < 48 then .cluster (p / 2) (p % 2)
  else if p < 56 then .link (if p < 52 then 1 else 2) (p - 48)
  else if p < 58 then .stack (p - 56)
  else if p < 62 then .fly (4 * (p - 58))
  else if p = 62 then .controllers else .system

/-- The port of a stack of a die, and that of its wave controllers (R382). -/
def stackPort (k : Nat) : Nat := 56 + k
def controllerPort : Nat := 62

/-- The virtual channels of a switch's output port, lowest number first (R383); of what travels as a packet in the model, cas goes on the
requests channel and the rest on the combine channel. Which traffic stands at ports at all is log 95's (DESIGN CHOICE). -/
inductive Channel where
  | responses | system | combine | requests
  deriving DecidableEq, Repr

def Channel.number : Channel → Nat
  | .responses => 0 | .system => 1 | .combine => 2 | .requests => 3

def PktKind.channel : PktKind → Channel
  | .atomic .cas _ _ => .requests
  | _ => .combine

/-- The working die-link ports of a die to a neighbour (R384, R393): 0 to 3 lead to d XOR 1, 4 to 7 to d XOR 2. -/
def State.workingPorts (s : State) (d n : Nat) : List Nat :=
  (List.range 8).filter fun p => linkNeighbour d p == n && !(s.die d).linksFailed.contains p && !(s.die n).linksFailed.contains p

/-- The next die towards a home (R384). -/
def State.nextDie (s : State) (d home : Nat) : Nat :=
  if home = d ^^^ 3 then
    (if !(s.workingPorts d (d ^^^ 1)).isEmpty && !(s.workingPorts (d ^^^ 1) home).isEmpty && !(s.die (d ^^^ 1)).failed then d ^^^ 1 else d ^^^ 2)
  else if !(s.workingPorts d home).isEmpty then home
  else if home = d ^^^ 1 then d ^^^ 2 else d ^^^ 1

/-- The hops from a port of a die to a port of another (R382, R384); the link port is chosen by a fixed hash of the line address, DESIGN
CHOICE (log 7). -/
def State.pathTo (s : State) (line dst port : Nat) : Nat → (d a : Nat) → List Hop
  | 0, _, _ => []
  | n + 1, d, a =>
    if d = dst then diePath d a port
    else
      let m := s.nextDie d dst
      let ps := s.workingPorts d m
      let p := ps.getD (line % ps.length) 0
      diePath d a (48 + p) ++ s.pathTo line dst port n m (48 + p)

/-- The hops to the home slice of an address. -/
def State.pathFrom (s : State) (pa d a : Nat) : List Hop :=
  s.pathTo (lineOf pa) (homeDie pa) (slicePort (homeSlice s.conf.retired pa)) 4 d a
def State.pathOf (s : State) (core pa : Nat) : List Hop := s.pathFrom pa (dieOfCore core) (corePort core)

/-- The hops to the stack that holds an address, for messages of a wave (R275). -/
def State.stackPath (s : State) (pa d a : Nat) : List Hop := s.pathTo (lineOf pa) (stackOf pa / 2) (stackPort (stackOf pa % 2)) 4 d a

/-- The hops to the wave controllers of a die (R382, R383). -/
def State.ctrlPath (s : State) (die d a : Nat) : List Hop := s.pathTo 0 die controllerPort 4 d a

/-- The hops of a packet from a port of a die on. -/
def State.packetPath (s : State) (p : Packet) (d a : Nat) : List Hop :=
  match p.kind with
  | .atomic _ _ _ => s.pathFrom p.pa d a
  | .marker _ _ => s.stackPath p.pa d a
  | .weight _ die _ => s.ctrlPath die d a

/-- Whether an atomic operation's requests merge (R160, R162, R383). -/
def AtomOp.merges (op : AtomOp) : Bool := op != .cas

/-- The core's requests for a word's atomics (R161): lanes that name one word are merged in ascending order, cas apart. -/
def State.sendAtomics (s : State) (r : Req) : State :=
  let pas := (r.accs.zipIdx.filterMap fun x =>
    match x.1.tgt with
    | .mem pa _ => some (pa, x.2)
    | .scratch _ _ _ => none)
  let heads := if r.op.merges then
      pas.foldl (fun (hs : List (Nat × Nat)) x => if hs.any fun h => h.1 == x.1 then hs else hs ++ [x]) []
    else pas
  heads.foldl (fun s h =>
    let k := s.takeKey
    let xs := r.accs.filter fun a => match a.tgt with | .mem pa _ => pa == h.1 | .scratch _ _ _ => false
    let word (a : Acc) : Word := a.data.extractLsb' 0 32
    let x := if r.op.merges then
        match xs with
        | [] => 0#32
        | a :: rest => rest.foldl (fun x b => atomResult r.op r.signed x (word b) 0#32) (word a)
      else ((r.accs[h.2]?).map word).getD 0#32
    let p : Packet := { id := k.1, part := r.part, kind := .atomic r.op r.signed (r.kind == .atomic), pa := h.1, operand := x,
                        list := [{ req := r.id, acc := h.2, operand := x }],
                        path := s.pathOf r.core h.1 }
    { k.2 with pkts := k.2.pkts ++ [p] }) s

/-- A packet changed, or taken out. -/
def State.updPkt (s : State) (id : Nat) (f : Packet → Packet) : State := { s with pkts := updFirst (fun p => p.id == id) f s.pkts }
def State.dropPkt (s : State) (id : Nat) : State := { s with pkts := s.pkts.filter fun p => p.id != id }

/-- Whether each constituent's group has finished its earlier accesses (R185): the request may set out. -/
def State.constReady (s : State) (p : Packet) : Bool :=
  p.list.all fun c =>
    match s.reqs.find? (fun r => r.id == c.req) with
    | some r => s.mayAct r c.acc
    | none => true

/-- Whether two packets merge when both stand at one port (R385, R391). -/
def Packet.mergesWith (a b : Packet) : Bool :=
  a.part == b.part && a.pa == b.pa && a.id != b.id &&
    match a.kind, b.kind with
    | .atomic op sg rt, .atomic op' sg' rt' =>
      op == op' && sg == sg' && rt == rt' && (!rt || decide (a.list.length + b.list.length ≤ 8))
    | .marker w t, .marker w' t' => w == w' && t == t'
    | .weight w _ _, .weight w' _ _ => w == w'
    | _, _ => false

/-- The records of one output port (R387). -/
def State.recordsAt (s : State) (h : Hop) : Nat := (s.recs.filter fun r => r.at_ == h).length

/-- A packet leaves the port it waits at. -/
def Packet.advance (p : Packet) : Packet := { p with held := false, ready := false, passed := 0, path := p.path.tail }

/-- A packet that waits at its port to be sent uncombined (R386). -/
def Packet.uncombined (p : Packet) : Packet := { p with held := false, ready := true }

/-- The packets that an output port may send (R383, R386): those outside the table, and those whose hold has ended. -/
def State.readyAt (s : State) (h : Hop) : List Packet :=
  s.pkts.filter fun p => p.path.head? == some h && (p.ready || (p.held && decide (p.due ≤ s.clk)))

/-- The packet that an output port sends next (R383): one that 64 packets have passed, else the first of the lowest-numbered channel. -/
def State.sentNext (s : State) (h : Hop) : Option Packet :=
  let ps := s.readyAt h
  (ps.find? fun p => decide (64 ≤ p.passed)).or
    ((List.range 4).findSome? fun c => ps.find? fun p => p.kind.channel.number == c)

/-- A packet sent from its port: it goes on, and has passed those of higher-numbered channels that were ready there (R383). -/
def State.sendPacket (s : State) (h : Hop) (p : Packet) : State :=
  let waits := ((s.readyAt h).filter fun q => decide (p.kind.channel.number < q.kind.channel.number)).map (·.id)
  let pass (q : Packet) : Packet := if waits.contains q.id then { q with passed := q.passed + 1 } else q
  ({ s with pkts := s.pkts.map pass } : State).updPkt p.id Packet.advance

/-- A new record of a merge, with the fault that COMBTEST injects at the target switch (R387, R392). -/
def State.makeRecord (s : State) (h : Hop) (a b : Packet) (op : AtomOp) (signed : Bool) : State :=
  let k := s.takeKey
  let t := (s.die h.die).combtest
  let hit := bits t 13 12 == h.stage && bits t 11 8 == h.sw && decide (0 < bits t 23 16) && (bits t 1 0 == 1 || bits t 1 0 == 2)
  let s : State := k.2
  let s : State := if hit then s.updDie h.die fun y => { y with combtest := setField t 23 16 (bits t 23 16 - 1) } else s
  let r : Record := { id := k.1, at_ := h, aId := a.id, bId := b.id, k := a.list.length, n := a.list.length + b.list.length,
                      x := a.operand, op := op, signed := signed, due := s.clk + clksOfUs 64,
                      good := if hit then (if bits t 1 0 = 1 then 1 else 0) else 2 }
  { s with recs := r :: s.recs }

/-- COMBINE_REQUEST_ARRIVAL (R383 to R387, R391): a packet reaches the next port of its path and merges with a matching packet held
there, takes a table entry for WIN clocks, or waits to be sent uncombined, as a request of the requests channel does. -/
def execCombineRequestArrival (pkt : Nat) (s : State) : Out :=
  match s.pkts.find? (fun p => p.id == pkt) with
  | none => .next s
  | some p =>
    match p.path with
    | [] => .next s
    | h :: _ =>
      if p.held || p.ready || !s.constReady p then .next s
      else
        let d := s.die h.die
        let here (q : Packet) : Bool := q.held && q.path.head? == some h
        if bitOf d.combwin 8 || p.kind.channel == .requests then .next (s.updPkt pkt Packet.uncombined)
        else
          let ret := match p.kind with | .atomic _ _ rt => rt | _ => false
          match s.pkts.find? (fun q => here q && q.mergesWith p && (!ret || decide (s.recordsAt h < 256))) with
          | some q =>
            match p.kind with
            | .atomic op signed _ =>
              let merged : Packet := { q with operand := atomResult op signed q.operand p.operand 0#32, list := q.list ++ p.list, pts := max q.pts p.pts }
              let s : State := if ret then s.makeRecord h q p op signed else s
              .next ((s.updPkt q.id fun _ => merged).dropPkt p.id)
            | .marker w _ =>
              match s.mergeMarkers w q.id p.id with
              | some t => .next (t.dropPkt p.id)
              | none => .next (s.updPkt pkt Packet.uncombined)
            | .weight w die n =>
              let more : Nat := match q.kind with | .weight _ _ m => m | _ => 0
              .next ((s.updPkt q.id fun _ => { q with kind := .weight w die (more + n) }).dropPkt p.id)
          | none =>
            if (s.pkts.filter here).length < 64 then
              .next (s.updPkt pkt fun p => { p with held := true, due := s.clk + bits d.combwin 6 0 })
            else
              let s : State := s.updDie h.die fun y => { y with fabstat := setField y.fabstat 15 8 (min (bits y.fabstat 15 8 + 1) 255) }
              .next (s.updPkt pkt Packet.uncombined)

/-- COMBINE_HOLD_EXPIRY (R383, R386): a packet that may be sent is sent when its port chooses it. -/
def execCombineHoldExpiry (pkt : Nat) (s : State) : Out :=
  match s.pkts.find? (fun p => p.id == pkt) with
  | none => .next s
  | some p =>
    match p.path with
    | [] => .next s
    | h :: _ => if (s.sentNext h).map (·.id) == some pkt then .next (s.sendPacket h p) else .next s

/-- A constituent's reply reaches its core (R161, R162): the lanes the core merged share it in lane order. -/
def Req.deliver (r : Req) (acc : Nat) (v : Word) (pois : Bool) : Req :=
  match r.accs[acc]? with
  | none => r
  | some a0 =>
    let word (a : Acc) : Word := a.data.extractLsb' 0 32
    let go (st : List Acc × Word) (a : Acc) : List Acc × Word :=
      if (if r.op.merges then a.tgt == a0.tgt else a.lane == a0.lane) && !a.done then
        (st.1 ++ [{ a with done := true, res := st.2.setWidth 128, rpois := pois }], atomResult r.op r.signed st.2 (word a) a.data2)
      else (st.1 ++ [a], st.2)
    { r with accs := (r.accs.foldl go ([], v)).1 }

def State.deliver (s : State) (c : Constituent) (v : Word) (pois : Bool) : State :=
  { s with reqs := updFirst (fun r => r.id == c.req) (fun r => r.deliver c.acc v pois) s.reqs }

/-- The values of a list of constituents from position m on: each receives v combined with the operands before it (R388). -/
def replyValues (op : AtomOp) (signed : Bool) (v : Word) : List Constituent → List (Constituent × Word)
  | [] => []
  | c :: r => (c, v) :: replyValues op signed (atomResult op signed v c.operand 0#32) r

/-- HOME_ATOMIC (R161, R184, R388): a request, merged or not, acts at its home as one step at one time; a merged returning one
is logged and answered by one reply, an unmerged one at once. Lines an agent owns or a wload holds make it wait. -/
def execHomeAtomic (pkt : Nat) (s : State) : Out :=
  match s.pkts.find? (fun p => p.id == pkt) with
  | none => .next s
  | some p =>
    match p.kind with
    | .atomic op signed ret =>
      if !p.path.isEmpty || !s.constReady p then .next s
      else if !s.lineFree (lineOf p.pa) then .next (s.await (.atomic pkt))
      else if s.bankHolds p.pa true then .next (s.demand p.pa (pkt, 0) true)
      else
        let reqs := p.list.filterMap fun c => s.reqs.find? fun r => r.id == c.req
        let ptsOf (r : Req) : Nat := ((s.grp r.uid).map (·.pts)).getD 0
        let pts := reqs.foldl (fun m r => max m (ptsOf r)) p.pts
        let y := (p.list.head?.bind fun c => (s.reqs.find? fun r => r.id == c.req).bind fun r => (r.accs[c.acc]?).map (·.data2)).getD 0#32
        let cls : Class := (p.list.head?.bind fun c => (s.reqs.find? fun r => r.id == c.req).bind fun r => (r.accs[c.acc]?).map fun a => a.tgt.cls).getD .coherent
        let old := BitVec.ofNat 32 (s.readPaNat p.pa 4)
        let pois := s.paPois p.pa 4
        let t := s.writeTime p.pa p.part pts
        let s : State :=
          if (s.die (homeDie p.pa)).failed then
            reqs.foldl (fun s r => s.imprecise .homelost r.part r.imgSlot r.ord p.pa) s
          else s.writePa p.pa (bytesLE 4 (atomResult op signed old p.operand y).toNat)
        let s : State :=
          let s : State := if cls == .bank || (s.die (homeDie p.pa)).failed then s else s.noteDirty p.pa 4 p.part
          if cls == .priv then s.dropCopies p.pa
          else
            let s : State := reqs.foldl (fun s r => (s.raiseFor r t).refreshCopies r.core p.pa t) (s.stampLine p.pa p.part t)
            (reqs.filter fun r => r.policy == .nt).foldl (fun s r => s.markEarly r.core p.pa p.part) s
        let s : State := (((s.fireWatches (.mem p.pa .coherent) 4).dropPkt pkt).served (pkt, 0)).unawait fun w => w == .atomic pkt
        let n := p.list.length
        if ret && decide (1 < n) then
          let k := s.takeKey
          let log : HomeLog := { id := p.id, die := homeDie p.pa, list := p.list, value := old, pois := pois, op := op,
                                 signed := signed, time := t, due := s.clk + clksOfUs 64 }
          let reply : Reply := { id := k.1, home := p.id, cur := p.id, lo := 0, hi := n - 1, value := old, pois := pois }
          .next { k.2 with hlogs := log :: k.2.hlogs, replies := k.2.replies ++ [reply] }
        else .next (p.list.foldl (fun s c => s.deliver c old pois) s)
    | _ => .next s

/-- One half of a split reply goes on: to its requester when its range holds one entry (R388). -/
def State.sendReply (s : State) (r : Reply) : State :=
  if r.lo = r.hi then
    match (s.hlogs.find? fun l => l.id == r.home).bind (fun l => l.list[r.lo]?) with
    | some c => s.deliver c r.value r.pois
    | none => s
  else
    let k := s.takeKey
    { k.2 with replies := k.2.replies ++ [{ r with id := k.1 }] }

/-- REPLY_SPLIT (R388, R389): the record of the reply's id splits it; with no usable record the switch returns it to the home
marked RECOVER. -/
def execReplySplit (reply : Nat) (s : State) : Out :=
  match s.replies.find? (fun r => r.id == reply) with
  | none => .next s
  | some r =>
    if r.recover then .next s
    else
      let s : State := { s with replies := s.replies.filter fun x => x.id != reply }
      match s.recs.find? (fun x => x.aId == r.cur && x.n == r.hi - r.lo + 1) with
      | some x =>
        let s : State := { s with recs := s.recs.filter fun y => y.id != x.id }
        if x.good = 0 then
          .next { s with replies := s.replies ++ [{ r with recover := true }] }
        else
          let s : State := if x.good = 1 then
              s.updDie x.at_.die fun y => { y with fabstat := setField y.fabstat 23 16 (min (bits y.fabstat 23 16 + 1) 255) } else s
          let s : State := s.sendReply { r with cur := x.aId, hi := r.lo + x.k - 1 }
          .next (s.sendReply { r with cur := x.bId, lo := r.lo + x.k, value := atomResult x.op x.signed r.value x.x 0#32 })
      | none => .next { s with replies := s.replies ++ [{ r with recover := true }] }

/-- RECOVER_REPLY (R389): the home answers each constituent of the range from its log, and counts the recovery. -/
def execRecoverReply (reply : Nat) (s : State) : Out :=
  match s.replies.find? (fun r => r.id == reply) with
  | none => .next s
  | some r =>
    if r.recover = false then .next s
    else
      match s.hlogs.find? (fun l => l.id == r.home) with
      | none => .next s
      | some l =>
        let vs := replyValues l.op l.signed l.value l.list
        let mine := (vs.drop r.lo).take (r.hi - r.lo + 1)
        let s : State := { s with replies := s.replies.filter fun x => x.id != reply }
        let s : State := s.updDie l.die fun y => { y with fabstat := setField y.fabstat 31 24 (min (bits y.fabstat 31 24 + 1) 255) }
        .next (mine.foldl (fun s c => s.deliver c.1 c.2 r.pois) s)

/-- RECORD_EXPIRY (R390): a record unmatched 64 µs after it was made is freed and counted. -/
def execRecordExpiry (record : Nat) (s : State) : Out :=
  match s.recs.find? (fun x => x.id == record) with
  | none => .next s
  | some x =>
    if x.due ≤ s.clk then
      let s : State := { s with recs := s.recs.filter fun y => y.id != record }
      .next (s.updDie x.at_.die fun y => { y with fabstat := setField y.fabstat 7 0 (min (bits y.fabstat 7 0 + 1) 255) })
    else .next s

/-- HOME_LOG_EXPIRY (R389): a log entry is discarded 64 µs after its request was applied; its replies are back by then
(R390). -/
def execHomeLogExpiry (entry : Nat) (s : State) : Out :=
  match s.hlogs.find? (fun l => l.id == entry) with
  | none => .next s
  | some l => if l.due ≤ s.clk && !s.replies.any fun r => r.home == entry then .next { s with hlogs := s.hlogs.filter fun x => x.id != entry } else .next s

/-- A packet that has still to leave a die by a port that fails is sent on another (R393): from the first switch of that die which it has
not passed. -/
def State.reroute (s : State) (d port : Nat) (p : Packet) : Packet :=
  let before := p.path.takeWhile fun h => h.die != d
  match p.path.drop before.length with
  | [] => p
  | h :: rest =>
    if (h :: rest).any fun x => x.die == d && x.stage == 2 && x.sw == 12 + port / 4 && x.out == port % 4 then
      let a := if h.stage = 0 then 4 * h.sw else 4 * (h.sw % 4)
      { p with held := p.held && !before.isEmpty, ready := p.ready && !before.isEmpty, passed := 0, path := before ++ (s.packetPath p d a).drop h.stage }
    else p

/-- The living dies that a die reaches over working ports, itself among them (R393). -/
def State.reachable (s : State) : Nat → List Nat → List Nat
  | 0, ds => ds
  | n + 1, ds =>
    let next (d : Nat) : List Nat := [d ^^^ 1, d ^^^ 2].filter fun m => !(s.die m).failed && !(s.workingPorts d m).isEmpty
    State.reachable s n (ds ++ ds.flatMap next).eraseDups

/-- The living dies that no path reaches (R393): those outside the largest part of the package that its links still join; of two parts of
one size the one with the lowest-numbered die stays (DESIGN CHOICE, log 86). -/
def State.cutOff (s : State) : List Nat :=
  let alive := (List.range 4).filter fun d => !(s.die d).failed
  let part (d : Nat) : List Nat := s.reachable 3 [d]
  let best := alive.foldl (fun b d => if b.length < (part d).length then part d else b) []
  alive.filter fun d => !best.contains d

/-- A die is lost (R366), and with it the dies that no path reaches any more (R393). -/
def State.loseDie (s : State) (d : Nat) : State := s.loseDiesSince s (d :: (s.markLost d).cutOff)

/-- DIE_FAILURE (R366). -/
def execDieFailure (die : Nat) (s : State) : Out := .next (s.loseDie die)
/-- THERMAL_STOP (R408): the die stops, is reported, and is treated as lost. -/
def execThermalStop (die : Nat) (s : State) : Out := .next ((s.loseDie die).send (.thermal die 1))

/-- DIE_LINK_FAILURE (R393): a port runs at half width and counts in LINKDEG, or fails entirely and sets LINKLOST, and what has still to
cross it goes by another; LINKDEG only rises (R379); dies that no path reaches are lost. -/
def execDieLinkFailure (die port : Nat) (full : Bool) (s : State) : Out :=
  let x := s.die die
  if full then
    if x.linksFailed.contains port then .next s
    else
      let t : State := s.updDie die fun x => { x with linksFailed := port :: x.linksFailed, linksHalf := x.linksHalf.filter (· != port) }
      let t : State := t.healthEvent die fun h => setBit h 25 true
      let t : State := { t with pkts := t.pkts.map fun p => t.reroute (linkNeighbour die port) port (t.reroute die port p) }
      .next (t.loseDiesSince s t.cutOff)
  else if x.linksHalf.contains port ∨ x.linksFailed.contains port then .next s
  else
    let t : State := s.updDie die fun x => { x with linksHalf := port :: x.linksHalf }
    .next ((t.healthEvent die fun h => setField h 24 21 (min (bits h 24 21 + 1) 8)).alarm s none)

/-- SWITCH_RESET (R390). -/
def execSwitchReset (die stage switch : Nat) (s : State) : Out := .next (s.resetSwitch die stage switch)

end Sys2Proof.Machine
end

