-- ==== Sys2Proof/Machine/Perform.lean ====
section
/-! DEFINITION. The "perform" step of memory, barrier, window and special-register words (R37, R151, R158 to R174): what
leaves the scene, and what makes it stall. -/

namespace Sys2Proof.Machine

/-- A byte of CRC-64 as ECMA-182 defines it (R359). -/
def crcByte (c : BitVec 64) (b : Byte) : BitVec 64 :=
  (List.range 8).foldl (fun (c : BitVec 64) _ => if c.getLsbD 63 then (c <<< 1) ^^^ 0x42F0E1EBA9EA3693#64 else c <<< 1)
    (c ^^^ (b.setWidth 64 <<< 56))

/-- Bytes fed to a signature (R359); only a group of an understudied gang keeps one. -/
def Grp.feed (g : Grp) (bs : List Byte) : Grp := if g.twin.isSome then { g with sig := bs.foldl crcByte g.sig } else g

/-- The major opcode of a word. -/
def opcodeOf (ins : Instr) : Byte := ((encode? ins).getD 0#32).extractLsb' 24 8

/-- The bytes a store, atomic or reduction feeds (R359). -/
def accBytes (ins : Instr) (a : Acc) : List Byte :=
  let two := match ins with | .cas _ _ _ _ => bytesLE 4 a.data2.toNat | _ => []
  [opcodeOf ins] ++ bytesLE 8 a.va ++ [BitVec.ofNat 8 a.size] ++ bytesLE a.size a.data.toNat ++ two

/-- The bytes a cpy feeds (R359). -/
def cpyBytes (dst src n : Nat) : List Byte := [0x95#8] ++ bytesLE 8 dst ++ bytesLE 8 src ++ bytesLE 4 n

/-- The windows a command's descriptor names, in field order (R359). -/
def descWindows (ins : Instr) (d : Word) : List Nat :=
  match ins with
  | .bexec _ => [bits d 2 0, bits d 6 4, bits d 10 8, bits d 14 12]
  | .rowop _ => [bits d 6 4, bits d 10 8, bits d 14 12]
  | .gbind _ | .gprog _ => [bits d 6 4, bits d 10 8]
  | .gcoll _ => if bitOf d 14 then [] else [bits d 18 16]
  | .wload _ => [bits d 26 24]
  | _ => []

/-- The bytes a command feeds (R359): opcode, descriptor, BASE and LIMIT of each named window. -/
def cmdBytes (g : Grp) (o : SOp) : List Byte :=
  [opcodeOf o.ins] ++ (o.desc.flatMap fun w => bytesLE 4 w.toNat)
    ++ (descWindows o.ins (o.desc.getD 0 0#32)).flatMap fun n => bytesLE 8 (winBase (g.window n)) ++ bytesLE 8 (winLimit (g.window n))

/-- Whether a word makes its scene store-bearing (R352). -/
def bears (o : SOp) : Bool :=
  match o.ins with
  | .bexec _ | .rowop _ | .gbind _ | .gprog _ | .gmark _ | .gprop _ | .gcoll _ | .gclr _ => true
  | .cpy _ _ _ => !o.dst.isEmpty
  | ins =>
    match memForm ins with
    | some (_, _, _, .store) | some (_, _, _, .atomic) => !o.accs.isEmpty
    | _ => false

/-- Whether a group compares with its twin at a word (R361), or before it is performed once for both copies (R362). -/
def comparesAt (o : SOp) : Bool :=
  match o.ins with
  | .fence _ | .bexec _ | .rowop _ | .gbind _ | .gprog _ | .gmark _ | .gprop _ | .gcoll _ | .gclr _ | .wload _ | .cpy _ _ _ => true
  | ins => !o.accs.isEmpty && (produces ins).isSome && (match memForm ins with | some (_, _, _, .atomic) => true | _ => false)

/-- Whether a word is performed once, by the primary (R362). -/
def primaryOnly (o : SOp) : Bool :=
  match o.ins with
  | .bexec _ | .rowop _ | .gbind _ | .gprog _ | .gmark _ | .gprop _ | .gcoll _ | .gclr _ | .wload _ | .cpy _ _ _ => true
  | _ => comparesAt o && o.accs.any fun a => match a.tgt with | .mem _ _ => true | _ => false

/-- The copies of a core whose scratchpad ranges an access of the core meets (R152). -/
def hitsRange (rs : List (Nat × Nat × Nat × Nat)) (t : Target) (n : Nat) : Bool :=
  rs.any fun r => t.overlap n (.scratch r.1 r.2.1 r.2.2.1) r.2.2.2
def State.rangeBusy (s : State) (core : Nat) (t : Target) (n : Nat) (write : Bool) : Bool :=
  s.cpys.any fun c => c.core == core && (hitsRange c.dstRanges t n || (write && hitsRange c.srcRanges t n))

/-- A queue's waiting pops served in their order (R218): each takes the front entry and its result can land. -/
def serveQueue : Nat → Queue → List Pending → Queue × List Pending
  | 0, q, out => (q, out)
  | n + 1, q, out =>
    match q.entries, q.pops with
    | e :: es, p :: ps => serveQueue n { q with entries := es, pops := ps } (out ++ [{ p with got := some e }])
    | _, _ => (q, out)

/-- A queue of a gang's core changed, and its pops served. -/
def State.updQueue (s : State) (gang coreIdx n : Nat) (f : Queue → Queue) : State :=
  let e := s.eng gang coreIdx
  let q := f (tget e.queues n {})
  let r := serveQueue q.pops.length q []
  { s.setEng { e with queues := tset e.queues n r.1 } with status := s.status ++ r.2 }

def State.queue (s : State) (gang coreIdx n : Nat) : Queue := tget (s.eng gang coreIdx).queues n {}

/-- Bits by which a load sign-extends its value (R157): ldb and ldh under I32, I16x2 and I8x4. -/
def signBits (ins : Instr) (et : Nat) : Nat :=
  let sg := et == tI32 || et == tI16 || et == tI8
  match ins with
  | .ldb _ _ _ _ => if sg then 8 else 0
  | .ldh _ _ _ _ => if sg then 16 else 0
  | _ => 0

/-- The registers a deferred result lands in (R47). -/
def destOf (d : Sel) (n : Nat) : Dest :=
  match d with
  | .v x => .v x.toNat n
  | .s x => .s x.toNat n
  | _ => .none

/-- The tag a load's result carries (R158). -/
def loadTag (mode : Word) : BitVec 4 := BitVec.ofNat 4 (if modeEt mode = tTAG then tRAW else modeEt mode)

/-- The window policy of a memory word (R147). -/
def opPolicy (g : Grp) (ins : Instr) : Policy :=
  match memForm ins with
  | some (w, _, _, _) => winPolicy (g.window w)
  | none => .normal

/-- The lines in memory that accesses touch. -/
def memLines (accs : List Acc) : List Nat :=
  (accs.filterMap fun a => match a.tgt with | .mem pa _ => some (lineOf pa) | .scratch _ _ _ => none).eraseDups

/-- The clock at which the collection window of a line of a core's loads ends: that of a window still open, else of a new one (R150). -/
def State.windowEnd (s : State) (core line : Nat) : Nat :=
  let joins (q : Req) : Option Nat :=
    if q.core = core ∧ q.kind = .load then ((tfind q.wins line).filter fun d => decide (s.clk < d) && (tfind q.sent line).isNone) else none
  (s.reqs.findSome? joins).getD (s.clk + bits (s.core core).gcwin 6 0)

/-- A request for a word's accesses, numbered and put in line. -/
def State.addReq (s : State) (r : Req) : Req × State :=
  let k := s.takeKey
  let r := { r with id := k.1 }
  (r, { k.2 with reqs := k.2.reqs ++ [r] })

/-- The common fields of a group's request. -/
def reqFor (g : Grp) (i : Issue) (o : SOp) (kind : ReqKind) : Req :=
  { uid := g.uid, core := g.core, part := g.part, kind := kind, policy := opPolicy i.g o.ins, accs := o.accs, act := o.act,
    ord := i.ord, imgSlot := g.imgSlot }

/-- A load at "perform" (R150, R152, R158): scratchpad is read at once, memory through the collector's 128 entries, of which each load
word that still waits takes one (what an entry is, is DESIGN CHOICE, log 69); a WC-window load first writes the group's own sectors
that it overlaps. -/
def State.doLoad (s : State) (g : Grp) (i : Issue) (o : SOp) (d : Sel) (n : Nat) : Option State :=
  let r : Req := { reqFor g i o .load with dest := destOf d n, tag := loadTag o.mode, ext := signBits o.ins (modeEt o.mode) }
  let mem := o.accs.any fun a => match a.tgt with | .mem _ _ => true | _ => false
  if mem then
    if 128 ≤ (s.reqs.filter fun q => q.core == g.core && q.kind == .load && !q.woken).length then none
    else
      let touch (e : WcEntry) : Bool := e.uid == g.uid && o.accs.any fun a => a.tgt.overlap a.size (.mem (32 * e.sector) .coherent) 32
      let s : State := if r.policy = .wc then s.wcFlush g.core touch else s
      let wins := (memLines o.accs).foldl (fun (t : Tbl Nat) l => tset t l (s.windowEnd g.core l)) []
      some (s.addReq { r with wins := wins }).2
  else if o.accs.any fun a => s.rangeBusy g.core a.tgt a.size false then none
  else
    let read (a : Acc) : Acc :=
      { a with done := true, res := BitVec.ofNat 128 (ofBytesLE (s.readTarget a.tgt a.size)), rpois := s.targetPois a.tgt a.size }
    some (s.addReq { r with accs := o.accs.map read, woken := true }).2

/-- Scratchpad lanes of a store, in lane order: where lanes write the same bytes the highest-numbered lane's stand (R149). -/
def State.storeScratch (s : State) (accs : List Acc) : State :=
  let s : State := accs.foldl (fun s a => s.writeTarget a.tgt (bytesLE a.size a.data.toNat)) s
  let whole (a : Acc) : List Target :=
    match a.tgt with
    | .scratch k c b =>
      let inSector (x : Acc) (i : Nat) : Bool := x.tgt.overlap x.size (.scratch k c (b / 32 * 32 + i)) 1
      if (List.range 32).all fun i => accs.any fun x => inSector x i then [.scratch k c (b / 32 * 32)] else []
    | _ => []
  let clear (s : State) (t : Target) : State := s.writeTarget t (s.readTarget t 32)
  let s : State := (accs.flatMap whole).foldl clear s
  accs.foldl (fun s a => s.fireWatches a.tgt a.size) s

/-- One lane put into the write-combining buffer (R148): merged into its group's entry, else a new entry, for which the oldest
leaves when all 64 are in use; a complete sector leaves. -/
def State.wcPut (s : State) (g : Grp) (req : Nat) (a : Acc) (n : Nat) : State :=
  match a.tgt with
  | .scratch _ _ _ => s
  | .mem pa _ =>
    let sec := pa / 32
    let off := pa % 32
    let m : BitVec 32 := BitVec.ofNat 32 ((2 ^ a.size - 1) * 2 ^ off)
    let keep : BitVec 256 := ~~~(BitVec.ofNat 256 ((2 ^ (8 * a.size) - 1) * 2 ^ (8 * off)))
    let new : BitVec 256 := BitVec.ofNat 256 (a.data.toNat % 2 ^ (8 * a.size) * 2 ^ (8 * off))
    let mine (e : WcEntry) : Bool := e.uid == g.uid && e.sector == sec
    let put (e : WcEntry) : WcEntry :=
      { e with mask := e.mask ||| m, data := (e.data &&& keep) ||| new, lanes := e.lanes ++ [(req, n)] }
    let wc := (s.core g.core).wc
    let s : State :=
      if wc.any mine then s.updCore g.core fun c => { c with wc := updFirst mine put c.wc }
      else
        let s : State :=
          match wc with
          | e :: _ => if 64 ≤ wc.length then s.wcFlush g.core fun x => x.uid == e.uid && x.sector == e.sector else s
          | [] => s
        s.updCore g.core fun c =>
          { c with wc := c.wc ++ [put { uid := g.uid, sector := sec, since := s.clk, bank := a.tgt.cls == .bank }] }
    s.wcFlush g.core fun e => mine e && e.mask == BitVec.allOnes 32

/-- A lane of a store or reduction of an understudied group is held (R360). -/
def heldOf (i : Issue) (ins : Instr) (signed : Bool) (word : Nat) (a : Acc) : HeldStore :=
  { op := opcodeOf ins, va := a.va, pa := (match a.tgt with | .mem pa _ => pa | _ => 0), cls := a.tgt.cls,
    policy := opPolicy i.g ins, size := a.size, data := a.data, signed := signed, ord := i.ord,
    word := word, pc := i.pc }

/-- The sectors of held lanes of a group. -/
def heldSectors (u : Nat) (hs : List HeldStore) : List (Nat × Nat) := hs.map fun h => (u, h.pa / 32)

/-- The lanes of a word held for a comparison (R360, R361): none while the hold ways of the issuing core's die lack room for their
sectors. The lanes up to the group's 64th held lane and those after it are released apart. -/
def State.hold (s : State) (g : Grp) (i : Issue) (ins : Instr) (signed : Bool) (accs : List Acc) : Option State :=
  let n := 64 - g.held.length
  let hs := (accs.take n).map (heldOf i ins signed s.fresh) ++ (accs.drop n).map (heldOf i ins signed (s.fresh + 1))
  let here := s.groups.flatMap fun x => if dieOfCore x.core = dieOfCore g.core then heldSectors x.uid x.held else []
  if Config.holdSectors < (here ++ heldSectors g.uid hs).eraseDups.length then none
  else
    let s : State := ({ s with fresh := s.fresh + 2 } : State).updGrp g.uid fun x => { x with held := x.held ++ hs }
    some (if g.under then s else s.addSide g.part g.imgSlot i.ord i.pc (heldWords hs).length)

/-- A store at "perform" (R148, R152, R159, R360). -/
def State.doStore (s : State) (g : Grp) (i : Issue) (o : SOp) : Option State :=
  let mem := o.accs.any fun a => match a.tgt with | .mem _ _ => true | _ => false
  if !mem then
    if o.accs.any fun a => s.rangeBusy g.core a.tgt a.size true then none else some (s.storeScratch o.accs)
  else if g.twin.isSome then s.hold g i o.ins false o.accs
  else
    let x := s.addReq (reqFor g i o .store)
    let s : State := x.2.addSide g.part g.imgSlot i.ord i.pc 1
    if x.1.policy = .wc then some (o.accs.zipIdx.foldl (fun s a => s.wcPut g x.1.id a.1 a.2) s) else some s

/-- The operation of an atomic or reduction (R160, R165). -/
def atomOpOf : Instr → AtomOp
  | .fmn _ _ _ _ | .rmin _ _ _ _ => .min
  | .fmx _ _ _ _ | .rmax _ _ _ _ => .max
  | .fand _ _ _ _ => .and
  | .fior _ _ _ _ | .ror _ _ _ _ => .or
  | .fxor _ _ _ _ => .xor
  | .swp _ _ _ _ => .swp
  | .cas _ _ _ _ => .cas
  | _ => .add

/-- Scratchpad atomics, each lane in order as one step at the owning scratchpad (R142, R161). -/
def State.atomScratch (s : State) (op : AtomOp) (signed : Bool) : List Acc → List Acc × State
  | [] => ([], s)
  | a :: r =>
    let old := BitVec.ofNat 32 (ofBytesLE (s.readTarget a.tgt 4))
    let pois := s.targetPois a.tgt 4
    let new := atomResult op signed old (a.data.extractLsb' 0 32) a.data2
    let s : State := (s.writeTarget a.tgt (bytesLE 4 new.toNat)).fireWatches a.tgt 4
    let x := s.atomScratch op signed r
    ({ a with done := true, res := old.setWidth 128, rpois := pois } :: x.1, x.2)

/-- An atomic or reduction at "perform" (R161, R165, R360, R362); d is none for a reduction. -/
def State.doAtomic (s : State) (g : Grp) (i : Issue) (o : SOp) (d : Option Sel) : Option State :=
  let signed := (o.desc.getD 0 0#32).toNat == tI32
  let op := atomOpOf o.ins
  let kind : ReqKind := if d.isSome then .atomic else .reduction
  let dest := match d with | some x => destOf x 1 | none => .none
  let r : Req := { reqFor g i o kind with op := op, signed := signed, dest := dest, tag := (o.desc.getD 0 0#32).extractLsb' 0 4 }
  let mem := o.accs.any fun a => match a.tgt with | .mem _ _ => true | _ => false
  if !mem then
    if o.accs.any fun a => s.rangeBusy g.core a.tgt a.size true then none
    else
      let x := s.atomScratch op signed o.accs
      if d.isSome then some (x.2.addReq { r with accs := x.1, woken := true, acked := true }).2 else some x.2
  else if g.twin.isSome ∧ d.isNone then s.hold g i o.ins signed o.accs
  else
    let x := s.addReq { r with twin := g.twin.map fun t => (t, s.fresh) }
    let s : State := x.2.addSide g.part g.imgSlot i.ord i.pc 1
    some (s.sendAtomics x.1)

/-- A line brought toward a core by a prefetch (R166): into L1 and the fly cache, or the fly cache or home slice alone, as a load takes
its lease; the group's registers, program time and record of its commands' lines stay. -/
def State.prefetchLine (s : State) (g : Grp) (pa : Nat) (cls : Class) (l1 : Bool) : State :=
  let line := lineOf pa * 256
  let fly := (s.copyAt (flySite (dieOfCore g.core)) line 256 none).filter g.mayUse
  let fetch (s : State) : State := (s.loadHome g line 256 g.pts cls .normal l1).2.2
  let t : State :=
    if l1 then
      match s.hit g line 256 cls with
      | some (c, inL1) => (s.loadHit g c inL1 line 256).2.2
      | none => fetch s
    else if viaFly g.core pa && fly.isSome then s
    else fetch s
  t.updGrp g.uid fun x => { x with pts := g.pts, copied := g.copied }

/-- A prefetch at "perform" (R166): a line that an agent owns, or whose bank a unit holds, is brought in once its request is served (R154,
R245). -/
def State.doPrefetch (s : State) (g : Grp) (i : Issue) (o : SOp) (l1 : Bool) : State :=
  let waits (a : Acc) : Bool := match a.tgt with | .mem pa _ => s.owned (lineOf pa) || s.bankHolds pa false | .scratch _ _ _ => false
  let now (s : State) (a : Acc) : State :=
    match a.tgt, s.grp g.uid with
    | .mem pa cls, some x => s.prefetchLine x pa cls l1
    | _, _ => s
  let later := o.accs.filter waits
  let s : State := (o.accs.filter fun a => !waits a).foldl now s
  if later.isEmpty then s
  else (s.addReq { reqFor g i { o with accs := later } .load with policy := .normal, woken := true, pre := some l1 }).2

/-- The lines of a range that agents own for coherent destinations (R154). -/
def pieceLines (ps : List (Nat × Nat × Target)) : List Nat :=
  (ps.flatMap fun p =>
    match p.2.2 with
    | .mem pa _ => (List.range ((pa + p.2.1 - 1) / 256 - pa / 256 + 1)).map (· + pa / 256)
    | .scratch _ _ _ => []).eraseDups

/-- A range's pieces in scratchpad, as the scoreboard enters them (R151): a range in gang space that spans the allocations of several
cores is a range of each of them and takes an entry for each (DESIGN CHOICE, log 69). -/
def scratchRanges (ps : List (Nat × Nat × Target)) : List (Nat × Nat × Nat × Nat) :=
  ps.filterMap fun p =>
    match p.2.2 with
    | .scratch k c a => some (k, c, a, p.2.1)
    | .mem _ _ => none

/-- Each byte of a range with its offset, value and poison (R153), as a group's command reads it: with its copy's held data (R360). -/
def State.rangeBytes (s : State) (g : Grp) (ps : List (Nat × Nat × Target)) : List (Nat × Byte × Bool) :=
  let bytes (p : Nat × Nat × Target) : List Byte :=
    match p.2.2 with
    | .mem pa _ => s.withHeld g s.fresh pa (s.readPa pa p.2.1)
    | .scratch _ _ _ => s.readTarget p.2.2 p.2.1
  let clean (t : Target) : Bool := match t with | .mem pa _ => s.heldClean g s.fresh pa | .scratch _ _ _ => false
  ps.flatMap fun p => ((bytes p).zipIdx.map fun b =>
    (p.1 + b.2, b.1, s.targetPois (p.2.2.shift b.2) 1 && !clean (p.2.2.shift b.2)))

/-- The pieces of a range whose window has the normal policy: those read as loads in the logical order (R147). -/
def normalPieces (w : BitVec 128) (ps : List (Nat × Nat × Target)) : List (Nat × Nat × Target) :=
  if winPolicy w = .normal then ps else []

/-- Lines that a command of a group writes: the group, and its twin, load them from their homes from now on (R154). -/
def State.noteCopied (s : State) (g : Grp) (lines : List Nat) : State :=
  let note (x : Grp) : Grp := { x with copied := (x.copied ++ lines).eraseDups }
  let s : State := s.updGrp g.uid note
  match g.twin with
  | some t => s.updGrp t note
  | none => s

/-- The WC sectors of a group that a range touches. -/
def wcTouches (u : Nat) (ps : List (Nat × Nat × Target)) (e : WcEntry) : Bool :=
  e.uid == u && ps.any fun p => p.2.2.overlap p.2.1 (.mem (32 * e.sector) .coherent) 32

/-- Whether a sector of a group that a range touches has left a buffer and waits at its home (R148, R154, R191). -/
def State.wcWaits (s : State) (g : Grp) (ps : List (Nat × Nat × Target)) : Bool :=
  s.cores.any fun c => c.2.wcOut.any (wcTouches g.uid ps)

/-- The copies of a core's copy engine (R168). -/
def State.copiesOn (s : State) (core : Nat) : List CopyCmd := s.cpys.filter fun c => c.core == core

/-- The lines whose banks a word waits for as it is performed (R245): its source is read, and a gprog's status word written, there. -/
def State.bankedLines (s : State) (o : SOp) : List (Nat × Bool) :=
  let status := match o.ins with | .gprog _ => memLines o.accs | _ => []
  ((pieceLines o.src).filter fun l => s.bankHolds (256 * l) false).map (fun l => (l, false))
    ++ (status.filter fun l => s.bankHolds (256 * l) true).map fun l => (l, true)

/-- A stalled word's demand on the banks that it waits for, and the end of a performed word's (R245). -/
def State.askBanks (s : State) (g : Grp) (o : SOp) : State :=
  (s.bankedLines o).foldl (fun s l => s.demand (256 * l.1) (g.uid, 2 * l.1 + 1) l.2) s
def State.servedBanks (s : State) (g : Grp) : State :=
  { s with banks := s.banks.map fun b => (b.1, { b.2 with waits := b.2.waits.filter fun w => !(w.1 == g.uid && w.2.1 % 2 == 1) }) }

/-- A cpy at "perform" (R151, R154, R167): it follows every earlier access of its group, waits for a queue place, scoreboard
entries and lines that others own or hold, reads its source whole as loads do and takes ownership of its coherent destination lines.
DESIGN CHOICE (log 69): it waits too where its own ranges meet a range in flight (R152 names loads, stores
and atomics), and the group's WC sectors in its ranges leave the buffer first, as its order after the group's stores asks. -/
def State.doCopy (s : State) (g : Grp) (i : Issue) (o : SOp) : Option State :=
  let s : State := s.wcFlush g.core fun e => wcTouches g.uid o.src e || wcTouches g.uid o.dst e
  let mine := s.copiesOn g.core
  let used := (mine.map fun c => c.dstRanges.length + c.srcRanges.length).sum
  let sr := scratchRanges o.src
  let dr := scratchRanges o.dst
  let lines := pieceLines o.dst
  let meets (ps : List (Nat × Nat × Target)) (w : Bool) : Bool := ps.any fun p => s.rangeBusy g.core p.2.2 p.2.1 w
  if !s.accessesDone g.uid || decide (32 ≤ mine.length) || decide (16 < used + sr.length + dr.length)
      || meets o.src false || meets o.dst true || s.wcWaits g o.src || s.wcWaits g o.dst
      || lines.any (fun l => s.owned l || s.lineHeld l) || (pieceLines o.src).any s.owned || !(s.bankedLines o).isEmpty then none
  else
    let bs := s.rangeBytes g o.src
    let srcWin := match o.ins with | .cpy a _ _ => i.g.window a.toNat | _ => 0#128
    let s : State := s.agentLoads g.uid g.part (normalPieces srcWin o.src)
    let k := s.takeKey
    let dstVa := match o.ins with | .cpy _ d _ => winBase (i.g.window d.toNat) | _ => 0
    let coherent := (o.dst.filter fun p => match p.2.2 with | .mem _ c => c != .priv | _ => false)
    let isMem := o.dst.any fun p => match p.2.2 with | .mem _ _ => true | _ => false
    let c : CopyCmd :=
      { id := k.1, uid := g.uid, core := g.core, part := g.part, imgSlot := g.imgSlot, ord := i.ord,
        bytes := bs.filterMap (fun b => (pieceAt o.dst b.1).map fun t => (b.1, t, b.2.1, b.2.2)),
        pts := ((s.grp g.uid).getD g).pts,
        dstRanges := dr, srcRanges := sr, owned := pieceLines coherent, dstVa := dstVa, len := bs.length, global := isMem }
    let s : State := ({ k.2 with cpys := k.2.cpys ++ [c] } : State).noteCopied g c.owned
    some (s.addSide g.part g.imgSlot i.ord i.pc 1)

/-- A target in the scratchpads of one gang, as one in those of another. -/
def Target.inGang (t : Target) (k : Nat) : Target :=
  match t with
  | .scratch _ c a => .scratch k c a
  | .mem _ _ => t

/-- A cpy that the primary has performed for both copies of its gang (R362): where it writes scratchpad, the same bytes go to the
understudy's. -/
def State.mirrorCopy (s : State) (g t : Grp) (i : Issue) (o : SOp) : Option State :=
  match (s.cpys.filter fun c => c.uid == g.uid).getLast? with
  | none => some s
  | some c =>
    let mine := s.copiesOn t.core
    let used := (mine.map fun d => d.dstRanges.length + d.srcRanges.length).sum
    let bs := c.bytes.filter fun b => match b.2.1 with | .scratch _ _ _ => true | .mem _ _ => false
    let meets (ps : List (Nat × Nat × Target)) (w : Bool) : Bool := ps.any fun p => s.rangeBusy t.core (p.2.2.inGang t.gang) p.2.1 w
    if bs.isEmpty then some s
    else if decide (32 ≤ mine.length) || decide (16 < used + c.dstRanges.length + c.srcRanges.length) || meets o.src false || meets o.dst true
    then none
    else
      let there (r : Nat × Nat × Nat × Nat) : Nat × Nat × Nat × Nat := (t.gang, r.2)
      let d : CopyCmd :=
        { id := s.fresh, uid := t.uid, core := t.core, part := t.part, imgSlot := t.imgSlot, ord := i.ord, pts := c.pts,
          bytes := bs.map fun b => (b.1, b.2.1.inGang t.gang, b.2.2), dstRanges := c.dstRanges.map there, srcRanges := c.srcRanges.map there }
      some (({ s with fresh := s.fresh + 1, cpys := s.cpys ++ [d] } : State).addSide t.part t.imgSlot i.ord i.pc 1)

/-- A barrier phase changed. -/
def State.updBarrier (s : State) (g : Grp) (gang : Bool) (id phase : Nat) (f : Barrier → Barrier) : State :=
  s.updGang g.gang fun k =>
    let key := barKey g gang id phase
    { k with bars := tset k.bars key (f (tget k.bars key {})) }

/-- The limit of a phase: barinit's, else the groups of the block or gang (R171). -/
def Barrier.limitOf (b : Barrier) (g : Grp) (gang : Bool) : Nat :=
  b.limit.getD (if gang then g.nGroup * g.book.bpg else g.nGroup)

/-- The slot fields of a barrier wait (R25, R172). -/
def waitsOn (x : Slot) (gang : Bool) (id phase : Nat) : Bool :=
  x.st == .waiting && x.wait == .barrier && bitOf x.warg 15 == gang && bits x.warg 3 0 == id && bits x.warg 5 4 == phase

/-- A waiter on a completed use goes on: pts past the release time, the arrival record none (R172, R173). -/
def State.releaseWaiter (s : State) (u : Nat) (slot : Bool) (gang : Bool) (id phase t : Nat) : State :=
  let s : State := s.updGrp u fun g => { g.raise t with arr := terase g.arr (arrKey gang id phase) }
  s.endWait u slot

/-- Every waiter on a phase whose generation has passed its own (R172). -/
def State.wakeBarrier (s : State) (g : Grp) (gang : Bool) (id phase t : Nat) : State :=
  let b := s.barrier g gang id phase
  let same (x : Grp) : Bool := x.gang == g.gang && (gang || x.gangB == g.gangB)
  (s.groups.filter same).foldl (fun s x =>
    let go (s : State) (slot : Bool) : State :=
      match s.grp x.uid with
      | none => s
      | some y =>
        let z := y.slot slot
        if waitsOn z gang id phase && decide (z.wgen < b.gen) then s.releaseWaiter x.uid slot gang id phase t else s
    go (go s false) true) s

/-- Arrive (R172): none while the group's earlier stores, atomics and reductions are unacknowledged, while a fence of the group is
outstanding (R169, R173), or while a barinit that has passed its check has still to write. -/
def State.arrive (s : State) (u : Nat) (gang : Bool) (id phase : Nat) : Option State :=
  match s.grp u with
  | none => some s
  | some g =>
    let pendingInit := s.stowed.any fun j => j.g.gang == g.gang && j.ops.any fun o =>
      match o.ins with
      | .barinit _ sc p h => (sc == 1#1) == gang && h.toNat == id && p.toNat == phase && (gang || j.g.gangB == g.gangB)
      | _ => false
    if pendingInit || g.fence.isSome || (s.reqs.any fun r => (r.placeFor u).isSome && r.kind != .load && !r.acked) then none
    else
      let b := s.barrier g gang id phase
      let s : State := s.updGrp u fun x => { x with arr := tset x.arr (arrKey gang id phase) b.gen }
      let n := b.count + 1
      let t := max b.time g.pts
      if b.limitOf g gang ≤ n then
        let ended (b : Barrier) : Barrier :=
          { b with gen := (b.gen + 1) % 2 ^ 48, count := 0, time := 0, released := tset b.released b.gen t }
        let s : State := s.updBarrier g gang id phase ended
        some (s.wakeBarrier g gang id phase t)
      else
        let count (b : Barrier) : Barrier := { b with count := n, time := t }
        some (s.updBarrier g gang id phase count)

end Sys2Proof.Machine
end

