-- ==== Sys2Proof/Machine/Sequencer.lean ====
section
/-! DEFINITION. The engine's sequencer (R217 to R222, R229 to R232): entries into row buffers, the conditions of an issue,
commits of commands, status words. -/

namespace Sys2Proof.Machine

/-- A command changed by its id. -/
def State.updECmd (s : State) (id : Nat) (f : ECmd → ECmd) : State := { s with ecmds := updFirst (fun c => c.id == id) f s.ecmds }
def State.ecmd (s : State) (id : Nat) : Option ECmd := s.ecmds.find? fun c => c.id == id

/-- Entries of a stage or chain. -/
def ECmd.entryCount (c : ECmd) : Nat := ceilDiv (2 ^ c.n) 32

/-- Whether two commands of a block touch one granule. -/
def ECmd.meets (c d : ECmd) : Bool :=
  c.gang == d.gang && c.coreIdx == d.coreIdx && decide (c.gran < d.gran + d.count) && decide (d.gran < c.gran + c.count)

/-- The commands committed before one. -/
def State.before (s : State) (id : Nat) : List ECmd := s.ecmds.takeWhile fun c => c.id != id

/-- The predecessors and the granule order of a command are satisfied (R219). -/
def State.orderMet (s : State) (c : ECmd) : Bool :=
  let done (d : Nat) : Bool := match s.ecmd d with | some x => x.st == .retired | none => true
  c.deps.all done && !(s.before c.id).any fun d => d.live && d.meets c && (c.kind != .stage || d.kind == .wload)

/-- Whether the row buffer takes input for a command: it runs, or it is the next that is to run (R214, R218). -/
def State.takesInput (s : State) (c : ECmd) : Bool :=
  c.st == .running || (c.st == .waiting && s.orderMet c &&
    !s.ecmds.any fun d => d.core == c.core && d.id != c.id && d.kind == .stage && d.st == .waiting && (d.took || !d.ins.isEmpty))

/-- Entries of an input queue taken in commit order (R213, R218 to R220): dropped commands discard what they owe, the row buffer
takes those of a command that runs or is next, the first that has still to be filled holds the rest. -/
def fillQueue (takes : ECmd → Bool) (mine : ECmd → Bool) : List ECmd → List Entry → List ECmd × List Entry
  | [], q => ([], q)
  | c :: r, q =>
    if !mine c then
      let x := fillQueue takes mine r q
      (c :: x.1, x.2)
    else if c.st == .dropped then
      let n := min c.owes q.length
      let d : ECmd := { c with owes := c.owes - n }
      if d.owes = 0 then
        let x := fillQueue takes mine r (q.drop n)
        (d :: x.1, x.2)
      else (d :: r, q.drop n)
    else if c.took then
      let x := fillQueue takes mine r q
      (c :: x.1, x.2)
    else if takes c then
      let n := min (c.entryCount - c.ins.length) q.length
      let d : ECmd := { c with ins := c.ins ++ q.take n, took := c.ins.length + n == c.entryCount }
      if d.took then
        let x := fillQueue takes mine r (q.drop n)
        (d :: x.1, x.2)
      else (d :: r, q.drop n)
    else (c :: r, q)

/-- The engine takes what an input queue holds for it. -/
def State.fill (s : State) (gang coreIdx n : Nat) : State :=
  let q := s.queue gang coreIdx n
  let mine (c : ECmd) : Bool := c.kind == .stage && c.gang == gang && c.coreIdx == coreIdx && c.inQ == n
  let x := fillQueue s.takesInput mine s.ecmds q.entries
  let s : State := { s with ecmds := x.1 }
  if x.2 = q.entries then s else s.updQueue gang coreIdx n fun q => { q with entries := x.2 }

/-- Whether a command that has its input may run its stages (R218): no earlier command of its core has outputs left to deliver.
Later means committed later (DESIGN CHOICE, log 99). -/
def State.engineFree (s : State) (c : ECmd) : Bool :=
  !(s.before c.id).any fun d => d.core == c.core && d.kind == .stage && d.st == .running && !d.rehearsal && d.computed && !d.outs.isEmpty

/-- Entries of the rehearsal buffer that a command takes up (R221): all of its outputs until they are there, then those still held. -/
def ECmd.heldEntries (d : ECmd) : Nat :=
  if d.rehearsal && (d.st == .running || d.st == .held) then (if d.computed then d.outs.length else d.entryCount) else 0

/-- The conditions under which the sequencer issues a waiting command (R219, R221). -/
def State.canIssue (s : State) (c : ECmd) : Bool :=
  let early := s.before c.id
  let sameIn (d : ECmd) : Bool := d.kind == .stage && d.gang == c.gang && d.coreIdx == c.coreIdx && d.inQ == c.inQ
  let queue := early.all fun d => !sameIn d || d.took || (d.st == .dropped && d.owes == 0)
  let held := ((s.ecmds.filter fun d => d.core == c.core).map ECmd.heldEntries).sum
  c.st == .waiting && s.orderMet c
    && (c.kind != .stage || (queue && s.engineFree c && (!c.rehearsal || decide (held + c.entryCount ≤ 2048))))

/-- The stages of a command run, once (R209). -/
def State.runStages (s : State) (c : ECmd) : State :=
  if c.computed then s else s.updECmd c.id fun d => d.compute (s.eng c.gang c.coreIdx).gran

/-- Commands in a core's sequencer. -/
def State.inSequencer (s : State) (core : Nat) : Nat := (s.ecmds.filter fun c => c.core == core && c.live).length

/-- The dependencies of a command of a group with two predecessor cues (R219). -/
def State.depsOf (s : State) (u a b : Nat) : List Nat :=
  (s.ecmds.filter fun c => c.uid == u && c.live && c.kind != .wfree && c.cue != 255 && (c.cue == a || c.cue == b)).map (·.id)

/-- A command put into its core's sequencer. -/
def State.addECmd (s : State) (c : ECmd) : State :=
  let k := s.takeKey
  { k.2 with ecmds := k.2.ecmds ++ [{ c with id := k.1 }] }

/-- Granules of a block set at a commit (R212): the bytes stay until the engine writes them. -/
def State.markGranules (s : State) (gang coreIdx first count : Nat) (f : Granule → Granule) : State :=
  let e := s.eng gang coreIdx
  s.setEng { e with gran := (List.range count).foldl (fun (t : Tbl Granule) j => tset t (first + j) (f (tget t (first + j) {}))) e.gran }

/-- The common fields of a group's command. -/
def ecmdFor (g : Grp) (kind : ECmdKind) : ECmd := { uid := g.uid, core := g.core, gang := g.gang, coreIdx := g.coreIdx, kind := kind }

/-- A wload's command put into its sequencer: its granules are loading (R212). -/
def State.enterWload (s : State) (c : ECmd) : State :=
  (s.addECmd c).markGranules c.gang c.coreIdx c.gran c.count fun x => { x with st := .loading, i8 := c.i8 }

/-- wload at "perform" (R154, R222, R227): its source is read now, through the windows of scene start (R106), as loads that follow the
group's earlier accesses, those that wait at a home included (R191); its lines in memory are held. -/
def State.doWload (s : State) (g : Grp) (i : Issue) (o : SOp) : Option State :=
  let s : State := s.wcFlush g.core fun e => wcTouches g.uid o.src e
  let d := o.dw
  if 64 ≤ s.inSequencer g.core || !s.accessesDone g.uid || (pieceLines o.src).any s.owned || s.wcWaits g o.src
      || o.src.any (fun p => s.rangeBusy g.core p.2.2 p.2.1 false) || !(s.bankedLines o).isEmpty then none
  else
    let bs := s.rangeBytes g o.src
    let s : State := s.agentLoads g.uid g.part (normalPieces (i.g.window (bits (d 0) 26 24)) o.src)
    let first := bits (d 2) 15 0
    let count := bits (d 2) 31 16
    let i8 := bits (d 3) 1 0 == 1
    let c : ECmd :=
      { ecmdFor g .wload with
        cue := bits (d 0) 7 0, deps := s.depsOf g.uid (bits (d 0) 23 16) (bits (d 0) 15 8)
        gran := first, count := count, i8 := i8
        bytes := cellsOf 0 (bs.map (·.2.1)), poisAt := ((bs.filter fun b => b.2.2).map fun b => b.1 / 4096).eraseDups
        holds := pieceLines o.src }
    some (s.enterWload c)

/-- A wload that the primary has performed for both copies of its gang (R362): the same bytes go to the understudy's granules. -/
def State.mirrorWload (s : State) (g t : Grp) (o : SOp) : Option State :=
  if 64 ≤ s.inSequencer t.core then none
  else
    (s.ecmds.filter fun c => c.uid == g.uid).getLast?.map fun c =>
      s.enterWload { c with uid := t.uid, core := t.core, gang := t.gang, coreIdx := t.coreIdx, holds := []
                            deps := s.depsOf t.uid (bits (o.dw 0) 23 16) (bits (o.dw 0) 15 8) }

/-- stage and chain at "perform" (R228): hops and queue formats as they stand now. -/
def State.doStage (s : State) (g : Grp) (o : SOp) : Option State :=
  let d := o.dw
  if 64 ≤ s.inSequencer g.core then none
  else
    let n := bits (d 1) 4 0
    let hops := stageHops g (bits (d 0) 27 24) (bits (d 0) 31 28)
    let first := bits (d 2) 15 0
    let i8 := (tget (s.engView g.gang g.coreIdx).gran first {}).i8
    let osc := bits (d 1) 27 20
    let fmt := match (g.qbind (bits (d 1) 15 12)).kind with | .input f => f | _ => 0#2
    let c : ECmd :=
      { ecmdFor g .stage with
        cue := bits (d 0) 7 0, deps := s.depsOf g.uid (bits (d 0) 23 16) (bits (d 0) 15 8)
        gran := first, count := hops.length * regionSize n i8, i8 := i8, n := n, hops := hops
        inW := 16 / 2 ^ bits (d 1) 7 5, midW := 16 / 2 ^ bits (d 1) 9 8, outFmt := bits (d 1) 11 10, inFmt := fmt
        inQ := bits (d 1) 15 12, outQ := bits (d 1) 19 16, oscale := if osc < 128 then (osc : Int) else (osc : Int) - 256
        rehearsal := bitOf (d 1) 28 }
    some (s.addECmd c)

/-- wfree at "perform" (R232). -/
def State.doWfree (s : State) (g : Grp) (o : SOp) : Option State :=
  if 64 ≤ s.inSequencer g.core then none
  else some (s.addECmd { ecmdFor g .wfree with gran := (o.dw 0).toNat, count := (o.dw 1).toNat })

/-- cmit and cdisc at "perform" (R221, R229). -/
def State.doRelease (s : State) (g : Grp) (cue : Nat) (commit : Bool) : Option State :=
  let mine (c : ECmd) : Bool := c.uid == g.uid && c.rehearsal && c.cue == cue && c.live
  if 64 ≤ s.inSequencer g.core then none
  else if commit then some { s with ecmds := updAll mine (fun c => { c with released := true }) s.ecmds }
  else some (s.dropCmds ((s.ecmds.filter mine).map (·.id))).wakeWaits

/-- A push at "perform" (R39, R218): it stalls while the queue is full. -/
def State.doPush (s : State) (g : Grp) (o : SOp) (n : Nat) : Option State :=
  let s : State := s.fill g.gang g.coreIdx n
  if 64 ≤ (s.queue g.gang g.coreIdx n).entries.length then none
  else
    let e : Entry := { lanes := o.data.headD (lanesAll 0#32), pois := o.dpois }
    some ((s.updQueue g.gang g.coreIdx n fun q => { q with entries := q.entries ++ [e] }).fill g.gang g.coreIdx n)

/-- A pop at "perform" (R39, R218). -/
def State.doPop (s : State) (g : Grp) (o : SOp) (d : Sel) (n : Nat) : State :=
  let k := s.takeKey
  let p : Pending := { id := k.1, uid := g.uid, dest := destOf d 1, act := o.act }
  k.2.updQueue g.gang g.coreIdx n fun q => { q with pops := q.pops ++ [p] }

/-- qcfg at "perform" (R224, R230): a queue whose last binding goes loses its entries. -/
def State.doQcfg (s : State) (g : Grp) (n : Nat) (kind : QKind) : State :=
  let s : State := s.updGrp g.uid fun x => x.setQ n { kind := kind, lost := false }
  let bound (x : Grp) : Bool :=
    x.gang == g.gang && x.coreIdx == g.coreIdx && x.place != .ended && (x.qbind n).kind != .unbound
  if kind != .unbound || s.groups.any bound then s
  else (s.forgive g.gang g.coreIdx [n]).updQueue g.gang g.coreIdx n fun q => { q with entries := [] }

/-- The word cstat returns (R231). -/
def State.cstatWord (s : State) (g : Grp) (a : Nat) : Word :=
  if a = 255 then
    let lost := (List.range 16).any fun n => (g.qbind n).lost
    let mine := (s.ecmds.filter fun c => c.uid == g.uid && c.live).length
    let loaded := ((s.eng g.gang g.coreIdx).gran.filter fun e => e.2.st == .loaded).length
    BitVec.ofNat 32 ((if lost then 2 ^ 24 else 0) + mine * 2 ^ 16 + loaded)
  else
    match (s.ecmds.filter fun c => c.uid == g.uid && c.kind != .wfree && c.cue == a).getLast? with
    | some c => c.word
    | none => 0#32

/-- A status request, taken at once for cstat, later for gstat (R231, R295). -/
def State.addStatus (s : State) (g : Grp) (o : SOp) (d : Sel) (got : Option Word) (ask : Option (Nat × Option Nat)) : State :=
  let k := s.takeKey
  let p : Pending := { id := k.1, uid := g.uid, dest := destOf d 1, act := o.act, solo := g.solo, ask := ask,
                       got := got.map fun w => { lanes := lanesAll w } }
  { k.2 with status := k.2.status ++ [p] }

end Sys2Proof.Machine
end

