-- ==== Sys2Proof/Machine/UnitPerform.lean ====
section
/-! DEFINITION. The "perform" step of bank and graph words (R246, R252 to R256, R262, R288 to R293), and of any word of a
scene's later effects (R37): fences (R192), comparisons (R361), store ordinals (R352, R353). -/

namespace Sys2Proof.Machine

/-- A bank window through its list (R249). -/
def bwin (w : BitVec 128) : BWin := { base := winBase w, limit := winLimit w, list := winPlist w }

/-- The byte offsets of a range at which its DRAM rows of 1 KiB start (R235). -/
def rowOffsets (base n : Nat) : List Nat :=
  if n = 0 then []
  else (List.range ((base + n - 1) / 1024 - base / 1024 + 1)).map fun i => if i = 0 then 0 else (base / 1024 + i) * 1024 - base

/-- The physical address of a checked word access. -/
def Acc.pa (a : Acc) : Nat := match a.tgt with | .mem pa _ => pa | .scratch _ _ _ => 0

/-- The program a command runs: the one in its slot as the command commits, which a gprog before it in its scene may have installed
(R290). -/
def State.progNow (s : State) (part slot : Nat) (o : SOp) : Option Prog := o.prog.map fun p => tget (s.part part).progs slot p

/-- Whether the bank-command path of a core's die holds its 64 commands (R246). -/
def State.bankPathFull (s : State) (core : Nat) : Bool :=
  decide (64 ≤ (s.bcmds.filter fun b => dieOfCore b.core == dieOfCore core).length)

/-- Whether a teardown has ended a group's launch (R364). -/
def State.tornDown (s : State) (g : Grp) : Bool := (s.launch g.launch).any fun l => l.status == 6

/-- bexec and rowop at "perform" (R246, R252, R254): a place in the die's path of 64, behind the group's earlier accesses; after a teardown
the command stops at once (R364). -/
def State.doBank (s : State) (g : Grp) (i : Issue) (o : SOp) : Option State :=
  if s.bankPathFull g.core || !s.accessesDone g.uid then none
  else
    let d := o.dw
    let win (hi lo : Nat) : BWin := bwin (i.g.window (bits (d 0) hi lo))
    let k := s.takeKey
    let a := o.accs.headD {}
    let n := (d 1).toNat
    let p := (s.progNow g.part (bits (d 0) 19 16) o).getD {}
    let base : BankCmd :=
      { id := k.1, uid := g.uid, core := g.core, part := g.part, imgSlot := g.imgSlot, ord := i.ord, tab := g.book.pltab,
        count := n, doneVa := a.va, donePa := a.pa, doneBank := a.tgt.cls == .bank }
    let c : BankCmd :=
      match o.ins with
      | .bexec _ =>
        { base with prog := p, x := win 2 0, z := win 10 8, todo := rowOffsets (win 10 8).base (4 * n),
                    y := if p.ops.any fun q => q.code == 1 && q.arg == 1 then some (win 6 4) else none }
      | _ =>
        { base with rowop := true, copy := bits (d 0) 1 0 == 1, z := win 6 4, x := win 10 8,
                    todo := rowOffsets (win 6 4).base (65536 * n) }
    let s : State := ({ k.2 with bcmds := k.2.bcmds ++ [c] } : State).addSide g.part g.imgSlot i.ord i.pc 1
    some (if s.tornDown g then s.stopBank c else s)

/-- A page list written by the runtime at launch, or refreshed by system software (R249, R250): it is no longer stale, and may hold absent
marks. -/
def State.setPageList (s : State) (p : PageList) : State :=
  { s with plists := p :: s.plists.filter fun q => !(q.part == p.part && q.tab == p.tab && q.slot == p.slot) }

/-- bpage at "perform" (R256): the list written, its stale mark cleared. -/
def State.doBpage (s : State) (g : Grp) (i : Issue) (o : SOp) : State :=
  let w := match o.ins with | .bpage n => i.g.window n.toNat | _ => 0#128
  s.setPageList { part := g.part, tab := g.book.pltab, slot := winPlist w, first := winBase w / 65536,
                  frames := o.accs.map fun a => some (a.pa / 65536), bankOk := o.accs.map fun _ => true, ipas := o.ipas }

/-- gprog at "perform" (R290): the image read under the group's order, judged, installed, and its status stored; a status word of a lost
die is dropped with a record (R366). -/
def State.doGprog (s : State) (g : Grp) (i : Issue) (o : SOp) : Option State :=
  let a := o.accs.headD {}
  if !s.accessesDone g.uid || (pieceLines o.src).any s.owned || !s.lineFree (lineOf a.pa)
      || o.src.any (fun p => s.rangeBusy g.core p.2.2 p.2.1 false) || s.rangeBusy g.core a.tgt 4 true || s.wcWaits g o.src
      || !(s.bankedLines o).isEmpty then none
  else
    let s : State := s.wcFlush g.core fun e => wcTouches g.uid o.src e
    let r := verifyImage ((s.rangeBytes g o.src).map (·.2.1))
    let s : State := s.agentLoads g.uid g.part (normalPieces (i.g.window (bits (o.dw 0) 6 4)) o.src)
    let s : State :=
      match r with
      | .ok p => s.updPart g.part fun x => { x with progs := tset x.progs (bits (o.dw 0) 3 0) p }
      | .error _ => s
    let w := bytesLE 4 (gprogStatus r).toNat
    let s : State := (s.addSide g.part g.imgSlot i.ord i.pc 1).ackSide g.part g.imgSlot i.ord 1
    match a.tgt with
    | .mem pa cls =>
      if (s.die (homeDie pa)).failed then some (s.imprecise .homelost g.part g.imgSlot i.ord pa)
      else if cls = .priv then some ((((s.writePa pa w).noteDirty pa 4 g.part).dropCopies pa).fireWatches a.tgt 4)
      else
        let x := s.homeStore g.part (((s.grp g.uid).getD g).pts) pa w (cls == .bank)
        some ((x.2.raisePts g.uid x.1).refreshCopies g.core pa x.1)
    | .scratch _ _ _ => some ((s.writeTarget a.tgt w).fireWatches a.tgt 4)

/-- The program slot a graph word names (R291, R292). -/
def progSlot (o : SOp) : Nat :=
  match o.ins with
  | .gmark _ => bits (o.dw 0) 11 8
  | _ => bits (o.dw 0) 27 24

/-- The wave command a graph word makes (R289 to R293), before it has a controller. -/
def waveOf (g : Grp) (i : Issue) (o : SOp) : Wave :=
  let d := o.dw
  let base : Wave :=
    { uid := g.uid, core := g.core, part := g.part, launch := g.launch, imgSlot := g.imgSlot, ord := i.ord,
      graph := bits (d 0) 7 4, tag := bits (d 0) 3 0, solo := g.solo, gang := g.gang, coreIdx := g.coreIdx, prog := o.prog }
  match o.ins with
  | .gbind _ =>
    let n := (d 1).toNat
    { base with
      kind := .gbind, graph := bits (d 0) 3 0
      bind := if n = 0 then none else some { node := bwin (i.g.window (bits (d 0) 6 4)), edge := bwin (i.g.window (bits (d 0) 10 8)),
                                             tab := g.book.pltab, count := n } }
  | .gmark _ => { base with kind := .gmark, clearFirst := bitOf (d 0) 17, dst := bits (d 0) 16 12 }
  | .gclr _ => { base with kind := .gclr, slotKind := bitOf (d 0) 13, dst := bits (d 0) 12 8 }
  | .gcoll _ =>
    { base with
      kind := .gcoll, emit1 := bitOf (d 0) 13, sel := bits (d 0) 12 8, cap := (d 2).toNat
      queue := if bitOf (d 0) 14 then some (bits (d 0) 23 20) else none
      outVa := winBase (i.g.window (bits (d 0) 18 16)) + (d 1).toNat, outTgt := o.dst }
  | _ =>
    { base with
      kind := .gprop, incl := bitOf (d 0) 22, chained := bitOf (d 0) 21, vkind := bits (d 0) 20 19, comb := bits (d 0) 18 16
      hop := bits (d 0) 15 8, mask := d 1, visit := bits (d 2) 28 24, dst := bits (d 2) 20 16, src := bits (d 2) 12 8
      sel := bits (d 2) 4 0, slotKind := bits (d 0) 20 19 != 0 }

/-- Whether the graph-command path of a core's die holds its 64 commands, and whether the queue of a graph's controller holds its 16
(R262). -/
def State.wavePathFull (s : State) (core : Nat) : Bool :=
  decide (64 ≤ (s.waves.filter fun w => w.st == .path && dieOfCore w.core == dieOfCore core).length)
def State.ctrlOf (s : State) (part graph : Nat) : Nat := ((((s.part part).graphctl)[graph]?).getD 0#5).toNat
def State.ctrlFull (s : State) (part graph : Nat) : Bool :=
  decide (16 ≤ (s.waves.filter fun x => x.ctrl == s.ctrlOf part graph && x.st == .queued).length)

/-- A graph command at "perform" (R154, R262, R264): a place in the die's path of 64 and in its controller's queue of 16, behind the
group's earlier accesses, its WC sectors in the range among them; a collection into a window takes ownership of its coherent lines. After a
teardown it is dropped (R364). -/
def State.doWave (s : State) (g : Grp) (i : Issue) (o : SOp) : Option State :=
  let lines := pieceLines (o.dst.filter fun p => match p.2.2 with | .mem _ c => c != .priv | _ => false)
  let w := { waveOf g i o with prog := s.progNow g.part (progSlot o) o }
  let s : State := s.wcFlush g.core fun e => wcTouches g.uid o.dst e
  if s.tornDown g then some s
  else if s.wcWaits g o.dst || s.wavePathFull g.core || s.ctrlFull g.part w.graph || !s.accessesDone g.uid || lines.any (fun l => s.owned l || s.lineHeld l) then none
  else
    let k := (s.noteCopied g lines).takeKey
    let s : State := { k.2 with waves := k.2.waves ++ [{ w with id := k.1, ctrl := s.ctrlOf g.part w.graph, owned := lines }] }
    some (s.addSide g.part g.imgSlot i.ord i.pc 1)

/-- A memory word, or none for another. -/
def State.doMemory (s : State) (g : Grp) (i : Issue) (o : SOp) : Option State :=
  match o.ins with
  | .ldb d _ _ _ | .ldh d _ _ _ | .ldw d _ _ _ => s.doLoad g i o d 1
  | .ldq d _ _ _ => s.doLoad g i o d 4
  | .stb _ _ _ _ | .sth _ _ _ _ | .stw _ _ _ _ | .stq _ _ _ _ => s.doStore g i o
  | .faa d _ _ _ | .fmn d _ _ _ | .fmx d _ _ _ | .fand d _ _ _ | .fior d _ _ _ | .fxor d _ _ _ | .swp d _ _ _
  | .cas d _ _ _ => s.doAtomic g i o (some d)
  | .radd _ _ _ _ | .rmin _ _ _ _ | .rmax _ _ _ _ | .ror _ _ _ _ => s.doAtomic g i o none
  | .pfl t _ _ _ => some (s.doPrefetch g i o (t == 0#1))
  | .cpy _ _ _ => if o.dw 0 = 0#32 then some s else s.doCopy g i o
  | _ => some s

/-- A special-register write at "perform" (R103): MODE of the fragment, TRAPINFO, TRAPPC. -/
def State.doWrsp (s : State) (g : Grp) (i : Issue) (n : Nat) (x : Word) : State :=
  s.updGrp g.uid fun y =>
    match n with
    | 19 => y.updFrag i.mask fun z => { z with mode := x }
    | 20 => { y with trapInfo := x }
    | _ => { y with trapPc := x }

/-- One word of the list performed (R37, R51), with the windows of scene start (R106): none where it stalls. -/
def State.doOp (s : State) (g : Grp) (i : Issue) (o : SOp) : Option State :=
  match o.ins with
  | .mov (.q n) _ => s.doPush g o n.toNat
  | .mov d (.q n) => some (s.doPop g o d n.toNat)
  | .wrsp _ n => some (s.doWrsp g i n.toNat (o.dw 0))
  | .winld w _ => some (s.updGrp g.uid fun x => x.setW w.toNat o.wval)
  | .winsub _ d _ _ => some (s.updGrp g.uid fun x => x.setW d.toNat o.wval)
  | .wrsys _ n => some (s.writeReg g.core n.toNat (o.dw 0))
  | .barinit _ sc p h =>
    some (s.updBarrier g (sc == 1#1) h.toNat p.toNat fun b => { b with limit := some (o.dw 0).toNat })
  | .fence k =>
    some ((s.wcFlushGroup g.uid g.core).updGrp g.uid fun x => { x with fence := some k.toNat })
  | .hop h _ =>
    let l := ((List.range 16).find? fun j => (o.dw 0).toNat == 2 ^ j).getD 0
    some (s.updGrp g.uid fun x => x.setH h.toNat (BitVec.ofNat 4 l))
  | .qcfg q _ => some (s.doQcfg g q.toNat (qcfgKind (o.dw 0)))
  | .cstat d _ => some (s.addStatus g o (.s d) (some (s.cstatWord g (o.dw 0).toNat)) none)
  | .gstat d _ _ =>
    let word := match d with | .s _ => some (o.dw 1).toNat | _ => none
    some (s.addStatus g o d none (some ((o.dw 0).toNat, word)))
  | .wload _ => s.doWload g i o
  | .stage _ | .chain _ => s.doStage g o
  | .cmit c => s.doRelease g c.toNat true
  | .cdisc c => s.doRelease g c.toNat false
  | .wfree _ _ => s.doWfree g o
  | .bexec _ | .rowop _ => s.doBank g i o
  | .bpage _ => some (s.doBpage g i o)
  | .gprog _ => s.doGprog g i o
  | .gbind _ | .gmark _ | .gprop _ | .gcoll _ | .gclr _ => s.doWave g i o
  | .sigck => some (if g.twin.isSome && !g.mism then s.updGrp g.uid fun x => { x with points := x.points ++ [(x.sig, x.held.length)], lax := x.lax ++ [true] } else s)
  | ins =>
    match (shape ins).d with
    | some { sel := .q n, .. } => s.doPush g o n.toNat
    | _ => s.doMemory g i o

/-- The bytes a word feeds to the signature (R359). -/
def opBytes (i : Issue) (o : SOp) : List Byte :=
  match o.ins with
  | .cpy s d _ => cpyBytes (winBase (i.g.window d.toNat)) (winBase (i.g.window s.toNat)) (o.dw 0).toNat
  | .bexec _ | .rowop _ | .gbind _ | .gprog _ | .gmark _ | .gprop _ | .gcoll _ | .gclr _ | .wload _ => cmdBytes i.g o
  | ins =>
    match memForm ins with
    | some (_, _, _, .store) | some (_, _, _, .atomic) => o.accs.flatMap (accBytes ins)
    | _ => []

/-- A held store's lanes fed one by one: the comparison point at the group's 64th held lane (R361). -/
def Grp.feedLanes (g : Grp) (ins : Instr) (before : Nat) : List Acc → Grp
  | [] => g
  | a :: r =>
    let g : Grp := g.feed (accBytes ins a)
    let n := before + 1
    let g : Grp := if n = 64 then { g with points := g.points ++ [(g.sig, 64)], lax := g.lax ++ [false] } else g
    g.feedLanes ins n r

/-- A group of an understudied gang waits: for the comparison a word needs (R361), or that its 64th held lane asked for. -/
def State.askCompare (s : State) (g : Grp) : State :=
  s.updGrp g.uid fun x => { x with points := x.points ++ [(x.sig, x.held.length)], lax := x.lax ++ [false] }

/-- The ordinal of a store-bearing scene, with its header offset in the tombstone (R352, R353): none while its last use is
outstanding. -/
def State.takeOrdinal (s : State) (g : Grp) (i : Issue) (o : SOp) : Option (State × Issue) :=
  if i.bearing || !bears o then some (s, i)
  else
    let open_ := match s.tomb g.part g.imgSlot with | some t => tget t.pending g.ord.toNat 0 | none => 0
    if open_ ≠ 0 then none
    else
      let s : State := s.updTomb g.part g.imgSlot fun t => { t with scenes := tset t.scenes g.ord.toNat i.pc }
      some (s.updGrp g.uid fun x => { x with ord := x.ord + 1#8 }, { i with bearing := true, ord := g.ord })

/-- Whether an understudy waits at a word that its primary performs alone and has still to perform (R362). -/
def State.primaryAhead (s : State) (g : Grp) (o : SOp) : Bool :=
  g.under && primaryOnly o &&
    match g.twin.bind s.grp with
    | some t => t.place != .ended && decide (t.solo ≤ g.solo)
    | none => false

/-- The understudy's part of a word that its primary performs for both copies (R362): none where it has no room yet. -/
def State.mirror (s : State) (g : Grp) (i : Issue) (o : SOp) : Option State :=
  match g.twin.bind s.grp with
  | none => some s
  | some t =>
    if g.under || t.place == .ended then some s
    else
      match o.ins with
      | .wload _ => s.mirrorWload g t o
      | .cpy _ _ _ => if o.dw 0 = 0#32 then some s else s.mirrorCopy g t i o
      | _ => some s

/-- Whether a word of an understudied group waits for a comparison before its effect leaves the group (R360 to R362); one still to be
made when the gang has been killed, or whose comparison has failed (R363), is discarded with the held stores (R355; DESIGN CHOICE,
log 72). -/
def needsTwin (o : SOp) : Bool :=
  comparesAt o || match memForm o.ins with
    | some (_, _, _, .store) | some (_, _, _, .atomic) => o.accs.any fun a => match a.tgt with | .mem _ _ => true | .scratch _ _ _ => false
    | _ => false

/-- One word of a scene at "perform" (R37): the state after it, the scene, and whether it is done; a stalled word changes no more
than the comparison it asks for, and the demand it makes on banks that it waits for (R245). -/
def State.performOne (s : State) (i : Issue) (o : SOp) : State × Issue × Bool :=
  match s.grp i.g.uid with
  | none => (s, i, true)
  | some g =>
    if o.act = 0#32 then (s, i, true)
    else if g.fence.isSome || s.atPoint g || s.primaryAhead g o then (s, i, false)
    else if (g.place == .ended || g.mism) && g.twin.isSome && needsTwin o then (s.servedBanks g, i, true)
    else
      let i : Issue := { i with pause := false }
      if g.twin.isSome && comparesAt o && !i.cmp then (s.askCompare g, { i with cmp := true }, false)
      else
        match s.takeOrdinal g i o with
        | none => (s, i, false)
        | some (s1, j) =>
          let g1 := (s1.grp g.uid).getD g
          let skip := g.under && primaryOnly o
          match (if skip then some s1 else (s1.doOp g1 j o).bind fun s => s.mirror g1 j o) with
          | none => (s.askBanks g1 o, i, false)
          | some s2 =>
            let s2 : State := s2.servedBanks g1
            let stores := match memForm o.ins with | some (_, _, _, .store) => true | some (_, _, _, .atomic) => (produces o.ins).isNone | _ => false
            let now := ((s2.grp g.uid).getD g1).held.length
            let fed (x : Grp) : Grp :=
              if stores && g1.held.length < now then x.feedLanes o.ins g1.held.length o.accs else x.feed (opBytes j o)
            let s3 : State := if g.twin.isSome then s2.updGrp g.uid fed else s2
            let s3 : State := if g.twin.isSome && primaryOnly o then s3.updGrp g.uid fun x => { x with solo := x.solo + 1 } else s3
            let full := g1.held.length < 64 && 64 ≤ now
            (s3, { j with cmp := false, pause := full }, true)

end Sys2Proof.Machine
end

