-- ==== Sys2Proof/Machine/Scene.lean ====
section
/-! DEFINITION. Scenes (R20, R34 to R37): fetch and framing, the decoder's checks, the start check (R48), the trailer with
commit and "perform", final words (R92 to R98, R170 to R176, R310). -/

namespace Sys2Proof.Machine

/-- The physical address of a code word (R88, R336): a fetch fault is of class 8, access 2, index 0 (R342). -/
def State.codePa (s : State) (g : Grp) (mask off : Word) : Except Stop Nat :=
  let va := g.book.code + off.toNat
  match s.translate g.core g.part g.system va with
  | .error e => .error (walkStop 0 (lowLane mask) va 2 e)
  | .ok (pa, _) =>
    match s.paFault pa 4 with
    | some f => .error (.fault f)
    | none => .ok pa

/-- The code word at an offset. -/
def State.codeWord (s : State) (g : Grp) (mask off : Word) : Except Stop Word :=
  match s.codePa g mask off with
  | .error e => .error e
  | .ok pa => .ok (BitVec.ofNat 32 (s.readPaNat pa 4))

/-- Consecutive code words. -/
def State.codeWords (s : State) (g : Grp) (mask : Word) : Word → Nat → Except Stop (List Word)
  | _, 0 => .ok []
  | off, n + 1 =>
    match s.codeWord g mask off with
    | .error e => .error e
    | .ok w =>
      match s.codeWords g mask (off + 4#32) n with
      | .error e => .error e
      | .ok ws => .ok (w :: ws)

/-- A scene-decode fault at a word index. -/
def decodeTrap (idx : Nat) : Trap := { cls := clsDecode, idx := idx }

/-- Pass 1 of R36 over the words read, header first, of a scene of length len; fits tells how many words lie in the image. -/
def framing (len fits : Nat) (ws : List Word) : Option Nat :=
  let op (i : Nat) : Nat := (ws.getD i 0#32).toNat / 2 ^ 24
  if op 0 ≠ 1 ∨ len = 0 ∨ 24 < len ∨ (ws.headD 0#32).toNat % 2 ^ 19 ≠ 0 then some 0
  else if fits < len + 2 then some fits
  else
    match ((List.range len).map (· + 1)).find? fun i => op i == 1 || op i == 2 with
    | some i => some i
    | none => if op (len + 1) ≠ 2 then some (len + 1) else none

/-- What pass 2 of R36 has met so far: destinations of deferred producers, temporaries written. -/
structure Seen where
  covered : List Sel := []
  temps : List Sel := []

/-- Whether a word's a field names a descriptor of four scalars (R227, R252, R288). -/
def isDescWord : Instr → Bool
  | .wload _ | .stage _ | .chain _ | .gbind _ | .gprog _ | .gmark _ | .gprop _ | .gcoll _ | .gclr _ | .bexec _ | .rowop _ => true
  | _ => false

/-- The registers that checks 3 to 5 of R36 see read and written: the selectors as the fields hold them, whatever kinds
check 6 will allow there. -/
def fieldReads (w : Word) (ins : Instr) : List Sel :=
  if isDescWord ins then
    let x := selOf (w.extractLsb' 8 8)
    if kindOf x == .k || kindOf x == .q then [] else Sel.run x 4
  else (readsOf ins).map (·.2)
def fieldWrites (w : Word) (ins : Instr) : List Sel :=
  match ins with
  | .cstat _ _ => [selOf (w.extractLsb' 16 8)]
  | _ => writesOf ins

/-- The checks of pass 2 of R36 at one word, in the order of their table. -/
def wordFault (regs len idx : Nat) (w : Word) (x : Seen) : Option Trap :=
  match looseDecode w with
  | none => some { cls := clsIllegalInstr, idx := idx }
  | some ins =>
    let reads := fieldReads w ins
    if isFinal ins ∧ idx ≠ len then some (decodeTrap idx)
    else if (reads.any x.covered.contains || (fieldWrites w ins).any x.covered.contains) = true then some (decodeTrap idx)
    else if (reads.any fun r => kindOf r == .t && !x.temps.contains r) = true then some (decodeTrap idx)
    else
      match decodeWord w with
      | .error _ => some { cls := clsIllegalOperand, idx := idx }
      | .ok i => if legal i && fitsRegs regs i then none else some { cls := clsIllegalOperand, idx := idx }

/-- What a word adds to what pass 2 has met. -/
def Seen.add (x : Seen) (ins : Instr) : Seen :=
  { covered := if (produces ins).isSome then x.covered ++ writesOf ins else x.covered
    temps := x.temps ++ (writesOf ins).filter fun r => kindOf r == .t }

/-- Pass 2 of R36: every body word in index order; answers the decoded words. -/
def bodyCheck (regs len : Nat) : Nat → Seen → List Word → Except Trap (List Instr)
  | _, _, [] => .ok []
  | idx, x, w :: r =>
    match wordFault regs len idx w x with
    | some t => .error t
    | none =>
      match decodeWord w with
      | .error _ => .error { cls := clsIllegalOperand, idx := idx }
      | .ok i =>
        match bodyCheck regs len (idx + 1) (x.add i) r with
        | .error t => .error t
        | .ok is => .ok (i :: is)

/-- Pass 3 of R36: the trailer's publications name the deferred producers in order, at most three (R35). -/
def publishes (body : List Instr) (w : Word) : Bool :=
  let pubs := [w.extractLsb' 16 8, w.extractLsb' 8 8, w.extractLsb' 0 8]
  let want := (body.filterMap produces).map selByte
  decide (want.length ≤ 3) && pubs == (want ++ List.replicate (3 - want.length) 0xFF#8)

/-- The three passes of R36 over a scene's words. -/
def checkWords (regs len fits : Nat) (ws : List Word) : Except Trap (List Instr) :=
  match framing len fits ws with
  | some i => .error (decodeTrap i)
  | none =>
    match bodyCheck regs len 1 {} ((ws.drop 1).take len) with
    | .error t => .error t
    | .ok body => if publishes body (ws.getD (len + 1) 0#32) then .ok body else .error (decodeTrap (len + 1))

/-- Whether a register is empty (R47). -/
def Grp.isEmpty (g : Grp) (x : Sel) : Bool :=
  match x with
  | .v n => !(g.vreg n.toNat).full
  | .s n => !(g.sreg n.toNat).full
  | _ => false

/-- The mode bit of an operand position (R43, R48). -/
def modeTraps (mode : Word) (pos : Pos) : Bool :=
  match pos with
  | .a => bitOf mode 20
  | .b => bitOf mode 21
  | .d => bitOf mode 22

/-- MODE after a word as the start check follows it (R44, R48): the FLAGS of modei; the source of mode, where its value is known at
scene start: a constant, or a full unpoisoned scalar that no earlier word of the scene writes (DEDUCED, log 65: after any other
source the bits of the MODE before it judge). -/
def modeAfter (g : Grp) (written : List Sel) (mode : Word) (ins : Instr) : Word :=
  match ins with
  | .modei d n => if d.toNat = 4 then setField mode 23 18 (n.toNat % 64) else mode
  | .mode (.k n) => let x := (constCount n.toNat).getD 0xFFFFFFFF#32; if modeOk x then x else mode
  | .mode (.s n) =>
    let r := g.sreg n.toNat
    if !written.contains (.s n) && r.full && !r.pois && modeOk r.val then r.val else mode
  | _ => mode

/-- The start check (R48): the lowest word with a trapping empty source, and whether an empty register makes the fragment
wait. -/
def startCheck (g : Grp) : Nat → Word → List Sel → List Instr → Option Nat × Bool
  | _, _, _, [] => (none, false)
  | idx, mode, written, ins :: r =>
    let empties := (readsOf ins).filter fun x => g.isEmpty x.2 && !written.contains x.2
    let trap := empties.any fun x => modeTraps mode x.1
    let wait := !empties.isEmpty || (writesOf ins).any g.isEmpty
    let x := startCheck g (idx + 1) (modeAfter g written mode ins) (written ++ writesOf ins) r
    (if trap then some idx else x.1, wait || x.2)

/-- Whether a scene holds a side effect or a deferred producer (R192). -/
def hasEffects (body : List Instr) : Bool := body.any fun i => classOfWord i == .commit || classOfWord i == .deferred

/-- What a fragment's arrival at its scene header leads to. -/
inductive Start where
  | trap (t : Trap)
  | fault (f : Fault)
  | waitEmpty
  | waitFence (scope : Nat)
  | go (ws : List Word)
  deriving DecidableEq, Repr

/-- The scene at a fragment's PC judged (R33, R34, R36, R48, R88, R192). -/
def State.startScene (s : State) (g : Grp) (x : Slot) (len : Nat) : Start :=
  let pc := x.pc.toNat
  if pc % 4 ≠ 0 ∨ g.book.codeLen ≤ pc then .trap (decodeTrap 0)
  else
    let fits := (g.book.codeLen - pc) / 4
    let n := if len = 0 ∨ 24 < len then 1 else min (len + 2) fits
    match s.codeWords g x.mask x.pc n with
    | .error (.trap t) => .trap t
    | .error (.fault f) => .fault f
    | .ok ws =>
      match checkWords g.book.regs len fits ws with
      | .error t => .trap t
      | .ok body =>
        match startCheck g 1 x.mode [] body with
        | (some i, _) =>
          .trap { cls := clsEmpty, idx := i, detail := lowLane x.mask }
        | (none, true) => .waitEmpty
        | (none, false) =>
          match g.fence with
          | some k => if hasEffects body then .waitFence k else .go ws
          | none => .go ws

/-- The scene temporaries at scene start: undefined (R20), every part of one a free value, but in lanes that never started, whose
registers read as 0 with clear poison (R11). -/
def freeTemps (started : Word) (n : Nat) : Vector VReg 8 :=
  Vector.ofFn fun (i : Fin 8) =>
    let f (k : Nat) : Word := Config.freeTemp (n + 40 * i.val + k)
    { lanes := mergeLanes started (lanesFrom f) (lanesAll 0#32), tag := (f 32).extractLsb' 0 4, pois := f 33 &&& started,
      full := true }

/-- The scene buffer as a scene starts. -/
def beginIssue (s : State) (g : Grp) (slot : Bool) (ws : List Word) : Issue :=
  let x := g.slot slot
  { live := true, g := g, g0 := g, slot := slot, pc := x.pc, idx := 1, words := ws, mask := x.mask, mode := x.mode, t := freeTemps g.started s.free }

/-- SCENE (R34 to R36, R48): the fragment that is to issue next arrives at its header; the scene is framed and checked, and
starts, waits or traps. Nothing happens unless a ready fragment was chosen. -/
def execScene (len : BitVec 5) (s : State) : Out :=
  if s.iss.live then .next s
  else
    let slot := s.iss.slot
    match s.grp s.iss.g.uid with
    | none => .next s
    | some g =>
      let x := g.slot slot
      let s : State := { s with iss := {} }
      if g.place != .resident || x.st != .ready || x.hold != .none || x.busy then .next s
      else
        let s : State := s.touchTlb g.core g.part [g.book.code + x.pc.toNat]
        match s.startScene g x len.toNat with
        | .trap t => .next (s.takeTrap g.uid slot t x.pc)
        | .fault f => .fault f
        | .waitEmpty => .next (s.updGrp g.uid fun y => y.updSlot slot fun z => { z with hold := .emptyReg })
        | .waitFence k =>
          .next (s.updGrp g.uid fun y => y.updSlot slot fun z =>
            { z with st := .waiting, wait := .fence, warg := BitVec.ofNat 32 k })
        | .go ws =>
          let s : State := s.updGrp g.uid fun y =>
            { y.updSlot slot (fun z => { z with busy := true }) with lastSlot1 := slot, scenes := y.scenes + 1 }
          .next { s with iss := beginIssue s g slot ws, free := s.free + 320 }

/-- EMPTY_WAIT_END (R48): the start check is repeated once it no longer waits. -/
def execEmptyWaitEnd (u : Nat) (slot : Bool) (s : State) : Out :=
  match s.grp u with
  | none => .next s
  | some g =>
    let x := g.slot slot
    let len := match s.codeWord g x.mask x.pc with | .ok w => bits w 23 19 | .error _ => 0
    if x.hold = .emptyReg ∧ s.startScene g x len ≠ .waitEmpty then
      .next (s.updGrp u fun y => y.updSlot slot fun z => { z with hold := .none })
    else .next s

/-- The scene buffer laid over the group's registers (R20, R21, R37). -/
def Grp.commit (g : Grp) (i : Issue) : Grp :=
  let v : Vector VReg 128 := Vector.ofFn fun (n : Fin 128) =>
    let m := (i.vmask[n.val]?).getD 0#32
    let old := g.vreg n.val
    let new := i.g.vreg n.val
    if m = 0#32 then old
    else
      { old with lanes := mergeLanes m new.lanes old.lanes, pois := (old.pois &&& ~~~m) ||| (new.pois &&& m)
                 tag := if (i.vtagged[n.val]?).getD false then new.tag else old.tag }
  let sr : Vector SReg 32 := Vector.ofFn fun (n : Fin 32) =>
    let old := g.sreg n.val
    if (i.swrote[n.val]?).getD false then { old with val := (i.g.sreg n.val).val, pois := (i.g.sreg n.val).pois } else old
  let p : Vector PReg 8 := Vector.ofFn fun (n : Fin 8) =>
    let m := (i.pmask[n.val]?).getD 0#32
    let old := (g.p[n.val]?).getD {}
    let new := (i.g.p[n.val]?).getD {}
    { val := (old.val &&& ~~~m) ||| (new.val &&& m), pois := (old.pois &&& ~~~m) ||| (new.pois &&& m) }
  { g with v := v, s := sr, p := p }.updFrag i.mask fun x => { x with mode := i.mode }

/-- A published register marked empty (R47). -/
def Grp.markEmpty (g : Grp) (x : Sel) : Grp :=
  match x with
  | .v n => g.setV n.toNat { g.vreg n.toNat with full := false }
  | .s n => g.setS n.toNat { g.sreg n.toNat with full := false }
  | _ => g

/-- The registers of the deferred producers that act in some lane, marked empty (R47). -/
def Grp.markEmpties (g : Grp) (ops : List SOp) : Grp :=
  ops.foldl (fun g o =>
    if (produces o.ins).isSome && o.act != 0#32 then (writesOf o.ins).foldl Grp.markEmpty g else g) g

/-- The words of the "perform" list in order, up to one that stalls: the state, the scene and what is left. -/
def State.performAll (s : State) (i : Issue) : List SOp → State × Issue × List SOp
  | [] => (s, i, [])
  | o :: r =>
    match s.performOne i o with
    | (s, i, true) => s.performAll i r
    | (s, i, false) => (s, i, o :: r)

/-- The header after a scene's trailer (R34). -/
def Issue.nextPc (i : Issue) : Word := i.pc + BitVec.ofNat 32 (4 * i.words.length)

/-- A slot's fragment starts to wait at its next header (R25). -/
def State.wait (s : State) (u : Nat) (slot : Bool) (k : WaitKind) (f : Slot → Slot) : State :=
  s.updGrp u fun g => g.updSlot slot fun x => f { x with st := .waiting, wait := k }

/-- The wait half of barw and bars (R172): on the use of the group's arrival, or on the present use. -/
def State.beginBarrier (s : State) (u : Nat) (slot : Bool) (gang : Bool) (id phase : Nat) : State :=
  match s.grp u with
  | none => s
  | some g =>
    let b := s.barrier g gang id phase
    let n := (tfind g.arr (arrKey gang id phase)).getD b.gen
    if n < b.gen then s.releaseWaiter u slot gang id phase (tget b.released n 0)
    else
      let arg : Word := BitVec.ofNat 32 ((if gang then 32768 else 0) + 16 * phase + id)
      s.wait u slot .barrier fun x => { x with warg := arg, wgen := n }

/-- A memory wait begins (R174): its word as "Check" resolved it; it reads at once when the group's earlier accesses have
acted, else as soon as they have. -/
def State.beginMwait (s : State) (i : Issue) (u : Nat) (slot : Bool) (k : WaitKind) (c : Word) : State :=
  let a := i.wacc
  let space : BitVec 2 :=
    match decodeWord (i.words.getD (i.words.length - 2) 0#32) with
    | .ok (.mwne _ _ w _) | .ok (.mwge _ _ w _) => BitVec.ofNat 2 (winSpace (i.g.window w.toNat))
    | _ => 0#2
  let pa := match a.tgt with | .mem pa _ => pa | .scratch _ _ _ => 0
  let s : State := s.wait u slot k fun x =>
    { x with warg := c, waddr := BitVec.ofNat 57 a.va, wspace := space, wpa := pa, watched := false, fired := false, due := s.clk }
  s.mwaitTry u slot

/-- What ended waits leave: a popped fragment's wait that already holds ends (R176), a popped fragment's pending trap is taken
(R308), fragments at their joins stop (R16). -/
def State.settleSlot (s : State) (u : Nat) (slot : Bool) : State :=
  match s.grp u with
  | none => s
  | some g =>
    let x := g.slot slot
    if x.st != .waiting then if x.pends && !g.parking && !(g.slot (!slot)).handler then s.releaseHeld u slot else s
    else
      match x.wait with
      | .barrier =>
        let gang := bitOf x.warg 15
        let b := s.barrier g gang (bits x.warg 3 0) (bits x.warg 5 4)
        if x.wgen < b.gen then s.releaseWaiter u slot gang (bits x.warg 3 0) (bits x.warg 5 4) (tget b.released x.wgen 0) else s
      | .fence => if g.fence.isNone then s.endWait u slot else s
      | _ => s.wakeSlot u slot

/-- A fragment exits (R17, R18, R96): its lanes end; a handler's exit releases the other fragment (R308, R309). -/
def State.exitSlot (s : State) (u : Nat) (slot : Bool) : State :=
  match s.grp u with
  | none => s
  | some g =>
    let was := (g.slot slot).handler
    let s : State := s.updGrp u fun y => (y.endSlot slot).boundary (!slot)
    let s : State := s.wcFlushGroup u g.core
    match s.grp u with
    | none => s
    | some y => if y.over then s.afterEnd u else if was then s.releaseHeld u (!slot) else s

/-- The final word applied (R51, R92 to R98, R172 to R175, R310): none where a barrier arrival has still to be served, or a
split finds no room on the stack. -/
def State.applyFinal (s : State) (i : Issue) (slot : Bool) : Option State :=
  let u := i.g.uid
  let next := i.nextPc
  let go (pc : Word) (s : State) : State :=
    s.updGrp u fun g => (g.updSlot slot fun x => { x with pc := pc, st := .ready, busy := false }).boundary slot
  let park (s : State) : State := s.updGrp u fun g => g.updSlot slot fun x => { x with pc := next, busy := false }
  match i.final with
  | .none | .yield => some (go next s)
  | .jump t link =>
    let s : State := if link then s.updGrp u fun g => g.setS 31 { val := next, pois := false, full := true } else s
    some (go t s)
  | .brc p t j =>
    let taken := (i.g.preg p.toNat).val &&& i.mask
    if taken = 0#32 then some (go next s)
    else if taken = i.mask then some (go t s)
    else
      match (s.grp u).bind fun g => (g.updSlot slot fun x => { x with busy := false }).split slot taken next t j with
      | none => none
      | some h => some (s.updGrp u fun _ => (h.boundary slot).boundary (!slot))
  | .bru p c t =>
    let x := (i.g.preg p.toNat).val &&& i.mask
    let yes := if c = 0#2 then x != 0#32 else if c = 1#2 then x == i.mask else x == 0#32
    some (go (if yes then t else next) s)
  | .exit => some (s.exitSlot u slot)
  | .trapWord c n =>
    let s : State := park s
    some (s.takeTrap u slot { cls := c, idx := i.words.length - 2, detail := n.toNat } next)
  | .tret =>
    some (State.returnTrap (s.updGrp u fun g => g.updSlot slot fun x => { x with busy := false }) u slot)
  | .barrier arr w gang id phase =>
    match (if arr then s.arrive u gang id phase else some s) with
    | none => none
    | some s =>
      if w then some ((park s).beginBarrier u slot gang id phase) else some (go next s)
  | .mwait k c => some ((park s).beginMwait i u slot k c)
  | .drain =>
    let s : State := (park s).wcFlushGroup u i.g.core
    some ((s.wait u slot .drain fun x => { x with wgen := s.fresh }).wakeSlot u slot)
  | .cwait cue =>
    let mine (c : ECmd) : Bool := c.uid == u && c.live && c.kind != .wfree && c.cue == cue.toNat && decide (c.id < i.mark)
    let ids := (s.ecmds.filter mine).map (·.id)
    let s : State := (park s).wait u slot .cwait fun x => { x with warg := cue.setWidth 32, wcmds := ids }
    some (s.wakeSlot u slot)
  | .gwait tag =>
    let s : State := (park s).wait u slot .gwait fun x => { x with warg := tag.setWidth 32, wgen := s.commitKey u }
    some (s.wakeSlot u slot)

/-- Whether a group compares with its twin before its final word (R361). -/
def comparesFinal : Final → Bool
  | .exit | .barrier true _ _ _ _ => true
  | _ => false

/-- The end of a scene (R37): its final word, then what follows at the boundary (R16, R18, R27, R176, R327). -/
def State.endScene (s : State) (i : Issue) (slot : Bool) : Option State :=
  match s.applyFinal i slot with
  | none => none
  | some s =>
    let u := i.g.uid
    let s : State := (s.settleSlot u false).settleSlot u true
    some ((s.settleGang i.g.gang).beganWait u)

/-- What a scene in "perform" has added after its group was killed goes as the rest of the group's work went (R224, R355): held stores are
discarded, engine commands of a block with no group left on the core are dropped. -/
def State.endedWork (s : State) (g : Grp) : State :=
  let s : State := s.discardHeld g.uid
  if (s.gangGroups g.gang).any fun x => x.place != .ended && x.coreIdx == g.coreIdx then s else s.dropEngine g.gang g.coreIdx false

/-- "perform" as far as it goes: what is left of a scene that stalls is kept (R37). -/
def State.runPerform (s : State) (i : Issue) : State :=
  match s.performAll i i.ops with
  | (s, i, ops) =>
    let keep (s : State) (i : Issue) : State := { s with stowed := s.stowed ++ [{ i with ops := ops, phase := .perform }] }
    match s.grp i.g.uid with
    | none => s
    | some g =>
      if !ops.isEmpty then keep s i
      else
        match g.whereIs i.mask with
        | none => if g.place = .ended ∨ g.over = true then s.endedWork g else if g.stack.any (fun x => x.mask == i.mask) then keep s i else s
        | some slot =>
          if s.atPoint g then keep s i
          else if g.twin.isSome && !g.mism && comparesFinal i.final && !i.cmp then keep (s.askCompare g) { i with cmp := true }
          else
            match s.endScene i slot with
            | some s => s
            | none => keep s i

/-- The scene's words as "Check" left them: the word of a memory wait is read by the final word alone (R174). -/
def Issue.checked (i : Issue) (ops : List SOp) (mark : Nat) : Issue :=
  let isWait (o : SOp) : Bool := match o.ins with | .mwne _ _ _ _ | .mwge _ _ _ _ => true | _ => false
  let wacc := ((ops.find? isWait).bind fun o => o.accs.head?).getD {}
  { i with ops := ops.filter (fun o => !isWait o), wacc := wacc, phase := .perform, mark := mark }

/-- Whether the window descriptors a scene reads can be read at its "Check" step, their lines apart (R139): the group's earlier ordered
accesses have their times, and none of them waits in a stalled scene of its other fragment. -/
def State.tablesInOrder (s : State) (i : Issue) : Bool :=
  s.orderedDone i.g.uid && !(s.stowed.any fun j => j.g.uid == i.g.uid && j.phase == .perform && j.ops.any fun p => !p.accs.isEmpty)

/-- Where the window descriptors that a scene reads stand, those that a copy near the core does not give (R139, R146). -/
def State.tablePas (s : State) (i : Issue) : List Nat :=
  i.ops.filterMap fun o =>
    match o.ins with
    | .winld _ n =>
      if o.act = 0#32 then none
      else
        match s.translate i.g.core i.g.part i.g.system (i.g.book.wintab + 16 * n.toNat) with
        | .ok (pa, e) => if (s.hit ((s.grp i.g.uid).getD i.g) pa 16 e.cls).isSome then none else some pa
        | .error _ => none
    | _ => none

/-- Whether a scene reads a window descriptor. -/
def Issue.readsTable (i : Issue) : Bool :=
  i.ops.any fun o => match o.ins with | .winld _ _ => o.act != 0#32 | _ => false

/-- Whether the window descriptors a scene reads can be read at its "Check" step: in order (R139), with no line of them owned by an agent
(R154) and no bank of them held by its unit (R245). -/
def State.tablesReady (s : State) (i : Issue) : Bool :=
  !i.readsTable || (s.tablesInOrder i && (s.tablePas i).all fun pa => !s.owned (lineOf pa) && !s.bankHolds pa false)

/-- A scene whose descriptor reads have to wait at their homes waits for the lines, and makes its demands on the banks (R154, R245). -/
def State.askTables (s : State) (i : Issue) : State :=
  if !s.tablesInOrder i then s
  else
    let s : State := if (s.tablePas i).any fun pa => s.owned (lineOf pa) then s.await (.check i.g.uid i.slot) else s
    ((s.tablePas i).filter fun pa => s.bankHolds pa false).foldl (fun s pa => s.demand pa (i.g.uid, 2 * lineOf pa + 1) false) s

/-- The descriptor reads of a scene have been served. -/
def State.servedTables (s : State) (i : Issue) : State :=
  ((s.tablePas i).foldl (fun s pa => s.served (i.g.uid, 2 * lineOf pa + 1)) s).unawait fun w => w == .check i.g.uid i.slot

/-- Whether the arrival of the group's other fragment at the phase of a scene's arrival has passed its check and has still to be performed
(R172): the unit serves no other request between the two. -/
def State.arrivalOpen (s : State) (i : Issue) : Bool :=
  match i.final with
  | .barrier true _ gang id phase =>
    s.stowed.any fun j => j.g.uid == i.g.uid && j.phase == .perform &&
      match j.final with
      | .barrier true _ gang' id' phase' => gang' == gang && id' == id && phase' == phase
      | _ => false
  | _ => false

/-- A scene at its trailer (R37): "Check" of all later effects, then the write of the scene buffer, the empty marks, "perform" and the
final word; a descriptor read that cannot be made yet, or an arrival that is not served yet, keeps the scene at "Check" (R139, R172). -/
def State.finishScene (s : State) (i : Issue) : Out :=
  if s.tablesReady i = false then .next { s.askTables i with stowed := s.stowed ++ [{ i with phase := .check }] }
  else if s.arrivalOpen i then .next { s with stowed := s.stowed ++ [{ i with phase := .check }] }
  else
    let s : State := s.servedTables i
    match s.checkScene i with
    | .error (.trap t) => .next (s.trapIssue i t)
    | .error (.fault f) => .fault f
    | .ok (ops, s) =>
      let i := i.checked ops s.fresh
      let s : State := s.touchTlb i.g.core i.g.part ((ops.flatMap (·.accs)).filterMap fun a =>
        match a.tgt with | .mem _ _ => some a.va | .scratch _ _ _ => none)
      let s : State := s.updGrp i.g.uid fun g => (g.commit i).markEmpties i.ops
      .next (s.runPerform i)

/-- SCENE_END (R35, R37): nothing happens unless a scene stands at its trailer. -/
def execSceneEnd (_p1 _p2 _p3 : BitVec 8) (s : State) : Out :=
  let i := s.iss
  if i.live && i.phase == .body then State.finishScene { s with iss := {} } i else .next s

/-- What a scene that stalled in "perform" while a shootdown began has performed since (R345): the shootdown waits for it too, and its
copies and collections translate their pages again, and a page list that it has written with frames resolved before the GO is stale
(R250). -/
def State.lateWork (s old : State) (i : Issue) : State :=
  let d := (s.part i.g.part).sd
  if d.busy then
    let before (l : PageList) : Bool := decide (i.mark ≤ d.at_) && l.part == i.g.part && !old.plists.contains l && d.hits l
    let mine (id uid : Nat) : Bool := decide (old.fresh ≤ id) && uid == i.g.uid
    let s : State := { s with
      plists := updAll before (fun l => { l with stale := true }) s.plists
      cpys := updAll (fun c => mine c.id c.uid && c.global) (fun c => { c with retranslate := true }) s.cpys
      waves := updAll (fun w => mine w.id w.uid && w.kind == .gcoll && w.queue.isNone) (fun w => { w with retranslate := true }) s.waves }
    s.updPart i.g.part fun p => { p with sd := { p.sd with mark := s.fresh } }
  else s

/-- STALLED_PERFORM_RESUME (R37): the stalled scene of a slot goes on as far as it can; one that stalls again keeps its place among
the stalled scenes, and one that cannot go on at all does not use its group's image (R26). -/
def execStalledPerformResume (u : Nat) (slot : Bool) (s : State) : Out :=
  match s.stowed.find? fun i => i.g.uid == u && i.slot == slot with
  | none => .next s
  | some i =>
    let is (j : Issue) : Bool := j.g.uid == u && j.slot == slot
    let before := s.stowed.takeWhile (fun j => !is j)
    let rest := before ++ (s.stowed.dropWhile (fun j => !is j)).drop 1
    let put (t : State) : State :=
      let others := t.stowed.filter fun j => !is j
      { t with stowed := others.take before.length ++ t.stowed.filter is ++ others.drop before.length }
    let taken : State := ({ s with stowed := rest } : State).useImage u
    let went (t : State) : State := let t := put t; if t = { taken with stowed := s.stowed } then s else t
    if i.phase = .check then
      match taken.finishScene i with
      | .next t => .next (went t)
      | o => o
    else .next (went ((taken.runPerform i).lateWork taken i))

end Sys2Proof.Machine
end

