-- ==== Sys2Proof/Machine/EvMemory.lean ====
section
/-! DEFINITION. Memory events: loads and stores at homes and copies (R145 to R150, R157 to R159, R182, R183), results that
land (R47), acknowledgements (R352), agents' lines (R154, R168), fences, drains and memory waits (R170, R174, R192). -/

namespace Sys2Proof.Machine

/-- A request by its id, changed, or taken out. -/
def State.req (s : State) (id : Nat) : Option Req := s.reqs.find? fun r => r.id == id
def State.updReq (s : State) (id : Nat) (f : Req → Req) : State := { s with reqs := updFirst (fun r => r.id == id) f s.reqs }
def State.dropReq (s : State) (id : Nat) : State := { s with reqs := s.reqs.filter fun r => r.id != id }

/-- The merged request of a line whose window has ended at a clock goes out for every load of the core in that window, with the largest
program time among them (R150). -/
def State.sendLine (s : State) (core line due : Nat) : State :=
  let merged (x : Req) : Bool := x.core == core && x.kind == .load && tfind x.wins line == some due && (tfind x.sent line).isNone
  let ptsOf (x : Req) : Nat := ((s.grp x.uid).map (·.pts)).getD 0
  let top := (s.reqs.filter merged).foldl (fun m x => max m (ptsOf x)) 0
  { s with reqs := updAll merged (fun x => { x with sent := tset x.sent line top }) s.reqs }

/-- GATHER_WINDOW_EXPIRY (R150): the windows of a load's lines that have ended. -/
def execGatherWindowExpiry (r : Nat) (s : State) : Out :=
  match s.req r with
  | none => .next s
  | some q =>
    if q.kind != .load || q.woken then .next s
    else
      let ready := q.wins.filter fun w => decide (w.2 ≤ s.clk) && (tfind q.sent w.1).isNone
      .next (ready.foldl (fun s w => s.sendLine q.core w.1 w.2) s)

/-- An access of a request done with a value. -/
def Req.setAcc (r : Req) (n : Nat) (f : Acc → Acc) : Req :=
  { r with accs := r.accs.zipIdx.map fun x => if x.2 = n then f x.1 else x.1 }

/-- A prefetch all of whose lines have come leaves (R166). -/
def State.endPrefetch (s : State) (r : Nat) : State :=
  match s.req r with
  | some q => if q.accs.all (·.done) then s.dropReq r else s
  | none => s

/-- HOME_LOAD (R145 to R147, R150, R182): an access of a load takes its value from a copy, or from its home once its request has
been sent; a line an agent owns makes it wait (R154). -/
def execHomeLoad (r i : Nat) (s : State) : Out :=
  match s.req r with
  | none => .next s
  | some q =>
    match q.accs[i]?, s.grp q.uid with
    | some a, some g =>
      match a.tgt with
      | .scratch _ _ _ => .next s
      | .mem pa cls =>
        if q.kind != .load || a.done || !s.mayAct q i then .next s
        else if q.pre.isSome then
          if s.owned (lineOf pa) then .next (s.await (.load r i))
          else if s.bankHolds pa false then .next (s.demand pa (r, i) false)
          else
            let t : State := (s.prefetchLine g pa cls (q.pre == some true)).updReq r fun q => q.setAcc i fun a => { a with done := true }
            .next (((t.endPrefetch r).served (r, i)).unawait fun w => w == .load r i)
        else
          let near := if q.policy = .normal then s.hit g pa a.size cls else none
          let home := near.isNone && (tfind q.sent (lineOf pa)).isSome
          if home && s.owned (lineOf pa) then .next (s.await (.load r i))
          else if home && s.bankHolds pa false then .next (s.demand pa (r, i) false)
          else
          let x : Option (List Byte × Bool × State) :=
            match near with
            | some (c, l1) => some (s.loadHit g c l1 pa a.size)
            | none =>
              match tfind q.sent (lineOf pa) with
              | some m => some (s.loadHome g pa a.size m cls q.policy true)
              | none => none
          match x with
          | none => .next s
          | some (bs, pois, t) =>
            let v := BitVec.ofNat 128 (ofBytesLE (s.withHeld g r pa bs))
            let pois := pois && !s.heldClean g r pa
            let t : State := (t.updReq r fun q => q.setAcc i fun a => { a with done := true, res := v, rpois := pois }).served (r, i)
            .next (t.unawait fun w => w == .load r i)
    | _, _ => .next s

/-- GATHER_WAKE (R150): the last sector of a load has landed. -/
def execGatherWake (r : Nat) (s : State) : Out :=
  match s.req r with
  | none => .next s
  | some q =>
    if q.kind == .load && !q.woken && q.accs.all (·.done) then .next (s.updReq r fun q => { q with woken := true }) else .next s

/-- The 32-bit value an access returns for register j of its destination (R157). -/
def Acc.word (a : Acc) (ext j : Nat) : Word :=
  let x : Word := a.res.extractLsb' (32 * j) 32
  if ext = 0 then x else sext x ext

/-- Register n of a group full, with lanes, poison and tag landed in the lanes of m (R47, R158). -/
def Grp.landV (g : Grp) (n : Nat) (m : Word) (tag : BitVec 4) (x : Lanes) (p : Word) : Grp :=
  let r := g.vreg n
  g.setV n { lanes := mergeLanes m x r.lanes, tag := tag, pois := (r.pois &&& ~~~m) ||| (p &&& m), full := true }
def Grp.landS (g : Grp) (n : Nat) (x : Word) (p : Bool) : Grp := g.setS n { val := x, pois := p, full := true }

/-- The results of a load or atomic land in their registers. -/
def Grp.landReq (g : Grp) (r : Req) : Grp :=
  let acc (l : Nat) : Acc := (r.accs.find? fun a => a.lane == l).getD {}
  match r.dest with
  | .none => g
  | .s n k =>
    let a := r.accs.headD {}
    (List.range k).foldl (fun g j => g.landS (n + j) (a.word r.ext j) a.rpois) g
  | .v n k =>
    (List.range k).foldl (fun g j =>
      g.landV (n + j) r.act r.tag (lanesFrom fun l => (acc l).word r.ext j) (maskOf fun l => (acc l).rpois)) g

/-- A queue entry or status word lands. -/
def Grp.landEntry (g : Grp) (p : Pending) (e : Entry) : Grp :=
  match p.dest with
  | .none => g
  | .v n _ => g.landV n p.act p.tag e.lanes e.pois
  | .s n _ => g.landS n (laneAt e.lanes 0) (e.pois.getLsbD 0)

/-- The 16 words of a wave record (R285). -/
def WaveRec.word (r : WaveRec) (n : Nat) : Word :=
  let b (x : Bool) (i : Nat) : Nat := if x then 2 ^ i else 0
  let hi (x : Nat) : Word := BitVec.ofNat 32 (x / 2 ^ 32)
  let lo (x : Nat) : Word := BitVec.ofNat 32 x
  match n with
  | 0 =>
    BitVec.ofNat 32 (b r.rescan 22 + b r.nograph 21 + b r.badEdge 20 + b r.abort 19 + b r.badNode 18 + b r.ovf 17 + b r.sat 16
      + r.command * 256 + r.graph * 16 + r.st)
  | 1 => lo r.changed | 2 => hi r.changed
  | 3 => lo r.sent | 4 => hi r.sent
  | 5 => lo r.combined | 6 => hi r.combined
  | 7 => lo r.loans
  | 8 => lo r.collected | 9 => BitVec.ofNat 32 (r.collected / 2 ^ 32 % 256)
  | 10 => lo r.malformed
  | 11 => lo r.skipped
  | 12 => lo r.ns | 13 => hi r.ns
  | 14 => lo r.rounds
  | _ => 0#32

/-- A gstat taken at its tag (R295): once every graph command the group committed earlier has arrived. -/
def State.takeStatus (s : State) (p : Pending) : Option Entry :=
  match p.got, p.ask with
  | some e, _ => some e
  | none, none => none
  | none, some (tag, word) =>
    match s.grp p.uid with
    | none => none
    | some g =>
      if s.waves.any fun w => w.st == .path && g.committed w (if g.under then p.solo else p.id) then none
      else
        let tags : Tbl TagState := match s.launch g.launch with | some l => l.tags | none => []
        let r := (tget tags tag {}).record
        some { lanes := match word with
                 | some n => lanesAll (r.word n)
                 | none => lanesFrom fun l => if l < 16 then r.word l else 0#32 }

/-- DEFERRED_RESULT_LANDS (R22, R47, R96): the result of a load, atomic, pop or status word lands in the group's image and its
registers become full; a word that the primary performed for both copies lands in both (R362). -/
def execDeferredResultLands (id : Nat) (s : State) : Out :=
  match s.req id with
  | some r =>
    if r.accs.all (·.done) && r.dest != .none && (r.kind != .load || r.woken) then
      let s : State := s.updImage r.uid fun g => g.landReq r
      let s : State :=
        match r.twin with
        | some (v, _) => s.updImage v fun g => g.landReq r
        | none => s
      if r.kind == .load || r.acked then .next (s.dropReq id) else .next (s.updReq id fun q => { q with dest := .none })
    else .next s
  | none =>
    match s.status.find? fun p => p.id == id with
    | none => .next s
    | some p =>
      match s.takeStatus p with
      | none => .next s
      | some e => .next { s.updImage p.uid (fun g => g.landEntry p e) with status := s.status.filter fun q => q.id != id }

/-- The lanes of a store word that lie in a sector, written in lane order as one request at the home (R149, R150, R183). -/
def State.storeSector (s : State) (q : Req) (g : Grp) (accs : List Acc) (sec : Nat) (cls : Class) : State :=
  let pa := 32 * sec
  if (s.die (homeDie pa)).failed then s.imprecise .homelost q.part q.imgSlot q.ord pa
  else
    let write (s : State) (a : Acc) : State := s.writePa a.pa (bytesLE a.size a.data.toNat)
    let t := s.writeTime pa q.part g.pts
    let s : State := accs.foldl write s
    let covered (i : Nat) : Bool := accs.any fun a => decide (a.pa ≤ pa + i) && decide (pa + i < a.pa + a.size)
    let s : State := if (List.range 32).all covered then { s with pois := clearPois s.pois pa 32 } else s
    let s : State := if cls = .bank then s else s.noteDirty pa 32 q.part
    let s : State :=
      if cls = .priv then
        let fresh (c : Copy) : Copy := { s.freshCopy c.site pa 1 c.w c.r c.owner false with sectors := c.sectors }
        let s : State := { s with copies := updAll (fun c => c.line == lineOf pa && (c.owner.bind q.placeFor).isSome) fresh s.copies }
        if q.policy = .nt then s.markEarly q.core pa q.part else s
      else if q.policy = .normal then ((s.stampLine pa q.part t).raiseFor q t).refreshCopies q.core pa t
      else (s.dropCopies pa).markEarly q.core pa q.part
    accs.foldl (fun s a => s.fireWatches a.tgt a.size) s

/-- HOME_STORE (R147, R149, R183): the lanes of a store in one sector act at the home; a WC sector that waits there is written
once its line is free (R154), its bank is (R245), and its group's earlier accesses to its bytes are done (R145, R149). -/
def execHomeStore (r i : Nat) (s : State) : Out :=
  match s.req r with
  | none => .next s
  | some q =>
    match q.accs[i]?, s.grp q.uid with
    | some a, some g =>
      match a.tgt with
      | .scratch _ _ _ => .next s
      | .mem pa cls =>
        if q.kind != .store || a.done then .next s
        else if q.policy = .wc then
          match (s.core q.core).wcOut.find? fun e => e.lanes.contains (r, i) with
          | none => .next s
          | some e =>
            let key := (e.uid, 2 * e.sector)
            if !s.wcReady e then .next s
            else if !s.lineFree (lineOf pa) then .next (s.await e.waiter)
            else if s.bankHolds pa true then .next (s.demand pa key true)
            else .next (((s.updCore q.core fun c => { c with wcOut := c.wcOut.filter fun x => x != e }).wcWrite e q.part).served key)
        else if !s.mayAct q i then .next s
        else if !s.lineFree (lineOf pa) then .next (s.await (.store r i))
        else if s.bankHolds pa true then .next (s.demand pa (r, i) true)
        else
          let same (a : Acc) : Bool := !a.done && (match a.tgt with | .mem b _ => b / 32 == pa / 32 | .scratch _ _ _ => false)
          let s : State := s.storeSector q g (q.accs.filter same) (pa / 32) cls
          let gone (w : LineWait) : Bool :=
            match w with | .store t j => t == r && (match q.accs[j]? with | some b => same b | none => true) | _ => false
          .next (((s.updReq r fun q => q.doneIn (pa / 32)).served (r, i)).unawait gone)
    | _, _ => .next s

/-- STORE_ACKNOWLEDGE (R352): every lane of a store, atomic or reduction has acted at its home. -/
def execStoreAcknowledge (r : Nat) (s : State) : Out :=
  match s.req r with
  | none => .next s
  | some q =>
    if q.kind == .load || q.acked || !q.accs.all (·.done) then .next s
    else
      let s : State := s.ackSide q.part q.imgSlot q.ord 1
      if q.kind == .atomic && q.dest != .none then .next (s.updReq r fun q => { q with acked := true }) else .next (s.dropReq r)

/-- LINE_EVICTION (R186, R350). -/
def execLineEviction (line : Nat) (s : State) : Out := .next (s.evictLine line)

/-- WC_SECTOR_TIMEOUT (R148). -/
def execWcSectorTimeout (core i : Nat) (s : State) : Out :=
  match (s.core core).wc[i]? with
  | none => .next s
  | some e => if e.since + 4096 ≤ s.clk then .next (s.wcFlush core fun x => x.uid == e.uid && x.sector == e.sector) else .next s

/-- Bytes with their poison written at physical addresses (R153): a sector that takes a poisoned byte is poisoned, one that is
written whole and clean is cleared; a zero row discards byte and mark (R236). -/
def State.writeMarked (s : State) (bs : List (Nat × Byte × Bool)) : State :=
  let s : State := bs.foldl (fun s b => s.writePa b.1 [b.2.1]) s
  let secs := (bs.map fun b => b.1 / 32).eraseDups
  { s with pois := secs.foldl (fun p k =>
      let mine := bs.filter fun b => b.1 / 32 == k
      if zeroRow (32 * k) then p else if mine.any fun b => b.2.2 then markPois p k else if mine.length = 32 then clearPois p (32 * k) 32 else p) s.pois }

/-- Bytes with their poison written to a scratchpad (R141, R153). -/
def State.writeMarkedScratch (s : State) (k c : Nat) (bs : List (Nat × Byte × Bool)) : State :=
  let s : State := bs.foldl (fun s b => s.writeTarget (.scratch k c b.1) [b.2.1]) s
  let secs := (bs.map fun b => b.1 / 32).eraseDups
  secs.foldl (fun s n =>
    let mine := bs.filter fun b => b.1 / 32 == n
    if mine.any fun b => b.2.2 then s.poisonTarget (.scratch k c (32 * n))
    else if mine.length = 32 then s.writeTarget (.scratch k c (32 * n)) (s.readTarget (.scratch k c (32 * n)) 32) else s) s

/-- The bytes of a copy that go to memory, by address. -/
def CopyCmd.memBytes (c : CopyCmd) (p : Nat → Class → Bool) : List (Nat × Byte × Bool) :=
  c.bytes.filterMap fun b =>
    match b.2.1 with
    | .mem pa cls => if p pa cls then some (pa, b.2.2.1, b.2.2.2) else none
    | .scratch _ _ _ => none

/-- The destination pages a copy has still to write, translated again after a shootdown (R345); none where a page fails. -/
def State.retranslateBytes (s : State) (c : CopyCmd) : Option (List (Nat × Target × Byte × Bool)) :=
  let sys := match s.grp c.uid with | some g => g.system | none => false
  c.bytes.mapM fun b =>
    match b.2.1 with
    | .scratch _ _ _ => some b
    | .mem _ _ =>
      match s.translate c.core c.part sys (c.dstVa + b.1) with
      | .ok (pa, e) =>
        if (s.paFault pa 1).isNone && e.cls != .readShared then some (b.1, .mem pa e.cls, b.2.2.1, b.2.2.2) else none
      | .error _ => none

/-- A copy that is gone: its side effect is acknowledged, its group follows its writes (R168, R189, R352). -/
def State.endCopy (s : State) (c : CopyCmd) : State :=
  let s : State := ({ s with cpys := s.cpys.filter fun x => x.id != c.id } : State).unwait c.id
  let s : State := s.ackSide c.part c.imgSlot c.ord 1
  { s with groups := updAll (fun (g : Grp) => g.has c.uid) (fun g => { g with cpyTime := max g.cpyTime c.time }) s.groups }

/-- A copy after a shootdown (R168, R345): its remaining pages are translated again, or it ends with an imprecise error. -/
def State.moveCopy (s : State) (c : CopyCmd) : State :=
  match s.retranslateBytes c with
  | none =>
    let pa := ((c.memBytes fun _ _ => true).headD (0, 0#8, false)).1
    (s.imprecise .copy c.part c.imgSlot c.ord pa).endCopy c
  | some bs =>
    let lines := (bs.filterMap fun b => match b.2.1 with | .mem pa cls => if cls = .priv then none else some (lineOf pa) | _ => none).eraseDups
    let others : State := { s with cpys := s.cpys.filter fun x => x.id != c.id }
    if lines.any fun l => others.owned l || s.lineHeld l then s
    else
      let s : State := match s.grp c.uid with | some g => s.noteCopied g lines | none => s
      { s with cpys := updFirst (fun x => x.id == c.id) (fun x => { x with bytes := bs, owned := lines, retranslate := false }) s.cpys }

/-- A line of a copy's destination written whole, timed after every lease of it, and released (R154, R167); it waits for its bank (R245). -/
def State.copyLine (s : State) (c : CopyCmd) (line : Nat) : State :=
  let pa := 256 * line
  if s.bankHolds pa true then s.demand pa (c.id, line) true else
  let bs := c.memBytes fun a cls => lineOf a == line && cls != .priv
  let t := s.writeTime pa c.part c.pts
  let keep (b : Nat × Target × Byte × Bool) : Bool :=
    match b.2.1 with
    | .mem a cls => !(lineOf a == line && cls != .priv)
    | .scratch _ _ _ => true
  let done (x : CopyCmd) : CopyCmd := { x with bytes := x.bytes.filter keep, owned := x.owned.filter (· != line), time := max x.time t }
  let s : State :=
    if (s.die (homeDie pa)).failed then s.imprecise .homelost c.part c.imgSlot c.ord pa
    else
      let s : State := (s.writeMarked bs).stampLine pa c.part t
      s.noteSectors c.part ((c.memBytes fun a cls => lineOf a == line && cls == .coherent).map (·.1))
  let s : State := (s.fireWatches (.mem pa .coherent) 256).served (c.id, line)
  { s with cpys := updFirst (fun x => x.id == c.id) done s.cpys }

/-- AGENT_LINE_RELEASE (R154): a copy writes a line it owns and releases it; a collection that has written its entries releases
its lines one by one (R277); one it has not written keeps its times (R155). -/
def execAgentLineRelease (cmd line : Nat) (s : State) : Out :=
  match s.cpys.find? fun c => c.id == cmd with
  | some c =>
    if c.retranslate then .next (s.moveCopy c)
    else if c.owned.contains line then .next (s.copyLine c line)
    else .next s
  | none =>
    match s.waves.find? fun w => w.id == cmd with
    | none => .next s
    | some w =>
      if !w.owned.contains line || w.st != .running || w.go || !w.entries.isEmpty then .next s
      else
        let t := if w.wrote.contains line then s.writeTime (256 * line) w.part w.time else 0
        let s : State :=
          if w.wrote.contains line then
            (s.stampLine (256 * line) w.part t).fireWatches (.mem (256 * line) .coherent) 256
          else s
        .next { s with waves := updFirst (fun x => x.id == cmd) (fun x => { x with owned := x.owned.filter (· != line), time := max x.time t }) s.waves }

/-- COPY_RETIRE (R168): a copy whose owned lines are released writes what goes to private pages and scratchpads, and retires; a private
line under a wload's hold makes it wait (R222), and what goes to a lost die is dropped with a record (R366). -/
def execCopyRetire (cmd : Nat) (s : State) : Out :=
  match s.cpys.find? fun c => c.id == cmd with
  | none => .next s
  | some c =>
    if c.retranslate then .next (s.moveCopy c)
    else if !c.owned.isEmpty || (c.memBytes fun _ _ => true).any (fun b => s.lineHeld (lineOf b.1)) then .next s
    else
      let priv := c.memBytes fun _ _ => true
      let lost (pa : Nat) : Bool := (s.die (homeDie pa)).failed
      let gone := ((priv.filter fun b => lost b.1).map fun b => lineOf b.1).eraseDups
      let s : State := s.writeMarked (priv.filter fun b => !lost b.1)
      let s : State := s.noteSectors c.part ((priv.filter fun b => !lost b.1).map (·.1))
      let s : State := gone.foldl (fun s l => s.imprecise .homelost c.part c.imgSlot c.ord (256 * l)) s
      let s : State := priv.foldl (fun s b => (s.dropCopies b.1).fireWatches (.mem b.1 .priv) 1) s
      let cores := (c.bytes.filterMap fun b => match b.2.1 with | .scratch k n _ => some (k, n) | .mem _ _ => none).eraseDups
      let s : State := cores.foldl (fun s kn =>
        let bs := c.bytes.filterMap fun b =>
          match b.2.1 with
          | .scratch k n a => if (k, n) = kn then some (a, b.2.2.1, b.2.2.2) else none
          | .mem _ _ => none
        bs.foldl (fun s b => s.fireWatches (.scratch kn.1 kn.2 b.1) 1) (s.writeMarkedScratch kn.1 kn.2 bs)) s
      .next (s.endCopy c)

/-- Whether every side effect of a group has reached its agents (R192): stores, atomics and reductions their homes, copies their
retirement, commands their controllers; and its loads have read, since a load before a fence must not see what follows it in the order
of the fences (R194). -/
def State.effectsOut (s : State) (g : Grp) : Bool :=
  let open_ (r : Req) : Bool :=
    (r.placeFor g.uid).isSome && (if r.kind == .load then r.pre.isNone && !r.accs.all (·.done) else !r.acked)
  !s.reqs.any open_
    && !((s.core g.core).wc.any fun e => e.uid == g.uid) && !(s.cpys.any fun c => g.has c.uid)
    && !(s.waves.any fun w => g.has w.uid && w.st == .path)

/-- Whether the scope of a group's fence includes a group, judged now (R193). -/
def State.inScope (g : Grp) (scope : Nat) (x : Grp) : Bool :=
  match scope with
  | 0 => x.uid == g.uid
  | 1 => x.gang == g.gang && x.block == g.block
  | 2 => x.gang == g.gang
  | 3 => x.place == .resident && dieOfCore x.core == dieOfCore g.core
  | _ => true

/-- Whether the scope of a group's fence includes an agent that is no group, by its die: a hart, an engine or a bank unit (R193). -/
def scopeAgent (g : Grp) (scope die : Nat) : Bool := if scope = 3 then die == dieOfCore g.core else decide (4 ≤ scope)

/-- Whether a fence includes the PCIe and CXL devices, an attached host and the Ethernet engines (R193, R196). -/
def scopeSystem (scope : Nat) : Bool := scope == 5

/-- Whether the scope of a group's fence includes the agent of an earlier one. -/
def State.includesAgent (s : State) (g : Grp) (scope : Nat) (f : FenceRec) : Bool :=
  match f.by_ with
  | none => scopeAgent g scope f.die
  | some u => u != g.uid && match s.grp u with
    | some x => State.inScope g scope x
    | none => decide (4 ≤ scope)

/-- The moment of the last earlier fence that a fence of a group pairs with, each scope including the other's agent (R195): what preceded
it is at the homes, and no copy read before it serves the group any more. -/
def State.pairedFence (s : State) (g : Grp) (scope : Nat) : Nat :=
  s.fences.foldl (fun m f => if f.incl.contains g.uid && s.includesAgent g scope f then max m (f.key + 1) else m) 0

/-- A fence that performs is entered in the total order (R194), with the groups its scope includes; it replaces an earlier one of its agent
and scope that included no more. -/
def State.enterFence (s : State) (by_ : Option Nat) (scope die : Nat) (incl : List Nat) : State :=
  let f : FenceRec := { by_ := by_, scope := scope, die := die, key := s.fresh, incl := incl }
  let past (e : FenceRec) : Bool := e.by_ == by_ && e.scope == scope && e.die == die && e.incl.all incl.contains
  { s with fresh := s.fresh + 1, fences := f :: s.fences.filter fun e => !past e }

/-- A group's fence performs (R189, R193 to R195): its program time passes its copies' writes, the side effects before the fences it pairs
with are visible to it, and it takes its place in the order. -/
def State.performFence (s : State) (g : Grp) (scope : Nat) : State :=
  let m := s.pairedFence g scope
  let s : State := s.updGrp g.uid fun x => { x.raise x.cpyTime with fence := none, since := max x.since m }
  s.enterFence (some g.uid) scope (dieOfCore g.core) ((s.groups.filter (State.inScope g scope)).map (·.uid))

/-- FENCE_PERFORM (R192): the fence performs, and what it held goes on. -/
def execFencePerform (u : Nat) (s : State) : Out :=
  match s.grp u with
  | none => .next s
  | some g =>
    if g.fence.isSome && s.effectsOut g then
      let s : State := s.performFence g (g.fence.getD 0)
      let wake (s : State) (slot : Bool) : State :=
        match s.grp u with
        | none => s
        | some x => if (x.slot slot).st == .waiting && (x.slot slot).wait == .fence then s.endWait u slot else s
      .next (wake (wake s false) true)
    else .next s

/-- DRAIN_COMPLETE (R170, R189). -/
def execDrainComplete (u : Nat) (slot : Bool) (s : State) : Out :=
  match s.grp u with
  | none => .next s
  | some g =>
    let x := g.slot slot
    if x.st = .waiting ∧ x.wait = .drain ∧ s.drained g x.wgen = true then .next ((s.raisePts u g.cpyTime).endWait u slot) else .next s

/-- MWAIT_WATCH_FIRE (R174): a write to the watched word was performed; the waiter reads again. -/
def execMwaitWatchFire (u : Nat) (slot : Bool) (s : State) : Out :=
  match s.grp u with
  | none => .next s
  | some g =>
    let x := g.slot slot
    if x.mwaits && x.watched && x.fired then .next (s.mwaitTry u slot) else .next s

/-- MWAIT_POLL (R28, R174): a waiter without a watch reads the word again, every 2,048 clocks and on resume. -/
def execMwaitPoll (u : Nat) (slot : Bool) (s : State) : Out :=
  match s.grp u with
  | none => .next s
  | some g =>
    let x := g.slot slot
    if x.mwaits && !x.watched && decide (x.due ≤ s.clk) && g.place != .evicted then .next (s.mwaitTry u slot) else .next s

end Sys2Proof.Machine
end

