-- ==== Sys2Proof/Machine/EvEngine.lean ====
section
/-! DEFINITION. Events of the butterfly engine (R212 to R221): issue, loading and freeing granules, outputs, retirement,
rehearsals. -/

namespace Sys2Proof.Machine

/-- SEQUENCER_ISSUE (R219): a command whose dependencies and orders are satisfied issues; a stage starts to take its input. -/
def execSequencerIssue (cmd : Nat) (s : State) : Out :=
  match s.ecmd cmd with
  | none => .next s
  | some c =>
    let t : State := if c.kind == .stage then s.fill c.gang c.coreIdx c.inQ else s
    if t.canIssue c then
      let t : State := t.updECmd cmd fun d => { d with st := .running }
      .next (if c.kind == .stage then t.fill c.gang c.coreIdx c.inQ else t)
    else .next s

/-- The wload committed after a command that will write a granule of its block, the first of them (R212). -/
def State.nextLoad (s : State) (c : ECmd) (g : Nat) : Option ECmd :=
  let covers (d : ECmd) : Bool :=
    d.kind == .wload && d.live && d.id != c.id && d.gang == c.gang && d.coreIdx == c.coreIdx && decide (d.gran ≤ g) && decide (g < d.gran + d.count)
  (s.ecmds.dropWhile fun d => d.id != c.id).find? covers

/-- The bytes of granule j of a wload's source. -/
def ECmd.granuleBytes (c : ECmd) (j : Nat) : Memory :=
  (c.bytes.filter fun b => decide (4096 * j ≤ b.1) && decide (b.1 < 4096 * (j + 1))).map fun b => (b.1 - 4096 * j, b.2)

/-- A command's granules written by f of their index, one a later wload covers staying loading (R212). -/
def State.writeGranules (s : State) (c : ECmd) (f : Nat → Granule) : State :=
  let e := s.eng c.gang c.coreIdx
  let put (t : Tbl Granule) (j : Nat) : Tbl Granule :=
    let g := f j
    tset t (c.gran + j) (match s.nextLoad c (c.gran + j) with
      | some d => { g with st := .loading, i8 := d.i8 }
      | none => g)
  s.setEng { e with gran := (List.range c.count).foldl put e.gran }

/-- WLOAD_RETIRE (R212, R220, R222): the bytes are in the granules; the holds of its source lines end. -/
def execWloadRetire (cmd : Nat) (s : State) : Out :=
  match s.ecmd cmd with
  | none => .next s
  | some c =>
    if c.kind != .wload || c.st != .running then .next s
    else
      let g (j : Nat) : Granule := { st := .loaded, i8 := c.i8, pois := c.poisAt.contains j, bytes := c.granuleBytes j }
      let done (d : ECmd) : ECmd := { d with st := .retired, bytes := [], holds := [], pois := !c.poisAt.isEmpty }
      .next ((s.writeGranules c g).updECmd cmd done).wakeWaits

/-- WFREE_RETIRE (R212, R220). -/
def execWfreeRetire (cmd : Nat) (s : State) : Out :=
  match s.ecmd cmd with
  | none => .next s
  | some c =>
    if c.kind != .wfree || c.st != .running then .next s
    else .next ((s.writeGranules c fun _ => {}).updECmd cmd fun d => { d with st := .retired }).wakeWaits

/-- Whether a command may deliver to its output queue (R218, R219, R221): no earlier command on that queue is unretired, and the
queue has room. -/
def State.canDeliver (s : State) (c : ECmd) : Bool :=
  let same (d : ECmd) : Bool := d.kind == .stage && d.live && d.gang == c.gang && d.coreIdx == c.coreIdx && d.outQ == c.outQ
  !(s.before c.id).any same && decide ((s.queue c.gang c.coreIdx c.outQ).entries.length < 64)

/-- A stage or chain whose input is complete runs its stages once the pipeline is free (R209, R218). -/
def State.advance (s : State) (c : ECmd) : State :=
  if c.st == .running && c.took && s.engineFree c then s.runStages c else s

/-- Whether a command delivers its outputs: it runs without rehearsal, or is held and released (R221). -/
def ECmd.delivers (c : ECmd) : Bool := (c.st == .running && !c.rehearsal) || (c.st == .held && c.released)

/-- ENGINE_OUTPUT_ENTRY (R218, R221): the stages run, and one output entry enters the output queue when it has room. -/
def execEngineOutputEntry (cmd : Nat) (s : State) : Out :=
  match s.ecmd cmd with
  | none => .next s
  | some c =>
    if c.kind != .stage || !c.delivers then .next s
    else
      let s : State := s.advance c
      match s.ecmd cmd with
      | none => .next s
      | some d =>
        match d.outs with
        | [] => .next s
        | e :: r =>
          if s.canDeliver d then
            let s : State := s.updECmd cmd fun x => { x with outs := r }
            .next (s.updQueue d.gang d.coreIdx d.outQ fun q => { q with entries := q.entries ++ [e] })
          else .next s

/-- STAGE_RETIRE (R220). -/
def execStageRetire (cmd : Nat) (s : State) : Out :=
  match s.ecmd cmd with
  | none => .next s
  | some c =>
    if c.kind == .stage && c.delivers && c.computed && c.outs.isEmpty then
      .next (s.updECmd cmd fun d => { d with st := .retired }).wakeWaits
    else .next s

/-- REHEARSAL_HELD (R221): a rehearsal command that has finished is held; a released one then delivers. -/
def execRehearsalHeld (cmd : Nat) (s : State) : Out :=
  match s.ecmd cmd with
  | none => .next s
  | some c =>
    if c.kind != .stage || !c.rehearsal || c.st != .running then .next s
    else
      let s : State := s.advance c
      match s.ecmd cmd with
      | none => .next s
      | some d => if d.computed then .next (s.updECmd cmd fun x => { x with st := .held }) else .next s

end Sys2Proof.Machine
end

