-- ==== Sys2Proof/Machine/EvBank.lean ====
section
/-! DEFINITION. Bank units at work (R242 to R250, R252, R254): frames through page lists, one line of a command's results, the end
of a command, a bank's mode. -/

namespace Sys2Proof.Machine

/-- Why a bank window does not reach an offset now: its list is stale and waits for a refresh (R250), or the frame is absent or
outside the list, which ends the command early (R248). -/
inductive BankStop where
  | stale
  | absent
  deriving DecidableEq, Repr

/-- The physical address of a byte of a bank window (R249). -/
def State.bankPa (s : State) (part tab : Nat) (w : BWin) (off : Nat) : Except BankStop Nat :=
  match s.plists.find? fun p => p.part == part && p.tab == tab && p.slot == w.list with
  | none => .error .absent
  | some p =>
    if p.stale then .error .stale
    else
      let va := w.base + off
      if va / 65536 < p.first then .error .absent
      else
        match p.frames[va / 65536 - p.first]? with
        | some (some f) => .ok (f * 65536 + va % 65536)
        | _ => .error .absent

/-- The physical addresses of n bytes of a bank window. -/
def State.bankPas (s : State) (part tab : Nat) (w : BWin) (off n : Nat) : Except BankStop (List Nat) :=
  (List.range n).mapM fun i => s.bankPa part tab w (off + i)

/-- A 4-byte word at physical addresses, and whether a sector of it is poisoned (R153). -/
def State.wordAt (s : State) (pas : List Nat) : Word × Bool :=
  (BitVec.ofNat 32 (ofBytesLE (pas.map fun pa => (s.readPa pa 1).headD 0#8)), pas.any fun pa => s.paPois pa 1)

/-- One element of a bexec (R252): its result and whether an input is poisoned. -/
def State.bankElement (s : State) (c : BankCmd) (i : Nat) : Except BankStop (Word × Bool) := do
  let xs ← s.bankPas c.part c.tab c.x (4 * i) 4
  let x := s.wordAt xs
  let y : Word × Bool ← match c.y with
    | some w => (s.bankPas c.part c.tab w (4 * i) 4).map fun ys => s.wordAt ys
    | none => .ok (0#32, false)
  let env : PEnv := { attr := fun k => if k = 0 then x.1 else y.1, slot := fun _ _ => 0#32, idx := i }
  .ok (c.prog.eval env, x.2 || y.2)

/-- The length of a bank command's results. -/
def BankCmd.bytes (c : BankCmd) : Nat := if c.rowop then 65536 * c.count else 4 * c.count

/-- The bytes a bank command writes from an offset of Z to the end of its row: address, value, poison (R252, R254). Elements are
written whole, with the row they start in. -/
def State.bankBytes (s : State) (c : BankCmd) (off : Nat) : Except BankStop (List (Nat × Byte × Bool)) :=
  let len := min (1024 - (c.z.base + off) % 1024) (c.bytes - off)
  if c.rowop then
    (List.range len).mapM fun i => do
      let z ← s.bankPa c.part c.tab c.z (off + i)
      if c.copy then
        let x ← s.bankPa c.part c.tab c.x (off + i)
        .ok (z, (s.readPa x 1).headD 0#8, s.paPois x 1)
      else .ok (z, 0#8, false)
  else do
    let first := ceilDiv off 4
    let n := min c.count (ceilDiv (off + len) 4) - first
    let es ← (List.range n).mapM fun j => do
      let i := first + j
      let zs ← s.bankPas c.part c.tab c.z (4 * i) 4
      let r ← s.bankElement c i
      .ok ((zs.zip (bytesLE 4 r.1.toNat)).map fun b => (b.1, b.2, r.2))
    .ok es.flatten

/-- A bank taken into compute mode (R244, R245). -/
def State.bankWorks (s : State) (pa : Nat) : State :=
  let b := bankOf pa
  let m := tget s.banks b {}
  { s with banks := tset s.banks b { m with compute := true, since := if m.compute then m.since else s.clk } }

/-- Lines written by a bank unit (R188, R247): each is dropped at its home, whose memory time passes its leases and reaches a given
time, then written; answers the largest time. -/
def State.unitWrite (s : State) (part from_ : Nat) (bs : List (Nat × Byte × Bool)) : Nat × State :=
  let lines := (bs.map fun b => lineOf b.1).eraseDups
  let drop (x : Nat × State) (l : Nat) : Nat × State :=
    let y := x.2.backInvalidate (256 * l) part from_
    (max x.1 y.1, y.2)
  let x := lines.foldl drop (0, s)
  let s : State := x.2.writeMarked bs
  (x.1, lines.foldl (fun s l => (s.fireWatches (.mem (256 * l) .bank) 256).bankWorks (256 * l)) s)

def State.updBank (s : State) (id : Nat) (f : BankCmd → BankCmd) : State := { s with bcmds := updFirst (fun b => b.id == id) f s.bcmds }

/-- Whether an offset of a command's results needs a frame that its list no longer holds (R250). -/
def State.needsAbsent (s : State) (c : BankCmd) (off : Nat) : Bool :=
  match s.bankBytes c off with
  | .error .absent => true
  | _ => false

/-- One row of a bank command's results, named by a line of it, as one step (R247, R252, R254); a CXL host that caches a line of it
answers a BISnp first. -/
def State.bankLine (s : State) (c : BankCmd) (line : Nat) : State :=
  match c.todo.find? fun off => match s.bankPa c.part c.tab c.z off with | .ok pa => lineOf pa / 4 == line / 4 | .error _ => false with
  | none => if c.todo.any (s.needsAbsent c) then s.stopBank c else s
  | some off =>
    match s.bankBytes c off with
    | .error .stale => s
    | .error .absent => s.stopBank c
    | .ok bs =>
      let lines := (bs.map fun b => lineOf b.1).eraseDups
      match lines.find? fun l => s.hostLines.contains l with
      | some l =>
        if c.snooped.contains l then s
        else (s.updBank c.id fun b => { b with snooped := l :: b.snooped }).send (.bisnp l)
      | none =>
        if !lines.all s.unitFree then s
        else
          let x := s.unitWrite c.part 0 bs
          let bad := bs.find? fun b => b.2.2
          let done (b : BankCmd) : BankCmd :=
            { b with todo := b.todo.filter (· != off), time := max b.time x.1, poisoned := b.poisoned || bad.isSome }
          let s : State := x.2.updBank c.id done
          match bad with
          | some b => if c.poisoned then s else s.imprecise .bank c.part c.imgSlot c.ord b.1
          | none => s

/-- BANK_COMMAND_COMPLETE (R248): the done value is added at the home, later than every write of the command, and its launch's record
follows it (R333). -/
def execBankCommandComplete (cmd : Nat) (s : State) : Out :=
  match s.bcmds.find? fun b => b.id == cmd with
  | none => .next s
  | some c =>
    if !c.todo.isEmpty || !s.lineFree (lineOf c.donePa) then .next s
    else if s.bankHolds c.donePa true then .next (s.demand c.donePa (cmd, 0) true)
    else
      let v := 1 + (if c.poisoned then 0x1_0000 else 0) + (if c.stopped then 0x100_0000 else 0)
      let new := BitVec.ofNat 32 (s.readPaNat c.donePa 4 + v)
      let t := s.writeTime c.donePa c.part (c.time + 1)
      let s : State :=
        if (s.die (homeDie c.donePa)).failed then s.imprecise .homelost c.part c.imgSlot c.ord c.donePa
        else
          let s : State := (s.writePa c.donePa (bytesLE 4 new.toNat)).stampLine c.donePa c.part t
          (if c.doneBank then s else s.noteDirty c.donePa 4 c.part).fireWatches (.mem c.donePa .coherent) 4
      let s : State :=
        match s.tomb c.part c.imgSlot with
        | some x => s.updLaunch x.launch fun l => { l with unitTime := max l.unitTime (max c.time t) }
        | none => s
      .next { (s.ackSide c.part c.imgSlot c.ord 1).served (cmd, 0) with bcmds := s.bcmds.filter fun b => b.id != cmd }

/-- A bank handed back to its memory controller (R244). -/
def State.handBack (s : State) (bank : Nat) : State :=
  { s with banks := tset s.banks bank { tget s.banks bank {} with compute := false, since := s.clk } }

/-- DEMAND_WAIT_TIMEOUT (R245): after 2 µs of compute while demand requests wait the unit hands its bank over; it takes it back when none
waits. -/
def execDemandWaitTimeout (bank : Nat) (s : State) : Out :=
  let m := tget s.banks bank {}
  if m.compute && !m.waits.isEmpty && decide (m.waitFrom + clksOfUs 2 ≤ s.clk) then .next (s.handBack bank) else .next s

/-- BANK_REFRESH (R245): refresh takes the bank at the unit's next element boundary. -/
def execBankRefresh (bank : Nat) (s : State) : Out :=
  if (tget s.banks bank {}).compute then .next (s.handBack bank) else .next s

end Sys2Proof.Machine
end

