-- ==== Sys2Proof/Machine/EvLaunch.lean ====
section
/-! DEFINITION. Meanings of the launch events (R316 to R335): records read and checked, gangs dealt, placed, stolen,
evicted and resumed, launches completed on their callboard rings. -/

namespace Sys2Proof.Machine

/-- The prompt book of a slot's 256 bytes (R318). -/
def bookOf (bs : List Byte) : Book :=
  let w0 := BitVec.ofNat 32 (fieldAt bs 0 4)
  { priority := bits w0 18 16, replay := bitOf w0 19, ufrac := bits w0 31 24,
    code := fieldAt bs 0x08 8, codeLen := fieldAt bs 0x10 4, nblock := fieldAt bs 0x14 4,
    threads := fieldAt bs 0x18 2, bpg := fieldAt bs 0x1A 1, regs := fieldAt bs 0x1B 1,
    scratch := fieldAt bs 0x1C 4, gran := fieldAt bs 0x20 2, queues := fieldAt bs 0x22 1 % 32,
    wintab := fieldAt bs 0x28 8, wincount := fieldAt bs 0x30 4 % 512, pltab := fieldAt bs 0x38 8,
    handler := BitVec.ofNat 32 (fieldAt bs 0x40 4), ring := fieldAt bs 0x44 4 % 64,
    launchId := BitVec.ofNat 64 (fieldAt bs 0x48 8), pred0 := BitVec.ofNat 64 (fieldAt bs 0x50 8),
    pred1 := BitVec.ofNat 64 (fieldAt bs 0x58 8), entry := BitVec.ofNat 32 (fieldAt bs 0x60 4) }

/-- Every unlisted field of a prompt book is zero (R318). -/
def bookZeros (bs : List Byte) : Bool :=
  let w0 := BitVec.ofNat 32 (fieldAt bs 0 4)
  bits w0 15 8 == 0 && bits w0 23 20 == 0 && fieldAt bs 4 4 == 0 && fieldAt bs 0x20 4 / 2 ^ 21 == 0
    && fieldAt bs 0x24 4 == 0 && fieldAt bs 0x30 4 / 512 == 0 && fieldAt bs 0x34 4 == 0
    && fieldAt bs 0x44 4 / 64 == 0 && (bs.drop 0x64).all (· == 0#8)

/-- The field and limit checks of R10, R318 and R319 that need no resources. -/
def Book.ok (b : Book) (maxpri : Nat) : Bool :=
  decide (b.priority ≤ maxpri) && decide (b.ufrac ≤ 128) && b.code % 256 == 0 && b.codeLen != 0 && b.codeLen % 4 == 0
    && decide (1 ≤ b.nblock) && decide (b.nblock ≤ 2 ^ 31) && decide (1 ≤ b.threads) && decide (b.threads ≤ 3072)
    && decide (1 ≤ b.bpg) && decide (b.bpg ≤ 8) && b.nblock % b.bpg == 0
    && b.regs % 2 == 0 && decide (2 ≤ b.regs) && decide (b.regs ≤ 128)
    && b.scratch % 256 == 0 && decide (b.scratch ≤ 262144) && decide (b.gran ≤ 320) && decide (b.queues ≤ 16)
    && b.wintab % 16 == 0 && decide (1 ≤ b.wincount) && decide (b.wincount ≤ 256)
    && (b.handler == Config.noJoin || (b.handler.toNat % 4 == 0 && decide (b.handler.toNat < b.codeLen)))
    && b.launchId != 0#64 && b.entry.toNat % 4 == 0 && decide (b.entry.toNat < b.codeLen) && decide (b.gangCores ≤ 8)

/-- Gangs of a launch. -/
def Book.gangs (b : Book) : Nat := if b.bpg = 0 then 0 else b.nblock / b.bpg

/-- The initial deal (R323): dispatchers in order of die, then cluster number, ceil(gangs / dispatchers) each. -/
def dealRanges (clusters : List Nat) (gangs : Nat) : List Range :=
  let each := if clusters.length = 0 then 0 else ceilDiv gangs clusters.length
  clusters.zipIdx.map fun (c, i) => { cluster := c, lo := min (i * each) gangs, hi := min ((i + 1) * each) gangs }

/-- Whether a book names a launch as a predecessor (R318). -/
def Book.names (b : Book) (id : BitVec 64) : Bool := id != 0#64 && (id == b.pred0 || id == b.pred1)

/-- Whether a launch id is one of a partition's arrived, incomplete launches (R320). -/
def State.idOpen (s : State) (part : Nat) (id : BitVec 64) : Bool :=
  s.launches.any fun l => l.part == part && !l.complete && !l.dup && l.book.launchId == id

/-- Whether a predecessor of a book is among the partition's incomplete launches (R320). -/
def State.predsOpen (s : State) (part : Nat) (b : Book) : Bool :=
  s.launches.any fun l => l.part == part && !l.complete && !l.dup && b.names l.book.launchId

/-- The completed predecessors that the unit still holds (R320): whether one has a status other than DONE, and their largest final pts. An
id that an incomplete launch has again names that one. -/
def State.predResult (s : State) (part : Nat) (b : Book) : Bool × Nat :=
  let ps := (s.part part).completed.filter fun e => b.names e.1 && !s.idOpen part e.1
  (ps.any fun e => e.2.1 != 0, ps.foldl (fun m e => max m e.2.2) 0)

/-- Whether a launch that waits for its predecessors is released (R320): one has failed, or all have completed. -/
def State.released (s : State) (l : Launch) : Bool :=
  l.waiting && ((s.predResult l.part l.book).1 || !s.predsOpen l.part l.book)

/-- A launch released from its predecessors (R320): it ends PREDFAIL, or its gangs are dealt (R323). -/
def State.startLaunch (s : State) (l : Launch) : State :=
  let r := s.predResult l.part l.book
  s.updLaunch l.id fun x =>
    if r.1 then { x with waiting := false, ending := true, status := 3 }
    else { x with waiting := false, predPts := r.2, lastPlaced := s.clk, dealtAt := s.clk,
                  ranges := dealRanges (s.partClusters l.part) l.book.gangs }

/-- The window descriptor a record's read fetches, or none: a read failed translation or returned poison (R319). -/
def State.firstWindow (s : State) (part : Nat) (bs? : Option (List Byte)) : Option (List Byte) :=
  bs?.bind fun bs => s.agentRead part (bookOf bs).wintab 16

/-- The launch of a record read at a slot's address (R317 to R319), with its status where a check fails. -/
def State.readLaunch (s : State) (base : Launch) (va maxpri : Nat) : Launch :=
  let part := base.part
  let bs? := s.agentRead part va 256
  let bs := bs?.getD []
  let book := bookOf bs
  if (s.agentRead part va 4).isSome ∧ fieldAt ((s.agentRead part va 4).getD []) 0 1 ≠ 1 then
    { base with book := { launchId := BitVec.ofNat 64 (fieldAt bs 0x48 8) }, ending := true, status := 1 }
  else
    match s.firstWindow part bs? with
    | none => { base with book := { launchId := book.launchId }, ending := true, status := 2 }
    | some wb =>
      let dup := s.idOpen part book.launchId
      let ringOk := decide (book.ring < 16) && (s.ringDesc part book.ring).valid
      let ok := bookZeros bs && book.ok maxpri && ringOk && !dup && s.fits part book
      if ok then { base with book := book, win0 := BitVec.ofNat 128 (ofBytesLE wb), waiting := true }
      else { base with book := { launchId := book.launchId, ring := if ringOk then book.ring else 0 },
                       ending := true, status := 1, dup := dup }

/-- Where a launch queue's slot waits to be read for its bank (R245). -/
def State.slotHeld (s : State) (part va : Nat) : Option Nat :=
  ((s.agentXlate part va).map (·.1)).filter fun pa => s.bankHolds pa false

/-- LAUNCH_WATCH_FIRE (R317 to R321): the launch unit takes the next index of a queue, reads and checks its record. A slot below the tail
that cannot be read is taken too, with BADBOOK (R319). -/
def execLaunchWatchFire (part queue : Nat) (s : State) : Out :=
  let p := s.part part
  let d := s.queueDesc part queue
  let qs := tget p.queues queue {}
  let va := d.base + 256 * (qs.next.toNat % d.n)
  if p.torn = true ∨ d.serves = false ∨ (s.die d.die).failed = true then .next s
  else
    match s.agentRead part d.tailVa 4 with
    | none => .next s
    | some tb =>
      let empty : Bool := match s.agentRead part va 4 with | some fb => fieldAt fb 0 1 == 0 | none => false
      if fieldAt tb 0 4 = qs.next.toNat ∨ empty = true then .next s
      else if (s.slotHeld part va).isSome then .next (s.demand ((s.slotHeld part va).getD 0) (0, 2 * lineOf ((s.slotHeld part va).getD 0) + 1) false)
      else
        let s : State := match s.agentXlate part va with | some (pa, _) => s.served (0, 2 * lineOf pa + 1) | none => s
        let k := s.takeKey
        let s : State := k.2
        let s : State := s.updPart part fun p => { p with queues := tset p.queues queue { qs with next := qs.next + 1#32 } }
        let base : Launch := { id := k.1, part := part, queue := queue, index := qs.next, system := d.level }
        let l := s.readLaunch base va d.maxpri
        let x := s.agentMark part 0 d.tailVa 4
        let x := x.2.agentMark part x.1 va 256
        let x := if l.waiting then x.2.agentMark part x.1 l.book.wintab 16 else x
        let l : Launch := { l with tl := x.1 }
        let s : State := { x.2 with launches := x.2.launches ++ [l] }
        if s.released l then .next (s.startLaunch l) else .next s

/-- PREDECESSOR_RELEASE (R320): a predecessor has failed, or all have completed. -/
def execPredecessorRelease (launch : Nat) (s : State) : Out :=
  match s.launch launch with
  | some l => if s.released l then .next (s.startLaunch l) else .next s
  | none => .next s

/-- Gangs of a core but for some, their groups, and their use of scratchpad, granules and queues (R324). -/
def State.coreGangs (s : State) (but : List Nat) (core : Nat) : List Gang :=
  s.gangs.filter fun g => g.cores.contains core && (g.place == .placed || g.place == .evicting) && !but.contains g.id
def State.coreUse (s : State) (but : List Nat) (core : Nat) (f : Book → Nat) : Nat :=
  ((s.coreGangs but core).map fun g => ((s.launch g.launch).map (fun l => f l.book)).getD 0).sum
/-- Granules or queues in use on a core: those of a block are free once its last group there has ended (R224). -/
def State.engineUse (s : State) (but : List Nat) (core : Nat) (f : Book → Nat) : Nat :=
  let live (g : Gang) : Bool := s.groups.any fun x => x.gang == g.id && x.core == core && x.place != .ended
  (((s.coreGangs but core).filter live).map fun g => ((s.launch g.launch).map (fun l => f l.book)).getD 0).sum
def State.coreGroups (s : State) (but : List Nat) (core : Nat) : Nat :=
  (s.groups.filter fun g => g.core == core && s.onCore g && !but.contains g.gang).length

/-- Groups of a gang that go to its i-th core: each block fills its cores 32 groups at a time (R7; log 12). -/
def Book.groupsOn (b : Book) (i : Nat) : Nat :=
  let j := i % b.coresPerBlock
  min 32 (b.groups - 32 * j)

/-- Whether a gang of a book fits on k consecutive cores from a core of a cluster, once some gangs have left (R8, R324). -/
def State.roomBut (s : State) (but : List Nat) (cluster : Nat) (b : Book) (core : Nat) : Bool :=
  let k := b.gangCores
  clusterOfCore core == cluster && decide (core % 8 + k ≤ 8) && !(s.die (dieOfCluster cluster)).failed
    && (List.range k).all fun i =>
      let c := core + i
      !s.quarantined c && decide (s.coreGroups but c + b.groupsOn i ≤ 64)
        && decide (s.coreUse but c (·.scratch) + b.scratch ≤ 262144) && decide (s.engineUse but c (·.gran) + b.gran ≤ 320)
        && decide (s.engineUse but c (·.queues) + b.queues ≤ 16)

/-- Whether it fits there now. -/
def State.roomAt (s : State) (cluster : Nat) (b : Book) (core : Nat) : Bool := s.roomBut [] cluster b core

/-- Whether it fits somewhere in a cluster, once some gangs have left. -/
def State.fitsBut (s : State) (but : List Nat) (cluster : Nat) (b : Book) : Bool :=
  (List.range 8).any fun o => s.roomBut but cluster b (8 * cluster + o)

/-- Whether a group's image is still held (R96, R324): the group has not ended, or a result of it has not landed, or a scene of it
is still to perform. -/
def State.imageHeld (s : State) (g : Grp) : Bool :=
  g.place != .ended || (s.reqs.any fun r => r.uid == g.uid || r.twin.any fun t => t.1 == g.uid)
    || (s.status.any fun p => p.uid == g.uid) || (s.stowed.any fun i => i.g.uid == g.uid)
    || s.engs.any fun e => e.queues.any fun q => q.2.pops.any fun p => p.uid == g.uid

/-- The group-image slots of a partition in use, by a group or an outstanding tombstone (R324, R353). -/
def State.usedSlots (s : State) (part : Nat) : List Nat :=
  (s.groups.filter fun g => g.part == part && s.imageHeld g).map (·.imgSlot)
    ++ (s.tombs.filter fun t => t.part == part && t.outstanding != 0).map (·.imgSlot)

/-- The gang images of a partition in use: byte offset and size (R324). -/
def State.gangImages (s : State) (part : Nat) : List (Nat × Nat) :=
  (s.gangs.filter fun g => g.part == part && g.place != .ended).map fun g =>
    (g.imgSlot, ((s.launch g.launch).map fun l => l.book.gangImageSize).getD 0)

/-- The length of a partition's context region in bytes (R330). -/
def State.ctxBytes (s : State) (part : Nat) : Nat := bits (s.part part).ctxlen 15 0 * 1048576

/-- Whether two ranges of bytes meet. -/
def meets (a b : Nat × Nat) : Bool := decide (a.1 < b.1 + b.2) && decide (b.1 < a.1 + a.2)

/-- The lowest n group-image slots that are free beside some gang images (R324). -/
def State.freeSlots (s : State) (part n : Nat) (gangs : List (Nat × Nat)) : List Nat :=
  let used := s.usedSlots part
  let bound := used.length + n + (gangs.map fun x => x.2 / 32768).sum
  let free (k : Nat) : Bool := !used.contains k && !gangs.any (meets (32768 * k, 32768))
  ((List.range bound).filter free).take n

/-- The highest multiple of 64 KiB below n of them that suits. -/
def topDown (suits : Nat → Bool) : Nat → Option Nat
  | 0 => none
  | n + 1 => if suits (65536 * n) then some (65536 * n) else topDown suits n

/-- Places of k further gang images of a book (R324): the highest in the context region that no image in use meets (DESIGN CHOICE, log
74). -/
def State.newGangImages (s : State) (part : Nat) (b : Book) : Nat → Option (List (Nat × Nat))
  | 0 => some []
  | k + 1 =>
    match s.newGangImages part b k with
    | none => none
    | some l =>
      let len := s.ctxBytes part
      let used := l ++ s.gangImages part ++ (s.usedSlots part).map fun k => (32768 * k, 32768)
      let suits (o : Nat) : Bool := decide (o + b.gangImageSize ≤ len) && !used.any (meets (o, b.gangImageSize))
      (topDown suits (len / 65536)).map fun o => l ++ [(o, b.gangImageSize)]

/-- The images of k copies of a gang of a book, all within the partition's context region (R324, R330): byte offsets of the gang images and
the group-image slots; none when they do not fit. -/
def State.newImages (s : State) (part : Nat) (b : Book) (k : Nat) : Option (List Nat × List Nat) :=
  match s.newGangImages part b k with
  | none => none
  | some l =>
    let slots := s.freeSlots part (k * (b.bpg * b.groups)) (l ++ s.gangImages part)
    match slots.getLast? with
    | some top => if (top + 1) * 32768 ≤ s.ctxBytes part then some (l.map (·.1), slots) else none
    | none => some (l.map (·.1), slots)

/-- The started lanes of group g of a block (R11). -/
def startedMask (b : Book) (g : Nat) : Word :=
  if b.threads % 32 ≠ 0 ∧ g + 1 = b.groups then BitVec.ofNat 32 (2 ^ (b.threads % 32) - 1) else BitVec.allOnes 32

/-- A group at its start (R322). -/
def freshGroup (l : Launch) (gang gangNo block gi core coreIdx uid base img pts : Nat) (under : Bool) : Grp :=
  { uid := uid, gang := gang, launch := l.id, part := l.part, system := l.system, groupNo := gi, block := block,
    gangB := block % l.book.bpg, gangNo := gangNo, nGroup := l.book.groups, core := core, coreIdx := coreIdx, imgBase := base, imgSlot := img,
    place := .parked, book := l.book, started := startedMask l.book gi,
    slot0 := { mask := startedMask l.book gi, pc := l.book.entry, st := .ready },
    pts := pts, w := (Vector.replicate 8 0#128).setIfInBounds 0 l.win0, under := under }

/-- A gang of a launch placed on cores from a first core with its images' places (R322, R324): groups, engine state, tombstones. -/
def State.placeGang (s : State) (l : Launch) (gangNo attempts pts core : Nat) (under : Bool) (img : Nat) (imgs : List Nat) : Nat × State :=
  let b := l.book
  let key := s.fresh
  let n := b.bpg * b.groups
  let base := (s.core core).ctxbase.toNat * 65536
  let gs := (List.range n).map fun i =>
    let blk := i / b.groups
    let gi := i % b.groups
    let ci := blk * b.coresPerBlock + gi / 32
    freshGroup l key gangNo (gangNo * b.bpg + blk) gi (core + ci) ci (key + 1 + i) base (imgs.getD i 0) pts under
  let tombs := gs.map fun g =>
    { imgSlot := g.imgSlot, part := l.part, launch := l.id, launchId := b.launchId, block := g.block, groupNo := g.groupNo,
      va := g.imageVa + 0x7800 : Tombstone }
  let gang : Gang := { id := key, launch := l.id, part := l.part, gangNo := gangNo, priority := b.priority,
                       cores := (List.range b.gangCores).map (core + ·), placedAt := s.clk, waitSince := s.clk, imgBase := base, imgSlot := img,
                       under := under, attempts := attempts }
  let s : State := { s with
    fresh := s.fresh + 1 + n
    groups := s.groups ++ gs
    gangs := s.gangs ++ [gang]
    tombs := tombs ++ s.tombs.filter fun t => !(t.part == l.part && imgs.contains t.imgSlot)
    engs := s.engs ++ (List.range b.gangCores).map fun i => ({ gang := key, coreIdx := i } : EngBlock) }
  (key, gs.foldl (fun s g =>
    let s : State := s.useImage g.uid
    if s.residents g.core < 32 then s.makeResident g.uid
    else s.updCore g.core fun c => { c with readyParked := c.readyParked ++ [g.uid] }) s)

/-- The first window with room for a book's understudy on another cluster, another die's first (R358). -/
def State.underWindow (s : State) (part cluster : Nat) (b : Book) : Option Nat :=
  let cs := (s.partClusters part).filter (· != cluster)
  let far := cs.filter fun c => dieOfCluster c != dieOfCluster cluster
  let near := cs.filter fun c => dieOfCluster c == dieOfCluster cluster
  ((far ++ near).flatMap fun c => (List.range 8).map fun o => (c, 8 * c + o)).findSome? fun (c, core) =>
    if s.roomAt c b core then some core else none

/-- The gang a dispatcher takes next from a launch (R323, R356): a killed gang to relaunch, else its range's low end. -/
def Launch.nextGang (l : Launch) (cluster : Nat) : Option (Nat × Nat × Nat) :=
  match l.again with
  | a :: _ => some a
  | [] =>
    match l.ranges.find? (fun r => r.cluster == cluster && decide (r.lo < r.hi)) with
    | some r => some (r.lo, 0, max l.tl l.predPts + 1)
    | none => none

/-- The launch after a dispatcher placed a gang of it. -/
def Launch.placedAt (l : Launch) (cluster clk : Nat) : Launch :=
  { l with lastPlaced := clk, turns := tset l.turns cluster clk, owed := false, clearing := l.clearing.filter (· != cluster) }

/-- The launch with that gang taken. -/
def Launch.takeGang (l : Launch) (cluster clk : Nat) : Launch :=
  let l : Launch := l.placedAt cluster clk
  match l.again with
  | _ :: r => { l with again := r }
  | [] => { l with ranges := updFirst (fun r => r.cluster == cluster && decide (r.lo < r.hi)) (fun r => { r with lo := r.lo + 1 }) l.ranges }

/-- A list with one more entry, put before the first it may not follow. -/
def insertBy {α : Type} (before : α → α → Bool) (x : α) : List α → List α
  | [] => [x]
  | y :: r => if before x y then x :: y :: r else y :: insertBy before x r

/-- Whether a scene is stalled in "perform" on a full queue, sequencer, copy-engine queue or command path (R37, R328). -/
def State.fullStall (s : State) (i : Issue) : Bool :=
  let push (n : BitVec 4) : Bool := decide (64 ≤ (s.queue i.g.gang i.g.coreIdx n.toNat).entries.length)
  i.phase == .perform &&
    match i.ops.head? with
    | none => false
    | some o =>
      match o.ins with
      | .mov (.q n) _ => push n
      | .wload _ | .stage _ | .chain _ | .cmit _ | .cdisc _ | .wfree _ _ => decide (64 ≤ s.inSequencer i.g.core)
      | .cpy _ _ _ => decide (32 ≤ (s.copiesOn i.g.core).length)
      | .bexec _ | .rowop _ => s.bankPathFull i.g.core
      | .gbind _ | .gmark _ | .gprop _ | .gcoll _ | .gclr _ => s.wavePathFull i.g.core || s.ctrlFull i.g.part (waveOf i.g i o).graph
      | ins =>
        match (shape ins).d with
        | some { sel := .q n, .. } => push n
        | _ => false

/-- The victims of an eviction in a cluster (R328): lowest priority first and below the bound, most recently placed first;
gangs whose scene is stalled on something full come last. -/
def State.victims (s : State) (cluster below : Nat) : List Gang :=
  let stalled (g : Gang) : Bool := s.stowed.any fun i => i.g.gang == g.id && s.fullStall i
  let before (a b : Gang) : Bool :=
    if stalled a != stalled b then stalled b
    else decide (a.priority < b.priority) || (a.priority == b.priority && decide (b.placedAt ≤ a.placedAt))
  (s.gangs.filter fun g => g.place == .placed && decide (g.priority < below) && g.cores.any fun c => clusterOfCore c == cluster).foldl
    (fun l g => insertBy before g l) []

/-- The first victims without which a gang of a book fits, but for those it can spare (R328): none when all do not do. -/
def State.needed (s : State) (cluster : Nat) (b : Book) (vs : List Gang) : List Gang :=
  let fits (l : List Gang) : Bool := s.fitsBut (l.map (·.id)) cluster b
  match ((List.range (vs.length + 1)).map vs.take).find? fits with
  | none => []
  | some l => l.reverse.foldl (fun k v => if fits (k.filter (·.id != v.id)) then k.filter (·.id != v.id) else k) l

/-- The evictions of a dispatcher that finds no place (R328), when none is under way in its cluster. -/
def State.makeRoom (s : State) (cluster : Nat) (b : Book) (below : Nat) : State :=
  if s.gangs.any fun g => g.place == .evicting && g.cores.any fun c => clusterOfCore c == cluster then s
  else ((s.needed cluster b (s.victims cluster below)).map (·.id)).foldl State.askEvict s

/-- Whether every group of a gang waits so. -/
def State.gangWaits (s : State) (g : Gang) : Bool := ((s.gangGroups g.id).filter fun x => x.place != .ended).all Grp.allWait

/-- A parked gang that waits to be placed again: not one that waits while its launch owes a place to another (R330). -/
def State.wantsPlace (s : State) (g : Gang) : Bool :=
  g.place == .parked && !g.under && !(((s.launch g.launch).map (·.owed)).getD false && s.gangWaits g)

/-- The nearest victim of a steal (R323): clusters of its own die by distance, then the other dies in order from its
own; ties to the lower number. -/
def Launch.stealVictim (l : Launch) (cluster : Nat) : Option Range :=
  let key (r : Range) : Nat :=
    let d := dieOfCluster r.cluster
    let m := dieOfCluster cluster
    if d = m then (max r.cluster cluster - min r.cluster cluster) * 100 + r.cluster
    else 100000 + (d + 4 - m) % 4 * 1000 + r.cluster
  (l.ranges.filter fun r => r.cluster != cluster && decide (r.lo < r.hi)).foldl
    (fun b r => match b with
      | none => some r
      | some x => if key r < key x then some r else b) none

/-- The gangs a steal takes from a victim (R323): the upper half, rounded down, or the single one. -/
def Range.stolen (v : Range) : Nat := if v.hi - v.lo = 1 then 1 else (v.hi - v.lo) / 2

/-- The number of the gang of a launch that a dispatcher places next, one that it would steal first among them (R323). -/
def Launch.workAt (l : Launch) (cluster : Nat) : Option Nat :=
  ((l.nextGang cluster).map (·.1)).or ((l.stealVictim cluster).map fun v => v.hi - v.stolen)

/-- Whether a cluster is being cleared for a launch other than one (R325). -/
def State.clearedForOther (s : State) (part cluster launch : Nat) : Bool :=
  s.launches.any fun x => x.part == part && x.id != launch && !x.ending && x.clearing.contains cluster
    && ((x.workAt cluster).isSome || s.gangs.any fun g => g.launch == x.id && s.wantsPlace g)

/-- Whether a launch's work for a cluster, which its dispatcher has or can steal, or a parked gang, has a higher priority (R323). -/
def State.higherWaits (s : State) (part cluster priority : Nat) : Bool :=
  (s.launches.any fun x => x.part == part && !x.ending && decide (priority < x.book.priority) && (x.workAt cluster).isSome)
    || s.gangs.any fun g => g.part == part && decide (priority < g.priority) && s.wantsPlace g

/-- Whether work of an equal priority comes before a launch's next gang (R323): its own parked gangs, parked gangs and
launches earlier in turn that find room in the cluster. A place that a progress eviction owes is no such turn's (R330). -/
def State.equalWaits (s : State) (cluster : Nat) (l : Launch) : Bool :=
  !l.owed &&
  ((s.gangs.any fun g => g.part == l.part && g.priority == l.book.priority && s.wantsPlace g
      && (g.launch == l.id || ((s.launch g.launch).map fun x => s.fitsBut [] cluster x.book).getD false))
    || s.launches.any fun x => x.part == l.part && x.id != l.id && !x.ending && x.book.priority == l.book.priority
      && (x.workAt cluster).isSome && s.fitsBut [] cluster x.book
      && (decide (tget x.turns cluster 0 < tget l.turns cluster 0) || (tget x.turns cluster 0 == tget l.turns cluster 0 && decide (x.id < l.id))))

/-- Whether a parked gang of another launch of equal priority, which finds room in the cluster, comes before a launch's parked gang in turn
(R323). -/
def State.parkedTurn (s : State) (cluster : Nat) (l : Launch) : Bool :=
  s.gangs.any fun g => g.part == l.part && g.priority == l.book.priority && g.launch != l.id && s.wantsPlace g
    && ((s.launch g.launch).map fun x => s.fitsBut [] cluster x.book
      && (decide (tget x.turns cluster 0 < tget l.turns cluster 0)
        || (tget x.turns cluster 0 == tget l.turns cluster 0 && decide (x.id < l.id)))).getD false

/-- Whether another launch of the partition with work for the cluster, or a parked gang, comes before (R323); nothing does in a cluster
that was cleared for the launch (R325). -/
def State.outranked (s : State) (cluster : Nat) (l : Launch) : Bool :=
  !l.clearing.contains cluster && (s.higherWaits l.part cluster l.book.priority || s.equalWaits cluster l || s.clearedForOther l.part cluster l.id)

/-- The groups of the killed copies of a gang number of a launch (R355, R358). -/
def State.killedGroups (s : State) (launch gangNo : Nat) : List Grp :=
  s.groups.filter fun g => g.launch == launch && g.gangNo == gangNo && g.place == .ended

/-- Whether the killed groups of a gang have their final program times (R356): no access and no "perform" step of theirs is left. -/
def State.killSettled (s : State) (launch gangNo : Nat) : Bool :=
  (s.killedGroups launch gangNo).all fun g =>
    !(s.reqs.any fun r => (r.placeFor g.uid).isSome) && !(s.stowed.any fun i => i.g.uid == g.uid)
      && !(s.iss.live && s.iss.g.uid == g.uid)

/-- One more than the largest final pts of the killed groups (R356). -/
def State.replayPts (s : State) (launch gangNo : Nat) : Nat :=
  (s.killedGroups launch gangNo).foldl (fun m g => max m (g.pts + 1)) 0

/-- Whether a dispatcher may place gangs of a launch now (R323, R330, R376): no work comes before it. -/
def State.serves (s : State) (cluster : Nat) (l : Launch) : Bool :=
  let p := s.part l.part
  !l.ending && !l.waiting && !p.quiesce && !p.torn && (s.partClusters l.part).contains cluster && !s.outranked cluster l

/-- Whether the understudy of a gang placed in a cluster finds its place too, where the gang has one (R358). -/
def State.twinRoom (s : State) (cluster : Nat) (l : Launch) (under : Bool) : Bool :=
  !under || (s.underWindow l.part cluster l.book).isSome

/-- Whether a dispatcher has a place free for a gang number of a launch (R323, R324, R358): images, cores, and an understudy's where it
needs one. -/
def State.freePlace (s : State) (cluster : Nat) (l : Launch) (gangNo : Nat) : Bool :=
  let under := l.book.understudied gangNo
  (s.newImages l.part l.book (if under then 2 else 1)).isSome && s.fitsBut [] cluster l.book
    && s.twinRoom cluster l under

/-- GANG_PLACEMENT (R322, R324, R328): a dispatcher places the next gang of a launch on consecutive cores from a core
of its cluster; when no place of the cluster is free, it evicts the gangs of lower priority it needs. -/
def execGangPlacement (cluster launch core : Nat) (s : State) : Out :=
  match s.launch launch with
  | none => .next s
  | some l =>
    match l.nextGang cluster with
    | none => .next s
    | some (gangNo, attempts, pts) =>
      if s.serves cluster l = false ∨ (attempts ≠ 0 ∧ s.killSettled launch gangNo = false) then .next s
      else
        let under := l.book.understudied gangNo
        let pts := if attempts = 0 then pts else max pts (s.replayPts l.id gangNo)
        match s.newImages l.part l.book (if under then 2 else 1), s.roomAt cluster l.book core with
        | some (offs, slots), true =>
          if under then
            let n := l.book.bpg * l.book.groups
            match s.underWindow l.part cluster l.book with
            | none =>
              match ((s.partClusters l.part).filter (· != cluster)).find? fun c => !(s.needed c l.book (s.victims c l.book.priority)).isEmpty with
              | some c => .next (s.makeRoom c l.book l.book.priority)
              | none => .next s
            | some ucore =>
              let s : State := s.updLaunch launch fun x => x.takeGang cluster s.clk
              let a := s.placeGang l gangNo attempts pts core false (offs.getD 0 0) (slots.take n)
              let b := a.2.placeGang l gangNo attempts pts ucore true (offs.getD 1 0) (slots.drop n)
              let s : State := (b.2.updGang a.1 fun g => { g with twin := some b.1 }).updGang b.1 fun g => { g with twin := some a.1 }
              let d := b.1 - a.1
              let s : State := { s with groups := s.groups.map fun g =>
                if g.gang = a.1 then { g with twin := some (g.uid + d) }
                else if g.gang = b.1 then { g with twin := some (g.uid - d) } else g }
              .next s
          else
            let s : State := s.updLaunch launch fun x => x.takeGang cluster s.clk
            .next (s.placeGang l gangNo attempts pts core false (offs.getD 0 0) slots).2
        | _, _ => if s.fitsBut [] cluster l.book then .next s else .next (s.makeRoom cluster l.book l.book.priority)

/-- GANG_STEAL (R323): a dispatcher with a free place and an empty range takes the upper half of the nearest victim's unplaced gangs, in
its turn among the launches; its placement follows. -/
def execGangSteal (cluster launch victim : Nat) (s : State) : Out :=
  match s.launch launch with
  | none => .next s
  | some l =>
    match l.stealVictim cluster with
    | none => .next s
    | some v =>
      let empty := l.ranges.all fun r => r.cluster != cluster || decide (r.hi ≤ r.lo)
      let t := v.stolen
      if v.cluster = victim ∧ empty = true ∧ l.again.isEmpty = true ∧ s.serves cluster l = true ∧ s.freePlace cluster l (v.hi - t) = true then
        let cut (r : Range) : Range := if r = v then { r with hi := r.hi - t } else r
        let mine : Range := { cluster := cluster, lo := v.hi - t, hi := v.hi }
        .next (s.updLaunch launch fun x =>
          { x with ranges := mine :: (x.ranges.map cut).filter fun r => r.cluster != cluster })
      else .next s

/-- CLUSTER_CLEAR (R325): after 50 microseconds without consecutive cores, the dispatcher evicts gangs of priority at or
below its own from the lowest-numbered window that holds none higher. The wait counts from the launch's last placement on the cluster, or from
its deal, and nothing is cleared while work of a higher priority waits there (R323). -/
def execClusterClear (cluster launch core : Nat) (s : State) : Out :=
  match s.launch launch with
  | none => .next s
  | some l =>
    let k := l.book.gangCores
    let window (c : Nat) : List Nat := (List.range k).map (c + ·)
    let clean (c : Nat) : Bool :=
      !(s.gangs.any fun g => g.place == .placed && decide (l.book.priority < g.priority) && g.cores.any (window c).contains)
        && (window c).all fun x => !s.quarantined x
    match ((List.range (9 - k)).map (8 * cluster + ·)).find? clean with
    | some c =>
      let free := ((List.range 8).filter fun i => (s.coreGangs [] (8 * cluster + i)).isEmpty && !s.quarantined (8 * cluster + i)).length
      let work := (l.workAt cluster).isSome || s.gangs.any fun g => g.launch == launch && s.wantsPlace g
      if c = core ∧ l.ending = false ∧ work = true ∧ s.fitsBut [] cluster l.book = false ∧ k ≤ free
          ∧ tget l.turns cluster l.dealtAt + clksOfUs 50 ≤ s.clk ∧ l.clearing.contains cluster = false
          ∧ s.clearedForOther l.part cluster l.id = false ∧ s.higherWaits l.part cluster l.book.priority = false then
        let s : State := s.updLaunch launch fun x => { x with clearing := cluster :: x.clearing }
        .next (((s.gangs.filter fun g => g.place == .placed && g.cores.any (window c).contains).map (·.id)).foldl State.askEvict s)
      else .next s
    | none => .next s

/-- PROGRESS_EVICTION (R330): a launch with waiters and gangs that wait for a place, none placed for 50 microseconds, loses its
longest-waiting gang whose every group waits; the place goes to a gang that does not wait. -/
def execProgressEviction (launch : Nat) (s : State) : Out :=
  match s.launch launch with
  | none => .next s
  | some l =>
    let parked := s.gangs.filter fun g => g.launch == launch && g.place == .parked && !g.under && !s.gangWaits g
    let runnable := !parked.isEmpty
    let unplaced := !l.again.isEmpty || l.ranges.any (fun r => decide (r.lo < r.hi)) || runnable
    let fits := (s.partClusters l.part).any fun c =>
      s.fitsBut [] c l.book && ((l.workAt c).any (fun n => s.twinRoom c l (l.book.understudied n))
        || parked.any fun g => s.twinRoom c l g.twin.isSome)
    let moving := s.gangs.any fun g => g.launch == launch && g.place == .evicting
    let waits := s.gangs.filter fun g => g.launch == launch && g.place == .placed && s.gangWaits g
    let pick := waits.foldl (fun b g => match b with
      | none => some g
      | some x => if g.waitSince < x.waitSince then some g else b) none
    match pick with
    | some g =>
      if unplaced && !fits && !moving && decide (l.lastPlaced + clksOfUs 50 ≤ s.clk) then
        .next ((s.updLaunch launch fun x => { x with owed := true }).askEvict g.id)
      else .next s
    | none => .next s

/-- PREEMPTION_REQUEST (R27): a gang's groups stop at their next scene boundaries, and it leaves its cores. -/
def execPreemptionRequest (gang : Nat) (s : State) : Out := .next (s.askEvict gang)

/-- An evicted group on its new core, as its image holds it (R28), in the register cache there; one that a trap parked stays so. -/
def State.reload (s : State) (g : Grp) (core : Nat) : State :=
  if g.place = .trapParked then s.updGrp g.uid fun x => { x with core := core }
  else
    let h := s.readImage g core
    let again := s.rewatch { h with core := core }
    let s : State := s.updGrp g.uid fun _ =>
      { h with core := core, place := .parked, cached := true, slot0 := again h.slot0, slot1 := again h.slot1, stack := h.stack.map again }
    s.useImage g.uid

/-- GROUP_RESUME (R28, R141, R204): a parked gang and its twin resume on consecutive cores from a core; each group is
exactly as it stood; engine state is empty and its bindings stay lost (R223). -/
def State.resumeGang (s : State) (k core : Nat) : State :=
  match s.gang k with
  | none => s
  | some gang =>
    match s.launch gang.launch with
    | none => s
    | some l =>
      let n := l.book.gangCores
      let s : State := s.updLaunch l.id fun x => x.placedAt (clusterOfCore core) s.clk
      let s : State := s.updGang k fun g => { g with place := .placed, cores := (List.range n).map (core + ·), placedAt := s.clk }
      let s : State := (List.range n).foldl (fun s i => s.setEng { gang := k, coreIdx := i }) s
      let s : State := s.readGangImage gang core
      let gs := (s.gangGroups k).filter fun g => g.place != .ended
      let ready := gs.filter fun g => g.place != .trapParked && !g.allWait
      let waits := gs.filter fun g => g.place != .trapParked && g.allWait
      let s : State := gs.foldl (fun s g => s.reload g (core + g.coreIdx)) s
      let s : State := ready.foldl (fun s g =>
        let c := core + g.coreIdx
        if s.residents c < 32 then s.makeResident g.uid
        else s.updCore c fun x => { x with readyParked := x.readyParked ++ [g.uid] }) s
      waits.foldl (fun s g => if s.residents (core + g.coreIdx) < 32 then s.makeResident g.uid else s) s

/-- GROUP_RESUME (R28, R323, R324, R328): a parked gang is placed again on cores from a given one; when the partition has no
place free, the dispatcher there evicts the gangs of lower priority it needs. -/
def execGroupResume (gang core : Nat) (s : State) : Out :=
  match s.gang gang with
  | none => .next s
  | some g =>
    match s.launch g.launch with
    | none => .next s
    | some l =>
      let p := s.part g.part
      let cl := clusterOfCore core
      let turn := l.clearing.contains cl
        || (!s.higherWaits g.part cl g.priority && !s.clearedForOther g.part cl l.id && !s.parkedTurn cl l)
      if s.wantsPlace g ∧ (p.quiesce = false ∨ p.torn = true) ∧ (s.partClusters g.part).contains cl = true ∧ turn = true then
        if s.roomAt cl l.book core then
          match g.twin with
          | none => .next (s.resumeGang gang core)
          | some t =>
            match s.underWindow g.part cl l.book with
            | some u => .next ((s.resumeGang gang core).resumeGang t u)
            | none => .next s
        else if ((s.partClusters g.part).any fun c => s.fitsBut [] c l.book) then .next s
        else .next (s.makeRoom cl l.book g.priority)
      else .next s

/-- PARKED_GROUP_READY (R327): the first ready parked group of a core becomes issue-resident at the next free place. -/
def execParkedGroupReady (u : Nat) (s : State) : Out :=
  match s.grp u with
  | none => .next s
  | some g =>
    if g.place = .parked ∧ (s.core g.core).readyParked.head? = some u ∧ s.residents g.core < 32 then
      .next ((s.updCore g.core fun x => { x with readyParked := x.readyParked.filter (· != u) }).makeResident u)
    else .next s

/-- PTS_SELF_INCREMENT (R186): pts rises by 1 for each 256 clocks of residence. -/
def execPtsSelfIncrement (u : Nat) (s : State) : Out :=
  match s.grp u with
  | none => .next s
  | some g =>
    if g.place = .resident ∧ g.ptsSince + 256 ≤ s.clk then
      .next (s.updGrp u fun x => { x.raise (x.pts + 1) with ptsSince := x.ptsSince + 256 })
    else .next s

/-- Whether everything a launch issued has been performed (R333). -/
def State.launchQuiet (s : State) (l : Nat) : Bool :=
  let mine (u : Nat) : Bool := s.groups.any fun g => g.uid == u && g.launch == l
  !(s.reqs.any fun r => mine r.uid) && !(s.cpys.any fun c => mine c.uid) && !(s.bcmds.any fun b => mine b.uid)
    && !(s.waves.any fun w => w.launch == l && w.st != .ended)
    && !(s.ecmds.any fun c => mine c.uid && (c.st == .waiting || c.st == .running || c.st == .held))
    && !(s.stowed.any fun i => mine i.g.uid) && !(s.status.any fun p => mine p.uid)

/-- Whether a launch has run to its end (R333): every gang ended, or it is ending and none of its gangs is left. -/
def State.launchOver (s : State) (l : Launch) : Bool :=
  !(s.gangs.any fun g => g.launch == l.id && g.place != .ended)
    && (l.ending || (!l.waiting && l.again.isEmpty && l.ranges.all (fun r => decide (r.hi ≤ r.lo))))

/-- The largest final program time of a launch's groups (R181, R320). -/
def State.finalPts (s : State) (l : Launch) : Nat :=
  (s.groups.filter fun g => g.launch == l.id).foldl (fun m g => max m g.pts) l.finalPts

/-- The largest time of what a launch has written (R188, R333): by its groups, their copies, its bank commands, its waves. -/
def State.launchTime (s : State) (l : Launch) : Nat :=
  let mine := s.groups.filter fun g => g.launch == l.id
  l.tags.foldl (fun m t => max m t.2.time) (mine.foldl (fun m g => max m g.cpyTime) (max (s.finalPts l) l.unitTime))

/-- The words of a completion record (R333). -/
def State.recordWords (s : State) (l : Launch) (j n : Nat) : List Word :=
  [l.book.launchId.extractLsb' 0 32, l.book.launchId.extractLsb' 32 32,
   BitVec.ofNat 32 (l.status + l.fclass * 256 + l.fcount * 65536), BitVec.ofNat 32 l.blocks,
   BitVec.ofNat 32 (nsOfClk s.clk), BitVec.ofNat 32 (nsOfClk s.clk / 2 ^ 32),
   BitVec.ofNat 32 (l.relaunched + l.mismatch * 65536), BitVec.ofNat 32 (if (j / n + 1) % 2 = 1 then 2 ^ 31 else 0)]

/-- The head moves past completed indices with none incomplete below (R317). -/
def advanceHead : Nat → QueueState → QueueState
  | 0, q => q
  | n + 1, q => if q.done.contains q.head then advanceHead n { q with head := q.head + 1#32, done := q.done.filter (· != q.head) } else q

/-- A launch completed (R317, R320, R333): FORMAT cleared, the head advanced, its result kept. -/
def State.finishLaunch (s : State) (l : Launch) (t : Nat) : State :=
  let d := s.queueDesc l.part l.queue
  let a : Nat × State :=
    match s.agentXlate l.part (d.base + 256 * (l.index.toNat % d.n)) with
    | some (pa, e) => s.agentStore l.part t pa [0#8] (e.cls == .bank)
    | none => (t, s)
  let final := s.finalPts l
  let s : State := a.2
  let q := tget (s.part l.part).queues l.queue {}
  let q := advanceHead (q.done.length + 1) { q with done := l.index :: q.done }
  let s : State := (s.agentWrite l.part a.1 d.headVa [q.head]).2
  let s : State := s.updPart l.part fun p =>
    { p with queues := tset p.queues l.queue q
             completed := if l.dup then p.completed
               else (l.book.launchId, l.status, final) :: p.completed.filter fun e => e.1 != l.book.launchId }
  s.updLaunch l.id fun x => { x with complete := true, held := false }

/-- A record bound for an invalid ring 0 counted as lost (R335). -/
def State.countLost (s : State) (part : Nat) : State :=
  s.updPart part fun p => { p with cblost := if p.cblost = BitVec.allOnes 32 then p.cblost else p.cblost + 1#32 }

/-- Whether a callboard ring is full (R334). -/
def State.ringFull (s : State) (part ring : Nat) : Bool :=
  let d := s.ringDesc part ring
  let head := BitVec.ofNat 32 (fieldAt ((s.agentRead part d.headVa 4).getD []) 0 4)
  decide (2 ^ d.log2n ≤ (BitVec.ofNat 32 (tget (s.part part).rings ring {}).count - head).toNat)

/-- A launch's completion record written to its ring, with the interrupt it sets off (R333, R334), and the time of its writes. -/
def State.writeRecord (s : State) (l : Launch) : Nat × State :=
  let d := s.ringDesc l.part l.book.ring
  let n := 2 ^ d.log2n
  let r := tget (s.part l.part).rings l.book.ring {}
  let m := s.agentMark l.part (s.launchTime l + 1) d.headVa 4
  let w := m.2.agentWrite l.part m.1 (d.base + 32 * (r.count % n)) (s.recordWords l r.count n)
  let r' : RingState := { count := r.count + 1, unsignalled := r.unsignalled + 1,
                          oldest := if r.unsignalled = 0 then s.clk else r.oldest }
  let s : State := w.2.updPart l.part fun p => { p with rings := tset p.rings l.book.ring r' }
  (w.1, if d.cnt ≠ 0 ∧ d.cnt ≤ r'.unsignalled then s.ringInterrupt l.part l.book.ring else s)

/-- The completion record of a launch written, held on a full ring, or lost with an invalid ring 0 (R333 to R335). -/
def State.completeLaunch (s : State) (l : Launch) : State :=
  if (s.ringDesc l.part l.book.ring).valid = false then (s.countLost l.part).finishLaunch l (s.launchTime l + 1)
  else if s.ringFull l.part l.book.ring then s.updLaunch l.id fun x => { x with held := true }
  else (s.writeRecord l).2.finishLaunch l (s.writeRecord l).1

/-- Whether the launch unit's stores of a completion act at once (R154, R222): no store of the partition waits, and the record, the slot
and the head word lie in lines that no other agent owns or holds. -/
def State.recordFree (s : State) (l : Launch) : Bool :=
  let q := s.queueDesc l.part l.queue
  let d := s.ringDesc l.part l.book.ring
  !(s.stalls.any fun x => x.part == l.part) && s.agentFree l.part (q.base + 256 * (l.index.toNat % q.n)) && s.agentFree l.part q.headVa
    && s.agentFree l.part (d.base + 32 * ((tget (s.part l.part).rings l.book.ring {}).count % 2 ^ d.log2n))

/-- LAUNCH_COMPLETION (R333). -/
def execLaunchCompletion (launch : Nat) (s : State) : Out :=
  match s.launch launch with
  | some l =>
    if l.complete = false ∧ l.held = false ∧ s.launchOver l = true ∧ s.launchQuiet l.id = true ∧ s.recordFree l = true then
      .next (s.completeLaunch l)
    else .next s
  | none => .next s

/-- CALLBOARD_HOLD_RELEASE (R334): a held record is written once the consumer's head has advanced. -/
def execCallboardHoldRelease (launch : Nat) (s : State) : Out :=
  match s.launch launch with
  | some l => if l.held = true ∧ l.complete = false ∧ s.recordFree l = true then .next (s.completeLaunch l) else .next s
  | none => .next s

/-- CALLBOARD_AGE_TRIGGER (R334): the ring interrupts when its oldest unsignalled record is AGE microseconds old. -/
def execCallboardAgeTrigger (part ring : Nat) (s : State) : Out :=
  let d := s.ringDesc part ring
  let r := tget (s.part part).rings ring {}
  if d.valid = true ∧ d.age ≠ 0 ∧ 0 < r.unsignalled ∧ r.oldest + clksOfUs d.age ≤ s.clk then .next (s.ringInterrupt part ring)
  else .next s

end Sys2Proof.Machine
end

