-- ==== Sys2Proof/Machine/EvSystem.lean ====
section
/-! DEFINITION. Meanings of the register and park events: control-core writes (R304 to R306, R331, R344, R345, R351,
R372 to R379, R392, R414) and margin events (R368 to R375). -/

namespace Sys2Proof.Machine

/-- The first core of a die, through which die registers are named. -/
def coreOfDie (d : Nat) : Nat := d * Config.coresPerDie

/-- PARTID_WRITE (R305). -/
def execPartidWrite (core : Nat) (value : Word) (s : State) : Out := .next (s.hartWriteReg core 0x002 value)
/-- PTROOT_WRITE (R305, R346). -/
def execPtrootWrite (core : Nat) (value : Word) (s : State) : Out := .next (s.hartWriteReg core 0x003 value)
/-- MARGIN_WRITE (R372, R373). -/
def execMarginWrite (core : Nat) (value : Word) (s : State) : Out := .next (s.hartWriteReg core 0x010 value)
/-- LTELIM_WRITE (R372, R375). -/
def execLtelimWrite (core : Nat) (value : Word) (s : State) : Out := .next (s.hartWriteReg core 0x012 value)
/-- LTEWIN_WRITE (R372, R375). -/
def execLtewinWrite (core : Nat) (value : Word) (s : State) : Out := .next (s.hartWriteReg core 0x013 value)
/-- QUAR_WRITE (R376, R377). -/
def execQuarWrite (core : Nat) (value : Word) (s : State) : Out := .next (s.hartWriteReg core 0x014 value)
/-- HEALTH_WRITE (R379). -/
def execHealthWrite (die : Nat) (value : Word) (s : State) : Out := .next (s.hartWriteReg (coreOfDie die) 0x030 value)
/-- GRAPHCTL_WRITE (R414). -/
def execGraphctlWrite (part r : Nat) (value : Word) (s : State) : Out := .next (s.writeGraphctl part r value)

/-- A COMBTEST store of a control core whose MODE is the given one (R392). -/
def State.combtestStore (s : State) (die mode : Nat) (value : Word) : State :=
  if bits value 1 0 = mode then s.hartWriteReg (coreOfDie die) 0x021 value else s

/-- COMBTEST_DISARM (R392). -/
def execCombtestDisarm (die : Nat) (value : Word) (s : State) : Out := .next (s.combtestStore die 0 value)
/-- COMBTEST_CORRUPT_COPY (R392). -/
def execCombtestCorruptCopy (die : Nat) (value : Word) (s : State) : Out := .next (s.combtestStore die 1 value)
/-- COMBTEST_LOSE_RECORD (R392). -/
def execCombtestLoseRecord (die : Nat) (value : Word) (s : State) : Out := .next (s.combtestStore die 2 value)
/-- COMBTEST_RESET_SWITCH (R392). -/
def execCombtestResetSwitch (die : Nat) (value : Word) (s : State) : Out := .next (s.combtestStore die 3 value)

/-- The image of a group whose gang is evicted written again after a change of the group (R27, R28). -/
def State.flushImage (s : State) (u : Nat) : State :=
  match s.grp u with
  | some g => if g.place = .evicted then s.saveImage u else s
  | none => s

/-- Whether a slot's fragment runs in the handler. -/
def State.handles (s : State) (u : Nat) (i : Bool) : Bool := (s.grp u).any fun g => (g.slot i).handler

/-- Whether the trapped fragment of a parked group stands on the split stack, where a divergent branch at the end of the other fragment's
scene has pushed it (R14, R308). -/
def Grp.trapDeep (g : Grp) : Bool := (g.slot g.trapSlot).hold != .trapPark && g.stack.any fun y => y.hold == .trapPark

/-- A trapped fragment on the stack changed. -/
def Grp.updDeep (g : Grp) (f : Slot → Slot) : Grp :=
  { g with stack := g.stack.map fun y => if y.hold == .trapPark then f y else y }

/-- The trap of a group's TRAPINFO and TRAPPC, taken from the handler step of R308 on; a fragment on the stack takes it when it is back in a
slot. -/
def State.deliverTrap (s : State) (u : Nat) : State :=
  match s.grp u with
  | none => s
  | some g =>
    if g.trapDeep && g.book.handler != Config.noJoin then
      s.updGrp u fun x => x.updDeep fun y => { y with pc := x.trapPc, hold := .handlerPend x.trapInfo }
    else s.handlerStep u g.trapSlot (bits g.trapInfo 31 26) g.trapInfo g.trapPc

/-- PARK with retry (R331): the parked group resumes its fragment at TRAPPC, where a join stops it as at any boundary (R16). -/
def State.parkRetry (s : State) (part slot : Nat) : State :=
  match s.trapParked part slot with
  | none => s
  | some g =>
    let s : State := (s.unpark g.uid).updGrp g.uid fun x =>
      if x.trapDeep then x.updDeep fun y => { y with pc := x.trapPc, hold := .none }
      else (x.updSlot x.trapSlot fun y => { y with pc := x.trapPc, hold := .none }).boundary x.trapSlot
    (s.releaseHeld g.uid (!g.trapSlot)).flushImage g.uid

/-- PARK with deliver (R331): the trap continues from the handler step of R308. -/
def State.parkDeliver (s : State) (part slot : Nat) : State :=
  match s.trapParked part slot with
  | none => s
  | some g =>
    let s : State := (s.unpark g.uid).deliverTrap g.uid
    (if s.handles g.uid g.trapSlot then s else s.releaseHeld g.uid (!g.trapSlot)).flushImage g.uid

/-- PARK with kill gang (R331, R355): every block of the gang ends; the launch ends KILLED once its other gangs end. -/
def State.parkKill (s : State) (part slot : Nat) : State :=
  match s.trapParked part slot with
  | none => s
  | some g => (s.updLaunch g.launch fun l => if l.status = 0 then { l with status := 7 } else l).killGang g.gang

/-- REBASE (R332) acts once the partition is quiesced. -/
def State.askRebase (s : State) (part : Nat) : State := if s.quiesced part then s.doRebase part else s

/-- CLEAR (R351): TDONE is cleared; the partition's queues are served again. -/
def State.clearTeardown (s : State) (part : Nat) : State :=
  let done := s.tdone part
  s.updPart part fun p => { p with torn := false, tdown := p.tdown && !done }

/-- A launch-unit register of a partition written (R304, R330, R331, R332, R344, R351, R414); an illegal value is dropped. -/
def State.writeUnit (s : State) (part off : Nat) (x : Word) : State :=
  match off with
  | 0x14 =>
    match bits x 31 30 with
    | 1 => s.parkRetry part (bits x 23 0)
    | 2 => s.parkDeliver part (bits x 23 0)
    | 3 => s.parkKill part (bits x 23 0)
    | _ => s
  | 0x18 =>
    if bits x 31 2 = 0 then
      let s : State := if bitOf x 0 then (if (s.part part).quiesce then s else s.doQuiesce part) else s.updPart part fun p => { p with quiesce := false }
      if bitOf x 1 then s.askRebase part else s
    else s
  | 0x2C => if bitOf x 31 then s.doShootdown part x else s.updPart part fun p => p.writePlain off x
  | 0x48 =>
    if bits x 31 3 = 0 then
      let s : State := if bitOf x 0 then s.teardownPart part else s
      if bitOf x 2 then s.clearTeardown part else s
    else s
  | 0x6C | 0x70 | 0x74 | 0x78 => s.writeGraphctl part ((off - 0x6C) / 4) x
  | _ => s.updPart part fun p => p.writePlain off x

/-- REGISTER_WRITE (R304, R306): a control-core store to a register. -/
def execRegisterWrite (reg : RegAddr) (value : Word) (s : State) : Out :=
  match reg with
  | .core c n => .next (s.hartWriteReg c n value)
  | .die d n => .next (s.hartWriteReg (coreOfDie d) n value)
  | .unit p off => .next (s.writeUnit p off value)

/-- What a byte offset of a die's system register block names (R303, R330, R378, R407). -/
inductive BlockSpot where
  | dieReg (n : Nat)
  | coreReg (core n : Nat)
  | unitReg (part off : Nat)
  | marginLog (k : Nat)
  | logCount
  | capability (off : Nat)
  | none
  deriving DecidableEq, Repr

/-- The registers that R303 gives the scope die. -/
def dieScoped (n : Nat) : Bool := [0x000, 0x001, 0x020, 0x021, 0x022, 0x028, 0x030].contains n
/-- The registers that R303 gives the scope core. -/
def coreScoped (n : Nat) : Bool := [0x002, 0x003, 0x004, 0x005, 0x010, 0x011, 0x012, 0x013, 0x014, 0x018].contains n

/-- The layout of a die's block: die registers at 4n, core c's at 0x1000 × (c + 1) + 4n (R303), the margin log and its count (R378), the
launch-unit registers (R330), the capability records from CAPPTR on (R407). -/
def blockSpot (die off : Nat) : BlockSpot :=
  if off % 4 ≠ 0 then .none
  else if off < 0x1000 then
    if dieScoped (off / 4) then .dieReg (off / 4) else if 0x400 ≤ off ∧ off < 0x460 then .capability off else .none
  else if off < 0x1000 * (Config.coresPerDie + 1) then
    if coreScoped (off % 0x1000 / 4) then .coreReg (die * Config.coresPerDie + (off / 0x1000 - 1)) (off % 0x1000 / 4) else .none
  else if 0x0E_0000 ≤ off ∧ off < 0x0E_0200 then .marginLog ((off - 0x0E_0000) / 4)
  else if off = 0x0E_0200 then .logCount
  else if 0x10_0000 ≤ off ∧ off < 0x10_0800 ∧ (off - 0x10_0000) % 0x100 ≤ 0x78 then .unitReg ((off - 0x10_0000) / 0x100) ((off - 0x10_0000) % 0x100)
  else .none

/-- The die and the offset of a system register block at a physical address (R303). -/
def blockAddr (pa : Nat) : Option (Nat × Nat) :=
  if Config.sysBase ≤ pa ∧ pa < Config.sysBase + 4 * 0x100_0000 then
    some ((pa - Config.sysBase) / 0x100_0000, (pa - Config.sysBase) % 0x100_0000)
  else none

/-- The capability records of a die in their order (R407): kind, and the two words of the body. The first stands where CAPPTR points; that
the others follow it at once with 8 bytes of body each, and how these hold what the table lists, is DESIGN CHOICE (log 76). -/
def capabilities (r : ConfigRecord) (die : Nat) : List (Nat × Nat × Nat) :=
  let block := Config.sysBase + die * 0x100_0000
  let split : Nat := match r.lanes with | .x16 => 0 | .x8 => 1 | .x4 => 2
  [(0x0001, block % 2 ^ 32, block / 2 ^ 32), (0x0002, 0x10_0000, 0), (0x0003, 0x0E_0000, 0), (0x0010, 4, 16384),
   (0x0011, (if r.endpoint then 1 else 0), split), (0x0012, r.i3c.toNat, 0)]

/-- A word of a die's capability records (R407): a header of 8 bytes with the kind, version 1, length 16 and the next record's offset, 0
after the last; then the body. -/
def capabilityWord (r : ConfigRecord) (die off : Nat) : Word :=
  let n := (off - 0x400) / 16
  match (capabilities r die)[n]? with
  | none => 0#32
  | some c =>
    match off % 16 / 4 with
    | 0 => BitVec.ofNat 32 (c.1 + 0x1_0000)
    | 1 => BitVec.ofNat 32 (16 + (if n < 5 then 0x410 + 16 * n else 0) * 0x1_0000)
    | 2 => BitVec.ofNat 32 c.2.1
    | _ => BitVec.ofNat 32 c.2.2

/-- A control core's aligned 32-bit load of its die's block (R303): none where no rule puts anything. -/
def State.blockLoad (s : State) (die off : Nat) : Option Word :=
  match blockSpot die off with
  | .dieReg n => s.readReg (coreOfDie die) n
  | .coreReg c n => s.readReg c n
  | .unitReg p o => some (s.readUnit p o)
  | .marginLog k =>
    let e := tget (s.die die).log (k / 2) 0#64
    some (if k % 2 = 0 then e.extractLsb' 0 32 else e.extractLsb' 32 32)
  | .logCount => some (s.die die).logCount
  | .capability o => some (capabilityWord s.conf die o)
  | .none => none

/-- A control core's aligned 32-bit store to its die's block (R303, R304): what is read-only keeps its value. -/
def State.blockStore (s : State) (die off : Nat) (x : Word) : Option State :=
  match blockSpot die off with
  | .dieReg n => some (s.hartWriteReg (coreOfDie die) n x)
  | .coreReg c n => some (s.hartWriteReg c n x)
  | .unitReg p o => some (s.writeUnit p o x)
  | .marginLog _ | .logCount | .capability _ => some s
  | .none => none

/-- PARK_RETRY (R331). -/
def execParkRetry (part slot : Nat) (s : State) : Out := .next (s.parkRetry part slot)
/-- PARK_DELIVER (R331). -/
def execParkDeliver (part slot : Nat) (s : State) : Out := .next (s.parkDeliver part slot)
/-- PARK_KILL_GANG (R331, R355). -/
def execParkKillGang (part slot : Nat) (s : State) : Out := .next (s.parkKill part slot)
/-- QUIESCE (R330). -/
def execQuiesce (part : Nat) (s : State) : Out := .next (s.doQuiesce part)
/-- REBASE (R332). -/
def execRebase (part : Nat) (s : State) : Out := .next (s.askRebase part)
/-- TEARDOWN (R351, R364). -/
def execTeardown (part : Nat) (s : State) : Out := .next (s.teardownPart part)
/-- TEARDOWN_CLEAR (R351). -/
def execTeardownClear (part : Nat) (s : State) : Out := .next (s.clearTeardown part)
/-- SHOOTDOWN_GO (R344, R345). -/
def execShootdownGo (part : Nat) (value : Word) (s : State) : Out := .next (s.doShootdown part value)
/-- SHOOTDOWN_DONE (R345): BUSY clears once everything has settled; read-shared copies that accesses in flight have filled since go too. -/
def execShootdownDone (part : Nat) (s : State) : Out :=
  if s.shootdownSettled part then .next ((s.dropShared part).updPart part fun p => { p with sd := {} }) else .next s

/-- LATE_TRANSITION_EVENT (R368, R369, R374): the word is replayed with the same result; the event is counted. -/
def execLateTransitionEvent (core : Nat) (s : State) : Out := .next (s.countLte core)
/-- ENGINE_BITSTEP_REPLAY (R370, R374): the bit-step is run again with the same result; the event is counted. -/
def execEngineBitstepReplay (core : Nat) (s : State) : Out := .next (s.countLte core)
/-- LTE_WINDOW_EXPIRY (R374): the window of WINDOW microseconds ends and the next begins then. -/
def execLteWindowExpiry (core : Nat) (s : State) : Out :=
  let c := s.core core
  let stop := c.winStart + clksOfUs (bits c.ltewin 19 0)
  if stop ≤ s.clk then .next (s.updCore core fun c => c.newWindow stop) else .next s

/-- SLICE_ERROR_THRESHOLD (R379): one uncorrectable error of a slice; with more than 16 within one hour the slice
counts in RSLICES and is listed in the repair map of the flash's record, which retires it at the next boot. -/
def execSliceErrorThreshold (die slice : Nat) (s : State) : Out :=
  let d := s.die die
  let hour := 3600 * 1900000000
  let errs := s.clk :: (tget d.sliceErrs slice []).filter fun t => decide (s.clk < t + hour)
  let s : State := s.updDie die fun x => { x with sliceErrs := tset x.sliceErrs slice errs }
  if 16 < errs.length ∧ d.retiring.contains slice = false then
    let s : State := s.updDie die fun x => { x with retiring := slice :: x.retiring }
    let r := s.flash.record
    let s : State := { s with flash := { s.flash with record := { r with retired := (r.retired ++ [(die, slice)]).eraseDups } } }
    .next ((s.healthEvent die fun h => setField h 12 8 (min (bits h 12 8 + 1) 31)).alarm s none)
  else .next s

/-- THERMAL_GATE (R408): issue on the die is gated, and the event is reported. -/
def execThermalGate (die : Nat) (s : State) : Out :=
  .next ((s.updDie die fun x => { x with gated := true }).send (.thermal die 0))
/-- THERMAL_UNGATE (R408). -/
def execThermalUngate (die : Nat) (s : State) : Out := .next (s.updDie die fun x => { x with gated := false })

end Sys2Proof.Machine
end

