-- ==== Sys2Proof/Machine/EvPorts.lean ====
section
/-! DEFINITION. Ports, management and boot (R397 to R406), and the accesses of control-core harts (R188). -/

namespace Sys2Proof.Machine

/-- Whether a read, or a write, of bytes waits at their home (R154, R222) or for their bank (R245). -/
def State.readWaits (s : State) (pas : List Nat) : Bool := pas.any fun pa => s.owned (lineOf pa) || s.bankHolds pa false
def State.writeWaits (s : State) (pas : List Nat) : Bool := pas.any fun pa => !s.lineFree (lineOf pa) || s.bankHolds pa true

/-- An access from outside waits at a home or for a bank, on which it makes its demand (R154, R222, R245): the machine's own next move
comes first, then the access again. -/
def State.waitOutside (s : State) (m : Move) (reads writes : List Nat) : State :=
  let ask (w : Bool) (s : State) (pa : Nat) : State := if s.bankHolds pa w then s.demand pa (0, 2 * lineOf pa) w else s
  let s : State := writes.foldl (ask true) (reads.foldl (ask false) s)
  { s with agenda := .own :: m :: s.agenda }

/-- The demands of an access from outside end as it is served. -/
def State.servedOutside (s : State) : State :=
  { s with banks := s.banks.map fun b => (b.1, { b.2 with waits := b.2.waits.filter fun w => !(w.1 == 0 && w.2.1 % 2 == 0) }) }

/-- Bytes at physical addresses cut where a sector ends or the addresses do not follow on. -/
def sectorRuns : List (Nat × Byte) → List (Nat × List Byte)
  | [] => []
  | (a, b) :: r =>
    match sectorRuns r with
    | (c, bs) :: q => if a + 1 = c ∧ c % 32 ≠ 0 then (a, b :: bs) :: q else (a, [b]) :: (c, bs) :: q
    | [] => [(a, [b])]

/-- A queue-pair table entry (R398). -/
structure QueuePair where
  state : Nat
  pmtu : Nat
  rres : Nat
  epsn : Nat
  msn : Nat
  port : Nat
  pkey : Nat
  /-- what its responses carry (R398) -/
  head : PacketHead
  legal : Bool
  deriving DecidableEq, Repr

/-- The address of a queue pair's entry (R398, R399): none outside the table. -/
def State.queuePairAt (s : State) (part qpn : Nat) : Option Nat :=
  let p := s.part part
  let n := bits p.qpctl 4 0
  let a := p.qptablo.toNat + bits p.qptabhi 15 0 * 2 ^ 32 + 64 * qpn
  if 1 ≤ n ∧ n ≤ 14 ∧ qpn < 2 ^ n ∧ (s.paFault a 64).isNone then some a else none

/-- An entry of the queue-pair table as it stands (R398). -/
def State.queuePair (s : State) (a : Nat) : QueuePair :=
  let bs := s.readPa a 64
  let w0 := fieldAt bs 0 4
  let w38 := fieldAt bs 0x38 4
  let state := w0 % 16
  let pmtu := w0 / 16 % 16
  let rres := w0 / 256 % 256
  { state := state, pmtu := pmtu, rres := rres, epsn := fieldAt bs 8 3, msn := fieldAt bs 12 3, port := w38 % 4,
    pkey := fieldAt bs 0x3C 2,
    head := { port := w38 % 4, srcMac := s.conf.macs.getD (w38 % 4) 0#48, dmac := BitVec.ofNat 48 (fieldAt bs 0x30 6)
              sgid := BitVec.ofNat 128 (fieldAt bs 0x20 16), dgid := BitVec.ofNat 128 (fieldAt bs 0x10 16)
              udpSrc := BitVec.ofNat 16 (fieldAt bs 0x36 2), tclass := BitVec.ofNat 8 (fieldAt bs 0x39 1)
              hopLim := BitVec.ofNat 8 (fieldAt bs 0x3A 1), dqpn := BitVec.ofNat 24 (fieldAt bs 4 3) }
    legal := decide (state ≤ 4) && decide (1 ≤ pmtu) && decide (pmtu ≤ 5) && decide (1 ≤ rres) && w0 / 65536 == 0
      && fieldAt bs 7 1 == 0 && fieldAt bs 11 1 == 0 && fieldAt bs 15 1 == 0 && w38 / 4 % 64 == 0
      && w38 / 2 ^ 24 == 0 && fieldAt bs 0x3E 2 == 0 }

/-- What the receive engine makes of a packet before its keys are checked (R397, R398, check 1 of R400). -/
inductive PacketSeen where
  | drop
  | invalid (at_ : Nat)
  | wrongPsn (at_ : Nat)
  | again (at_ : Nat) (q : QueuePair)
  | expected (at_ : Nat) (q : QueuePair)
  deriving DecidableEq, Repr

/-- The receive engine's first look at a packet; before boot the package answers none (R405). -/
def State.seePacket (s : State) (p : NetPacket) : PacketSeen :=
  match s.queuePairAt p.part p.qpn with
  | none => .drop
  | some a =>
    if !s.booted then .drop else
    let q := s.queuePair a
    if !q.legal || (q.state != 2 && q.state != 3) || q.port != p.port then .drop
    else if p.op = .other ∨ p.reliable = false then .invalid a
    else
      let d := (p.psn - BitVec.ofNat 24 q.epsn).toNat
      if d = 0 then .expected a q else if 2 ^ 23 ≤ d then .again a q else .wrongPsn a

/-- A queue pair goes to the error state, and a NAK is sent (R397, R398, R400). -/
def State.nakPacket (s : State) (p : NetPacket) (a : Nat) (invalid : Bool) : State :=
  let w := s.readPaNat a 4
  (s.homeStores p.part 0 [(a, bytesLE 4 (w / 16 * 16 + 4))]).2.send (.nak (s.queuePair a).head p.part p.qpn p.psn invalid)

/-- A NAK once the queue pair's entry may be written (R154, R222). -/
def State.nak (s : State) (p : NetPacket) (a : Nat) (invalid : Bool) : Out :=
  if s.writeWaits [a] then .next (s.waitOutside (.packet p) [] [a]) else .next (s.servedOutside.nakPacket p a invalid)

/-- The words of a queue pair's entry that the receive engine writes as it serves a packet (R398). -/
def entryWords (a : Nat) : List Nat := [a + 8, a + 12]

/-- A packet is complete (R398, R401): EPSN moves on by the packets it answers for, MSN by the messages it ends; the queue pair's
accesses so far reach the times of these and of the packet's own. -/
def State.packetDone (s : State) (p : NetPacket) (a : Nat) (q : QueuePair) (psns msgs t : Nat) : State :=
  let x := s.homeStores p.part t [(a + 8, bytesLE 4 ((q.epsn + psns) % 2 ^ 24)), (a + 12, bytesLE 4 ((q.msn + msgs) % 2 ^ 24))]
  x.2.updPart p.part fun y => { y with qpTimes := tset y.qpTimes p.qpn (max (tget y.qpTimes p.qpn 0) x.1) }

/-- The rights a packet needs (R399, R400): the bit of RIGHTS. -/
def netRight : NetOp → Nat
  | .readRequest => 0 | .fetchAdd => 2 | _ => 1

/-- The bytes a packet reaches. -/
def netReach (p : NetPacket) : Nat :=
  match p.op with
  | .readRequest => p.len
  | .fetchAdd => 8
  | _ => p.data.length

/-- Checks 2 to 6 of R400: the physical addresses of the packet's bytes, none on a failure. A queue's tail word has 4 bytes (R316), and an
atomic reaches the 4 reserved for its carries too (R402). -/
def State.packetPas (s : State) (p : NetPacket) (q : QueuePair) : Option (List Nat) :=
  let x := s.part p.part
  let l2n := bits x.nkctl 4 0
  let a := x.nktablo.toNat + bits x.nktabhi 15 0 * 2 ^ 32 + 32 * (p.rkey.toNat % 2 ^ l2n)
  if l2n = 0 ∨ 16 < l2n ∨ (s.paFault a 32).isSome then none
  else
    let bs := s.readPa a 32
    let base := fieldAt bs 0 8
    let w := BitVec.ofNat 32 (fieldAt bs 0x10 4)
    let n := netReach p
    let covered := decide (base ≤ p.va) && decide (p.va + n ≤ base + fieldAt bs 8 6)
    let d := s.queueDesc p.part (bits w 10 5)
    let inQueue (b : Nat) : Bool :=
      (decide (d.base ≤ b) && decide (b < d.base + 256 * d.n)) || (decide (d.tailVa ≤ b) && decide (b < d.tailVa + if p.op = .fetchAdd then 8 else 4))
    let queueOk := !bitOf w 4 || (d.netok && d.pkey == p.pkey.toNat && (List.range n).all fun i => inQueue (p.va + i))
    if q.pkey ≠ p.pkey.toNat ∨ bits w 31 16 ≠ p.pkey.toNat then none
    else if bitOf w 0 = false ∨ fieldAt bs 0x14 4 ≠ p.rkey.toNat ∨ bitOf w (1 + netRight p.op) = false ∨ covered = false then none
    else if queueOk = false then none
    else if p.op = .fetchAdd ∧ p.va % 8 ≠ 0 then none
    else (List.range n).mapM fun i =>
      match s.agentXlate p.part (p.va + i) with
      | some (pa, e) => if !e.sys && (e.cls == .coherent || e.cls == .bank) then some pa else none
      | none => none

/-- The packets a READ response takes (R398: PMTU). -/
def readPackets (q : QueuePair) (len : Nat) : Nat := max 1 (ceilDiv len (128 * 2 ^ q.pmtu))

/-- Bytes written by an agent at physical addresses whose lines are free, sector by sector, each an ordinary coherent store (R188), into pages
of class bank where the agent's translation says so (R146). -/
def State.storeRuns (s : State) (part pts : Nat) (bs : List (Nat × Byte)) (bank : Nat → Bool := fun _ => false) : Nat × State :=
  s.homeStores part pts (sectorRuns bs) bank

/-- Whether a byte of a packet's lies in a page that the engine's translation gives class bank (R146, R400). -/
def State.netBank (s : State) (p : NetPacket) (pa : Nat) : Bool :=
  (List.range (netReach p)).any fun i => ((s.agentXlate p.part (p.va + i)).map fun x => x.1 == pa && x.2.cls == .bank).getD false

/-- RDMA_WRITE (R397 to R401): checked in order, applied as coherent stores, acknowledged; a duplicate is acknowledged only. -/
def execRdmaWrite (p : NetPacket) (s : State) : Out :=
  match p.op with
  | .writeFirst | .writeMiddle | .writeLast | .writeOnly =>
    match s.seePacket p with
    | .drop => .next s
    | .invalid a => s.nak p a true
    | .wrongPsn a => s.nak p a false
    | .again _ q => .next (s.send (.ack q.head p.part p.qpn p.psn q.msn))
    | .expected a q =>
      match s.packetPas p q with
      | none => s.nak p a false
      | some pas =>
        if s.writeWaits (entryWords a ++ pas) then .next (s.waitOutside (.packet p) [] (entryWords a ++ pas))
        else
          let x := s.servedOutside.storeRuns p.part (tget (s.part p.part).qpTimes p.qpn 0 + 1) (pas.zip p.data) (s.netBank p)
          let ends : Nat := if p.op = .writeLast ∨ p.op = .writeOnly then 1 else 0
          .next ((x.2.packetDone p a q 1 ends x.1).send (.ack q.head p.part p.qpn p.psn ((q.msn + ends) % 2 ^ 24)))
  | _ => .next s

/-- RDMA_READ (R397 to R401, R196): checked in order; the bytes are read at the homes. A duplicate is read again. -/
def execRdmaRead (p : NetPacket) (s : State) : Out :=
  match p.op with
  | .readRequest =>
    let serve (a : Nat) (q : QueuePair) (new : Bool) : Out :=
      match s.packetPas p q with
      | none => s.nak p a false
      | some pas =>
        if s.readWaits pas || (new && s.writeWaits (entryWords a)) then
          .next (s.waitOutside (.packet p) pas (if new then entryWords a else []))
        else
          let data := pas.map fun pa => (s.readPa pa 1).headD 0#8
          let t : State := if new then s.servedOutside.packetDone p a q (readPackets q p.len) 1 0 else s.servedOutside
          .next (t.send (.readResponse q.head p.part p.qpn p.psn data (pas.any fun pa => s.paPois pa 1)))
    match s.seePacket p with
    | .drop => .next s
    | .invalid a => s.nak p a true
    | .wrongPsn a => s.nak p a false
    | .again a q => serve a q false
    | .expected a q => serve a q true
  | _ => .next s

/-- ATOMIC_FETCH_ADD (R397 to R401): one step at the home on 8 bytes; a duplicate is answered with the value it had then. -/
def execAtomicFetchAdd (p : NetPacket) (s : State) : Out :=
  match p.op with
  | .fetchAdd =>
    match s.seePacket p with
    | .drop => .next s
    | .invalid a => s.nak p a true
    | .wrongPsn a => s.nak p a false
    | .again _ _ =>
      let same (o : Output) : Bool :=
        match o with
        | .atomicResponse _ part qpn psn _ _ => part == p.part && qpn == p.qpn && psn == p.psn
        | _ => false
      match s.out.find? same with
      | some o => .next (s.send o)
      | none => .next s
    | .expected a q =>
      match s.packetPas p q with
      | none => s.nak p a false
      | some pas =>
        let pa := pas.headD 0
        if s.writeWaits (entryWords a ++ pas) then .next (s.waitOutside (.packet p) [] (entryWords a ++ pas))
        else
          let old := BitVec.ofNat 64 (s.readPaNat pa 8)
          let x := s.servedOutside.homeStores p.part (tget (s.part p.part).qpTimes p.qpn 0 + 1) [(pa, bytesLE 8 (old + p.add).toNat)] (s.netBank p)
          .next ((x.2.packetDone p a q 1 1 x.1).send (.atomicResponse q.head p.part p.qpn p.psn old (s.paPois pa 8)))
  | _ => .next s

/-- A packet that waited at a home is served again. -/
def State.servePacket (s : State) (p : NetPacket) : Out :=
  match p.op with
  | .readRequest => execRdmaRead p s
  | .fetchAdd => execAtomicFetchAdd p s
  | _ => execRdmaWrite p s

/-- INVALID_REQUEST (R397): an opcode or a service the engine does not serve is answered with a NAK of kind invalid request, and
the queue pair goes to the error state. -/
def execInvalidRequest (p : NetPacket) (s : State) : Out :=
  match s.seePacket p with
  | .invalid a => s.nak p a true
  | _ => .next s

/-- The partition whose times a line takes when an observer that is in none writes it (log 46). -/
def State.linePart (s : State) (pa : Nat) : Nat :=
  match tfind s.lines (lineOf pa) with
  | some t => t.part
  | none => tget s.dirty (sectorOf pa) 0

/-- Bytes written at the homes by a device: each sector's run in the partition of its line. -/
def State.deviceStores (s : State) : List (Nat × List Byte) → State
  | [] => s
  | (pa, bs) :: r => State.deviceStores (s.homeStores (s.linePart pa) 0 [(pa, bs)]).2 r

/-- The lines of a byte range. -/
def linesOf (pa n : Nat) : List Nat := ((List.range n).map fun i => lineOf (pa + i)).eraseDups

/-- DEVICE_DMA (R403, R196): a device's read or write acts at the homes; in endpoint mode the host caches the lines it reads
(R247, log 46). Before boot the package answers none (R405). -/
def execDeviceDma (q : DmaRequest) (s : State) : Out :=
  if !s.booted then .next s else
  match q with
  | .read pa n =>
    match s.paFault pa n with
    | some f => .fault f
    | none =>
      if s.readWaits ((List.range n).map (pa + ·)) then .next (s.waitOutside (.dma q) ((List.range n).map (pa + ·)) [])
      else
        let data := (List.range n).map fun i => (s.readPa (pa + i) 1).headD 0#8
        let t : State := s.servedOutside
        let t : State := if s.conf.endpoint then { t with hostLines := (s.hostLines ++ linesOf pa n).eraseDups } else t
        .next (t.send (.dmaData data ((List.range n).any fun i => s.paPois (pa + i) 1)))
  | .write pa data =>
    match s.paFault pa data.length with
    | some f => .fault f
    | none =>
      let pas := (List.range data.length).map (pa + ·)
      if s.writeWaits pas then .next (s.waitOutside (.dma q) [] pas)
      else .next (s.servedOutside.deviceStores (sectorRuns (pas.zip data)))

/-- A hart's access to a die's system register block that no rule gives: no aligned 32-bit access, or an offset with nothing there. -/
def blockStop (pa : Nat) : Out := .fault (.systemBlock pa)

/-- A control-core hart's store in program order (R188): an ordinary coherent store at a physical address of a partition, or a store to
a system register (R303). A hart keeps one program time for each partition it accesses (R180 and R332; DEDUCED, log 98). -/
def State.hartStore (s : State) (hart part pa : Nat) (data : List Byte) : Out :=
  let pas := (List.range data.length).map (pa + ·)
  match blockAddr pa, s.paFault pa data.length with
  | some (die, off), _ =>
    if data.length = 4 then
      match s.blockStore die off (BitVec.ofNat 32 (ofBytesLE data)) with
      | some t => .next t
      | none => blockStop pa
    else blockStop pa
  | none, some f => .fault f
  | none, none =>
    if s.writeWaits pas then .next (s.waitOutside (.hartStore hart part pa data) [] pas)
    else
      let k := hart * 8 + part
      let x := s.servedOutside.storeRuns part (tget s.harts k 0) (pas.zip data)
      .next { x.2 with harts := tset x.2.harts k (max (tget s.harts k 0) x.1) }

/-- The line loads of a hart in order: its time follows each line's (R182, R185). -/
def State.hartLoads (s : State) (part t : Nat) : List Nat → Nat × State
  | [] => (t, s)
  | l :: r =>
    let x := s.homeLoad (l * 256) part t
    State.hartLoads x.2 part (max t x.1.wts) r

/-- A control-core hart's load in program order (R188), or of a system register (R303). -/
def State.hartLoad (s : State) (hart part pa n : Nat) : Out :=
  match blockAddr pa, s.paFault pa n with
  | some (die, off), _ =>
    match (if n = 4 then s.blockLoad die off else none) with
    | some x => .next (s.send (.hartData hart (bytesLE 4 x.toNat) false))
    | none => blockStop pa
  | none, some f => .fault f
  | none, none =>
    if s.readWaits ((List.range n).map (pa + ·)) then .next (s.waitOutside (.hartLoad hart part pa n) ((List.range n).map (pa + ·)) [])
    else
      let k := hart * 8 + part
      let x := s.servedOutside.hartLoads part (tget s.harts k 0) (linesOf pa n)
      .next (({ x.2 with harts := tset x.2.harts k x.1 } : State).send (.hartData hart (s.readPa pa n) (s.paPois pa n)))

/-- A hart's FENCE (R188): a package-scope fence; the hart's accesses, which act at the homes as they come, are all before it. -/
def State.hartFence (s : State) (die : Nat) : State := s.enterFence none 4 die (s.groups.map (·.uid))

/-- An uncorrectable error found in a sector of a cache's copy (R153). -/
def State.copyError (s : State) (site line sector : Nat) : State :=
  let hit (c : Copy) : Bool := c.site == site && c.line == line
  { s with copies := s.copies.map fun c => if hit c then { c with pois := c.pois ||| BitVec.ofNat 8 (2 ^ sector) } else c }

/-- PLDM_MONITORING (R404): a die's HEALTH, temperature and power are reported as sensors. -/
def execPldmMonitoring (die : Nat) (s : State) : Out :=
  .next ({ s with free := s.free + 1 }.send
    (.pldm die (s.die die).health (Config.sensor (2 * die) s.free) (Config.sensor (2 * die + 1) s.free)))

/-- PLDM_FIRMWARE_UPDATE (R404): the configuration flash is written. -/
def execPldmFirmwareUpdate (f : Flash) (s : State) : Out := .next { s with flash := f }

/-- What the configuration record's digest is taken of (R406): the record as written, and its repair map and quarantine list as they stand,
one after the other (DESIGN CHOICE, log 104). -/
def recordBytes (r : ConfigRecord) : List Byte :=
  r.raw ++ r.retired.flatMap (fun x => bytesLE 1 x.1 ++ bytesLE 1 x.2) ++ r.quarantined.flatMap fun c => bytesLE 2 c

/-- What an SPDM MEASUREMENTS response carries (R406): the ROM version, each image's digest, the record's digest. -/
def State.measured (s : State) : List Byte :=
  Config.romVersion ++ s.flash.images.flatMap (fun i => Config.digest i.bytes) ++ Config.digest (recordBytes s.flash.record)

/-- SPDM_MEASUREMENTS (R406): signed by the boot ROM's signing service. -/
def execSpdmMeasurements (s : State) : Out :=
  .next (s.send (.measurements s.measured (Config.identitySign s.measured)))

/-- Steps 2 and 3 of R405 for a die: every signature holds and no version is below the fused rollback count. -/
def flashPasses (f : Flash) (die : Nat) : Bool :=
  let ok (bytes signature : List Byte) (version : Nat) : Bool :=
    Config.signatureOk die bytes signature && decide (Config.rollback die ≤ version)
  f.images.all (fun i => ok i.bytes i.signature i.version)
    && Config.signatureOk die f.record.raw f.record.signature

/-- A core's margin registers as its entry of the record resets them (R372). -/
def loadRecord (r : CoreRecord) (c : CoreState) : CoreState :=
  { c with
    margin := BitVec.ofNat 32 (r.maxStep % 256 * 256 + r.step % 256)
    ltelim := BitVec.ofNat 32 (r.limit % 65536)
    ltewin := BitVec.ofNat 32 (r.window % 2 ^ 20) }

/-- The record applied (R372, R376, R379, R403) to a die whose boot ROM has checked it: margins, quarantined cores with
REASON 2, retired slices. -/
def State.applyRecord (s : State) (r : ConfigRecord) (die : Nat) : State :=
  let s : State := (r.cores.filter fun c => dieOfCore c.core == die).foldl (fun s c => s.updCore c.core (loadRecord c)) s
  let s : State := (r.retired.filter fun x => x.1 == die).foldl (fun s x =>
    (s.healthEvent x.1 fun h => setField h 12 8 (min (bits h 12 8 + 1) 31)).alarm s none) s
  let s : State := (r.quarantined.filter fun c => dieOfCore c == die).foldl (fun s c => (s.updCore c fun x => { x with quar := 5#32 }).quarantine c) s
  s.updDie die fun x => { x with passed := true }

/-- POWER_ON_BOOT (R405): the dies' boot ROMs check the flash, and each that passes applies the repair map and the quarantine list; once all
four have passed, the record holds (R403) and every die releases its control cores. A failing die holds its cores in reset, and so does the
package. -/
def execPowerOnBoot (s : State) : Out :=
  if s.booted then .next s
  else
    let s : State := ((List.range 4).filter fun d => flashPasses s.flash d && !(s.die d).passed).foldl (fun s d => s.applyRecord s.flash.record d) s
    if (List.range 4).all fun d => (s.die d).passed then
      .next { ((List.range 4).foldl (fun s d => s.updDie d fun x => { x with released := true }) s) with
                booted := true, conf := s.flash.record }
    else .next s

end Sys2Proof.Machine
end

