-- ==== Sys2Proof/Machine/EvTwin.lean ====
section
/-! DEFINITION. Understudy comparisons (R358 to R363). -/

namespace Sys2Proof.Machine

/-- The operation of a held store or reduction lane by its opcode; none for a store. -/
def HeldStore.atom (h : HeldStore) : Option AtomOp :=
  match h.op.toNat with
  | 0x90 => some .add
  | 0x91 => some .min
  | 0x92 => some .max
  | 0x93 => some .or
  | _ => none

/-- The request of a held word (R361), in the place that the word had in the program order of its group and of the twin. -/
def heldReq (g : Grp) (h : HeldStore) (w : List HeldStore) (twin : Option (Nat × Nat)) : Req :=
  let acc (x : HeldStore × Nat) : Acc := { lane := x.2, va := x.1.va, tgt := .mem x.1.pa x.1.cls, size := x.1.size, data := x.1.data }
  { id := h.word, uid := g.uid, core := g.core, part := g.part, op := h.atom.getD .add, signed := h.signed, accs := w.zipIdx.map acc,
    act := 1#32, kind := if h.atom.isSome then .reduction else .store, policy := if h.policy = .normal then .normal else .nt,
    ord := h.ord, imgSlot := g.imgSlot, twin := twin }

/-- The first n held lanes of a primary leave for their homes in program order, word by word (R150, R361): each takes its time there
(R183), and stands for the twin's word too. -/
def State.releaseHeldStores (s : State) (g t : Grp) (n : Nat) : State :=
  let theirs := heldWords (t.held.take n)
  (heldWords (g.held.take n)).zipIdx.foldl (fun s w =>
    match w.1 with
    | [] => s
    | h :: _ =>
      let mate := (theirs[w.2]?).bind fun x => x.head?.map fun y => (t.uid, y.word)
      let r := heldReq g h w.1 mate
      let s : State := { s with reqs := s.reqs ++ [r] }
      if h.atom.isSome then s.sendAtomics r else s) s

/-- UNDERSTUDY_COMPARE (R361, R363): both copies have reached a point; equal signatures release the primary's stores held
before it and discard the understudy's; a mismatch discards both copies' and takes the understudy fate. -/
def execUnderstudyCompare (u : Nat) (s : State) : Out :=
  match s.grp u with
  | none => .next s
  | some g =>
    match g.twin.bind s.grp with
    | none => .next s
    | some t =>
      match g.under, g.points, t.points with
      | false, (a, n) :: _, (b, _) :: _ =>
        let pass (x : Grp) : Grp :=
          match x.points with
          | [] => x
          | p :: r => { x with held := x.held.drop p.2, points := r.map fun q => (q.1, q.2 - p.2), lax := x.lax.drop 1 }
        if a = b then
          let s : State := s.releaseHeldStores g t n
          let s : State := (s.updGrp g.uid pass).updGrp t.uid pass
          .next (s.settleGang g.gang)
        else
          let s : State := (s.discardHeld g.uid).discardHeld t.uid
          let bad (x : Grp) : Grp := { x with mism := true }
          let s : State := (s.updGrp g.uid bad).updGrp t.uid bad
          let s : State := s.updLaunch g.launch fun l => { l with mismatch := satAdd l.mismatch 1 65535 }
          .next (s.gangFate g.gang 0)
      | _, _, _ => .next s

end Sys2Proof.Machine
end

