-- ==== Sys2Proof/Machine/EvWave.lean ====
section
/-! DEFINITION. Marker waves (R261 to R287): arrival, start, node records and edges, messages and weights, rounds, collections; and
the line of a bank command or wave that a unit writes (R247). -/

namespace Sys2Proof.Machine

/-- The physical address of node n's record (R238, R249). -/
def State.nodePa (s : State) (w : Wave) (n : Nat) : Except BankStop Nat :=
  match w.bind with
  | none => .error .absent
  | some g => s.bankPa w.part g.tab g.node (256 * n)

/-- The nodes of a wave's graph. -/
def Wave.nodes (w : Wave) : Nat :=
  match w.bind with
  | none => 0
  | some g => g.count

/-- A 4-byte word of a node record (R238). -/
def State.nodeWord (s : State) (pa off : Nat) : Word := BitVec.ofNat 32 (s.readPaNat (pa + off) 4)
def State.marks (s : State) (pa : Nat) : Word := s.nodeWord pa 0x0C

/-- What node operators read (R241). -/
def State.nodeEnv (s : State) (pa n : Nat) : PEnv :=
  { attr := fun k => s.nodeWord pa (0x10 + 4 * k), slot := fun t e => s.nodeWord pa (0x40 + 64 * t + 4 * e),
    ntype := s.readPaNat (pa + 8) 2, deg := s.readPaNat (pa + 5) 3, marks := s.marks pa, idx := n }

/-- Whether a sector of a node that a program reads is poisoned (R287). -/
def State.progPois (s : State) (p : Prog) (pa : Nat) : Bool := p.nodeReads.any fun off => s.paPois (pa + off) 4

/-- A node's value of a bit or slot, with the poison of each element (R267, R287). -/
def State.nodeVal (s : State) (w : Wave) (pa which : Nat) : List Int × Word :=
  if w.slotKind then
    ((List.range 16).map fun e => (s.nodeWord pa (0x40 + 64 * which + 4 * e)).toInt,
     maskOf fun e => decide (e < 16) && s.paPois (pa + 0x40 + 64 * which + 4 * e) 4)
  else ([if bitOf (s.marks pa) which then 1 else 0], if s.paPois (pa + 12) 4 then 1#32 else 0#32)

/-- The banks that hold the frames of a graph's node window, ascending (R235, R273). -/
def State.waveBanks (s : State) (w : Wave) : List Nat :=
  match w.bind with
  | none => []
  | some g =>
    let first := g.node.base / 65536
    let frames := (List.range ((g.node.base + g.node.limit - 1) / 65536 - first + 1)).filterMap fun k =>
      match s.bankPa w.part g.tab g.node ((first + k) * 65536 - g.node.base) with
      | .ok pa => some (pa / 65536)
      | .error _ => none
    let banks := frames.flatMap fun f => (List.range 64).map fun i => bankOf (f * 65536 + 1024 * i)
    (List.range 4096).filter banks.contains

/-- Equal shares of a weight among units, the remainder to the first (R273). -/
def shares (total : Nat) (units : List Nat) : Tbl Nat :=
  units.zipIdx.map fun u => (u.1, total / units.length + (if u.2 = 0 then total % units.length else 0))

/-- Words of a node record written by its unit (R247, R264): address, value, poison; timed after what is ordered before the wave (R280). -/
def State.waveWrite (s : State) (w : Wave) (bs : List (Nat × Byte × Bool)) : State :=
  let x := s.unitWrite w.part (((s.wave w.id).getD w).time) bs
  x.2.updWave w.id fun y => { y with time := max y.time x.1 }

/-- A word with one poison mark, as bytes to write. -/
def markedWord (pa : Nat) (x : Word) (p : Bool) : List (Nat × Byte × Bool) := (bytesLE 4 x.toNat).zipIdx.map fun b => (pa + b.2, b.1, p)

/-- A node counted as changed; under a hop limit it enters its unit's frontier, which RESCAN replaces when it overflows (R270). -/
def State.noteChange (s : State) (w : Wave) (n pa : Nat) : State :=
  let s : State := s.updRec w fun r => { r with changed := (r.changed + 1) % 2 ^ 64 }
  if w.hop = 0 then s
  else
    match s.wave w.id with
    | none => s
    | some x =>
      let b := bankOf pa
      let mine := x.frontier.filter fun m => match s.nodePa x m with | .ok q => bankOf q == b | .error _ => false
      if x.frontier.contains n then s
      else if mine.length < 4096 then s.updWave w.id fun y => { y with frontier := y.frontier ++ [n] }
      else
        (s.updWave w.id fun y => { y with rescanBanks := if y.rescanBanks.contains b then y.rescanBanks else b :: y.rescanBanks }).updRec w
          fun r => { r with rescan := true }

/-- A signed sum saturated to 32 bits, and whether it saturates (R67, R271). -/
def satSum (a b : Int) : Int × Bool :=
  let x := a + b
  if x < -(2 ^ 31) then (-(2 ^ 31), true) else if 2 ^ 31 ≤ x then (2 ^ 31 - 1, true) else (x, false)

/-- A slot's 16 elements as bytes to write. -/
def slotBytesAt (pa slot : Nat) (v : List Int) (p : Nat → Bool) : List (Nat × Byte × Bool) :=
  v.zipIdx.flatMap fun x => markedWord (pa + 0x40 + 64 * slot + 4 * x.2) (BitVec.ofInt 32 x.1) (p x.2)

/-- A value combined into node n (R268, R271, R272, R287): the state, and whether its destination changed. -/
def State.take (s : State) (w : Wave) (n pa : Nat) (v : List Int) (p : Word) : State × Bool :=
  let m := s.marks pa
  let old := s.nodeVal w pa w.dst
  let changed (s : State) : State × Bool := (s.noteChange w n pa, true)
  let poisonOnly (off : Nat) (e : Nat) (s : State) : State := if p.getLsbD e then s.poisonTarget (.mem (pa + off) .bank) else s
  if w.slotKind then
    if w.comb = 4 then
      if bitOf m w.visit then (s, false)
      else
        let bs := markedWord (pa + 12) (setBit m w.visit true) false ++ slotBytesAt pa w.dst v fun e => p.getLsbD e
        changed (s.waveWrite w bs)
    else
      let sums := List.zipWith satSum old.1 v
      let new := if w.comb = 5 then sums.map (·.1) else combineVals w.comb old.1 v
      let s : State := if w.comb = 5 && sums.any (·.2) then s.updRec w fun r => { r with sat := true } else s
      if new = old.1 then ((List.range 16).foldl (fun s e => poisonOnly (0x40 + 64 * w.dst + 4 * e) e s) s, false)
      else changed (s.waveWrite w (slotBytesAt pa w.dst new fun e => p.getLsbD e || old.2.getLsbD e))
  else
    let one := v.headD 0 != 0
    let was := bitOf m w.dst
    let now := if w.comb = 1 then was && one else was || one
    if now = was then (if w.comb = 4 then s else poisonOnly 12 0 s, false)
    else changed (s.waveWrite w (markedWord (pa + 12) (setBit m w.dst now) (p.getLsbD 0)))

/-- Whether a node's nonempty edge range leaves the edge window (R239). -/
def State.isMalformed (s : State) (w : Wave) (pa : Nat) : Bool :=
  match w.bind with
  | none => false
  | some g => s.readPaNat (pa + 5) 3 != 0 && decide (g.edge.limit < 8 * (s.readPaNat pa 5 + s.readPaNat (pa + 5) 3))

/-- A malformed node is flagged and counted when its edges are first looked at (R239, R285). -/
def State.flagMalformed (s : State) (w : Wave) (n pa : Nat) : State :=
  match s.wave w.id with
  | none => s
  | some x =>
    if x.malformed.contains n then s
    else
      let s : State := s.updWave w.id fun y => { y with malformed := n :: y.malformed }
      let s : State := s.updRec w fun r => { r with badNode := true, malformed := (r.malformed + 1) % 2 ^ 32 }
      let f := s.nodeWord pa 8
      if bitOf f 16 then s else s.waveWrite w (markedWord (pa + 8) (setBit f 16 true) false)

/-- The value a message carries along one edge (R267): none where an edge program of the bit kind gives zero. -/
def edgeValue (w : Wave) (env : PEnv) (v : List Int) : Option (List Int) :=
  match w.prog with
  | none => some v
  | some p =>
    let run (x : Int) : Word := p.eval { env with inp := BitVec.ofInt 32 x }
    if w.slotKind then some (v.map fun x => (run x).toInt) else if run (v.headD 0) = 0#32 then none else some v

/-- The messages of one node along its masked edges, and the edges skipped (R239, R267). -/
def State.edgeMessages (s : State) (w : Wave) (pa : Nat) (v : List Int) (p : Word) : Except BankStop (List Marker × Nat) :=
  match w.bind with
  | none => .ok ([], 0)
  | some g => do
    let first := s.readPaNat pa 5
    let es ← (List.range (s.readPaNat (pa + 5) 3)).mapM fun j => s.bankPas w.part g.tab g.edge (8 * (first + j)) 8
    let one (pas : List Nat) : Option (Option Marker) :=
      let r : Nat := ofBytesLE (pas.map fun q => (s.readPa q 1).headD 0#8)
      let target := r % 2 ^ 40
      let ty := r / 2 ^ 40 % 32
      let wt : Nat := r / 2 ^ 48
      if r / 2 ^ 45 % 8 ≠ 0 ∨ g.count ≤ target then none
      else if bitOf w.mask ty = false then some none
      else
        let ew : Int := if wt < 32768 then Int.ofNat wt else Int.ofNat wt - 65536
        let env : PEnv := { s.nodeEnv pa target with etype := ty, ew := ew }
        let bad := (pas.any fun q => s.paPois q 1) || (match w.prog with | some q => s.progPois q pa | none => false)
        some ((edgeValue w env v).map fun x => { target := target, value := x, pois := if bad then BitVec.allOnes 32 else p })
    let ms := es.map one
    .ok (ms.filterMap fun m => m.bind id, (ms.filter Option.isNone).length)

/-- The messages a node sends (R239, R267): none from a malformed node. -/
def State.sendFrom (s : State) (w : Wave) (n pa : Nat) (v : List Int) (p : Word) : Except BankStop (State × List Marker) :=
  if s.isMalformed w pa then .ok (s.flagMalformed w n pa, [])
  else do
    let x ← s.edgeMessages w pa v p
    let s : State := if x.2 = 0 then s else s.updRec w fun r => { r with badEdge := true, skipped := (r.skipped + x.2) % 2 ^ 32 }
    .ok (s, x.1)

/-- Messages leave a unit with their weights (R274): messages to another stack travel through the fabric (R275). -/
def State.post (s : State) (w : Wave) (bank each : Nat) : Nat → List Marker → State
  | _, [] => s
  | extra, m :: r =>
    let k := s.takeKey
    let m : Marker := { m with id := k.1, weight := each + extra }
    let s : State := k.2.updWave w.id fun x => { x with msgs := x.msgs ++ [m] }
    let s : State :=
      match s.nodePa w m.target with
      | .error _ => s
      | .ok pa =>
        let from_ := bank / 512
        if stackOf pa = from_ then s
        else
          let p : Packet := { id := m.id, part := w.part, kind := .marker w.id m.target, pa := pa,
                              path := s.stackPath pa (from_ / 2) (stackPort (from_ % 2)) }
          { s with pkts := s.pkts ++ [p] }
    s.post w bank each 0 r

/-- A unit's messages, those it lacked weight for first, sent with all the weight it holds; with too little it asks for a loan
(R274). -/
def State.dispatch (s : State) (id bank : Nat) (ms : List Marker) : State :=
  match s.wave id with
  | none => s
  | some w =>
    let all := tget w.outbox bank [] ++ ms
    let wt := tget w.units bank 0
    let k := all.length
    if k = 0 then s
    else if wt < k then s.updWave id fun x => { x with outbox := tset x.outbox bank all }
    else
      let s : State := s.updWave id fun x => { x with units := terase x.units bank, outbox := terase x.outbox bank }
      let s : State := s.updRec w fun r => { r with sent := (r.sent + k) % 2 ^ 64 }
      s.post w bank (wt / k) (wt % k) all

/-- Lines a wave is about to write are not free yet: a line an agent owns or holds, or one a CXL host caches, for which a BISnp is
sent once (R154, R247). Answers the state to wait in. -/
def State.waveBlocked (s : State) (w : Wave) (lines : List Nat) : Option State :=
  match lines.find? fun l => s.hostLines.contains l with
  | some l =>
    if w.snooped.contains l then some s
    else some ((s.updWave w.id fun x => { x with snooped := l :: x.snooped }).send (.bisnp l))
  | none => if lines.all s.unitFree then none else some s

/-- A wave ends with ABORT through a lost frame (R287, R350). -/
def State.loseWave (s : State) (w : Wave) : State := ((s.bareError .wave w.part w.imgSlot w.ord).abortWave w).wakeWaits

/-- A wave ends (R263, R274, R284, R285). -/
def State.endWave (s : State) (id : Nat) : State :=
  match s.wave id with
  | none => s
  | some w =>
    let s : State := s.freeLines w
    let m := s.waveTime w
    let s : State := (s.updRec w fun r => { r with st := 3, ns := s.waveNs w }).ackSide w.part w.imgSlot w.ord 1
    let s : State := s.updLaunch w.launch fun l =>
      let t := tget l.tags w.tag {}
      { l with tags := tset l.tags w.tag { t with count := t.count - 1, time := max t.time m } }
    let s : State := s.noteWave w
    State.wakeWaits { s with waves := s.waves.filter fun x => x.id != id }

/-- Whether an earlier command of the group for the same controller is still on its way (R262). -/
def State.behind (s : State) (w : Wave) : Bool :=
  (s.waves.takeWhile fun x => x.id != w.id).any fun x => x.uid == w.uid && x.ctrl == w.ctrl && x.st == .path

/-- The command code of a wave record (R285). -/
def WaveKind.code : WaveKind → Nat
  | .gprop => 1
  | .gcoll => 2
  | .gclr => 3
  | _ => 0

/-- WAVE_ARRIVAL (R262, R263, R285): a wave command reaches its controller, which holds 16 further
commands and has not been lost with its die (R366); it takes the binding that
stands and resets its tag's record. -/
def execWaveArrival (wave : Nat) (s : State) : Out :=
  match s.wave wave with
  | none => .next s
  | some w =>
    let queued := (s.waves.filter fun x => x.ctrl == w.ctrl && x.st == .queued).length
    if w.kind == .gbind || w.st != .path || s.behind w || (s.die (w.ctrl / 8)).failed || decide (16 ≤ queued) then .next s
    else
      let bind := tfind (s.part w.part).graphs w.graph
      let k := s.takeKey
      let s : State := k.2.updWave wave fun x => { x with st := .queued, bind := bind, nograph := bind.isNone, seq := k.1 }
      let r : WaveRec := { command := w.kind.code, graph := w.graph, st := 1, wave := wave, nograph := bind.isNone }
      .next ((s.updLaunch w.launch fun l =>
        let t := tget l.tags w.tag {}
        { l with tags := tset l.tags w.tag { t with count := t.count + 1, record := r } }).wakeWaits)

/-- GBIND_APPLY (R261, R262, R289): a gbind acts at its controller as one step, in arrival order. -/
def execGbindApply (wave : Nat) (s : State) : Out :=
  match s.wave wave with
  | none => .next s
  | some w =>
    if w.kind != .gbind || w.st != .path || s.behind w || (s.die (w.ctrl / 8)).failed then .next s
    else
      let s : State := s.updPart w.part fun p =>
        { p with graphs := match w.bind with | some g => tset p.graphs w.graph g | none => terase p.graphs w.graph }
      let s : State := s.ackSide w.part w.imgSlot w.ord 1
      .next (State.wakeWaits { s with waves := s.waves.filter fun x => x.id != wave })

/-- Whether a destination holds a value other than the combiner's identity, or a set visit bit (R270). -/
def State.resends (s : State) (w : Wave) (pa : Nat) : Bool :=
  let v := (s.nodeVal w pa w.dst).1
  if w.comb = 4 then bitOf (s.marks pa) (if w.slotKind then w.visit else w.dst)
  else if w.slotKind then
    let ident : Int := match w.comb with | 1 => -1 | 2 => 2 ^ 31 - 1 | 3 => -(2 ^ 31) | _ => 0
    v.any fun x => x != ident
  else v != [if w.comb = 1 then 1 else 0]

/-- The addresses of a list of nodes. -/
def State.nodePas (s : State) (w : Wave) (ns : List Nat) : Except BankStop (List (Nat × Nat)) :=
  ns.mapM fun n => (s.nodePa w n).map fun pa => (n, pa)

/-- The nodes that send in a round (R267, R270): the sources, or those the last round changed, or after RESCAN all of a bank's whose
destination is not the identity. -/
def State.roundNodes (s : State) (w : Wave) : Except BankStop (List (Nat × Nat)) := do
  if w.round ≤ 1 then
    let all ← s.nodePas w (List.range w.nodes)
    .ok (all.filter fun x => bitOf (s.marks x.2) w.sel)
  else
    let front ← s.nodePas w w.frontier
    let kept := front.filter fun x => !w.rescanBanks.contains (bankOf x.2)
    if w.rescanBanks.isEmpty then .ok kept
    else
      let all ← s.nodePas w (List.range w.nodes)
      .ok (kept ++ all.filter fun x => w.rescanBanks.contains (bankOf x.2) && s.resends w x.2)

/-- A node that an earlier wave changed reaches a chained wave that runs with it (R282): with its select bit set it is a source, or its
source value has grown, and it sends; answers whether it changed the chained wave's destination too. -/
def State.chainNode (s : State) (x : Wave) (n pa : Nat) : Except BankStop (State × Bool) := do
  let v := s.nodeVal x pa x.src
  let r := if x.incl then s.take x n pa v.1 v.2 else (s, false)
  let y ← r.1.sendFrom x n pa v.1 v.2
  .ok (y.1.dispatch x.id (bankOf pa) y.2, r.2)

/-- The running waves chained to a wave whose first round has begun (R282). -/
def State.chainedTo (s : State) (e : Nat) : List Wave :=
  s.waves.filter fun x => x.st == .running && !x.go && x.chainOf.contains e

/-- Why a wave cannot go on, and which: the wave named is the one that needs the frame (R287). -/
abbrev WaveStop := BankStop × Nat

def ofWave {α : Type} (id : Nat) (x : Except BankStop α) : Except WaveStop α :=
  match x with
  | .ok y => .ok y
  | .error e => .error (e, id)

/-- The nodes of a wave's own graph whose record stands at an address (R261, R262: the binding it took). -/
def State.nodesAt (s : State) (x : Wave) (pa : Nat) : Except BankStop (List Nat) :=
  (List.range x.nodes).foldlM (fun ns n =>
    match s.nodePa x n with
    | .ok q => .ok (if q = pa then ns ++ [n] else ns)
    | .error .absent => .ok ns
    | .error .stale => .error .stale) []

/-- A node record that wave e changed reaches the waves chained to it whose own graph has a node there, and the waves chained to those
(R282). -/
def State.feed : Nat → State → (e pa : Nat) → Except WaveStop State
  | 0, s, _, _ => .ok s
  | k + 1, s, e, pa =>
    (s.chainedTo e).foldlM (fun (s : State) x => do
      let ns ← ofWave x.id (s.nodesAt x pa)
      ns.foldlM (fun (s : State) n => do
        if bitOf (s.marks pa) x.sel then
          let y ← ofWave x.id (s.chainNode x n pa)
          if y.2 then State.feed k y.1 x.id pa else .ok y.1
        else .ok s) s) s

/-- What follows a value combined into a node: a changed destination reaches the chained waves (R282). -/
def State.fed (r : State × Bool) (e pa : Nat) : Except WaveStop State :=
  if r.2 then State.feed r.1.waves.length r.1 e pa else .ok r.1

/-- A stop met in a step that has changed nothing (R287): a stale list makes the wave wait; a frame found unmapped ends the wave that needs
it, and what remains goes on with the next step. -/
def State.stopWave (s : State) (e : WaveStop) : State :=
  match e.1 with
  | .stale => s
  | .absent =>
    match s.wave e.2 with
    | some w => s.loseWave w
    | none => s

/-- Nodes of a bank that a wave has still to look at: a node whose frame is away now may be the bank's. -/
def State.entriesAt (s : State) (w : Wave) (bank : Nat) : Bool :=
  w.entries.any fun n => match s.nodePa w n with | .ok pa => bankOf pa == bank | .error _ => true

/-- One node of a round at its unit, one step (R247): include-sources in the first round (R268), then its messages, which go out with the
unit's weight once its last node of the round has made its own (R274). -/
def State.roundNode (s : State) (w : Wave) (n pa : Nat) : Except WaveStop State := do
  let first := decide (w.round ≤ 1)
  let v := s.nodeVal w pa (if first then w.src else w.dst)
  let s : State ← if first && w.incl then State.fed (s.take w n pa v.1 v.2) w.id pa else .ok s
  let y ← ofWave w.id (s.sendFrom w n pa v.1 v.2)
  let b := bankOf pa
  let f (x : Wave) : Wave :=
    { x with entries := x.entries.filter (· != n), outbox := tset x.outbox b (tget x.outbox b [] ++ y.2) }
  let s : State := y.1.updWave w.id f
  .ok (match s.wave w.id with
    | some x => if s.entriesAt x b then s else s.dispatch w.id b []
    | none => s)

/-- A gprop begins a round (R270, R273, R274): 2^63 units are issued in shares, and its nodes are to send, one at a time. -/
def State.beginRound (s : State) (w : Wave) (ns : List Nat) : State :=
  s.updWave w.id fun x =>
    { x with go := false, frontier := [], rescanBanks := [], entries := ns, issued := x.issued + Config.weightUnit,
             units := shares Config.weightUnit (s.waveBanks w) }

/-- A running gprop whose round is to begin begins it, unless lists make it wait (R270, R282). -/
def State.tryRound (s : State) (w : Wave) : State :=
  match s.roundNodes w with
  | .error e => s.stopWave (e, w.id)
  | .ok ns => s.beginRound w (ns.map (·.1))

/-- Earlier-arrived waves of the graph that have not ended and conflict with one (R279, R280). -/
def State.rivals (s : State) (w : Wave) : List Wave :=
  s.waves.filter fun e =>
    (e.st == .queued || e.st == .running) && e.part == w.part && e.graph == w.graph && decide (e.seq < w.seq) && e.conflicts w

/-- WAVE_START (R262, R273, R280 to R282): a queued wave starts behind its conflicting waves; a chained one propagates while they run,
or holds its shares until they have ended where it does not follow them; a round that is to begin begins. -/
def execWaveStart (wave : Nat) (s : State) : Out :=
  match s.wave wave with
  | none => .next s
  | some w =>
    if w.st == .running && w.go then
      if w.chainOf.any fun e => match s.wave e with | some x => !w.follows x | none => false then .next s
      else if w.chainOf.isEmpty then .next (s.tryRound w)
      else
        let t0 := tget (s.part w.part).waveTimes w.graph 0 + 1
        .next (State.tryRound (s.updWave wave fun x => { x with time := max x.time t0 }) w)
    else if w.st != .queued then .next s
    else
      let running := (s.waves.filter fun x => x.ctrl == w.ctrl && x.st == .running).length
      let es := s.rivals w
      let waits := es.filter fun e => !w.joint e
      if 4 ≤ running || !waits.all (fun e => w.chains e && e.st == .running) then .next s
      else if w.nograph then .next (s.endWave wave)
      else
        let t0 := tget (s.part w.part).waveTimes w.graph 0 + 1
        let run (x : Wave) : Wave := { x with st := .running, start := s.clk, time := max x.time t0 }
        let begun (s : State) : State := (s.updWave wave run).updRec w fun r => { r with st := 2 }
        match w.kind with
        | .gprop =>
          let r (x : Wave) : Wave := { x with go := true, round := 1, chainOf := waits.map (·.id) }
          let s : State := (begun s).updWave wave r
          match s.wave wave with
          | some x => if waits.all fun e => w.follows e then .next (s.tryRound x) else .next s
          | none => .next s
        | _ =>
          match s.nodePas w (List.range w.nodes) with
          | .error .stale => .next s
          | .error .absent => .next ((begun s).loseWave w)
          | .ok all =>
            let sel := (all.filter fun x => bitOf (s.marks x.2) w.sel).map (·.1)
            let es := if w.kind = .gcoll then sel.take w.cap else all.map (·.1)
            let f (x : Wave) : Wave :=
              { x with entries := es, issued := Config.weightUnit, units := shares Config.weightUnit (s.waveBanks w) }
            let g (r : WaveRec) : WaveRec :=
              if w.kind = .gcoll then { r with collected := sel.length % 2 ^ 40, ovf := decide (w.cap < sel.length) } else r
            .next (((begun s).updWave wave f).updRec w g)

/-- MARKER_MESSAGE (R268 to R272): a message that has arrived is combined into its node, once the nodes of the round have sent, whose
values those of the round before it are (R270); under hop limit 0 a changed destination goes on at once. -/
def execMarkerMessage (wave i : Nat) (s : State) : Out :=
  match s.wave wave with
  | none => .next s
  | some w =>
    match w.msgs.find? fun m => m.id == i with
    | none => .next s
    | some m =>
      if !w.entries.isEmpty || s.pkts.any fun p => p.id == i && !p.path.isEmpty then .next s
      else
        match s.nodePa w m.target with
        | .error e => .next (s.stopWave (e, wave))
        | .ok pa =>
          match s.waveBlocked w [lineOf pa] with
          | some t => .next t
          | none =>
            let b := bankOf pa
            let got (x : Wave) : Wave :=
              { x with msgs := x.msgs.filter (fun y => y.id != i), units := tset x.units b (tget x.units b 0 + m.weight) }
            let t : State := (s.updWave wave got).dropPkt i
            let r := t.take w m.target pa m.value m.pois
            match State.fed r wave pa with
            | .error e => .next (s.stopWave e)
            | .ok u =>
              if r.2 && w.hop == 0 then
                let v := u.nodeVal w pa w.dst
                match u.sendFrom w m.target pa v.1 v.2 with
                | .ok y => .next (y.1.dispatch wave b y.2)
                | .error .stale => .next s
                | .error .absent => .next (u.loseWave w)
              else .next u

/-- WEIGHT_LOAN (R274): a unit short of weight receives 2^63 units and sends; one that holds enough by now sends without a loan. -/
def execWeightLoan (wave bank : Nat) (s : State) : Out :=
  match s.wave wave with
  | none => .next s
  | some w =>
    let k := (tget w.outbox bank []).length
    if k = 0 then .next s
    else if k ≤ tget w.units bank 0 then .next (if s.entriesAt w bank then s else s.dispatch wave bank [])
    else
      let f (x : Wave) : Wave :=
        { x with issued := x.issued + Config.weightUnit, units := tset x.units bank (tget x.units bank 0 + Config.weightUnit) }
      let s : State := (s.updWave wave f).updRec w fun r => { r with loans := (r.loans + 1) % 2 ^ 32 }
      .next (s.dispatch wave bank [])

/-- Whether a unit has pending work of a wave (R274): nodes of its bank, or messages without weight; a chained wave keeps its shares
until the earlier waves have ended (R282); a collection's units are done when its entries are out and its lines are released. -/
def State.unitBusy (s : State) (w : Wave) (bank : Nat) : Bool :=
  !(tget w.outbox bank []).isEmpty || (w.chainOf.any fun e => (s.wave e).isSome) ||
    match w.kind with
    | .gcoll => !w.entries.isEmpty || !w.owned.isEmpty || (w.queue.isSome && !w.lastPush)
    | .gmark | .gclr | .gprop => s.entriesAt w bank
    | .gbind => false

/-- Weight back at a wave's controller (R273, R274): when all that was issued is back and no unit waits for a loan, the round or the wave
ends. -/
def State.countReturn (s : State) (w : Wave) (n : Nat) : State :=
  let back := w.returned + n
  let s : State := s.updWave w.id fun x => { x with returned := back }
  if back = w.issued ∧ w.outbox.all (fun o => o.2.isEmpty) = true then
    if w.kind = .gprop ∧ w.hop ≠ 0 then
      let s : State := s.updRec w fun r => { r with rounds := r.rounds + 1 }
      if w.round < w.hop then s.updWave w.id fun x => { x with round := x.round + 1, go := true } else s.endWave w.id
    else s.endWave w.id
  else s

/-- A packet of returned weight of a wave that has reached its controller (R383). -/
def State.weightBack (s : State) (wave : Nat) : Option (Packet × Nat) :=
  s.pkts.findSome? fun p =>
    match p.kind with
    | .weight k _ n => if k = wave ∧ p.path.isEmpty = true then some (p, n) else none
    | _ => none

/-- WEIGHT_RETURN (R270, R274, R383): weight that has come back is counted; else a unit without work returns its weight to the controller in
a packet. -/
def execWeightReturn (wave bank : Nat) (s : State) : Out :=
  match s.wave wave with
  | none => .next s
  | some w =>
    match s.weightBack wave with
    | some (p, n) => .next ((s.dropPkt p.id).countReturn w n)
    | none =>
      match tfind w.units bank with
      | none => .next s
      | some n =>
        if w.st != .running || w.go || s.unitBusy w bank then .next s
        else
          let stack := bank / 512
          let k := s.takeKey
          let p : Packet := { id := k.1, part := w.part, kind := .weight wave (w.ctrl / 8) n,
                              path := s.ctrlPath (w.ctrl / 8) (stack / 2) (stackPort (stack % 2)) }
          let s : State := k.2.updWave wave fun x => { x with units := terase x.units bank }
          .next { s with pkts := s.pkts ++ [p] }

/-- One node of a gmark or gclr (R265, R266): its changed words, with poison. -/
def State.sweepBytes (s : State) (w : Wave) (n pa : Nat) : List (Nat × Byte × Bool) × Bool :=
  let m := s.marks pa
  match w.kind with
  | .gmark =>
    let p := w.prog.getD {}
    let r := p.eval (s.nodeEnv pa n) != 0#32
    let was := bitOf m w.dst
    let now := if w.clearFirst then r else was || r
    if now = was then (if s.progPois p pa then markedWord (pa + 12) m true else [], false) else (markedWord (pa + 12) (setBit m w.dst now) (s.progPois p pa), true)
  | _ =>
    if w.slotKind then
      let z := (List.range 16).any fun e => s.nodeWord pa (0x40 + 64 * w.dst + 4 * e) != 0#32
      let bad := s.paPois (pa + 0x40 + 64 * w.dst) 64
      (if z || bad then slotBytesAt pa w.dst (List.replicate 16 0) fun _ => false else [], z)
    else if bitOf m w.dst then (markedWord (pa + 12) (setBit m w.dst false) false, true)
    else ([], false)

/-- One node of a gmark, a gclr or a gprop's round at a line (R247, R264). -/
def State.waveLine (s : State) (w : Wave) (line : Nat) : State :=
  if w.st != .running || w.go || (w.kind != .gmark && w.kind != .gclr && w.kind != .gprop) then s
  else
    match w.entries.find? fun n => match s.nodePa w n with | .ok pa => lineOf pa == line | .error _ => false with
    | none =>
      if w.entries.any fun n => match s.nodePa w n with | .error .absent => true | _ => false then s.loseWave w else s
    | some n =>
      match s.nodePa w n with
      | .error _ => s
      | .ok pa =>
        match s.waveBlocked w [line] with
        | some t => t
        | none =>
          if w.kind = .gprop then
            match s.roundNode w n pa with
            | .ok t => t
            | .error e => s.stopWave e
          else
          let x := s.sweepBytes w n pa
          let s : State := if x.1.isEmpty then s else s.waveWrite w x.1
          let s : State := if x.2 then s.updRec w fun r => { r with changed := (r.changed + 1) % 2 ^ 64 } else s
          s.updWave w.id fun y => { y with entries := y.entries.filter (· != n) }

/-- BANK_ROW_WRITE (R247): a bank unit writes one line, of a bank command or of a wave's node. -/
def execBankRowWrite (cmd line : Nat) (s : State) : Out :=
  match s.bcmds.find? fun b => b.id == cmd with
  | some c => .next (s.bankLine c line)
  | none =>
    match s.wave cmd with
    | some w => .next (s.waveLine w line)
    | none => .next s

/-- BISNP_RESPONSE (R247): the host that cached a line has given it up. -/
def execBisnpResponse (cmd line : Nat) (s : State) : Out :=
  let asked := (s.bcmds.any fun b => b.id == cmd && b.snooped.contains line) || s.waves.any fun w => w.id == cmd && w.snooped.contains line
  if asked then
    let forget (l : List Nat) : List Nat := l.filter (· != line)
    .next { s with
      hostLines := forget s.hostLines
      bcmds := s.bcmds.map fun b => { b with snooped := forget b.snooped }
      waves := s.waves.map fun w => { w with snooped := forget w.snooped } }
  else .next s

/-- A node's entry as it goes out: index, slot 0 words and their poison (R277, R278). -/
def State.collectNode (s : State) (w : Wave) (n : Nat) : Except BankStop (List (Word × Bool)) :=
  (s.nodePa w n).map fun pa => (List.range 16).map fun e => (s.nodeWord pa (0x40 + 4 * e), s.paPois (pa + 0x40 + 4 * e) 4)

/-- The bytes of a collection's next window entry, with their poison. -/
def entryBytes (n : Nat) (vs : List (Word × Bool)) : List (Byte × Bool) :=
  (bytesLE 4 n).map (fun b => (b, false)) ++ vs.flatMap fun v => (bytesLE 4 v.1.toNat).map fun b => (b, v.2)

/-- The lines that bytes of a collection's range lie in. -/
def Wave.linesAt (w : Wave) (bs : List (Nat × Byte × Bool)) : List Nat :=
  bs.filterMap fun b => match pieceAt w.outTgt b.1 with | some (.mem pa _) => some (lineOf pa) | _ => none

/-- Bytes of a collection written at their targets (R153, R277). It writes word by word, and clean bytes leave a sector's poison mark as it is
(DESIGN CHOICE, log 102). -/
def State.writeEntry (s : State) (w : Wave) (bs : List (Nat × Byte × Bool)) : State :=
  bs.foldl (fun s b =>
    match pieceAt w.outTgt b.1 with
    | none => s
    | some (.mem pa cls) =>
      let s : State := s.writeMarked [(pa, b.2.1, b.2.2)]
      let s : State := if cls = .bank then s else s.noteDirty pa 1 w.part
      if cls = .priv then (s.dropCopies pa).fireWatches (.mem pa cls) 1 else s
    | some (.scratch k c a) => (s.writeMarkedScratch k c [(a, b.2.1, b.2.2)]).fireWatches (.scratch k c a) 1) s

/-- The first byte of a collection's range that it has not written. -/
def Wave.outPos (w : Wave) : Nat := w.pos * (if w.emit1 then 68 else 4)

/-- The pages a collection has still to write, translated again after a shootdown (R277, R345); those it has written stay as they were. -/
def State.retranslateWave (s : State) (w : Wave) : Option (List (Nat × Nat × Target)) :=
  let sys := match s.grp w.uid with | some g => g.system | none => false
  w.outTgt.mapM fun p =>
    match p.2.2 with
    | .scratch _ _ _ => some p
    | .mem _ _ =>
      if p.1 + p.2.1 ≤ w.outPos then some p
      else
      match s.translate w.core w.part sys (w.outVa + p.1) with
      | .ok (pa, e) => if (s.paFault pa 1).isNone && e.cls != .readShared then some (p.1, p.2.1, .mem pa e.cls) else none
      | .error _ => none

/-- A collection after a shootdown; one that has written its entries has no page left to translate. -/
def State.moveWave (s : State) (w : Wave) : State :=
  if w.entries.isEmpty then s.updWave w.id fun x => { x with retranslate := false }
  else
  match s.retranslateWave w with
  | none => s.loseWave w
  | some ps =>
    let lines := pieceLines (ps.filter fun p => match p.2.2 with | .mem _ c => c != .priv | _ => false)
    let others : State := { s with waves := s.waves.filter fun x => x.id != w.id }
    if lines.any fun l => others.owned l || s.lineHeld l then s
    else s.updWave w.id fun x => { x with outTgt := ps, owned := lines, retranslate := false }

/-- COLLECT_PUSH (R277, R278): the next entry of a collection enters its queue when there is room, or its window; a lost queue discards
the rest. -/
def execCollectPush (wave : Nat) (s : State) : Out :=
  match s.wave wave with
  | none => .next s
  | some w =>
    if w.kind != .gcoll || w.st != .running then .next s
    else
      match w.queue with
      | some q =>
        if w.lastPush then .next s
        else if w.qlost then .next (s.updWave wave fun x => { x with entries := [], lastPush := true })
        else if 64 ≤ (s.queue w.gang w.coreIdx q).entries.length then .next s
        else
          let push (e : Entry) (rest : List Nat) (last : Bool) : Out :=
            let t : State := s.updWave wave fun x => { x with entries := rest, lastPush := last }
            .next (t.updQueue w.gang w.coreIdx q fun y => { y with entries := y.entries ++ [e] })
          let ones : Word := BitVec.allOnes 32
          if w.emit1 then
            match w.entries with
            | [] => push { lanes := lanesFrom fun l => if l = 16 then ones else 0#32 } [] true
            | n :: r =>
              match s.collectNode w n with
              | .error .stale => .next s
              | .error .absent => .next (s.loseWave w)
              | .ok vs =>
                let e : Entry :=
                  { lanes := lanesFrom fun l => if l < 16 then (vs.getD l (0#32, false)).1 else if l = 16 then BitVec.ofNat 32 n else 0#32
                    pois := maskOf fun l => decide (l < 16) && (vs.getD l (0#32, false)).2 }
                push e r false
          else
            let now := w.entries.take 32
            let e : Entry := { lanes := lanesFrom fun l => if l < now.length then BitVec.ofNat 32 (now.getD l 0) else ones }
            push e (w.entries.drop 32) (decide (now.length < 32))
      | none =>
        if w.retranslate then .next (s.moveWave w)
        else
          match w.entries with
          | [] => .next s
          | n :: r =>
            match (if w.emit1 then s.collectNode w n else .ok []) with
            | .error .stale => .next s
            | .error .absent => .next (s.loseWave w)
            | .ok vs =>
              let bs := (entryBytes n vs).zipIdx.map fun b => (w.outPos + b.2, b.1.1, b.1.2)
              match (w.linesAt bs).find? fun l => s.bankHolds (256 * l) true with
              | some l => .next (s.demand (256 * l) (wave, l) true)
              | none =>
                let t : State := (w.linesAt bs).foldl (fun t l => t.served (wave, l)) (s.writeEntry w bs)
                .next (t.updWave wave fun x =>
                  { x with entries := r, pos := x.pos + 1, wrote := (w.linesAt bs ++ x.wrote).eraseDups })

end Sys2Proof.Machine
end

