-- ==== Sys2Proof/Machine/Predicate.lean ====
section
/-! DEFINITION. Meanings of the predicate words (R116), of ptest and pclr (R313, R314). -/

namespace Sys2Proof.Machine

/-- PSET (R116): bit l of the scalar. -/
def execPset (d a : Sel) (s : State) : Out :=
  s.word (.pset d a) fun i => do
    let x ← i.count a
    let m ← i.active
    .ok (i.put (.pset d a) d m tRAW (maskLanes (x.at 0)) x.pois)
/-- PGET (R116): the predicate's bits of every lane of the group, active or not. -/
def execPget (d a : Sel) (s : State) : Out :=
  s.word (.pget d a) fun i => do
    let x := i.val a
    let m ← i.active
    .ok (i.put (.pget d a) d m tRAW (lanesAll (nonzeroLanes x.lanes)) (allPois (x.pois != 0#32)))

/-- The predicate logic words' common part (R116). -/
def Issue.predLogic (i : Issue) (ins : Instr) (d a b : Sel) (f : Word → Word → Word) : Except Trap Issue := do
  let x := i.val a
  let y := i.val b
  let m ← i.active
  .ok (i.put ins d m tRAW (maskLanes (f (nonzeroLanes x.lanes) (nonzeroLanes y.lanes))) (x.pois ||| y.pois))

/-- PAND (R116). -/
def execPand (d a b : Sel) (s : State) : Out :=
  s.word (.pand d a b) fun i => i.predLogic (.pand d a b) d a b fun x y => x &&& y
/-- POR (R116). -/
def execPor (d a b : Sel) (s : State) : Out :=
  s.word (.por d a b) fun i => i.predLogic (.por d a b) d a b fun x y => x ||| y
/-- PXOR (R116). -/
def execPxor (d a b : Sel) (s : State) : Out :=
  s.word (.pxor d a b) fun i => i.predLogic (.pxor d a b) d a b fun x y => x ^^^ y
/-- PNOT (R116). -/
def execPnot (d a : Sel) (s : State) : Out :=
  s.word (.pnot d a) fun i => i.predLogic (.pnot d a) d a a fun x _ => ~~~x
/-- PMASK (R116): l < a. -/
def execPmask (d a : Sel) (s : State) : Out :=
  s.word (.pmask d a) fun i => do
    let x ← i.count a
    let m ← i.active
    .ok (i.put (.pmask d a) d m tRAW (maskLanes (maskOf fun l => decide (l < (x.at 0).toNat))) x.pois)

/-- PTEST (R313): the poison of a, without consuming it. -/
def execPtest (d a : Sel) (s : State) : Out :=
  s.word (.ptest d a) fun i => do
    let x := i.val a
    let m ← i.active
    match d with
    | .s n => .ok (i.putUniform n.toNat (x.pois &&& m) false)
    | _ => .ok (i.put (.ptest d a) d m tRAW (maskLanes x.pois) 0#32)

/-- PCLR (R314): poison cleared in the active lanes, data, tags and full bits kept. -/
def execPclr (d : Sel) (s : State) : Out :=
  s.word (.pclr d) fun i => do
    let m ← i.active
    let x := i.val d
    match d with
    | .s n => if m = 0#32 then .ok i else .ok (i.putUniform n.toNat (x.at 0) false)
    | _ =>
      let keep : Nat := x.tag.getD tRAW
      .ok (i.put (.pclr d) d m keep x.lanes 0#32)

end Sys2Proof.Machine
end

