-- ==== Sys2Proof/Machine/SystemWords.lean ====
section
/-! DEFINITION. Meanings of rdsys, wrsys and sigck (R311, R312, R315) at "execute". -/

namespace Sys2Proof.Machine

/-- RDSYS (R311): privilege first (class 18), then a listed register; a scalar is written under R89. -/
def execRdsys (d : Sel) (n : BitVec 16) (s : State) : Out :=
  s.word (.rdsys d n) fun i => do
    if i.g.system = false then .error (i.trap clsPrivilege 0)
    else
      match s.readReg i.g.core n.toNat with
      | none => .error (i.trap clsIllegalOperand 0)
      | some x =>
        let m ← i.active
        .ok (i.put (.rdsys d n) d m tRAW (lanesAll x) 0#32)

/-- WRSYS (R312): privilege here; the register, the poison and the value at "Check". -/
def execWrsys (src : Sel) (n : BitVec 16) (s : State) : Out :=
  s.word (.wrsys src n) fun i => do
    if i.g.system = false then .error (i.trap clsPrivilege 0)
    else
      let x ← i.count src
      let m ← i.active
      .ok (i.capture { ins := .wrsys src n, act := m, desc := [x.at 0], cpois := x.pois != 0#32 })

/-- SIGCK (R315): acts whenever the fragment's mask is not empty, whatever the guard holds. -/
def execSigck (s : State) : Out :=
  s.word .sigck fun i => .ok (i.capture { ins := .sigck, act := i.mask })

end Sys2Proof.Machine
end

