-- ==== Sys2Proof/Machine/UnitWords.lean ====
section
/-! DEFINITION. Meanings of the engine, graph and bank words (R225 to R232, R251 to R256, R288 to R295) at "execute":
descriptors and operands are read from the scene buffer; "Check" and "perform" act on them at the trailer
(Machine/UnitCheck.lean, Machine/UnitPerform.lean). -/

namespace Sys2Proof.Machine

/-- A command with a descriptor in s(4n) to s(4n+3) (R225, R251, R288): it acts once, when some lane is active. -/
def Issue.descWord (i : Issue) (ins : Instr) (n : BitVec 3) : Except Trap Issue := do
  let xs := (List.range 4).map fun k => i.val (.s (BitVec.ofNat 5 (4 * n.toNat + k)))
  let m ← i.active
  .ok (i.capture { ins := ins, act := m, desc := xs.map fun x => x.at 0, cpois := xs.any fun x => x.pois != 0#32 })

/-- A command with scalar operands (R226, R230 to R232, R295). -/
def Issue.scalarWord (i : Issue) (ins : Instr) (ops : List Sel) : Except Trap Issue := do
  let xs ← ops.mapM i.count
  let m ← i.active
  .ok (i.capture { ins := ins, act := m, desc := xs.map fun x => x.at 0, cpois := xs.any fun x => x.pois != 0#32 })

/-- HOP (R226): its value is checked at "Check" (R225). -/
def execHop (h : BitVec 4) (a : Sel) (s : State) : Out := s.word (.hop h a) fun i => i.scalarWord (.hop h a) [a]

/-- WLOAD, STAGE, CHAIN (R227, R228). -/
def execWload (n : BitVec 3) (s : State) : Out := s.word (.wload n) fun i => i.descWord (.wload n) n
def execStage (n : BitVec 3) (s : State) : Out := s.word (.stage n) fun i => i.descWord (.stage n) n
def execChain (n : BitVec 3) (s : State) : Out := s.word (.chain n) fun i => i.descWord (.chain n) n

/-- CMIT and CDISC (R229). -/
def execCmit (c : BitVec 8) (s : State) : Out := s.word (.cmit c) fun i => i.scalarWord (.cmit c) []
def execCdisc (c : BitVec 8) (s : State) : Out := s.word (.cdisc c) fun i => i.scalarWord (.cdisc c) []

/-- QCFG (R230). -/
def execQcfg (q : BitVec 4) (a : Sel) (s : State) : Out := s.word (.qcfg q a) fun i => i.scalarWord (.qcfg q a) [a]

/-- CSTAT (R231): its value is checked at "Check" (R225). -/
def execCstat (d : BitVec 5) (a : Sel) (s : State) : Out := s.word (.cstat d a) fun i => i.scalarWord (.cstat d a) [a]

/-- WFREE (R232). -/
def execWfree (a b : Sel) (s : State) : Out := s.word (.wfree a b) fun i => i.scalarWord (.wfree a b) [a, b]

/-- GBIND, GPROG, GMARK, GPROP, GCOLL, GCLR (R289 to R293). -/
def execGbind (n : BitVec 3) (s : State) : Out := s.word (.gbind n) fun i => i.descWord (.gbind n) n
def execGprog (n : BitVec 3) (s : State) : Out := s.word (.gprog n) fun i => i.descWord (.gprog n) n
def execGmark (n : BitVec 3) (s : State) : Out := s.word (.gmark n) fun i => i.descWord (.gmark n) n
def execGprop (n : BitVec 3) (s : State) : Out := s.word (.gprop n) fun i => i.descWord (.gprop n) n
def execGcoll (n : BitVec 3) (s : State) : Out := s.word (.gcoll n) fun i => i.descWord (.gcoll n) n
def execGclr (n : BitVec 3) (s : State) : Out := s.word (.gclr n) fun i => i.descWord (.gclr n) n

/-- GWAIT (R294): it waits whatever the guard holds (DEDUCED, log 94). -/
def execGwait (t : BitVec 4) (s : State) : Out := s.word (.gwait t) fun i => .ok { i with final := .gwait t }

/-- GSTAT (R295): its tag and its word index are checked at "Check" (R225). -/
def execGstat (d a b : Sel) (s : State) : Out :=
  s.word (.gstat d a b) fun i => i.scalarWord (.gstat d a b) (if kindOf d = .v then [a] else [a, b])

/-- BEXEC, ROWOP, BPAGE (R252, R254, R256). -/
def execBexec (n : BitVec 3) (s : State) : Out := s.word (.bexec n) fun i => i.descWord (.bexec n) n
def execRowop (n : BitVec 3) (s : State) : Out := s.word (.rowop n) fun i => i.descWord (.rowop n) n
def execBpage (d : BitVec 3) (s : State) : Out := s.word (.bpage d) fun i => i.scalarWord (.bpage d) []

end Sys2Proof.Machine
end

