-- ==== Sys2Proof/Machine/Dispatch.lean ====
section
/-! DEFINITION. The dispatch: one arm per row of the opcode table, each one direct call of its meaning. -/

namespace Sys2Proof.Machine

def exec (i : Instr) (s : State) : Host.Outcome State Fault Refusal :=
  match i with
  | .scene l => Sys2Proof.Machine.execScene l s
  | .sceneEnd x y z => Sys2Proof.Machine.execSceneEnd x y z s
  | .jmp f => Sys2Proof.Machine.execJmp f s
  | .call f => Sys2Proof.Machine.execCall f s
  | .jmpr a => Sys2Proof.Machine.execJmpr a s
  | .callr a => Sys2Proof.Machine.execCallr a s
  | .brc p j f => Sys2Proof.Machine.execBrc p j f s
  | .bru p c f => Sys2Proof.Machine.execBru p c f s
  | .exit => Sys2Proof.Machine.execExit s
  | .trap k => Sys2Proof.Machine.execTrap k s
  | .yield => Sys2Proof.Machine.execYield s
  | .brk k => Sys2Proof.Machine.execBrk k s
  | .nop => Sys2Proof.Machine.execNop s
  | .ldi d k => Sys2Proof.Machine.execLdi d k s
  | .ldhi d k => Sys2Proof.Machine.execLdhi d k s
  | .mov d a => Sys2Proof.Machine.execMov d a s
  | .modei d k => Sys2Proof.Machine.execModei d k s
  | .mode a => Sys2Proof.Machine.execMode a s
  | .rdsp d n => Sys2Proof.Machine.execRdsp d n s
  | .wrsp src n => Sys2Proof.Machine.execWrsp src n s
  | .winld w n => Sys2Proof.Machine.execWinld w n s
  | .winsub src d a b => Sys2Proof.Machine.execWinsub src d a b s
  | .rdtag d a => Sys2Proof.Machine.execRdtag d a s
  | .retag d a b => Sys2Proof.Machine.execRetag d a b s
  | .add d a b => Sys2Proof.Machine.execAdd d a b s
  | .sub d a b => Sys2Proof.Machine.execSub d a b s
  | .mul d a b => Sys2Proof.Machine.execMul d a b s
  | .mulhi d a b => Sys2Proof.Machine.execMulhi d a b s
  | .mad d a b => Sys2Proof.Machine.execMad d a b s
  | .min d a b => Sys2Proof.Machine.execMin d a b s
  | .max d a b => Sys2Proof.Machine.execMax d a b s
  | .absd d a b => Sys2Proof.Machine.execAbsd d a b s
  | .and d a b => Sys2Proof.Machine.execAnd d a b s
  | .or d a b => Sys2Proof.Machine.execOr d a b s
  | .xor d a b => Sys2Proof.Machine.execXor d a b s
  | .andn d a b => Sys2Proof.Machine.execAndn d a b s
  | .not d a => Sys2Proof.Machine.execNot d a s
  | .shl d a b => Sys2Proof.Machine.execShl d a b s
  | .shr d a b => Sys2Proof.Machine.execShr d a b s
  | .sar d a b => Sys2Proof.Machine.execSar d a b s
  | .rol d a b => Sys2Proof.Machine.execRol d a b s
  | .fshl d a b => Sys2Proof.Machine.execFshl d a b s
  | .fshr d a b => Sys2Proof.Machine.execFshr d a b s
  | .lut3 d a b => Sys2Proof.Machine.execLut3 d a b s
  | .clz d a => Sys2Proof.Machine.execClz d a s
  | .ffs d a => Sys2Proof.Machine.execFfs d a s
  | .popc d a => Sys2Proof.Machine.execPopc d a s
  | .brev d a => Sys2Proof.Machine.execBrev d a s
  | .bfx d a b => Sys2Proof.Machine.execBfx d a b s
  | .bfi d a b => Sys2Proof.Machine.execBfi d a b s
  | .cmpeq d a b => Sys2Proof.Machine.execCmpeq d a b s
  | .cmpne d a b => Sys2Proof.Machine.execCmpne d a b s
  | .cmplt d a b => Sys2Proof.Machine.execCmplt d a b s
  | .cmple d a b => Sys2Proof.Machine.execCmple d a b s
  | .sel d a b => Sys2Proof.Machine.execSel d a b s
  | .sad d a b => Sys2Proof.Machine.execSad d a b s
  | .fadd d a b => Sys2Proof.Machine.execFadd d a b s
  | .fsub d a b => Sys2Proof.Machine.execFsub d a b s
  | .fmul d a b => Sys2Proof.Machine.execFmul d a b s
  | .fma d a b => Sys2Proof.Machine.execFma d a b s
  | .fmin d a b => Sys2Proof.Machine.execFmin d a b s
  | .fmax d a b => Sys2Proof.Machine.execFmax d a b s
  | .fcmpeq d a b => Sys2Proof.Machine.execFcmpeq d a b s
  | .fcmplt d a b => Sys2Proof.Machine.execFcmplt d a b s
  | .fcmple d a b => Sys2Proof.Machine.execFcmple d a b s
  | .fcmpun d a b => Sys2Proof.Machine.execFcmpun d a b s
  | .fabs d a => Sys2Proof.Machine.execFabs d a s
  | .fneg d a => Sys2Proof.Machine.execFneg d a s
  | .rcp d a => Sys2Proof.Machine.execRcp d a s
  | .rsqrt d a => Sys2Proof.Machine.execRsqrt d a s
  | .sqrt d a => Sys2Proof.Machine.execSqrt d a s
  | .exp2 d a => Sys2Proof.Machine.execExp2 d a s
  | .log2 d a => Sys2Proof.Machine.execLog2 d a s
  | .sinpi d a => Sys2Proof.Machine.execSinpi d a s
  | .cospi d a => Sys2Proof.Machine.execCospi d a s
  | .tanh d a => Sys2Proof.Machine.execTanh d a s
  | .rnd d a => Sys2Proof.Machine.execRnd d a s
  | .frac d a => Sys2Proof.Machine.execFrac d a s
  | .cvt d a => Sys2Proof.Machine.execCvt d a s
  | .dotk d a b => Sys2Proof.Machine.execDotk d a b s
  | .dot4 d a b => Sys2Proof.Machine.execDot4 d a b s
  | .dot2 d a b => Sys2Proof.Machine.execDot2 d a b s
  | .fclass d a b => Sys2Proof.Machine.execFclass d a b s
  | .ldexp d a b => Sys2Proof.Machine.execLdexp d a b s
  | .qshf d a b => Sys2Proof.Machine.execQshf d a b s
  | .qswp d a b => Sys2Proof.Machine.execQswp d a b s
  | .qred d a b => Sys2Proof.Machine.execQred d a b s
  | .shfi d a b => Sys2Proof.Machine.execShfi d a b s
  | .shfx d a b => Sys2Proof.Machine.execShfx d a b s
  | .shfu d a b => Sys2Proof.Machine.execShfu d a b s
  | .shfd d a b => Sys2Proof.Machine.execShfd d a b s
  | .redx d a b => Sys2Proof.Machine.execRedx d a b s
  | .scanx d a b => Sys2Proof.Machine.execScanx d a b s
  | .ballot d a => Sys2Proof.Machine.execBallot d a s
  | .vote d a b => Sys2Proof.Machine.execVote d a b s
  | .matchLanes d a => Sys2Proof.Machine.execMatchLanes d a s
  | .bcst d a b => Sys2Proof.Machine.execBcst d a b s
  | .elect d => Sys2Proof.Machine.execElect d s
  | .pset d a => Sys2Proof.Machine.execPset d a s
  | .pget d a => Sys2Proof.Machine.execPget d a s
  | .pand d a b => Sys2Proof.Machine.execPand d a b s
  | .por d a b => Sys2Proof.Machine.execPor d a b s
  | .pxor d a b => Sys2Proof.Machine.execPxor d a b s
  | .pnot d a => Sys2Proof.Machine.execPnot d a s
  | .pmask d a => Sys2Proof.Machine.execPmask d a s
  | .ldb d a w k => Sys2Proof.Machine.execLdb d a w k s
  | .ldh d a w k => Sys2Proof.Machine.execLdh d a w k s
  | .ldw d a w k => Sys2Proof.Machine.execLdw d a w k s
  | .ldq d a w k => Sys2Proof.Machine.execLdq d a w k s
  | .stb d a w k => Sys2Proof.Machine.execStb d a w k s
  | .sth d a w k => Sys2Proof.Machine.execSth d a w k s
  | .stw d a w k => Sys2Proof.Machine.execStw d a w k s
  | .stq d a w k => Sys2Proof.Machine.execStq d a w k s
  | .faa d a w k => Sys2Proof.Machine.execFaa d a w k s
  | .fmn d a w k => Sys2Proof.Machine.execFmn d a w k s
  | .fmx d a w k => Sys2Proof.Machine.execFmx d a w k s
  | .fand d a w k => Sys2Proof.Machine.execFand d a w k s
  | .fior d a w k => Sys2Proof.Machine.execFior d a w k s
  | .fxor d a w k => Sys2Proof.Machine.execFxor d a w k s
  | .swp d a w k => Sys2Proof.Machine.execSwp d a w k s
  | .cas d a w k => Sys2Proof.Machine.execCas d a w k s
  | .radd d a w k => Sys2Proof.Machine.execRadd d a w k s
  | .rmin d a w k => Sys2Proof.Machine.execRmin d a w k s
  | .rmax d a w k => Sys2Proof.Machine.execRmax d a w k s
  | .ror d a w k => Sys2Proof.Machine.execRor d a w k s
  | .pfl t a w k => Sys2Proof.Machine.execPfl t a w k s
  | .cpy src d a => Sys2Proof.Machine.execCpy src d a s
  | .fence src => Sys2Proof.Machine.execFence src s
  | .bara g p h => Sys2Proof.Machine.execBara g p h s
  | .barw g p h => Sys2Proof.Machine.execBarw g p h s
  | .bars g p h => Sys2Proof.Machine.execBars g p h s
  | .barinit c g p h => Sys2Proof.Machine.execBarinit c g p h s
  | .mwne d a w k => Sys2Proof.Machine.execMwne d a w k s
  | .mwge d a w k => Sys2Proof.Machine.execMwge d a w k s
  | .drain => Sys2Proof.Machine.execDrain s
  | .cwait c => Sys2Proof.Machine.execCwait c s
  | .hop h a => Sys2Proof.Machine.execHop h a s
  | .wload n => Sys2Proof.Machine.execWload n s
  | .stage n => Sys2Proof.Machine.execStage n s
  | .chain n => Sys2Proof.Machine.execChain n s
  | .cmit c => Sys2Proof.Machine.execCmit c s
  | .cdisc c => Sys2Proof.Machine.execCdisc c s
  | .qcfg q a => Sys2Proof.Machine.execQcfg q a s
  | .cstat d a => Sys2Proof.Machine.execCstat d a s
  | .wfree a b => Sys2Proof.Machine.execWfree a b s
  | .gbind n => Sys2Proof.Machine.execGbind n s
  | .gprog n => Sys2Proof.Machine.execGprog n s
  | .gmark n => Sys2Proof.Machine.execGmark n s
  | .gprop n => Sys2Proof.Machine.execGprop n s
  | .gcoll n => Sys2Proof.Machine.execGcoll n s
  | .gclr n => Sys2Proof.Machine.execGclr n s
  | .gwait t => Sys2Proof.Machine.execGwait t s
  | .gstat d a b => Sys2Proof.Machine.execGstat d a b s
  | .bexec n => Sys2Proof.Machine.execBexec n s
  | .rowop n => Sys2Proof.Machine.execRowop n s
  | .bpage d => Sys2Proof.Machine.execBpage d s
  | .tret => Sys2Proof.Machine.execTret s
  | .rdsys d n => Sys2Proof.Machine.execRdsys d n s
  | .wrsys src n => Sys2Proof.Machine.execWrsys src n s
  | .ptest d a => Sys2Proof.Machine.execPtest d a s
  | .pclr d => Sys2Proof.Machine.execPclr d s
  | .sigck => Sys2Proof.Machine.execSigck s
  | .deferredResultLands r => Sys2Proof.Machine.execDeferredResultLands r s
  | .emptyWaitEnd u slot => Sys2Proof.Machine.execEmptyWaitEnd u slot s
  | .stalledPerformResume u slot => Sys2Proof.Machine.execStalledPerformResume u slot s
  | .preemptionRequest gang => Sys2Proof.Machine.execPreemptionRequest gang s
  | .groupResume gang core => Sys2Proof.Machine.execGroupResume gang core s
  | .parkedGroupReady u => Sys2Proof.Machine.execParkedGroupReady u s
  | .ptsSelfIncrement u => Sys2Proof.Machine.execPtsSelfIncrement u s
  | .lineEviction line => Sys2Proof.Machine.execLineEviction line s
  | .homeLoad r k => Sys2Proof.Machine.execHomeLoad r k s
  | .homeStore r k => Sys2Proof.Machine.execHomeStore r k s
  | .homeAtomic pkt => Sys2Proof.Machine.execHomeAtomic pkt s
  | .storeAcknowledge r => Sys2Proof.Machine.execStoreAcknowledge r s
  | .wcSectorTimeout core k => Sys2Proof.Machine.execWcSectorTimeout core k s
  | .gatherWindowExpiry r => Sys2Proof.Machine.execGatherWindowExpiry r s
  | .gatherWake r => Sys2Proof.Machine.execGatherWake r s
  | .agentLineRelease cmd line => Sys2Proof.Machine.execAgentLineRelease cmd line s
  | .copyRetire cmd => Sys2Proof.Machine.execCopyRetire cmd s
  | .fencePerform u => Sys2Proof.Machine.execFencePerform u s
  | .drainComplete u slot => Sys2Proof.Machine.execDrainComplete u slot s
  | .mwaitWatchFire u slot => Sys2Proof.Machine.execMwaitWatchFire u slot s
  | .mwaitPoll u slot => Sys2Proof.Machine.execMwaitPoll u slot s
  | .sequencerIssue cmd => Sys2Proof.Machine.execSequencerIssue cmd s
  | .wloadRetire cmd => Sys2Proof.Machine.execWloadRetire cmd s
  | .wfreeRetire cmd => Sys2Proof.Machine.execWfreeRetire cmd s
  | .engineOutputEntry cmd => Sys2Proof.Machine.execEngineOutputEntry cmd s
  | .stageRetire cmd => Sys2Proof.Machine.execStageRetire cmd s
  | .rehearsalHeld cmd => Sys2Proof.Machine.execRehearsalHeld cmd s
  | .engineBitstepReplay core => Sys2Proof.Machine.execEngineBitstepReplay core s
  | .bankCommandComplete cmd => Sys2Proof.Machine.execBankCommandComplete cmd s
  | .bankRowWrite cmd line => Sys2Proof.Machine.execBankRowWrite cmd line s
  | .demandWaitTimeout bank => Sys2Proof.Machine.execDemandWaitTimeout bank s
  | .bankRefresh bank => Sys2Proof.Machine.execBankRefresh bank s
  | .waveArrival wave => Sys2Proof.Machine.execWaveArrival wave s
  | .gbindApply wave => Sys2Proof.Machine.execGbindApply wave s
  | .waveStart wave => Sys2Proof.Machine.execWaveStart wave s
  | .markerMessage wave k => Sys2Proof.Machine.execMarkerMessage wave k s
  | .weightReturn wave bank => Sys2Proof.Machine.execWeightReturn wave bank s
  | .weightLoan wave bank => Sys2Proof.Machine.execWeightLoan wave bank s
  | .collectPush wave => Sys2Proof.Machine.execCollectPush wave s
  | .launchWatchFire part queue => Sys2Proof.Machine.execLaunchWatchFire part queue s
  | .predecessorRelease launch => Sys2Proof.Machine.execPredecessorRelease launch s
  | .gangPlacement cluster launch core => Sys2Proof.Machine.execGangPlacement cluster launch core s
  | .gangSteal cluster launch victim => Sys2Proof.Machine.execGangSteal cluster launch victim s
  | .clusterClear cluster launch core => Sys2Proof.Machine.execClusterClear cluster launch core s
  | .progressEviction launch => Sys2Proof.Machine.execProgressEviction launch s
  | .launchCompletion launch => Sys2Proof.Machine.execLaunchCompletion launch s
  | .callboardAgeTrigger part ring => Sys2Proof.Machine.execCallboardAgeTrigger part ring s
  | .callboardHoldRelease launch => Sys2Proof.Machine.execCallboardHoldRelease launch s
  | .parkRetry part slot => Sys2Proof.Machine.execParkRetry part slot s
  | .parkDeliver part slot => Sys2Proof.Machine.execParkDeliver part slot s
  | .parkKillGang part slot => Sys2Proof.Machine.execParkKillGang part slot s
  | .quiesce part => Sys2Proof.Machine.execQuiesce part s
  | .rebase part => Sys2Proof.Machine.execRebase part s
  | .teardown part => Sys2Proof.Machine.execTeardown part s
  | .teardownClear part => Sys2Proof.Machine.execTeardownClear part s
  | .shootdownGo part value => Sys2Proof.Machine.execShootdownGo part value s
  | .shootdownDone part => Sys2Proof.Machine.execShootdownDone part s
  | .partidWrite core value => Sys2Proof.Machine.execPartidWrite core value s
  | .ptrootWrite core value => Sys2Proof.Machine.execPtrootWrite core value s
  | .graphctlWrite part r value => Sys2Proof.Machine.execGraphctlWrite part r value s
  | .marginWrite core value => Sys2Proof.Machine.execMarginWrite core value s
  | .ltelimWrite core value => Sys2Proof.Machine.execLtelimWrite core value s
  | .ltewinWrite core value => Sys2Proof.Machine.execLtewinWrite core value s
  | .quarWrite core value => Sys2Proof.Machine.execQuarWrite core value s
  | .healthWrite die value => Sys2Proof.Machine.execHealthWrite die value s
  | .registerWrite reg value => Sys2Proof.Machine.execRegisterWrite reg value s
  | .lateTransitionEvent core => Sys2Proof.Machine.execLateTransitionEvent core s
  | .lteWindowExpiry core => Sys2Proof.Machine.execLteWindowExpiry core s
  | .sliceErrorThreshold die slice => Sys2Proof.Machine.execSliceErrorThreshold die slice s
  | .impreciseError kind slot ord pa => Sys2Proof.Machine.execImpreciseError kind slot ord pa s
  | .understudyCompare u => Sys2Proof.Machine.execUnderstudyCompare u s
  | .dieFailure die => Sys2Proof.Machine.execDieFailure die s
  | .dieLinkFailure die port full => Sys2Proof.Machine.execDieLinkFailure die port full s
  | .thermalGate die => Sys2Proof.Machine.execThermalGate die s
  | .thermalStop die => Sys2Proof.Machine.execThermalStop die s
  | .combineRequestArrival pkt => Sys2Proof.Machine.execCombineRequestArrival pkt s
  | .combineHoldExpiry pkt => Sys2Proof.Machine.execCombineHoldExpiry pkt s
  | .replySplit reply => Sys2Proof.Machine.execReplySplit reply s
  | .recoverReply reply => Sys2Proof.Machine.execRecoverReply reply s
  | .recordExpiry record => Sys2Proof.Machine.execRecordExpiry record s
  | .switchReset die stage switch => Sys2Proof.Machine.execSwitchReset die stage switch s
  | .combtestDisarm die value => Sys2Proof.Machine.execCombtestDisarm die value s
  | .combtestCorruptCopy die value => Sys2Proof.Machine.execCombtestCorruptCopy die value s
  | .combtestLoseRecord die value => Sys2Proof.Machine.execCombtestLoseRecord die value s
  | .combtestResetSwitch die value => Sys2Proof.Machine.execCombtestResetSwitch die value s
  | .rdmaWrite p => Sys2Proof.Machine.execRdmaWrite p s
  | .rdmaRead p => Sys2Proof.Machine.execRdmaRead p s
  | .atomicFetchAdd p => Sys2Proof.Machine.execAtomicFetchAdd p s
  | .invalidRequest p => Sys2Proof.Machine.execInvalidRequest p s
  | .deviceDma q => Sys2Proof.Machine.execDeviceDma q s
  | .pldmMonitoring die => Sys2Proof.Machine.execPldmMonitoring die s
  | .pldmFirmwareUpdate f => Sys2Proof.Machine.execPldmFirmwareUpdate f s
  | .spdmMeasurements => Sys2Proof.Machine.execSpdmMeasurements s
  | .powerOnBoot => Sys2Proof.Machine.execPowerOnBoot s
  | .thermalUngate die => Sys2Proof.Machine.execThermalUngate die s
  | .bisnpResponse cmd line => Sys2Proof.Machine.execBisnpResponse cmd line s
  | .homeLogExpiry entry => Sys2Proof.Machine.execHomeLogExpiry entry s

end Sys2Proof.Machine
end

