-- ==== Sys2Proof/Machine/Run.lean ====
section
/-! DEFINITION. Which agent moves next (log 1): moves named by the agenda, the words of the scene in issue, the machine's own events
that are due, the schedulers' choices (R326). -/

namespace Sys2Proof.Machine

/-- The next word of the scene in issue: a body word, or the trailer. -/
def State.nextWord (s : State) : Option Word := if s.iss.live then some (s.iss.words.getD s.iss.idx 0#32) else none

/-- A word of the scene in issue, decoded and executed; one that decodes to no instruction traps as R36 says. -/
def State.runWord (s : State) (w : Word) : Out :=
  match decodeWord w with
  | .ok i => exec i s
  | .error _ =>
    .next (s.trapScene { cls := if (looseDecode w).isNone then clsIllegalInstr else clsIllegalOperand, idx := s.iss.idx })

/-- A group whose slot holds a fragment that may issue (R25, R326). -/
def Grp.canIssue (g : Grp) (slot : Bool) : Bool :=
  let x := g.slot slot
  g.place == .resident && x.st == .ready && x.hold == .none && !x.busy

/-- Whether a fragment may be chosen now: it can issue, and no pre-emption, park or comparison holds its group back (R27, R308, R361). -/
def State.mayIssue (s : State) (g : Grp) (slot : Bool) : Bool := g.canIssue slot && !s.heldBack g

/-- A fragment is chosen to issue: its group's image lines are in the register cache (R26), its scene header is fetched (R33, R88) and
executed; what is no header traps at index 0 (R36). -/
def State.issueHeader (s : State) (u : Nat) (slot : Bool) : Out :=
  match s.grp u with
  | none => .next s
  | some g =>
    let x := g.slot slot
    if s.iss.live || !s.mayIssue g slot then .next s
    else
    let s : State := s.useImage u
    if x.pc.toNat % 4 ≠ 0 ∨ g.book.codeLen ≤ x.pc.toNat then .next (s.takeTrap u slot (decodeTrap 0) x.pc)
    else
      match s.codeWord g x.mask x.pc with
      | .error (.fault f) => .fault f
      | .error (.trap t) => .next (s.takeTrap u slot t x.pc)
      | .ok w =>
        match decodeWord w with
        | .ok (.scene l) => exec (.scene l) { s with iss := { g := { uid := u }, slot := slot } }
        | _ => .next (s.takeTrap u slot (decodeTrap 0) x.pc)

/-- The fragments of a scheduler's groups that are ready, of handlers or of others (R326). -/
def State.readyIn (s : State) (d : Sched) (h : Bool) : List Grp :=
  (d.rot.filterMap s.grp).filter fun g =>
    (s.mayIssue g false && g.slot0.handler == h) || (s.mayIssue g true && g.slot1.handler == h)

/-- The choice of a scheduler at a scene boundary (R326): a group and its fragment, and whether it is a handler's. -/
def State.schedChoice (s : State) (d : Sched) : Option (Grp × Bool × Bool) :=
  let hs := s.readyIn d true
  let ns := s.readyIn d false
  let h := !hs.isEmpty && (ns.isEmpty || !d.lastH)
  match (if h then hs else ns) with
  | [] => none
  | g :: _ =>
    let ok (slot : Bool) : Bool := s.mayIssue g slot && (g.slot slot).handler == h
    some (g, if ok false && ok true then !g.lastSlot1 else ok true, h)

/-- Whether a fragment that was chosen is held at its header: no scene of it has issued (R48, R192). -/
def State.heldAt (s : State) (u : Nat) (slot : Bool) : Bool :=
  match s.grp u with
  | some g => (g.slot slot).hold == .emptyReg || ((g.slot slot).st == .waiting && (g.slot slot).wait == .fence)
  | none => false

/-- A scheduler issues (R326); on a gated die it lets every other boundary pass (R408). A fragment that its header holds has not issued. -/
def State.schedIssue (s : State) (core k : Nat) : Out :=
  let d : Sched := ((s.core core).scheds[k]?).getD {}
  let put (f : Sched → Sched) (s : State) : State :=
    s.updCore core fun c => { c with scheds := c.scheds.setIfInBounds k (f ((c.scheds[k]?).getD {})) }
  if (s.die (dieOfCore core)).gated && d.gate then .next (put (fun x => { x with gate := false }) s)
  else
    match s.schedChoice d with
    | none => .next s
    | some (g, slot, h) =>
      let back (x : Sched) : List Nat := if x.rot.contains g.uid then x.rot.filter (· != g.uid) ++ [g.uid] else x.rot
      match s.issueHeader g.uid slot with
      | .next t =>
        if t.heldAt g.uid slot then .next (put (fun x => { x with gate := true }) t)
        else .next (put (fun x => { rot := back x, lastH := h, gate := true }) t)
      | o => o

/-- The schedulers that have something to issue, as core * 4 + scheduler, in order. -/
def State.issuers (s : State) : List Nat :=
  s.cores.flatMap fun c => (List.range 4).filterMap fun k =>
    if (s.schedChoice ((c.2.scheds[k]?).getD {})).isSome then some (c.1 * 4 + k) else none

/-- The scheduler that issues next (log 12): the one with the next number after the one that issued last, going round. -/
def State.nextIssuer (s : State) : Option Nat :=
  let least (ks : List Nat) : Option Nat := ks.foldl (fun b k => some (match b with | none => k | some x => min x k)) none
  (least (s.issuers.filter fun k => decide (s.turn < k))).or (least s.issuers)

/-- Events, each under the key of what it is about: a request, a group, a command, a core. -/
abbrev Events := List (Nat × (State → Out))

/-- The events of some things under their keys. -/
def eventsOf {A : Type} (xs : List A) (key : A → Nat) (f : A → List (State → Out)) : Events :=
  xs.flatMap fun x => (f x).map fun e => (key x, e)

/-- Events of requests that may be due. -/
def State.requestMoves (s : State) : Events :=
  eventsOf s.reqs (·.id) fun r =>
    [execGatherWindowExpiry r.id] ++ (List.range r.accs.length).flatMap (fun i => [execHomeLoad r.id i, execHomeStore r.id i])
      ++ [execGatherWake r.id, execDeferredResultLands r.id, execStoreAcknowledge r.id]

/-- Events of packets, replies and results under way that may be due. -/
def State.fabricMoves (s : State) : Events :=
  eventsOf s.status (·.id) (fun p => [execDeferredResultLands p.id])
  ++ eventsOf s.pkts (·.id) (fun p => [execCombineRequestArrival p.id, execCombineHoldExpiry p.id, execHomeAtomic p.id])
  ++ eventsOf s.replies (·.id) (fun r => [execReplySplit r.id, execRecoverReply r.id])
  ++ eventsOf s.recs (·.id) (fun r => [execRecordExpiry r.id])
  ++ eventsOf s.hlogs (·.id) fun h => [execHomeLogExpiry h.id]

/-- Events of copies that may be due, and the agents' stores that wait. -/
def State.copyMoves (s : State) : Events :=
  eventsOf s.cpys (·.id) (fun c => c.owned.map (execAgentLineRelease c.id) ++ [execAgentLineRelease c.id 0, execCopyRetire c.id])
  ++ [(s.fresh, fun s => .next s.serveStall)]

/-- Events of cores that may be due: WC sectors' timeouts, LTE windows. -/
def State.coreMoves (s : State) : Events :=
  eventsOf s.cores (·.1) fun c => (List.range c.2.wc.length).map (execWcSectorTimeout c.1) ++ [execLteWindowExpiry c.1]

/-- Events of a group's fragments that may be due. -/
def State.groupMoves (s : State) : Events :=
  eventsOf s.groups (·.uid) fun g =>
    [execUnderstudyCompare g.uid, execFencePerform g.uid, execParkedGroupReady g.uid, execPtsSelfIncrement g.uid]
      ++ [false, true].flatMap fun i =>
        [execEmptyWaitEnd g.uid i, execStalledPerformResume g.uid i, execDrainComplete g.uid i, execMwaitWatchFire g.uid i,
         execMwaitPoll g.uid i]

/-- The lines at which a bank command, a wave's nodes or a collection may go on. -/
def State.bankLines (s : State) (c : BankCmd) : List Nat :=
  c.todo.map fun off => match s.bankPa c.part c.tab c.z off with | .ok pa => lineOf pa | .error _ => 0
def State.waveLines (s : State) (w : Wave) : List Nat :=
  w.entries.map fun n => match s.nodePa w n with | .ok pa => lineOf pa | .error _ => 0

/-- Events of engines and bank units that may be due. -/
def State.engineMoves (s : State) : Events :=
  eventsOf s.ecmds (·.id) (fun c =>
    [execSequencerIssue c.id, execWloadRetire c.id, execWfreeRetire c.id, execEngineOutputEntry c.id, execRehearsalHeld c.id,
     execStageRetire c.id])
  ++ eventsOf s.bcmds (·.id) fun c => (s.bankLines c).map (execBankRowWrite c.id) ++ [execBankCommandComplete c.id]

/-- Ends of demand waits that may be due. -/
def State.bankMoves (s : State) : Events := eventsOf s.banks (·.1) fun b => [execDemandWaitTimeout b.1]

/-- Events of waves that may be due. -/
def State.waveMoves (s : State) : Events :=
  eventsOf s.waves (·.id) fun w =>
    [execGbindApply w.id, execWaveArrival w.id, execWaveStart w.id, execCollectPush w.id]
      ++ (s.waveLines w).map (execBankRowWrite w.id) ++ w.owned.map (execAgentLineRelease w.id)
      ++ w.msgs.map (fun m => execMarkerMessage w.id m.id)
      ++ w.outbox.map (fun o => execWeightLoan w.id o.1) ++ execWeightReturn w.id 4096 :: w.units.map (fun x => execWeightReturn w.id x.1)

/-- Events of partitions' launch units that may be due. -/
def State.partMoves (s : State) : Events :=
  eventsOf s.parts (·.1) fun p =>
    (List.range 64).map (execLaunchWatchFire p.1) ++ p.2.rings.map (fun r => execCallboardAgeTrigger p.1 r.1)
      ++ [execShootdownDone p.1]

/-- Returns of parked groups that may be due. -/
def State.resumeMoves (s : State) : Events :=
  eventsOf (s.gangs.filter fun g => g.place == .parked) (·.id) fun g => (s.partCores g.part).map (execGroupResume g.id)

/-- Events of launches and their dispatchers that may be due. -/
def State.launchMoves (s : State) : Events :=
  eventsOf (s.launches.filter fun l => !l.complete) (·.id) fun l =>
    [execPredecessorRelease l.id, execLaunchCompletion l.id, execCallboardHoldRelease l.id]
      ++ ((s.partClusters l.part).flatMap fun k => (List.range 8).map fun i => execGangPlacement k l.id (8 * k + i))
      ++ ((s.partClusters l.part).flatMap fun k => (s.partClusters l.part).map fun v => execGangSteal k l.id v)
      ++ ((s.partClusters l.part).flatMap fun k => (List.range 8).map fun i => execClusterClear k l.id (8 * k + i))
      ++ [execProgressEviction l.id]

/-- The machine's own events that may be due, in families (log 1). -/
def State.ownMoves (s : State) : List Events :=
  [s.requestMoves, s.fabricMoves, s.copyMoves, s.coreMoves, s.groupMoves, s.engineMoves, s.bankMoves, s.waveMoves, s.partMoves,
   s.resumeMoves, s.launchMoves]

/-- Whether an event is due: it stops the machine, or it changes the state. -/
def State.due (s : State) (f : State → Out) : Bool :=
  match f s with
  | .next t => decide (t ≠ s)
  | _ => true

/-- The first event of the least key. -/
def Events.least (es : Events) : Option (Nat × (State → Out)) :=
  es.foldl (fun b e => match b with | none => some e | some x => if e.1 < x.1 then some e else b) none

/-- The event of a family that is due next (log 1): after the key that its last one had, else from the start. -/
def State.pick (s : State) (last : Nat) (es : Events) : Option (Nat × (State → Out)) :=
  let due := es.filter fun e => s.due e.2
  (Events.least (due.filter fun e => decide (last < e.1))).or (Events.least due)

/-- The next of the machine's own events (log 1): the families take turns, and in a family the keys; of the requests, the oldest. -/
def State.eventMove (s : State) : Option Out :=
  let fams := s.ownMoves.zipIdx
  let pick (f : Events × Nat) : Option (Nat × Nat × (State → Out)) :=
    (s.pick (if f.2 = 0 then 0 else tget s.evLast f.2 0) f.1).map fun e => (f.2, e)
  ((fams.drop (s.evTurn + 1) ++ fams.take (s.evTurn + 1)).findSome? pick).map fun e =>
    e.2.2 { s with evs := s.evs + 1, evTurn := e.1, evLast := tset s.evLast e.1 e.2.1 }

/-- The event by which an access that waits for its line goes on (R154, R222). -/
def LineWait.event (w : LineWait) (s : State) : Out :=
  match w with
  | .load r i => execHomeLoad r i s
  | .store r i => execHomeStore r i s
  | .atomic p => execHomeAtomic p s
  | .mwait u slot =>
    if ((s.grp u).map fun g => (g.slot slot).watched).getD false then execMwaitWatchFire u slot s else execMwaitPoll u slot s
  | .check u slot => execStalledPerformResume u slot s

/-- The accesses that waited for lines which are free again go on, in the order in which they arrived (R154), before anything else does. -/
def State.waitMove (s : State) : Option Out := (s.lineWaits.find? fun w => s.due w.event).map fun w => w.event s

/-- The next scheduler's choice (R326), if one has something to issue. -/
def State.issueMove (s : State) : Option Out :=
  s.nextIssuer.map fun k => State.schedIssue { s with turn := k, evs := 0 } (k / 4) (k % 4)

/-- The machine's own next move (log 1): the next word of the scene in issue; else an access whose line is free again; else the events that
are due, up to 64 between two choices of schedulers, and a scheduler's choice, so that neither keeps the other waiting for good (R29, R30,
R31); else nothing but the clock. -/
def State.ownMove (s : State) : Out :=
  match s.nextWord with
  | some w => s.runWord w
  | none =>
    match s.waitMove with
    | some o => o
    | none => (if s.evs < 64 then s.eventMove.or s.issueMove else s.issueMove.or s.eventMove).getD (.next s)

/-- Whether an event is a store of a control core: the cores are in reset before boot (R405). -/
def fromControlCore (i : Instr) : Bool :=
  match i with
  | .parkRetry .. | .parkDeliver .. | .parkKillGang .. | .quiesce .. | .rebase .. | .teardown .. | .teardownClear .. | .shootdownGo ..
  | .partidWrite .. | .ptrootWrite .. | .graphctlWrite .. | .marginWrite .. | .ltelimWrite .. | .ltewinWrite .. | .quarWrite ..
  | .healthWrite .. | .registerWrite .. => true
  | _ => false

/-- Whether a move comes from a control core, its software, a device or the network: before boot the package answers none (R405). -/
def Move.needsBoot : Move → Bool
  | .event i => fromControlCore i
  | .packet _ | .dma _ | .hartStore .. | .hartLoad .. | .hartFence .. | .pageList _ | .program .. => true
  | _ => false

/-- A program image installed by the runtime into a partition's slot, with the verification of gprog (R240, R243): one that fails it is
not installed. -/
def State.installProgram (s : State) (part slot : Nat) (image : List Byte) : State :=
  match verifyImage image with
  | .ok p => s.updPart part fun x => { x with progs := tset x.progs (slot % 16) p }
  | .error _ => s

/-- Power goes off and comes back (R405): the machine is as after reset, with what its flash holds; POWER_ON_BOOT then reads it. The clock,
whose value at reset the spec leaves open, runs on (log 3), and the agenda, what was sent out and the model's counters stay; the LTE windows
start then (R374). -/
def State.powerCycle (s : State) : State :=
  { State.reset with clk := s.clk, cores := (List.range Config.cores).map fun c => (c, { winStart := s.clk }), agenda := s.agenda,
                     flash := s.flash, out := s.out, fresh := s.fresh, free := s.free }

/-- One move of the agenda. -/
def State.runMove (s : State) (m : Move) : Out :=
  if m.needsBoot && !s.booted then .next s else
  match m with
  | .own => s.ownMove
  | .packet p => s.servePacket p
  | .dma q => execDeviceDma q s
  | .event i => exec i s
  | .issue u slot => s.issueHeader u slot
  | .wait n => .next { s with clk := s.clk + n }
  | .hartStore h p pa bs => s.hartStore h p pa bs
  | .hartLoad h p pa n => s.hartLoad h p pa n
  | .hartFence _ d => .next (s.hartFence d)
  | .pageList p => .next (s.setPageList p)
  | .program p k bs => .next (s.installProgram p k bs)
  | .powerCycle => .next s.powerCycle
  | .readError t => .next (s.poisonTarget t)
  | .copyError c l k => .next (s.copyError c l k)

/-- The clock's advance over a step (R102). -/
def State.tick (s : State) : State := { s with clk := s.clk + 1 }

/-- The next move: the agenda's first, else the machine's own. -/
def State.move (s : State) : Out :=
  match s.agenda with
  | m :: r => State.runMove { s with agenda := r } m
  | [] => s.ownMove

/-- The partitions whose times have reached the reserve in a step are torn down (R332, R364). -/
def State.lateTeardown (old new : State) : State :=
  (List.range 8).foldl (fun s p =>
    if (new.part p).rebaseLate && !(old.part p).rebaseLate then s.teardownPart p else s) new

/-- A tombstone's layout written to its image slot (R352), as far as its pages translate to memory. -/
def State.saveTomb (s : State) (t : Tombstone) : State :=
  (List.range 8).foldl (fun s k =>
    match s.agentXlate t.part (t.va + 256 * k) with
    | some (pa, _) => if (s.paFault pa 256).isNone then s.writePa pa ((t.bytes.drop (256 * k)).take 256) else s
    | none => s) s

/-- The layouts of the tombstones that a step has made or changed follow it (R352). -/
def State.saveTombs (old new : State) : State :=
  (new.tombs.filter fun t => !old.tombs.contains t).foldl State.saveTomb new

/-- A step's outcome, with the teardowns it sets off, the parks and pre-emptions whose condition it has brought about (R27, R308) and the
tombstones' layouts (R352). -/
def State.settle (old : State) : Out → Out
  | .next t => .next (old.saveTombs (old.lateTeardown t).settleParks.settleGangs)
  | o => o

/-- The code page of the fetch fixture: virtual address 0 at physical address 1 MiB. -/
def fixturePage : TlbEntry := { part := 0, va := 0, ipa := 0x10_0000, pa := 0x10_0000, size := 4096, cls := .readShared, level := 1 }

/-- The prompt book of the fetch fixture. -/
def fixtureBook : Book :=
  { code := 0, codeLen := 4096, nblock := 1, threads := 32, bpg := 1, regs := 128, scratch := 4096, gran := 16, queues := 16,
    wintab := 256, wincount := 16, launchId := 1#64 }

/-- The group of the fetch fixture: 32 lanes at offset 0 (R11, R322). -/
def fixtureGroup (u : Nat) (busy : Bool) : Grp :=
  { uid := u, nGroup := 1, book := fixtureBook, started := BitVec.allOnes 32,
    slot0 := { mask := BitVec.allOnes 32, st := .ready, busy := busy } }

/-- A word placed at the header of a resident group, whose fragment the agenda issues next (log 9). -/
def State.withHeader (s : State) (w : Word) : State :=
  { s with
    agenda := .issue s.fresh false :: s.agenda
    iss := {}
    groups := fixtureGroup s.fresh false :: s.groups
    cores := tset s.cores 0 { s.core 0 with partid := 8#32, ptroot := 1#32, tlb := [fixturePage] }
    mem := writeRun s.mem 0x10_0000 (bytesLE 4 w.toNat)
    fresh := s.fresh + 1 }

/-- A scene in issue whose next word is a given one: a body word at index 1, or the trailer of a scene of one `nop` (log 9). -/
def State.withSceneWord (s : State) (w : Word) (trailer : Bool) : State :=
  let x := fixtureGroup s.fresh true
  let nop : Word := 0x0D000000#32
  let words : List Word := if trailer then [0x01080000#32, nop, w] else [0x01080000#32, w, 0x02FFFFFF#32]
  { s with
    agenda := []
    iss := { live := true, g := x, idx := if trailer then 2 else 1, words := words, mask := BitVec.allOnes 32, g0 := x }
    groups := x :: s.groups
    fresh := s.fresh + 1 }

end Sys2Proof.Machine
end

