-- ==== Sys2Proof/Machine/Step.lean ====
section
/-! DEFINITION. One step of the machine, and an instruction placed where the next step fetches it. -/

namespace Sys2Proof.Machine

/-- One step: the clock advances, the next agent moves, and partitions whose times ran out are torn down. -/
def step (s : State) : Host.Outcome State Fault Refusal := State.settle s s.tick.move

/-- An instruction word placed where the next step fetches: a scene header in memory at the PC of a fragment that issues next, any
other word in the scene in issue (log 9). Instructions have one word of 32 bits. -/
def State.withFetchWord (s : State) (_nbits w : Nat) : State :=
  let x : Word := BitVec.ofNat 32 w
  if w / 2 ^ 24 % 256 = 1 then s.withHeader x else s.withSceneWord x (w / 2 ^ 24 % 256 == 2)

end Sys2Proof.Machine
end

