-- ==== Sys2Proof/WellFormed.lean ====
section
/-! DEFINITION. Well-formed instructions: words that pass the checks of R36 that need no state, and events. -/

namespace Sys2Proof

/-- A well-formed instruction: an event, or a word with legal operand kinds (R38, R39) and limits (R36 check 6). -/
def WellFormed (i : Instr) : Bool := !Machine.isWord i || Machine.legal i

end Sys2Proof
end

