-- ==== Sys2Proof/Certificates/Slice0/Obligations.lean ====
section
/-! DEFINITION. The statements of this row. The words they share come first: what it is for a body word to stand next in the
scene in issue, the operands it reads, and the state it leaves. -/

namespace Sys2Proof.Claim

open Sys2Proof.Machine

/-- A body word that the decode checks accept stands next in the scene in issue (R36, R37). -/
structure AtWord (s : State) (i : Instr) : Prop where
  live : s.iss.live = true
  body : s.iss.phase = .body
  kinds : legal i = true
  regs : fitsRegs s.iss.g.book.regs i = true

/-- No lane of the fragment's mask has a poisoned guard (R50). -/
def GuardClean (s : State) : Prop := s.iss.guard.pois &&& s.iss.mask = 0#32

/-- The active lanes: those of the fragment's mask whose bit of the guard is set (R12). -/
def acting (s : State) : Word := s.iss.mask &&& s.iss.guard.val

/-- The state after a body word: the scene buffer as given, the next word next, all else as before. -/
def went (s : State) (j : Issue) : State := { s with iss := { j with idx := s.iss.idx + 1 } }

/-- The state after a word wrote a result in the lanes of m: what "written" means is the subject of the statements
ResultPlaces and ResultLeavesRest. -/
def wrote (s : State) (i : Instr) (d : Sel) (m : Word) (tag : Nat) (x : Lanes) (p : Word) : State :=
  went s (s.iss.put i d m tag x p)

/-- The state after a word left an effect for the "Check" and "perform" steps (R37, R51). -/
def captured (s : State) (o : SOp) : State := went s (s.iss.capture o)

/-- The operands of a two-source word of effective type e, tag-checked, with values x and y (R41, R46). -/
structure Two (s : State) (a b : Sel) (e : Nat) (x y : Val) : Prop where
  guard : GuardClean s
  type : s.iss.etype a = .ok e
  tags : s.iss.checkTags e [a, b] = .ok ()
  srcA : s.iss.src e a = .ok x
  srcB : s.iss.src e b = .ok y

/-- The operands of a two-source word that checks no tags; b stands in a count position where cnt holds (R42). -/
structure TwoLoose (s : State) (cnt : Bool) (a b : Sel) (e : Nat) (x y : Val) : Prop where
  guard : GuardClean s
  type : s.iss.etype a = .ok e
  srcA : s.iss.src e a = .ok x
  srcB : (if cnt then s.iss.count b else s.iss.src e b) = .ok y

/-- The operand of a one-source word of effective type e; tag-checked where chk holds. -/
structure One (s : State) (chk : Bool) (a : Sel) (e : Nat) (x : Val) : Prop where
  guard : GuardClean s
  type : s.iss.etype a = .ok e
  tags : chk = true → s.iss.checkTags e [a] = .ok ()
  srcA : s.iss.src e a = .ok x

/-- A per-lane result computed element by element from two sources. -/
def lanes2 (e : Nat) (x y : Val) (f : Nat → Nat → Nat) : Lanes := lanesFrom fun l => elems2 e (x.at l) (y.at l) f

/-- A per-lane result computed element by element from three sources. -/
def lanes3 (e : Nat) (x y z : Val) (f : Nat → Nat → Nat → Nat) : Lanes :=
  lanesFrom fun l => elems3 e (x.at l) (y.at l) (z.at l) f

/-- A per-lane result computed element by element from one source. -/
def lanes1 (e : Nat) (x : Val) (f : Nat → Nat) : Lanes := lanesFrom fun l => elems1 e (x.at l) f

/-- The two-source integer words of R109 that check tags, each with its element function. -/
def integerWords (mode : Word) (e : Nat) (d a b : Sel) : List (Instr × (Nat → Nat → Nat)) :=
  [(.add d a b, fun x y => fitInt (modeSat mode) e (elemInt e x + elemInt e y)),
   (.sub d a b, fun x y => fitInt (modeSat mode) e (elemInt e x - elemInt e y)),
   (.mul d a b, fun x y => fitInt (modeSat mode) e
      (if e = tFX then roundInt (modeRm mode) (elemInt e x * elemInt e y) 16 else elemInt e x * elemInt e y)),
   (.min d a b, fun x y => if elemInt e y < elemInt e x then y else x),
   (.max d a b, fun x y => if elemInt e x < elemInt e y then y else x),
   (.absd d a b, fun x y => fitInt (modeSat mode) e ((elemInt e x - elemInt e y).natAbs : Int))]

/-- The two-source logic words of R109. -/
def logicWords (d a b : Sel) : List (Instr × (Word → Word → Word)) :=
  [(.and d a b, fun x y => x &&& y), (.or d a b, fun x y => x ||| y), (.xor d a b, fun x y => x ^^^ y),
   (.andn d a b, fun x y => x &&& ~~~y)]

/-- The shifts and the rotate of R109: the element x by n, the amount modulo the element width w. -/
def shiftWords (d a b : Sel) : List (Instr × (Nat → Nat → Nat → Nat)) :=
  [(.shl d a b, fun w n x => x * 2 ^ n % 2 ^ w), (.shr d a b, fun _ n x => x / 2 ^ n),
   (.sar d a b, fun w n x => (((if 2 ^ (w - 1) ≤ x then (x : Int) - 2 ^ w else x) / 2 ^ n) % 2 ^ w).toNat),
   (.rol d a b, fun w n x => x * 2 ^ n % 2 ^ w + x / 2 ^ (w - n))]

/-- The bit counts and the bit reversal of R109 on an element of width w. -/
def bitWords (d a : Sel) : List (Instr × (Nat → Nat → Nat)) :=
  [(.clz d a, fun w x => if x = 0 then w else w - 1 - Nat.log2 x),
   (.ffs d a, fun w x => ((List.range w).find? fun k => x / 2 ^ k % 2 == 1).getD w),
   (.popc d a, fun w x => ((List.range w).filter fun k => x / 2 ^ k % 2 == 1).length),
   (.brev d a, fun w x => (List.range w).foldl (fun acc k => 2 * acc + x / 2 ^ k % 2) 0)]

/-- The compares of R113 and R121 with their types and the relation of two elements. -/
def compareWords (fm : FMode) (e : Nat) (d a b : Sel) : List (Instr × Bool × (Nat → Nat → Bool)) :=
  [(.cmpeq d a b, setA e, fun x y => x == y), (.cmpne d a b, setA e, fun x y => x != y),
   (.cmplt d a b, setA e, fun x y => decide (elemInt e x < elemInt e y)),
   (.cmple d a b, setA e, fun x y => decide (elemInt e x ≤ elemInt e y)),
   (.fcmpeq d a b, setFF8 e, fun x y => (fm.get e x).eqv (fm.get e y)),
   (.fcmplt d a b, setFF8 e, fun x y => (fm.get e x).lt (fm.get e y)),
   (.fcmple d a b, setFF8 e, fun x y => (fm.get e x).lt (fm.get e y) || (fm.get e x).eqv (fm.get e y)),
   (.fcmpun d a b, setFF8 e, fun x y => (fm.get e x).isNan || (fm.get e y).isNan)]

/-- The two-source floating-point words of R119 and R120 with their element functions. -/
def floatWords (fm : FMode) (e : Nat) (d a b : Sel) : List (Instr × (Nat → Nat → Nat)) :=
  [(.fadd d a b, fun x y => fm.sum e [fm.get e x, fm.get e y]),
   (.fsub d a b, fun x y => fm.sum e [fm.get e x, (fm.get e y).negate]),
   (.fmul d a b, fun x y => (fmtOf e).ofVal fm.rm fm.ftz fm.sat ((fm.get e x).mul (fm.get e y))),
   (.fmin d a b, fun x y => fm.minMax false e x y), (.fmax d a b, fun x y => fm.minMax true e x y)]

/-- The transcendental words of R123. -/
def tranWords (d a : Sel) : List (Instr × Tran) :=
  [(.rcp d a, .rcp), (.rsqrt d a, .rsqrt), (.sqrt d a, .sqrt), (.exp2 d a, .exp2), (.log2 d a, .log2), (.sinpi d a, .sinpi),
   (.cospi d a, .cospi), (.tanh d a, .tanh)]

/-- The loads of R157 and R158. -/
def loadWords (d a : Sel) (w : BitVec 3) (k : BitVec 5) : List Instr := [.ldb d a w k, .ldh d a w k, .ldw d a w k, .ldq d a w k]

/-- The stores of R159 with the registers each reads. -/
def storeWords (d a : Sel) (w : BitVec 3) (k : BitVec 5) : List (Instr × Nat) :=
  [(.stb d a w k, 1), (.sth d a w k, 1), (.stw d a w k, 1), (.stq d a w k, 4)]

/-- The atomics of R160 and the reductions of R165 with the registers each reads. -/
def atomicWords (d a : Sel) (w : BitVec 3) (k : BitVec 5) : List (Instr × Nat) :=
  [(.faa d a w k, 1), (.fmn d a w k, 1), (.fmx d a w k, 1), (.fand d a w k, 1), (.fior d a w k, 1), (.fxor d a w k, 1),
   (.swp d a w k, 1), (.cas d a w k, 2), (.radd d a w k, 1), (.rmin d a w k, 1), (.rmax d a w k, 1), (.ror d a w k, 1)]

/-- The words with a descriptor (R225, R251, R288). -/
def descriptorWords (n : BitVec 3) : List Instr :=
  [.wload n, .stage n, .chain n, .gbind n, .gprog n, .gmark n, .gprop n, .gcoll n, .gclr n, .bexec n, .rowop n]

/-- The commands without operands at "execute". -/
def plainCommands (c : BitVec 8) (d : BitVec 3) : List Instr := [.cmit c, .cdisc c, .bpage d]

/-- The barrier words of R172: whether each arrives and whether it waits. -/
def barrierWords (g : BitVec 1) (p : BitVec 2) (h : BitVec 4) : List (Instr × Bool × Bool) :=
  [(.bara g p h, true, false), (.barw g p h, false, true), (.bars g p h, true, true)]

/-- The group of a scene, resident with its image in the register cache, and one fragment alone: in slot 0, at no join, in no split,
with no twin and no trap still to be taken (R13, R18, R26, R308). -/
structure Alone (s : State) (i : Issue) (g : Grp) : Prop where
  found : s.grp i.g.uid = some g
  place : g.place = .resident
  cached : g.cached = true
  ready : g.slot0.st = .ready
  mask : g.slot0.mask = i.mask
  join : g.slot0.join = Config.noJoin
  other : g.slot1.st = .empty
  stack : g.stack = []
  twin : g.twin = none
  free : g.slot0.hold = .none ∧ g.slot1.hold = .none

/-- Every group's image stands in a register cache: none has been evicted, parked by a trap or pushed out to memory (R26, R27, R343). -/
def AllCached (s : State) : Prop := ∀ g ∈ s.groups, g.cached = true

/-- The group with its fragment in slot 0 ready at an address. -/
def movedTo (g : Grp) (pc : Word) : Grp := { g with slot0 := { g.slot0 with pc := pc, st := .ready, busy := false } }

/-- The group with its fragment in slot b ready at an address. -/
def sentTo (g : Grp) (b : Bool) (pc : Word) : Grp := g.updSlot b fun x => { x with pc := pc, st := .ready, busy := false }

/-- The fragment in slot b does not stop at an address (R16): the address is not its join, or a handler runs there (R309); and the other
slot's fragment stands at no join of its own. -/
structure GoesOn (g : Grp) (b : Bool) (pc : Word) : Prop where
  away : (g.slot b).join = Config.noJoin ∨ pc ≠ (g.slot b).join ∨ (g.slot b).handler = true
  other : (g.slot (!b)).atEnd = false

/-- The fragment in slot b reaches its join at pc with nothing held (R16); the other slot's fragment is at no new join. -/
structure Joins (g : Grp) (b : Bool) (pc : Word) : Prop where
  there : pc = (g.slot b).join
  join : (g.slot b).join ≠ Config.noJoin
  plain : (g.slot b).handler = false ∧ (g.slot b).hold = .none
  other : (g.slot (!b)).atEnd = false

/-- The group with the fragment in slot b past its wait (R30): ready where it stands. -/
def released (g : Grp) (b : Bool) : Grp :=
  g.updSlot b fun x =>
    { x with st := .ready, wait := .none, warg := 0#32, waddr := 0#57, wspace := 0#2, watched := false, fired := false, wcmds := [], due := 0 }

/-- The slot of a fragment that its wait at a join has left (R18). -/
def awake (x : Slot) : Slot := if x.st = .atJoin then { x with st := .ready } else x

/-- A commit-time word of a group with no fence, no comparison and no twin is performed (R37, R361). -/
structure Performs (s : State) (i : Issue) (o : SOp) (g : Grp) : Prop where
  found : s.grp i.g.uid = some g
  acts : o.act ≠ 0#32
  fence : g.fence = none
  points : g.points = []
  twin : g.twin = none

/-- The place that an address of a space names (R141): the core's scratchpad, the gang's, or memory at its translation. -/
def Reaches (s : State) (g : Grp) (space va : Nat) (t : Target) : Prop :=
  (space = 1 ∧ t = .scratch g.gang g.coreIdx va)
    ∨ (space = 2 ∧ t = .scratch g.gang (va / g.book.scratch) (va % g.book.scratch))
    ∨ (space ≠ 1 ∧ space ≠ 2 ∧ ∃ pa e, s.translate g.core g.part g.system va = .ok (pa, e) ∧ t = .mem pa e.cls)

/-- The causes of REPLACE in a HEALTH word (R380): more than 8 quarantined cores, more than 4 retired slices, more than 32 failed banks, a
link lost, a die lost, and a count of slices or of banks that saturates. -/
def replaces (h : Word) : List Prop :=
  [8 < bits h 7 0, 4 < bits h 12 8, 32 < bits h 20 13, bitOf h 25 = true, bitOf h 26 = true, bits h 12 8 = 31, bits h 20 13 = 255]

/-- A cause of REPLACE that did not hold in one HEALTH word holds in another. -/
def newlyReplaces (old new : Word) : Prop := ∃ k < 7, ¬((replaces old).getD k False) ∧ (replaces new).getD k False

/-- What R411 keeps of a group: two fragments have the same join; beside an empty slot the stack is empty and the fragment has no join; the
stack holds fragments only, at most 64 (R14). -/
def Paired (g : Grp) : Prop :=
  (g.slot0.st ≠ .empty → g.slot1.st ≠ .empty → g.slot0.join = g.slot1.join)
    ∧ (g.slot0.st = .empty → g.stack = [] ∧ g.slot0.join = Config.noJoin ∧ g.slot1.join = Config.noJoin)
    ∧ (g.slot1.st = .empty → g.stack = [] ∧ g.slot0.join = Config.noJoin ∧ g.slot1.join = Config.noJoin)
    ∧ (∀ x ∈ g.stack, x.st ≠ .empty) ∧ g.stack.length ≤ 64

/-- The words that the guard does not govern (R12, R50): control words, nop, MODE's words, wrsp, barrier and wait words, sigck; the framing
words; and sel, which the guard steers. -/
def unguarded (i : Instr) : Bool :=
  match i with
  | .jmp _ | .call _ | .jmpr _ | .callr _ | .brc _ _ _ | .bru _ _ _ | .exit | .trap _ | .yield | .brk _ | .nop | .modei _ _ | .mode _
  | .wrsp _ _ | .bara _ _ _ | .barw _ _ _ | .bars _ _ _ | .mwne _ _ _ _ | .mwge _ _ _ _ | .drain | .cwait _ | .gwait _ | .tret | .sigck
  | .sel _ _ _ | .scene _ | .sceneEnd _ _ _ => true
  | _ => false

/-- Words of the spec's tables, each with the instruction that stands beside it there. -/
def manualWords : List (Word × Instr) :=
  [(0x01280000#32, .scene 5#5), (0x0202FFFF#32, .sceneEnd 0x02#8 0xFF#8 0xFF#8), (0x04FFFFC0#32, .call 0xFFFFC0#24),
   (0x05008500#32, .jmpr (.s 5#5)), (0x07609008#32, .brc 3#3 18#10 8#11), (0x08900003#32, .bru 4#3 2#2 3#19),
   (0x0A00002A#32, .trap 42#16), (0x10820FDB#32, .ldi (.s 2#5) 0x0FDB#16), (0x12098300#32, .mov (.v 9#7) (.s 3#5)),
   (0x16840013#32, .wrsp (.s 4#5) 19#16), (0x18138485#32, .winsub 1#3 3#3 (.s 4#5) (.s 5#5)),
   (0x1A0604CC#32, .retag (.v 6#7) (.v 4#7) (.k 12#6)), (0x200304C5#32, .add (.v 3#7) (.v 4#7) (.k 5#6)),
   (0x2B020203#32, .andn (.v 2#7) (.v 2#7) (.v 3#7)), (0x33050607#32, .lut3 (.v 5#7) (.v 6#7) (.v 7#7)),
   (0x3CB100CC#32, .cmplt (.p 1#3) (.v 0#7) (.k 12#6)), (0x3F090102#32, .sad (.v 9#7) (.v 1#7) (.v 2#7)),
   (0x420504F1#32, .fmul (.v 5#7) (.v 4#7) (.k 49#6)), (0x4C020300#32, .rcp (.v 2#7) (.v 3#7)),
   (0x56040300#32, .cvt (.v 4#7) (.v 3#7)), (0x57090204#32, .dotk (.v 9#7) (.v 2#7) (.v 4#7)),
   (0x60010203#32, .qshf (.v 1#7) (.v 2#7) (.v 3#7)), (0x678002C0#32, .redx (.s 0#5) (.v 2#7) (.k 0#6)),
   (0x6DB40000#32, .elect (.p 4#3)), (0x70B28100#32, .pset (.p 2#3) (.s 1#5)), (0x82020543#32, .ldw (.v 2#7) (.v 5#7) 2#3 3#5),
   (0x87088280#32, .stq (.v 8#7) (.s 2#5) 4#3 0#5), (0x8F060140#32, .cas (.v 6#7) (.v 1#7) 2#3 0#5),
   (0x90038140#32, .radd (.v 3#7) (.s 1#5) 2#3 0#5), (0xA2008012#32, .barw 1#1 1#2 2#4),
   (0xA6C1C040#32, .mwge (.k 1#6) (.k 0#6) 2#3 0#5), (0xB003C800#32, .hop 3#4 (.k 8#6)), (0xB2008C00#32, .stage 3#3),
   (0xB6A0C500#32, .qcfg 0#4 (.k 5#6)), (0xC5008800#32, .gclr 2#3), (0xC798C5C8#32, .gstat (.s 24#5) (.k 5#6) (.k 8#6)),
   (0xCA030000#32, .bpage 3#3), (0xD0000000#32, .tret), (0xD2C80018#32, .wrsys (.k 8#6) 0x18#16),
   (0xD3B20500#32, .ptest (.p 2#3) (.v 5#7))]

end Sys2Proof.Claim

open Sys2Proof Sys2Proof.Machine Sys2Proof.Claim

/-- R12, R20, R46, R49: a result written to a v register or a temporary reaches the lanes of m, with its tag when m has a lane; every other
lane keeps its value and poison, and the register keeps its full/empty state. The scene buffer records what the scene has written, for the
commit: the lanes of each v register and predicate, whether it wrote the tag, each scalar. R38, R89: a result written to a scalar is the value of
the lowest lane of m, and nothing when m has no lane; a result written to a predicate p1 to p7 sets the lanes of m whose value
is not 0 and clears the others of m; p0 discards it. R39: a result written to a q selector is one push for commit: 32 lanes, 0
with clear poison where the word does not act; no register changes. -/
def Obligations.ResultPlaces : Prop :=
  (∀ (i : Issue) (ins : Instr) (n : BitVec 7) (m : Word) (tag : Nat) (x : Lanes) (p : Word),
     let r := (i.put ins (.v n) m tag x p).g.vreg n.toNat
     (∀ l < 32, laneAt r.lanes l = if m.getLsbD l then laneAt x l else laneAt (i.g.vreg n.toNat).lanes l)
       ∧ (∀ l < 32, r.pois.getLsbD l = if m.getLsbD l then p.getLsbD l else (i.g.vreg n.toNat).pois.getLsbD l)
       ∧ r.tag = (if m = 0#32 then (i.g.vreg n.toNat).tag else BitVec.ofNat 4 tag)
       ∧ r.full = (i.g.vreg n.toNat).full)
    ∧ (∀ (i : Issue) (ins : Instr) (m : Word) (tag : Nat) (x : Lanes) (p : Word),
         (∀ n : BitVec 5, m ≠ 0#32 →
             ((i.put ins (.s n) m tag x p).g.sreg n.toNat).val = laneAt x (lowLane m)
               ∧ ((i.put ins (.s n) m tag x p).g.sreg n.toNat).pois = p.getLsbD (lowLane m))
           ∧ (∀ n : BitVec 5, m = 0#32 → i.put ins (.s n) m tag x p = i)
           ∧ (∀ n : BitVec 3, n ≠ 0#3 → ∀ l < 32,
               ((i.put ins (.p n) m tag x p).g.preg n.toNat).val.getLsbD l
                   = (if m.getLsbD l then laneAt x l != 0#32 else (i.g.preg n.toNat).val.getLsbD l)
                 ∧ ((i.put ins (.p n) m tag x p).g.preg n.toNat).pois.getLsbD l
                   = (if m.getLsbD l then p.getLsbD l else (i.g.preg n.toNat).pois.getLsbD l))
           ∧ (i.put ins (.p 0#3) m tag x p).g = i.g)
    ∧ (∀ (i : Issue) (ins : Instr) (n : BitVec 4) (m : Word) (tag : Nat) (x : Lanes) (p : Word),
         i.put ins (.q n) m tag x p =
           { i with ops := i.ops ++ [{ idx := i.idx, ins := ins, act := m, mode := i.mode,
                                       data := [lanesFrom fun l => if m.getLsbD l then laneAt x l else 0#32], dpois := p &&& m }] })
    ∧ (∀ (i : Issue) (ins : Instr) (n : BitVec 3) (m : Word) (tag : Nat) (x : Lanes) (p : Word),
         let j := i.put ins (.t n) m tag x p
         let r := (j.t[n.toNat]?).getD {}
         let old := (i.t[n.toNat]?).getD {}
         (∀ l < 32, laneAt r.lanes l = if m.getLsbD l then laneAt x l else laneAt old.lanes l)
           ∧ (∀ l < 32, r.pois.getLsbD l = if m.getLsbD l then p.getLsbD l else old.pois.getLsbD l)
           ∧ r.tag = (if m = 0#32 then old.tag else BitVec.ofNat 4 tag) ∧ r.full = old.full ∧ j.g = i.g)
    ∧ (∀ (i : Issue) (ins : Instr) (d : Sel) (m : Word) (tag : Nat) (x : Lanes) (p : Word),
         let j := i.put ins d m tag x p
         (∀ k : BitVec 7, (j.vmask[k.toNat]?).getD 0#32 = (i.vmask[k.toNat]?).getD 0#32 ||| (if d = .v k then m else 0#32)
             ∧ (j.vtagged[k.toNat]?).getD false = ((i.vtagged[k.toNat]?).getD false || decide (d = .v k ∧ m ≠ 0#32)))
           ∧ (∀ k : BitVec 5, (j.swrote[k.toNat]?).getD false = ((i.swrote[k.toNat]?).getD false || decide (d = .s k ∧ m ≠ 0#32)))
           ∧ (∀ k : BitVec 3, k ≠ 0#3 →
               (j.pmask[k.toNat]?).getD 0#32 = (i.pmask[k.toNat]?).getD 0#32 ||| (if d = .p k then m else 0#32)))
    ∧ (∀ (i : Issue) (n : BitVec 5) (x : Word) (p : Bool),
         let j := i.putUniform n.toNat x p
         (j.g.sreg n.toNat).val = x ∧ (j.g.sreg n.toNat).pois = p ∧ (j.g.sreg n.toNat).full = (i.g.sreg n.toNat).full
           ∧ (j.swrote[n.toNat]?).getD false = true ∧ (∀ k : BitVec 5, k ≠ n → j.g.sreg k.toNat = i.g.sreg k.toNat)
           ∧ j.g.v = i.g.v ∧ j.g.p = i.g.p ∧ j.ops = i.ops)

/-- R12, R20: the frame of a result: every register of the scene buffer but the destination, the windows, hops, bindings and every
other part of the group, MODE, the final word and the temporaries (for a destination that is none) stay as they were. -/
def Obligations.ResultLeavesRest : Prop :=
  ∀ (i : Issue) (ins : Instr) (d : Sel) (m : Word) (tag : Nat) (x : Lanes) (p : Word),
    let j := i.put ins d m tag x p
    (∀ k : BitVec 7, d ≠ .v k → j.g.vreg k.toNat = i.g.vreg k.toNat)
      ∧ (∀ k : BitVec 5, d ≠ .s k → j.g.sreg k.toNat = i.g.sreg k.toNat)
      ∧ (∀ k : BitVec 3, d ≠ .p k → j.g.preg k.toNat = i.g.preg k.toNat)
      ∧ (∀ k : BitVec 3, d ≠ .t k → j.t[k.toNat]? = i.t[k.toNat]?)
      ∧ j.g = { i.g with v := j.g.v, s := j.g.s, p := j.g.p }
      ∧ j.mode = i.mode ∧ j.final = i.final ∧ j.mask = i.mask ∧ j.words = i.words ∧ j.pc = i.pc ∧ j.slot = i.slot
      ∧ ((∀ k, d ≠ .q k) → j.ops = i.ops)

/-- R109: add, sub, mul, min, max and absd complete and write, in the active lanes, tag E and their element functions of the two
sources, with their poison. R109: mulhi writes the high half of the exact product, and mad the sum x · y + z with the range rule
applied once, z read from d. R115: sad adds the sum of the absolute differences of the elements to the 32-bit accumulator d of
type C, with tag C. -/
def Obligations.IntegerWordsWrite : Prop :=
  (∀ (s : State) (d a b : Sel) (e : Nat) (x y : Val), Two s a b e x y → setA e = true →
     ∀ w ∈ integerWords s.iss.mode e d a b, AtWord s w.1 →
       exec w.1 s = .next (wrote s w.1 d (acting s) e (lanes2 e x y w.2) (x.pois ||| y.pois)))
    ∧ (∀ (s : State) (d a b : Sel) (e : Nat) (x y : Val), Two s a b e x y →
         (setZ e = true → AtWord s (.mulhi d a b) →
             exec (.mulhi d a b) s = .next (wrote s (.mulhi d a b) d (acting s) e
               (lanes2 e x y fun x y => fitInt false e (elemInt e x * elemInt e y / 2 ^ widthOf e)) (x.pois ||| y.pois)))
           ∧ (setA e = true → s.iss.checkTag e d = .ok () → AtWord s (.mad d a b) →
             exec (.mad d a b) s = .next (wrote s (.mad d a b) d (acting s) e
               (lanes3 e x y (s.iss.val d) fun x y z => fitInt (modeSat s.iss.mode) e
                 (scaleProd s.iss.mode e (elemInt e x * elemInt e y + elemInt e z * (if e = tFX then 65536 else 1))))
               (x.pois ||| y.pois ||| (s.iss.val d).pois))))
    ∧ (∀ (s : State) (d a b : Sel) (e : Nat) (x y : Val), Two s a b e x y → setA e = true →
         let c := if e = tFX then tFX else if e = tI32 ∨ e = tI16 ∨ e = tI8 then tI32 else tN32
         s.iss.checkTag c d = .ok () → AtWord s (.sad d a b) →
         exec (.sad d a b) s = .next (wrote s (.sad d a b) d (acting s) c
           (lanesFrom fun l => BitVec.ofNat 32 (fitInt (modeSat s.iss.mode) c
             (((List.range (countOf e)).map fun k =>
                 ((elemInt e (elemAt (x.at l) (widthOf e) k) - elemInt e (elemAt (y.at l) (widthOf e) k)).natAbs : Int)).sum
               + intOf c 32 ((s.iss.val d).at l).toNat)))
           (x.pois ||| y.pois ||| (s.iss.val d).pois)))

/-- R68: an exact result outside an integer or FX32 type's range becomes its value modulo 2^w when MODE.SAT is 0 and the nearest
bound when it is 1; one inside the range is itself. -/
def Obligations.RangeRule : Prop :=
  ∀ (e : Nat) (v : Int), setA e = true →
    (minOf e ≤ v → v ≤ maxOf e → ∀ sat, elemInt e (fitInt sat e v) = v)
      ∧ (fitInt false e v : Int) = v % 2 ^ widthOf e
      ∧ (v < minOf e → elemInt e (fitInt true e v) = minOf e)
      ∧ (maxOf e < v → elemInt e (fitInt true e v) = maxOf e)

/-- R109: and, or, xor, andn and not act on all 32 bits of each active lane under any type and pass source a's tag. R114: sel
writes a where the guard is set and b where it is clear, in every lane of the fragment's mask. -/
def Obligations.LogicWordsWrite : Prop :=
  (∀ (s : State) (d a b : Sel) (e : Nat) (x y : Val), TwoLoose s false a b e x y → setAny e = true →
     (∀ w ∈ logicWords d a b, AtWord s w.1 →
         exec w.1 s = .next (wrote s w.1 d (acting s) (passTag a x e) (lanesFrom fun l => w.2 (x.at l) (y.at l))
           (x.pois ||| y.pois)))
       ∧ (AtWord s (.not d a) →
         exec (.not d a) s = .next (wrote s (.not d a) d (acting s) (passTag a x e) (lanesFrom fun l => ~~~(x.at l)) x.pois)))
    ∧ (∀ (s : State) (d a b : Sel) (e : Nat) (x y : Val), TwoLoose s false a b e x y → AtWord s (.sel d a b) →
         exec (.sel d a b) s = .next (wrote s (.sel d a b) d s.iss.mask (passTag a x e)
           (lanesFrom fun l => if s.iss.guard.val.getLsbD l then x.at l else y.at l)
           ((x.pois &&& s.iss.guard.val) ||| (y.pois &&& ~~~s.iss.guard.val) ||| s.iss.guard.pois)))

/-- R109: shl, shr, sar and rol shift every element of a lane by the lane's count modulo the element width. R110: fshl and fshr
shift the 64-bit pair of d and a by the count modulo 32 and keep one half. -/
def Obligations.ShiftWordsWrite : Prop :=
  (∀ (s : State) (d a b : Sel) (e : Nat) (x y : Val), TwoLoose s true a b e x y → setA e = true →
     ∀ w ∈ shiftWords d a b, AtWord s w.1 →
       exec w.1 s = .next (wrote s w.1 d (acting s) (passTag a x e)
         (lanesFrom fun l => elems1 e (x.at l) (w.2 (widthOf e) ((y.at l).toNat % widthOf e))) (x.pois ||| y.pois)))
    ∧ (∀ (s : State) (d a b : Sel) (e : Nat) (x y : Val), TwoLoose s true a b e x y → setW e = true →
         s.iss.checkW a = .ok () → s.iss.checkW d = .ok () →
         (AtWord s (.fshl d a b) → exec (.fshl d a b) s = .next (wrote s (.fshl d a b) d (acting s) e
             (lanesFrom fun l => (((s.iss.val d).at l ++ x.at l) <<< ((y.at l).toNat % 32)).extractLsb' 32 32)
             (x.pois ||| y.pois ||| (s.iss.val d).pois)))
           ∧ (AtWord s (.fshr d a b) → exec (.fshr d a b) s = .next (wrote s (.fshr d a b) d (acting s) e
             (lanesFrom fun l => ((x.at l ++ (s.iss.val d).at l) >>> ((y.at l).toNat % 32)).extractLsb' 0 32)
             (x.pois ||| y.pois ||| (s.iss.val d).pois))))

/-- R111: lut3 looks every bit position up in MODE.LUT, at d · 4 + a · 2 + b, and passes source a's tag. -/
def Obligations.Lut3Writes : Prop :=
  ∀ (s : State) (d a b : Sel) (e : Nat) (x y : Val), TwoLoose s false a b e x y → setAny e = true → AtWord s (.lut3 d a b) →
    exec (.lut3 d a b) s = .next (wrote s (.lut3 d a b) d (acting s) (passTag a x e)
      (lanesFrom fun l => maskOf fun j =>
        (modeLut s.iss.mode).testBit
          (4 * (((s.iss.val d).at l).getLsbD j).toNat + 2 * ((x.at l).getLsbD j).toNat + ((y.at l).getLsbD j).toNat))
      (x.pois ||| y.pois ||| (s.iss.val d).pois))

/-- R109: clz, ffs, popc and brev write their counts and reversals of every element with tag E. -/
def Obligations.BitWordsWrite : Prop :=
  ∀ (s : State) (d a : Sel) (e : Nat) (x : Val), One s true a e x → setZ e = true →
    ∀ w ∈ bitWords d a, AtWord s w.1 →
      exec w.1 s = .next (wrote s w.1 d (acting s) e (lanes1 e x (w.2 (widthOf e))) x.pois)

/-- R112: bfx extracts and bfi inserts the field of min(len, 32 - pos) bits at pos, pos from b[4:0] and len from b[12:8]. -/
def Obligations.BitFieldWordsWrite : Prop :=
  ∀ (s : State) (d a b : Sel) (e : Nat) (x y : Val), TwoLoose s true a b e x y → setW e = true →
    s.iss.checkTags e [a, b] = .ok () →
    let pos (l : Nat) : Nat := (y.at l).toNat % 32
    let len (l : Nat) : Nat := min ((y.at l).toNat / 256 % 32) (32 - pos l)
    let field (l : Nat) : Nat := (x.at l).toNat / 2 ^ pos l % 2 ^ len l
    (AtWord s (.bfx d a b) → exec (.bfx d a b) s = .next (wrote s (.bfx d a b) d (acting s) e
        (lanesFrom fun l =>
          if len l = 0 then 0#32
          else if e = tI32 ∧ 2 ^ (len l - 1) ≤ field l then BitVec.ofInt 32 ((field l : Int) - 2 ^ len l)
          else BitVec.ofNat 32 (field l))
        (x.pois ||| y.pois)))
      ∧ (s.iss.checkTag e d = .ok () → AtWord s (.bfi d a b) →
        exec (.bfi d a b) s = .next (wrote s (.bfi d a b) d (acting s) e
          (lanesFrom fun l =>
            if len l = 0 then (s.iss.val d).at l
            else putBits ((s.iss.val d).at l) (pos l + len l - 1) (pos l) ((x.at l).toNat % 2 ^ len l))
          (x.pois ||| y.pois ||| (s.iss.val d).pois)))

/-- R113, R121: a compare sets its predicate in each active lane where the relation holds in every element and clears it in the
others. -/
def Obligations.CompareWordsWrite : Prop :=
  ∀ (s : State) (d a b : Sel) (e : Nat) (x y : Val), Two s a b e x y →
    ∀ w ∈ compareWords s.iss.fm e d a b, w.2.1 = true → AtWord s w.1 →
      exec w.1 s = .next (wrote s w.1 d (acting s) e
        (lanesFrom fun l =>
          if ∀ k < countOf e, w.2.2 (elemAt (x.at l) (widthOf e) k) (elemAt (y.at l) (widthOf e) k) = true then 1#32 else 0#32)
        (x.pois ||| y.pois))

/-- R116: the predicate words write their predicates, or for pget a scalar, in the active lanes. R313, R314: ptest reads the
poison of a without consuming it, into a predicate or a scalar; pclr clears poison in the active lanes and keeps data and tag.
-/
def Obligations.PredicateWordsWrite : Prop :=
  (∀ (s : State) (d a b : Sel), GuardClean s →
     let m := acting s
     let u := s.iss.val a
     let v := s.iss.val b
     (∀ x, s.iss.count a = .ok x → AtWord s (.pset d a) →
         exec (.pset d a) s = .next (wrote s (.pset d a) d m tRAW (maskLanes (x.at 0)) x.pois))
       ∧ (∀ x, s.iss.count a = .ok x → AtWord s (.pmask d a) →
         exec (.pmask d a) s = .next (wrote s (.pmask d a) d m tRAW
           (lanesFrom fun l => if l < (x.at 0).toNat then 1#32 else 0#32) x.pois))
       ∧ (AtWord s (.pget d a) →
         exec (.pget d a) s = .next (wrote s (.pget d a) d m tRAW (lanesAll (nonzeroLanes u.lanes)) (allPois (u.pois != 0#32))))
       ∧ (AtWord s (.pand d a b) → exec (.pand d a b) s = .next (wrote s (.pand d a b) d m tRAW
           (maskLanes (nonzeroLanes u.lanes &&& nonzeroLanes v.lanes)) (u.pois ||| v.pois)))
       ∧ (AtWord s (.por d a b) → exec (.por d a b) s = .next (wrote s (.por d a b) d m tRAW
           (maskLanes (nonzeroLanes u.lanes ||| nonzeroLanes v.lanes)) (u.pois ||| v.pois)))
       ∧ (AtWord s (.pxor d a b) → exec (.pxor d a b) s = .next (wrote s (.pxor d a b) d m tRAW
           (maskLanes (nonzeroLanes u.lanes ^^^ nonzeroLanes v.lanes)) (u.pois ||| v.pois)))
       ∧ (AtWord s (.pnot d a) → exec (.pnot d a) s = .next (wrote s (.pnot d a) d m tRAW
           (maskLanes (~~~(nonzeroLanes u.lanes))) u.pois)))
    ∧ (∀ (s : State) (d a : Sel), GuardClean s →
         let m := acting s
         let u := s.iss.val a
         let z := s.iss.val d
         (∀ n, AtWord s (.ptest (.p n) a) →
             exec (.ptest (.p n) a) s = .next (wrote s (.ptest (.p n) a) (.p n) m tRAW (maskLanes u.pois) 0#32))
           ∧ (∀ n, AtWord s (.ptest (.s n) a) →
             exec (.ptest (.s n) a) s = .next (went s (s.iss.putUniform n.toNat (u.pois &&& m) false)))
           ∧ (kindOf d ≠ .s → AtWord s (.pclr d) →
             exec (.pclr d) s = .next (wrote s (.pclr d) d m (z.tag.getD tRAW) z.lanes 0#32))
           ∧ (∀ n, m ≠ 0#32 → AtWord s (.pclr (.s n)) →
             exec (.pclr (.s n)) s = .next (went s (s.iss.putUniform n.toNat (s.iss.g.sreg n.toNat).val false))))

/-- R99 to R102, R107, R108: nop, ldi, ldhi, mov, rdtag and retag. R44: modei sets one field of the fragment's MODE and mode all
of it, whatever the guard holds; later words of the scene read the new MODE. R102: rdsp writes special number n: lane numbers
per lane, every other number the same in every lane. -/
def Obligations.MoveWordsWrite : Prop :=
  (∀ (s : State) (d a b : Sel) (n : BitVec 16), GuardClean s →
     let m := acting s
     let z := s.iss.val d
     (AtWord s .nop → exec .nop s = .next (went s s.iss))
       ∧ (AtWord s (.ldi d n) → exec (.ldi d n) s = .next (wrote s (.ldi d n) d m tRAW (lanesAll (n.signExtend 32)) 0#32))
       ∧ (kindOf d ≠ .q → AtWord s (.ldhi d n) → exec (.ldhi d n) s = .next (wrote s (.ldhi d n) d m tRAW
           (lanesFrom fun l => n ++ (z.at l).extractLsb' 0 16) z.pois))
       ∧ (∀ q, AtWord s (.ldhi (.q q) n) → ∃ x p, (∀ l < 32, (laneAt x l).extractLsb' 16 16 = n)
           ∧ exec (.ldhi (.q q) n) s = .next (wrote s (.ldhi (.q q) n) (.q q) m tRAW x p))
       ∧ (∀ e x, kindOf a ≠ .q → s.iss.etype a = .ok e → s.iss.src e a = .ok x → AtWord s (.mov d a) →
           exec (.mov d a) s = .next (wrote s (.mov d a) d m (passTag a x e) x.lanes x.pois))
       ∧ (kindOf a = .q → AtWord s (.mov d a) → exec (.mov d a) s = .next (captured s { ins := .mov d a, act := m }))
       ∧ (AtWord s (.rdtag d a) → exec (.rdtag d a) s = .next (wrote s (.rdtag d a) d m tRAW
           (lanesAll (BitVec.ofNat 32 ((s.iss.val a).tag.getD 0))) 0#32))
       ∧ (∀ y, s.iss.count b = .ok y → ((y.at 0).toNat ≤ 12 ∨ (y.at 0).toNat = 15) → AtWord s (.retag d a b) →
           exec (.retag d a b) s = .next (wrote s (.retag d a b) d m (y.at 0).toNat (s.iss.val a).lanes (s.iss.val a).pois)))
    ∧ (∀ (s : State),
         (∀ (f : BitVec 8) (n : BitVec 16), AtWord s (.modei f n) →
           exec (.modei f n) s = .next (went s { s.iss with mode :=
             match f.toNat with
             | 0 => putBits s.iss.mode 7 0 n.toNat
             | 1 => putBits s.iss.mode 10 8 n.toNat
             | 2 => putBits s.iss.mode 14 11 n.toNat
             | 3 => putBits s.iss.mode 17 15 n.toNat
             | _ => putBits s.iss.mode 23 18 n.toNat }))
         ∧ (∀ (a : Sel) (x : Val), s.iss.count a = .ok x → x.pois = 0#32 → AtWord s (.mode a) →
           (x.at 0).toNat < 2 ^ 24 → bits (x.at 0) 14 11 < 14 → bits (x.at 0) 17 15 < 5 →
           exec (.mode a) s = .next (went s { s.iss with mode := x.at 0 })))
    ∧ (∀ (s : State) (d : Sel) (n : BitVec 16), GuardClean s → AtWord s (.rdsp d n) →
         let g := s.iss.g
         let value (l : Nat) : Word :=
           match n.toNat with
           | 0 => BitVec.ofNat 32 l
           | 1 => BitVec.ofNat 32 (l % 4)
           | 2 => BitVec.ofNat 32 (l / 4)
           | 3 => BitVec.ofNat 32 g.groupNo
           | 4 => BitVec.ofNat 32 g.block
           | 5 => BitVec.ofNat 32 g.gangB
           | 6 => BitVec.ofNat 32 g.gangNo
           | 7 => BitVec.ofNat 32 g.nGroup
           | 8 => BitVec.ofNat 32 g.book.nblock
           | 9 => 32#32
           | 10 => g.book.launchId.extractLsb' 0 32
           | 11 => BitVec.ofNat 32 g.core
           | 12 => BitVec.ofNat 32 (g.core / 8)
           | 13 => BitVec.ofNat 32 (g.core / 8 / 24)
           | 14 => BitVec.ofNat 32 s.clk
           | 15 => BitVec.ofNat 32 (s.iss.clk.getD s.clk / 2 ^ 32)
           | 16 => BitVec.ofNat 32 (s.clk * 10 / 19)
           | 17 => acting s
           | 18 => s.iss.helpers (acting s)
           | 19 => s.iss.mode
           | 20 => g.trapInfo
           | 21 => g.trapPc
           | _ => 0x715#32
         let i : Issue := if n = 14#16 then { s.iss with clk := some s.clk } else s.iss
         exec (.rdsp d n) s = .next (went s (i.put (.rdsp d n) d (acting s) tRAW (lanesFrom value) 0#32)))

/-- R119, R120: fadd, fsub, fmul, fmin and fmax write their element functions, rounded once under MODE, with tag E. -/
def Obligations.FloatWordsWrite : Prop :=
  ∀ (s : State) (d a b : Sel) (e : Nat) (x y : Val), Two s a b e x y → setF e = true →
    (∀ w ∈ floatWords s.iss.fm e d a b, AtWord s w.1 →
        exec w.1 s = .next (wrote s w.1 d (acting s) e (lanes2 e x y w.2) (x.pois ||| y.pois)))
      ∧ (s.iss.checkTag e d = .ok () → AtWord s (.fma d a b) →
        exec (.fma d a b) s = .next (wrote s (.fma d a b) d (acting s) e
          (lanes3 e x y (s.iss.val d) fun x y z => s.iss.fm.sum e [(s.iss.fm.get e x).mul (s.iss.fm.get e y), s.iss.fm.get e z])
          (x.pois ||| y.pois ||| (s.iss.val d).pois)))

/-- R122, R124: fabs and fneg change the sign bit alone; rnd rounds to an integer of the type and frac keeps the fraction. R123:
the transcendental words complete with an element function of the model's; what R84 to R86 bound only is a free value. -/
def Obligations.FloatUnaryWordsWrite : Prop :=
  (∀ (s : State) (d a : Sel) (e : Nat) (x : Val), One s true a e x →
     (setFF8 e = true → AtWord s (.fabs d a) →
         exec (.fabs d a) s = .next (wrote s (.fabs d a) d (acting s) e (lanes1 e x fun v => v % 2 ^ (widthOf e - 1)) x.pois))
       ∧ (setFF8 e = true → AtWord s (.fneg d a) →
         exec (.fneg d a) s = .next (wrote s (.fneg d a) d (acting s) e
           (lanes1 e x fun v => (v + 2 ^ (widthOf e - 1)) % 2 ^ widthOf e) x.pois))
       ∧ (setF e = true → AtWord s (.rnd d a) →
         exec (.rnd d a) s = .next (wrote s (.rnd d a) d (acting s) e
           (lanes1 e x fun v =>
             match s.iss.fm.get e v with
             | .nan => (fmtOf e).nan
             | .inf n => (fmtOf e).infinity n
             | .num n m q => (fmtOf e).round 1 false false n (roundTo2 s.iss.fm.rm n m q 0) 0) x.pois))
       ∧ (setF e = true → AtWord s (.frac d a) →
         exec (.frac d a) s = .next (wrote s (.frac d a) d (acting s) e
           (lanes1 e x fun v =>
             match s.iss.fm.get e v with
             | .num n m q => (fmtOf e).round 1 s.iss.fm.ftz false n (if 0 ≤ q then 0 else m % 2 ^ (-q).toNat) q
             | _ => (fmtOf e).nan) x.pois)))
    ∧ (∀ (s : State) (d a : Sel) (e : Nat) (x : Val), One s true a e x → setF e = true →
         ∀ w ∈ tranWords d a, AtWord s w.1 →
           exec w.1 s = .next (wrote s w.1 d (acting s) e
             (lanes1 e x fun v => w.2.elem e s.iss.fm.rm s.iss.fm.ftz v) x.pois))

/-- R76, R125, R128, R129: cvt takes its source type from a's tag; fclass sets a predicate where every element's class is in b;
ldexp scales by the power of two b names.
The sign +0 of a zero converted from an integer or FX32 type is the model's reading (log 91). -/
def Obligations.ConversionWordsWrite : Prop :=
  ∀ (s : State) (d a b : Sel) (e : Nat), GuardClean s → s.iss.etype a = .ok e →
    (∀ t, (s.iss.val a).tag = some t → t ≠ tRAW → t ≠ tK4 → e ≠ tK4 → AtWord s (.cvt d a) →
        exec (.cvt d a) s = .next (wrote s (.cvt d a) d (acting s) e
          (lanesFrom fun l => joinElems (widthOf e) (countOf e) fun k =>
            if k < countOf t then
              if t = e ∧ setFF8 e = false then elemAt ((s.iss.val a).at l) (widthOf e) k
              else convElem s.iss.fm.rm s.iss.fm.ftz s.iss.fm.sat t e (elemAt ((s.iss.val a).at l) (widthOf t) k)
            else 0) (s.iss.val a).pois))
      ∧ (∀ x y, setFF8 e = true → s.iss.checkTags e [a] = .ok () → s.iss.src e a = .ok x → s.iss.count b = .ok y →
        AtWord s (.fclass d a b) →
        exec (.fclass d a b) s = .next (wrote s (.fclass d a b) d (acting s) tRAW
          (lanesFrom fun l =>
            if ∀ k < countOf e, (y.at l).getLsbD (classBit e (elemAt (x.at l) (widthOf e) k)) = true then 1#32 else 0#32)
          (x.pois ||| y.pois)))
      ∧ (∀ x y, setF e = true → s.iss.checkTags e [a] = .ok () → s.iss.checkTag tI32 b = .ok () → s.iss.src e a = .ok x →
        s.iss.src tI32 b = .ok y → AtWord s (.ldexp d a b) →
        exec (.ldexp d a b) s = .next (wrote s (.ldexp d a b) d (acting s) e
          (lanesFrom fun l => elems1 e (x.at l) fun v =>
            match s.iss.fm.get e v with
            | .nan => (fmtOf e).nan
            | .inf g => (fmtOf e).infinity g
            | .num g u q => (fmtOf e).round s.iss.fm.rm s.iss.fm.ftz s.iss.fm.sat g u
                (q + max (-1000) (min 1000 (y.at l).toInt))) (x.pois ||| y.pois)))

/-- R81, R126, R127: dot2 and dot4 add their products to d with one rounding or one range rule; dotk adds a K4 block product per
quad, helper lanes included. -/
def Obligations.DotWordsWrite : Prop :=
  ∀ (s : State) (d a b : Sel) (e : Nat) (x y : Val), Two s a b e x y →
    let z := s.iss.val d
    let fm := s.iss.fm
    let acc : Nat := if e = tI8 then tI32 else if e = tN8 then tN32 else tF32
    ((e = tBF16 ∨ e = tF16) → s.iss.checkTag tF32 d = .ok () → AtWord s (.dot2 d a b) →
        exec (.dot2 d a b) s = .next (wrote s (.dot2 d a b) d (acting s) tF32
          (lanesFrom fun l => BitVec.ofNat 32 (fm.sum tF32
            [fm.prod e (elemAt (x.at l) (widthOf e) 0) (elemAt (y.at l) (widthOf e) 0),
             fm.prod e (elemAt (x.at l) (widthOf e) 1) (elemAt (y.at l) (widthOf e) 1), fm.get tF32 (z.at l).toNat]))
          (x.pois ||| y.pois ||| z.pois)))
      ∧ ((setF8 e = true ∨ e = tI8 ∨ e = tN8) → s.iss.checkTag acc d = .ok () → AtWord s (.dot4 d a b) →
        exec (.dot4 d a b) s = .next (wrote s (.dot4 d a b) d (acting s) acc
          (lanesFrom fun l =>
            if setF8 e then fm.dot e 4 (x.at l) (y.at l) (z.at l)
            else BitVec.ofNat 32 (fitInt fm.sat acc
              (((List.range 4).map fun k => intOf e 8 (elemAt (x.at l) 8 k) * intOf e 8 (elemAt (y.at l) 8 k)).sum
                + intOf acc 32 (z.at l).toNat)))
          (x.pois ||| y.pois ||| z.pois)))
      ∧ (e = tK4 → s.iss.checkTag tF32 d = .ok () → AtWord s (.dotk d a b) →
        let m := acting s
        let rd (x : Sel) (j : Nat) : Word × Bool := s.iss.quadRead (s.iss.val x) (s.committed x) m j
        let next (x : Sel) : Sel := (Sel.run x 2).getD 1 x
        let code (x : Sel) (q c : Nat) : Nat := elemAt (rd x (4 * q + c / 8)).1 4 (c % 8)
        let scale (x : Sel) (q : Nat) : Nat := (rd (next x) (4 * q)).1.toNat % 256
        let bad (l : Nat) : Bool :=
          ((List.range 4).any fun k => (rd a (4 * (l / 4) + k)).2 || (rd b (4 * (l / 4) + k)).2)
            || (rd (next a) (4 * (l / 4))).2 || (rd (next b) (4 * (l / 4))).2 || z.pois.getLsbD l
        exec (.dotk d a b) s = .next (wrote s (.dotk d a b) d m tF32
          (lanesFrom fun l =>
            if m.getLsbD l then
              BitVec.ofNat 32 (fm.sum tF32 [blockProd (scale a (l / 4)) (scale b (l / 4)) (code a (l / 4)) (code b (l / 4)),
                fm.get tF32 (z.at l).toNat])
            else 0#32)
          (maskOf fun l => m.getLsbD l && bad l)))

/-- R130 to R132: the shuffles give each active lane a of the lane that b names, an active lane from the scene buffer and any other
as last committed, with that lane's poison, and for qshf and shfi that of b; the quad shuffles
stay in the quad. What a lane that is not active supplies of p0 and of
a scalar written earlier in the scene, and that a scalar b's poison is not taken, are the model's readings (log 85, 88). -/
def Obligations.ShuffleWordsWrite : Prop :=
  ∀ (s : State) (d a b : Sel) (e : Nat) (x y : Val), TwoLoose s true a b e x y →
    let m := acting s
    let old := s.oldOf a x
    let n := (y.at 0).toNat
    let lane (l : Nat) : Nat := (y.at l).toNat
    let quad (src : Nat → Nat) (l : Nat) : Word × Bool := s.iss.quadRead x old m (src l)
    let far (src : Nat → Nat) (l : Nat) : Word × Bool := groupRead x old m (src l)
    let out (i : Instr) (withB : Bool) (rd : Nat → Word × Bool) : Out :=
      .next (wrote s i d m (passTag a x e) (lanesFrom fun l => (rd l).1)
        (maskOf fun l => (rd l).2 || (withB && y.pois.getLsbD l)))
    (AtWord s (.qshf d a b) → exec (.qshf d a b) s = out (.qshf d a b) true (quad fun l => l / 4 * 4 + lane l % 4))
      ∧ (1 ≤ n → n ≤ 3 → AtWord s (.qswp d a b) → exec (.qswp d a b) s = out (.qswp d a b) false (quad fun l => l ^^^ n))
      ∧ (AtWord s (.shfi d a b) → exec (.shfi d a b) s = out (.shfi d a b) true (far fun l => lane l % 32))
      ∧ (1 ≤ n → n ≤ 5 → AtWord s (.shfx d a b) →
          exec (.shfx d a b) s = out (.shfx d a b) false (far fun l => l ^^^ (32 / 2 ^ lane l)))
      ∧ (1 ≤ n → n ≤ 5 → AtWord s (.shfu d a b) →
          exec (.shfu d a b) s = out (.shfu d a b) false (far fun l => if 32 / 2 ^ lane l ≤ l then l - 32 / 2 ^ lane l else l))
      ∧ (1 ≤ n → n ≤ 5 → AtWord s (.shfd d a b) →
          exec (.shfd d a b) s = out (.shfd d a b) false (far fun l => if l + 32 / 2 ^ lane l < 32 then l + 32 / 2 ^ lane l else l))
      ∧ (AtWord s (.bcst d a b) → exec (.bcst d a b) s = out (.bcst d a b) false (far fun l => lane l % 32))

/-- R131, R133: a reduction over the quad, over the active lanes, and the prefixes of the active lanes, of the function that b
names: 0 to 2 add, min and max of type E, 3 to 5 and, or and xor. R133: the integer sum of a reduction is the exact sum of the
active lanes with the range rule applied once; and, or and xor take the active lanes in order. With no active lane the
result's tag and a reduction's value are the model's reading (log 62); so is one exact sum for qred's add under SAT (log 89), and b's poison, which no
result takes (log 85). -/
def Obligations.ReductionWordsWrite : Prop :=
  (∀ (s : State) (d a b : Sel) (e : Nat) (x y : Val), TwoLoose s true a b e x y →
     let f := (y.at 0).toNat
     let m := acting s
     let i := s.iss
     let p := (x.pois &&& m) != 0#32
     f ≤ 5 → redSet f e = true → (f < 3 → i.checkTag e a = .ok ()) →
     (∀ n, AtWord s (.redx (.s n) a b) →
         exec (.redx (.s n) a b) s = .next (went s (i.putUniform n.toNat (i.reduce f e x m) p)))
       ∧ (kindOf d ≠ .s → AtWord s (.redx d a b) →
         exec (.redx d a b) s = .next (wrote s (.redx d a b) d i.mask (redTag f a x e) (lanesAll (i.reduce f e x m)) (allPois p)))
       ∧ (AtWord s (.scanx d a b) →
         exec (.scanx d a b) s = .next (wrote s (.scanx d a b) d i.mask (redTag f a x e)
           (lanesFrom fun l => (i.prefixes f e x m).getD l 0#32)
           (maskOf fun l => (lanesOf (x.pois &&& m)).any fun j => decide (j ≤ l))))
       ∧ (AtWord s (.qred d a b) →
         let v (l k : Nat) : Word := (i.quadRead x (s.oldOf a x) m (l / 4 * 4 + k)).1
         exec (.qred d a b) s = .next (wrote s (.qred d a b) d m (redTag f a x e)
           (lanesFrom fun l =>
             if f = 0 ∧ setF e = false then i.sumLanes e [v l 0, v l 1, v l 2, v l 3]
             else i.combine f e (i.combine f e (v l 0) (v l 1)) (i.combine f e (v l 2) (v l 3)))
           (maskOf fun l => (List.range 4).any fun k => (i.quadRead x (s.oldOf a x) m (l / 4 * 4 + k)).2))))
    ∧ (∀ (i : Issue) (e : Nat) (x : Val) (m : Word),
         (setA e = true → ∀ k < countOf e,
             elemAt (i.reduce 0 e x m) (widthOf e) k = fitElem i.mode e
               (((lanesOf m).map fun l => elemInt e (elemAt (x.at l) (widthOf e) k)).sum))
           ∧ (m ≠ 0#32 → i.reduce 3 e x m = ((lanesOf m).map x.at).foldl (· &&& ·) (BitVec.allOnes 32))
           ∧ i.reduce 4 e x m = ((lanesOf m).map x.at).foldl (· ||| ·) 0#32
           ∧ i.reduce 5 e x m = ((lanesOf m).map x.at).foldl (· ^^^ ·) 0#32)

/-- R134 to R136: ballot, vote, match and elect over the active lanes. That ballot and vote form no type, so MODE.ET = TAG does not
stop them, and that vote takes a constant a, are the model's reading (log 62). -/
def Obligations.VoteWordsWrite : Prop :=
  ∀ (s : State) (d a b : Sel), GuardClean s →
    let m := acting s
    let i := s.iss
    let u := i.val a
    (∀ n, AtWord s (.ballot (.s n) a) →
        exec (.ballot (.s n) a) s = .next (went s (i.putUniform n.toNat (nonzeroLanes u.lanes &&& m) ((u.pois &&& m) != 0#32))))
      ∧ (∀ w y, ((kindOf a ≠ .k ∧ w = u) ∨ (kindOf a = .k ∧ ∃ e, i.etype a = .ok e ∧ i.src e a = .ok w)) → i.count b = .ok y →
        (y.at 0).toNat ≤ 3 → AtWord s (.vote d a b) →
        let ones := nonzeroLanes w.lanes &&& m
        let yes : Bool := match (y.at 0).toNat with
          | 0 => ones != 0#32 | 1 => ones == m | 2 => ones == 0#32 | _ => ones == 0#32 || ones == m
        let r : Word := if yes then 1#32 else 0#32
        let p : Bool := (w.pois &&& m) != 0#32
        (∀ n, d = .s n → exec (.vote d a b) s = .next (went s (i.putUniform n.toNat r p)))
          ∧ (kindOf d ≠ .s →
            exec (.vote d a b) s = .next (wrote s (.vote d a b) d i.mask tRAW (lanesAll r) (allPois p))))
      ∧ (∀ e x, i.etype a = .ok e → i.checkTag e a = .ok () → i.src e a = .ok x → AtWord s (.matchLanes d a) →
        exec (.matchLanes d a) s = .next (wrote s (.matchLanes d a) d m tRAW
          (lanesFrom fun l => maskOf fun j => m.getLsbD j && (j == l || keysEqual e (x.at l) (x.at j)))
          (allPois ((x.pois &&& m) != 0#32))))
      ∧ (∀ n, m ≠ 0#32 → AtWord s (.elect (.s n)) →
        exec (.elect (.s n)) s = .next (went s (i.putUniform n.toNat (BitVec.ofNat 32 (lowLane m)) false)))
      ∧ (∀ n, m = 0#32 → AtWord s (.elect (.s n)) → exec (.elect (.s n)) s = .next (went s i))
      ∧ (kindOf d ≠ .s → AtWord s (.elect d) →
        exec (.elect d) s = .next (wrote s (.elect d) d i.mask tRAW
          (lanesFrom fun l => if m ≠ 0#32 ∧ l = lowLane m then 1#32 else 0#32) 0#32))

/-- R156 to R159, R166: loads, stores and pfl complete at "execute" with their lanes, offsets and data read from the scene
buffer; a uniform access (R156; a constant or scalar d and a) stands for one lane, a constant datum is of type MODE.ET. R160 to R165: the
atomics and the reductions complete at "execute" for E of I32 or N32, with their data (two registers for cas) read from the scene buffer.
That a constant d makes a store or a reduction uniform, and that reductions take a constant or a temporary d, are the model's reading
(log 67). R140 to R145: "Check" of such a word: poison of its offset or data in an acting lane traps with class 15; an access past the
window's LIMIT with class 5, a misaligned address with class 6, a translation that fails with class 8 and its report, an attribute that
forbids it with class 7, each in the lowest such lane once no access fails an earlier check; otherwise each acting lane accesses BASE + its
offset + the displacement times the size, in its space. R336 to R340: a translation adds the offset in the page its entry describes; a SYS
page faults in a tenant book (kind 3); a partition without a first-stage root faults (kind 1); an entry's V, reserved bits, SPAN, frame
alignment and level decide between a table, a leaf and the kinds 1 and 2.
That cas checks the tag of d + 1 too is the model's reading (log 93). -/
def Obligations.AccessWordsCaptured : Prop :=
  (∀ (s : State) (d a : Sel) (w : BitVec 3) (k : BitVec 5) (x : Val), GuardClean s → s.iss.count a = .ok x →
     let lanes : Word :=
       if (kindOf d = .s ∨ kindOf d = .k) ∧ (kindOf a = .s ∨ kindOf a = .k) ∧ acting s ≠ 0#32
       then BitVec.ofNat 32 (2 ^ lowLane (acting s)) else acting s
     (∀ i ∈ loadWords d a w k, AtWord s i →
         exec i s = .next (captured s { ins := i, act := lanes, off := x.lanes, opois := x.pois }))
       ∧ (∀ t, AtWord s (.pfl t a w k) →
         exec (.pfl t a w k) s = .next (captured s { ins := .pfl t a w k, act := acting s, off := x.lanes, opois := x.pois }))
       ∧ (∀ i ∈ storeWords d a w k, kindOf d ≠ .k → AtWord s i.1 →
         exec i.1 s = .next (captured s
           { ins := i.1, act := lanes, off := x.lanes, opois := x.pois, data := (Sel.run d i.2).map fun r => (s.iss.val r).lanes
             dpois := (Sel.run d i.2).foldl (fun p r => p ||| (s.iss.val r).pois) 0#32 }))
       ∧ (∀ i ∈ storeWords d a w k, ∀ n z, d = .k n → modeEt s.iss.mode ≠ tTAG →
         constLane (modeFtz s.iss.mode) (modeEt s.iss.mode) n.toNat = some z → AtWord s i.1 →
         exec i.1 s = .next (captured s
           { ins := i.1, act := lanes, off := x.lanes, opois := x.pois, data := [lanesAll z] })))
    ∧ (∀ (s : State) (d a : Sel) (w : BitVec 3) (k : BitVec 5) (x : Val) (e : Nat), GuardClean s → s.iss.count a = .ok x →
         s.iss.etype d = .ok e → (e = tI32 ∨ e = tN32) →
         let lanes : Word :=
           if (kindOf d = .s ∨ kindOf d = .k) ∧ (kindOf a = .s ∨ kindOf a = .k) ∧ acting s ≠ 0#32
           then BitVec.ofNat 32 (2 ^ lowLane (acting s)) else acting s
         (∀ i ∈ atomicWords d a w k, kindOf d ≠ .k → s.iss.checkTags e (Sel.run d i.2) = .ok () → AtWord s i.1 →
             exec i.1 s = .next (captured s
               { ins := i.1, act := lanes, off := x.lanes, opois := x.pois, data := (Sel.run d i.2).map fun r => (s.iss.val r).lanes
                 dpois := (Sel.run d i.2).foldl (fun p r => p ||| (s.iss.val r).pois) 0#32, desc := [BitVec.ofNat 32 e] }))
           ∧ (∀ i ∈ atomicWords d a w k, ∀ n z, d = .k n → constLane (modeFtz s.iss.mode) e n.toNat = some z → AtWord s i.1 →
             exec i.1 s = .next (captured s
               { ins := i.1, act := lanes, off := x.lanes, opois := x.pois, data := [lanesAll z], desc := [BitVec.ofNat 32 e] })))
    ∧ (∀ (c : Ck) (o : SOp) (w disp size : Nat) (kind : AccKind), memForm o.ins = some (w, disp, size, kind) →
         let d := c.g.window w
         let base := (d.extractLsb' 0 57).toNat
         let limit := (d.extractLsb' 64 49).toNat
         let space := (d.extractLsb' 113 2).toNat
         let bad := o.act &&& (o.opois ||| o.dpois)
         let off (l : Nat) : Nat := (laneAt o.off l).toNat + disp * size
         let acts (l : Nat) : Prop := o.act.getLsbD l = true
         let inside : Prop := ∀ l, acts l → off l + size ≤ limit
         let aligned : Prop := ∀ l, acts l → (base + off l) % size = 0
         let stop (t : Trap) : Prop := c.acting o = .error (.trap { t with idx := o.idx })
         (bad ≠ 0#32 → stop { cls := 15, idx := 0, detail := lowLane bad })
           ∧ (∀ l, bad = 0#32 → acts l → limit < off l + size → (∀ j < l, acts j → off j + size ≤ limit) →
             stop { cls := 5, idx := 0, detail := l })
           ∧ (∀ l, bad = 0#32 → inside → acts l → (base + off l) % size ≠ 0 → (∀ j < l, acts j → (base + off j) % size = 0) →
             stop { cls := 6, idx := 0, detail := l })
           ∧ (∀ l kd st lev, bad = 0#32 → inside → aligned → acts l → space ≠ 1 → space ≠ 2 →
             c.s.translate c.g.core c.g.part c.g.system (base + off l) = .error (.trap kd st lev) →
             (∀ j < l, acts j → ∃ t, Reaches c.s c.g space (base + off j) t) →
             stop { cls := 8, idx := 0, detail := l, fva := (faultDwords (base + off l) kd st kind.code lev).1
                    finfo := (faultDwords (base + off l) kd st kind.code lev).2 })
           ∧ (∀ tgt : Nat → Target, bad = 0#32 → inside → aligned → (∀ l, acts l → Reaches c.s c.g space (base + off l) (tgt l)) →
             (∀ l, acts l → attrOk kind space (tgt l).cls = false → (∀ j < l, acts j → attrOk kind space (tgt j).cls = true) →
                 stop { cls := 7, idx := 0, detail := l })
               ∧ ((∀ l, acts l → attrOk kind space (tgt l).cls = true ∧ c.s.targetFault (tgt l) size = none) →
                 ∃ p, c.acting o = .ok (p, c) ∧ p.accs.map (·.lane) = lanesOf o.act
                   ∧ ∀ a ∈ p.accs, a.va = base + off a.lane ∧ a.size = size ∧ a.tgt = tgt a.lane)))
    ∧ (∀ (s : State) (core part va : Nat) (system : Bool) (e : TlbEntry), s.lookup core part va = .ok e →
         s.translate core part system va =
           if e.sys = true ∧ system = false then .error (.trap 3 0 e.level) else .ok (e.pa + (va - e.va), e))
    ∧ (∀ (s : State) (part : Nat) (root : Word) (va : Nat), (s.part part).s1root = 0#32 → s.walk part root va = .error (.trap 1 0 5))
    ∧ (∀ (e : BitVec 64) (stage level : Nat),
         let span := (e.extractLsb' 2 2).toNat
         let frame := (e.extractLsb' 12 40).toNat * 4096
         let clean : Prop := e.extractLsb' 52 12 = 0#12 ∧ e.extractLsb' 9 3 = 0#3 ∧ e.extractLsb' 6 2 = 0#2
           ∧ (stage = 1 → e.getLsbD 8 = false ∧ e.extractLsb' 4 2 = 0#2)
         (e.getLsbD 0 = false → judgeEntry e stage level = .error 1)
           ∧ (e.getLsbD 0 = true → ¬clean → judgeEntry e stage level = .error 2)
           ∧ (e.getLsbD 0 = true → clean → e.getLsbD 1 = false → 2 ≤ level → span = 0 → judgeEntry e stage level = .ok (.inl frame))
           ∧ (e.getLsbD 0 = true → clean → e.getLsbD 1 = false → (level ≤ 1 ∨ span ≠ 0) → judgeEntry e stage level = .error 2)
           ∧ (e.getLsbD 0 = true → clean → e.getLsbD 1 = true →
             ∀ n, (level = 1 ∧ n = 4096 * 4 ^ span) ∨ (level = 2 ∧ span < 3 ∧ n = 0x20_0000 * 4 ^ span) ∨ (level = 3 ∧ span = 0 ∧ n = 0x4000_0000) →
               judgeEntry e stage level = if frame % n = 0
                 then .ok (.inr { frame := frame, size := n, cls := (e.extractLsb' 4 2).toNat, sys := e.getLsbD 8, level := level })
                 else .error 2)
           ∧ (e.getLsbD 0 = true → clean → e.getLsbD 1 = true → (level = 0 ∨ 3 < level ∨ (level = 2 ∧ span = 3) ∨ (level = 3 ∧ span ≠ 0)) →
               judgeEntry e stage level = .error 2))

/-- R225, R227, R228, R251, R252, R254, R288 to R293: a word with a descriptor reads it from s(4n) to s(4n+3). R167, R169, R172,
R226, R229 to R232, R256, R295: a command with scalar operands, or none, reads them at "execute". -/
def Obligations.CommandWordsCaptured : Prop :=
  (∀ (s : State) (n : BitVec 3), GuardClean s →
     let x (k : Nat) : Val := s.iss.val (.s (BitVec.ofNat 5 (4 * n.toNat + k)))
     ∀ i ∈ descriptorWords n, AtWord s i →
       exec i s = .next (captured s
         { ins := i, act := acting s, desc := [(x 0).at 0, (x 1).at 0, (x 2).at 0, (x 3).at 0]
           cpois := ((x 0).pois != 0#32 || (x 1).pois != 0#32 || (x 2).pois != 0#32 || (x 3).pois != 0#32) }))
    ∧ (∀ (s : State) (a b : Sel) (x y : Val), GuardClean s → s.iss.count a = .ok x → s.iss.count b = .ok y →
         let m := acting s
         let one (i : Instr) : Out := .next (captured s { ins := i, act := m, desc := [x.at 0], cpois := x.pois != 0#32 })
         (∀ src d, AtWord s (.cpy src d a) → exec (.cpy src d a) s = one (.cpy src d a))
           ∧ (∀ k, AtWord s (.fence k) → exec (.fence k) s = .next (captured s { ins := .fence k, act := m }))
           ∧ (∀ g p h, 1 ≤ (x.at 0).toNat → (x.at 0).toNat ≤ 1024 → AtWord s (.barinit a g p h) →
             exec (.barinit a g p h) s = .next (captured s { ins := .barinit a g p h, act := m, desc := [x.at 0] }))
           ∧ (∀ h, AtWord s (.hop h a) → exec (.hop h a) s = one (.hop h a))
           ∧ (∀ c d, ∀ i ∈ plainCommands c d, AtWord s i → exec i s = .next (captured s { ins := i, act := m }))
           ∧ (∀ q, AtWord s (.qcfg q a) → exec (.qcfg q a) s = one (.qcfg q a))
           ∧ (∀ d, AtWord s (.cstat d a) → exec (.cstat d a) s = one (.cstat d a))
           ∧ (AtWord s (.wfree a b) → exec (.wfree a b) s = .next (captured s
               { ins := .wfree a b, act := m, desc := [x.at 0, y.at 0], cpois := (x.pois != 0#32 || y.pois != 0#32) }))
           ∧ (∀ d, kindOf d ≠ .v → AtWord s (.gstat d a b) →
             exec (.gstat d a b) s = .next (captured s
               { ins := .gstat d a b, act := m, desc := [x.at 0, y.at 0], cpois := (x.pois != 0#32 || y.pois != 0#32) }))
           ∧ (∀ d, kindOf d = .v → AtWord s (.gstat d a b) → exec (.gstat d a b) s = one (.gstat d a b)))

/-- R103 to R105, R311, R312, R315: the words on special numbers, windows, system registers and the signature complete; rdsys and
wrsys that pass the decode checks of R36 trap with class 18 in a tenant book, before their guard's poison is looked at (that order is the
model's reading, log 17). R104 to R106, R229, R230: what a word changes when it is performed: winld and winsub one window, hop one
hop register, qcfg one binding (the queue is emptied when no group of the block binds it any more), wrsp TRAPINFO, TRAPPC or the
fragment's MODE, wrsys the named register of the group's core; and nothing else of the group. R105: winsub's window begins a bytes into
its source, is b bytes long and keeps the source's other fields; poison traps with class 15, bytes past the source's limit with class 5. That
an empty window at base + a = 2^57 takes base 0 is the model's reading (log 66). -/
def Obligations.SystemWordsAct : Prop :=
  (∀ (s : State) (a b : Sel) (x y : Val), s.iss.count a = .ok x → s.iss.count b = .ok y →
    let m := acting s
    (∀ n, (n = 19#16 ∨ (s.iss.g.slot s.iss.slot).handler = true) → AtWord s (.wrsp a n) →
        exec (.wrsp a n) s = .next (captured s
          { ins := .wrsp a n, act := s.iss.mask, desc := [x.at 0], cpois := x.pois != 0#32 }))
      ∧ (AtWord s .sigck → exec .sigck s = .next (captured s { ins := .sigck, act := s.iss.mask }))
      ∧ (∀ w n, GuardClean s → AtWord s (.winld w n) → exec (.winld w n) s = .next (captured s { ins := .winld w n, act := m }))
      ∧ (∀ src d, GuardClean s → AtWord s (.winsub src d a b) →
        exec (.winsub src d a b) s = .next (captured s
          { ins := .winsub src d a b, act := m, desc := [x.at 0, y.at 0], cpois := (x.pois ||| y.pois) != 0#32 }))
      ∧ (∀ d n v, GuardClean s → s.iss.g.system = true → s.readReg s.iss.g.core n.toNat = some v → AtWord s (.rdsys d n) →
        exec (.rdsys d n) s = .next (wrote s (.rdsys d n) d m tRAW (lanesAll v) 0#32))
      ∧ (∀ n, GuardClean s → s.iss.g.system = true → AtWord s (.wrsys a n) →
        exec (.wrsys a n) s = .next (captured s { ins := .wrsys a n, act := m, desc := [x.at 0], cpois := x.pois != 0#32 }))
      ∧ (∀ d n, s.iss.g.system = false → AtWord s (.rdsys d n) →
        exec (.rdsys d n) s = .next (s.trapScene { cls := 18, idx := s.iss.idx }))
      ∧ (∀ n, s.iss.g.system = false → AtWord s (.wrsys a n) →
        exec (.wrsys a n) s = .next (s.trapScene { cls := 18, idx := s.iss.idx })))
    ∧ (∀ (s : State) (i : Issue) (o : SOp) (g : Grp), Performs s i o g →
         let x : Word := o.desc.getD 0 0#32
         let leaves (p : State → Grp → Prop) : Prop := ∃ t j h, s.performOne i o = (t, j, true) ∧ t.grp i.g.uid = some h ∧ t.mem = s.mem ∧ p t h
         (∀ w n, o.ins = .winld w n → leaves fun _ h => h = { g with w := h.w } ∧ h.window w.toNat = o.wval
             ∧ ∀ k : BitVec 3, k ≠ w → h.window k.toNat = g.window k.toNat)
           ∧ (∀ src w a b, o.ins = .winsub src w a b → leaves fun _ h => h = { g with w := h.w } ∧ h.window w.toNat = o.wval
             ∧ ∀ k : BitVec 3, k ≠ w → h.window k.toNat = g.window k.toNat)
           ∧ (∀ r a l, o.ins = .hop r a → l < 16 → x.toNat = 2 ^ l → leaves fun _ h => h = { g with h := h.h } ∧ h.hopReg r.toNat = l
             ∧ ∀ k : BitVec 4, k ≠ r → h.hopReg k.toNat = g.hopReg k.toNat)
           ∧ (∀ q a, o.ins = .qcfg q a → leaves fun t h => h = { g with q := h.q }
             ∧ h.qbind q.toNat = { kind := qcfgKind x, lost := false } ∧ (∀ k : BitVec 4, k ≠ q → h.qbind k.toNat = g.qbind k.toNat)
             ∧ (qcfgKind x = .unbound → (∀ y ∈ t.groups, y.gang = g.gang → y.coreIdx = g.coreIdx →
                 y.place = .ended ∨ (y.qbind q.toNat).kind = .unbound) → (t.queue g.gang g.coreIdx q.toNat).entries = []))
           ∧ (∀ a, o.ins = .wrsp a 20#16 → leaves fun _ h => h = { g with trapInfo := x })
           ∧ (∀ a, o.ins = .wrsp a 21#16 → leaves fun _ h => h = { g with trapPc := x })
           ∧ (∀ a, o.ins = .wrsp a 19#16 → g.slot0.mask = i.mask → g.slot0.st ≠ .empty → g.slot1.mask ≠ i.mask → g.stack = [] →
             leaves fun _ h => h = { g with slot0 := { g.slot0 with mode := x } })
           ∧ (∀ a, ∀ n ∈ [0x012#16, 0x013#16, 0x018#16, 0x020#16, 0x028#16], o.ins = .wrsys a n → g.core < 768 →
             leaves fun t h => h = g ∧ t.readReg g.core n.toNat = some x)
           ∧ (∀ a, o.ins = .wrsys a 0x021#16 → g.core < 768 → leaves fun t h => h = g
             ∧ t.readReg g.core 0x021 = some (if bits x 1 0 = 3 then x &&& 0xFF00_FFFF#32 else x))
           ∧ (∀ a, o.ins = .wrsys a 0x010#16 → leaves fun t h => h = g ∧ bits (t.core g.core).margin 7 0 = bits x 7 0
             ∧ bits (t.core g.core).margin 31 8 = bits (s.core g.core).margin 31 8))
    ∧ (∀ (k : Ck) (o : SOp) (src d : BitVec 3) (a b : Sel), o.ins = .winsub src d a b →
         let w := k.g.window src.toNat
         let off := (o.desc.getD 0 0#32).toNat
         let len := (o.desc.getD 1 0#32).toNat
         (o.cpois = true → k.acting o = .error (.trap { cls := 15, idx := o.idx, detail := lowLane o.act }))
           ∧ (o.cpois = false → winLimit w < off + len → k.acting o = .error (.trap { cls := 5, idx := o.idx, detail := lowLane o.act }))
           ∧ (∀ p, k.acting o = .ok p → p.2 = k ∧ (p.1.wval.extractLsb' 0 57).toNat = (winBase w + off) % 2 ^ 57
               ∧ (p.1.wval.extractLsb' 64 49).toNat = len ∧ p.1.wval.extractLsb' 113 15 = w.extractLsb' 113 15))

/-- R93, R96 to R98, R170, R172, R174, R175, R294, R310: the final words leave what the trailer applies: a register jump's
target is the scalar's value; barrier words arrive, wait or both; mwge waits on E of I32 (signed) or N32 only; tret traps
outside a handler. R172, R174: the barrier words and the memory waits complete; mwge waits on E of I32 or N32 only, signed for
I32.
That the barrier words, drain and cwait act whatever the guard is the model's reading (log 94). -/
def Obligations.FinalWordsComplete : Prop :=
  (∀ (s : State),
     let ends (f : Final) : Out := .next (went s { s.iss with final := f })
     (∀ n : BitVec 5, let r := s.iss.g.sreg n.toNat
           r.val.toNat % 4 = 0 → r.pois = false →
           (AtWord s (.jmpr (.s n)) → exec (.jmpr (.s n)) s = ends (.jump r.val false))
             ∧ (AtWord s (.callr (.s n)) → exec (.callr (.s n)) s = ends (.jump r.val true)))
       ∧ (AtWord s .exit → exec .exit s = ends .exit)
       ∧ (∀ n, AtWord s (.trap n) → exec (.trap n) s = ends (.trapWord 16 n))
       ∧ (∀ n, AtWord s (.brk n) → exec (.brk n) s = ends (.trapWord 17 n))
       ∧ (AtWord s .yield → exec .yield s = ends .yield)
       ∧ ((s.iss.g.slot s.iss.slot).handler = true → AtWord s .tret → exec .tret s = ends .tret)
       ∧ (AtWord s .drain → exec .drain s = ends .drain)
       ∧ (∀ c, AtWord s (.cwait c) → exec (.cwait c) s = ends (.cwait c))
       ∧ (∀ t, AtWord s (.gwait t) → exec (.gwait t) s = ends (.gwait t))
       ∧ ((s.iss.g.slot s.iss.slot).handler = false → AtWord s .tret →
           exec .tret s = .next (s.trapScene { cls := 3, idx := s.iss.idx })))
    ∧ (∀ (s : State),
         (∀ (g : BitVec 1) (p : BitVec 2) (h : BitVec 4), ∀ w ∈ barrierWords g p h, AtWord s w.1 →
             exec w.1 s = .next (went s { s.iss with final := .barrier w.2.1 w.2.2 (g == 1#1) h.toNat p.toNat }))
           ∧ (∀ (d a : Sel) (w : BitVec 3) (k : BitVec 5) (c : Word) (x : Val), s.iss.comparand d = .ok c → s.iss.count a = .ok x →
             let o (i : Instr) : SOp :=
               { ins := i, act := BitVec.ofNat 32 (2 ^ lowLane s.iss.mask), off := x.lanes, opois := x.pois }
             (AtWord s (.mwne d a w k) →
               exec (.mwne d a w k) s = .next (went s { s.iss.capture (o (.mwne d a w k)) with final := .mwait .mwne c }))
               ∧ (modeEt s.iss.mode = tI32 → AtWord s (.mwge d a w k) →
                 exec (.mwge d a w k) s = .next (went s { s.iss.capture (o (.mwge d a w k)) with final := .mwait .mwgeS c }))
               ∧ (modeEt s.iss.mode = tN32 → AtWord s (.mwge d a w k) →
                 exec (.mwge d a w k) s = .next (went s { s.iss.capture (o (.mwge d a w k)) with final := .mwait .mwgeU c }))
               ∧ (modeEt s.iss.mode ≠ tI32 → modeEt s.iss.mode ≠ tN32 → AtWord s (.mwge d a w k) →
                 exec (.mwge d a w k) s = .next (s.trapScene { cls := 3, idx := s.iss.idx }))))

/-- R34, R36, R48: a scene starts when its fragment is ready at a header, its words are fetched and pass the three passes of R36,
the start check of R48 finds no empty register, and no fence holds it; the scene buffer is the group as it stands. -/
def Obligations.HeaderStartsScene : Prop :=
  ∀ (s : State) (g : Grp) (len : BitVec 5) (ws : List Word) (body : List Instr),
    let slot := s.iss.slot
    let x := g.slot slot
    let view : State := State.touchTlb { s with iss := {} } g.core g.part [g.book.code + x.pc.toNat]
    let fits := (g.book.codeLen - x.pc.toNat) / 4
    s.iss.live = false → s.grp s.iss.g.uid = some g → g.place = .resident → x.st = .ready → x.hold = .none → x.busy = false →
    x.pc.toNat % 4 = 0 → x.pc.toNat < g.book.codeLen → 1 ≤ len.toNat → len.toNat ≤ 24 → g.fence = none →
    view.codeWords g x.mask x.pc (min (len.toNat + 2) fits) = .ok ws → checkWords g.book.regs len.toNat fits ws = .ok body →
    startCheck g 1 x.mode [] body = (none, false) →
    ∃ t, exec (.scene len) s = .next t ∧ t.iss.live = true ∧ t.iss.phase = .body ∧ t.iss.idx = 1 ∧ t.iss.g = g
      ∧ t.iss.slot = slot ∧ t.iss.pc = x.pc ∧ t.iss.words = ws ∧ t.iss.mask = x.mask ∧ t.iss.mode = x.mode ∧ t.iss.ops = []
      ∧ t.iss.final = .none ∧ t.mem = s.mem ∧ t.groups.length = s.groups.length

/-- R34, R36: framing errors (pass 1) come first; then the body words in index order (pass 2), each judged by checks 1 to 6 in their order
against what earlier words of the scene have covered (deferred destinations) and written (temporaries), each error with its class and index;
then the trailer's publications (pass 3, R35): the destinations of the deferred producers in program order, at most three, then 0xFF. A
fragment that arrives at a scene with such an error, or at a PC that is misaligned or past the image, takes that trap with the header's
address, and no scene starts.
That pclr of a temporary counts among the words that write it is the model's reading (log 90). -/
def Obligations.SceneErrorsTrap : Prop :=
  (∀ (regs len fits : Nat) (ws : List Word),
    let op (i : Nat) : Nat := (ws.getD i 0#32).toNat / 2 ^ 24
    let good : Prop := op 0 = 1 ∧ 1 ≤ len ∧ len ≤ 24 ∧ (ws.headD 0#32).toNat % 2 ^ 19 = 0
    ((len = 0 ∨ 24 < len ∨ (ws.headD 0#32).toNat % 2 ^ 19 ≠ 0) → checkWords regs len fits ws = .error { cls := 1, idx := 0 })
      ∧ (good → fits < len + 2 → checkWords regs len fits ws = .error { cls := 1, idx := fits })
      ∧ (good → len + 2 ≤ fits → ∀ k, 1 ≤ k → k ≤ len → (op k = 1 ∨ op k = 2) → (∀ j, 1 ≤ j → j < k → op j ≠ 1 ∧ op j ≠ 2) →
          checkWords regs len fits ws = .error { cls := 1, idx := k })
      ∧ (good → len + 2 ≤ fits → (∀ j, 1 ≤ j → j ≤ len → op j ≠ 1 ∧ op j ≠ 2) → op (len + 1) ≠ 2 →
          checkWords regs len fits ws = .error { cls := 1, idx := len + 1 })
      ∧ (∀ idx w x, looseDecode w = none → wordFault regs len idx w x = some { cls := 2, idx := idx })
      ∧ (∀ idx w x i, looseDecode w = some i → isFinal i = true → idx ≠ len →
          wordFault regs len idx w x = some { cls := 1, idx := idx })
      ∧ (∀ idx w x i, looseDecode w = some i → (isFinal i = true → idx = len) →
          let again : Prop := ∃ r, (r ∈ fieldReads w i ∨ r ∈ fieldWrites w i) ∧ r ∈ x.covered
          let unwritten : Prop := ∃ n, Sel.t n ∈ fieldReads w i ∧ Sel.t n ∉ x.temps
          (again → wordFault regs len idx w x = some { cls := 1, idx := idx })
            ∧ (¬again → unwritten → wordFault regs len idx w x = some { cls := 1, idx := idx })
            ∧ (¬again → ¬unwritten → (∀ j, decodeWord w = .ok j → legal j = false ∨ fitsRegs regs j = false) →
              wordFault regs len idx w x = some { cls := 3, idx := idx })
            ∧ (∀ j, ¬again → ¬unwritten → decodeWord w = .ok j → legal j = true → fitsRegs regs j = true →
              wordFault regs len idx w x = none))
      ∧ (∀ (x : Seen) (j : Instr), (x.add j).covered = x.covered ++ (if (produces j).isSome then writesOf j else [])
          ∧ (x.add j).temps = x.temps ++ (writesOf j).filter fun r => kindOf r == .t)
      ∧ (∀ idx x w r t, wordFault regs len idx w x = some t → bodyCheck regs len idx x (w :: r) = .error t)
      ∧ (∀ idx x w r j, wordFault regs len idx w x = none → decodeWord w = .ok j →
          bodyCheck regs len idx x (w :: r) = (bodyCheck regs len (idx + 1) (x.add j) r).map (j :: ·))
      ∧ (good → len + 2 ≤ fits → (∀ j, 1 ≤ j → j ≤ len → op j ≠ 1 ∧ op j ≠ 2) → op (len + 1) = 2 →
          let judged := bodyCheck regs len 1 {} ((ws.drop 1).take len)
          (∀ t, judged = .error t → checkWords regs len fits ws = .error t)
            ∧ ∀ body, judged = .ok body →
              let want := (body.filterMap produces).map selByte
              let w := ws.getD (len + 1) 0#32
              let right : Prop := want.length ≤ 3
                ∧ [w.extractLsb' 16 8, w.extractLsb' 8 8, w.extractLsb' 0 8] = want ++ List.replicate (3 - want.length) 0xFF#8
              (right → checkWords regs len fits ws = .ok body)
                ∧ (¬right → checkWords regs len fits ws = .error { cls := 1, idx := len + 1 })))
    ∧ ∀ (s : State) (g : Grp) (len : BitVec 5),
        let slot := s.iss.slot
        let x := g.slot slot
        let view : State := State.touchTlb { s with iss := {} } g.core g.part [g.book.code + x.pc.toNat]
        let fits := (g.book.codeLen - x.pc.toNat) / 4
        let inside : Prop := x.pc.toNat % 4 = 0 ∧ x.pc.toNat < g.book.codeLen
        s.iss.live = false → s.grp s.iss.g.uid = some g → g.place = .resident → x.st = .ready → x.hold = .none → x.busy = false →
        (¬inside → exec (.scene len) s = .next (view.takeTrap g.uid slot { cls := 1, idx := 0 } x.pc))
          ∧ (∀ ws t, inside → view.codeWords g x.mask x.pc (if len.toNat = 0 ∨ 24 < len.toNat then 1 else min (len.toNat + 2) fits) = .ok ws →
              checkWords g.book.regs len.toNat fits ws = .error t →
              exec (.scene len) s = .next (view.takeTrap g.uid slot t x.pc))

/-- R20, R37: the trailer of a scene without later effects writes the scene buffer, and the fragment is ready at the next
header; nothing in memory changes. R20, R21: what the write of the scene buffer changes: the written lanes of v and p registers,
the written scalars, MODE. -/
def Obligations.SceneEndCommits : Prop :=
  (∀ (s : State) (g : Grp) (p1 p2 p3 : BitVec 8),
     s.iss.live = true → s.iss.phase = .body → s.iss.ops = [] → (s.iss.final = .none ∨ s.iss.final = .yield) →
     s.iss.pause = false → s.iss.cmp = false → Alone s s.iss g → (∀ k, s.gang s.iss.g.gang = some k → k.place ≠ .evicting) →
     ∃ t, exec (.sceneEnd p1 p2 p3) s = .next t ∧ t.iss = {} ∧ t.mem = s.mem ∧ t.cores = s.cores ∧ t.out = s.out
       ∧ t.grp s.iss.g.uid = some (movedTo (g.commit s.iss) s.iss.nextPc))
    ∧ (∀ (g : Grp) (i : Issue),
         let c := g.commit i
         (∀ n < 128, ∀ l < 32, laneAt (c.vreg n).lanes l =
             if ((i.vmask[n]?).getD 0#32).getLsbD l then laneAt (i.g.vreg n).lanes l else laneAt (g.vreg n).lanes l)
           ∧ (∀ n < 128, (c.vreg n).full = (g.vreg n).full)
           ∧ (∀ n < 128, (i.vmask[n]?).getD 0#32 = 0#32 → c.vreg n = g.vreg n)
           ∧ (∀ n < 32, c.sreg n =
             if (i.swrote[n]?).getD false then { g.sreg n with val := (i.g.sreg n).val, pois := (i.g.sreg n).pois } else g.sreg n)
           ∧ (∀ n, 1 ≤ n → n < 8 → ∀ l < 32, (c.preg n).val.getLsbD l =
             if ((i.pmask[n]?).getD 0#32).getLsbD l then (i.g.preg n).val.getLsbD l else (g.preg n).val.getLsbD l)
           ∧ c.w = g.w ∧ c.h = g.h ∧ c.q = g.q ∧ c.trapInfo = g.trapInfo ∧ c.trapPc = g.trapPc ∧ c.pts = g.pts
           ∧ (g.slot0.mask = i.mask → g.slot0.st ≠ .empty → c.slot0 = { g.slot0 with mode := i.mode }))

/-- R92: jmp and call leave a jump to the executing word's address plus 4 times the signed offset; the trailer sets the PC to it,
and call writes the next header into s31, clears its poison and leaves it full, whatever the scene wrote there; so in either slot, whatever
the other slot holds, where the fragment does not stop at the target. -/
def Obligations.JumpAndCallLink : Prop :=
  (∀ (s : State) (f : BitVec 24),
      let here : Word := s.iss.pc + 4#32 * BitVec.ofNat 32 s.iss.idx
      let t : Word := here + 4#32 * f.signExtend 32
      (AtWord s (.jmp f) → exec (.jmp f) s = .next (went s { s.iss with final := .jump t false }))
        ∧ (AtWord s (.call f) → exec (.call f) s = .next (went s { s.iss with final := .jump t true })))
    ∧ ∀ (s : State) (i : Issue) (g : Grp) (b : Bool) (t : Word), s.grp i.g.uid = some g → GoesOn g b t →
      (i.final = .jump t false → ∃ r, s.applyFinal i b = some r ∧ r.mem = s.mem ∧ r.grp i.g.uid = some (sentTo g b t))
        ∧ (i.final = .jump t true → ∃ r, s.applyFinal i b = some r ∧ r.mem = s.mem
          ∧ r.grp i.g.uid = some (sentTo (g.setS 31 { val := i.pc + BitVec.ofNat 32 (4 * i.words.length), pois := false
                                                      full := true }) b t))

/-- R95: bru moves the whole fragment, never splits it, and leaves its join; c = 0, 1 and 2 take the branch where some, every and no
lane of the mask has p set; c = 3 and a predicate poisoned in a lane of the mask trap. At the trailer it does so in either slot, whatever
the other slot holds, where the fragment does not stop at the address. -/
def Obligations.BruMoves : Prop :=
  ∀ (s : State) (p : BitVec 3) (c : BitVec 2) (f : BitVec 19),
    let r := s.iss.g.preg p.toNat
    let m := s.iss.mask
    let t : Word := s.iss.pc + 4#32 * BitVec.ofNat 32 s.iss.idx + 4#32 * f.signExtend 32
    (r.pois &&& m = 0#32 → AtWord s (.bru p c f) → exec (.bru p c f) s = .next (went s { s.iss with final := .bru p c t }))
      ∧ (r.pois &&& m ≠ 0#32 → AtWord s (.bru p c f) →
          exec (.bru p c f) s = .next (s.trapScene { cls := 15, idx := s.iss.idx, detail := lowLane (r.pois &&& m) }))
      ∧ (s.iss.live = true → s.iss.phase = .body → c = 3#2 →
          exec (.bru p c f) s = .next (s.trapScene { cls := 3, idx := s.iss.idx }))
      ∧ ∀ (u : State) (g : Grp) (b : Bool), u.grp s.iss.g.uid = some g → s.iss.final = .bru p c t → c ≠ 3#2 →
          let taken : Prop := (c = 0#2 ∧ r.val &&& m ≠ 0#32) ∨ (c = 1#2 ∧ r.val &&& m = m) ∨ (c = 2#2 ∧ r.val &&& m = 0#32)
          let next : Word := s.iss.pc + BitVec.ofNat 32 (4 * s.iss.words.length)
          (taken → GoesOn g b t → ∃ v, u.applyFinal s.iss b = some v ∧ v.mem = u.mem ∧ v.grp s.iss.g.uid = some (sentTo g b t))
            ∧ (¬taken → GoesOn g b next →
                ∃ v, u.applyFinal s.iss b = some v ∧ v.mem = u.mem ∧ v.grp s.iss.g.uid = some (sentTo g b next))

/-- R14, R15, R94, R309: brc completes where its predicate is not poisoned in the fragment's lanes; a split traps with class 3 in a
handler and with class 10 where it would push on a full stack, at the word, before "Check" (the model's reading of when, log 59). At the
trailer, in either slot: a predicate that holds in no lane goes on, one that holds in every lane jumps with the join unchanged, and any
other splits the fragment: a fragment in the other slot is pushed on the stack, the lanes where the predicate holds go to that slot at the
target, the others stay, both with the branch's join and MODE. R16, R18: a fragment whose PC reaches its join stops there; when the other
slot's fragment waits at the same join, the two fuse in slot 0 with the union of the masks and the MODE of the one that came last; the
fused fragment has no join with an empty stack, else it takes the top entry's join and that entry comes into slot 1. R17, R18, R96: exit
empties its slot; the fragment left alone loses its join, or takes the top entry's and that entry its partner's place, and goes on where it
waited at a join; with no fragment left the group has ended. -/
def Obligations.BrcSplits : Prop :=
  (∀ (s : State) (p : BitVec 3) (j : BitVec 10) (f : BitVec 11), AtWord s (.brc p j f) →
      let r := s.iss.g.preg p.toNat
      let m := s.iss.mask
      let here : Word := s.iss.pc + 4#32 * BitVec.ofNat 32 s.iss.idx
      let splits : Prop := r.val &&& m ≠ 0#32 ∧ r.val &&& m ≠ m
      let handler := (s.iss.g.slot s.iss.slot).handler
      let full : Prop := (s.iss.g.slot (!s.iss.slot)).st ≠ .empty ∧ s.iss.g.stack.length ≥ 64
      let final : Final := .brc p (here + 4#32 * f.signExtend 32) (here + 4#32 * j.setWidth 32)
      (r.pois &&& m = 0#32 → ¬(splits ∧ handler = true) → ¬(splits ∧ full) →
          exec (.brc p j f) s = .next (went s { s.iss with final := final }))
        ∧ (r.pois &&& m = 0#32 → splits → handler = true →
          exec (.brc p j f) s = .next (s.trapScene { cls := 3, idx := s.iss.idx }))
        ∧ (r.pois &&& m = 0#32 → splits → handler = false → full →
          exec (.brc p j f) s = .next (s.trapScene { cls := 10, idx := s.iss.idx }))
        ∧ (r.pois &&& m ≠ 0#32 →
          exec (.brc p j f) s = .next (s.trapScene { cls := 15, idx := s.iss.idx, detail := lowLane (r.pois &&& m) })))
    ∧ (∀ (s : State) (i : Issue) (g : Grp) (b : Bool) (p : BitVec 3) (t j : Word), s.grp i.g.uid = some g → i.final = .brc p t j →
      let taken := (i.g.preg p.toNat).val &&& i.mask
      let next : Word := i.pc + BitVec.ofNat 32 (4 * i.words.length)
      let x := g.slot b
      let y := g.slot (!b)
      (taken = 0#32 → GoesOn g b next → ∃ r, s.applyFinal i b = some r ∧ r.grp i.g.uid = some (sentTo g b next))
        ∧ (taken ≠ 0#32 → taken = i.mask → GoesOn g b t → ∃ r, s.applyFinal i b = some r ∧ r.grp i.g.uid = some (sentTo g b t))
        ∧ (taken ≠ 0#32 → taken ≠ i.mask → next ≠ j → t ≠ j → (y.st = .empty ∨ g.stack.length < 64) →
            ∃ r h, s.applyFinal i b = some r ∧ r.mem = s.mem ∧ r.grp i.g.uid = some h
              ∧ h.stack = (if y.st = .empty then g.stack else { y with watched := false, fired := false, due := 0 } :: g.stack)
              ∧ h.slot b = { x with mask := x.mask &&& ~~~taken, pc := next, join := j, busy := false }
              ∧ h.slot (!b) = { mask := taken, pc := t, join := j, mode := x.mode, st := .ready }
              ∧ h.v = g.v ∧ h.s = g.s ∧ h.p = g.p))
    ∧ (∀ (s : State) (i : Issue) (g : Grp) (b : Bool) (t : Word), s.grp i.g.uid = some g → i.final = .jump t false → Joins g b t →
      let x := g.slot b
      let y := g.slot (!b)
      let fused (join : Word) : Slot := { mask := x.mask ||| y.mask, pc := t, join := join, mode := x.mode, st := .ready }
      (¬(y.st = .atJoin ∧ y.join = x.join) → ∃ r h, s.applyFinal i b = some r ∧ r.grp i.g.uid = some h
          ∧ h.slot b = { x with pc := t, st := .atJoin, busy := false } ∧ h.slot (!b) = y ∧ h.stack = g.stack)
        ∧ (y.st = .atJoin → y.join = x.join → g.stack = [] → ∃ r h, s.applyFinal i b = some r ∧ r.grp i.g.uid = some h
          ∧ h.slot0 = fused Config.noJoin ∧ h.slot1 = {} ∧ h.stack = [])
        ∧ (∀ top rest, y.st = .atJoin → y.join = x.join → g.stack = top :: rest → top.join ≠ t → top.atEnd = false →
          ∃ r h, s.applyFinal i b = some r ∧ r.grp i.g.uid = some h ∧ h.slot0 = fused top.join ∧ h.slot1 = top ∧ h.stack = rest))
    ∧ (∀ (s : State) (i : Issue) (g : Grp) (b : Bool), s.grp i.g.uid = some g → i.final = .exit → (g.slot b).handler = false →
      (s.core g.core).wc = [] →
      let y := g.slot (!b)
      let gone : Slot := { mode := (g.slot b).mode }
      (y.st ≠ .empty → g.stack = [] → ∃ r h, s.applyFinal i b = some r ∧ r.grp i.g.uid = some h
          ∧ h.slot (!b) = awake { y with join := Config.noJoin } ∧ h.slot b = gone ∧ h.stack = [] ∧ h.v = g.v ∧ h.place = g.place)
        ∧ (∀ top rest, y.st ≠ .empty → g.stack = top :: rest → top.atEnd = false → y.pc ≠ top.join → top.st ≠ .empty →
          ∃ r h, s.applyFinal i b = some r ∧ r.grp i.g.uid = some h
            ∧ h.slot (!b) = awake { y with join := top.join } ∧ h.slot b = top ∧ h.stack = rest ∧ h.v = g.v ∧ h.place = g.place)
        ∧ (y.st = .empty → y.join = Config.noJoin → g.stack = [] → ∃ r h, s.applyFinal i b = some r ∧ r.grp i.g.uid = some h
          ∧ h.place = .ended))

/-- R97, R308: trap and brk are taken after the scene's commit, with the next header's address and the code. R170, R172, R174 to R176,
R294: the waits at the trailer: the fragment waits at the next header, with what it waits for, until its condition holds; where it holds
already (drain, cwait, gwait, a barrier phase whose generation has passed), the wait ends at once: the fragment is ready there, its wait
record cleared, and the group's time passes that of its copies, of its tag's waves or of the phase's release. R171, R172: an arrival that
does not complete its phase counts, records its generation and goes on; one that completes it starts the next generation with no arrival;
it is not served while a store of the group is not acknowledged or a fence is open.
What a barrier keeps beyond its count is the model's (log 84). -/
def Obligations.TrapWordsAndWaitsApply : Prop :=
  ∀ (s : State) (i : Issue) (g : Grp), Alone s i g →
    let next : Word := i.pc + BitVec.ofNat 32 (4 * i.words.length)
    let parked : State := s.updGrp i.g.uid fun g => { g with slot0 := { g.slot0 with pc := next, busy := false } }
    let waits (k : WaitKind) : Slot := { g.slot0 with pc := next, busy := false, st := .waiting, wait := k }
    let ended : Slot := { g.slot0 with pc := next, busy := false, st := .ready, wait := .none, warg := 0#32, waddr := 0#57, wspace := 0#2,
                                       watched := false, fired := false, wcmds := [], due := 0 }
    let gives (h : Grp) : Prop := ∃ r, s.applyFinal i false = some r ∧ r.mem = s.mem ∧ r.grp i.g.uid = some h
    (∀ c n, i.final = .trapWord c n → s.applyFinal i false =
        some (parked.takeTrap i.g.uid false { cls := c, idx := i.words.length - 2, detail := n.toNat } next))
      ∧ (i.final = .drain → (s.core i.g.core).wc = [] → s.drained g s.fresh = false →
        gives { g with slot0 := { waits .drain with wgen := s.fresh } })
      ∧ (i.final = .drain → (s.core i.g.core).wc = [] → s.drained g s.fresh = true →
        gives { g with pts := max g.pts g.cpyTime, slot0 := { ended with wgen := s.fresh } })
      ∧ (∀ cue : BitVec 8, i.final = .cwait cue →
        let mine (c : ECmd) : Bool := c.uid == i.g.uid && c.live && c.kind != .wfree && c.cue == cue.toNat && decide (c.id < i.mark)
        (s.ecmds.any mine = false → gives { g with slot0 := ended })
          ∧ (s.ecmds.any mine = true →
            gives { g with slot0 := { waits .cwait with warg := cue.setWidth 32, wcmds := (s.ecmds.filter mine).map (·.id) } }))
      ∧ (∀ (tag : BitVec 4) (l : Launch), i.final = .gwait tag → s.launch g.launch = some l → g.under = false →
        let open_ : Prop := (tget l.tags tag.toNat {}).count ≠ 0 ∨ ∃ w ∈ s.waves, w.uid = i.g.uid ∧ w.id < s.fresh ∧ w.st = .path
        (¬open_ → gives { g with pts := max g.pts (tget l.tags tag.toNat {}).time, slot0 := { ended with wgen := s.fresh } })
          ∧ (open_ → gives { g with slot0 := { waits .gwait with warg := tag.setWidth 32, wgen := s.fresh } }))
      ∧ (∀ (k : WaitKind) (c : Word), i.final = .mwait k c → s.orderedDone i.g.uid = false →
        ∃ sp, gives { g with slot0 := { waits k with
          warg := c, waddr := BitVec.ofNat 57 i.wacc.va, wspace := sp, watched := false, fired := false, due := s.clk
          wpa := match i.wacc.tgt with | .mem pa _ => pa | .scratch _ _ _ => 0 } })
      ∧ (∀ (gang : Bool) (id phase : Nat), id < 16 → phase < 4 →
        let b := s.barrier g gang id phase
        let key := arrKey gang id phase
        let n := (tfind g.arr key).getD b.gen
        let quiet : Prop := s.stowed = [] ∧ g.fence = none ∧ ∀ q ∈ s.reqs, q.placeFor i.g.uid = none ∨ q.kind = .load ∨ q.acked = true
        (i.final = .barrier false true gang id phase → b.gen ≤ n →
            gives { g with slot0 := { waits .barrier with
              warg := BitVec.ofNat 32 ((if gang then 32768 else 0) + 16 * phase + id), wgen := n } })
          ∧ (i.final = .barrier false true gang id phase → n < b.gen →
            gives { g with pts := max g.pts (tget b.released n 0), arr := terase g.arr key, slot0 := ended })
          ∧ (∀ k, i.final = .barrier true false gang id phase → s.gang g.gang = some k → quiet → b.count + 1 < b.limitOf g gang →
            ∃ r, s.applyFinal i false = some r ∧ r.mem = s.mem
              ∧ r.grp i.g.uid = some (movedTo { g with arr := tset g.arr key b.gen } next)
              ∧ r.barrier g gang id phase = { b with count := b.count + 1, time := max b.time g.pts })
          ∧ (∀ k, i.final = .barrier true false gang id phase → s.gang g.gang = some k → quiet → b.limitOf g gang ≤ b.count + 1 →
            ∃ r, s.applyFinal i false = some r ∧ r.barrier g gang id phase =
              { b with gen := (b.gen + 1) % 2 ^ 48, count := 0, time := 0, released := tset b.released b.gen (max b.time g.pts) })
          ∧ (∀ w, i.final = .barrier true w gang id phase →
            (g.fence.isSome = true ∨ ∃ q ∈ s.reqs, (q.placeFor i.g.uid).isSome = true ∧ q.kind ≠ .load ∧ q.acked = false) →
            s.applyFinal i false = none))

/-- R307, R308: a precise trap of a class that TRAPVEC does not route, in a group whose prompt book names a handler and none of whose
fragments runs it, writes TRAPINFO and TRAPPC, saves MODE, and the fragment enters the handler with MODE 0x0080_0000. -/
def Obligations.TrapEntersHandler : Prop :=
  ∀ (s : State) (g : Grp) (i : Bool) (t : Trap) (pc : Word),
    s.grp g.uid = some g → t.dead = false → t.cls ≠ 15 → (g.slot i).handler = false → (g.slot (!i)).handler = false → g.parking = false →
    (s.core g.core).trapvec.getLsbD t.cls = false → t.cls < 32 → g.book.handler ≠ 0xFFFF_FFFF#32 →
    ∃ h, (s.takeTrap g.uid i t pc).grp g.uid = some h ∧ (s.takeTrap g.uid i t pc).mem = s.mem
      ∧ h.trapInfo = BitVec.ofNat 32 (t.cls * 2 ^ 26 + t.idx % 32 * 2 ^ 21 + t.cause % 32 * 2 ^ 16 + t.detail % 2 ^ 16)
      ∧ h.trapPc = pc ∧ h.savedMode = (g.slot i).mode
      ∧ h.slot i = { g.slot i with handler := true, pc := g.book.handler, mode := 0x0080_0000#32, st := .ready, hold := .none }
      ∧ h.slot (!i) = g.slot (!i) ∧ h.v = g.v ∧ h.s = g.s ∧ h.p = g.p ∧ h.w = g.w ∧ h.stack = g.stack
      ∧ (t.cls = 8 → h.faultVa = t.fva ∧ h.faultInfo = t.finfo) ∧ (t.cls ≠ 8 → h.faultVa = g.faultVa ∧ h.faultInfo = g.faultInfo)

/-- R27, R308, R343: a trap of a class that TRAPVEC routes, other than 15, writes TRAPINFO and TRAPPC and parks the group at its scene
boundary: where no scene of it is in issue or stalled, at once; else the fragment is held and the group parks later. At the park the die's
control cores are told, and the context image is written to memory and nothing else there changes (that it is written at the park is the
model's reading, log 13). A trap of the other fragment before the park is kept with that fragment (the model's choice, log 81). -/
def Obligations.RoutedTrapParks : Prop :=
  ∀ (s : State) (g : Grp) (i : Bool) (t : Trap) (pc : Word),
    s.grp g.uid = some g → t.dead = false → t.cls ≠ 15 → (g.slot i).handler = false → t.cls < 32 →
    let u := s.takeTrap g.uid i t pc
    ((s.core g.core).trapvec.getLsbD t.cls = true → g.parking = false → g.place = .resident → g.cached = true →
      (s.iss.live = false ∨ s.iss.g.uid ≠ g.uid) → (∀ j ∈ s.stowed, j.g.uid ≠ g.uid) →
      ∃ h, u.grp g.uid = some h ∧ h.place = .trapParked ∧ h.trapInfo = t.word ∧ h.trapPc = pc ∧ h.parking = false ∧ h.cached = false
        ∧ h.slot i = { g.slot i with pc := pc, hold := .trapPark } ∧ h.slot (!i) = g.slot (!i) ∧ h.v = g.v ∧ h.s = g.s ∧ h.p = g.p
        ∧ u.out = .trapInterrupt (g.core / 192) g.part g.imgSlot :: s.out
        ∧ u.mem = (State.writeImage { s with cores := u.cores } { h with cached := true }).mem)
      ∧ ((s.core g.core).trapvec.getLsbD t.cls = true → g.parking = false → (∃ j ∈ s.stowed, j.g.uid = g.uid) →
        ∃ h, u.grp g.uid = some h ∧ h.parking = true ∧ h.place = g.place ∧ h.trapSlot = i ∧ h.trapInfo = t.word ∧ h.trapPc = pc
          ∧ h.slot i = { g.slot i with pc := pc, hold := .trapPark } ∧ h.slot (!i) = g.slot (!i) ∧ u.mem = s.mem ∧ u.out = s.out)
      ∧ (g.parking = true → ∃ h, u.grp g.uid = some h ∧ h.trapInfo = g.trapInfo ∧ h.trapPc = g.trapPc
          ∧ h.slot i = { g.slot i with pc := pc, hold := if t.cls = 16 ∨ t.cls = 17 then .parkPend t.word else .handlerRetry }
          ∧ h.slot (!i) = g.slot (!i) ∧ u.mem = s.mem ∧ u.out = s.out)

/-- R310: tret's return sets the fragment's PC from TRAPPC, its MODE from the saved MODE, clears the handler flag and keeps
TRAPINFO, here where the return address is not the fragment's join and the other fragment does not wait for the handler. -/
def Obligations.HandlerReturns : Prop :=
  ∀ (s : State) (g : Grp) (i : Bool),
    s.grp g.uid = some g → (g.slot (!i)).hold = .none → (g.slot (!i)).atEnd = false → (g.slot i).join = 0xFFFF_FFFF#32 →
    ∃ h, (s.returnTrap g.uid i).grp g.uid = some h ∧ (s.returnTrap g.uid i).mem = s.mem
      ∧ h.slot i = { g.slot i with pc := g.trapPc, mode := g.savedMode, handler := false } ∧ h.slot (!i) = g.slot (!i)
      ∧ h.trapInfo = g.trapInfo ∧ h.trapPc = g.trapPc ∧ h.v = g.v ∧ h.s = g.s ∧ h.p = g.p ∧ h.stack = g.stack

/-- R50: a body word that its guard governs (every one but the control words, nop, MODE's words, wrsp, the barrier and wait words, sigck, and
sel, whose guard chooses) does nothing in a scene whose guard is poisoned in a lane of the fragment's mask but trap: with class 15 and the
lowest such lane, or with what an earlier check of the word finds; with class 15 for the words listed, when their operands pass the earlier
checks. R36, R38: a body word of any kind with an operand that its position does not admit, or a v register at or above the kernel's count,
traps with class 3 at its index and nothing of it acts.
That redx admits no predicate or q destination is the model's reading (log 92). -/
def Obligations.BadOperandsTrap : Prop :=
  (∀ (s : State) (d a b : Sel) (e : Nat) (x y : Val),
     let bad := s.iss.guard.pois &&& s.iss.mask
     let t : Out := .next (s.trapScene { cls := 15, idx := s.iss.idx, detail := lowLane bad })
     bad ≠ 0#32 → s.iss.etype a = .ok e → s.iss.src e a = .ok x → s.iss.src e b = .ok y → setAny e = true →
     (∀ w ∈ logicWords d a b, AtWord s w.1 → exec w.1 s = t)
       ∧ (setA e = true → s.iss.checkTags e [a, b] = .ok () → ∀ w ∈ integerWords s.iss.mode e d a b, AtWord s w.1 → exec w.1 s = t)
       ∧ (setF e = true → s.iss.checkTags e [a, b] = .ok () → ∀ w ∈ floatWords s.iss.fm e d a b, AtWord s w.1 → exec w.1 s = t)
       ∧ (∀ n, AtWord s (.ldi d n) → exec (.ldi d n) s = t))
    ∧ (∀ (s : State) (i : Instr), AtWord s i → Machine.isWord i = true → unguarded i = false → s.iss.guard.pois &&& s.iss.mask ≠ 0#32 →
         ∃ t : Trap, exec i s = .next (s.trapScene t) ∧ t.idx = s.iss.idx
           ∧ (t.cls = 15 → t = { cls := 15, idx := s.iss.idx, detail := lowLane (s.iss.guard.pois &&& s.iss.mask) }))
    ∧ (∀ (s : State) (i : Instr), s.iss.live = true → s.iss.phase = .body → Machine.isWord i = true →
         (∀ n, i ≠ .scene n) → (∀ p q r, i ≠ .sceneEnd p q r) →
         (legal i = false ∨ fitsRegs s.iss.g.book.regs i = false) → exec i s = .next (s.trapScene { cls := 3, idx := s.iss.idx }))

/-- R303, R304, R330, R372: every register has its reset value at reset: SYSID with the die, CAPPTR, TRAPVEC, GCWIN, LEASE and COMBWIN,
the margin registers without a configuration record, and 0 for every other one; a number the table does not list names none. -/
def Obligations.ResetRegisters : Prop :=
  ∀ core < 768,
    State.reset.readReg core 0x000 = some (BitVec.ofNat 32 (0x0768_1000 + core / 192))
      ∧ State.reset.readReg core 0x001 = some 0x400#32 ∧ State.reset.readReg core 0x005 = some 0x100#32
      ∧ State.reset.readReg core 0x012 = some 64#32 ∧ State.reset.readReg core 0x013 = some 1000#32
      ∧ State.reset.readReg core 0x018 = some 16#32 ∧ State.reset.readReg core 0x020 = some 8#32
      ∧ State.reset.readReg core 0x028 = some 10#32
      ∧ (∀ n ∈ [0x002, 0x003, 0x004, 0x010, 0x011, 0x014, 0x021, 0x022, 0x030], State.reset.readReg core n = some 0#32)
      ∧ (∀ n < 65536, n ∉ [0x000, 0x001, 0x002, 0x003, 0x004, 0x005, 0x010, 0x011, 0x012, 0x013, 0x014, 0x018, 0x020, 0x021, 0x022,
          0x028, 0x030] → State.reset.readReg core n = none)
      ∧ (∀ part < 8, ∀ off < 256, State.reset.readUnit part off = 0#32)

/-- R304 to R306, R375: a control core's store of a legal value to a register that sets off nothing else is read back there: CTXBASE,
TRAPVEC, LTELIM, LTEWIN and GCWIN on that core alone, COMBWIN, FABSTAT and LEASE on every core of the die. No other register of any core
changes, and nothing in memory or in a group; but LTELIM and LTEWIN begin a window, so WINCNT of the core's LTECNT becomes 0 and its
upper half stays. An illegal value, and PARTID or PTROOT with a group on the core, leave everything. -/
def Obligations.ControlCoreStores : Prop :=
  ∀ (s : State) (core n : Nat) (x : Word), core < 768 →
    let t := s.hartWriteReg core n x
    (n ∈ [0x004, 0x005, 0x012, 0x013, 0x018] → regValueOk (s.marginMax core) n x = true →
        t.readReg core n = some x ∧ t.mem = s.mem ∧ t.groups = s.groups
          ∧ (∀ c m, ¬(c = core ∧ m = n) → ¬(c = core ∧ m = 0x011 ∧ (n = 0x012 ∨ n = 0x013)) → t.readReg c m = s.readReg c m)
          ∧ ((n = 0x012 ∨ n = 0x013) →
              t.readReg core 0x011 = some ((s.core core).ltecnt &&& 0xFFFF_0000#32) ∧ (t.core core).winStart = s.clk))
      ∧ (n ∈ [0x020, 0x022, 0x028] → regValueOk (s.marginMax core) n x = true →
        (∀ c, c / 192 = core / 192 → t.readReg c n = some x) ∧ t.mem = s.mem ∧ t.groups = s.groups
          ∧ ∀ c m, ¬(c / 192 = core / 192 ∧ m = n) → t.readReg c m = s.readReg c m)
      ∧ ((n = 0x002 ∨ n = 0x003) → s.coreBusy core = false → regValueOk (s.marginMax core) n x = true → t.readReg core n = some x)
      ∧ (s.coreBusy core = true → (n = 0x002 ∨ n = 0x003 ∧ x ≠ 0#32) → t = s)
      ∧ (regValueOk (s.marginMax core) n x = false → t = s)
      ∧ ((n = 0x000 ∨ n = 0x001) → t = s)

/-- R236: a zero row reads as zero, and a demand write that reaches it is discarded. R5, R153: a word stored at an address
outside the zero rows of a working die is the word loaded there, lowest byte first; the poison mark of a sector goes when all of
it is written. -/
def Obligations.PhysicalMemory : Prop :=
  (∀ (s : State) (pa : Nat), pa / 0x10000 % 4096 < 8 → pa < 0x60_0000_0000 →
     s.readPa pa 1 = [0#8] ∧ (∀ bs, s.writePa pa bs = s))
    ∧ (∀ (s : State) (pa : Nat) (w : Word), (∀ i < 4, zeroRow (pa + i) = false) → (s.die (homeDie pa)).failed = false →
         let t := s.writePa pa (bytesLE 4 w.toNat)
         t.readPaNat pa 4 = w.toNat
           ∧ t.readPa pa 4 = [w.extractLsb' 0 8, w.extractLsb' 8 8, w.extractLsb' 16 8, w.extractLsb' 24 8]
           ∧ (∀ b, (b < pa ∨ pa + 4 ≤ b) → t.readPa b 1 = s.readPa b 1)
           ∧ (∀ bs : List Byte, bs.length = 32 → pa % 32 = 0 → (s.writePa pa bs).paPois pa 32 = false)
           ∧ t.groups = s.groups ∧ t.cores = s.cores)

/-- R5: memory as a list of cells in one form: writing a run of bytes keeps the form, reads back, and leaves every other
address. The reads decide a memory in its form: two that read alike everywhere are equal (the model's form of memory, log 2). -/
def Obligations.MemoryReadsBack : Prop :=
  (∀ (m : Memory) (a : Nat) (bs : List Byte),
     (Memory.wf m = true → Memory.wf (writeRun m a bs) = true)
       ∧ (∀ i (h : i < bs.length), readByte (writeRun m a bs) (a + i) = bs[i])
       ∧ (∀ b, (b < a ∨ a + bs.length ≤ b) → readByte (writeRun m a bs) b = readByte m b))
    ∧ (∀ m n : Memory, Memory.wf m = true → Memory.wf n = true → (∀ a, readByte m a = readByte n a) → m = n)

/-- The memory keeps its one form through every step (the model's form, log 2). -/
def Obligations.StepKeepsMemoryForm : Prop :=
  ∀ (s t : State), Memory.wf s.mem = true → step s = .next t → Memory.wf t.mem = true

/-- The memory at reset has the form that every step keeps, and lists nothing. -/
def Obligations.ResetMemoryForm : Prop :=
  Memory.wf State.reset.mem = true ∧ ∀ a, readByte State.reset.mem a = 0#8

/-- A step runs what it fetches: with no move on the agenda the next word of the scene in issue; with a fragment chosen, the
scene header at its PC, its group's image brought into the register cache first (R26); with an event on the agenda, that event. Around it
the clock advances by one; that, and the agenda of moves, one move a step, are the model's choice (log 1). A partition
whose time reached the reserve in the step is torn down (R332); parks and pre-emptions whose condition holds take effect (R27, R308), and
the layouts of tombstones that it changed are written (R352). A word placed where step fetches is what step runs (log 9). -/
def Obligations.StepRunsDecoded : Prop :=
  (∀ (s : State),
     (∀ i, s.agenda = [] → s.iss.live = true → decodeWord (s.iss.words.getD s.iss.idx 0#32) = .ok i →
         step s = s.settle (exec i { s with clk := s.clk + 1 }))
       ∧ (∀ u slot r g len w, s.agenda = .issue u slot :: r → s.iss.live = false → s.grp u = some g → g.canIssue slot = true → s.heldBack g = false →
           (g.slot slot).pc.toNat % 4 = 0 → (g.slot slot).pc.toNat < g.book.codeLen →
           let v := State.useImage { s with clk := s.clk + 1, agenda := r } u
           v.codeWord g (g.slot slot).mask (g.slot slot).pc = .ok w →
           decodeWord w = .ok (.scene len) →
           step s = s.settle (exec (.scene len) { v with iss := { g := { uid := u }, slot := slot } }))
       ∧ (∀ i r, s.agenda = .event i :: r → step s = s.settle (exec i { s with clk := s.clk + 1, agenda := r }))
       ∧ (∀ t, (∀ p < 8, (t.part p).rebaseLate = true → (s.part p).rebaseLate = true) → (∀ k ∈ t.gangs, k.place ≠ .evicting) →
           (∀ g ∈ t.groups, g.parking = false) → (∀ k ∈ t.tombs, k ∈ s.tombs) → s.settle (.next t) = .next t))
    ∧ (∀ (s : State) (w : Nat) (i : Instr), w < 2 ^ 32 → decodeWord (BitVec.ofNat 32 w) = .ok i → w / 2 ^ 24 ≠ 1 →
         let u := s.withFetchWord 32 w
         step u = u.settle (exec i { u with clk := u.clk + 1 }) ∧ u.mem = s.mem ∧ u.clk = s.clk ∧ u.cores = s.cores)

/-- R32, R52: decode of encode is the instruction, for every word instruction with every operand its encoding admits, whatever bytes
follow it. -/
def Obligations.DecodeOfEncode : Prop :=
  ∀ (i : Instr) (rest : List Byte), Machine.isWord i = true → decodeBytes (encodeBytes i ++ rest) = .ok (i, rest)

/-- R32, R52: a word that decodes to an instruction is that instruction's encoding: each word has one meaning and each instruction one
word. -/
def Obligations.EncodeOfDecode : Prop :=
  ∀ (w : Word) (i : Instr), decodeWord w = .ok i → encode i = w ∧ Machine.isWord i = true

/-- R53: the reserved opcodes name no instruction, whatever their other bits hold, and are illegal-instruction faults at their word;
no other opcode is reserved. -/
def Obligations.ReservedOpcodes : Prop :=
  ∀ (w : Word), let op := w.toNat / 2 ^ 24
    let reserved : Prop := op = 0 ∨ op = 0xFF ∨ (0x0E ≤ op ∧ op ≤ 0x0F) ∨ (0x1B ≤ op ∧ op ≤ 0x1F) ∨ (0x5C ≤ op ∧ op ≤ 0x5F)
      ∨ (0x6E ≤ op ∧ op ≤ 0x6F) ∨ (0x77 ≤ op ∧ op ≤ 0x7F) ∨ (0x96 ≤ op ∧ op ≤ 0x9F) ∨ (0xA9 ≤ op ∧ op ≤ 0xAF)
      ∨ (0xB9 ≤ op ∧ op ≤ 0xBF) ∨ (0xCB ≤ op ∧ op ≤ 0xCF) ∨ (0xD6 ≤ op ∧ op ≤ 0xFE)
    (reserved → looseDecode w = none ∧ decodeWord w = .error (.reservedOpcode (BitVec.ofNat 8 op))
        ∧ ∀ regs len idx x, wordFault regs len idx w x = some { cls := 2, idx := idx })
      ∧ (¬reserved → (looseDecode w).isSome = true)

/-- Words of the manual's tables decode to the instructions that stand beside them. -/
def Obligations.ManualWordsDecode : Prop :=
  ∀ x ∈ manualWords, decodeWord x.1 = .ok x.2 ∧ encode x.2 = x.1

/-- R304 to R306, R331, R344, R345, R351, R372 to R379, R392, R414: a control core's store of each named register is that store.
R372: a legal MARGIN write changes STEP alone, one above MAX is dropped. R379, R380: a legal HEALTH write replaces the register, and
sets REPLACE where one of its causes comes to hold; that it leaves REPLACE as written where a cause only goes on to hold is the model's
reading (log 80). R376 to R378: a QUAR write quarantines the core or releases it, QCORES follows, and a
quarantine is logged with KIND 3 (shown where no gang is on the core and no launch is open). R392: a COMBTEST write arms or disarms; MODE 3
drops the switch's records and sets COUNT to 0. R344, R345: a legal GO notes the range, drops the partition's translations that meet it, makes
its memory waiters there read again (of a group in the register cache; log 103), and is busy;
while busy, or with an illegal field, it does nothing. R414: a legal GRAPHCTL write that no
running wave blocks sets four
controllers. -/
def Obligations.RegisterEvents : Prop :=
  (∀ (s : State) (core die part r n off : Nat) (x : Word),
     exec (.partidWrite core x) s = .next (s.hartWriteReg core 0x002 x)
       ∧ exec (.ptrootWrite core x) s = .next (s.hartWriteReg core 0x003 x)
       ∧ exec (.marginWrite core x) s = .next (s.hartWriteReg core 0x010 x)
       ∧ exec (.ltelimWrite core x) s = .next (s.hartWriteReg core 0x012 x)
       ∧ exec (.ltewinWrite core x) s = .next (s.hartWriteReg core 0x013 x)
       ∧ exec (.quarWrite core x) s = .next (s.hartWriteReg core 0x014 x)
       ∧ exec (.healthWrite die x) s = .next (s.hartWriteReg (die * 192) 0x030 x)
       ∧ exec (.registerWrite (.core core n) x) s = .next (s.hartWriteReg core n x)
       ∧ exec (.registerWrite (.die die n) x) s = .next (s.hartWriteReg (die * 192) n x)
       ∧ (off ∉ [0x14, 0x18, 0x2C, 0x48, 0x6C, 0x70, 0x74, 0x78] →
           exec (.registerWrite (.unit part off) x) s = .next (s.setPart part ((s.part part).writePlain off x)))
       ∧ (r < 4 → exec (.registerWrite (.unit part (0x6C + 4 * r)) x) s = .next (s.writeGraphctl part r x))
       ∧ exec (.graphctlWrite part r x) s = .next (s.writeGraphctl part r x)
       ∧ exec (.shootdownGo part x) s = .next (s.doShootdown part x)
       ∧ (bits x 1 0 = 0 → exec (.combtestDisarm die x) s = .next (s.hartWriteReg (die * 192) 0x021 x))
       ∧ (bits x 1 0 = 1 → exec (.combtestCorruptCopy die x) s = .next (s.hartWriteReg (die * 192) 0x021 x))
       ∧ (bits x 1 0 = 2 → exec (.combtestLoseRecord die x) s = .next (s.hartWriteReg (die * 192) 0x021 x))
       ∧ (bits x 1 0 = 3 → exec (.combtestResetSwitch die x) s = .next (s.hartWriteReg (die * 192) 0x021 x)))
    ∧ (∀ (s : State) (core die part r : Nat) (x : Word),
         (bits x 7 0 ≤ bits (s.core core).margin 15 8 → ∃ t, exec (.marginWrite core x) s = .next t ∧ t.mem = s.mem
             ∧ bits (t.core core).margin 7 0 = bits x 7 0 ∧ bits (t.core core).margin 31 8 = bits (s.core core).margin 31 8
             ∧ (t.core core).quar = (s.core core).quar ∧ (t.core core).ltecnt = (s.core core).ltecnt)
           ∧ (bits (s.core core).margin 15 8 < bits x 7 0 → exec (.marginWrite core x) s = .next s)
           ∧ (die < 4 → bits x 30 27 = 0 → ∃ t, exec (.healthWrite die x) s = .next t ∧ t.mem = s.mem
               ∧ (newlyReplaces (s.die die).health x → (t.die die).health = setBit x 31 true)
               ∧ (¬newlyReplaces (s.die die).health x → (t.die die).health = x))
           ∧ (core < 768 → bits x 31 3 = 0 →
               let was := bitOf (s.core core).quar 0
               let d := core / 192
               (bitOf x 0 = true → was = true → ∃ t, exec (.quarWrite core x) s = .next t ∧ (t.core core).quar = x ∧ t.dies = s.dies
                   ∧ t.mem = s.mem ∧ t.gangs = s.gangs)
                 ∧ (bitOf x 0 = false → was = false → ∃ t, exec (.quarWrite core x) s = .next t ∧ (t.core core).quar = 0#32
                   ∧ t.dies = s.dies ∧ t.mem = s.mem ∧ t.gangs = s.gangs)
                 ∧ (bitOf x 0 = false → was = true → ∃ t, exec (.quarWrite core x) s = .next t ∧ (t.core core).quar = 0#32
                   ∧ bits (t.die d).health 7 0 = bits (s.die d).health 7 0 - 1 ∧ t.mem = s.mem ∧ t.gangs = s.gangs)
                 ∧ (bitOf x 0 = true → was = false → (∀ k ∈ s.gangs, core ∈ k.cores → k.place = .ended) → (∀ l ∈ s.launches, l.complete = true) →
                   ∃ t, exec (.quarWrite core x) s = .next t ∧ (t.core core).quar = x ∧ t.mem = s.mem ∧ t.gangs = s.gangs
                     ∧ bits (t.die d).health 7 0 = min (bits (s.die d).health 7 0 + 1) 192
                     ∧ (t.die d).logCount = (s.die d).logCount + 1#32
                     ∧ let e := tget (t.die d).log ((s.die d).logCount.toNat % 64) 0#64
                       e.toNat % 2 ^ 24 = bits (s.core core).margin 7 0 * 4096 + 3 * 256 + core % 192))
           ∧ (die < 4 → bits x 31 24 = 0 → bits x 15 14 = 0 → bits x 7 2 = 0 → bits x 13 12 ≠ 3 →
               (bits x 1 0 ≠ 3 → ∃ t, s.hartWriteReg (die * 192) 0x021 x = t ∧ (t.die die).combtest = x ∧ t.recs = s.recs ∧ t.pkts = s.pkts
                   ∧ t.mem = s.mem)
                 ∧ (bits x 1 0 = 3 → ∃ t, exec (.combtestResetSwitch die x) s = .next t
                   ∧ (t.die die).combtest = x &&& 0xFF00_FFFF#32 ∧ t.mem = s.mem
                   ∧ t.recs = s.recs.filter fun r =>
                       !(r.at_.die == die && r.at_.stage == bits x 13 12 && r.at_.sw == bits x 11 8)))
           ∧ (let p := s.part part
              let start := bits p.sdvalo 31 12 * 4096 + bits p.sdvahi 24 0 * 2 ^ 32
              let len := 2 ^ bits x 5 0
              let ok : Prop := bits x 7 6 = 0 ∧ bits x 30 10 = 0 ∧ 12 ≤ bits x 5 0 ∧ bits x 5 0 ≤ 57 ∧ start % len = 0
              let meets (e : TlbEntry) : Prop :=
                bitOf x 9 = true ∨ (let a := if bitOf x 8 then e.ipa else e.va; a < start + len ∧ start < a + e.size)
              let woken (y : Slot) : Slot :=
                if y.st = .waiting ∧ (y.wait = .mwne ∨ y.wait = .mwgeS ∨ y.wait = .mwgeU) ∧ y.wspace = 0#2
                    ∧ (bitOf x 9 = true ∨ bitOf x 8 = true ∨ (y.waddr.toNat < start + len ∧ start < y.waddr.toNat + 4)) then
                  { y with fired := y.watched, due := 0 }
                else y
              (p.sd.busy = true ∨ ¬ok → exec (.shootdownGo part x) s = .next s)
                ∧ (p.sd.busy = false → ok → ∃ t, exec (.shootdownGo part x) s = .next t ∧ t.mem = s.mem
                  ∧ t.groups = s.groups.map (fun g => if g.part = part ∧ g.cached = true then
                      { g with slot0 := woken g.slot0, slot1 := woken g.slot1, stack := g.stack.map woken } else g)
                  ∧ (t.part part).sd = { busy := true, lo := start, len := len, stage2 := bitOf x 8, all := bitOf x 9,
                                         mark := s.fresh, at_ := s.fresh }
                  ∧ ∀ c e, e ∈ (t.core c).tlb ↔ e ∈ (s.core c).tlb ∧ ¬(e.part = part ∧ meets e)))
           ∧ (r < 4 → (∀ k < 4, bits x (8 * k + 7) (8 * k + 5) = 0) →
               (∀ w ∈ s.waves, ¬(w.part = part ∧ w.kind ≠ .gbind ∧ (w.st = .queued ∨ w.st = .running))) →
               ∃ t, exec (.graphctlWrite part r x) s = .next t ∧ t.mem = s.mem
                 ∧ ∀ k < 4, (((t.part part).graphctl)[4 * r + k]?) = some (BitVec.ofNat 5 (bits x (8 * k + 4) (8 * k)))))

/-- The group of a trap park as its unparking finds it: its image read where it has left the register cache (R25, R343). -/
def Sys2Proof.Claim.unparked (s : State) (g : Grp) : Grp := if g.cached then g else s.readImage g g.core

/-- A group parked by a trap whose gang has its cores, with a free place among the residents and room in the register cache (R331). -/
structure Sys2Proof.Claim.Parked (s : State) (part slot : Nat) (g : Grp) (k : Gang) : Prop where
  found : s.trapParked part slot = some g
  first : s.grp g.uid = some g
  gang : s.gang g.gang = some k
  placed : k.place = .placed
  free : s.residents g.core < 32
  room : ((s.cachedOn g.core).map Grp.lines).sum + g.lines ≤ Config.regLines

/-- R330 to R332, R344, R345, R351, R364: what system software asks of a partition. Quiesce sets QUIESCE and asks every placed gang to
leave. Rebase acts once the partition is quiesced; asked before that it does nothing (the model's reading, log 33). Teardown ends
every open launch with STATUS 6 and no range left, and, shown where nothing of the partition runs, sets the bits, and writes 0 to PTROOT of
its cores and drops their translations. A settled shootdown ends with every read-shared copy of the partition gone, those of other pages too
(the model's choice, log 73). The three ends of a trap park: retry at the
saved PC, delivery to the handler, and the kill, which gives STATUS 7; a trapped fragment that the other fragment's branch has pushed on the
split stack goes on from there; dropped where no group parked by a trap has the slot; the
same asked by stores to the launch unit's registers. -/
def Obligations.PartitionEvents : Prop :=
  ∀ (s : State) (part slot : Nat) (g : Grp),
    exec (.quiesce part) s = .next (s.doQuiesce part)
      ∧ s.doQuiesce part = ((s.gangs.filter fun k => k.part == part && k.place == .placed).map (·.id)).foldl State.askEvict
          (s.updPart part fun p => { p with quiesce := true })
      ∧ ((∀ k ∈ s.gangs, k.part = part → k.place ≠ .placed) → ∃ t, exec (.quiesce part) s = .next t ∧ (t.part part).quiesce = true
          ∧ t.mem = s.mem ∧ t.groups = s.groups ∧ t.gangs = s.gangs ∧ t.launches = s.launches)
      ∧ (s.quiesced part = true → exec (.rebase part) s = .next (s.doRebase part))
      ∧ (s.quiesced part = false → exec (.rebase part) s = .next s)
      ∧ exec (.teardown part) s = .next (s.teardownPart part)
      ∧ (∃ t, exec (.teardown part) s = .next t
          ∧ ∀ l ∈ t.launches, l.part = part → l.complete = false →
              l.ending = true ∧ l.status = 6 ∧ l.ranges = [] ∧ l.again = [] ∧ l.waiting = false)
      ∧ (s.groups = [] → s.waves = [] → s.cpys = [] → s.bcmds = [] → ∃ t, exec (.teardown part) s = .next t
          ∧ (t.part part).torn = true ∧ (t.part part).tdown = true ∧ (t.part part).sd.busy = true ∧ t.mem = s.mem
          ∧ ∀ c, c ∈ s.partCores part → (t.core c).ptroot = 0#32 ∧ (t.core c).tlb = [])
      ∧ (∃ t, exec (.teardownClear part) s = .next t ∧ (t.part part).torn = false
          ∧ (s.tdone part = true → (t.part part).tdown = false) ∧ t.mem = s.mem ∧ t.groups = s.groups)
      ∧ (s.shootdownSettled part = true → ∃ t, exec (.shootdownDone part) s = .next t ∧ (t.part part).sd.busy = false ∧ t.mem = s.mem
          ∧ ∀ c ∈ t.copies, c ∈ s.copies ∧ ¬(c.readShared = true ∧ c.part = part))
      ∧ (s.shootdownSettled part = false → exec (.shootdownDone part) s = .next s)
      ∧ (∀ k, Parked s part slot g k →
          let x := unparked s g
          (x.slot g.trapSlot).hold = .trapPark → (x.slot (!g.trapSlot)).hold = .none → GoesOn x g.trapSlot x.trapPc →
          ∃ t h, exec (.parkRetry part slot) s = .next t ∧ t.mem = s.mem ∧ t.grp g.uid = some h ∧ h.place = .resident ∧ h.cached = true
            ∧ h.slot g.trapSlot = { x.slot g.trapSlot with pc := x.trapPc, hold := .none } ∧ h.slot (!g.trapSlot) = x.slot (!g.trapSlot)
            ∧ h.s = x.s ∧ h.v = x.v ∧ h.p = x.p ∧ h.stack = x.stack)
      ∧ (∀ k, Parked s part slot g k →
          let x := unparked s g
          (x.slot g.trapSlot).hold = .trapPark → (x.slot (!g.trapSlot)).handler = false → x.book.handler ≠ Config.noJoin →
          ∃ t h, exec (.parkDeliver part slot) s = .next t ∧ t.mem = s.mem ∧ t.grp g.uid = some h ∧ h.place = .resident
            ∧ h.slot g.trapSlot = { x.slot g.trapSlot with handler := true, pc := x.book.handler, mode := Config.modeReset, st := .ready,
                                                           hold := .none }
            ∧ h.slot (!g.trapSlot) = x.slot (!g.trapSlot) ∧ h.savedMode = (x.slot g.trapSlot).mode ∧ h.trapInfo = x.trapInfo
            ∧ h.trapPc = x.trapPc ∧ h.s = x.s ∧ h.v = x.v ∧ h.p = x.p)
      ∧ (∀ k, Parked s part slot g k →
          let x := unparked s g
          let deep (hold : Hold) : List Slot := x.stack.map fun y => if y.hold = .trapPark then { y with pc := x.trapPc, hold := hold } else y
          (x.slot g.trapSlot).hold ≠ .trapPark → (∃ y ∈ x.stack, y.hold = .trapPark) → (x.slot (!g.trapSlot)).hold = .none →
          (∃ t h, exec (.parkRetry part slot) s = .next t ∧ t.mem = s.mem ∧ t.grp g.uid = some h ∧ h.place = .resident
              ∧ h.slot0 = x.slot0 ∧ h.slot1 = x.slot1 ∧ h.stack = deep .none)
            ∧ (x.book.handler ≠ Config.noJoin →
              ∃ t h, exec (.parkDeliver part slot) s = .next t ∧ t.mem = s.mem ∧ t.grp g.uid = some h ∧ h.place = .resident
                ∧ h.slot0 = x.slot0 ∧ h.slot1 = x.slot1 ∧ h.stack = deep (.handlerPend x.trapInfo)))
      ∧ (s.trapParked part slot = some g → exec (.parkDeliver part slot) s = .next
          (let v := (s.unpark g.uid).deliverTrap g.uid
           (if v.handles g.uid g.trapSlot then v else v.releaseHeld g.uid (!g.trapSlot)).flushImage g.uid))
      ∧ (s.trapParked part slot = some g → exec (.parkKillGang part slot) s = .next (State.killGang
          (s.updLaunch g.launch fun l => if l.status = 0 then { l with status := 7 } else l) g.gang))
      ∧ (s.trapParked part slot = none → exec (.parkRetry part slot) s = .next s ∧ exec (.parkDeliver part slot) s = .next s
          ∧ exec (.parkKillGang part slot) s = .next s)
      ∧ ((s.part part).quiesce = false → exec (.registerWrite (.unit part 0x18) 1#32) s = .next (s.doQuiesce part))
      ∧ (∀ x : Word, x.getLsbD 31 = true → exec (.registerWrite (.unit part 0x2C) x) s = .next (s.doShootdown part x))
      ∧ exec (.registerWrite (.unit part 0x48) 1#32) s = .next (s.teardownPart part)

/-- A die that fails while no gang has a core and no wave has a controller on it, no fragment waits, and the other dies stay joined without
it (R366, R393). -/
structure Sys2Proof.Claim.Bare (s : State) (die : Nat) : Prop where
  works : (s.die die).failed = false
  gangs : ∀ k ∈ s.gangs, k.place = .ended
  waves : ∀ w ∈ s.waves, w.ctrl / 8 ≠ die
  slots : ∀ g ∈ s.groups, g.slot0.st ≠ .waiting ∧ g.slot1.st ≠ .waiting
  joined : (s.markLost die).cutOff = []

/-- What the failure of a bare die leaves (R366, R379): the die failed, no copy of a line homed there, its two neighbours with DIELOST, and
memory, groups and gangs as before. -/
structure Sys2Proof.Claim.Lost (s t : State) (die : Nat) : Prop where
  failed : (t.die die).failed = true
  copies : t.copies = s.copies.filter fun c => homeDie (256 * c.line) != die
  near : ∀ n ∈ [die ^^^ 1, die ^^^ 2], (s.die n).failed = false → bitOf (t.die n).health 26 = true
  mem : t.mem = s.mem
  groups : t.groups = s.groups
  gangs : t.gangs = s.gangs

/-- R350, R351, R366, R368 to R375, R379, R393, R408: margin events, slice errors, thermal events and failures. R374: a late-transition
event raises WINCNT by one, saturating, in a new window where the old one has ended; while the count stays at or below LIMIT nothing else
changes, and above it, with STEP above 0, STEP falls by one, STEPS rises, WINCNT is 0 and a window begins. R379: a slice's
uncorrectable error is counted; with more than 16 within an hour (1900 clocks a microsecond) the slice counts once in RSLICES and enters
the record's repair map. R366, R408: a die that fails, or stops at 110 degrees (which is
reported), is lost, shown where it is bare. R393: a die that no path
reaches then is lost with it: when a die fails whose opposite die has failed, of its two neighbours the one with the higher number (which
of the two is the model's choice, log 86). R350:
an imprecise error poisons its sector but for HOMELOST, adds to FCOUNT and stores its record in the error ring, or counts in ERRDROP where the
ring is full; its operand is read as 8 times the image slot plus the partition (the model's reading, log 79). -/
def Obligations.MarginAndFailureEvents : Prop :=
  (∀ (s : State) (core die slice : Nat),
     exec (.lateTransitionEvent core) s = .next (s.countLte core)
       ∧ exec (.engineBitstepReplay core) s = .next (s.countLte core)
       ∧ ((s.core core).winStart + bits (s.core core).ltewin 19 0 * 1900 ≤ s.clk →
           ∃ t, exec (.lteWindowExpiry core) s = .next t ∧ bits (t.core core).ltecnt 15 0 = 0
             ∧ (t.core core).winStart = (s.core core).winStart + bits (s.core core).ltewin 19 0 * 1900
             ∧ t.mem = s.mem)
       ∧ (let errs := s.clk :: (tget (s.die die).sliceErrs slice []).filter fun t => decide (s.clk < t + 6840000000000)
          ∃ t, exec (.sliceErrorThreshold die slice) s = .next t ∧ t.mem = s.mem ∧ t.groups = s.groups
            ∧ tget (t.die die).sliceErrs slice [] = errs
            ∧ (errs.length ≤ 16 → (t.die die).health = (s.die die).health ∧ (t.die die).retiring = (s.die die).retiring)
            ∧ (16 < errs.length → slice ∈ (t.die die).retiring)
            ∧ (16 < errs.length → slice ∉ (s.die die).retiring →
                bits (t.die die).health 12 8 = min (bits (s.die die).health 12 8 + 1) 31 ∧ (die, slice) ∈ t.flash.record.retired))
       ∧ (∃ t, exec (.thermalGate die) s = .next t ∧ (t.die die).gated = true ∧ t.out = .thermal die 0 :: s.out ∧ t.mem = s.mem)
       ∧ (∃ t, exec (.thermalUngate die) s = .next t ∧ (t.die die).gated = false ∧ t.mem = s.mem)
       ∧ exec (.thermalStop die) s = .next ((s.loseDie die).send (.thermal die 1))
       ∧ exec (.dieFailure die) s = .next (s.loseDie die)
       ∧ (die < 4 → Bare s die → (∃ t, exec (.dieFailure die) s = .next t ∧ Lost s t die)
           ∧ ∃ t o, exec (.thermalStop die) s = .next t ∧ Lost s t die ∧ t.out = .thermal die 1 :: o)
       ∧ (die < 4 → s.gangs = [] → s.groups = [] → s.waves = [] →
           (∀ d < 4, (s.die d).failed = true ↔ d = die ^^^ 3) →
           ∃ t, exec (.dieFailure die) s = .next t ∧ t.mem = s.mem
             ∧ ∀ d < 4, (t.die d).failed = true ↔ d ≠ min (die ^^^ 1) (die ^^^ 2))
       ∧ (∀ port, port ∉ (s.die die).linksHalf → port ∉ (s.die die).linksFailed →
           ∃ t, exec (.dieLinkFailure die port false) s = .next t ∧ port ∈ (t.die die).linksHalf ∧ t.mem = s.mem
             ∧ bits (t.die die).health 24 21 = min (bits (s.die die).health 24 21 + 1) 8)
       ∧ (∀ kind part k ord pa b, kind ≠ .writeback → part < 8 → s.tomb part k = some b →
           exec (.impreciseError kind (8 * k + part) ord pa) s = .next (s.imprecise kind part k ord pa))
       ∧ (∀ kind part k ord pa b, kind ≠ .writeback → part < 8 → s.tomb part k = some b →
           let p := s.part part
           let n := 2 ^ bits p.errctl 4 0
           let j := p.errcount
           let ring := p.errlo.toNat + bits p.errhi 15 0 * 2 ^ 32 + 32 * (j % n)
           let used := (BitVec.ofNat 32 j - p.errhead).toNat
           (bits p.errctl 4 0 = 0 ∨ n ≤ used → ∃ t, exec (.impreciseError kind (8 * k + part) ord pa) s = .next t ∧ t.mem = s.mem
               ∧ (t.part part).errdrop = (if p.errdrop = BitVec.allOnes 32 then p.errdrop else p.errdrop + 1#32)
               ∧ (t.part part).errcount = j ∧ (kind ≠ .homelost → zeroRow pa = false → t.paPois pa 1 = true))
             ∧ (bits p.errctl 4 0 ≠ 0 → used < n → s.lineFree (lineOf ring) = true → s.bankHolds ring true = false →
               (∀ x ∈ s.stalls, x.part ≠ part) → (s.die (homeDie ring)).failed = false → (∀ i < 32, zeroRow (ring + i) = false) →
               ∃ t, exec (.impreciseError kind (8 * k + part) ord pa) s = .next t ∧ (t.part part).errcount = j + 1
                 ∧ t.mem = writeRun s.mem ring (bytesLE 8 b.launchId.toNat ++ bytesLE 4 (errKindCode kind + b.groupNo * 256)
                     ++ bytesLE 4 b.block ++ bytesLE 4 (tget b.scenes ord.toNat 0#32).toNat ++ bytesLE 4 0
                     ++ bytesLE 8 (pa / 32 * 32 + (j / n + 1) % 2 * 2 ^ 63))
                 ∧ t.out = .interrupt (bits p.errctl 11 8) (bits p.errctl 22 12) :: s.out
                 ∧ ∀ l, s.launch b.launch = some l → ∃ m, t.launch b.launch = some m ∧ m.fcount = min (l.fcount + 1) 65535)))
    ∧ (∀ (s : State) (core : Nat), core < 768 →
         let c := s.core core
         let w := bits c.ltewin 19 0 * 1900
         let before := if 0 < w ∧ c.winStart + w ≤ s.clk then 0 else bits c.ltecnt 15 0
         let n := min (before + 1) 65535
         (n ≤ bits c.ltelim 15 0 →
           ∃ t, exec (.lateTransitionEvent core) s = .next t ∧ bits (t.core core).ltecnt 15 0 = n
             ∧ bits (t.core core).ltecnt 31 16 = bits c.ltecnt 31 16 ∧ (t.core core).margin = c.margin
             ∧ (t.core core).quar = c.quar ∧ t.mem = s.mem ∧ t.groups = s.groups ∧ t.out = s.out)
           ∧ (bits c.ltelim 15 0 < n → 0 < bits c.margin 7 0 →
             ∃ t, exec (.lateTransitionEvent core) s = .next t ∧ bits (t.core core).ltecnt 15 0 = 0 ∧ (t.core core).winStart = s.clk
               ∧ bits (t.core core).ltecnt 31 16 = min (bits c.ltecnt 31 16 + 1) 65535
               ∧ bits (t.core core).margin 7 0 = bits c.margin 7 0 - 1 ∧ (t.core core).quar = c.quar ∧ t.mem = s.mem
               ∧ (t.die (core / 192)).logCount = (s.die (core / 192)).logCount + 1#32))

/-- R22, R150, R157, R352: loads on their way: the collection window of a line ends and its merged request goes out with a program time no
less than the group's, the last value wakes the load, the result lands in the group's image and its registers become full, and a store whose
lanes have all acted is acknowledged. -/
def Obligations.RequestEvents : Prop :=
  ∀ (s : State) (r : Nat) (q : Req), s.req r = some q →
    (q.kind = .load → q.woken = false → ∀ line due g, tfind q.wins line = some due → due ≤ s.clk → tfind q.sent line = none →
        s.grp q.uid = some g →
        ∃ t p m, exec (.gatherWindowExpiry r) s = .next t ∧ t.req r = some p ∧ tfind p.sent line = some m ∧ g.pts ≤ m ∧ t.mem = s.mem
          ∧ t.groups = s.groups)
      ∧ (q.kind = .load → q.woken = false → (∀ a ∈ q.accs, a.done = true) →
        ∃ t, exec (.gatherWake r) s = .next t ∧ t.req r = some { q with woken := true } ∧ t.mem = s.mem ∧ t.groups = s.groups)
      ∧ (q.kind = .load → q.woken = true → (∀ a ∈ q.accs, a.done = true) → q.dest ≠ .none → q.twin = none →
        exec (.deferredResultLands r) s = .next ((s.updImage q.uid fun g => g.landReq q).dropReq r))
      ∧ (q.kind = .load → q.woken = true → (∀ a ∈ q.accs, a.done = true) → q.dest ≠ .none → q.twin = none →
        ∀ g, s.grp q.uid = some g → g.place ≠ .evicted → g.place ≠ .trapParked →
        ∃ t, exec (.deferredResultLands r) s = .next t ∧ t.grp q.uid = some (g.landReq q) ∧ t.mem = s.mem
          ∧ t.reqs = s.reqs.filter fun x => x.id != r)
      ∧ (q.kind ≠ .load → q.acked = false → (∀ a ∈ q.accs, a.done = true) → (q.kind ≠ .atomic ∨ q.dest = .none) →
        exec (.storeAcknowledge r) s = .next ((s.ackSide q.part q.imgSlot q.ord 1).dropReq r))

/-- R47, R157, R158: where a load's result lands, in the 1 or 4 registers of its destination, register j taking bytes 4j to 4j + 3, and the
narrow loads sign-extended where E asks for it. v: the lanes that accessed take the word with its poison, every other lane keeps its value; the
register is full and carries the load's tag. s: the value of the uniform access, with its poison; the register is full. No other
register changes. -/
def Obligations.LoadResultLands : Prop :=
  ∀ (g : Grp) (r : Req) (n k : Nat), (r.ext = 0 ∨ r.ext = 8 ∨ r.ext = 16) →
    let acc (l : Nat) : Acc := (r.accs.find? fun a => a.lane == l).getD {}
    let word (a : Acc) (j : Nat) : Word :=
      if r.ext = 8 then (a.res.extractLsb' (32 * j) 8).signExtend 32
      else if r.ext = 16 then (a.res.extractLsb' (32 * j) 16).signExtend 32 else a.res.extractLsb' (32 * j) 32
    let h := g.landReq r
    (n + k ≤ 128 → r.dest = .v n k →
        (∀ j < k, let v := h.vreg (n + j)
          (∀ l < 32, laneAt v.lanes l = if r.act.getLsbD l then word (acc l) j else laneAt (g.vreg (n + j)).lanes l)
            ∧ (∀ l < 32, v.pois.getLsbD l = if r.act.getLsbD l then (acc l).rpois else (g.vreg (n + j)).pois.getLsbD l)
            ∧ v.full = true ∧ v.tag = r.tag)
          ∧ (∀ m, (m < n ∨ n + k ≤ m) → h.vreg m = g.vreg m) ∧ h.s = g.s ∧ h.p = g.p ∧ h.pts = g.pts)
      ∧ (n + k ≤ 32 → r.dest = .s n k →
        (∀ j < k, h.sreg (n + j) = { val := word (r.accs.headD {}) j, pois := (r.accs.headD {}).rpois, full := true })
          ∧ (∀ m, (m < n ∨ n + k ≤ m) → h.sreg m = g.sreg m) ∧ h.v = g.v ∧ h.p = g.p ∧ h.pts = g.pts)

/-- R147, R149, R158, R182, R183: loads and stores where they act. A load that finds a copy it may use takes its bytes from there, and pts
rises to the copy's w. One that finds none takes the bytes at the home: a coherent or bank line's rts rises to the request's pts + L, L
the die's LEASE, and the group's pts to wts; a private or read-shared line takes no time. A store's access writes its bytes in a sector,
those and no others; an ordinary one sets wts and rts of the line, and the group's pts, to max(pts, rts + 1). -/
def Obligations.HomeAccessEvents : Prop :=
  ∀ (s : State) (r i : Nat) (q : Req) (a : Acc) (g : Grp) (pa : Nat) (cls : Machine.Class),
    s.req r = some q → q.accs[i]? = some a → s.grp q.uid = some g → a.tgt = .mem pa cls → a.done = false → s.mayAct q i = true →
    (q.kind = .load → q.pre = none → q.policy = .normal → g.twin = none → ∀ c l1, s.hit g pa a.size cls = some (c, l1) →
        ∃ t p h, exec (.homeLoad r i) s = .next t ∧ t.mem = s.mem ∧ t.lines = s.lines ∧ t.req r = some p
          ∧ p.accs[i]? = some { a with done := true, res := BitVec.ofNat 128 (ofBytesLE (c.serve pa a.size).1), rpois := (c.serve pa a.size).2 }
          ∧ t.grp q.uid = some h ∧ h.pts = if c.owner.isNone && !c.readShared then max g.pts c.w else g.pts)
      ∧ (s.owned (lineOf pa) = false → (s.die (homeDie pa)).failed = false → q.kind = .load → q.pre = none →
        (q.policy ≠ .normal ∨ s.hit g pa a.size cls = none) → s.bankHolds pa false = false → g.twin = none →
        ∀ m, tfind q.sent (lineOf pa) = some m →
        let old := s.lineTimes pa g.part
        ∃ t p h, exec (.homeLoad r i) s = .next t ∧ t.mem = s.mem ∧ t.req r = some p
          ∧ p.accs[i]? = some { a with done := true, res := BitVec.ofNat 128 (s.readPaNat pa a.size), rpois := s.paPois pa a.size }
          ∧ t.grp q.uid = some h
          ∧ (q.policy = .normal → (cls = .priv ∨ cls = .readShared) → h = g ∧ t.lines = s.lines)
          ∧ (q.policy = .normal → (cls = .coherent ∨ cls = .bank) → g.pts ≤ m →
              h.pts = max g.pts old.wts ∧ ∃ x, tfind t.lines (lineOf pa) = some x ∧ x.wts = old.wts
                ∧ x.rts = max old.rts (m + bits (s.die (homeDie pa)).lease 7 0)))
      ∧ (s.owned (lineOf pa) = false → (s.die (homeDie pa)).failed = false → q.kind = .store → q.policy ≠ .wc →
        s.lineHeld (lineOf pa) = false → q.accs = [a] → pa % 32 + a.size ≤ 32 → 1 ≤ a.size →
        zeroRow pa = false → s.bankHolds pa true = false →
        ∃ t h, exec (.homeStore r i) s = .next t ∧ t.mem = writeRun s.mem pa (bytesLE a.size a.data.toNat)
          ∧ t.req r = some { q with accs := [{ a with done := true }] } ∧ t.grp q.uid = some h
          ∧ (q.policy = .normal → cls ≠ .priv →
              let time := max g.pts ((s.lineTimes (32 * (pa / 32)) q.part).rts + 1)
              h.pts = time ∧ ∃ x, tfind t.lines (lineOf pa) = some x ∧ x.wts = time ∧ x.rts = time))

/-- R148, R170, R174, R186, R192: what orders accesses. A line evicted leaves its rts in the slice's mts. A WC sector whose time is out
leaves for its home, waits there for a line that an agent owns or for its group's earlier accesses to its bytes, or writes the bytes of its
mask. A drain ends once the NT and WC stores and
copies that the group performed before it are done; a memory wait reads its word at the home, and ends, or watches, or is read again in 2048
clocks where 32 waiters watch the word; where its page lies elsewhere since a shootdown, it reads
there. A fence is outstanding from its "perform"; while it is, no later word of the group
performs,
and a fragment that arrives at a scene with effects waits. -/
def Obligations.OrderingEvents : Prop :=
  ∀ (s : State),
    (∀ line t, tfind s.lines line = some t → ∃ u, exec (.lineEviction line) s = .next u ∧ tfind u.lines line = none ∧ u.mem = s.mem
        ∧ t.rts ≤ tget u.mts (s.mtsKey (256 * line) t.part) 0)
      ∧ (∀ core k e, (s.core core).wc[k]? = some e → e.since + 4096 ≤ s.clk →
        exec (.wcSectorTimeout core k) s = .next (s.wcFlush core fun x => x.uid == e.uid && x.sector == e.sector))
      ∧ (∀ core k e, (s.core core).wc[k]? = some e → e.since + 4096 ≤ s.clk →
        ((s.core core).wc.filter fun x => x.uid == e.uid && x.sector == e.sector) = [e] →
        ((s.owned (e.sector / 8) = true ∨ s.wcReady e = false) → ∃ t, exec (.wcSectorTimeout core k) s = .next t ∧ e ∈ (t.core core).wcOut ∧ t.mem = s.mem
            ∧ (t.core core).wc = (s.core core).wc.filter fun x => !(x.uid == e.uid && x.sector == e.sector))
          ∧ (s.owned (e.sector / 8) = false → s.lineHeld (e.sector / 8) = false → s.bankHolds (32 * e.sector) true = false →
            s.wcReady e = true → (s.die (homeDie (e.sector * 32))).failed = false → (∀ i < 32, zeroRow (e.sector * 32 + i) = false) →
            ∃ t, exec (.wcSectorTimeout core k) s = .next t
              ∧ ((t.core core).wc = (s.core core).wc.filter fun x => !(x.uid == e.uid && x.sector == e.sector))
              ∧ (∀ i < 32, t.readPa (e.sector * 32 + i) 1 =
                  if e.mask.getLsbD i then [e.data.extractLsb' (8 * i) 8] else s.readPa (e.sector * 32 + i) 1)
              ∧ ∀ b, (b < e.sector * 32 ∨ e.sector * 32 + 32 ≤ b) → t.readPa b 1 = s.readPa b 1))
      ∧ (∀ u slot g, s.grp u = some g → (g.slot slot).st = .waiting → (g.slot slot).wait = .drain →
        let before := (g.slot slot).wgen
        (∀ r ∈ s.reqs, ∀ k, r.placeFor u = some k → k < before → r.kind ≠ .store ∨ r.policy = .normal) →
        (∀ e ∈ (s.core g.core).wc, e.uid ≠ u) → (∀ c ∈ s.cpys, g.has c.uid = true → before ≤ c.id) →
        (∀ h ∈ g.held, h.word < before → h.policy = .normal) →
        exec (.drainComplete u slot) s = .next ((s.raisePts u g.cpyTime).endWait u slot)
          ∧ (g.cached = true → GoesOn g slot (g.slot slot).pc → ∃ t, exec (.drainComplete u slot) s = .next t ∧ t.mem = s.mem
            ∧ t.grp u = some (released { g with pts := max g.pts g.cpyTime } slot)))
      ∧ (∀ u slot g, s.grp u = some g → (g.slot slot).st = .waiting → (g.slot slot).wait = .drain → s.drained g (g.slot slot).wgen = false →
        exec (.drainComplete u slot) s = .next s)
      ∧ (∀ u slot g, s.grp u = some g → (g.slot slot).mwaits = true → (g.slot slot).watched = true → (g.slot slot).fired = true →
        s.mwaitReady g (g.slot slot) = true → exec (.mwaitWatchFire u slot) s = .next (s.mwaitRead u slot))
      ∧ (∀ u slot g pa e, s.grp u = some g → (g.slot slot).mwaits = true → (g.slot slot).watched = true → (g.slot slot).fired = true →
        (g.slot slot).wspace = 0#2 → s.translate g.core g.part g.system (g.slot slot).waddr.toNat = .ok (pa, e) →
        s.orderedDone u = true → s.owned (lineOf pa) = false → s.bankHolds pa false = false →
        exec (.mwaitWatchFire u slot) s =
          .next (if pa = (g.slot slot).wpa then s.mwaitRead u slot
            else (s.updGrp u fun y => y.updSlot slot fun z => { z with wpa := pa }).mwaitRead u slot))
      ∧ (∀ u slot g, s.grp u = some g → (g.slot slot).mwaits = true → (g.slot slot).watched = false → (g.slot slot).due ≤ s.clk →
        g.place ≠ .evicted → s.mwaitReady g (g.slot slot) = true → exec (.mwaitPoll u slot) s = .next (s.mwaitRead u slot))
      ∧ (∀ u slot g pa cls, s.grp u = some g → g.cached = true → g.twin = none → watchTarget g (g.slot slot) = .mem pa cls →
        let x := g.slot slot
        let v := BitVec.ofNat 32 (s.readPaNat pa 4)
        let read : Grp := { g with pts := max g.pts (s.lineTimes pa g.part).wts }
        let met : Prop := (x.wait = .mwne ∧ v ≠ x.warg) ∨ (x.wait = .mwgeS ∧ x.warg.toInt ≤ v.toInt) ∨ (x.wait = .mwgeU ∧ x.warg.toNat ≤ v.toNat)
        (s.mwaitRead u slot).mem = s.mem
          ∧ (met → GoesOn g slot x.pc → (s.mwaitRead u slot).grp u = some (released read slot))
          ∧ (¬met → x.watched = true → (s.mwaitRead u slot).grp u = some (read.updSlot slot fun y => { y with fired := false }))
          ∧ (¬met → x.watched = false → s.watchesAt (.mem pa cls) < 32 →
              (s.mwaitRead u slot).grp u = some (read.updSlot slot fun y => { y with watched := true, fired := false }))
          ∧ (¬met → x.watched = false → 32 ≤ s.watchesAt (.mem pa cls) →
              (s.mwaitRead u slot).grp u = some (read.updSlot slot fun y => { y with due := s.clk + 2048 })))
      ∧ (∀ i o g k, Performs s i o g → o.ins = .fence k → (∀ e ∈ (s.core g.core).wc, e.uid ≠ g.uid) →
        ∃ t j, s.performOne i o = (t, j, true) ∧ t.mem = s.mem ∧ t.grp i.g.uid = some { g with fence := some k.toNat } ∧ t.reqs = s.reqs)
      ∧ (∀ (i : Issue) o g, s.grp i.g.uid = some g → o.act ≠ 0#32 → g.fence.isSome = true → s.performOne i o = (s, i, false))
      ∧ (∀ (g : Grp) (len : BitVec 5) (ws : List Word) (body : List Instr) (k : Nat),
        let slot := s.iss.slot
        let x := g.slot slot
        let view : State := State.touchTlb { s with iss := {} } g.core g.part [g.book.code + x.pc.toNat]
        let fits := (g.book.codeLen - x.pc.toNat) / 4
        s.iss.live = false → s.grp s.iss.g.uid = some g → g.place = .resident → x.st = .ready → x.hold = .none → x.busy = false →
        x.pc.toNat % 4 = 0 → x.pc.toNat < g.book.codeLen → 1 ≤ len.toNat → len.toNat ≤ 24 → g.fence = some k →
        view.codeWords g x.mask x.pc (min (len.toNat + 2) fits) = .ok ws → checkWords g.book.regs len.toNat fits ws = .ok body →
        startCheck g 1 x.mode [] body = (none, false) → hasEffects body = true →
        ∃ t h, exec (.scene len) s = .next t ∧ t.iss.live = false ∧ t.mem = s.mem ∧ t.grp s.iss.g.uid = some h
          ∧ (h.slot slot).st = .waiting ∧ (h.slot slot).wait = .fence ∧ (h.slot slot).pc = x.pc)
      ∧ (∀ u g, s.grp u = some g → g.place = .resident → g.ptsSince + 256 ≤ s.clk → g.cached = true → ∃ t, exec (.ptsSelfIncrement u) s = .next t
        ∧ t.grp u = some { g with pts := g.pts + 1, ptsSince := g.ptsSince + 256 } ∧ t.mem = s.mem)

/-- R154, R167, R168, R189, R192 to R195, R37, R48: a copy writes a line it owns, its bytes at one time that passes the line's reads, and
retires once it owns none: it is acknowledged and its time is noted for the group. A fence is performed once the group's accesses and side
effects have reached their agents, and takes its place in the order of the fences; that order, kept as a record of keys beside each
group's "since", is the model's choice (log 77); so is, within what R154 and R189 ask, that a copied line takes the least time that passes its
reads and the copy's own (log 54). A held fragment and a stalled scene go on: the scene's words perform in order, the first one that cannot
keeps the rest and the scene its place among the stalled ones, and after the last the scene ends. -/
def Obligations.CopyAndFenceEvents : Prop :=
  (∀ (s : State) (k line u : Nat) (c : CopyCmd) (g : Grp) (slot : Bool),
    (s.cpys.find? (fun x => x.id == k) = some c → c.retranslate = false →
        (line ∈ c.owned → exec (.agentLineRelease k line) s = .next (s.copyLine c line))
          ∧ (line ∈ c.owned → s.bankHolds (256 * line) true = false → (s.die (homeDie (256 * line))).failed = false →
            (∀ x ∈ c.bytes, ∀ y ∈ c.bytes, ∀ a m n, x.2.1 = .mem a m → y.2.1 = .mem a n → x = y) →
            let time := max c.pts ((s.lineTimes (256 * line) c.part).rts + 1)
            ∃ t d x, exec (.agentLineRelease k line) s = .next t ∧ t.cpys.find? (fun x => x.id == k) = some d ∧ line ∉ d.owned
              ∧ d.time = max c.time time ∧ tfind t.lines line = some x ∧ x.wts = time ∧ x.rts = time
              ∧ (∀ off a m b p, (off, .mem a m, b, p) ∈ c.bytes → lineOf a = line → m ≠ .priv → zeroRow a = false →
                  t.readPa a 1 = [b] ∧ ∀ y ∈ d.bytes, y.2.1 ≠ .mem a m)
              ∧ ∀ a, lineOf a ≠ line → t.readPa a 1 = s.readPa a 1)
          ∧ (c.owned = [] → c.bytes = [] → exec (.copyRetire k) s = .next (s.endCopy c))
          ∧ (c.owned = [] → c.bytes = [] → ∃ t, exec (.copyRetire k) s = .next t ∧ t.mem = s.mem
            ∧ t.cpys = s.cpys.filter (fun x => x.id != k)
            ∧ (s.grp u = some g → g.has c.uid = true → ∃ h, t.grp u = some h ∧ h.cpyTime = max g.cpyTime c.time ∧ h.pts = g.pts)
            ∧ ∀ b, s.tomb c.part c.imgSlot = some b → ∃ d, t.tomb c.part c.imgSlot = some d ∧ d.outstanding = b.outstanding - 1))
      ∧ (s.grp u = some g → g.fence.isSome = true → s.effectsOut g = true → g.cached = true → g.slot0.st ≠ .waiting → g.slot1.st ≠ .waiting →
        let scope := g.fence.getD 0
        ∃ t, exec (.fencePerform u) s = .next t ∧ t.mem = s.mem
          ∧ t.grp u = some { g with fence := none, pts := max g.pts g.cpyTime, since := max g.since (s.pairedFence g scope) }
          ∧ ∃ f ∈ t.fences, f.by_ = some u ∧ f.scope = scope ∧ f.key = s.fresh ∧ (u ∈ f.incl ∨ scope = 3))
      ∧ (s.grp u = some g → (g.slot slot).hold = .emptyReg → (∃ ws, s.startScene g (g.slot slot) (match s.codeWord g (g.slot slot).mask
            (g.slot slot).pc with | .ok w => bits w 23 19 | .error _ => 0) = .go ws) →
        ∃ t h, exec (.emptyWaitEnd u slot) s = .next t ∧ t.grp u = some h ∧ h.slot slot = { g.slot slot with hold := .none }
          ∧ h.slot (!slot) = g.slot (!slot) ∧ t.mem = s.mem)
      ∧ (∀ i rest, s.stowed = i :: rest →
          let v := State.useImage { s with stowed := rest } i.g.uid
          let mine (j : Issue) : Bool := j.g.uid == i.g.uid && j.slot == i.slot
          let placed (t : State) : State := { t with stowed := t.stowed.filter mine ++ t.stowed.filter fun j => !mine j }
          let gives (t : State) : Prop :=
            exec (.stalledPerformResume i.g.uid i.slot) s = .next (if placed t = { v with stowed := s.stowed } then s else placed t)
          (i.phase ≠ .check → gives ((v.runPerform i).lateWork v i))
            ∧ (i.phase = .check → ∀ t, v.finishScene i = .next t → gives t)
            ∧ (i.phase = .check → (∀ t, v.finishScene i ≠ .next t) → exec (.stalledPerformResume i.g.uid i.slot) s = v.finishScene i)))
    ∧ (∀ (v w : State) (i j : Issue) (o : SOp) (r : List SOp) (g : Grp),
      (i.ops = o :: r → v.performOne i o = (w, j, false) → w.grp i.g.uid = some g → j.g = i.g →
          v.runPerform i = { w with stowed := w.stowed ++ [{ j with ops := o :: r, phase := .perform }] })
        ∧ (v.performOne i o = (w, j, true) → v.performAll i (o :: r) = w.performAll j r)
        ∧ (∀ slot, i.ops = [] → v.grp i.g.uid = some g → g.whereIs i.mask = some slot → g.points = [] → g.twin = none →
          (∀ t, v.endScene i slot = some t → v.runPerform i = t)
            ∧ (v.endScene i slot = none → v.runPerform i = { v with stowed := v.stowed ++ [{ i with ops := [], phase := .perform }] })))

/-- R212, R218 to R221: engine commands issue, load, free, deliver, hold and retire. R244, R245, R247, R248: a bank command
writes a row of a line group, its bytes and no others, and with it the copies of the lines go; it ends by adding its done value at the
home, and a bank goes back to its controller. -/
def Obligations.EngineAndBankEvents : Prop :=
  (∀ (s : State) (k : Nat) (c : ECmd), s.ecmd k = some c →
     (c.kind ≠ .stage → s.canIssue c = true → ∃ t, exec (.sequencerIssue k) s = .next t ∧ t.ecmd k = some { c with st := .running }
         ∧ t.mem = s.mem)
       ∧ (c.kind = .wload → c.st = .running → ∃ t d, exec (.wloadRetire k) s = .next t ∧ t.ecmd k = some d ∧ d.st = .retired
         ∧ d.holds = [] ∧ (AllCached s → t.mem = s.mem))
       ∧ (c.kind = .wfree → c.st = .running → ∃ t d, exec (.wfreeRetire k) s = .next t ∧ t.ecmd k = some d ∧ d.st = .retired
         ∧ (AllCached s → t.mem = s.mem))
       ∧ (c.kind = .stage → c.st = .running → c.rehearsal = false → c.computed = true → c.outs = [] →
         ∃ t d, exec (.stageRetire k) s = .next t ∧ t.ecmd k = some d ∧ d.st = .retired ∧ (AllCached s → t.mem = s.mem))
       ∧ (c.kind = .stage → c.st = .running → c.rehearsal = true → c.took = false → c.computed = true →
         ∃ t, exec (.rehearsalHeld k) s = .next t ∧ t.ecmd k = some { c with st := .held } ∧ t.mem = s.mem)
       ∧ (c.kind = .stage → c.st = .running → c.rehearsal = false → c.took = false → ∀ e r, c.outs = e :: r →
         s.canDeliver c = true → exec (.engineOutputEntry k) s = .next
           ((s.updECmd k fun x => { x with outs := r }).updQueue c.gang c.coreIdx c.outQ fun q => { q with entries := q.entries ++ [e] })))
    ∧ (∀ (s : State) (k line bank : Nat) (c : BankCmd),
         (s.bcmds.find? (fun b => b.id == k) = some c →
             exec (.bankRowWrite k line) s = .next (s.bankLine c line)
               ∧ (∀ off rest pa bs, c.todo = off :: rest → s.bankPa c.part c.tab c.z off = .ok pa → lineOf pa / 4 = line / 4 →
                 s.bankBytes c off = .ok bs → (∀ b ∈ bs, s.unitFree (lineOf b.1) = true ∧ lineOf b.1 ∉ s.hostLines) →
                 (∀ b ∈ bs, b.2.2 = false ∧ zeroRow b.1 = false ∧ (s.die (homeDie b.1)).failed = false) →
                 (∀ x ∈ bs, ∀ y ∈ bs, x.1 = y.1 → x = y) →
                 ∃ t d, exec (.bankRowWrite k line) s = .next t ∧ t.bcmds.find? (fun b => b.id == k) = some d
                   ∧ d.todo = c.todo.filter (· != off) ∧ d.stopped = c.stopped ∧ d.poisoned = c.poisoned
                   ∧ (∀ b ∈ bs, t.readPa b.1 1 = [b.2.1] ∧ tfind t.lines (lineOf b.1) = none)
                   ∧ ∀ a, (∀ b ∈ bs, b.1 ≠ a) → t.readPa a 1 = s.readPa a 1)
               ∧ (c.todo = [] → s.lineFree (lineOf c.donePa) = true → s.bankHolds c.donePa true = false → (s.die (homeDie c.donePa)).failed = false → zeroRow c.donePa = false →
                 let v := 1 + (if c.poisoned then 65536 else 0) + (if c.stopped then 16777216 else 0)
                 ∃ t, exec (.bankCommandComplete k) s = .next t
                   ∧ t.mem = writeRun s.mem c.donePa (bytesLE 4 ((s.readPaNat c.donePa 4 + v) % 2 ^ 32))
                   ∧ t.bcmds = s.bcmds.filter fun b => b.id != k))
           ∧ ((tget s.banks bank {}).compute = true →
               (∃ t, exec (.bankRefresh bank) s = .next t ∧ (tget t.banks bank {}).compute = false ∧ t.mem = s.mem)
                 ∧ ((tget s.banks bank {}).waits ≠ [] → (tget s.banks bank {}).waitFrom + 2 * 1900 ≤ s.clk →
                   ∃ t, exec (.demandWaitTimeout bank) s = .next t ∧ (tget t.banks bank {}).compute = false ∧ t.mem = s.mem)))

/-- R261 to R289: waves. A binding applies; a command arrives and is counted at its tag. A queued wave with no rival and a free place starts:
of a bound graph with the nodes it walks (gcoll: those with the mark, at most its capacity) and weight 2^63, a gprop with its first
round; of an unbound one it ends at once, with no closing entry (the model's reading, log 55). A round begins with its nodes; a message
combines, changing a mark or a slot, or nothing; weight is lent, goes back as a packet, and is added at the controller, where the last of
it ends the round or the wave. A wave's end leaves its record ended and its tag's count one lower. An entry is
collected, and a host answers a snoop. Which returns of weight meet in the fabric, and in which order they move, is the model's choice (log 48). -/
def Obligations.WaveEvents : Prop :=
  (∀ (s : State) (k bank : Nat) (w : Wave), s.wave k = some w →
    (w.kind = .gbind → w.st = .path → s.behind w = false → (s.die (w.ctrl / 8)).failed = false → ∃ t, exec (.gbindApply k) s = .next t ∧ (AllCached s → t.mem = s.mem)
        ∧ tfind (t.part w.part).graphs w.graph = w.bind)
      ∧ (w.kind ≠ .gbind → w.st = .path → s.behind w = false → (s.die (w.ctrl / 8)).failed = false →
        (s.waves.filter fun x => x.ctrl == w.ctrl && x.st == .queued).length < 16 →
        ∃ t, exec (.waveArrival k) s = .next t ∧ (AllCached s → t.mem = s.mem)
          ∧ ∃ x, t.wave k = some x ∧ x.st = .queued ∧ x.bind = tfind (s.part w.part).graphs w.graph)
      ∧ (w.st = .queued → w.nograph = true → (s.waves.filter fun x => x.ctrl == w.ctrl && x.st == .running).length < 4 →
        s.rivals w = [] → exec (.waveStart k) s = .next (s.endWave k))
      ∧ (w.st = .queued → w.nograph = false → (s.waves.filter fun x => x.ctrl == w.ctrl && x.st == .running).length < 4 →
        s.rivals w = [] →
        let t0 := tget (s.part w.part).waveTimes w.graph 0 + 1
        (∀ all, w.kind ≠ .gprop → s.nodePas w (List.range w.nodes) = .ok all →
            let marked := (all.filter fun x => bitOf (s.marks x.2) w.sel).map (·.1)
            ∃ t x, exec (.waveStart k) s = .next t ∧ t.wave k = some x ∧ x.st = .running ∧ x.start = s.clk ∧ x.time = max w.time t0
              ∧ x.entries = (if w.kind = .gcoll then marked.take w.cap else all.map (·.1)) ∧ x.issued = 2 ^ 63 ∧ t.mem = s.mem)
          ∧ (w.kind ≠ .gprop → s.nodePas w (List.range w.nodes) = .error .stale → exec (.waveStart k) s = .next s)
          ∧ (w.kind = .gprop → ∃ (t : State) (x : Wave), exec (.waveStart k) s = .next (t.tryRound x) ∧ t.wave k = some x ∧ x.st = .running ∧ x.start = s.clk
            ∧ x.time = max w.time t0 ∧ x.go = true ∧ x.round = 1 ∧ x.chainOf = [] ∧ x.entries = w.entries ∧ t.mem = s.mem))
      ∧ (w.st = .running → w.go = true → w.chainOf = [] → exec (.waveStart k) s = .next (s.tryRound w))
      ∧ (∀ ns, s.roundNodes w = .ok ns → ∃ x, (s.tryRound w).wave k = some x ∧ x.go = false ∧ x.entries = ns.map (·.1) ∧ x.frontier = []
        ∧ x.issued = w.issued + 2 ^ 63 ∧ x.round = w.round ∧ (s.tryRound w).mem = s.mem)
      ∧ (AllCached s → w.owned = [] → (s.endWave k).wave k = none ∧ (s.endWave k).mem = s.mem
        ∧ ∀ l, s.launch w.launch = some l → ∃ m, (s.endWave k).launch w.launch = some m
          ∧ (tget m.tags w.tag {}).count = (tget l.tags w.tag {}).count - 1
          ∧ ((tget l.tags w.tag {}).record.wave = k → (tget m.tags w.tag {}).record.st = 3))
      ∧ (∀ m pa, w.msgs.find? (fun x => x.id == m.id) = some m → (∀ p ∈ s.pkts, p.id ≠ m.id) → w.entries = [] → s.nodePa w m.target = .ok pa →
        s.waveBlocked w [lineOf pa] = none → w.hop ≠ 0 → (∀ x ∈ s.waves, k ∉ x.chainOf) →
        let got (x : Wave) : Wave :=
          { x with msgs := x.msgs.filter (fun y => y.id != m.id)
                   units := tset x.units (bankOf pa) (tget x.units (bankOf pa) 0 + m.weight) }
        exec (.markerMessage k m.id) s = .next (((s.updWave k got).dropPkt m.id).take w m.target pa m.value m.pois).1)
      ∧ (tget w.outbox bank [] ≠ [] → tget w.units bank 0 < (tget w.outbox bank []).length →
        ∃ t x, exec (.weightLoan k bank) s = .next t ∧ t.wave k = some x ∧ x.issued = w.issued + 2 ^ 63 ∧ t.mem = s.mem)
      ∧ (∀ n, tfind w.units bank = some n → s.weightBack k = none → w.st = .running → w.go = false → s.unitBusy w bank = false →
        ∃ t x p, exec (.weightReturn k bank) s = .next t ∧ t.pkts = s.pkts ++ [p] ∧ p.kind = .weight k (w.ctrl / 8) n ∧ p.held = false
          ∧ t.wave k = some x ∧ x.returned = w.returned ∧ tfind x.units bank = none ∧ t.mem = s.mem)
      ∧ (∀ p n, s.weightBack k = some (p, n) →
        let back := w.returned + n
        (back ≠ w.issued → ∃ t x, exec (.weightReturn k bank) s = .next t ∧ t.wave k = some x ∧ x.returned = back
            ∧ t.pkts = s.pkts.filter (fun x => x.id != p.id) ∧ t.mem = s.mem)
          ∧ (back = w.issued → (∀ o ∈ w.outbox, o.2 = []) → w.kind = .gprop → w.hop ≠ 0 → w.round < w.hop →
            ∃ t x, exec (.weightReturn k bank) s = .next t ∧ t.wave k = some x ∧ x.round = w.round + 1 ∧ x.go = true ∧ t.mem = s.mem)
          ∧ (back = w.issued → (∀ o ∈ w.outbox, o.2 = []) → (w.kind ≠ .gprop ∨ w.hop = 0) →
            exec (.weightReturn k bank) s = .next (((s.dropPkt p.id).updWave k fun x => { x with returned := back }).endWave k)))
      ∧ (∀ q, w.kind = .gcoll → w.st = .running → w.queue = some q → w.lastPush = false → w.emit1 = false → w.qlost = false →
        (s.queue w.gang w.coreIdx q).entries.length < 64 →
        ∃ t x, exec (.collectPush k) s = .next t ∧ t.wave k = some x ∧ x.entries = w.entries.drop 32
          ∧ x.lastPush = decide (w.entries.length < 32) ∧ t.mem = s.mem)
      ∧ (∀ q, w.kind = .gcoll → w.st = .running → w.queue = some q → w.lastPush = false → w.qlost = true →
        ∃ t x, exec (.collectPush k) s = .next t ∧ t.wave k = some x ∧ x.entries = [] ∧ x.lastPush = true ∧ t.engs = s.engs ∧ t.mem = s.mem)
      ∧ (∀ line, line ∈ w.snooped → ∃ t, exec (.bisnpResponse k line) s = .next t ∧ line ∉ t.hostLines ∧ t.mem = s.mem))
    ∧ (∀ (s : State) (w : Wave) (n pa : Nat) (v : List Int) (p : Word),
      let r := s.take w n pa v p
      let one := v.headD 0 != 0
      let was := bitOf (s.marks pa) w.dst
      let now := if w.comb = 1 then was && one else was || one
      (w.slotKind = false → now = was → r.2 = false ∧ r.1.mem = s.mem ∧ r.1.waves = s.waves)
        ∧ (w.slotKind = false → now ≠ was → (∀ i < 4, zeroRow (pa + 12 + i) = false ∧ (s.die (homeDie (pa + 12 + i))).failed = false) →
          r.2 = true ∧ r.1.marks pa = setBit (s.marks pa) w.dst now)
        ∧ (w.slotKind = true → w.comb ≠ 4 → w.comb ≠ 5 → combineVals w.comb (s.nodeVal w pa w.dst).1 v = (s.nodeVal w pa w.dst).1 →
          r.2 = false ∧ r.1.mem = s.mem ∧ r.1.waves = s.waves)
        ∧ (w.slotKind = true → w.comb ≠ 4 → w.comb ≠ 5 → combineVals w.comb (s.nodeVal w pa w.dst).1 v ≠ (s.nodeVal w pa w.dst).1 →
          r.2 = true)
        ∧ (w.slotKind = true → w.comb = 4 → (r.2 = true ↔ bitOf (s.marks pa) w.visit = false)))

/-- R383, R385 to R390, R392: the combining fabric: a packet at a switch waits to be sent where COMBWIN.OFF is set, is held for WIN clocks, or merges
into a held one with a record where values return; of what waits at an output port the lowest channel is sent first, but one that 64 have
passed goes before. A request acts at its home; replies are split by their records into two with
their own values, or return to the home where no record is usable, recover and are logged; records
and logs expire; a switch loses its records, and what it held waits to be sent. -/
def Obligations.FabricEvents : Prop :=
  ∀ (s : State) (k : Nat),
    (∀ p h rest, s.pkts.find? (fun x => x.id == k) = some p → p.path = h :: rest → p.held = false → p.ready = false → s.constReady p = true →
        ((bitOf (s.die h.die).combwin 8 = true ∨ p.kind.channel = .requests) →
            exec (.combineRequestArrival k) s = .next (s.updPkt k fun p => { p with held := false, ready := true }))
          ∧ (bitOf (s.die h.die).combwin 8 = false → p.kind.channel ≠ .requests → (∀ q ∈ s.pkts, q.held = false) →
            exec (.combineRequestArrival k) s =
              .next (s.updPkt k fun p => { p with held := true, due := s.clk + bits (s.die h.die).combwin 6 0 }))
          ∧ (∀ op signed ret q, bitOf (s.die h.die).combwin 8 = false → p.kind = .atomic op signed ret → op ≠ .cas →
            s.pkts.find? (fun q => (q.held && q.path.head? == some h) && q.mergesWith p) = some q → (ret = true → s.recordsAt h < 256) →
            ∃ t m, exec (.combineRequestArrival k) s = .next t ∧ t.pkts.find? (fun x => x.id == q.id) = some m
              ∧ m.operand = atomResult op signed q.operand p.operand 0#32 ∧ m.list = q.list ++ p.list ∧ m.path = q.path ∧ m.held = q.held
              ∧ m.due = q.due ∧ (∀ x ∈ t.pkts, x.id ≠ k) ∧ t.mem = s.mem
              ∧ (ret = false → t.recs = s.recs)
              ∧ (ret = true → bits (s.die h.die).combtest 23 16 = 0 → ∃ r, t.recs = r :: s.recs ∧ r.at_ = h ∧ r.aId = q.id ∧ r.bId = k
                ∧ r.k = q.list.length ∧ r.n = q.list.length + p.list.length ∧ r.x = q.operand ∧ r.good = 2)))
      ∧ (∀ p h rest, s.pkts.find? (fun x => x.id == k) = some p → p.path = h :: rest → (s.sentNext h).map (·.id) = some k →
        ∃ t m, exec (.combineHoldExpiry k) s = .next t ∧ t.pkts.find? (fun x => x.id == k) = some m ∧ m.path = rest ∧ m.held = false
          ∧ m.ready = false ∧ m.passed = 0 ∧ m.operand = p.operand ∧ m.list = p.list ∧ t.mem = s.mem)
      ∧ (∀ h p, s.sentNext h = some p →
        ((∀ q ∈ s.readyAt h, q.passed < 64) → ∀ q ∈ s.readyAt h, p.kind.channel.number ≤ q.kind.channel.number)
          ∧ ((∃ q ∈ s.readyAt h, 64 ≤ q.passed) → 64 ≤ p.passed) ∧ p ∈ s.readyAt h)
      ∧ (∀ p op signed ret, s.pkts.find? (fun x => x.id == k) = some p → p.kind = .atomic op signed ret → p.path = [] →
        s.constReady p = true → s.lineFree (lineOf p.pa) = true → (s.die (homeDie p.pa)).failed = false → zeroRow p.pa = false →
        op ≠ .cas → s.bankHolds p.pa true = false → ∃ t, exec (.homeAtomic k) s = .next t
          ∧ t.mem = writeRun s.mem p.pa
              (bytesLE 4 (atomResult op signed (BitVec.ofNat 32 (s.readPaNat p.pa 4)) p.operand 0#32).toNat)
          ∧ t.pkts = s.pkts.filter fun x => x.id != k)
      ∧ (∀ r, s.replies.find? (fun x => x.id == k) = some r → r.recover = false →
        s.recs.find? (fun x => x.aId == r.cur && x.n == r.hi - r.lo + 1) = none → exec (.replySplit k) s =
          .next { s with replies := (s.replies.filter fun x => x.id != k) ++ [{ r with recover := true }] })
      ∧ (∀ r x, s.replies.find? (fun y => y.id == k) = some r → r.recover = false →
        s.recs.find? (fun x => x.aId == r.cur && x.n == r.hi - r.lo + 1) = some x →
        let t : State := { s with replies := s.replies.filter fun y => y.id != k, recs := s.recs.filter fun y => y.id != x.id }
        let first : Reply := { r with cur := x.aId, hi := r.lo + x.k - 1 }
        let second : Reply := { r with cur := x.bId, lo := r.lo + x.k, value := atomResult x.op x.signed r.value x.x 0#32 }
        (x.good = 0 → exec (.replySplit k) s = .next { t with replies := t.replies ++ [{ r with recover := true }] })
          ∧ (2 ≤ x.good → exec (.replySplit k) s = .next ((t.sendReply first).sendReply second))
          ∧ (x.good = 1 → exec (.replySplit k) s = .next (((t.updDie x.at_.die fun y =>
              { y with fabstat := setField y.fabstat 23 16 (min (bits y.fabstat 23 16 + 1) 255) }).sendReply first).sendReply second)))
      ∧ (∀ r l, s.replies.find? (fun x => x.id == k) = some r → r.recover = true → s.hlogs.find? (fun x => x.id == r.home) = some l →
        ∃ t, exec (.recoverReply k) s = .next t ∧ t.replies = (s.replies.filter fun x => x.id != k) ∧ t.mem = s.mem
          ∧ bits (t.die l.die).fabstat 31 24 = min (bits (s.die l.die).fabstat 31 24 + 1) 255)
      ∧ (∀ x, s.recs.find? (fun y => y.id == k) = some x → x.due ≤ s.clk → ∃ t, exec (.recordExpiry k) s = .next t
        ∧ t.recs = (s.recs.filter fun y => y.id != k) ∧ bits (t.die x.at_.die).fabstat 7 0 = min (bits (s.die x.at_.die).fabstat 7 0 + 1) 255
        ∧ t.mem = s.mem)
      ∧ (∀ l, s.hlogs.find? (fun x => x.id == k) = some l → l.due ≤ s.clk → (∀ r ∈ s.replies, r.home ≠ k) →
        exec (.homeLogExpiry k) s = .next { s with hlogs := s.hlogs.filter fun x => x.id != k })
      ∧ (∀ die stage sw, ∃ t, exec (.switchReset die stage sw) s = .next t ∧ t.mem = s.mem
        ∧ (∀ r ∈ t.recs, r ∈ s.recs ∧ ¬(r.at_.die = die ∧ r.at_.stage = stage ∧ r.at_.sw = sw))
        ∧ ∀ p ∈ t.pkts, p.held = true → ∀ h ∈ p.path.head?, ¬(h.die = die ∧ h.stage = stage ∧ h.sw = sw))

/-- R10, R11, R181, R316 to R335: launches. A predecessor's end releases one: it deals its gangs to the clusters, or ends with PREDFAIL. A gang is
placed: its cores, its groups with their blocks, masks and start time, each at its entry (shown where the register cache has room for them);
that a block's groups fill its cores 32 at a time is the model's reading (log 12). Gangs are stolen and waiters evicted; the mark that such an
eviction owes the place to a gang that does not wait is the model's (log 23). Completion is
recorded, held where the ring is full, counted in CBLOST where there is no ring, and
signalled. -/
def Obligations.LaunchEvents : Prop :=
  ∀ (s : State) (k cluster core : Nat) (l : Launch), s.launch k = some l →
    (l.waiting = true → (s.predsOpen l.part l.book = false ∨ (s.predResult l.part l.book).1 = true) → exec (.predecessorRelease k) s = .next (s.startLaunch l))
      ∧ (l.waiting = true → (s.predResult l.part l.book).1 = true → ∃ t m, exec (.predecessorRelease k) s = .next t ∧ t.launch k = some m
        ∧ m.waiting = false ∧ m.ending = true ∧ m.status = 3 ∧ t.mem = s.mem)
      ∧ (l.waiting = true → (s.predResult l.part l.book).1 = false → s.predsOpen l.part l.book = false →
        ∃ t m, exec (.predecessorRelease k) s = .next t ∧ t.launch k = some m ∧ m.waiting = false ∧ m.ending = l.ending ∧ m.status = l.status
          ∧ m.predPts = (s.predResult l.part l.book).2 ∧ m.ranges = dealRanges (s.partClusters l.part) l.book.gangs ∧ t.mem = s.mem)
      ∧ (∀ no att pts offs slots, l.nextGang cluster = some (no, att, pts) → l.ending = false → l.waiting = false → (s.part l.part).quiesce = false →
        (s.part l.part).torn = false → cluster ∈ s.partClusters l.part → s.outranked cluster l = false →
        l.book.understudied no = false → s.roomAt cluster l.book core = true → s.newImages l.part l.book 1 = some (offs, slots) →
        (att = 0 ∨ s.killSettled k no = true) →
        let start := if att = 0 then pts else max pts (s.replayPts l.id no)
        exec (.gangPlacement cluster k core) s =
          .next ((s.updLaunch k fun x => x.takeGang cluster s.clk).placeGang l no att start core false (offs.getD 0 0) slots).2)
      ∧ (∀ (no att start img : Nat) (slots : List Nat), let n := l.book.bpg * l.book.groups
        (∀ g ∈ s.groups, g.uid < s.fresh) → (∀ x ∈ s.gangs, x.id ≠ s.fresh) →
        (∀ c, ((s.cachedOn c).map Grp.lines).sum + n * (13 + ceilDiv l.book.regs 2) ≤ Config.regLines) →
        let t := (s.placeGang l no att start core false img slots).2
        t.mem = s.mem
          ∧ (∃ x, t.gang s.fresh = some x ∧ x.launch = l.id ∧ x.gangNo = no ∧ x.attempts = att ∧ x.place = .placed
            ∧ x.cores = (List.range l.book.gangCores).map (core + ·) ∧ x.priority = l.book.priority)
          ∧ ∀ i < n, ∃ x, t.grp (s.fresh + 1 + i) = some x ∧ x.gang = s.fresh ∧ x.block = no * l.book.bpg + i / l.book.groups
            ∧ x.groupNo = i % l.book.groups ∧ x.pts = start ∧ x.book = l.book ∧ x.system = l.system
            ∧ x.core = core + i / l.book.groups * l.book.coresPerBlock + i % l.book.groups / 32
            ∧ x.slot0 = { mask := startedMask l.book (i % l.book.groups), pc := l.book.entry, st := .ready }
            ∧ x.slot1 = {} ∧ x.stack = [] ∧ x.window 0 = l.win0 ∧ (x.place = .resident ∨ x.place = .parked))
      ∧ (∀ v, l.stealVictim cluster = some v → (∀ r ∈ l.ranges, r.cluster ≠ cluster ∨ r.hi ≤ r.lo) → l.again = [] →
        let n := if v.hi - v.lo = 1 then 1 else (v.hi - v.lo) / 2
        s.serves cluster l = true → s.freePlace cluster l (v.hi - n) = true →
        ∃ t m, exec (.gangSteal cluster k v.cluster) s = .next t ∧ t.launch k = some m ∧ t.mem = s.mem
          ∧ { cluster := cluster, lo := v.hi - n, hi := v.hi : Range } ∈ m.ranges)
      ∧ (l.complete = false → l.held = false → s.launchOver l = true → s.launchQuiet l.id = true → s.recordFree l = true →
        exec (.launchCompletion k) s = .next (s.completeLaunch l))
      ∧ (l.complete = false → l.held = true → s.recordFree l = true → exec (.callboardHoldRelease k) s = .next (s.completeLaunch l))
      ∧ (let t := s.completeLaunch l
        let ring := l.book.ring
        let valid := (s.ringDesc l.part ring).valid
        let cb (v : State) : Word := (v.part l.part).cblost
        (valid = true → s.ringFull l.part ring = true → t = s.updLaunch l.id fun x => { x with held := true })
          ∧ (valid = false ∨ s.ringFull l.part ring = false → ∃ m, t.launch k = some m ∧ m.complete = true ∧ m.held = false ∧ m.status = l.status
            ∧ (l.dup = false → (l.book.launchId, l.status, s.finalPts l) ∈ (t.part l.part).completed))
          ∧ (valid = false → cb t = if cb s = BitVec.allOnes 32 then cb s else cb s + 1#32)
          ∧ (valid = true → s.ringFull l.part ring = false →
            (tget (t.part l.part).rings ring {}).count = (tget (s.part l.part).rings ring {}).count + 1 ∧ cb t = cb s))
      ∧ (∀ g, g ∈ s.gangs → g.launch = k → g.place = .placed → s.gangWaits g = true →
        (∀ h ∈ s.gangs, h.launch = k → h = g) → l.ranges = [{ cluster := cluster, lo := 0, hi := 1 }] → l.again = [] →
        (∀ c ∈ s.partClusters l.part, s.fitsBut [] c l.book = false) → l.lastPlaced + 50 * 1900 ≤ s.clk →
        exec (.progressEviction k) s = .next ((s.updLaunch k fun x => { x with owed := true }).askEvict g.id))
      ∧ (∀ part ring, let d := s.ringDesc part ring
        let r := tget (s.part part).rings ring {}
        d.valid = true → d.age ≠ 0 → 0 < r.unsignalled → r.oldest + d.age * 1900 ≤ s.clk →
        exec (.callboardAgeTrigger part ring) s = .next (s.ringInterrupt part ring))

/-- R27, R28, R204, R317, R325, R327, R328: gangs and groups. A pre-emption is asked for: while a
group of the gang is inside a scene the gang waits to
leave; once all are at a boundary and no copy or collection uses its scratchpad, it gives up its cores and every group's image is in
memory (that it leaves the register cache then is the model's reading, log 13). A parked gang
resumes where there is room: its groups' registers come from their images (shown for a gang of one
group). A
ready parked group becomes issue-resident, a cluster is cleared, and a queue's next record is taken. R361, R363: at a point both
copies have reached, equal signatures release the primary's held stores; unequal ones discard both copies' and take the
understudy fate. -/
def Obligations.GangEvents : Prop :=
  (∀ (s : State) (k core u : Nat) (g : Gang) (l : Launch),
     exec (.preemptionRequest k) s = .next (s.askEvict k)
       ∧ (s.gang k = some g → g.place = .placed → g.twin = none →
         (∃ x ∈ s.groups, x.gang = k ∧ x.place ≠ .ended ∧ s.atBoundary x.uid = false) →
         ∃ t, exec (.preemptionRequest k) s = .next t ∧ t.gang k = some { g with place := .evicting } ∧ t.mem = s.mem
           ∧ (∀ x ∈ t.groups, x.gang = k → x.place ≠ .ended → x.preempt = true)
           ∧ ∀ u x, s.grp u = some x → x.gang ≠ k → t.grp u = some x)
       ∧ (s.gang k = some g → g.place = .placed → g.twin = none → (s.groups.map (·.uid)).Nodup →
         (∀ x ∈ s.groups, x.gang = k → x.place ≠ .ended → s.atBoundary x.uid = true ∧ x.twin = none ∧ x.points = []) →
         s.scratchBusy [k] = false →
         ∃ t m, exec (.preemptionRequest k) s = .next t ∧ t.gang k = some m ∧ m.place = .parked ∧ m.cores = []
           ∧ ∀ x ∈ t.groups, x.gang = k → x.place ≠ .ended → (x.place = .evicted ∨ x.place = .trapParked) ∧ x.cached = false)
       ∧ (s.gang k = some g → s.launch g.launch = some l → s.wantsPlace g = true → (s.part g.part).quiesce = false → g.twin = none →
         clusterOfCore core ∈ s.partClusters g.part → s.higherWaits g.part (clusterOfCore core) g.priority = false →
         s.clearedForOther g.part (clusterOfCore core) l.id = false → s.parkedTurn (clusterOfCore core) l = false → s.roomAt (clusterOfCore core) l.book core = true →
         exec (.groupResume k core) s = .next (s.resumeGang k core))
       ∧ (∀ x, s.gang k = some g → s.launch g.launch = some l → s.gangGroups k = [x] → s.grp x.uid = some x → x.place = .evicted →
         x.gang = k → x.cached = false →
         let c := core + x.coreIdx
         let h := s.readImage x c
         s.residents c < 32 → ((s.cachedOn c).map Grp.lines).sum + x.lines ≤ Config.regLines →
         let t := s.resumeGang k core
         t.mem = s.mem ∧ (∃ m, t.gang k = some m ∧ m.place = .placed ∧ m.cores = (List.range l.book.gangCores).map (core + ·))
           ∧ ∃ y, t.grp x.uid = some y ∧ y.core = c ∧ y.cached = true ∧ y.place = .resident ∧ y.v = h.v ∧ y.s = h.s ∧ y.p = h.p ∧ y.w = h.w
             ∧ y.q = h.q ∧ y.slot0.mask = h.slot0.mask ∧ y.slot0.pc = h.slot0.pc ∧ y.slot0.st = h.slot0.st ∧ y.slot1.mask = h.slot1.mask
             ∧ y.slot1.pc = h.slot1.pc ∧ y.pts = h.pts)
       ∧ (∀ x, s.grp u = some x → x.place = .parked → (s.core x.core).readyParked.head? = some u → s.residents x.core < 32 →
         ∃ t y, exec (.parkedGroupReady u) s = .next t ∧ t.grp u = some y ∧ y.place = .resident ∧ y.v = x.v ∧ y.slot0 = x.slot0
           ∧ y.slot1 = x.slot1 ∧ t.mem = s.mem)
       ∧ (∀ cluster, s.launch k = some l → l.ending = false → l.book.gangCores = 1 → (l.nextGang cluster).isSome = true →
         s.fitsBut [] cluster l.book = false → (∀ x ∈ s.gangs, x.place = .placed → x.priority ≤ l.book.priority) →
         s.quarantined (8 * cluster) = false → (∃ i < 8, s.coreGangs [] (8 * cluster + i) = [] ∧ s.quarantined (8 * cluster + i) = false) →
         tget l.turns cluster l.dealtAt + 50 * 1900 ≤ s.clk → cluster ∉ l.clearing →
         s.clearedForOther l.part cluster l.id = false → s.higherWaits l.part cluster l.book.priority = false →
         exec (.clusterClear cluster k (8 * cluster)) s = .next
           (((s.gangs.filter fun x => x.place == .placed && x.cores.any ((List.range 1).map (8 * cluster + ·)).contains).map (·.id)).foldl
             State.askEvict (s.updLaunch k fun x => { x with clearing := cluster :: x.clearing })))
       ∧ (∀ part queue tb fb bs wb, (s.part part).torn = false →
         let d := s.queueDesc part queue
         let q := tget (s.part part).queues queue {}
         let va := d.base + 256 * (q.next.toNat % d.n)
         let taken : State := State.updPart { s with fresh := s.fresh + 1 } part fun p =>
           { p with queues := tset p.queues queue { q with next := q.next + 1#32 } }
         let b := bookOf bs
         d.serves = true → (s.die d.die).failed = false → s.agentRead part d.tailVa 4 = some tb → s.agentRead part va 4 = some fb →
         fieldAt tb 0 4 ≠ q.next.toNat → fieldAt fb 0 1 = 1 → s.slotHeld part va = none → taken.agentRead part va 256 = some bs →
         taken.agentRead part b.wintab 16 = some wb → bookZeros bs = true → b.ok d.maxpri = true → b.ring < 16 →
         (taken.ringDesc part b.ring).valid = true → (∀ x ∈ s.launches, x.part = part → x.complete = false → x.dup = false → x.book.launchId ≠ b.launchId) →
         taken.fits part b = true → (∀ x ∈ s.launches, x.id ≠ s.fresh) →
         ∃ t m, exec (.launchWatchFire part queue) s = .next t ∧ t.mem = s.mem ∧ t.launch s.fresh = some m ∧ m.book = b
           ∧ m.part = part ∧ m.queue = queue ∧ m.index = q.next ∧ m.system = d.level ∧ m.win0 = BitVec.ofNat 128 (ofBytesLE wb)
           ∧ (tget (t.part part).queues queue {}).next = q.next + 1#32))
    ∧ (∀ (s : State) (g t : Grp) (a b : BitVec 64) (n m : Nat) (r q : List (BitVec 64 × Nat)),
         s.grp g.uid = some g → g.twin = some t.uid → t.uid ≠ g.uid → s.grp t.uid = some t → g.under = false → g.points = (a, n) :: r → t.points = (b, m) :: q →
         (a ≠ b → ∃ v, exec (.understudyCompare g.uid) s = .next (State.gangFate v g.gang 0) ∧ v.mem = s.mem
             ∧ ∀ l, s.launch g.launch = some l → ∃ x, v.launch g.launch = some x ∧ x.mismatch = min (l.mismatch + 1) 65535)
           ∧ (a = b → ∃ v, exec (.understudyCompare g.uid) s = .next (State.settleGang v g.gang)
             ∧ ∀ x, v.grp g.uid = some x → x.held = g.held.drop n ∧ x.points = r.map fun p => (p.1, p.2 - n)))

/-- R188, R397 to R406: the ports: requests of the network and DMA of a device, on dies that have booted; management and boot (whether a die's
checks of the flash pass rests on free values, log 38). A request in order is served and its answer sent with the pair's head; a
repeated one is answered again; one out of order, or outside its keys, gets a NAK and the pair its error state. An access whose line or bank is
taken waits at its home: in the model it comes back as the agenda's next move but one (log 52).
FETCH_ADD answers the old value, and adds at the home in the same step, with EPSN and MSN. That
data
read poisoned is marked so in the answer (log 31), and the fault of a device's access where there is no memory (log 32), are the model's
readings; the answers to duplicates are log 30's. -/
def Obligations.PortEvents : Prop :=
  ∀ (s : State) (p : NetPacket) (a : Nat) (q : QueuePair),
    (p.op = .writeOnly → s.seePacket p = .drop → exec (.rdmaWrite p) s = .next s)
      ∧ (p.op = .writeOnly → s.seePacket p = .again a q → exec (.rdmaWrite p) s = .next (s.send (.ack q.head p.part p.qpn p.psn q.msn)))
      ∧ (∀ pas, p.op = .writeOnly → s.seePacket p = .expected a q → s.packetPas p q = some pas →
        (s.writeWaits ([a + 8, a + 12] ++ pas) = false →
          let x := s.servedOutside.storeRuns p.part (tget (s.part p.part).qpTimes p.qpn 0 + 1) (pas.zip p.data) (s.netBank p)
          exec (.rdmaWrite p) s = .next ((x.2.packetDone p a q 1 1 x.1).send (.ack q.head p.part p.qpn p.psn ((q.msn + 1) % 2 ^ 24))))
          ∧ (s.writeWaits ([a + 8, a + 12] ++ pas) = true →
            ∃ t, exec (.rdmaWrite p) s = .next t ∧ t.mem = s.mem ∧ t.out = s.out ∧ t.agenda = .own :: .packet p :: s.agenda))
      ∧ (∀ pas, p.op = .readRequest → s.seePacket p = .again a q → s.packetPas p q = some pas → s.readWaits pas = false →
        ∃ t, exec (.rdmaRead p) s = .next t ∧ t.mem = s.mem ∧ t.out = .readResponse q.head p.part p.qpn p.psn
          (pas.map fun pa => (s.readPa pa 1).headD 0#8) (pas.any fun pa => s.paPois pa 1) :: s.out)
      ∧ (∀ pas, p.op = .readRequest → s.seePacket p = .expected a q → s.packetPas p q = some pas → s.readWaits pas = false →
        s.writeWaits [a + 8, a + 12] = false →
        exec (.rdmaRead p) s = .next ((s.servedOutside.packetDone p a q (max 1 ((p.len + 128 * 2 ^ q.pmtu - 1) / (128 * 2 ^ q.pmtu))) 1 0).send
          (.readResponse q.head p.part p.qpn p.psn (pas.map fun pa => (s.readPa pa 1).headD 0#8) (pas.any fun pa => s.paPois pa 1))))
      ∧ (p.op = .readRequest → (s.seePacket p = .expected a q ∨ s.seePacket p = .again a q) → s.packetPas p q = none → s.writeWaits [a] = false →
        exec (.rdmaRead p) s = .next (s.servedOutside.nakPacket p a false))
      ∧ (p.op = .readRequest → s.seePacket p = .drop → exec (.rdmaRead p) s = .next s)
      ∧ (p.op = .readRequest → s.seePacket p = .wrongPsn a → s.writeWaits [a] = false →
        exec (.rdmaRead p) s = .next (s.servedOutside.nakPacket p a false))
      ∧ (∀ pa rest, p.op = .fetchAdd → s.seePacket p = .expected a q → s.packetPas p q = some (pa :: rest) →
        s.writeWaits ([a + 8, a + 12] ++ pa :: rest) = false →
        (∃ t, exec (.atomicFetchAdd p) s = .next t ∧ ∃ more, t.out =
            .atomicResponse q.head p.part p.qpn p.psn (BitVec.ofNat 64 (s.readPaNat pa 8)) (s.paPois pa 8) :: more)
          ∧ ((∀ i < 8, zeroRow (pa + i) = false ∧ zeroRow (a + 8 + i) = false) → (s.die (homeDie pa)).failed = false →
            (s.die (homeDie (a + 8))).failed = false → (s.die (homeDie (a + 12))).failed = false → (pa + 8 ≤ a + 8 ∨ a + 16 ≤ pa) →
            ∃ t, exec (.atomicFetchAdd p) s = .next t ∧ t.readPaNat pa 8 = (s.readPaNat pa 8 + p.add.toNat) % 2 ^ 64
              ∧ t.readPaNat (a + 8) 4 = (q.epsn + 1) % 2 ^ 24 ∧ t.readPaNat (a + 12) 4 = (q.msn + 1) % 2 ^ 24))
      ∧ (s.seePacket p = .invalid a → s.writeWaits [a] = false → exec (.invalidRequest p) s = .next (s.servedOutside.nakPacket p a true))
      ∧ (∀ invalid, zeroRow a = false → (s.die (homeDie a)).failed = false →
        let t := s.nakPacket p a invalid
        t.mem = writeRun s.mem a (bytesLE 4 (s.readPaNat a 4 / 16 * 16 + 4))
          ∧ t.out = .nak (s.queuePair a).head p.part p.qpn p.psn invalid :: s.out)
      ∧ (∀ d, s.booted = false → exec (.deviceDma d) s = .next s)
      ∧ (∀ pa n, s.booted = true → s.paFault pa n = none → s.readWaits ((List.range n).map (pa + ·)) = false → s.conf.endpoint = false →
        ∃ t, exec (.deviceDma (.read pa n)) s = .next t ∧ t.mem = s.mem
          ∧ t.out = .dmaData ((List.range n).map fun i => (s.readPa (pa + i) 1).headD 0#8)
            ((List.range n).any fun i => s.paPois (pa + i) 1) :: s.out)
      ∧ (∀ pa data, s.booted = true → s.paFault pa data.length = none → s.writeWaits ((List.range data.length).map (pa + ·)) = false →
        exec (.deviceDma (.write pa data)) s =
          .next (s.servedOutside.deviceStores (sectorRuns (((List.range data.length).map (pa + ·)).zip data))))
      ∧ (∀ pa n, s.booted = true → s.paFault pa n = some (.noMemory pa) → exec (.deviceDma (.read pa n)) s = .fault (.noMemory pa))
      ∧ (∀ die, ∃ t x y, exec (.pldmMonitoring die) s = .next t ∧ t.out = .pldm die (s.die die).health x y :: s.out ∧ t.mem = s.mem)
      ∧ (∀ f, exec (.pldmFirmwareUpdate f) s = .next { s with flash := f })
      ∧ exec .spdmMeasurements s = .next (s.send (.measurements s.measured (Config.identitySign s.measured)))
      ∧ ∃ t, exec .powerOnBoot s = .next t ∧
        let pass (d : Nat) : Bool := (s.die d).passed || flashPasses s.flash d
        (s.booted = true → t = s)
          ∧ (s.booted = false → ∀ d < 4, (t.die d).passed = pass d)
          ∧ (s.booted = false → (∀ d < 4, pass d = true) → t.booted = true ∧ t.conf = s.flash.record ∧ ∀ d < 4, (t.die d).released = true)
          ∧ (s.booted = false → (∃ d < 4, pass d = false) →
            t.booted = false ∧ t.conf = s.conf ∧ ∀ d < 4, (t.die d).released = (s.die d).released)

/-- No two groups have one uid, and every uid is below the next key (uids are the model's names for groups). -/
structure Sys2Proof.Claim.UidsOk (s : State) : Prop where
  distinct : (s.groups.map (·.uid)).Nodup
  below : ∀ g ∈ s.groups, g.uid < s.fresh

/-- R14, R16 to R18, R411: every step keeps the shape of a group's two slots and its split stack: two fragments have one join; beside an empty
slot the stack is empty and the fragment has no join; the stack holds at most 64 fragments. Shown of a group that the register cache holds
before and after the step, its gang on its cores: what an image in memory holds is what system software leaves there (R25, R26). A
group that a placement creates has the shape. Group names stay distinct through every step (the premise), as they are at reset. -/
def Obligations.StepKeepsSplitShape : Prop :=
  (∀ (s t : State) (u : Nat) (g h : Grp), step s = .next t → UidsOk s → s.grp u = some g → g.cached = true →
     (∀ k ∈ s.gangs, (k.id = g.gang ∨ k.twin = some g.gang) → k.place ≠ .parked) → Paired g →
     t.grp u = some h → h.cached = true → Paired h)
    ∧ (∀ s t : State, step s = .next t → UidsOk s → UidsOk t)
    ∧ UidsOk State.reset
    ∧ ∀ (l : Launch) (gang gangNo block gi core coreIdx uid base img pts : Nat) (under : Bool),
        Paired (freshGroup l gang gangNo block gi core coreIdx uid base img pts under)
end

