-- ==== Sys2Proof/Laws/Exec.lean ====
section
/-! SUPPORT. What `exec` is on each constructor: one equation per arm of Machine/Dispatch.lean. -/

namespace Sys2Proof.Machine

@[simp] theorem exec_scene (l : BitVec 5) (s : State) : exec (.scene l) s = execScene l s := rfl
@[simp] theorem exec_sceneEnd (x : BitVec 8) (y : BitVec 8) (z : BitVec 8) (s : State) :
    exec (.sceneEnd x y z) s = execSceneEnd x y z s := rfl
@[simp] theorem exec_jmp (f : BitVec 24) (s : State) : exec (.jmp f) s = execJmp f s := rfl
@[simp] theorem exec_call (f : BitVec 24) (s : State) : exec (.call f) s = execCall f s := rfl
@[simp] theorem exec_jmpr (a : Sel) (s : State) : exec (.jmpr a) s = execJmpr a s := rfl
@[simp] theorem exec_callr (a : Sel) (s : State) : exec (.callr a) s = execCallr a s := rfl
@[simp] theorem exec_brc (p : BitVec 3) (j : BitVec 10) (f : BitVec 11) (s : State) : exec (.brc p j f) s = execBrc p j f s := rfl
@[simp] theorem exec_bru (p : BitVec 3) (c : BitVec 2) (f : BitVec 19) (s : State) : exec (.bru p c f) s = execBru p c f s := rfl
@[simp] theorem exec_exit (s : State) : exec (.exit) s = execExit s := rfl
@[simp] theorem exec_trap (k : BitVec 16) (s : State) : exec (.trap k) s = execTrap k s := rfl
@[simp] theorem exec_yield (s : State) : exec (.yield) s = execYield s := rfl
@[simp] theorem exec_brk (k : BitVec 16) (s : State) : exec (.brk k) s = execBrk k s := rfl
@[simp] theorem exec_nop (s : State) : exec (.nop) s = execNop s := rfl
@[simp] theorem exec_ldi (d : Sel) (k : BitVec 16) (s : State) : exec (.ldi d k) s = execLdi d k s := rfl
@[simp] theorem exec_ldhi (d : Sel) (k : BitVec 16) (s : State) : exec (.ldhi d k) s = execLdhi d k s := rfl
@[simp] theorem exec_mov (d : Sel) (a : Sel) (s : State) : exec (.mov d a) s = execMov d a s := rfl
@[simp] theorem exec_modei (d : BitVec 8) (k : BitVec 16) (s : State) : exec (.modei d k) s = execModei d k s := rfl
@[simp] theorem exec_mode (a : Sel) (s : State) : exec (.mode a) s = execMode a s := rfl
@[simp] theorem exec_rdsp (d : Sel) (n : BitVec 16) (s : State) : exec (.rdsp d n) s = execRdsp d n s := rfl
@[simp] theorem exec_wrsp (src : Sel) (n : BitVec 16) (s : State) : exec (.wrsp src n) s = execWrsp src n s := rfl
@[simp] theorem exec_winld (w : BitVec 3) (n : BitVec 8) (s : State) : exec (.winld w n) s = execWinld w n s := rfl
@[simp] theorem exec_winsub (src : BitVec 3) (d : BitVec 3) (a : Sel) (b : Sel) (s : State) :
    exec (.winsub src d a b) s = execWinsub src d a b s := rfl
@[simp] theorem exec_rdtag (d : Sel) (a : Sel) (s : State) : exec (.rdtag d a) s = execRdtag d a s := rfl
@[simp] theorem exec_retag (d : Sel) (a : Sel) (b : Sel) (s : State) : exec (.retag d a b) s = execRetag d a b s := rfl
@[simp] theorem exec_add (d : Sel) (a : Sel) (b : Sel) (s : State) : exec (.add d a b) s = execAdd d a b s := rfl
@[simp] theorem exec_sub (d : Sel) (a : Sel) (b : Sel) (s : State) : exec (.sub d a b) s = execSub d a b s := rfl
@[simp] theorem exec_mul (d : Sel) (a : Sel) (b : Sel) (s : State) : exec (.mul d a b) s = execMul d a b s := rfl
@[simp] theorem exec_mulhi (d : Sel) (a : Sel) (b : Sel) (s : State) : exec (.mulhi d a b) s = execMulhi d a b s := rfl
@[simp] theorem exec_mad (d : Sel) (a : Sel) (b : Sel) (s : State) : exec (.mad d a b) s = execMad d a b s := rfl
@[simp] theorem exec_min (d : Sel) (a : Sel) (b : Sel) (s : State) : exec (.min d a b) s = execMin d a b s := rfl
@[simp] theorem exec_max (d : Sel) (a : Sel) (b : Sel) (s : State) : exec (.max d a b) s = execMax d a b s := rfl
@[simp] theorem exec_absd (d : Sel) (a : Sel) (b : Sel) (s : State) : exec (.absd d a b) s = execAbsd d a b s := rfl
@[simp] theorem exec_and (d : Sel) (a : Sel) (b : Sel) (s : State) : exec (.and d a b) s = execAnd d a b s := rfl
@[simp] theorem exec_or (d : Sel) (a : Sel) (b : Sel) (s : State) : exec (.or d a b) s = execOr d a b s := rfl
@[simp] theorem exec_xor (d : Sel) (a : Sel) (b : Sel) (s : State) : exec (.xor d a b) s = execXor d a b s := rfl
@[simp] theorem exec_andn (d : Sel) (a : Sel) (b : Sel) (s : State) : exec (.andn d a b) s = execAndn d a b s := rfl
@[simp] theorem exec_not (d : Sel) (a : Sel) (s : State) : exec (.not d a) s = execNot d a s := rfl
@[simp] theorem exec_shl (d : Sel) (a : Sel) (b : Sel) (s : State) : exec (.shl d a b) s = execShl d a b s := rfl
@[simp] theorem exec_shr (d : Sel) (a : Sel) (b : Sel) (s : State) : exec (.shr d a b) s = execShr d a b s := rfl
@[simp] theorem exec_sar (d : Sel) (a : Sel) (b : Sel) (s : State) : exec (.sar d a b) s = execSar d a b s := rfl
@[simp] theorem exec_rol (d : Sel) (a : Sel) (b : Sel) (s : State) : exec (.rol d a b) s = execRol d a b s := rfl
@[simp] theorem exec_fshl (d : Sel) (a : Sel) (b : Sel) (s : State) : exec (.fshl d a b) s = execFshl d a b s := rfl
@[simp] theorem exec_fshr (d : Sel) (a : Sel) (b : Sel) (s : State) : exec (.fshr d a b) s = execFshr d a b s := rfl
@[simp] theorem exec_lut3 (d : Sel) (a : Sel) (b : Sel) (s : State) : exec (.lut3 d a b) s = execLut3 d a b s := rfl
@[simp] theorem exec_clz (d : Sel) (a : Sel) (s : State) : exec (.clz d a) s = execClz d a s := rfl
@[simp] theorem exec_ffs (d : Sel) (a : Sel) (s : State) : exec (.ffs d a) s = execFfs d a s := rfl
@[simp] theorem exec_popc (d : Sel) (a : Sel) (s : State) : exec (.popc d a) s = execPopc d a s := rfl
@[simp] theorem exec_brev (d : Sel) (a : Sel) (s : State) : exec (.brev d a) s = execBrev d a s := rfl
@[simp] theorem exec_bfx (d : Sel) (a : Sel) (b : Sel) (s : State) : exec (.bfx d a b) s = execBfx d a b s := rfl
@[simp] theorem exec_bfi (d : Sel) (a : Sel) (b : Sel) (s : State) : exec (.bfi d a b) s = execBfi d a b s := rfl
@[simp] theorem exec_cmpeq (d : Sel) (a : Sel) (b : Sel) (s : State) : exec (.cmpeq d a b) s = execCmpeq d a b s := rfl
@[simp] theorem exec_cmpne (d : Sel) (a : Sel) (b : Sel) (s : State) : exec (.cmpne d a b) s = execCmpne d a b s := rfl
@[simp] theorem exec_cmplt (d : Sel) (a : Sel) (b : Sel) (s : State) : exec (.cmplt d a b) s = execCmplt d a b s := rfl
@[simp] theorem exec_cmple (d : Sel) (a : Sel) (b : Sel) (s : State) : exec (.cmple d a b) s = execCmple d a b s := rfl
@[simp] theorem exec_sel (d : Sel) (a : Sel) (b : Sel) (s : State) : exec (.sel d a b) s = execSel d a b s := rfl
@[simp] theorem exec_sad (d : Sel) (a : Sel) (b : Sel) (s : State) : exec (.sad d a b) s = execSad d a b s := rfl
@[simp] theorem exec_fadd (d : Sel) (a : Sel) (b : Sel) (s : State) : exec (.fadd d a b) s = execFadd d a b s := rfl
@[simp] theorem exec_fsub (d : Sel) (a : Sel) (b : Sel) (s : State) : exec (.fsub d a b) s = execFsub d a b s := rfl
@[simp] theorem exec_fmul (d : Sel) (a : Sel) (b : Sel) (s : State) : exec (.fmul d a b) s = execFmul d a b s := rfl
@[simp] theorem exec_fma (d : Sel) (a : Sel) (b : Sel) (s : State) : exec (.fma d a b) s = execFma d a b s := rfl
@[simp] theorem exec_fmin (d : Sel) (a : Sel) (b : Sel) (s : State) : exec (.fmin d a b) s = execFmin d a b s := rfl
@[simp] theorem exec_fmax (d : Sel) (a : Sel) (b : Sel) (s : State) : exec (.fmax d a b) s = execFmax d a b s := rfl
@[simp] theorem exec_fcmpeq (d : Sel) (a : Sel) (b : Sel) (s : State) : exec (.fcmpeq d a b) s = execFcmpeq d a b s := rfl
@[simp] theorem exec_fcmplt (d : Sel) (a : Sel) (b : Sel) (s : State) : exec (.fcmplt d a b) s = execFcmplt d a b s := rfl
@[simp] theorem exec_fcmple (d : Sel) (a : Sel) (b : Sel) (s : State) : exec (.fcmple d a b) s = execFcmple d a b s := rfl
@[simp] theorem exec_fcmpun (d : Sel) (a : Sel) (b : Sel) (s : State) : exec (.fcmpun d a b) s = execFcmpun d a b s := rfl
@[simp] theorem exec_fabs (d : Sel) (a : Sel) (s : State) : exec (.fabs d a) s = execFabs d a s := rfl
@[simp] theorem exec_fneg (d : Sel) (a : Sel) (s : State) : exec (.fneg d a) s = execFneg d a s := rfl
@[simp] theorem exec_rcp (d : Sel) (a : Sel) (s : State) : exec (.rcp d a) s = execRcp d a s := rfl
@[simp] theorem exec_rsqrt (d : Sel) (a : Sel) (s : State) : exec (.rsqrt d a) s = execRsqrt d a s := rfl
@[simp] theorem exec_sqrt (d : Sel) (a : Sel) (s : State) : exec (.sqrt d a) s = execSqrt d a s := rfl
@[simp] theorem exec_exp2 (d : Sel) (a : Sel) (s : State) : exec (.exp2 d a) s = execExp2 d a s := rfl
@[simp] theorem exec_log2 (d : Sel) (a : Sel) (s : State) : exec (.log2 d a) s = execLog2 d a s := rfl
@[simp] theorem exec_sinpi (d : Sel) (a : Sel) (s : State) : exec (.sinpi d a) s = execSinpi d a s := rfl
@[simp] theorem exec_cospi (d : Sel) (a : Sel) (s : State) : exec (.cospi d a) s = execCospi d a s := rfl
@[simp] theorem exec_tanh (d : Sel) (a : Sel) (s : State) : exec (.tanh d a) s = execTanh d a s := rfl
@[simp] theorem exec_rnd (d : Sel) (a : Sel) (s : State) : exec (.rnd d a) s = execRnd d a s := rfl
@[simp] theorem exec_frac (d : Sel) (a : Sel) (s : State) : exec (.frac d a) s = execFrac d a s := rfl
@[simp] theorem exec_cvt (d : Sel) (a : Sel) (s : State) : exec (.cvt d a) s = execCvt d a s := rfl
@[simp] theorem exec_dotk (d : Sel) (a : Sel) (b : Sel) (s : State) : exec (.dotk d a b) s = execDotk d a b s := rfl
@[simp] theorem exec_dot4 (d : Sel) (a : Sel) (b : Sel) (s : State) : exec (.dot4 d a b) s = execDot4 d a b s := rfl
@[simp] theorem exec_dot2 (d : Sel) (a : Sel) (b : Sel) (s : State) : exec (.dot2 d a b) s = execDot2 d a b s := rfl
@[simp] theorem exec_fclass (d : Sel) (a : Sel) (b : Sel) (s : State) : exec (.fclass d a b) s = execFclass d a b s := rfl
@[simp] theorem exec_ldexp (d : Sel) (a : Sel) (b : Sel) (s : State) : exec (.ldexp d a b) s = execLdexp d a b s := rfl
@[simp] theorem exec_qshf (d : Sel) (a : Sel) (b : Sel) (s : State) : exec (.qshf d a b) s = execQshf d a b s := rfl
@[simp] theorem exec_qswp (d : Sel) (a : Sel) (b : Sel) (s : State) : exec (.qswp d a b) s = execQswp d a b s := rfl
@[simp] theorem exec_qred (d : Sel) (a : Sel) (b : Sel) (s : State) : exec (.qred d a b) s = execQred d a b s := rfl
@[simp] theorem exec_shfi (d : Sel) (a : Sel) (b : Sel) (s : State) : exec (.shfi d a b) s = execShfi d a b s := rfl
@[simp] theorem exec_shfx (d : Sel) (a : Sel) (b : Sel) (s : State) : exec (.shfx d a b) s = execShfx d a b s := rfl
@[simp] theorem exec_shfu (d : Sel) (a : Sel) (b : Sel) (s : State) : exec (.shfu d a b) s = execShfu d a b s := rfl
@[simp] theorem exec_shfd (d : Sel) (a : Sel) (b : Sel) (s : State) : exec (.shfd d a b) s = execShfd d a b s := rfl
@[simp] theorem exec_redx (d : Sel) (a : Sel) (b : Sel) (s : State) : exec (.redx d a b) s = execRedx d a b s := rfl
@[simp] theorem exec_scanx (d : Sel) (a : Sel) (b : Sel) (s : State) : exec (.scanx d a b) s = execScanx d a b s := rfl
@[simp] theorem exec_ballot (d : Sel) (a : Sel) (s : State) : exec (.ballot d a) s = execBallot d a s := rfl
@[simp] theorem exec_vote (d : Sel) (a : Sel) (b : Sel) (s : State) : exec (.vote d a b) s = execVote d a b s := rfl
@[simp] theorem exec_matchLanes (d : Sel) (a : Sel) (s : State) : exec (.matchLanes d a) s = execMatchLanes d a s := rfl
@[simp] theorem exec_bcst (d : Sel) (a : Sel) (b : Sel) (s : State) : exec (.bcst d a b) s = execBcst d a b s := rfl
@[simp] theorem exec_elect (d : Sel) (s : State) : exec (.elect d) s = execElect d s := rfl
@[simp] theorem exec_pset (d : Sel) (a : Sel) (s : State) : exec (.pset d a) s = execPset d a s := rfl
@[simp] theorem exec_pget (d : Sel) (a : Sel) (s : State) : exec (.pget d a) s = execPget d a s := rfl
@[simp] theorem exec_pand (d : Sel) (a : Sel) (b : Sel) (s : State) : exec (.pand d a b) s = execPand d a b s := rfl
@[simp] theorem exec_por (d : Sel) (a : Sel) (b : Sel) (s : State) : exec (.por d a b) s = execPor d a b s := rfl
@[simp] theorem exec_pxor (d : Sel) (a : Sel) (b : Sel) (s : State) : exec (.pxor d a b) s = execPxor d a b s := rfl
@[simp] theorem exec_pnot (d : Sel) (a : Sel) (s : State) : exec (.pnot d a) s = execPnot d a s := rfl
@[simp] theorem exec_pmask (d : Sel) (a : Sel) (s : State) : exec (.pmask d a) s = execPmask d a s := rfl
@[simp] theorem exec_ldb (d : Sel) (a : Sel) (w : BitVec 3) (k : BitVec 5) (s : State) :
    exec (.ldb d a w k) s = execLdb d a w k s := rfl
@[simp] theorem exec_ldh (d : Sel) (a : Sel) (w : BitVec 3) (k : BitVec 5) (s : State) :
    exec (.ldh d a w k) s = execLdh d a w k s := rfl
@[simp] theorem exec_ldw (d : Sel) (a : Sel) (w : BitVec 3) (k : BitVec 5) (s : State) :
    exec (.ldw d a w k) s = execLdw d a w k s := rfl
@[simp] theorem exec_ldq (d : Sel) (a : Sel) (w : BitVec 3) (k : BitVec 5) (s : State) :
    exec (.ldq d a w k) s = execLdq d a w k s := rfl
@[simp] theorem exec_stb (d : Sel) (a : Sel) (w : BitVec 3) (k : BitVec 5) (s : State) :
    exec (.stb d a w k) s = execStb d a w k s := rfl
@[simp] theorem exec_sth (d : Sel) (a : Sel) (w : BitVec 3) (k : BitVec 5) (s : State) :
    exec (.sth d a w k) s = execSth d a w k s := rfl
@[simp] theorem exec_stw (d : Sel) (a : Sel) (w : BitVec 3) (k : BitVec 5) (s : State) :
    exec (.stw d a w k) s = execStw d a w k s := rfl
@[simp] theorem exec_stq (d : Sel) (a : Sel) (w : BitVec 3) (k : BitVec 5) (s : State) :
    exec (.stq d a w k) s = execStq d a w k s := rfl
@[simp] theorem exec_faa (d : Sel) (a : Sel) (w : BitVec 3) (k : BitVec 5) (s : State) :
    exec (.faa d a w k) s = execFaa d a w k s := rfl
@[simp] theorem exec_fmn (d : Sel) (a : Sel) (w : BitVec 3) (k : BitVec 5) (s : State) :
    exec (.fmn d a w k) s = execFmn d a w k s := rfl
@[simp] theorem exec_fmx (d : Sel) (a : Sel) (w : BitVec 3) (k : BitVec 5) (s : State) :
    exec (.fmx d a w k) s = execFmx d a w k s := rfl
@[simp] theorem exec_fand (d : Sel) (a : Sel) (w : BitVec 3) (k : BitVec 5) (s : State) :
    exec (.fand d a w k) s = execFand d a w k s := rfl
@[simp] theorem exec_fior (d : Sel) (a : Sel) (w : BitVec 3) (k : BitVec 5) (s : State) :
    exec (.fior d a w k) s = execFior d a w k s := rfl
@[simp] theorem exec_fxor (d : Sel) (a : Sel) (w : BitVec 3) (k : BitVec 5) (s : State) :
    exec (.fxor d a w k) s = execFxor d a w k s := rfl
@[simp] theorem exec_swp (d : Sel) (a : Sel) (w : BitVec 3) (k : BitVec 5) (s : State) :
    exec (.swp d a w k) s = execSwp d a w k s := rfl
@[simp] theorem exec_cas (d : Sel) (a : Sel) (w : BitVec 3) (k : BitVec 5) (s : State) :
    exec (.cas d a w k) s = execCas d a w k s := rfl
@[simp] theorem exec_radd (d : Sel) (a : Sel) (w : BitVec 3) (k : BitVec 5) (s : State) :
    exec (.radd d a w k) s = execRadd d a w k s := rfl
@[simp] theorem exec_rmin (d : Sel) (a : Sel) (w : BitVec 3) (k : BitVec 5) (s : State) :
    exec (.rmin d a w k) s = execRmin d a w k s := rfl
@[simp] theorem exec_rmax (d : Sel) (a : Sel) (w : BitVec 3) (k : BitVec 5) (s : State) :
    exec (.rmax d a w k) s = execRmax d a w k s := rfl
@[simp] theorem exec_ror (d : Sel) (a : Sel) (w : BitVec 3) (k : BitVec 5) (s : State) :
    exec (.ror d a w k) s = execRor d a w k s := rfl
@[simp] theorem exec_pfl (t : BitVec 1) (a : Sel) (w : BitVec 3) (k : BitVec 5) (s : State) :
    exec (.pfl t a w k) s = execPfl t a w k s := rfl
@[simp] theorem exec_cpy (src : BitVec 3) (d : BitVec 3) (a : Sel) (s : State) : exec (.cpy src d a) s = execCpy src d a s := rfl
@[simp] theorem exec_fence (src : BitVec 3) (s : State) : exec (.fence src) s = execFence src s := rfl
@[simp] theorem exec_bara (g : BitVec 1) (p : BitVec 2) (h : BitVec 4) (s : State) :
    exec (.bara g p h) s = execBara g p h s := rfl
@[simp] theorem exec_barw (g : BitVec 1) (p : BitVec 2) (h : BitVec 4) (s : State) :
    exec (.barw g p h) s = execBarw g p h s := rfl
@[simp] theorem exec_bars (g : BitVec 1) (p : BitVec 2) (h : BitVec 4) (s : State) :
    exec (.bars g p h) s = execBars g p h s := rfl
@[simp] theorem exec_barinit (c : Sel) (g : BitVec 1) (p : BitVec 2) (h : BitVec 4) (s : State) :
    exec (.barinit c g p h) s = execBarinit c g p h s := rfl
@[simp] theorem exec_mwne (d : Sel) (a : Sel) (w : BitVec 3) (k : BitVec 5) (s : State) :
    exec (.mwne d a w k) s = execMwne d a w k s := rfl
@[simp] theorem exec_mwge (d : Sel) (a : Sel) (w : BitVec 3) (k : BitVec 5) (s : State) :
    exec (.mwge d a w k) s = execMwge d a w k s := rfl
@[simp] theorem exec_drain (s : State) : exec (.drain) s = execDrain s := rfl
@[simp] theorem exec_cwait (c : BitVec 8) (s : State) : exec (.cwait c) s = execCwait c s := rfl
@[simp] theorem exec_hop (h : BitVec 4) (a : Sel) (s : State) : exec (.hop h a) s = execHop h a s := rfl
@[simp] theorem exec_wload (n : BitVec 3) (s : State) : exec (.wload n) s = execWload n s := rfl
@[simp] theorem exec_stage (n : BitVec 3) (s : State) : exec (.stage n) s = execStage n s := rfl
@[simp] theorem exec_chain (n : BitVec 3) (s : State) : exec (.chain n) s = execChain n s := rfl
@[simp] theorem exec_cmit (c : BitVec 8) (s : State) : exec (.cmit c) s = execCmit c s := rfl
@[simp] theorem exec_cdisc (c : BitVec 8) (s : State) : exec (.cdisc c) s = execCdisc c s := rfl
@[simp] theorem exec_qcfg (q : BitVec 4) (a : Sel) (s : State) : exec (.qcfg q a) s = execQcfg q a s := rfl
@[simp] theorem exec_cstat (d : BitVec 5) (a : Sel) (s : State) : exec (.cstat d a) s = execCstat d a s := rfl
@[simp] theorem exec_wfree (a : Sel) (b : Sel) (s : State) : exec (.wfree a b) s = execWfree a b s := rfl
@[simp] theorem exec_gbind (n : BitVec 3) (s : State) : exec (.gbind n) s = execGbind n s := rfl
@[simp] theorem exec_gprog (n : BitVec 3) (s : State) : exec (.gprog n) s = execGprog n s := rfl
@[simp] theorem exec_gmark (n : BitVec 3) (s : State) : exec (.gmark n) s = execGmark n s := rfl
@[simp] theorem exec_gprop (n : BitVec 3) (s : State) : exec (.gprop n) s = execGprop n s := rfl
@[simp] theorem exec_gcoll (n : BitVec 3) (s : State) : exec (.gcoll n) s = execGcoll n s := rfl
@[simp] theorem exec_gclr (n : BitVec 3) (s : State) : exec (.gclr n) s = execGclr n s := rfl
@[simp] theorem exec_gwait (t : BitVec 4) (s : State) : exec (.gwait t) s = execGwait t s := rfl
@[simp] theorem exec_gstat (d : Sel) (a : Sel) (b : Sel) (s : State) : exec (.gstat d a b) s = execGstat d a b s := rfl
@[simp] theorem exec_bexec (n : BitVec 3) (s : State) : exec (.bexec n) s = execBexec n s := rfl
@[simp] theorem exec_rowop (n : BitVec 3) (s : State) : exec (.rowop n) s = execRowop n s := rfl
@[simp] theorem exec_bpage (d : BitVec 3) (s : State) : exec (.bpage d) s = execBpage d s := rfl
@[simp] theorem exec_tret (s : State) : exec (.tret) s = execTret s := rfl
@[simp] theorem exec_rdsys (d : Sel) (n : BitVec 16) (s : State) : exec (.rdsys d n) s = execRdsys d n s := rfl
@[simp] theorem exec_wrsys (src : Sel) (n : BitVec 16) (s : State) : exec (.wrsys src n) s = execWrsys src n s := rfl
@[simp] theorem exec_ptest (d : Sel) (a : Sel) (s : State) : exec (.ptest d a) s = execPtest d a s := rfl
@[simp] theorem exec_pclr (d : Sel) (s : State) : exec (.pclr d) s = execPclr d s := rfl
@[simp] theorem exec_sigck (s : State) : exec (.sigck) s = execSigck s := rfl
@[simp] theorem exec_deferredResultLands (r : Nat) (s : State) :
    exec (.deferredResultLands r) s = execDeferredResultLands r s := rfl
@[simp] theorem exec_emptyWaitEnd (u : Nat) (slot : Bool) (s : State) :
    exec (.emptyWaitEnd u slot) s = execEmptyWaitEnd u slot s := rfl
@[simp] theorem exec_stalledPerformResume (u : Nat) (slot : Bool) (s : State) :
    exec (.stalledPerformResume u slot) s = execStalledPerformResume u slot s := rfl
@[simp] theorem exec_preemptionRequest (gang : Nat) (s : State) :
    exec (.preemptionRequest gang) s = execPreemptionRequest gang s := rfl
@[simp] theorem exec_groupResume (gang : Nat) (core : Nat) (s : State) :
    exec (.groupResume gang core) s = execGroupResume gang core s := rfl
@[simp] theorem exec_parkedGroupReady (u : Nat) (s : State) : exec (.parkedGroupReady u) s = execParkedGroupReady u s := rfl
@[simp] theorem exec_ptsSelfIncrement (u : Nat) (s : State) : exec (.ptsSelfIncrement u) s = execPtsSelfIncrement u s := rfl
@[simp] theorem exec_lineEviction (line : Nat) (s : State) : exec (.lineEviction line) s = execLineEviction line s := rfl
@[simp] theorem exec_homeLoad (r : Nat) (k : Nat) (s : State) : exec (.homeLoad r k) s = execHomeLoad r k s := rfl
@[simp] theorem exec_homeStore (r : Nat) (k : Nat) (s : State) : exec (.homeStore r k) s = execHomeStore r k s := rfl
@[simp] theorem exec_homeAtomic (pkt : Nat) (s : State) : exec (.homeAtomic pkt) s = execHomeAtomic pkt s := rfl
@[simp] theorem exec_storeAcknowledge (r : Nat) (s : State) : exec (.storeAcknowledge r) s = execStoreAcknowledge r s := rfl
@[simp] theorem exec_wcSectorTimeout (core : Nat) (k : Nat) (s : State) :
    exec (.wcSectorTimeout core k) s = execWcSectorTimeout core k s := rfl
@[simp] theorem exec_gatherWindowExpiry (r : Nat) (s : State) : exec (.gatherWindowExpiry r) s = execGatherWindowExpiry r s := rfl
@[simp] theorem exec_gatherWake (r : Nat) (s : State) : exec (.gatherWake r) s = execGatherWake r s := rfl
@[simp] theorem exec_agentLineRelease (cmd : Nat) (line : Nat) (s : State) :
    exec (.agentLineRelease cmd line) s = execAgentLineRelease cmd line s := rfl
@[simp] theorem exec_copyRetire (cmd : Nat) (s : State) : exec (.copyRetire cmd) s = execCopyRetire cmd s := rfl
@[simp] theorem exec_fencePerform (u : Nat) (s : State) : exec (.fencePerform u) s = execFencePerform u s := rfl
@[simp] theorem exec_drainComplete (u : Nat) (slot : Bool) (s : State) :
    exec (.drainComplete u slot) s = execDrainComplete u slot s := rfl
@[simp] theorem exec_mwaitWatchFire (u : Nat) (slot : Bool) (s : State) :
    exec (.mwaitWatchFire u slot) s = execMwaitWatchFire u slot s := rfl
@[simp] theorem exec_mwaitPoll (u : Nat) (slot : Bool) (s : State) : exec (.mwaitPoll u slot) s = execMwaitPoll u slot s := rfl
@[simp] theorem exec_sequencerIssue (cmd : Nat) (s : State) : exec (.sequencerIssue cmd) s = execSequencerIssue cmd s := rfl
@[simp] theorem exec_wloadRetire (cmd : Nat) (s : State) : exec (.wloadRetire cmd) s = execWloadRetire cmd s := rfl
@[simp] theorem exec_wfreeRetire (cmd : Nat) (s : State) : exec (.wfreeRetire cmd) s = execWfreeRetire cmd s := rfl
@[simp] theorem exec_engineOutputEntry (cmd : Nat) (s : State) :
    exec (.engineOutputEntry cmd) s = execEngineOutputEntry cmd s := rfl
@[simp] theorem exec_stageRetire (cmd : Nat) (s : State) : exec (.stageRetire cmd) s = execStageRetire cmd s := rfl
@[simp] theorem exec_rehearsalHeld (cmd : Nat) (s : State) : exec (.rehearsalHeld cmd) s = execRehearsalHeld cmd s := rfl
@[simp] theorem exec_engineBitstepReplay (core : Nat) (s : State) :
    exec (.engineBitstepReplay core) s = execEngineBitstepReplay core s := rfl
@[simp] theorem exec_bankCommandComplete (cmd : Nat) (s : State) :
    exec (.bankCommandComplete cmd) s = execBankCommandComplete cmd s := rfl
@[simp] theorem exec_bankRowWrite (cmd : Nat) (line : Nat) (s : State) :
    exec (.bankRowWrite cmd line) s = execBankRowWrite cmd line s := rfl
@[simp] theorem exec_demandWaitTimeout (bank : Nat) (s : State) :
    exec (.demandWaitTimeout bank) s = execDemandWaitTimeout bank s := rfl
@[simp] theorem exec_bankRefresh (bank : Nat) (s : State) : exec (.bankRefresh bank) s = execBankRefresh bank s := rfl
@[simp] theorem exec_waveArrival (wave : Nat) (s : State) : exec (.waveArrival wave) s = execWaveArrival wave s := rfl
@[simp] theorem exec_gbindApply (wave : Nat) (s : State) : exec (.gbindApply wave) s = execGbindApply wave s := rfl
@[simp] theorem exec_waveStart (wave : Nat) (s : State) : exec (.waveStart wave) s = execWaveStart wave s := rfl
@[simp] theorem exec_markerMessage (wave : Nat) (k : Nat) (s : State) :
    exec (.markerMessage wave k) s = execMarkerMessage wave k s := rfl
@[simp] theorem exec_weightReturn (wave : Nat) (bank : Nat) (s : State) :
    exec (.weightReturn wave bank) s = execWeightReturn wave bank s := rfl
@[simp] theorem exec_weightLoan (wave : Nat) (bank : Nat) (s : State) :
    exec (.weightLoan wave bank) s = execWeightLoan wave bank s := rfl
@[simp] theorem exec_collectPush (wave : Nat) (s : State) : exec (.collectPush wave) s = execCollectPush wave s := rfl
@[simp] theorem exec_launchWatchFire (part : Nat) (queue : Nat) (s : State) :
    exec (.launchWatchFire part queue) s = execLaunchWatchFire part queue s := rfl
@[simp] theorem exec_predecessorRelease (launch : Nat) (s : State) :
    exec (.predecessorRelease launch) s = execPredecessorRelease launch s := rfl
@[simp] theorem exec_gangPlacement (cluster : Nat) (launch : Nat) (core : Nat) (s : State) :
    exec (.gangPlacement cluster launch core) s = execGangPlacement cluster launch core s := rfl
@[simp] theorem exec_gangSteal (cluster : Nat) (launch : Nat) (victim : Nat) (s : State) :
    exec (.gangSteal cluster launch victim) s = execGangSteal cluster launch victim s := rfl
@[simp] theorem exec_clusterClear (cluster : Nat) (launch : Nat) (core : Nat) (s : State) :
    exec (.clusterClear cluster launch core) s = execClusterClear cluster launch core s := rfl
@[simp] theorem exec_progressEviction (launch : Nat) (s : State) :
    exec (.progressEviction launch) s = execProgressEviction launch s := rfl
@[simp] theorem exec_launchCompletion (launch : Nat) (s : State) :
    exec (.launchCompletion launch) s = execLaunchCompletion launch s := rfl
@[simp] theorem exec_callboardAgeTrigger (part : Nat) (ring : Nat) (s : State) :
    exec (.callboardAgeTrigger part ring) s = execCallboardAgeTrigger part ring s := rfl
@[simp] theorem exec_callboardHoldRelease (launch : Nat) (s : State) :
    exec (.callboardHoldRelease launch) s = execCallboardHoldRelease launch s := rfl
@[simp] theorem exec_parkRetry (part : Nat) (slot : Nat) (s : State) :
    exec (.parkRetry part slot) s = execParkRetry part slot s := rfl
@[simp] theorem exec_parkDeliver (part : Nat) (slot : Nat) (s : State) :
    exec (.parkDeliver part slot) s = execParkDeliver part slot s := rfl
@[simp] theorem exec_parkKillGang (part : Nat) (slot : Nat) (s : State) :
    exec (.parkKillGang part slot) s = execParkKillGang part slot s := rfl
@[simp] theorem exec_quiesce (part : Nat) (s : State) : exec (.quiesce part) s = execQuiesce part s := rfl
@[simp] theorem exec_rebase (part : Nat) (s : State) : exec (.rebase part) s = execRebase part s := rfl
@[simp] theorem exec_teardown (part : Nat) (s : State) : exec (.teardown part) s = execTeardown part s := rfl
@[simp] theorem exec_teardownClear (part : Nat) (s : State) : exec (.teardownClear part) s = execTeardownClear part s := rfl
@[simp] theorem exec_shootdownGo (part : Nat) (value : Word) (s : State) :
    exec (.shootdownGo part value) s = execShootdownGo part value s := rfl
@[simp] theorem exec_shootdownDone (part : Nat) (s : State) : exec (.shootdownDone part) s = execShootdownDone part s := rfl
@[simp] theorem exec_partidWrite (core : Nat) (value : Word) (s : State) :
    exec (.partidWrite core value) s = execPartidWrite core value s := rfl
@[simp] theorem exec_ptrootWrite (core : Nat) (value : Word) (s : State) :
    exec (.ptrootWrite core value) s = execPtrootWrite core value s := rfl
@[simp] theorem exec_graphctlWrite (part : Nat) (r : Nat) (value : Word) (s : State) :
    exec (.graphctlWrite part r value) s = execGraphctlWrite part r value s := rfl
@[simp] theorem exec_marginWrite (core : Nat) (value : Word) (s : State) :
    exec (.marginWrite core value) s = execMarginWrite core value s := rfl
@[simp] theorem exec_ltelimWrite (core : Nat) (value : Word) (s : State) :
    exec (.ltelimWrite core value) s = execLtelimWrite core value s := rfl
@[simp] theorem exec_ltewinWrite (core : Nat) (value : Word) (s : State) :
    exec (.ltewinWrite core value) s = execLtewinWrite core value s := rfl
@[simp] theorem exec_quarWrite (core : Nat) (value : Word) (s : State) :
    exec (.quarWrite core value) s = execQuarWrite core value s := rfl
@[simp] theorem exec_healthWrite (die : Nat) (value : Word) (s : State) :
    exec (.healthWrite die value) s = execHealthWrite die value s := rfl
@[simp] theorem exec_registerWrite (reg : RegAddr) (value : Word) (s : State) :
    exec (.registerWrite reg value) s = execRegisterWrite reg value s := rfl
@[simp] theorem exec_lateTransitionEvent (core : Nat) (s : State) :
    exec (.lateTransitionEvent core) s = execLateTransitionEvent core s := rfl
@[simp] theorem exec_lteWindowExpiry (core : Nat) (s : State) : exec (.lteWindowExpiry core) s = execLteWindowExpiry core s := rfl
@[simp] theorem exec_sliceErrorThreshold (die : Nat) (slice : Nat) (s : State) :
    exec (.sliceErrorThreshold die slice) s = execSliceErrorThreshold die slice s := rfl
@[simp] theorem exec_impreciseError (kind : ErrKind) (slot : Nat) (ord : BitVec 8) (pa : Nat) (s : State) :
    exec (.impreciseError kind slot ord pa) s = execImpreciseError kind slot ord pa s := rfl
@[simp] theorem exec_understudyCompare (u : Nat) (s : State) : exec (.understudyCompare u) s = execUnderstudyCompare u s := rfl
@[simp] theorem exec_dieFailure (die : Nat) (s : State) : exec (.dieFailure die) s = execDieFailure die s := rfl
@[simp] theorem exec_dieLinkFailure (die : Nat) (port : Nat) (full : Bool) (s : State) :
    exec (.dieLinkFailure die port full) s = execDieLinkFailure die port full s := rfl
@[simp] theorem exec_thermalGate (die : Nat) (s : State) : exec (.thermalGate die) s = execThermalGate die s := rfl
@[simp] theorem exec_thermalStop (die : Nat) (s : State) : exec (.thermalStop die) s = execThermalStop die s := rfl
@[simp] theorem exec_combineRequestArrival (pkt : Nat) (s : State) :
    exec (.combineRequestArrival pkt) s = execCombineRequestArrival pkt s := rfl
@[simp] theorem exec_combineHoldExpiry (pkt : Nat) (s : State) :
    exec (.combineHoldExpiry pkt) s = execCombineHoldExpiry pkt s := rfl
@[simp] theorem exec_replySplit (reply : Nat) (s : State) : exec (.replySplit reply) s = execReplySplit reply s := rfl
@[simp] theorem exec_recoverReply (reply : Nat) (s : State) : exec (.recoverReply reply) s = execRecoverReply reply s := rfl
@[simp] theorem exec_recordExpiry (record : Nat) (s : State) : exec (.recordExpiry record) s = execRecordExpiry record s := rfl
@[simp] theorem exec_switchReset (die : Nat) (stage : Nat) (switch : Nat) (s : State) :
    exec (.switchReset die stage switch) s = execSwitchReset die stage switch s := rfl
@[simp] theorem exec_combtestDisarm (die : Nat) (value : Word) (s : State) :
    exec (.combtestDisarm die value) s = execCombtestDisarm die value s := rfl
@[simp] theorem exec_combtestCorruptCopy (die : Nat) (value : Word) (s : State) :
    exec (.combtestCorruptCopy die value) s = execCombtestCorruptCopy die value s := rfl
@[simp] theorem exec_combtestLoseRecord (die : Nat) (value : Word) (s : State) :
    exec (.combtestLoseRecord die value) s = execCombtestLoseRecord die value s := rfl
@[simp] theorem exec_combtestResetSwitch (die : Nat) (value : Word) (s : State) :
    exec (.combtestResetSwitch die value) s = execCombtestResetSwitch die value s := rfl
@[simp] theorem exec_rdmaWrite (p : NetPacket) (s : State) : exec (.rdmaWrite p) s = execRdmaWrite p s := rfl
@[simp] theorem exec_rdmaRead (p : NetPacket) (s : State) : exec (.rdmaRead p) s = execRdmaRead p s := rfl
@[simp] theorem exec_atomicFetchAdd (p : NetPacket) (s : State) : exec (.atomicFetchAdd p) s = execAtomicFetchAdd p s := rfl
@[simp] theorem exec_invalidRequest (p : NetPacket) (s : State) : exec (.invalidRequest p) s = execInvalidRequest p s := rfl
@[simp] theorem exec_deviceDma (q : DmaRequest) (s : State) : exec (.deviceDma q) s = execDeviceDma q s := rfl
@[simp] theorem exec_pldmMonitoring (die : Nat) (s : State) : exec (.pldmMonitoring die) s = execPldmMonitoring die s := rfl
@[simp] theorem exec_pldmFirmwareUpdate (f : Flash) (s : State) :
    exec (.pldmFirmwareUpdate f) s = execPldmFirmwareUpdate f s := rfl
@[simp] theorem exec_spdmMeasurements (s : State) : exec (.spdmMeasurements) s = execSpdmMeasurements s := rfl
@[simp] theorem exec_powerOnBoot (s : State) : exec (.powerOnBoot) s = execPowerOnBoot s := rfl
@[simp] theorem exec_thermalUngate (die : Nat) (s : State) : exec (.thermalUngate die) s = execThermalUngate die s := rfl
@[simp] theorem exec_bisnpResponse (cmd : Nat) (line : Nat) (s : State) :
    exec (.bisnpResponse cmd line) s = execBisnpResponse cmd line s := rfl
@[simp] theorem exec_homeLogExpiry (entry : Nat) (s : State) : exec (.homeLogExpiry entry) s = execHomeLogExpiry entry s := rfl

end Sys2Proof.Machine
end

