-- ==== Sys2Proof/Laws/State.lean ====
section
/-! SUPPORT. The named updates of the state, one lemma for each field of State: the field an update sets, and every field it leaves. -/

namespace Sys2Proof.Machine

-- The lemmas one after another: checked side by side, each waits in a thread of its own.
set_option Elab.async false

@[simp] theorem State.setCore_clk (s : State) (c : Nat) (x : CoreState) : (s.setCore c x).clk = s.clk := rfl
@[simp] theorem State.setCore_agenda (s : State) (c : Nat) (x : CoreState) : (s.setCore c x).agenda = s.agenda := rfl
@[simp] theorem State.setCore_iss (s : State) (c : Nat) (x : CoreState) : (s.setCore c x).iss = s.iss := rfl
@[simp] theorem State.setCore_stowed (s : State) (c : Nat) (x : CoreState) : (s.setCore c x).stowed = s.stowed := rfl
@[simp] theorem State.setCore_groups (s : State) (c : Nat) (x : CoreState) : (s.setCore c x).groups = s.groups := rfl
@[simp] theorem State.setCore_gangs (s : State) (c : Nat) (x : CoreState) : (s.setCore c x).gangs = s.gangs := rfl
@[simp] theorem State.setCore_launches (s : State) (c : Nat) (x : CoreState) : (s.setCore c x).launches = s.launches := rfl
@[simp] theorem State.setCore_tombs (s : State) (c : Nat) (x : CoreState) : (s.setCore c x).tombs = s.tombs := rfl
@[simp] theorem State.setCore_cores (s : State) (c : Nat) (x : CoreState) : (s.setCore c x).cores = tset s.cores c x := rfl
@[simp] theorem State.setCore_dies (s : State) (c : Nat) (x : CoreState) : (s.setCore c x).dies = s.dies := rfl
@[simp] theorem State.setCore_parts (s : State) (c : Nat) (x : CoreState) : (s.setCore c x).parts = s.parts := rfl
@[simp] theorem State.setCore_mem (s : State) (c : Nat) (x : CoreState) : (s.setCore c x).mem = s.mem := rfl
@[simp] theorem State.setCore_pois (s : State) (c : Nat) (x : CoreState) : (s.setCore c x).pois = s.pois := rfl
@[simp] theorem State.setCore_dirty (s : State) (c : Nat) (x : CoreState) : (s.setCore c x).dirty = s.dirty := rfl
@[simp] theorem State.setCore_lines (s : State) (c : Nat) (x : CoreState) : (s.setCore c x).lines = s.lines := rfl
@[simp] theorem State.setCore_mts (s : State) (c : Nat) (x : CoreState) : (s.setCore c x).mts = s.mts := rfl
@[simp] theorem State.setCore_copies (s : State) (c : Nat) (x : CoreState) : (s.setCore c x).copies = s.copies := rfl
@[simp] theorem State.setCore_reqs (s : State) (c : Nat) (x : CoreState) : (s.setCore c x).reqs = s.reqs := rfl
@[simp] theorem State.setCore_cpys (s : State) (c : Nat) (x : CoreState) : (s.setCore c x).cpys = s.cpys := rfl
@[simp] theorem State.setCore_engs (s : State) (c : Nat) (x : CoreState) : (s.setCore c x).engs = s.engs := rfl
@[simp] theorem State.setCore_ecmds (s : State) (c : Nat) (x : CoreState) : (s.setCore c x).ecmds = s.ecmds := rfl
@[simp] theorem State.setCore_status (s : State) (c : Nat) (x : CoreState) : (s.setCore c x).status = s.status := rfl
@[simp] theorem State.setCore_fences (s : State) (c : Nat) (x : CoreState) : (s.setCore c x).fences = s.fences := rfl
@[simp] theorem State.setCore_stalls (s : State) (c : Nat) (x : CoreState) : (s.setCore c x).stalls = s.stalls := rfl
@[simp] theorem State.setCore_lineWaits (s : State) (c : Nat) (x : CoreState) : (s.setCore c x).lineWaits = s.lineWaits := rfl
@[simp] theorem State.setCore_plists (s : State) (c : Nat) (x : CoreState) : (s.setCore c x).plists = s.plists := rfl
@[simp] theorem State.setCore_bcmds (s : State) (c : Nat) (x : CoreState) : (s.setCore c x).bcmds = s.bcmds := rfl
@[simp] theorem State.setCore_banks (s : State) (c : Nat) (x : CoreState) : (s.setCore c x).banks = s.banks := rfl
@[simp] theorem State.setCore_waves (s : State) (c : Nat) (x : CoreState) : (s.setCore c x).waves = s.waves := rfl
@[simp] theorem State.setCore_pkts (s : State) (c : Nat) (x : CoreState) : (s.setCore c x).pkts = s.pkts := rfl
@[simp] theorem State.setCore_recs (s : State) (c : Nat) (x : CoreState) : (s.setCore c x).recs = s.recs := rfl
@[simp] theorem State.setCore_replies (s : State) (c : Nat) (x : CoreState) : (s.setCore c x).replies = s.replies := rfl
@[simp] theorem State.setCore_hlogs (s : State) (c : Nat) (x : CoreState) : (s.setCore c x).hlogs = s.hlogs := rfl
@[simp] theorem State.setCore_harts (s : State) (c : Nat) (x : CoreState) : (s.setCore c x).harts = s.harts := rfl
@[simp] theorem State.setCore_flash (s : State) (c : Nat) (x : CoreState) : (s.setCore c x).flash = s.flash := rfl
@[simp] theorem State.setCore_conf (s : State) (c : Nat) (x : CoreState) : (s.setCore c x).conf = s.conf := rfl
@[simp] theorem State.setCore_booted (s : State) (c : Nat) (x : CoreState) : (s.setCore c x).booted = s.booted := rfl
@[simp] theorem State.setCore_hostLines (s : State) (c : Nat) (x : CoreState) : (s.setCore c x).hostLines = s.hostLines := rfl
@[simp] theorem State.setCore_out (s : State) (c : Nat) (x : CoreState) : (s.setCore c x).out = s.out := rfl
@[simp] theorem State.setCore_turn (s : State) (c : Nat) (x : CoreState) : (s.setCore c x).turn = s.turn := rfl
@[simp] theorem State.setCore_evs (s : State) (c : Nat) (x : CoreState) : (s.setCore c x).evs = s.evs := rfl
@[simp] theorem State.setCore_evTurn (s : State) (c : Nat) (x : CoreState) : (s.setCore c x).evTurn = s.evTurn := rfl
@[simp] theorem State.setCore_evLast (s : State) (c : Nat) (x : CoreState) : (s.setCore c x).evLast = s.evLast := rfl
@[simp] theorem State.setCore_fresh (s : State) (c : Nat) (x : CoreState) : (s.setCore c x).fresh = s.fresh := rfl
@[simp] theorem State.setCore_free (s : State) (c : Nat) (x : CoreState) : (s.setCore c x).free = s.free := rfl

@[simp] theorem State.updCore_clk (s : State) (c : Nat) (f : CoreState → CoreState) : (s.updCore c f).clk = s.clk := rfl
@[simp] theorem State.updCore_agenda (s : State) (c : Nat) (f : CoreState → CoreState) : (s.updCore c f).agenda = s.agenda := rfl
@[simp] theorem State.updCore_iss (s : State) (c : Nat) (f : CoreState → CoreState) : (s.updCore c f).iss = s.iss := rfl
@[simp] theorem State.updCore_stowed (s : State) (c : Nat) (f : CoreState → CoreState) : (s.updCore c f).stowed = s.stowed := rfl
@[simp] theorem State.updCore_groups (s : State) (c : Nat) (f : CoreState → CoreState) : (s.updCore c f).groups = s.groups := rfl
@[simp] theorem State.updCore_gangs (s : State) (c : Nat) (f : CoreState → CoreState) : (s.updCore c f).gangs = s.gangs := rfl
@[simp] theorem State.updCore_launches (s : State) (c : Nat) (f : CoreState → CoreState) : (s.updCore c f).launches = s.launches := rfl
@[simp] theorem State.updCore_tombs (s : State) (c : Nat) (f : CoreState → CoreState) : (s.updCore c f).tombs = s.tombs := rfl
@[simp] theorem State.updCore_cores (s : State) (c : Nat) (f : CoreState → CoreState) : (s.updCore c f).cores = tset s.cores c (f (s.core c)) := rfl
@[simp] theorem State.updCore_dies (s : State) (c : Nat) (f : CoreState → CoreState) : (s.updCore c f).dies = s.dies := rfl
@[simp] theorem State.updCore_parts (s : State) (c : Nat) (f : CoreState → CoreState) : (s.updCore c f).parts = s.parts := rfl
@[simp] theorem State.updCore_mem (s : State) (c : Nat) (f : CoreState → CoreState) : (s.updCore c f).mem = s.mem := rfl
@[simp] theorem State.updCore_pois (s : State) (c : Nat) (f : CoreState → CoreState) : (s.updCore c f).pois = s.pois := rfl
@[simp] theorem State.updCore_dirty (s : State) (c : Nat) (f : CoreState → CoreState) : (s.updCore c f).dirty = s.dirty := rfl
@[simp] theorem State.updCore_lines (s : State) (c : Nat) (f : CoreState → CoreState) : (s.updCore c f).lines = s.lines := rfl
@[simp] theorem State.updCore_mts (s : State) (c : Nat) (f : CoreState → CoreState) : (s.updCore c f).mts = s.mts := rfl
@[simp] theorem State.updCore_copies (s : State) (c : Nat) (f : CoreState → CoreState) : (s.updCore c f).copies = s.copies := rfl
@[simp] theorem State.updCore_reqs (s : State) (c : Nat) (f : CoreState → CoreState) : (s.updCore c f).reqs = s.reqs := rfl
@[simp] theorem State.updCore_cpys (s : State) (c : Nat) (f : CoreState → CoreState) : (s.updCore c f).cpys = s.cpys := rfl
@[simp] theorem State.updCore_engs (s : State) (c : Nat) (f : CoreState → CoreState) : (s.updCore c f).engs = s.engs := rfl
@[simp] theorem State.updCore_ecmds (s : State) (c : Nat) (f : CoreState → CoreState) : (s.updCore c f).ecmds = s.ecmds := rfl
@[simp] theorem State.updCore_status (s : State) (c : Nat) (f : CoreState → CoreState) : (s.updCore c f).status = s.status := rfl
@[simp] theorem State.updCore_fences (s : State) (c : Nat) (f : CoreState → CoreState) : (s.updCore c f).fences = s.fences := rfl
@[simp] theorem State.updCore_stalls (s : State) (c : Nat) (f : CoreState → CoreState) : (s.updCore c f).stalls = s.stalls := rfl
@[simp] theorem State.updCore_lineWaits (s : State) (c : Nat) (f : CoreState → CoreState) : (s.updCore c f).lineWaits = s.lineWaits := rfl
@[simp] theorem State.updCore_plists (s : State) (c : Nat) (f : CoreState → CoreState) : (s.updCore c f).plists = s.plists := rfl
@[simp] theorem State.updCore_bcmds (s : State) (c : Nat) (f : CoreState → CoreState) : (s.updCore c f).bcmds = s.bcmds := rfl
@[simp] theorem State.updCore_banks (s : State) (c : Nat) (f : CoreState → CoreState) : (s.updCore c f).banks = s.banks := rfl
@[simp] theorem State.updCore_waves (s : State) (c : Nat) (f : CoreState → CoreState) : (s.updCore c f).waves = s.waves := rfl
@[simp] theorem State.updCore_pkts (s : State) (c : Nat) (f : CoreState → CoreState) : (s.updCore c f).pkts = s.pkts := rfl
@[simp] theorem State.updCore_recs (s : State) (c : Nat) (f : CoreState → CoreState) : (s.updCore c f).recs = s.recs := rfl
@[simp] theorem State.updCore_replies (s : State) (c : Nat) (f : CoreState → CoreState) : (s.updCore c f).replies = s.replies := rfl
@[simp] theorem State.updCore_hlogs (s : State) (c : Nat) (f : CoreState → CoreState) : (s.updCore c f).hlogs = s.hlogs := rfl
@[simp] theorem State.updCore_harts (s : State) (c : Nat) (f : CoreState → CoreState) : (s.updCore c f).harts = s.harts := rfl
@[simp] theorem State.updCore_flash (s : State) (c : Nat) (f : CoreState → CoreState) : (s.updCore c f).flash = s.flash := rfl
@[simp] theorem State.updCore_conf (s : State) (c : Nat) (f : CoreState → CoreState) : (s.updCore c f).conf = s.conf := rfl
@[simp] theorem State.updCore_booted (s : State) (c : Nat) (f : CoreState → CoreState) : (s.updCore c f).booted = s.booted := rfl
@[simp] theorem State.updCore_hostLines (s : State) (c : Nat) (f : CoreState → CoreState) : (s.updCore c f).hostLines = s.hostLines := rfl
@[simp] theorem State.updCore_out (s : State) (c : Nat) (f : CoreState → CoreState) : (s.updCore c f).out = s.out := rfl
@[simp] theorem State.updCore_turn (s : State) (c : Nat) (f : CoreState → CoreState) : (s.updCore c f).turn = s.turn := rfl
@[simp] theorem State.updCore_evs (s : State) (c : Nat) (f : CoreState → CoreState) : (s.updCore c f).evs = s.evs := rfl
@[simp] theorem State.updCore_evTurn (s : State) (c : Nat) (f : CoreState → CoreState) : (s.updCore c f).evTurn = s.evTurn := rfl
@[simp] theorem State.updCore_evLast (s : State) (c : Nat) (f : CoreState → CoreState) : (s.updCore c f).evLast = s.evLast := rfl
@[simp] theorem State.updCore_fresh (s : State) (c : Nat) (f : CoreState → CoreState) : (s.updCore c f).fresh = s.fresh := rfl
@[simp] theorem State.updCore_free (s : State) (c : Nat) (f : CoreState → CoreState) : (s.updCore c f).free = s.free := rfl

@[simp] theorem State.setDie_clk (s : State) (d : Nat) (x : DieState) : (s.setDie d x).clk = s.clk := rfl
@[simp] theorem State.setDie_agenda (s : State) (d : Nat) (x : DieState) : (s.setDie d x).agenda = s.agenda := rfl
@[simp] theorem State.setDie_iss (s : State) (d : Nat) (x : DieState) : (s.setDie d x).iss = s.iss := rfl
@[simp] theorem State.setDie_stowed (s : State) (d : Nat) (x : DieState) : (s.setDie d x).stowed = s.stowed := rfl
@[simp] theorem State.setDie_groups (s : State) (d : Nat) (x : DieState) : (s.setDie d x).groups = s.groups := rfl
@[simp] theorem State.setDie_gangs (s : State) (d : Nat) (x : DieState) : (s.setDie d x).gangs = s.gangs := rfl
@[simp] theorem State.setDie_launches (s : State) (d : Nat) (x : DieState) : (s.setDie d x).launches = s.launches := rfl
@[simp] theorem State.setDie_tombs (s : State) (d : Nat) (x : DieState) : (s.setDie d x).tombs = s.tombs := rfl
@[simp] theorem State.setDie_cores (s : State) (d : Nat) (x : DieState) : (s.setDie d x).cores = s.cores := rfl
@[simp] theorem State.setDie_dies (s : State) (d : Nat) (x : DieState) : (s.setDie d x).dies = tset s.dies d x := rfl
@[simp] theorem State.setDie_parts (s : State) (d : Nat) (x : DieState) : (s.setDie d x).parts = s.parts := rfl
@[simp] theorem State.setDie_mem (s : State) (d : Nat) (x : DieState) : (s.setDie d x).mem = s.mem := rfl
@[simp] theorem State.setDie_pois (s : State) (d : Nat) (x : DieState) : (s.setDie d x).pois = s.pois := rfl
@[simp] theorem State.setDie_dirty (s : State) (d : Nat) (x : DieState) : (s.setDie d x).dirty = s.dirty := rfl
@[simp] theorem State.setDie_lines (s : State) (d : Nat) (x : DieState) : (s.setDie d x).lines = s.lines := rfl
@[simp] theorem State.setDie_mts (s : State) (d : Nat) (x : DieState) : (s.setDie d x).mts = s.mts := rfl
@[simp] theorem State.setDie_copies (s : State) (d : Nat) (x : DieState) : (s.setDie d x).copies = s.copies := rfl
@[simp] theorem State.setDie_reqs (s : State) (d : Nat) (x : DieState) : (s.setDie d x).reqs = s.reqs := rfl
@[simp] theorem State.setDie_cpys (s : State) (d : Nat) (x : DieState) : (s.setDie d x).cpys = s.cpys := rfl
@[simp] theorem State.setDie_engs (s : State) (d : Nat) (x : DieState) : (s.setDie d x).engs = s.engs := rfl
@[simp] theorem State.setDie_ecmds (s : State) (d : Nat) (x : DieState) : (s.setDie d x).ecmds = s.ecmds := rfl
@[simp] theorem State.setDie_status (s : State) (d : Nat) (x : DieState) : (s.setDie d x).status = s.status := rfl
@[simp] theorem State.setDie_fences (s : State) (d : Nat) (x : DieState) : (s.setDie d x).fences = s.fences := rfl
@[simp] theorem State.setDie_stalls (s : State) (d : Nat) (x : DieState) : (s.setDie d x).stalls = s.stalls := rfl
@[simp] theorem State.setDie_lineWaits (s : State) (d : Nat) (x : DieState) : (s.setDie d x).lineWaits = s.lineWaits := rfl
@[simp] theorem State.setDie_plists (s : State) (d : Nat) (x : DieState) : (s.setDie d x).plists = s.plists := rfl
@[simp] theorem State.setDie_bcmds (s : State) (d : Nat) (x : DieState) : (s.setDie d x).bcmds = s.bcmds := rfl
@[simp] theorem State.setDie_banks (s : State) (d : Nat) (x : DieState) : (s.setDie d x).banks = s.banks := rfl
@[simp] theorem State.setDie_waves (s : State) (d : Nat) (x : DieState) : (s.setDie d x).waves = s.waves := rfl
@[simp] theorem State.setDie_pkts (s : State) (d : Nat) (x : DieState) : (s.setDie d x).pkts = s.pkts := rfl
@[simp] theorem State.setDie_recs (s : State) (d : Nat) (x : DieState) : (s.setDie d x).recs = s.recs := rfl
@[simp] theorem State.setDie_replies (s : State) (d : Nat) (x : DieState) : (s.setDie d x).replies = s.replies := rfl
@[simp] theorem State.setDie_hlogs (s : State) (d : Nat) (x : DieState) : (s.setDie d x).hlogs = s.hlogs := rfl
@[simp] theorem State.setDie_harts (s : State) (d : Nat) (x : DieState) : (s.setDie d x).harts = s.harts := rfl
@[simp] theorem State.setDie_flash (s : State) (d : Nat) (x : DieState) : (s.setDie d x).flash = s.flash := rfl
@[simp] theorem State.setDie_conf (s : State) (d : Nat) (x : DieState) : (s.setDie d x).conf = s.conf := rfl
@[simp] theorem State.setDie_booted (s : State) (d : Nat) (x : DieState) : (s.setDie d x).booted = s.booted := rfl
@[simp] theorem State.setDie_hostLines (s : State) (d : Nat) (x : DieState) : (s.setDie d x).hostLines = s.hostLines := rfl
@[simp] theorem State.setDie_out (s : State) (d : Nat) (x : DieState) : (s.setDie d x).out = s.out := rfl
@[simp] theorem State.setDie_turn (s : State) (d : Nat) (x : DieState) : (s.setDie d x).turn = s.turn := rfl
@[simp] theorem State.setDie_evs (s : State) (d : Nat) (x : DieState) : (s.setDie d x).evs = s.evs := rfl
@[simp] theorem State.setDie_evTurn (s : State) (d : Nat) (x : DieState) : (s.setDie d x).evTurn = s.evTurn := rfl
@[simp] theorem State.setDie_evLast (s : State) (d : Nat) (x : DieState) : (s.setDie d x).evLast = s.evLast := rfl
@[simp] theorem State.setDie_fresh (s : State) (d : Nat) (x : DieState) : (s.setDie d x).fresh = s.fresh := rfl
@[simp] theorem State.setDie_free (s : State) (d : Nat) (x : DieState) : (s.setDie d x).free = s.free := rfl

@[simp] theorem State.updDie_clk (s : State) (d : Nat) (f : DieState → DieState) : (s.updDie d f).clk = s.clk := rfl
@[simp] theorem State.updDie_agenda (s : State) (d : Nat) (f : DieState → DieState) : (s.updDie d f).agenda = s.agenda := rfl
@[simp] theorem State.updDie_iss (s : State) (d : Nat) (f : DieState → DieState) : (s.updDie d f).iss = s.iss := rfl
@[simp] theorem State.updDie_stowed (s : State) (d : Nat) (f : DieState → DieState) : (s.updDie d f).stowed = s.stowed := rfl
@[simp] theorem State.updDie_groups (s : State) (d : Nat) (f : DieState → DieState) : (s.updDie d f).groups = s.groups := rfl
@[simp] theorem State.updDie_gangs (s : State) (d : Nat) (f : DieState → DieState) : (s.updDie d f).gangs = s.gangs := rfl
@[simp] theorem State.updDie_launches (s : State) (d : Nat) (f : DieState → DieState) : (s.updDie d f).launches = s.launches := rfl
@[simp] theorem State.updDie_tombs (s : State) (d : Nat) (f : DieState → DieState) : (s.updDie d f).tombs = s.tombs := rfl
@[simp] theorem State.updDie_cores (s : State) (d : Nat) (f : DieState → DieState) : (s.updDie d f).cores = s.cores := rfl
@[simp] theorem State.updDie_dies (s : State) (d : Nat) (f : DieState → DieState) : (s.updDie d f).dies = tset s.dies d (f (s.die d)) := rfl
@[simp] theorem State.updDie_parts (s : State) (d : Nat) (f : DieState → DieState) : (s.updDie d f).parts = s.parts := rfl
@[simp] theorem State.updDie_mem (s : State) (d : Nat) (f : DieState → DieState) : (s.updDie d f).mem = s.mem := rfl
@[simp] theorem State.updDie_pois (s : State) (d : Nat) (f : DieState → DieState) : (s.updDie d f).pois = s.pois := rfl
@[simp] theorem State.updDie_dirty (s : State) (d : Nat) (f : DieState → DieState) : (s.updDie d f).dirty = s.dirty := rfl
@[simp] theorem State.updDie_lines (s : State) (d : Nat) (f : DieState → DieState) : (s.updDie d f).lines = s.lines := rfl
@[simp] theorem State.updDie_mts (s : State) (d : Nat) (f : DieState → DieState) : (s.updDie d f).mts = s.mts := rfl
@[simp] theorem State.updDie_copies (s : State) (d : Nat) (f : DieState → DieState) : (s.updDie d f).copies = s.copies := rfl
@[simp] theorem State.updDie_reqs (s : State) (d : Nat) (f : DieState → DieState) : (s.updDie d f).reqs = s.reqs := rfl
@[simp] theorem State.updDie_cpys (s : State) (d : Nat) (f : DieState → DieState) : (s.updDie d f).cpys = s.cpys := rfl
@[simp] theorem State.updDie_engs (s : State) (d : Nat) (f : DieState → DieState) : (s.updDie d f).engs = s.engs := rfl
@[simp] theorem State.updDie_ecmds (s : State) (d : Nat) (f : DieState → DieState) : (s.updDie d f).ecmds = s.ecmds := rfl
@[simp] theorem State.updDie_status (s : State) (d : Nat) (f : DieState → DieState) : (s.updDie d f).status = s.status := rfl
@[simp] theorem State.updDie_fences (s : State) (d : Nat) (f : DieState → DieState) : (s.updDie d f).fences = s.fences := rfl
@[simp] theorem State.updDie_stalls (s : State) (d : Nat) (f : DieState → DieState) : (s.updDie d f).stalls = s.stalls := rfl
@[simp] theorem State.updDie_lineWaits (s : State) (d : Nat) (f : DieState → DieState) : (s.updDie d f).lineWaits = s.lineWaits := rfl
@[simp] theorem State.updDie_plists (s : State) (d : Nat) (f : DieState → DieState) : (s.updDie d f).plists = s.plists := rfl
@[simp] theorem State.updDie_bcmds (s : State) (d : Nat) (f : DieState → DieState) : (s.updDie d f).bcmds = s.bcmds := rfl
@[simp] theorem State.updDie_banks (s : State) (d : Nat) (f : DieState → DieState) : (s.updDie d f).banks = s.banks := rfl
@[simp] theorem State.updDie_waves (s : State) (d : Nat) (f : DieState → DieState) : (s.updDie d f).waves = s.waves := rfl
@[simp] theorem State.updDie_pkts (s : State) (d : Nat) (f : DieState → DieState) : (s.updDie d f).pkts = s.pkts := rfl
@[simp] theorem State.updDie_recs (s : State) (d : Nat) (f : DieState → DieState) : (s.updDie d f).recs = s.recs := rfl
@[simp] theorem State.updDie_replies (s : State) (d : Nat) (f : DieState → DieState) : (s.updDie d f).replies = s.replies := rfl
@[simp] theorem State.updDie_hlogs (s : State) (d : Nat) (f : DieState → DieState) : (s.updDie d f).hlogs = s.hlogs := rfl
@[simp] theorem State.updDie_harts (s : State) (d : Nat) (f : DieState → DieState) : (s.updDie d f).harts = s.harts := rfl
@[simp] theorem State.updDie_flash (s : State) (d : Nat) (f : DieState → DieState) : (s.updDie d f).flash = s.flash := rfl
@[simp] theorem State.updDie_conf (s : State) (d : Nat) (f : DieState → DieState) : (s.updDie d f).conf = s.conf := rfl
@[simp] theorem State.updDie_booted (s : State) (d : Nat) (f : DieState → DieState) : (s.updDie d f).booted = s.booted := rfl
@[simp] theorem State.updDie_hostLines (s : State) (d : Nat) (f : DieState → DieState) : (s.updDie d f).hostLines = s.hostLines := rfl
@[simp] theorem State.updDie_out (s : State) (d : Nat) (f : DieState → DieState) : (s.updDie d f).out = s.out := rfl
@[simp] theorem State.updDie_turn (s : State) (d : Nat) (f : DieState → DieState) : (s.updDie d f).turn = s.turn := rfl
@[simp] theorem State.updDie_evs (s : State) (d : Nat) (f : DieState → DieState) : (s.updDie d f).evs = s.evs := rfl
@[simp] theorem State.updDie_evTurn (s : State) (d : Nat) (f : DieState → DieState) : (s.updDie d f).evTurn = s.evTurn := rfl
@[simp] theorem State.updDie_evLast (s : State) (d : Nat) (f : DieState → DieState) : (s.updDie d f).evLast = s.evLast := rfl
@[simp] theorem State.updDie_fresh (s : State) (d : Nat) (f : DieState → DieState) : (s.updDie d f).fresh = s.fresh := rfl
@[simp] theorem State.updDie_free (s : State) (d : Nat) (f : DieState → DieState) : (s.updDie d f).free = s.free := rfl

@[simp] theorem State.setPart_clk (s : State) (p : Nat) (x : PartState) : (s.setPart p x).clk = s.clk := rfl
@[simp] theorem State.setPart_agenda (s : State) (p : Nat) (x : PartState) : (s.setPart p x).agenda = s.agenda := rfl
@[simp] theorem State.setPart_iss (s : State) (p : Nat) (x : PartState) : (s.setPart p x).iss = s.iss := rfl
@[simp] theorem State.setPart_stowed (s : State) (p : Nat) (x : PartState) : (s.setPart p x).stowed = s.stowed := rfl
@[simp] theorem State.setPart_groups (s : State) (p : Nat) (x : PartState) : (s.setPart p x).groups = s.groups := rfl
@[simp] theorem State.setPart_gangs (s : State) (p : Nat) (x : PartState) : (s.setPart p x).gangs = s.gangs := rfl
@[simp] theorem State.setPart_launches (s : State) (p : Nat) (x : PartState) : (s.setPart p x).launches = s.launches := rfl
@[simp] theorem State.setPart_tombs (s : State) (p : Nat) (x : PartState) : (s.setPart p x).tombs = s.tombs := rfl
@[simp] theorem State.setPart_cores (s : State) (p : Nat) (x : PartState) : (s.setPart p x).cores = s.cores := rfl
@[simp] theorem State.setPart_dies (s : State) (p : Nat) (x : PartState) : (s.setPart p x).dies = s.dies := rfl
@[simp] theorem State.setPart_parts (s : State) (p : Nat) (x : PartState) : (s.setPart p x).parts = tset s.parts p x := rfl
@[simp] theorem State.setPart_mem (s : State) (p : Nat) (x : PartState) : (s.setPart p x).mem = s.mem := rfl
@[simp] theorem State.setPart_pois (s : State) (p : Nat) (x : PartState) : (s.setPart p x).pois = s.pois := rfl
@[simp] theorem State.setPart_dirty (s : State) (p : Nat) (x : PartState) : (s.setPart p x).dirty = s.dirty := rfl
@[simp] theorem State.setPart_lines (s : State) (p : Nat) (x : PartState) : (s.setPart p x).lines = s.lines := rfl
@[simp] theorem State.setPart_mts (s : State) (p : Nat) (x : PartState) : (s.setPart p x).mts = s.mts := rfl
@[simp] theorem State.setPart_copies (s : State) (p : Nat) (x : PartState) : (s.setPart p x).copies = s.copies := rfl
@[simp] theorem State.setPart_reqs (s : State) (p : Nat) (x : PartState) : (s.setPart p x).reqs = s.reqs := rfl
@[simp] theorem State.setPart_cpys (s : State) (p : Nat) (x : PartState) : (s.setPart p x).cpys = s.cpys := rfl
@[simp] theorem State.setPart_engs (s : State) (p : Nat) (x : PartState) : (s.setPart p x).engs = s.engs := rfl
@[simp] theorem State.setPart_ecmds (s : State) (p : Nat) (x : PartState) : (s.setPart p x).ecmds = s.ecmds := rfl
@[simp] theorem State.setPart_status (s : State) (p : Nat) (x : PartState) : (s.setPart p x).status = s.status := rfl
@[simp] theorem State.setPart_fences (s : State) (p : Nat) (x : PartState) : (s.setPart p x).fences = s.fences := rfl
@[simp] theorem State.setPart_stalls (s : State) (p : Nat) (x : PartState) : (s.setPart p x).stalls = s.stalls := rfl
@[simp] theorem State.setPart_lineWaits (s : State) (p : Nat) (x : PartState) : (s.setPart p x).lineWaits = s.lineWaits := rfl
@[simp] theorem State.setPart_plists (s : State) (p : Nat) (x : PartState) : (s.setPart p x).plists = s.plists := rfl
@[simp] theorem State.setPart_bcmds (s : State) (p : Nat) (x : PartState) : (s.setPart p x).bcmds = s.bcmds := rfl
@[simp] theorem State.setPart_banks (s : State) (p : Nat) (x : PartState) : (s.setPart p x).banks = s.banks := rfl
@[simp] theorem State.setPart_waves (s : State) (p : Nat) (x : PartState) : (s.setPart p x).waves = s.waves := rfl
@[simp] theorem State.setPart_pkts (s : State) (p : Nat) (x : PartState) : (s.setPart p x).pkts = s.pkts := rfl
@[simp] theorem State.setPart_recs (s : State) (p : Nat) (x : PartState) : (s.setPart p x).recs = s.recs := rfl
@[simp] theorem State.setPart_replies (s : State) (p : Nat) (x : PartState) : (s.setPart p x).replies = s.replies := rfl
@[simp] theorem State.setPart_hlogs (s : State) (p : Nat) (x : PartState) : (s.setPart p x).hlogs = s.hlogs := rfl
@[simp] theorem State.setPart_harts (s : State) (p : Nat) (x : PartState) : (s.setPart p x).harts = s.harts := rfl
@[simp] theorem State.setPart_flash (s : State) (p : Nat) (x : PartState) : (s.setPart p x).flash = s.flash := rfl
@[simp] theorem State.setPart_conf (s : State) (p : Nat) (x : PartState) : (s.setPart p x).conf = s.conf := rfl
@[simp] theorem State.setPart_booted (s : State) (p : Nat) (x : PartState) : (s.setPart p x).booted = s.booted := rfl
@[simp] theorem State.setPart_hostLines (s : State) (p : Nat) (x : PartState) : (s.setPart p x).hostLines = s.hostLines := rfl
@[simp] theorem State.setPart_out (s : State) (p : Nat) (x : PartState) : (s.setPart p x).out = s.out := rfl
@[simp] theorem State.setPart_turn (s : State) (p : Nat) (x : PartState) : (s.setPart p x).turn = s.turn := rfl
@[simp] theorem State.setPart_evs (s : State) (p : Nat) (x : PartState) : (s.setPart p x).evs = s.evs := rfl
@[simp] theorem State.setPart_evTurn (s : State) (p : Nat) (x : PartState) : (s.setPart p x).evTurn = s.evTurn := rfl
@[simp] theorem State.setPart_evLast (s : State) (p : Nat) (x : PartState) : (s.setPart p x).evLast = s.evLast := rfl
@[simp] theorem State.setPart_fresh (s : State) (p : Nat) (x : PartState) : (s.setPart p x).fresh = s.fresh := rfl
@[simp] theorem State.setPart_free (s : State) (p : Nat) (x : PartState) : (s.setPart p x).free = s.free := rfl

@[simp] theorem State.updPart_clk (s : State) (p : Nat) (f : PartState → PartState) : (s.updPart p f).clk = s.clk := rfl
@[simp] theorem State.updPart_agenda (s : State) (p : Nat) (f : PartState → PartState) : (s.updPart p f).agenda = s.agenda := rfl
@[simp] theorem State.updPart_iss (s : State) (p : Nat) (f : PartState → PartState) : (s.updPart p f).iss = s.iss := rfl
@[simp] theorem State.updPart_stowed (s : State) (p : Nat) (f : PartState → PartState) : (s.updPart p f).stowed = s.stowed := rfl
@[simp] theorem State.updPart_groups (s : State) (p : Nat) (f : PartState → PartState) : (s.updPart p f).groups = s.groups := rfl
@[simp] theorem State.updPart_gangs (s : State) (p : Nat) (f : PartState → PartState) : (s.updPart p f).gangs = s.gangs := rfl
@[simp] theorem State.updPart_launches (s : State) (p : Nat) (f : PartState → PartState) : (s.updPart p f).launches = s.launches := rfl
@[simp] theorem State.updPart_tombs (s : State) (p : Nat) (f : PartState → PartState) : (s.updPart p f).tombs = s.tombs := rfl
@[simp] theorem State.updPart_cores (s : State) (p : Nat) (f : PartState → PartState) : (s.updPart p f).cores = s.cores := rfl
@[simp] theorem State.updPart_dies (s : State) (p : Nat) (f : PartState → PartState) : (s.updPart p f).dies = s.dies := rfl
@[simp] theorem State.updPart_parts (s : State) (p : Nat) (f : PartState → PartState) : (s.updPart p f).parts = tset s.parts p (f (s.part p)) := rfl
@[simp] theorem State.updPart_mem (s : State) (p : Nat) (f : PartState → PartState) : (s.updPart p f).mem = s.mem := rfl
@[simp] theorem State.updPart_pois (s : State) (p : Nat) (f : PartState → PartState) : (s.updPart p f).pois = s.pois := rfl
@[simp] theorem State.updPart_dirty (s : State) (p : Nat) (f : PartState → PartState) : (s.updPart p f).dirty = s.dirty := rfl
@[simp] theorem State.updPart_lines (s : State) (p : Nat) (f : PartState → PartState) : (s.updPart p f).lines = s.lines := rfl
@[simp] theorem State.updPart_mts (s : State) (p : Nat) (f : PartState → PartState) : (s.updPart p f).mts = s.mts := rfl
@[simp] theorem State.updPart_copies (s : State) (p : Nat) (f : PartState → PartState) : (s.updPart p f).copies = s.copies := rfl
@[simp] theorem State.updPart_reqs (s : State) (p : Nat) (f : PartState → PartState) : (s.updPart p f).reqs = s.reqs := rfl
@[simp] theorem State.updPart_cpys (s : State) (p : Nat) (f : PartState → PartState) : (s.updPart p f).cpys = s.cpys := rfl
@[simp] theorem State.updPart_engs (s : State) (p : Nat) (f : PartState → PartState) : (s.updPart p f).engs = s.engs := rfl
@[simp] theorem State.updPart_ecmds (s : State) (p : Nat) (f : PartState → PartState) : (s.updPart p f).ecmds = s.ecmds := rfl
@[simp] theorem State.updPart_status (s : State) (p : Nat) (f : PartState → PartState) : (s.updPart p f).status = s.status := rfl
@[simp] theorem State.updPart_fences (s : State) (p : Nat) (f : PartState → PartState) : (s.updPart p f).fences = s.fences := rfl
@[simp] theorem State.updPart_stalls (s : State) (p : Nat) (f : PartState → PartState) : (s.updPart p f).stalls = s.stalls := rfl
@[simp] theorem State.updPart_lineWaits (s : State) (p : Nat) (f : PartState → PartState) : (s.updPart p f).lineWaits = s.lineWaits := rfl
@[simp] theorem State.updPart_plists (s : State) (p : Nat) (f : PartState → PartState) : (s.updPart p f).plists = s.plists := rfl
@[simp] theorem State.updPart_bcmds (s : State) (p : Nat) (f : PartState → PartState) : (s.updPart p f).bcmds = s.bcmds := rfl
@[simp] theorem State.updPart_banks (s : State) (p : Nat) (f : PartState → PartState) : (s.updPart p f).banks = s.banks := rfl
@[simp] theorem State.updPart_waves (s : State) (p : Nat) (f : PartState → PartState) : (s.updPart p f).waves = s.waves := rfl
@[simp] theorem State.updPart_pkts (s : State) (p : Nat) (f : PartState → PartState) : (s.updPart p f).pkts = s.pkts := rfl
@[simp] theorem State.updPart_recs (s : State) (p : Nat) (f : PartState → PartState) : (s.updPart p f).recs = s.recs := rfl
@[simp] theorem State.updPart_replies (s : State) (p : Nat) (f : PartState → PartState) : (s.updPart p f).replies = s.replies := rfl
@[simp] theorem State.updPart_hlogs (s : State) (p : Nat) (f : PartState → PartState) : (s.updPart p f).hlogs = s.hlogs := rfl
@[simp] theorem State.updPart_harts (s : State) (p : Nat) (f : PartState → PartState) : (s.updPart p f).harts = s.harts := rfl
@[simp] theorem State.updPart_flash (s : State) (p : Nat) (f : PartState → PartState) : (s.updPart p f).flash = s.flash := rfl
@[simp] theorem State.updPart_conf (s : State) (p : Nat) (f : PartState → PartState) : (s.updPart p f).conf = s.conf := rfl
@[simp] theorem State.updPart_booted (s : State) (p : Nat) (f : PartState → PartState) : (s.updPart p f).booted = s.booted := rfl
@[simp] theorem State.updPart_hostLines (s : State) (p : Nat) (f : PartState → PartState) : (s.updPart p f).hostLines = s.hostLines := rfl
@[simp] theorem State.updPart_out (s : State) (p : Nat) (f : PartState → PartState) : (s.updPart p f).out = s.out := rfl
@[simp] theorem State.updPart_turn (s : State) (p : Nat) (f : PartState → PartState) : (s.updPart p f).turn = s.turn := rfl
@[simp] theorem State.updPart_evs (s : State) (p : Nat) (f : PartState → PartState) : (s.updPart p f).evs = s.evs := rfl
@[simp] theorem State.updPart_evTurn (s : State) (p : Nat) (f : PartState → PartState) : (s.updPart p f).evTurn = s.evTurn := rfl
@[simp] theorem State.updPart_evLast (s : State) (p : Nat) (f : PartState → PartState) : (s.updPart p f).evLast = s.evLast := rfl
@[simp] theorem State.updPart_fresh (s : State) (p : Nat) (f : PartState → PartState) : (s.updPart p f).fresh = s.fresh := rfl
@[simp] theorem State.updPart_free (s : State) (p : Nat) (f : PartState → PartState) : (s.updPart p f).free = s.free := rfl

@[simp] theorem State.updGrp_clk (s : State) (u : Nat) (f : Grp → Grp) : (s.updGrp u f).clk = s.clk := rfl
@[simp] theorem State.updGrp_agenda (s : State) (u : Nat) (f : Grp → Grp) : (s.updGrp u f).agenda = s.agenda := rfl
@[simp] theorem State.updGrp_iss (s : State) (u : Nat) (f : Grp → Grp) : (s.updGrp u f).iss = s.iss := rfl
@[simp] theorem State.updGrp_stowed (s : State) (u : Nat) (f : Grp → Grp) : (s.updGrp u f).stowed = s.stowed := rfl
@[simp] theorem State.updGrp_groups (s : State) (u : Nat) (f : Grp → Grp) : (s.updGrp u f).groups = updFirst (fun g => g.uid == u) f s.groups := rfl
@[simp] theorem State.updGrp_gangs (s : State) (u : Nat) (f : Grp → Grp) : (s.updGrp u f).gangs = s.gangs := rfl
@[simp] theorem State.updGrp_launches (s : State) (u : Nat) (f : Grp → Grp) : (s.updGrp u f).launches = s.launches := rfl
@[simp] theorem State.updGrp_tombs (s : State) (u : Nat) (f : Grp → Grp) : (s.updGrp u f).tombs = s.tombs := rfl
@[simp] theorem State.updGrp_cores (s : State) (u : Nat) (f : Grp → Grp) : (s.updGrp u f).cores = s.cores := rfl
@[simp] theorem State.updGrp_dies (s : State) (u : Nat) (f : Grp → Grp) : (s.updGrp u f).dies = s.dies := rfl
@[simp] theorem State.updGrp_parts (s : State) (u : Nat) (f : Grp → Grp) : (s.updGrp u f).parts = s.parts := rfl
@[simp] theorem State.updGrp_mem (s : State) (u : Nat) (f : Grp → Grp) : (s.updGrp u f).mem = s.mem := rfl
@[simp] theorem State.updGrp_pois (s : State) (u : Nat) (f : Grp → Grp) : (s.updGrp u f).pois = s.pois := rfl
@[simp] theorem State.updGrp_dirty (s : State) (u : Nat) (f : Grp → Grp) : (s.updGrp u f).dirty = s.dirty := rfl
@[simp] theorem State.updGrp_lines (s : State) (u : Nat) (f : Grp → Grp) : (s.updGrp u f).lines = s.lines := rfl
@[simp] theorem State.updGrp_mts (s : State) (u : Nat) (f : Grp → Grp) : (s.updGrp u f).mts = s.mts := rfl
@[simp] theorem State.updGrp_copies (s : State) (u : Nat) (f : Grp → Grp) : (s.updGrp u f).copies = s.copies := rfl
@[simp] theorem State.updGrp_reqs (s : State) (u : Nat) (f : Grp → Grp) : (s.updGrp u f).reqs = s.reqs := rfl
@[simp] theorem State.updGrp_cpys (s : State) (u : Nat) (f : Grp → Grp) : (s.updGrp u f).cpys = s.cpys := rfl
@[simp] theorem State.updGrp_engs (s : State) (u : Nat) (f : Grp → Grp) : (s.updGrp u f).engs = s.engs := rfl
@[simp] theorem State.updGrp_ecmds (s : State) (u : Nat) (f : Grp → Grp) : (s.updGrp u f).ecmds = s.ecmds := rfl
@[simp] theorem State.updGrp_status (s : State) (u : Nat) (f : Grp → Grp) : (s.updGrp u f).status = s.status := rfl
@[simp] theorem State.updGrp_fences (s : State) (u : Nat) (f : Grp → Grp) : (s.updGrp u f).fences = s.fences := rfl
@[simp] theorem State.updGrp_stalls (s : State) (u : Nat) (f : Grp → Grp) : (s.updGrp u f).stalls = s.stalls := rfl
@[simp] theorem State.updGrp_lineWaits (s : State) (u : Nat) (f : Grp → Grp) : (s.updGrp u f).lineWaits = s.lineWaits := rfl
@[simp] theorem State.updGrp_plists (s : State) (u : Nat) (f : Grp → Grp) : (s.updGrp u f).plists = s.plists := rfl
@[simp] theorem State.updGrp_bcmds (s : State) (u : Nat) (f : Grp → Grp) : (s.updGrp u f).bcmds = s.bcmds := rfl
@[simp] theorem State.updGrp_banks (s : State) (u : Nat) (f : Grp → Grp) : (s.updGrp u f).banks = s.banks := rfl
@[simp] theorem State.updGrp_waves (s : State) (u : Nat) (f : Grp → Grp) : (s.updGrp u f).waves = s.waves := rfl
@[simp] theorem State.updGrp_pkts (s : State) (u : Nat) (f : Grp → Grp) : (s.updGrp u f).pkts = s.pkts := rfl
@[simp] theorem State.updGrp_recs (s : State) (u : Nat) (f : Grp → Grp) : (s.updGrp u f).recs = s.recs := rfl
@[simp] theorem State.updGrp_replies (s : State) (u : Nat) (f : Grp → Grp) : (s.updGrp u f).replies = s.replies := rfl
@[simp] theorem State.updGrp_hlogs (s : State) (u : Nat) (f : Grp → Grp) : (s.updGrp u f).hlogs = s.hlogs := rfl
@[simp] theorem State.updGrp_harts (s : State) (u : Nat) (f : Grp → Grp) : (s.updGrp u f).harts = s.harts := rfl
@[simp] theorem State.updGrp_flash (s : State) (u : Nat) (f : Grp → Grp) : (s.updGrp u f).flash = s.flash := rfl
@[simp] theorem State.updGrp_conf (s : State) (u : Nat) (f : Grp → Grp) : (s.updGrp u f).conf = s.conf := rfl
@[simp] theorem State.updGrp_booted (s : State) (u : Nat) (f : Grp → Grp) : (s.updGrp u f).booted = s.booted := rfl
@[simp] theorem State.updGrp_hostLines (s : State) (u : Nat) (f : Grp → Grp) : (s.updGrp u f).hostLines = s.hostLines := rfl
@[simp] theorem State.updGrp_out (s : State) (u : Nat) (f : Grp → Grp) : (s.updGrp u f).out = s.out := rfl
@[simp] theorem State.updGrp_turn (s : State) (u : Nat) (f : Grp → Grp) : (s.updGrp u f).turn = s.turn := rfl
@[simp] theorem State.updGrp_evs (s : State) (u : Nat) (f : Grp → Grp) : (s.updGrp u f).evs = s.evs := rfl
@[simp] theorem State.updGrp_evTurn (s : State) (u : Nat) (f : Grp → Grp) : (s.updGrp u f).evTurn = s.evTurn := rfl
@[simp] theorem State.updGrp_evLast (s : State) (u : Nat) (f : Grp → Grp) : (s.updGrp u f).evLast = s.evLast := rfl
@[simp] theorem State.updGrp_fresh (s : State) (u : Nat) (f : Grp → Grp) : (s.updGrp u f).fresh = s.fresh := rfl
@[simp] theorem State.updGrp_free (s : State) (u : Nat) (f : Grp → Grp) : (s.updGrp u f).free = s.free := rfl

@[simp] theorem State.updGang_clk (s : State) (k : Nat) (f : Gang → Gang) : (s.updGang k f).clk = s.clk := rfl
@[simp] theorem State.updGang_agenda (s : State) (k : Nat) (f : Gang → Gang) : (s.updGang k f).agenda = s.agenda := rfl
@[simp] theorem State.updGang_iss (s : State) (k : Nat) (f : Gang → Gang) : (s.updGang k f).iss = s.iss := rfl
@[simp] theorem State.updGang_stowed (s : State) (k : Nat) (f : Gang → Gang) : (s.updGang k f).stowed = s.stowed := rfl
@[simp] theorem State.updGang_groups (s : State) (k : Nat) (f : Gang → Gang) : (s.updGang k f).groups = s.groups := rfl
@[simp] theorem State.updGang_gangs (s : State) (k : Nat) (f : Gang → Gang) : (s.updGang k f).gangs = updFirst (fun g => g.id == k) f s.gangs := rfl
@[simp] theorem State.updGang_launches (s : State) (k : Nat) (f : Gang → Gang) : (s.updGang k f).launches = s.launches := rfl
@[simp] theorem State.updGang_tombs (s : State) (k : Nat) (f : Gang → Gang) : (s.updGang k f).tombs = s.tombs := rfl
@[simp] theorem State.updGang_cores (s : State) (k : Nat) (f : Gang → Gang) : (s.updGang k f).cores = s.cores := rfl
@[simp] theorem State.updGang_dies (s : State) (k : Nat) (f : Gang → Gang) : (s.updGang k f).dies = s.dies := rfl
@[simp] theorem State.updGang_parts (s : State) (k : Nat) (f : Gang → Gang) : (s.updGang k f).parts = s.parts := rfl
@[simp] theorem State.updGang_mem (s : State) (k : Nat) (f : Gang → Gang) : (s.updGang k f).mem = s.mem := rfl
@[simp] theorem State.updGang_pois (s : State) (k : Nat) (f : Gang → Gang) : (s.updGang k f).pois = s.pois := rfl
@[simp] theorem State.updGang_dirty (s : State) (k : Nat) (f : Gang → Gang) : (s.updGang k f).dirty = s.dirty := rfl
@[simp] theorem State.updGang_lines (s : State) (k : Nat) (f : Gang → Gang) : (s.updGang k f).lines = s.lines := rfl
@[simp] theorem State.updGang_mts (s : State) (k : Nat) (f : Gang → Gang) : (s.updGang k f).mts = s.mts := rfl
@[simp] theorem State.updGang_copies (s : State) (k : Nat) (f : Gang → Gang) : (s.updGang k f).copies = s.copies := rfl
@[simp] theorem State.updGang_reqs (s : State) (k : Nat) (f : Gang → Gang) : (s.updGang k f).reqs = s.reqs := rfl
@[simp] theorem State.updGang_cpys (s : State) (k : Nat) (f : Gang → Gang) : (s.updGang k f).cpys = s.cpys := rfl
@[simp] theorem State.updGang_engs (s : State) (k : Nat) (f : Gang → Gang) : (s.updGang k f).engs = s.engs := rfl
@[simp] theorem State.updGang_ecmds (s : State) (k : Nat) (f : Gang → Gang) : (s.updGang k f).ecmds = s.ecmds := rfl
@[simp] theorem State.updGang_status (s : State) (k : Nat) (f : Gang → Gang) : (s.updGang k f).status = s.status := rfl
@[simp] theorem State.updGang_fences (s : State) (k : Nat) (f : Gang → Gang) : (s.updGang k f).fences = s.fences := rfl
@[simp] theorem State.updGang_stalls (s : State) (k : Nat) (f : Gang → Gang) : (s.updGang k f).stalls = s.stalls := rfl
@[simp] theorem State.updGang_lineWaits (s : State) (k : Nat) (f : Gang → Gang) : (s.updGang k f).lineWaits = s.lineWaits := rfl
@[simp] theorem State.updGang_plists (s : State) (k : Nat) (f : Gang → Gang) : (s.updGang k f).plists = s.plists := rfl
@[simp] theorem State.updGang_bcmds (s : State) (k : Nat) (f : Gang → Gang) : (s.updGang k f).bcmds = s.bcmds := rfl
@[simp] theorem State.updGang_banks (s : State) (k : Nat) (f : Gang → Gang) : (s.updGang k f).banks = s.banks := rfl
@[simp] theorem State.updGang_waves (s : State) (k : Nat) (f : Gang → Gang) : (s.updGang k f).waves = s.waves := rfl
@[simp] theorem State.updGang_pkts (s : State) (k : Nat) (f : Gang → Gang) : (s.updGang k f).pkts = s.pkts := rfl
@[simp] theorem State.updGang_recs (s : State) (k : Nat) (f : Gang → Gang) : (s.updGang k f).recs = s.recs := rfl
@[simp] theorem State.updGang_replies (s : State) (k : Nat) (f : Gang → Gang) : (s.updGang k f).replies = s.replies := rfl
@[simp] theorem State.updGang_hlogs (s : State) (k : Nat) (f : Gang → Gang) : (s.updGang k f).hlogs = s.hlogs := rfl
@[simp] theorem State.updGang_harts (s : State) (k : Nat) (f : Gang → Gang) : (s.updGang k f).harts = s.harts := rfl
@[simp] theorem State.updGang_flash (s : State) (k : Nat) (f : Gang → Gang) : (s.updGang k f).flash = s.flash := rfl
@[simp] theorem State.updGang_conf (s : State) (k : Nat) (f : Gang → Gang) : (s.updGang k f).conf = s.conf := rfl
@[simp] theorem State.updGang_booted (s : State) (k : Nat) (f : Gang → Gang) : (s.updGang k f).booted = s.booted := rfl
@[simp] theorem State.updGang_hostLines (s : State) (k : Nat) (f : Gang → Gang) : (s.updGang k f).hostLines = s.hostLines := rfl
@[simp] theorem State.updGang_out (s : State) (k : Nat) (f : Gang → Gang) : (s.updGang k f).out = s.out := rfl
@[simp] theorem State.updGang_turn (s : State) (k : Nat) (f : Gang → Gang) : (s.updGang k f).turn = s.turn := rfl
@[simp] theorem State.updGang_evs (s : State) (k : Nat) (f : Gang → Gang) : (s.updGang k f).evs = s.evs := rfl
@[simp] theorem State.updGang_evTurn (s : State) (k : Nat) (f : Gang → Gang) : (s.updGang k f).evTurn = s.evTurn := rfl
@[simp] theorem State.updGang_evLast (s : State) (k : Nat) (f : Gang → Gang) : (s.updGang k f).evLast = s.evLast := rfl
@[simp] theorem State.updGang_fresh (s : State) (k : Nat) (f : Gang → Gang) : (s.updGang k f).fresh = s.fresh := rfl
@[simp] theorem State.updGang_free (s : State) (k : Nat) (f : Gang → Gang) : (s.updGang k f).free = s.free := rfl

@[simp] theorem State.updLaunch_clk (s : State) (k : Nat) (f : Launch → Launch) : (s.updLaunch k f).clk = s.clk := rfl
@[simp] theorem State.updLaunch_agenda (s : State) (k : Nat) (f : Launch → Launch) : (s.updLaunch k f).agenda = s.agenda := rfl
@[simp] theorem State.updLaunch_iss (s : State) (k : Nat) (f : Launch → Launch) : (s.updLaunch k f).iss = s.iss := rfl
@[simp] theorem State.updLaunch_stowed (s : State) (k : Nat) (f : Launch → Launch) : (s.updLaunch k f).stowed = s.stowed := rfl
@[simp] theorem State.updLaunch_groups (s : State) (k : Nat) (f : Launch → Launch) : (s.updLaunch k f).groups = s.groups := rfl
@[simp] theorem State.updLaunch_gangs (s : State) (k : Nat) (f : Launch → Launch) : (s.updLaunch k f).gangs = s.gangs := rfl
@[simp] theorem State.updLaunch_launches (s : State) (k : Nat) (f : Launch → Launch) : (s.updLaunch k f).launches = updFirst (fun l => l.id == k) f s.launches := rfl
@[simp] theorem State.updLaunch_tombs (s : State) (k : Nat) (f : Launch → Launch) : (s.updLaunch k f).tombs = s.tombs := rfl
@[simp] theorem State.updLaunch_cores (s : State) (k : Nat) (f : Launch → Launch) : (s.updLaunch k f).cores = s.cores := rfl
@[simp] theorem State.updLaunch_dies (s : State) (k : Nat) (f : Launch → Launch) : (s.updLaunch k f).dies = s.dies := rfl
@[simp] theorem State.updLaunch_parts (s : State) (k : Nat) (f : Launch → Launch) : (s.updLaunch k f).parts = s.parts := rfl
@[simp] theorem State.updLaunch_mem (s : State) (k : Nat) (f : Launch → Launch) : (s.updLaunch k f).mem = s.mem := rfl
@[simp] theorem State.updLaunch_pois (s : State) (k : Nat) (f : Launch → Launch) : (s.updLaunch k f).pois = s.pois := rfl
@[simp] theorem State.updLaunch_dirty (s : State) (k : Nat) (f : Launch → Launch) : (s.updLaunch k f).dirty = s.dirty := rfl
@[simp] theorem State.updLaunch_lines (s : State) (k : Nat) (f : Launch → Launch) : (s.updLaunch k f).lines = s.lines := rfl
@[simp] theorem State.updLaunch_mts (s : State) (k : Nat) (f : Launch → Launch) : (s.updLaunch k f).mts = s.mts := rfl
@[simp] theorem State.updLaunch_copies (s : State) (k : Nat) (f : Launch → Launch) : (s.updLaunch k f).copies = s.copies := rfl
@[simp] theorem State.updLaunch_reqs (s : State) (k : Nat) (f : Launch → Launch) : (s.updLaunch k f).reqs = s.reqs := rfl
@[simp] theorem State.updLaunch_cpys (s : State) (k : Nat) (f : Launch → Launch) : (s.updLaunch k f).cpys = s.cpys := rfl
@[simp] theorem State.updLaunch_engs (s : State) (k : Nat) (f : Launch → Launch) : (s.updLaunch k f).engs = s.engs := rfl
@[simp] theorem State.updLaunch_ecmds (s : State) (k : Nat) (f : Launch → Launch) : (s.updLaunch k f).ecmds = s.ecmds := rfl
@[simp] theorem State.updLaunch_status (s : State) (k : Nat) (f : Launch → Launch) : (s.updLaunch k f).status = s.status := rfl
@[simp] theorem State.updLaunch_fences (s : State) (k : Nat) (f : Launch → Launch) : (s.updLaunch k f).fences = s.fences := rfl
@[simp] theorem State.updLaunch_stalls (s : State) (k : Nat) (f : Launch → Launch) : (s.updLaunch k f).stalls = s.stalls := rfl
@[simp] theorem State.updLaunch_lineWaits (s : State) (k : Nat) (f : Launch → Launch) : (s.updLaunch k f).lineWaits = s.lineWaits := rfl
@[simp] theorem State.updLaunch_plists (s : State) (k : Nat) (f : Launch → Launch) : (s.updLaunch k f).plists = s.plists := rfl
@[simp] theorem State.updLaunch_bcmds (s : State) (k : Nat) (f : Launch → Launch) : (s.updLaunch k f).bcmds = s.bcmds := rfl
@[simp] theorem State.updLaunch_banks (s : State) (k : Nat) (f : Launch → Launch) : (s.updLaunch k f).banks = s.banks := rfl
@[simp] theorem State.updLaunch_waves (s : State) (k : Nat) (f : Launch → Launch) : (s.updLaunch k f).waves = s.waves := rfl
@[simp] theorem State.updLaunch_pkts (s : State) (k : Nat) (f : Launch → Launch) : (s.updLaunch k f).pkts = s.pkts := rfl
@[simp] theorem State.updLaunch_recs (s : State) (k : Nat) (f : Launch → Launch) : (s.updLaunch k f).recs = s.recs := rfl
@[simp] theorem State.updLaunch_replies (s : State) (k : Nat) (f : Launch → Launch) : (s.updLaunch k f).replies = s.replies := rfl
@[simp] theorem State.updLaunch_hlogs (s : State) (k : Nat) (f : Launch → Launch) : (s.updLaunch k f).hlogs = s.hlogs := rfl
@[simp] theorem State.updLaunch_harts (s : State) (k : Nat) (f : Launch → Launch) : (s.updLaunch k f).harts = s.harts := rfl
@[simp] theorem State.updLaunch_flash (s : State) (k : Nat) (f : Launch → Launch) : (s.updLaunch k f).flash = s.flash := rfl
@[simp] theorem State.updLaunch_conf (s : State) (k : Nat) (f : Launch → Launch) : (s.updLaunch k f).conf = s.conf := rfl
@[simp] theorem State.updLaunch_booted (s : State) (k : Nat) (f : Launch → Launch) : (s.updLaunch k f).booted = s.booted := rfl
@[simp] theorem State.updLaunch_hostLines (s : State) (k : Nat) (f : Launch → Launch) : (s.updLaunch k f).hostLines = s.hostLines := rfl
@[simp] theorem State.updLaunch_out (s : State) (k : Nat) (f : Launch → Launch) : (s.updLaunch k f).out = s.out := rfl
@[simp] theorem State.updLaunch_turn (s : State) (k : Nat) (f : Launch → Launch) : (s.updLaunch k f).turn = s.turn := rfl
@[simp] theorem State.updLaunch_evs (s : State) (k : Nat) (f : Launch → Launch) : (s.updLaunch k f).evs = s.evs := rfl
@[simp] theorem State.updLaunch_evTurn (s : State) (k : Nat) (f : Launch → Launch) : (s.updLaunch k f).evTurn = s.evTurn := rfl
@[simp] theorem State.updLaunch_evLast (s : State) (k : Nat) (f : Launch → Launch) : (s.updLaunch k f).evLast = s.evLast := rfl
@[simp] theorem State.updLaunch_fresh (s : State) (k : Nat) (f : Launch → Launch) : (s.updLaunch k f).fresh = s.fresh := rfl
@[simp] theorem State.updLaunch_free (s : State) (k : Nat) (f : Launch → Launch) : (s.updLaunch k f).free = s.free := rfl

@[simp] theorem State.updTomb_clk (s : State) (p k : Nat) (f : Tombstone → Tombstone) : (s.updTomb p k f).clk = s.clk := rfl
@[simp] theorem State.updTomb_agenda (s : State) (p k : Nat) (f : Tombstone → Tombstone) : (s.updTomb p k f).agenda = s.agenda := rfl
@[simp] theorem State.updTomb_iss (s : State) (p k : Nat) (f : Tombstone → Tombstone) : (s.updTomb p k f).iss = s.iss := rfl
@[simp] theorem State.updTomb_stowed (s : State) (p k : Nat) (f : Tombstone → Tombstone) : (s.updTomb p k f).stowed = s.stowed := rfl
@[simp] theorem State.updTomb_groups (s : State) (p k : Nat) (f : Tombstone → Tombstone) : (s.updTomb p k f).groups = s.groups := rfl
@[simp] theorem State.updTomb_gangs (s : State) (p k : Nat) (f : Tombstone → Tombstone) : (s.updTomb p k f).gangs = s.gangs := rfl
@[simp] theorem State.updTomb_launches (s : State) (p k : Nat) (f : Tombstone → Tombstone) : (s.updTomb p k f).launches = s.launches := rfl
@[simp] theorem State.updTomb_tombs (s : State) (p k : Nat) (f : Tombstone → Tombstone) : (s.updTomb p k f).tombs = updFirst (fun t => t.part == p && t.imgSlot == k) f s.tombs := rfl
@[simp] theorem State.updTomb_cores (s : State) (p k : Nat) (f : Tombstone → Tombstone) : (s.updTomb p k f).cores = s.cores := rfl
@[simp] theorem State.updTomb_dies (s : State) (p k : Nat) (f : Tombstone → Tombstone) : (s.updTomb p k f).dies = s.dies := rfl
@[simp] theorem State.updTomb_parts (s : State) (p k : Nat) (f : Tombstone → Tombstone) : (s.updTomb p k f).parts = s.parts := rfl
@[simp] theorem State.updTomb_mem (s : State) (p k : Nat) (f : Tombstone → Tombstone) : (s.updTomb p k f).mem = s.mem := rfl
@[simp] theorem State.updTomb_pois (s : State) (p k : Nat) (f : Tombstone → Tombstone) : (s.updTomb p k f).pois = s.pois := rfl
@[simp] theorem State.updTomb_dirty (s : State) (p k : Nat) (f : Tombstone → Tombstone) : (s.updTomb p k f).dirty = s.dirty := rfl
@[simp] theorem State.updTomb_lines (s : State) (p k : Nat) (f : Tombstone → Tombstone) : (s.updTomb p k f).lines = s.lines := rfl
@[simp] theorem State.updTomb_mts (s : State) (p k : Nat) (f : Tombstone → Tombstone) : (s.updTomb p k f).mts = s.mts := rfl
@[simp] theorem State.updTomb_copies (s : State) (p k : Nat) (f : Tombstone → Tombstone) : (s.updTomb p k f).copies = s.copies := rfl
@[simp] theorem State.updTomb_reqs (s : State) (p k : Nat) (f : Tombstone → Tombstone) : (s.updTomb p k f).reqs = s.reqs := rfl
@[simp] theorem State.updTomb_cpys (s : State) (p k : Nat) (f : Tombstone → Tombstone) : (s.updTomb p k f).cpys = s.cpys := rfl
@[simp] theorem State.updTomb_engs (s : State) (p k : Nat) (f : Tombstone → Tombstone) : (s.updTomb p k f).engs = s.engs := rfl
@[simp] theorem State.updTomb_ecmds (s : State) (p k : Nat) (f : Tombstone → Tombstone) : (s.updTomb p k f).ecmds = s.ecmds := rfl
@[simp] theorem State.updTomb_status (s : State) (p k : Nat) (f : Tombstone → Tombstone) : (s.updTomb p k f).status = s.status := rfl
@[simp] theorem State.updTomb_fences (s : State) (p k : Nat) (f : Tombstone → Tombstone) : (s.updTomb p k f).fences = s.fences := rfl
@[simp] theorem State.updTomb_stalls (s : State) (p k : Nat) (f : Tombstone → Tombstone) : (s.updTomb p k f).stalls = s.stalls := rfl
@[simp] theorem State.updTomb_lineWaits (s : State) (p k : Nat) (f : Tombstone → Tombstone) : (s.updTomb p k f).lineWaits = s.lineWaits := rfl
@[simp] theorem State.updTomb_plists (s : State) (p k : Nat) (f : Tombstone → Tombstone) : (s.updTomb p k f).plists = s.plists := rfl
@[simp] theorem State.updTomb_bcmds (s : State) (p k : Nat) (f : Tombstone → Tombstone) : (s.updTomb p k f).bcmds = s.bcmds := rfl
@[simp] theorem State.updTomb_banks (s : State) (p k : Nat) (f : Tombstone → Tombstone) : (s.updTomb p k f).banks = s.banks := rfl
@[simp] theorem State.updTomb_waves (s : State) (p k : Nat) (f : Tombstone → Tombstone) : (s.updTomb p k f).waves = s.waves := rfl
@[simp] theorem State.updTomb_pkts (s : State) (p k : Nat) (f : Tombstone → Tombstone) : (s.updTomb p k f).pkts = s.pkts := rfl
@[simp] theorem State.updTomb_recs (s : State) (p k : Nat) (f : Tombstone → Tombstone) : (s.updTomb p k f).recs = s.recs := rfl
@[simp] theorem State.updTomb_replies (s : State) (p k : Nat) (f : Tombstone → Tombstone) : (s.updTomb p k f).replies = s.replies := rfl
@[simp] theorem State.updTomb_hlogs (s : State) (p k : Nat) (f : Tombstone → Tombstone) : (s.updTomb p k f).hlogs = s.hlogs := rfl
@[simp] theorem State.updTomb_harts (s : State) (p k : Nat) (f : Tombstone → Tombstone) : (s.updTomb p k f).harts = s.harts := rfl
@[simp] theorem State.updTomb_flash (s : State) (p k : Nat) (f : Tombstone → Tombstone) : (s.updTomb p k f).flash = s.flash := rfl
@[simp] theorem State.updTomb_conf (s : State) (p k : Nat) (f : Tombstone → Tombstone) : (s.updTomb p k f).conf = s.conf := rfl
@[simp] theorem State.updTomb_booted (s : State) (p k : Nat) (f : Tombstone → Tombstone) : (s.updTomb p k f).booted = s.booted := rfl
@[simp] theorem State.updTomb_hostLines (s : State) (p k : Nat) (f : Tombstone → Tombstone) : (s.updTomb p k f).hostLines = s.hostLines := rfl
@[simp] theorem State.updTomb_out (s : State) (p k : Nat) (f : Tombstone → Tombstone) : (s.updTomb p k f).out = s.out := rfl
@[simp] theorem State.updTomb_turn (s : State) (p k : Nat) (f : Tombstone → Tombstone) : (s.updTomb p k f).turn = s.turn := rfl
@[simp] theorem State.updTomb_evs (s : State) (p k : Nat) (f : Tombstone → Tombstone) : (s.updTomb p k f).evs = s.evs := rfl
@[simp] theorem State.updTomb_evTurn (s : State) (p k : Nat) (f : Tombstone → Tombstone) : (s.updTomb p k f).evTurn = s.evTurn := rfl
@[simp] theorem State.updTomb_evLast (s : State) (p k : Nat) (f : Tombstone → Tombstone) : (s.updTomb p k f).evLast = s.evLast := rfl
@[simp] theorem State.updTomb_fresh (s : State) (p k : Nat) (f : Tombstone → Tombstone) : (s.updTomb p k f).fresh = s.fresh := rfl
@[simp] theorem State.updTomb_free (s : State) (p k : Nat) (f : Tombstone → Tombstone) : (s.updTomb p k f).free = s.free := rfl

@[simp] theorem State.send_clk (s : State) (o : Output) : (s.send o).clk = s.clk := rfl
@[simp] theorem State.send_agenda (s : State) (o : Output) : (s.send o).agenda = s.agenda := rfl
@[simp] theorem State.send_iss (s : State) (o : Output) : (s.send o).iss = s.iss := rfl
@[simp] theorem State.send_stowed (s : State) (o : Output) : (s.send o).stowed = s.stowed := rfl
@[simp] theorem State.send_groups (s : State) (o : Output) : (s.send o).groups = s.groups := rfl
@[simp] theorem State.send_gangs (s : State) (o : Output) : (s.send o).gangs = s.gangs := rfl
@[simp] theorem State.send_launches (s : State) (o : Output) : (s.send o).launches = s.launches := rfl
@[simp] theorem State.send_tombs (s : State) (o : Output) : (s.send o).tombs = s.tombs := rfl
@[simp] theorem State.send_cores (s : State) (o : Output) : (s.send o).cores = s.cores := rfl
@[simp] theorem State.send_dies (s : State) (o : Output) : (s.send o).dies = s.dies := rfl
@[simp] theorem State.send_parts (s : State) (o : Output) : (s.send o).parts = s.parts := rfl
@[simp] theorem State.send_mem (s : State) (o : Output) : (s.send o).mem = s.mem := rfl
@[simp] theorem State.send_pois (s : State) (o : Output) : (s.send o).pois = s.pois := rfl
@[simp] theorem State.send_dirty (s : State) (o : Output) : (s.send o).dirty = s.dirty := rfl
@[simp] theorem State.send_lines (s : State) (o : Output) : (s.send o).lines = s.lines := rfl
@[simp] theorem State.send_mts (s : State) (o : Output) : (s.send o).mts = s.mts := rfl
@[simp] theorem State.send_copies (s : State) (o : Output) : (s.send o).copies = s.copies := rfl
@[simp] theorem State.send_reqs (s : State) (o : Output) : (s.send o).reqs = s.reqs := rfl
@[simp] theorem State.send_cpys (s : State) (o : Output) : (s.send o).cpys = s.cpys := rfl
@[simp] theorem State.send_engs (s : State) (o : Output) : (s.send o).engs = s.engs := rfl
@[simp] theorem State.send_ecmds (s : State) (o : Output) : (s.send o).ecmds = s.ecmds := rfl
@[simp] theorem State.send_status (s : State) (o : Output) : (s.send o).status = s.status := rfl
@[simp] theorem State.send_fences (s : State) (o : Output) : (s.send o).fences = s.fences := rfl
@[simp] theorem State.send_stalls (s : State) (o : Output) : (s.send o).stalls = s.stalls := rfl
@[simp] theorem State.send_lineWaits (s : State) (o : Output) : (s.send o).lineWaits = s.lineWaits := rfl
@[simp] theorem State.send_plists (s : State) (o : Output) : (s.send o).plists = s.plists := rfl
@[simp] theorem State.send_bcmds (s : State) (o : Output) : (s.send o).bcmds = s.bcmds := rfl
@[simp] theorem State.send_banks (s : State) (o : Output) : (s.send o).banks = s.banks := rfl
@[simp] theorem State.send_waves (s : State) (o : Output) : (s.send o).waves = s.waves := rfl
@[simp] theorem State.send_pkts (s : State) (o : Output) : (s.send o).pkts = s.pkts := rfl
@[simp] theorem State.send_recs (s : State) (o : Output) : (s.send o).recs = s.recs := rfl
@[simp] theorem State.send_replies (s : State) (o : Output) : (s.send o).replies = s.replies := rfl
@[simp] theorem State.send_hlogs (s : State) (o : Output) : (s.send o).hlogs = s.hlogs := rfl
@[simp] theorem State.send_harts (s : State) (o : Output) : (s.send o).harts = s.harts := rfl
@[simp] theorem State.send_flash (s : State) (o : Output) : (s.send o).flash = s.flash := rfl
@[simp] theorem State.send_conf (s : State) (o : Output) : (s.send o).conf = s.conf := rfl
@[simp] theorem State.send_booted (s : State) (o : Output) : (s.send o).booted = s.booted := rfl
@[simp] theorem State.send_hostLines (s : State) (o : Output) : (s.send o).hostLines = s.hostLines := rfl
@[simp] theorem State.send_out (s : State) (o : Output) : (s.send o).out = o :: s.out := rfl
@[simp] theorem State.send_turn (s : State) (o : Output) : (s.send o).turn = s.turn := rfl
@[simp] theorem State.send_evs (s : State) (o : Output) : (s.send o).evs = s.evs := rfl
@[simp] theorem State.send_evTurn (s : State) (o : Output) : (s.send o).evTurn = s.evTurn := rfl
@[simp] theorem State.send_evLast (s : State) (o : Output) : (s.send o).evLast = s.evLast := rfl
@[simp] theorem State.send_fresh (s : State) (o : Output) : (s.send o).fresh = s.fresh := rfl
@[simp] theorem State.send_free (s : State) (o : Output) : (s.send o).free = s.free := rfl

@[simp] theorem State.setScratch_clk (s : State) (k c : Nat) (m : Memory) : (s.setScratch k c m).clk = s.clk := rfl
@[simp] theorem State.setScratch_agenda (s : State) (k c : Nat) (m : Memory) : (s.setScratch k c m).agenda = s.agenda := rfl
@[simp] theorem State.setScratch_iss (s : State) (k c : Nat) (m : Memory) : (s.setScratch k c m).iss = s.iss := rfl
@[simp] theorem State.setScratch_stowed (s : State) (k c : Nat) (m : Memory) : (s.setScratch k c m).stowed = s.stowed := rfl
@[simp] theorem State.setScratch_groups (s : State) (k c : Nat) (m : Memory) : (s.setScratch k c m).groups = s.groups := rfl
@[simp] theorem State.setScratch_gangs (s : State) (k c : Nat) (m : Memory) : (s.setScratch k c m).gangs = updFirst (fun g => g.id == k) (fun g => { g with scratch := tset g.scratch c m }) s.gangs := rfl
@[simp] theorem State.setScratch_launches (s : State) (k c : Nat) (m : Memory) : (s.setScratch k c m).launches = s.launches := rfl
@[simp] theorem State.setScratch_tombs (s : State) (k c : Nat) (m : Memory) : (s.setScratch k c m).tombs = s.tombs := rfl
@[simp] theorem State.setScratch_cores (s : State) (k c : Nat) (m : Memory) : (s.setScratch k c m).cores = s.cores := rfl
@[simp] theorem State.setScratch_dies (s : State) (k c : Nat) (m : Memory) : (s.setScratch k c m).dies = s.dies := rfl
@[simp] theorem State.setScratch_parts (s : State) (k c : Nat) (m : Memory) : (s.setScratch k c m).parts = s.parts := rfl
@[simp] theorem State.setScratch_mem (s : State) (k c : Nat) (m : Memory) : (s.setScratch k c m).mem = s.mem := rfl
@[simp] theorem State.setScratch_pois (s : State) (k c : Nat) (m : Memory) : (s.setScratch k c m).pois = s.pois := rfl
@[simp] theorem State.setScratch_dirty (s : State) (k c : Nat) (m : Memory) : (s.setScratch k c m).dirty = s.dirty := rfl
@[simp] theorem State.setScratch_lines (s : State) (k c : Nat) (m : Memory) : (s.setScratch k c m).lines = s.lines := rfl
@[simp] theorem State.setScratch_mts (s : State) (k c : Nat) (m : Memory) : (s.setScratch k c m).mts = s.mts := rfl
@[simp] theorem State.setScratch_copies (s : State) (k c : Nat) (m : Memory) : (s.setScratch k c m).copies = s.copies := rfl
@[simp] theorem State.setScratch_reqs (s : State) (k c : Nat) (m : Memory) : (s.setScratch k c m).reqs = s.reqs := rfl
@[simp] theorem State.setScratch_cpys (s : State) (k c : Nat) (m : Memory) : (s.setScratch k c m).cpys = s.cpys := rfl
@[simp] theorem State.setScratch_engs (s : State) (k c : Nat) (m : Memory) : (s.setScratch k c m).engs = s.engs := rfl
@[simp] theorem State.setScratch_ecmds (s : State) (k c : Nat) (m : Memory) : (s.setScratch k c m).ecmds = s.ecmds := rfl
@[simp] theorem State.setScratch_status (s : State) (k c : Nat) (m : Memory) : (s.setScratch k c m).status = s.status := rfl
@[simp] theorem State.setScratch_fences (s : State) (k c : Nat) (m : Memory) : (s.setScratch k c m).fences = s.fences := rfl
@[simp] theorem State.setScratch_stalls (s : State) (k c : Nat) (m : Memory) : (s.setScratch k c m).stalls = s.stalls := rfl
@[simp] theorem State.setScratch_lineWaits (s : State) (k c : Nat) (m : Memory) : (s.setScratch k c m).lineWaits = s.lineWaits := rfl
@[simp] theorem State.setScratch_plists (s : State) (k c : Nat) (m : Memory) : (s.setScratch k c m).plists = s.plists := rfl
@[simp] theorem State.setScratch_bcmds (s : State) (k c : Nat) (m : Memory) : (s.setScratch k c m).bcmds = s.bcmds := rfl
@[simp] theorem State.setScratch_banks (s : State) (k c : Nat) (m : Memory) : (s.setScratch k c m).banks = s.banks := rfl
@[simp] theorem State.setScratch_waves (s : State) (k c : Nat) (m : Memory) : (s.setScratch k c m).waves = s.waves := rfl
@[simp] theorem State.setScratch_pkts (s : State) (k c : Nat) (m : Memory) : (s.setScratch k c m).pkts = s.pkts := rfl
@[simp] theorem State.setScratch_recs (s : State) (k c : Nat) (m : Memory) : (s.setScratch k c m).recs = s.recs := rfl
@[simp] theorem State.setScratch_replies (s : State) (k c : Nat) (m : Memory) : (s.setScratch k c m).replies = s.replies := rfl
@[simp] theorem State.setScratch_hlogs (s : State) (k c : Nat) (m : Memory) : (s.setScratch k c m).hlogs = s.hlogs := rfl
@[simp] theorem State.setScratch_harts (s : State) (k c : Nat) (m : Memory) : (s.setScratch k c m).harts = s.harts := rfl
@[simp] theorem State.setScratch_flash (s : State) (k c : Nat) (m : Memory) : (s.setScratch k c m).flash = s.flash := rfl
@[simp] theorem State.setScratch_conf (s : State) (k c : Nat) (m : Memory) : (s.setScratch k c m).conf = s.conf := rfl
@[simp] theorem State.setScratch_booted (s : State) (k c : Nat) (m : Memory) : (s.setScratch k c m).booted = s.booted := rfl
@[simp] theorem State.setScratch_hostLines (s : State) (k c : Nat) (m : Memory) : (s.setScratch k c m).hostLines = s.hostLines := rfl
@[simp] theorem State.setScratch_out (s : State) (k c : Nat) (m : Memory) : (s.setScratch k c m).out = s.out := rfl
@[simp] theorem State.setScratch_turn (s : State) (k c : Nat) (m : Memory) : (s.setScratch k c m).turn = s.turn := rfl
@[simp] theorem State.setScratch_evs (s : State) (k c : Nat) (m : Memory) : (s.setScratch k c m).evs = s.evs := rfl
@[simp] theorem State.setScratch_evTurn (s : State) (k c : Nat) (m : Memory) : (s.setScratch k c m).evTurn = s.evTurn := rfl
@[simp] theorem State.setScratch_evLast (s : State) (k c : Nat) (m : Memory) : (s.setScratch k c m).evLast = s.evLast := rfl
@[simp] theorem State.setScratch_fresh (s : State) (k c : Nat) (m : Memory) : (s.setScratch k c m).fresh = s.fresh := rfl
@[simp] theorem State.setScratch_free (s : State) (k c : Nat) (m : Memory) : (s.setScratch k c m).free = s.free := rfl

@[simp] theorem State.noteDirty_clk (s : State) (pa n p : Nat) : (s.noteDirty pa n p).clk = s.clk := rfl
@[simp] theorem State.noteDirty_agenda (s : State) (pa n p : Nat) : (s.noteDirty pa n p).agenda = s.agenda := rfl
@[simp] theorem State.noteDirty_iss (s : State) (pa n p : Nat) : (s.noteDirty pa n p).iss = s.iss := rfl
@[simp] theorem State.noteDirty_stowed (s : State) (pa n p : Nat) : (s.noteDirty pa n p).stowed = s.stowed := rfl
@[simp] theorem State.noteDirty_groups (s : State) (pa n p : Nat) : (s.noteDirty pa n p).groups = s.groups := rfl
@[simp] theorem State.noteDirty_gangs (s : State) (pa n p : Nat) : (s.noteDirty pa n p).gangs = s.gangs := rfl
@[simp] theorem State.noteDirty_launches (s : State) (pa n p : Nat) : (s.noteDirty pa n p).launches = s.launches := rfl
@[simp] theorem State.noteDirty_tombs (s : State) (pa n p : Nat) : (s.noteDirty pa n p).tombs = s.tombs := rfl
@[simp] theorem State.noteDirty_cores (s : State) (pa n p : Nat) : (s.noteDirty pa n p).cores = s.cores := rfl
@[simp] theorem State.noteDirty_dies (s : State) (pa n p : Nat) : (s.noteDirty pa n p).dies = s.dies := rfl
@[simp] theorem State.noteDirty_parts (s : State) (pa n p : Nat) : (s.noteDirty pa n p).parts = s.parts := rfl
@[simp] theorem State.noteDirty_mem (s : State) (pa n p : Nat) : (s.noteDirty pa n p).mem = s.mem := rfl
@[simp] theorem State.noteDirty_pois (s : State) (pa n p : Nat) : (s.noteDirty pa n p).pois = s.pois := rfl
@[simp] theorem State.noteDirty_lines (s : State) (pa n p : Nat) : (s.noteDirty pa n p).lines = s.lines := rfl
@[simp] theorem State.noteDirty_mts (s : State) (pa n p : Nat) : (s.noteDirty pa n p).mts = s.mts := rfl
@[simp] theorem State.noteDirty_copies (s : State) (pa n p : Nat) : (s.noteDirty pa n p).copies = s.copies := rfl
@[simp] theorem State.noteDirty_reqs (s : State) (pa n p : Nat) : (s.noteDirty pa n p).reqs = s.reqs := rfl
@[simp] theorem State.noteDirty_cpys (s : State) (pa n p : Nat) : (s.noteDirty pa n p).cpys = s.cpys := rfl
@[simp] theorem State.noteDirty_engs (s : State) (pa n p : Nat) : (s.noteDirty pa n p).engs = s.engs := rfl
@[simp] theorem State.noteDirty_ecmds (s : State) (pa n p : Nat) : (s.noteDirty pa n p).ecmds = s.ecmds := rfl
@[simp] theorem State.noteDirty_status (s : State) (pa n p : Nat) : (s.noteDirty pa n p).status = s.status := rfl
@[simp] theorem State.noteDirty_fences (s : State) (pa n p : Nat) : (s.noteDirty pa n p).fences = s.fences := rfl
@[simp] theorem State.noteDirty_stalls (s : State) (pa n p : Nat) : (s.noteDirty pa n p).stalls = s.stalls := rfl
@[simp] theorem State.noteDirty_lineWaits (s : State) (pa n p : Nat) : (s.noteDirty pa n p).lineWaits = s.lineWaits := rfl
@[simp] theorem State.noteDirty_plists (s : State) (pa n p : Nat) : (s.noteDirty pa n p).plists = s.plists := rfl
@[simp] theorem State.noteDirty_bcmds (s : State) (pa n p : Nat) : (s.noteDirty pa n p).bcmds = s.bcmds := rfl
@[simp] theorem State.noteDirty_banks (s : State) (pa n p : Nat) : (s.noteDirty pa n p).banks = s.banks := rfl
@[simp] theorem State.noteDirty_waves (s : State) (pa n p : Nat) : (s.noteDirty pa n p).waves = s.waves := rfl
@[simp] theorem State.noteDirty_pkts (s : State) (pa n p : Nat) : (s.noteDirty pa n p).pkts = s.pkts := rfl
@[simp] theorem State.noteDirty_recs (s : State) (pa n p : Nat) : (s.noteDirty pa n p).recs = s.recs := rfl
@[simp] theorem State.noteDirty_replies (s : State) (pa n p : Nat) : (s.noteDirty pa n p).replies = s.replies := rfl
@[simp] theorem State.noteDirty_hlogs (s : State) (pa n p : Nat) : (s.noteDirty pa n p).hlogs = s.hlogs := rfl
@[simp] theorem State.noteDirty_harts (s : State) (pa n p : Nat) : (s.noteDirty pa n p).harts = s.harts := rfl
@[simp] theorem State.noteDirty_flash (s : State) (pa n p : Nat) : (s.noteDirty pa n p).flash = s.flash := rfl
@[simp] theorem State.noteDirty_conf (s : State) (pa n p : Nat) : (s.noteDirty pa n p).conf = s.conf := rfl
@[simp] theorem State.noteDirty_booted (s : State) (pa n p : Nat) : (s.noteDirty pa n p).booted = s.booted := rfl
@[simp] theorem State.noteDirty_hostLines (s : State) (pa n p : Nat) : (s.noteDirty pa n p).hostLines = s.hostLines := rfl
@[simp] theorem State.noteDirty_out (s : State) (pa n p : Nat) : (s.noteDirty pa n p).out = s.out := rfl
@[simp] theorem State.noteDirty_turn (s : State) (pa n p : Nat) : (s.noteDirty pa n p).turn = s.turn := rfl
@[simp] theorem State.noteDirty_evs (s : State) (pa n p : Nat) : (s.noteDirty pa n p).evs = s.evs := rfl
@[simp] theorem State.noteDirty_evTurn (s : State) (pa n p : Nat) : (s.noteDirty pa n p).evTurn = s.evTurn := rfl
@[simp] theorem State.noteDirty_evLast (s : State) (pa n p : Nat) : (s.noteDirty pa n p).evLast = s.evLast := rfl
@[simp] theorem State.noteDirty_fresh (s : State) (pa n p : Nat) : (s.noteDirty pa n p).fresh = s.fresh := rfl
@[simp] theorem State.noteDirty_free (s : State) (pa n p : Nat) : (s.noteDirty pa n p).free = s.free := rfl

@[simp] theorem State.ackSide_clk (s : State) (p k : Nat) (o : BitVec 8) (n : Nat) : (s.ackSide p k o n).clk = s.clk := rfl
@[simp] theorem State.ackSide_agenda (s : State) (p k : Nat) (o : BitVec 8) (n : Nat) : (s.ackSide p k o n).agenda = s.agenda := rfl
@[simp] theorem State.ackSide_iss (s : State) (p k : Nat) (o : BitVec 8) (n : Nat) : (s.ackSide p k o n).iss = s.iss := rfl
@[simp] theorem State.ackSide_stowed (s : State) (p k : Nat) (o : BitVec 8) (n : Nat) : (s.ackSide p k o n).stowed = s.stowed := rfl
@[simp] theorem State.ackSide_groups (s : State) (p k : Nat) (o : BitVec 8) (n : Nat) : (s.ackSide p k o n).groups = s.groups := rfl
@[simp] theorem State.ackSide_gangs (s : State) (p k : Nat) (o : BitVec 8) (n : Nat) : (s.ackSide p k o n).gangs = s.gangs := rfl
@[simp] theorem State.ackSide_launches (s : State) (p k : Nat) (o : BitVec 8) (n : Nat) : (s.ackSide p k o n).launches = s.launches := rfl
@[simp] theorem State.ackSide_cores (s : State) (p k : Nat) (o : BitVec 8) (n : Nat) : (s.ackSide p k o n).cores = s.cores := rfl
@[simp] theorem State.ackSide_dies (s : State) (p k : Nat) (o : BitVec 8) (n : Nat) : (s.ackSide p k o n).dies = s.dies := rfl
@[simp] theorem State.ackSide_parts (s : State) (p k : Nat) (o : BitVec 8) (n : Nat) : (s.ackSide p k o n).parts = s.parts := rfl
@[simp] theorem State.ackSide_mem (s : State) (p k : Nat) (o : BitVec 8) (n : Nat) : (s.ackSide p k o n).mem = s.mem := rfl
@[simp] theorem State.ackSide_pois (s : State) (p k : Nat) (o : BitVec 8) (n : Nat) : (s.ackSide p k o n).pois = s.pois := rfl
@[simp] theorem State.ackSide_dirty (s : State) (p k : Nat) (o : BitVec 8) (n : Nat) : (s.ackSide p k o n).dirty = s.dirty := rfl
@[simp] theorem State.ackSide_lines (s : State) (p k : Nat) (o : BitVec 8) (n : Nat) : (s.ackSide p k o n).lines = s.lines := rfl
@[simp] theorem State.ackSide_mts (s : State) (p k : Nat) (o : BitVec 8) (n : Nat) : (s.ackSide p k o n).mts = s.mts := rfl
@[simp] theorem State.ackSide_copies (s : State) (p k : Nat) (o : BitVec 8) (n : Nat) : (s.ackSide p k o n).copies = s.copies := rfl
@[simp] theorem State.ackSide_reqs (s : State) (p k : Nat) (o : BitVec 8) (n : Nat) : (s.ackSide p k o n).reqs = s.reqs := rfl
@[simp] theorem State.ackSide_cpys (s : State) (p k : Nat) (o : BitVec 8) (n : Nat) : (s.ackSide p k o n).cpys = s.cpys := rfl
@[simp] theorem State.ackSide_engs (s : State) (p k : Nat) (o : BitVec 8) (n : Nat) : (s.ackSide p k o n).engs = s.engs := rfl
@[simp] theorem State.ackSide_ecmds (s : State) (p k : Nat) (o : BitVec 8) (n : Nat) : (s.ackSide p k o n).ecmds = s.ecmds := rfl
@[simp] theorem State.ackSide_status (s : State) (p k : Nat) (o : BitVec 8) (n : Nat) : (s.ackSide p k o n).status = s.status := rfl
@[simp] theorem State.ackSide_fences (s : State) (p k : Nat) (o : BitVec 8) (n : Nat) : (s.ackSide p k o n).fences = s.fences := rfl
@[simp] theorem State.ackSide_stalls (s : State) (p k : Nat) (o : BitVec 8) (n : Nat) : (s.ackSide p k o n).stalls = s.stalls := rfl
@[simp] theorem State.ackSide_lineWaits (s : State) (p k : Nat) (o : BitVec 8) (n : Nat) : (s.ackSide p k o n).lineWaits = s.lineWaits := rfl
@[simp] theorem State.ackSide_plists (s : State) (p k : Nat) (o : BitVec 8) (n : Nat) : (s.ackSide p k o n).plists = s.plists := rfl
@[simp] theorem State.ackSide_bcmds (s : State) (p k : Nat) (o : BitVec 8) (n : Nat) : (s.ackSide p k o n).bcmds = s.bcmds := rfl
@[simp] theorem State.ackSide_banks (s : State) (p k : Nat) (o : BitVec 8) (n : Nat) : (s.ackSide p k o n).banks = s.banks := rfl
@[simp] theorem State.ackSide_waves (s : State) (p k : Nat) (o : BitVec 8) (n : Nat) : (s.ackSide p k o n).waves = s.waves := rfl
@[simp] theorem State.ackSide_pkts (s : State) (p k : Nat) (o : BitVec 8) (n : Nat) : (s.ackSide p k o n).pkts = s.pkts := rfl
@[simp] theorem State.ackSide_recs (s : State) (p k : Nat) (o : BitVec 8) (n : Nat) : (s.ackSide p k o n).recs = s.recs := rfl
@[simp] theorem State.ackSide_replies (s : State) (p k : Nat) (o : BitVec 8) (n : Nat) : (s.ackSide p k o n).replies = s.replies := rfl
@[simp] theorem State.ackSide_hlogs (s : State) (p k : Nat) (o : BitVec 8) (n : Nat) : (s.ackSide p k o n).hlogs = s.hlogs := rfl
@[simp] theorem State.ackSide_harts (s : State) (p k : Nat) (o : BitVec 8) (n : Nat) : (s.ackSide p k o n).harts = s.harts := rfl
@[simp] theorem State.ackSide_flash (s : State) (p k : Nat) (o : BitVec 8) (n : Nat) : (s.ackSide p k o n).flash = s.flash := rfl
@[simp] theorem State.ackSide_conf (s : State) (p k : Nat) (o : BitVec 8) (n : Nat) : (s.ackSide p k o n).conf = s.conf := rfl
@[simp] theorem State.ackSide_booted (s : State) (p k : Nat) (o : BitVec 8) (n : Nat) : (s.ackSide p k o n).booted = s.booted := rfl
@[simp] theorem State.ackSide_hostLines (s : State) (p k : Nat) (o : BitVec 8) (n : Nat) : (s.ackSide p k o n).hostLines = s.hostLines := rfl
@[simp] theorem State.ackSide_out (s : State) (p k : Nat) (o : BitVec 8) (n : Nat) : (s.ackSide p k o n).out = s.out := rfl
@[simp] theorem State.ackSide_turn (s : State) (p k : Nat) (o : BitVec 8) (n : Nat) : (s.ackSide p k o n).turn = s.turn := rfl
@[simp] theorem State.ackSide_evs (s : State) (p k : Nat) (o : BitVec 8) (n : Nat) : (s.ackSide p k o n).evs = s.evs := rfl
@[simp] theorem State.ackSide_evTurn (s : State) (p k : Nat) (o : BitVec 8) (n : Nat) : (s.ackSide p k o n).evTurn = s.evTurn := rfl
@[simp] theorem State.ackSide_evLast (s : State) (p k : Nat) (o : BitVec 8) (n : Nat) : (s.ackSide p k o n).evLast = s.evLast := rfl
@[simp] theorem State.ackSide_fresh (s : State) (p k : Nat) (o : BitVec 8) (n : Nat) : (s.ackSide p k o n).fresh = s.fresh := rfl
@[simp] theorem State.ackSide_free (s : State) (p k : Nat) (o : BitVec 8) (n : Nat) : (s.ackSide p k o n).free = s.free := rfl

@[simp] theorem State.addSide_clk (s : State) (p k : Nat) (o : BitVec 8) (pc : Word) (n : Nat) : (s.addSide p k o pc n).clk = s.clk := rfl
@[simp] theorem State.addSide_agenda (s : State) (p k : Nat) (o : BitVec 8) (pc : Word) (n : Nat) : (s.addSide p k o pc n).agenda = s.agenda := rfl
@[simp] theorem State.addSide_iss (s : State) (p k : Nat) (o : BitVec 8) (pc : Word) (n : Nat) : (s.addSide p k o pc n).iss = s.iss := rfl
@[simp] theorem State.addSide_stowed (s : State) (p k : Nat) (o : BitVec 8) (pc : Word) (n : Nat) : (s.addSide p k o pc n).stowed = s.stowed := rfl
@[simp] theorem State.addSide_groups (s : State) (p k : Nat) (o : BitVec 8) (pc : Word) (n : Nat) : (s.addSide p k o pc n).groups = s.groups := rfl
@[simp] theorem State.addSide_gangs (s : State) (p k : Nat) (o : BitVec 8) (pc : Word) (n : Nat) : (s.addSide p k o pc n).gangs = s.gangs := rfl
@[simp] theorem State.addSide_launches (s : State) (p k : Nat) (o : BitVec 8) (pc : Word) (n : Nat) : (s.addSide p k o pc n).launches = s.launches := rfl
@[simp] theorem State.addSide_cores (s : State) (p k : Nat) (o : BitVec 8) (pc : Word) (n : Nat) : (s.addSide p k o pc n).cores = s.cores := rfl
@[simp] theorem State.addSide_dies (s : State) (p k : Nat) (o : BitVec 8) (pc : Word) (n : Nat) : (s.addSide p k o pc n).dies = s.dies := rfl
@[simp] theorem State.addSide_parts (s : State) (p k : Nat) (o : BitVec 8) (pc : Word) (n : Nat) : (s.addSide p k o pc n).parts = s.parts := rfl
@[simp] theorem State.addSide_mem (s : State) (p k : Nat) (o : BitVec 8) (pc : Word) (n : Nat) : (s.addSide p k o pc n).mem = s.mem := rfl
@[simp] theorem State.addSide_pois (s : State) (p k : Nat) (o : BitVec 8) (pc : Word) (n : Nat) : (s.addSide p k o pc n).pois = s.pois := rfl
@[simp] theorem State.addSide_dirty (s : State) (p k : Nat) (o : BitVec 8) (pc : Word) (n : Nat) : (s.addSide p k o pc n).dirty = s.dirty := rfl
@[simp] theorem State.addSide_lines (s : State) (p k : Nat) (o : BitVec 8) (pc : Word) (n : Nat) : (s.addSide p k o pc n).lines = s.lines := rfl
@[simp] theorem State.addSide_mts (s : State) (p k : Nat) (o : BitVec 8) (pc : Word) (n : Nat) : (s.addSide p k o pc n).mts = s.mts := rfl
@[simp] theorem State.addSide_copies (s : State) (p k : Nat) (o : BitVec 8) (pc : Word) (n : Nat) : (s.addSide p k o pc n).copies = s.copies := rfl
@[simp] theorem State.addSide_reqs (s : State) (p k : Nat) (o : BitVec 8) (pc : Word) (n : Nat) : (s.addSide p k o pc n).reqs = s.reqs := rfl
@[simp] theorem State.addSide_cpys (s : State) (p k : Nat) (o : BitVec 8) (pc : Word) (n : Nat) : (s.addSide p k o pc n).cpys = s.cpys := rfl
@[simp] theorem State.addSide_engs (s : State) (p k : Nat) (o : BitVec 8) (pc : Word) (n : Nat) : (s.addSide p k o pc n).engs = s.engs := rfl
@[simp] theorem State.addSide_ecmds (s : State) (p k : Nat) (o : BitVec 8) (pc : Word) (n : Nat) : (s.addSide p k o pc n).ecmds = s.ecmds := rfl
@[simp] theorem State.addSide_status (s : State) (p k : Nat) (o : BitVec 8) (pc : Word) (n : Nat) : (s.addSide p k o pc n).status = s.status := rfl
@[simp] theorem State.addSide_fences (s : State) (p k : Nat) (o : BitVec 8) (pc : Word) (n : Nat) : (s.addSide p k o pc n).fences = s.fences := rfl
@[simp] theorem State.addSide_stalls (s : State) (p k : Nat) (o : BitVec 8) (pc : Word) (n : Nat) : (s.addSide p k o pc n).stalls = s.stalls := rfl
@[simp] theorem State.addSide_lineWaits (s : State) (p k : Nat) (o : BitVec 8) (pc : Word) (n : Nat) : (s.addSide p k o pc n).lineWaits = s.lineWaits := rfl
@[simp] theorem State.addSide_plists (s : State) (p k : Nat) (o : BitVec 8) (pc : Word) (n : Nat) : (s.addSide p k o pc n).plists = s.plists := rfl
@[simp] theorem State.addSide_bcmds (s : State) (p k : Nat) (o : BitVec 8) (pc : Word) (n : Nat) : (s.addSide p k o pc n).bcmds = s.bcmds := rfl
@[simp] theorem State.addSide_banks (s : State) (p k : Nat) (o : BitVec 8) (pc : Word) (n : Nat) : (s.addSide p k o pc n).banks = s.banks := rfl
@[simp] theorem State.addSide_waves (s : State) (p k : Nat) (o : BitVec 8) (pc : Word) (n : Nat) : (s.addSide p k o pc n).waves = s.waves := rfl
@[simp] theorem State.addSide_pkts (s : State) (p k : Nat) (o : BitVec 8) (pc : Word) (n : Nat) : (s.addSide p k o pc n).pkts = s.pkts := rfl
@[simp] theorem State.addSide_recs (s : State) (p k : Nat) (o : BitVec 8) (pc : Word) (n : Nat) : (s.addSide p k o pc n).recs = s.recs := rfl
@[simp] theorem State.addSide_replies (s : State) (p k : Nat) (o : BitVec 8) (pc : Word) (n : Nat) : (s.addSide p k o pc n).replies = s.replies := rfl
@[simp] theorem State.addSide_hlogs (s : State) (p k : Nat) (o : BitVec 8) (pc : Word) (n : Nat) : (s.addSide p k o pc n).hlogs = s.hlogs := rfl
@[simp] theorem State.addSide_harts (s : State) (p k : Nat) (o : BitVec 8) (pc : Word) (n : Nat) : (s.addSide p k o pc n).harts = s.harts := rfl
@[simp] theorem State.addSide_flash (s : State) (p k : Nat) (o : BitVec 8) (pc : Word) (n : Nat) : (s.addSide p k o pc n).flash = s.flash := rfl
@[simp] theorem State.addSide_conf (s : State) (p k : Nat) (o : BitVec 8) (pc : Word) (n : Nat) : (s.addSide p k o pc n).conf = s.conf := rfl
@[simp] theorem State.addSide_booted (s : State) (p k : Nat) (o : BitVec 8) (pc : Word) (n : Nat) : (s.addSide p k o pc n).booted = s.booted := rfl
@[simp] theorem State.addSide_hostLines (s : State) (p k : Nat) (o : BitVec 8) (pc : Word) (n : Nat) : (s.addSide p k o pc n).hostLines = s.hostLines := rfl
@[simp] theorem State.addSide_out (s : State) (p k : Nat) (o : BitVec 8) (pc : Word) (n : Nat) : (s.addSide p k o pc n).out = s.out := rfl
@[simp] theorem State.addSide_turn (s : State) (p k : Nat) (o : BitVec 8) (pc : Word) (n : Nat) : (s.addSide p k o pc n).turn = s.turn := rfl
@[simp] theorem State.addSide_evs (s : State) (p k : Nat) (o : BitVec 8) (pc : Word) (n : Nat) : (s.addSide p k o pc n).evs = s.evs := rfl
@[simp] theorem State.addSide_evTurn (s : State) (p k : Nat) (o : BitVec 8) (pc : Word) (n : Nat) : (s.addSide p k o pc n).evTurn = s.evTurn := rfl
@[simp] theorem State.addSide_evLast (s : State) (p k : Nat) (o : BitVec 8) (pc : Word) (n : Nat) : (s.addSide p k o pc n).evLast = s.evLast := rfl
@[simp] theorem State.addSide_fresh (s : State) (p k : Nat) (o : BitVec 8) (pc : Word) (n : Nat) : (s.addSide p k o pc n).fresh = s.fresh := rfl
@[simp] theorem State.addSide_free (s : State) (p k : Nat) (o : BitVec 8) (pc : Word) (n : Nat) : (s.addSide p k o pc n).free = s.free := rfl

@[simp] theorem State.evictLine_clk (s : State) (line : Nat) : (s.evictLine line).clk = s.clk := by simp only [State.evictLine]; split <;> rfl
@[simp] theorem State.evictLine_agenda (s : State) (line : Nat) : (s.evictLine line).agenda = s.agenda := by simp only [State.evictLine]; split <;> rfl
@[simp] theorem State.evictLine_iss (s : State) (line : Nat) : (s.evictLine line).iss = s.iss := by simp only [State.evictLine]; split <;> rfl
@[simp] theorem State.evictLine_stowed (s : State) (line : Nat) : (s.evictLine line).stowed = s.stowed := by simp only [State.evictLine]; split <;> rfl
@[simp] theorem State.evictLine_groups (s : State) (line : Nat) : (s.evictLine line).groups = s.groups := by simp only [State.evictLine]; split <;> rfl
@[simp] theorem State.evictLine_gangs (s : State) (line : Nat) : (s.evictLine line).gangs = s.gangs := by simp only [State.evictLine]; split <;> rfl
@[simp] theorem State.evictLine_launches (s : State) (line : Nat) : (s.evictLine line).launches = s.launches := by simp only [State.evictLine]; split <;> rfl
@[simp] theorem State.evictLine_tombs (s : State) (line : Nat) : (s.evictLine line).tombs = s.tombs := by simp only [State.evictLine]; split <;> rfl
@[simp] theorem State.evictLine_cores (s : State) (line : Nat) : (s.evictLine line).cores = s.cores := by simp only [State.evictLine]; split <;> rfl
@[simp] theorem State.evictLine_dies (s : State) (line : Nat) : (s.evictLine line).dies = s.dies := by simp only [State.evictLine]; split <;> rfl
@[simp] theorem State.evictLine_parts (s : State) (line : Nat) : (s.evictLine line).parts = s.parts := by simp only [State.evictLine]; split <;> rfl
@[simp] theorem State.evictLine_mem (s : State) (line : Nat) : (s.evictLine line).mem = s.mem := by simp only [State.evictLine]; split <;> rfl
@[simp] theorem State.evictLine_pois (s : State) (line : Nat) : (s.evictLine line).pois = s.pois := by simp only [State.evictLine]; split <;> rfl
@[simp] theorem State.evictLine_copies (s : State) (line : Nat) : (s.evictLine line).copies = s.copies := by simp only [State.evictLine]; split <;> rfl
@[simp] theorem State.evictLine_reqs (s : State) (line : Nat) : (s.evictLine line).reqs = s.reqs := by simp only [State.evictLine]; split <;> rfl
@[simp] theorem State.evictLine_cpys (s : State) (line : Nat) : (s.evictLine line).cpys = s.cpys := by simp only [State.evictLine]; split <;> rfl
@[simp] theorem State.evictLine_engs (s : State) (line : Nat) : (s.evictLine line).engs = s.engs := by simp only [State.evictLine]; split <;> rfl
@[simp] theorem State.evictLine_ecmds (s : State) (line : Nat) : (s.evictLine line).ecmds = s.ecmds := by simp only [State.evictLine]; split <;> rfl
@[simp] theorem State.evictLine_status (s : State) (line : Nat) : (s.evictLine line).status = s.status := by simp only [State.evictLine]; split <;> rfl
@[simp] theorem State.evictLine_fences (s : State) (line : Nat) : (s.evictLine line).fences = s.fences := by simp only [State.evictLine]; split <;> rfl
@[simp] theorem State.evictLine_stalls (s : State) (line : Nat) : (s.evictLine line).stalls = s.stalls := by simp only [State.evictLine]; split <;> rfl
@[simp] theorem State.evictLine_lineWaits (s : State) (line : Nat) : (s.evictLine line).lineWaits = s.lineWaits := by simp only [State.evictLine]; split <;> rfl
@[simp] theorem State.evictLine_plists (s : State) (line : Nat) : (s.evictLine line).plists = s.plists := by simp only [State.evictLine]; split <;> rfl
@[simp] theorem State.evictLine_bcmds (s : State) (line : Nat) : (s.evictLine line).bcmds = s.bcmds := by simp only [State.evictLine]; split <;> rfl
@[simp] theorem State.evictLine_banks (s : State) (line : Nat) : (s.evictLine line).banks = s.banks := by simp only [State.evictLine]; split <;> rfl
@[simp] theorem State.evictLine_waves (s : State) (line : Nat) : (s.evictLine line).waves = s.waves := by simp only [State.evictLine]; split <;> rfl
@[simp] theorem State.evictLine_pkts (s : State) (line : Nat) : (s.evictLine line).pkts = s.pkts := by simp only [State.evictLine]; split <;> rfl
@[simp] theorem State.evictLine_recs (s : State) (line : Nat) : (s.evictLine line).recs = s.recs := by simp only [State.evictLine]; split <;> rfl
@[simp] theorem State.evictLine_replies (s : State) (line : Nat) : (s.evictLine line).replies = s.replies := by simp only [State.evictLine]; split <;> rfl
@[simp] theorem State.evictLine_hlogs (s : State) (line : Nat) : (s.evictLine line).hlogs = s.hlogs := by simp only [State.evictLine]; split <;> rfl
@[simp] theorem State.evictLine_harts (s : State) (line : Nat) : (s.evictLine line).harts = s.harts := by simp only [State.evictLine]; split <;> rfl
@[simp] theorem State.evictLine_flash (s : State) (line : Nat) : (s.evictLine line).flash = s.flash := by simp only [State.evictLine]; split <;> rfl
@[simp] theorem State.evictLine_conf (s : State) (line : Nat) : (s.evictLine line).conf = s.conf := by simp only [State.evictLine]; split <;> rfl
@[simp] theorem State.evictLine_booted (s : State) (line : Nat) : (s.evictLine line).booted = s.booted := by simp only [State.evictLine]; split <;> rfl
@[simp] theorem State.evictLine_hostLines (s : State) (line : Nat) : (s.evictLine line).hostLines = s.hostLines := by simp only [State.evictLine]; split <;> rfl
@[simp] theorem State.evictLine_out (s : State) (line : Nat) : (s.evictLine line).out = s.out := by simp only [State.evictLine]; split <;> rfl
@[simp] theorem State.evictLine_turn (s : State) (line : Nat) : (s.evictLine line).turn = s.turn := by simp only [State.evictLine]; split <;> rfl
@[simp] theorem State.evictLine_evs (s : State) (line : Nat) : (s.evictLine line).evs = s.evs := by simp only [State.evictLine]; split <;> rfl
@[simp] theorem State.evictLine_evTurn (s : State) (line : Nat) : (s.evictLine line).evTurn = s.evTurn := by simp only [State.evictLine]; split <;> rfl
@[simp] theorem State.evictLine_evLast (s : State) (line : Nat) : (s.evictLine line).evLast = s.evLast := by simp only [State.evictLine]; split <;> rfl
@[simp] theorem State.evictLine_fresh (s : State) (line : Nat) : (s.evictLine line).fresh = s.fresh := by simp only [State.evictLine]; split <;> rfl
@[simp] theorem State.evictLine_free (s : State) (line : Nat) : (s.evictLine line).free = s.free := by simp only [State.evictLine]; split <;> rfl

@[simp] theorem State.setLine_clk (s : State) (pa : Nat) (t : LineTimes) : (s.setLine pa t).clk = s.clk := by simp only [State.setLine]; split <;> simp
@[simp] theorem State.setLine_agenda (s : State) (pa : Nat) (t : LineTimes) : (s.setLine pa t).agenda = s.agenda := by simp only [State.setLine]; split <;> simp
@[simp] theorem State.setLine_iss (s : State) (pa : Nat) (t : LineTimes) : (s.setLine pa t).iss = s.iss := by simp only [State.setLine]; split <;> simp
@[simp] theorem State.setLine_stowed (s : State) (pa : Nat) (t : LineTimes) : (s.setLine pa t).stowed = s.stowed := by simp only [State.setLine]; split <;> simp
@[simp] theorem State.setLine_groups (s : State) (pa : Nat) (t : LineTimes) : (s.setLine pa t).groups = s.groups := by simp only [State.setLine]; split <;> simp
@[simp] theorem State.setLine_gangs (s : State) (pa : Nat) (t : LineTimes) : (s.setLine pa t).gangs = s.gangs := by simp only [State.setLine]; split <;> simp
@[simp] theorem State.setLine_launches (s : State) (pa : Nat) (t : LineTimes) : (s.setLine pa t).launches = s.launches := by simp only [State.setLine]; split <;> simp
@[simp] theorem State.setLine_tombs (s : State) (pa : Nat) (t : LineTimes) : (s.setLine pa t).tombs = s.tombs := by simp only [State.setLine]; split <;> simp
@[simp] theorem State.setLine_cores (s : State) (pa : Nat) (t : LineTimes) : (s.setLine pa t).cores = s.cores := by simp only [State.setLine]; split <;> simp
@[simp] theorem State.setLine_dies (s : State) (pa : Nat) (t : LineTimes) : (s.setLine pa t).dies = s.dies := by simp only [State.setLine]; split <;> simp
@[simp] theorem State.setLine_parts (s : State) (pa : Nat) (t : LineTimes) : (s.setLine pa t).parts = s.parts := by simp only [State.setLine]; split <;> simp
@[simp] theorem State.setLine_mem (s : State) (pa : Nat) (t : LineTimes) : (s.setLine pa t).mem = s.mem := by simp only [State.setLine]; split <;> simp
@[simp] theorem State.setLine_pois (s : State) (pa : Nat) (t : LineTimes) : (s.setLine pa t).pois = s.pois := by simp only [State.setLine]; split <;> simp
@[simp] theorem State.setLine_copies (s : State) (pa : Nat) (t : LineTimes) : (s.setLine pa t).copies = s.copies := by simp only [State.setLine]; split <;> simp
@[simp] theorem State.setLine_reqs (s : State) (pa : Nat) (t : LineTimes) : (s.setLine pa t).reqs = s.reqs := by simp only [State.setLine]; split <;> simp
@[simp] theorem State.setLine_cpys (s : State) (pa : Nat) (t : LineTimes) : (s.setLine pa t).cpys = s.cpys := by simp only [State.setLine]; split <;> simp
@[simp] theorem State.setLine_engs (s : State) (pa : Nat) (t : LineTimes) : (s.setLine pa t).engs = s.engs := by simp only [State.setLine]; split <;> simp
@[simp] theorem State.setLine_ecmds (s : State) (pa : Nat) (t : LineTimes) : (s.setLine pa t).ecmds = s.ecmds := by simp only [State.setLine]; split <;> simp
@[simp] theorem State.setLine_status (s : State) (pa : Nat) (t : LineTimes) : (s.setLine pa t).status = s.status := by simp only [State.setLine]; split <;> simp
@[simp] theorem State.setLine_fences (s : State) (pa : Nat) (t : LineTimes) : (s.setLine pa t).fences = s.fences := by simp only [State.setLine]; split <;> simp
@[simp] theorem State.setLine_stalls (s : State) (pa : Nat) (t : LineTimes) : (s.setLine pa t).stalls = s.stalls := by simp only [State.setLine]; split <;> simp
@[simp] theorem State.setLine_lineWaits (s : State) (pa : Nat) (t : LineTimes) : (s.setLine pa t).lineWaits = s.lineWaits := by simp only [State.setLine]; split <;> simp
@[simp] theorem State.setLine_plists (s : State) (pa : Nat) (t : LineTimes) : (s.setLine pa t).plists = s.plists := by simp only [State.setLine]; split <;> simp
@[simp] theorem State.setLine_bcmds (s : State) (pa : Nat) (t : LineTimes) : (s.setLine pa t).bcmds = s.bcmds := by simp only [State.setLine]; split <;> simp
@[simp] theorem State.setLine_banks (s : State) (pa : Nat) (t : LineTimes) : (s.setLine pa t).banks = s.banks := by simp only [State.setLine]; split <;> simp
@[simp] theorem State.setLine_waves (s : State) (pa : Nat) (t : LineTimes) : (s.setLine pa t).waves = s.waves := by simp only [State.setLine]; split <;> simp
@[simp] theorem State.setLine_pkts (s : State) (pa : Nat) (t : LineTimes) : (s.setLine pa t).pkts = s.pkts := by simp only [State.setLine]; split <;> simp
@[simp] theorem State.setLine_recs (s : State) (pa : Nat) (t : LineTimes) : (s.setLine pa t).recs = s.recs := by simp only [State.setLine]; split <;> simp
@[simp] theorem State.setLine_replies (s : State) (pa : Nat) (t : LineTimes) : (s.setLine pa t).replies = s.replies := by simp only [State.setLine]; split <;> simp
@[simp] theorem State.setLine_hlogs (s : State) (pa : Nat) (t : LineTimes) : (s.setLine pa t).hlogs = s.hlogs := by simp only [State.setLine]; split <;> simp
@[simp] theorem State.setLine_harts (s : State) (pa : Nat) (t : LineTimes) : (s.setLine pa t).harts = s.harts := by simp only [State.setLine]; split <;> simp
@[simp] theorem State.setLine_flash (s : State) (pa : Nat) (t : LineTimes) : (s.setLine pa t).flash = s.flash := by simp only [State.setLine]; split <;> simp
@[simp] theorem State.setLine_conf (s : State) (pa : Nat) (t : LineTimes) : (s.setLine pa t).conf = s.conf := by simp only [State.setLine]; split <;> simp
@[simp] theorem State.setLine_booted (s : State) (pa : Nat) (t : LineTimes) : (s.setLine pa t).booted = s.booted := by simp only [State.setLine]; split <;> simp
@[simp] theorem State.setLine_hostLines (s : State) (pa : Nat) (t : LineTimes) : (s.setLine pa t).hostLines = s.hostLines := by simp only [State.setLine]; split <;> simp
@[simp] theorem State.setLine_out (s : State) (pa : Nat) (t : LineTimes) : (s.setLine pa t).out = s.out := by simp only [State.setLine]; split <;> simp
@[simp] theorem State.setLine_turn (s : State) (pa : Nat) (t : LineTimes) : (s.setLine pa t).turn = s.turn := by simp only [State.setLine]; split <;> simp
@[simp] theorem State.setLine_evs (s : State) (pa : Nat) (t : LineTimes) : (s.setLine pa t).evs = s.evs := by simp only [State.setLine]; split <;> simp
@[simp] theorem State.setLine_evTurn (s : State) (pa : Nat) (t : LineTimes) : (s.setLine pa t).evTurn = s.evTurn := by simp only [State.setLine]; split <;> simp
@[simp] theorem State.setLine_evLast (s : State) (pa : Nat) (t : LineTimes) : (s.setLine pa t).evLast = s.evLast := by simp only [State.setLine]; split <;> simp
@[simp] theorem State.setLine_fresh (s : State) (pa : Nat) (t : LineTimes) : (s.setLine pa t).fresh = s.fresh := by simp only [State.setLine]; split <;> simp
@[simp] theorem State.setLine_free (s : State) (pa : Nat) (t : LineTimes) : (s.setLine pa t).free = s.free := by simp only [State.setLine]; split <;> simp

@[simp] theorem State.fireWatches_clk (s : State) (t : Target) (n : Nat) : (s.fireWatches t n).clk = s.clk := rfl
@[simp] theorem State.fireWatches_agenda (s : State) (t : Target) (n : Nat) : (s.fireWatches t n).agenda = s.agenda := rfl
@[simp] theorem State.fireWatches_iss (s : State) (t : Target) (n : Nat) : (s.fireWatches t n).iss = s.iss := rfl
@[simp] theorem State.fireWatches_stowed (s : State) (t : Target) (n : Nat) : (s.fireWatches t n).stowed = s.stowed := rfl
@[simp] theorem State.fireWatches_gangs (s : State) (t : Target) (n : Nat) : (s.fireWatches t n).gangs = s.gangs := rfl
@[simp] theorem State.fireWatches_launches (s : State) (t : Target) (n : Nat) : (s.fireWatches t n).launches = s.launches := rfl
@[simp] theorem State.fireWatches_tombs (s : State) (t : Target) (n : Nat) : (s.fireWatches t n).tombs = s.tombs := rfl
@[simp] theorem State.fireWatches_cores (s : State) (t : Target) (n : Nat) : (s.fireWatches t n).cores = s.cores := rfl
@[simp] theorem State.fireWatches_dies (s : State) (t : Target) (n : Nat) : (s.fireWatches t n).dies = s.dies := rfl
@[simp] theorem State.fireWatches_parts (s : State) (t : Target) (n : Nat) : (s.fireWatches t n).parts = s.parts := rfl
@[simp] theorem State.fireWatches_mem (s : State) (t : Target) (n : Nat) : (s.fireWatches t n).mem = s.mem := rfl
@[simp] theorem State.fireWatches_pois (s : State) (t : Target) (n : Nat) : (s.fireWatches t n).pois = s.pois := rfl
@[simp] theorem State.fireWatches_dirty (s : State) (t : Target) (n : Nat) : (s.fireWatches t n).dirty = s.dirty := rfl
@[simp] theorem State.fireWatches_lines (s : State) (t : Target) (n : Nat) : (s.fireWatches t n).lines = s.lines := rfl
@[simp] theorem State.fireWatches_mts (s : State) (t : Target) (n : Nat) : (s.fireWatches t n).mts = s.mts := rfl
@[simp] theorem State.fireWatches_copies (s : State) (t : Target) (n : Nat) : (s.fireWatches t n).copies = s.copies := rfl
@[simp] theorem State.fireWatches_reqs (s : State) (t : Target) (n : Nat) : (s.fireWatches t n).reqs = s.reqs := rfl
@[simp] theorem State.fireWatches_cpys (s : State) (t : Target) (n : Nat) : (s.fireWatches t n).cpys = s.cpys := rfl
@[simp] theorem State.fireWatches_engs (s : State) (t : Target) (n : Nat) : (s.fireWatches t n).engs = s.engs := rfl
@[simp] theorem State.fireWatches_ecmds (s : State) (t : Target) (n : Nat) : (s.fireWatches t n).ecmds = s.ecmds := rfl
@[simp] theorem State.fireWatches_status (s : State) (t : Target) (n : Nat) : (s.fireWatches t n).status = s.status := rfl
@[simp] theorem State.fireWatches_fences (s : State) (t : Target) (n : Nat) : (s.fireWatches t n).fences = s.fences := rfl
@[simp] theorem State.fireWatches_stalls (s : State) (t : Target) (n : Nat) : (s.fireWatches t n).stalls = s.stalls := rfl
@[simp] theorem State.fireWatches_lineWaits (s : State) (t : Target) (n : Nat) : (s.fireWatches t n).lineWaits = s.lineWaits := rfl
@[simp] theorem State.fireWatches_plists (s : State) (t : Target) (n : Nat) : (s.fireWatches t n).plists = s.plists := rfl
@[simp] theorem State.fireWatches_bcmds (s : State) (t : Target) (n : Nat) : (s.fireWatches t n).bcmds = s.bcmds := rfl
@[simp] theorem State.fireWatches_banks (s : State) (t : Target) (n : Nat) : (s.fireWatches t n).banks = s.banks := rfl
@[simp] theorem State.fireWatches_waves (s : State) (t : Target) (n : Nat) : (s.fireWatches t n).waves = s.waves := rfl
@[simp] theorem State.fireWatches_pkts (s : State) (t : Target) (n : Nat) : (s.fireWatches t n).pkts = s.pkts := rfl
@[simp] theorem State.fireWatches_recs (s : State) (t : Target) (n : Nat) : (s.fireWatches t n).recs = s.recs := rfl
@[simp] theorem State.fireWatches_replies (s : State) (t : Target) (n : Nat) : (s.fireWatches t n).replies = s.replies := rfl
@[simp] theorem State.fireWatches_hlogs (s : State) (t : Target) (n : Nat) : (s.fireWatches t n).hlogs = s.hlogs := rfl
@[simp] theorem State.fireWatches_harts (s : State) (t : Target) (n : Nat) : (s.fireWatches t n).harts = s.harts := rfl
@[simp] theorem State.fireWatches_flash (s : State) (t : Target) (n : Nat) : (s.fireWatches t n).flash = s.flash := rfl
@[simp] theorem State.fireWatches_conf (s : State) (t : Target) (n : Nat) : (s.fireWatches t n).conf = s.conf := rfl
@[simp] theorem State.fireWatches_booted (s : State) (t : Target) (n : Nat) : (s.fireWatches t n).booted = s.booted := rfl
@[simp] theorem State.fireWatches_hostLines (s : State) (t : Target) (n : Nat) : (s.fireWatches t n).hostLines = s.hostLines := rfl
@[simp] theorem State.fireWatches_out (s : State) (t : Target) (n : Nat) : (s.fireWatches t n).out = s.out := rfl
@[simp] theorem State.fireWatches_turn (s : State) (t : Target) (n : Nat) : (s.fireWatches t n).turn = s.turn := rfl
@[simp] theorem State.fireWatches_evs (s : State) (t : Target) (n : Nat) : (s.fireWatches t n).evs = s.evs := rfl
@[simp] theorem State.fireWatches_evTurn (s : State) (t : Target) (n : Nat) : (s.fireWatches t n).evTurn = s.evTurn := rfl
@[simp] theorem State.fireWatches_evLast (s : State) (t : Target) (n : Nat) : (s.fireWatches t n).evLast = s.evLast := rfl
@[simp] theorem State.fireWatches_fresh (s : State) (t : Target) (n : Nat) : (s.fireWatches t n).fresh = s.fresh := rfl
@[simp] theorem State.fireWatches_free (s : State) (t : Target) (n : Nat) : (s.fireWatches t n).free = s.free := rfl

@[simp] theorem State.putCopy_clk (s : State) (c : Copy) : (s.putCopy c).clk = s.clk := rfl
@[simp] theorem State.putCopy_agenda (s : State) (c : Copy) : (s.putCopy c).agenda = s.agenda := rfl
@[simp] theorem State.putCopy_iss (s : State) (c : Copy) : (s.putCopy c).iss = s.iss := rfl
@[simp] theorem State.putCopy_stowed (s : State) (c : Copy) : (s.putCopy c).stowed = s.stowed := rfl
@[simp] theorem State.putCopy_groups (s : State) (c : Copy) : (s.putCopy c).groups = s.groups := rfl
@[simp] theorem State.putCopy_gangs (s : State) (c : Copy) : (s.putCopy c).gangs = s.gangs := rfl
@[simp] theorem State.putCopy_launches (s : State) (c : Copy) : (s.putCopy c).launches = s.launches := rfl
@[simp] theorem State.putCopy_tombs (s : State) (c : Copy) : (s.putCopy c).tombs = s.tombs := rfl
@[simp] theorem State.putCopy_cores (s : State) (c : Copy) : (s.putCopy c).cores = s.cores := rfl
@[simp] theorem State.putCopy_dies (s : State) (c : Copy) : (s.putCopy c).dies = s.dies := rfl
@[simp] theorem State.putCopy_parts (s : State) (c : Copy) : (s.putCopy c).parts = s.parts := rfl
@[simp] theorem State.putCopy_mem (s : State) (c : Copy) : (s.putCopy c).mem = s.mem := rfl
@[simp] theorem State.putCopy_pois (s : State) (c : Copy) : (s.putCopy c).pois = s.pois := rfl
@[simp] theorem State.putCopy_dirty (s : State) (c : Copy) : (s.putCopy c).dirty = s.dirty := rfl
@[simp] theorem State.putCopy_lines (s : State) (c : Copy) : (s.putCopy c).lines = s.lines := rfl
@[simp] theorem State.putCopy_mts (s : State) (c : Copy) : (s.putCopy c).mts = s.mts := rfl
@[simp] theorem State.putCopy_reqs (s : State) (c : Copy) : (s.putCopy c).reqs = s.reqs := rfl
@[simp] theorem State.putCopy_cpys (s : State) (c : Copy) : (s.putCopy c).cpys = s.cpys := rfl
@[simp] theorem State.putCopy_engs (s : State) (c : Copy) : (s.putCopy c).engs = s.engs := rfl
@[simp] theorem State.putCopy_ecmds (s : State) (c : Copy) : (s.putCopy c).ecmds = s.ecmds := rfl
@[simp] theorem State.putCopy_status (s : State) (c : Copy) : (s.putCopy c).status = s.status := rfl
@[simp] theorem State.putCopy_fences (s : State) (c : Copy) : (s.putCopy c).fences = s.fences := rfl
@[simp] theorem State.putCopy_stalls (s : State) (c : Copy) : (s.putCopy c).stalls = s.stalls := rfl
@[simp] theorem State.putCopy_lineWaits (s : State) (c : Copy) : (s.putCopy c).lineWaits = s.lineWaits := rfl
@[simp] theorem State.putCopy_plists (s : State) (c : Copy) : (s.putCopy c).plists = s.plists := rfl
@[simp] theorem State.putCopy_bcmds (s : State) (c : Copy) : (s.putCopy c).bcmds = s.bcmds := rfl
@[simp] theorem State.putCopy_banks (s : State) (c : Copy) : (s.putCopy c).banks = s.banks := rfl
@[simp] theorem State.putCopy_waves (s : State) (c : Copy) : (s.putCopy c).waves = s.waves := rfl
@[simp] theorem State.putCopy_pkts (s : State) (c : Copy) : (s.putCopy c).pkts = s.pkts := rfl
@[simp] theorem State.putCopy_recs (s : State) (c : Copy) : (s.putCopy c).recs = s.recs := rfl
@[simp] theorem State.putCopy_replies (s : State) (c : Copy) : (s.putCopy c).replies = s.replies := rfl
@[simp] theorem State.putCopy_hlogs (s : State) (c : Copy) : (s.putCopy c).hlogs = s.hlogs := rfl
@[simp] theorem State.putCopy_harts (s : State) (c : Copy) : (s.putCopy c).harts = s.harts := rfl
@[simp] theorem State.putCopy_flash (s : State) (c : Copy) : (s.putCopy c).flash = s.flash := rfl
@[simp] theorem State.putCopy_conf (s : State) (c : Copy) : (s.putCopy c).conf = s.conf := rfl
@[simp] theorem State.putCopy_booted (s : State) (c : Copy) : (s.putCopy c).booted = s.booted := rfl
@[simp] theorem State.putCopy_hostLines (s : State) (c : Copy) : (s.putCopy c).hostLines = s.hostLines := rfl
@[simp] theorem State.putCopy_out (s : State) (c : Copy) : (s.putCopy c).out = s.out := rfl
@[simp] theorem State.putCopy_turn (s : State) (c : Copy) : (s.putCopy c).turn = s.turn := rfl
@[simp] theorem State.putCopy_evs (s : State) (c : Copy) : (s.putCopy c).evs = s.evs := rfl
@[simp] theorem State.putCopy_evTurn (s : State) (c : Copy) : (s.putCopy c).evTurn = s.evTurn := rfl
@[simp] theorem State.putCopy_evLast (s : State) (c : Copy) : (s.putCopy c).evLast = s.evLast := rfl
@[simp] theorem State.putCopy_fresh (s : State) (c : Copy) : (s.putCopy c).fresh = s.fresh := rfl
@[simp] theorem State.putCopy_free (s : State) (c : Copy) : (s.putCopy c).free = s.free := rfl

@[simp] theorem State.dropCopies_clk (s : State) (pa : Nat) : (s.dropCopies pa).clk = s.clk := rfl
@[simp] theorem State.dropCopies_agenda (s : State) (pa : Nat) : (s.dropCopies pa).agenda = s.agenda := rfl
@[simp] theorem State.dropCopies_iss (s : State) (pa : Nat) : (s.dropCopies pa).iss = s.iss := rfl
@[simp] theorem State.dropCopies_stowed (s : State) (pa : Nat) : (s.dropCopies pa).stowed = s.stowed := rfl
@[simp] theorem State.dropCopies_groups (s : State) (pa : Nat) : (s.dropCopies pa).groups = s.groups := rfl
@[simp] theorem State.dropCopies_gangs (s : State) (pa : Nat) : (s.dropCopies pa).gangs = s.gangs := rfl
@[simp] theorem State.dropCopies_launches (s : State) (pa : Nat) : (s.dropCopies pa).launches = s.launches := rfl
@[simp] theorem State.dropCopies_tombs (s : State) (pa : Nat) : (s.dropCopies pa).tombs = s.tombs := rfl
@[simp] theorem State.dropCopies_cores (s : State) (pa : Nat) : (s.dropCopies pa).cores = s.cores := rfl
@[simp] theorem State.dropCopies_dies (s : State) (pa : Nat) : (s.dropCopies pa).dies = s.dies := rfl
@[simp] theorem State.dropCopies_parts (s : State) (pa : Nat) : (s.dropCopies pa).parts = s.parts := rfl
@[simp] theorem State.dropCopies_mem (s : State) (pa : Nat) : (s.dropCopies pa).mem = s.mem := rfl
@[simp] theorem State.dropCopies_pois (s : State) (pa : Nat) : (s.dropCopies pa).pois = s.pois := rfl
@[simp] theorem State.dropCopies_dirty (s : State) (pa : Nat) : (s.dropCopies pa).dirty = s.dirty := rfl
@[simp] theorem State.dropCopies_lines (s : State) (pa : Nat) : (s.dropCopies pa).lines = s.lines := rfl
@[simp] theorem State.dropCopies_mts (s : State) (pa : Nat) : (s.dropCopies pa).mts = s.mts := rfl
@[simp] theorem State.dropCopies_copies (s : State) (pa : Nat) : (s.dropCopies pa).copies = s.copies.filter fun c => c.line != lineOf pa || c.readShared := rfl
@[simp] theorem State.dropCopies_reqs (s : State) (pa : Nat) : (s.dropCopies pa).reqs = s.reqs := rfl
@[simp] theorem State.dropCopies_cpys (s : State) (pa : Nat) : (s.dropCopies pa).cpys = s.cpys := rfl
@[simp] theorem State.dropCopies_engs (s : State) (pa : Nat) : (s.dropCopies pa).engs = s.engs := rfl
@[simp] theorem State.dropCopies_ecmds (s : State) (pa : Nat) : (s.dropCopies pa).ecmds = s.ecmds := rfl
@[simp] theorem State.dropCopies_status (s : State) (pa : Nat) : (s.dropCopies pa).status = s.status := rfl
@[simp] theorem State.dropCopies_fences (s : State) (pa : Nat) : (s.dropCopies pa).fences = s.fences := rfl
@[simp] theorem State.dropCopies_stalls (s : State) (pa : Nat) : (s.dropCopies pa).stalls = s.stalls := rfl
@[simp] theorem State.dropCopies_lineWaits (s : State) (pa : Nat) : (s.dropCopies pa).lineWaits = s.lineWaits := rfl
@[simp] theorem State.dropCopies_plists (s : State) (pa : Nat) : (s.dropCopies pa).plists = s.plists := rfl
@[simp] theorem State.dropCopies_bcmds (s : State) (pa : Nat) : (s.dropCopies pa).bcmds = s.bcmds := rfl
@[simp] theorem State.dropCopies_banks (s : State) (pa : Nat) : (s.dropCopies pa).banks = s.banks := rfl
@[simp] theorem State.dropCopies_waves (s : State) (pa : Nat) : (s.dropCopies pa).waves = s.waves := rfl
@[simp] theorem State.dropCopies_pkts (s : State) (pa : Nat) : (s.dropCopies pa).pkts = s.pkts := rfl
@[simp] theorem State.dropCopies_recs (s : State) (pa : Nat) : (s.dropCopies pa).recs = s.recs := rfl
@[simp] theorem State.dropCopies_replies (s : State) (pa : Nat) : (s.dropCopies pa).replies = s.replies := rfl
@[simp] theorem State.dropCopies_hlogs (s : State) (pa : Nat) : (s.dropCopies pa).hlogs = s.hlogs := rfl
@[simp] theorem State.dropCopies_harts (s : State) (pa : Nat) : (s.dropCopies pa).harts = s.harts := rfl
@[simp] theorem State.dropCopies_flash (s : State) (pa : Nat) : (s.dropCopies pa).flash = s.flash := rfl
@[simp] theorem State.dropCopies_conf (s : State) (pa : Nat) : (s.dropCopies pa).conf = s.conf := rfl
@[simp] theorem State.dropCopies_booted (s : State) (pa : Nat) : (s.dropCopies pa).booted = s.booted := rfl
@[simp] theorem State.dropCopies_hostLines (s : State) (pa : Nat) : (s.dropCopies pa).hostLines = s.hostLines := rfl
@[simp] theorem State.dropCopies_out (s : State) (pa : Nat) : (s.dropCopies pa).out = s.out := rfl
@[simp] theorem State.dropCopies_turn (s : State) (pa : Nat) : (s.dropCopies pa).turn = s.turn := rfl
@[simp] theorem State.dropCopies_evs (s : State) (pa : Nat) : (s.dropCopies pa).evs = s.evs := rfl
@[simp] theorem State.dropCopies_evTurn (s : State) (pa : Nat) : (s.dropCopies pa).evTurn = s.evTurn := rfl
@[simp] theorem State.dropCopies_evLast (s : State) (pa : Nat) : (s.dropCopies pa).evLast = s.evLast := rfl
@[simp] theorem State.dropCopies_fresh (s : State) (pa : Nat) : (s.dropCopies pa).fresh = s.fresh := rfl
@[simp] theorem State.dropCopies_free (s : State) (pa : Nat) : (s.dropCopies pa).free = s.free := rfl

@[simp] theorem State.refreshCopies_clk (s : State) (core pa t : Nat) : (s.refreshCopies core pa t).clk = s.clk := rfl
@[simp] theorem State.refreshCopies_agenda (s : State) (core pa t : Nat) : (s.refreshCopies core pa t).agenda = s.agenda := rfl
@[simp] theorem State.refreshCopies_iss (s : State) (core pa t : Nat) : (s.refreshCopies core pa t).iss = s.iss := rfl
@[simp] theorem State.refreshCopies_stowed (s : State) (core pa t : Nat) : (s.refreshCopies core pa t).stowed = s.stowed := rfl
@[simp] theorem State.refreshCopies_groups (s : State) (core pa t : Nat) : (s.refreshCopies core pa t).groups = s.groups := rfl
@[simp] theorem State.refreshCopies_gangs (s : State) (core pa t : Nat) : (s.refreshCopies core pa t).gangs = s.gangs := rfl
@[simp] theorem State.refreshCopies_launches (s : State) (core pa t : Nat) : (s.refreshCopies core pa t).launches = s.launches := rfl
@[simp] theorem State.refreshCopies_tombs (s : State) (core pa t : Nat) : (s.refreshCopies core pa t).tombs = s.tombs := rfl
@[simp] theorem State.refreshCopies_cores (s : State) (core pa t : Nat) : (s.refreshCopies core pa t).cores = s.cores := rfl
@[simp] theorem State.refreshCopies_dies (s : State) (core pa t : Nat) : (s.refreshCopies core pa t).dies = s.dies := rfl
@[simp] theorem State.refreshCopies_parts (s : State) (core pa t : Nat) : (s.refreshCopies core pa t).parts = s.parts := rfl
@[simp] theorem State.refreshCopies_mem (s : State) (core pa t : Nat) : (s.refreshCopies core pa t).mem = s.mem := rfl
@[simp] theorem State.refreshCopies_pois (s : State) (core pa t : Nat) : (s.refreshCopies core pa t).pois = s.pois := rfl
@[simp] theorem State.refreshCopies_dirty (s : State) (core pa t : Nat) : (s.refreshCopies core pa t).dirty = s.dirty := rfl
@[simp] theorem State.refreshCopies_lines (s : State) (core pa t : Nat) : (s.refreshCopies core pa t).lines = s.lines := rfl
@[simp] theorem State.refreshCopies_mts (s : State) (core pa t : Nat) : (s.refreshCopies core pa t).mts = s.mts := rfl
@[simp] theorem State.refreshCopies_reqs (s : State) (core pa t : Nat) : (s.refreshCopies core pa t).reqs = s.reqs := rfl
@[simp] theorem State.refreshCopies_cpys (s : State) (core pa t : Nat) : (s.refreshCopies core pa t).cpys = s.cpys := rfl
@[simp] theorem State.refreshCopies_engs (s : State) (core pa t : Nat) : (s.refreshCopies core pa t).engs = s.engs := rfl
@[simp] theorem State.refreshCopies_ecmds (s : State) (core pa t : Nat) : (s.refreshCopies core pa t).ecmds = s.ecmds := rfl
@[simp] theorem State.refreshCopies_status (s : State) (core pa t : Nat) : (s.refreshCopies core pa t).status = s.status := rfl
@[simp] theorem State.refreshCopies_fences (s : State) (core pa t : Nat) : (s.refreshCopies core pa t).fences = s.fences := rfl
@[simp] theorem State.refreshCopies_stalls (s : State) (core pa t : Nat) : (s.refreshCopies core pa t).stalls = s.stalls := rfl
@[simp] theorem State.refreshCopies_lineWaits (s : State) (core pa t : Nat) : (s.refreshCopies core pa t).lineWaits = s.lineWaits := rfl
@[simp] theorem State.refreshCopies_plists (s : State) (core pa t : Nat) : (s.refreshCopies core pa t).plists = s.plists := rfl
@[simp] theorem State.refreshCopies_bcmds (s : State) (core pa t : Nat) : (s.refreshCopies core pa t).bcmds = s.bcmds := rfl
@[simp] theorem State.refreshCopies_banks (s : State) (core pa t : Nat) : (s.refreshCopies core pa t).banks = s.banks := rfl
@[simp] theorem State.refreshCopies_waves (s : State) (core pa t : Nat) : (s.refreshCopies core pa t).waves = s.waves := rfl
@[simp] theorem State.refreshCopies_pkts (s : State) (core pa t : Nat) : (s.refreshCopies core pa t).pkts = s.pkts := rfl
@[simp] theorem State.refreshCopies_recs (s : State) (core pa t : Nat) : (s.refreshCopies core pa t).recs = s.recs := rfl
@[simp] theorem State.refreshCopies_replies (s : State) (core pa t : Nat) : (s.refreshCopies core pa t).replies = s.replies := rfl
@[simp] theorem State.refreshCopies_hlogs (s : State) (core pa t : Nat) : (s.refreshCopies core pa t).hlogs = s.hlogs := rfl
@[simp] theorem State.refreshCopies_harts (s : State) (core pa t : Nat) : (s.refreshCopies core pa t).harts = s.harts := rfl
@[simp] theorem State.refreshCopies_flash (s : State) (core pa t : Nat) : (s.refreshCopies core pa t).flash = s.flash := rfl
@[simp] theorem State.refreshCopies_conf (s : State) (core pa t : Nat) : (s.refreshCopies core pa t).conf = s.conf := rfl
@[simp] theorem State.refreshCopies_booted (s : State) (core pa t : Nat) : (s.refreshCopies core pa t).booted = s.booted := rfl
@[simp] theorem State.refreshCopies_hostLines (s : State) (core pa t : Nat) : (s.refreshCopies core pa t).hostLines = s.hostLines := rfl
@[simp] theorem State.refreshCopies_out (s : State) (core pa t : Nat) : (s.refreshCopies core pa t).out = s.out := rfl
@[simp] theorem State.refreshCopies_turn (s : State) (core pa t : Nat) : (s.refreshCopies core pa t).turn = s.turn := rfl
@[simp] theorem State.refreshCopies_evs (s : State) (core pa t : Nat) : (s.refreshCopies core pa t).evs = s.evs := rfl
@[simp] theorem State.refreshCopies_evTurn (s : State) (core pa t : Nat) : (s.refreshCopies core pa t).evTurn = s.evTurn := rfl
@[simp] theorem State.refreshCopies_evLast (s : State) (core pa t : Nat) : (s.refreshCopies core pa t).evLast = s.evLast := rfl
@[simp] theorem State.refreshCopies_fresh (s : State) (core pa t : Nat) : (s.refreshCopies core pa t).fresh = s.fresh := rfl
@[simp] theorem State.refreshCopies_free (s : State) (core pa t : Nat) : (s.refreshCopies core pa t).free = s.free := rfl

@[simp] theorem State.setCore_die (s : State) (c : Nat) (x : CoreState) (j : Nat) : (s.setCore c x).die j = s.die j := rfl
@[simp] theorem State.setCore_part (s : State) (c : Nat) (x : CoreState) (j : Nat) : (s.setCore c x).part j = s.part j := rfl
@[simp] theorem State.setCore_grp (s : State) (c : Nat) (x : CoreState) (j : Nat) : (s.setCore c x).grp j = s.grp j := rfl
@[simp] theorem State.setCore_gang (s : State) (c : Nat) (x : CoreState) (j : Nat) : (s.setCore c x).gang j = s.gang j := rfl
@[simp] theorem State.setCore_launch (s : State) (c : Nat) (x : CoreState) (j : Nat) : (s.setCore c x).launch j = s.launch j := rfl
@[simp] theorem State.updCore_die (s : State) (c : Nat) (f : CoreState → CoreState) (j : Nat) : (s.updCore c f).die j = s.die j := rfl
@[simp] theorem State.updCore_part (s : State) (c : Nat) (f : CoreState → CoreState) (j : Nat) : (s.updCore c f).part j = s.part j := rfl
@[simp] theorem State.updCore_grp (s : State) (c : Nat) (f : CoreState → CoreState) (j : Nat) : (s.updCore c f).grp j = s.grp j := rfl
@[simp] theorem State.updCore_gang (s : State) (c : Nat) (f : CoreState → CoreState) (j : Nat) : (s.updCore c f).gang j = s.gang j := rfl
@[simp] theorem State.updCore_launch (s : State) (c : Nat) (f : CoreState → CoreState) (j : Nat) : (s.updCore c f).launch j = s.launch j := rfl
@[simp] theorem State.setDie_core (s : State) (d : Nat) (x : DieState) (j : Nat) : (s.setDie d x).core j = s.core j := rfl
@[simp] theorem State.setDie_part (s : State) (d : Nat) (x : DieState) (j : Nat) : (s.setDie d x).part j = s.part j := rfl
@[simp] theorem State.setDie_grp (s : State) (d : Nat) (x : DieState) (j : Nat) : (s.setDie d x).grp j = s.grp j := rfl
@[simp] theorem State.setDie_gang (s : State) (d : Nat) (x : DieState) (j : Nat) : (s.setDie d x).gang j = s.gang j := rfl
@[simp] theorem State.setDie_launch (s : State) (d : Nat) (x : DieState) (j : Nat) : (s.setDie d x).launch j = s.launch j := rfl
@[simp] theorem State.updDie_core (s : State) (d : Nat) (f : DieState → DieState) (j : Nat) : (s.updDie d f).core j = s.core j := rfl
@[simp] theorem State.updDie_part (s : State) (d : Nat) (f : DieState → DieState) (j : Nat) : (s.updDie d f).part j = s.part j := rfl
@[simp] theorem State.updDie_grp (s : State) (d : Nat) (f : DieState → DieState) (j : Nat) : (s.updDie d f).grp j = s.grp j := rfl
@[simp] theorem State.updDie_gang (s : State) (d : Nat) (f : DieState → DieState) (j : Nat) : (s.updDie d f).gang j = s.gang j := rfl
@[simp] theorem State.updDie_launch (s : State) (d : Nat) (f : DieState → DieState) (j : Nat) : (s.updDie d f).launch j = s.launch j := rfl
@[simp] theorem State.setPart_core (s : State) (p : Nat) (x : PartState) (j : Nat) : (s.setPart p x).core j = s.core j := rfl
@[simp] theorem State.setPart_die (s : State) (p : Nat) (x : PartState) (j : Nat) : (s.setPart p x).die j = s.die j := rfl
@[simp] theorem State.setPart_grp (s : State) (p : Nat) (x : PartState) (j : Nat) : (s.setPart p x).grp j = s.grp j := rfl
@[simp] theorem State.setPart_gang (s : State) (p : Nat) (x : PartState) (j : Nat) : (s.setPart p x).gang j = s.gang j := rfl
@[simp] theorem State.setPart_launch (s : State) (p : Nat) (x : PartState) (j : Nat) : (s.setPart p x).launch j = s.launch j := rfl
@[simp] theorem State.updPart_core (s : State) (p : Nat) (f : PartState → PartState) (j : Nat) : (s.updPart p f).core j = s.core j := rfl
@[simp] theorem State.updPart_die (s : State) (p : Nat) (f : PartState → PartState) (j : Nat) : (s.updPart p f).die j = s.die j := rfl
@[simp] theorem State.updPart_grp (s : State) (p : Nat) (f : PartState → PartState) (j : Nat) : (s.updPart p f).grp j = s.grp j := rfl
@[simp] theorem State.updPart_gang (s : State) (p : Nat) (f : PartState → PartState) (j : Nat) : (s.updPart p f).gang j = s.gang j := rfl
@[simp] theorem State.updPart_launch (s : State) (p : Nat) (f : PartState → PartState) (j : Nat) : (s.updPart p f).launch j = s.launch j := rfl
@[simp] theorem State.updGrp_core (s : State) (u : Nat) (f : Grp → Grp) (j : Nat) : (s.updGrp u f).core j = s.core j := rfl
@[simp] theorem State.updGrp_die (s : State) (u : Nat) (f : Grp → Grp) (j : Nat) : (s.updGrp u f).die j = s.die j := rfl
@[simp] theorem State.updGrp_part (s : State) (u : Nat) (f : Grp → Grp) (j : Nat) : (s.updGrp u f).part j = s.part j := rfl
@[simp] theorem State.updGrp_gang (s : State) (u : Nat) (f : Grp → Grp) (j : Nat) : (s.updGrp u f).gang j = s.gang j := rfl
@[simp] theorem State.updGrp_launch (s : State) (u : Nat) (f : Grp → Grp) (j : Nat) : (s.updGrp u f).launch j = s.launch j := rfl
@[simp] theorem State.updGang_core (s : State) (k : Nat) (f : Gang → Gang) (j : Nat) : (s.updGang k f).core j = s.core j := rfl
@[simp] theorem State.updGang_die (s : State) (k : Nat) (f : Gang → Gang) (j : Nat) : (s.updGang k f).die j = s.die j := rfl
@[simp] theorem State.updGang_part (s : State) (k : Nat) (f : Gang → Gang) (j : Nat) : (s.updGang k f).part j = s.part j := rfl
@[simp] theorem State.updGang_grp (s : State) (k : Nat) (f : Gang → Gang) (j : Nat) : (s.updGang k f).grp j = s.grp j := rfl
@[simp] theorem State.updGang_launch (s : State) (k : Nat) (f : Gang → Gang) (j : Nat) : (s.updGang k f).launch j = s.launch j := rfl
@[simp] theorem State.updLaunch_core (s : State) (k : Nat) (f : Launch → Launch) (j : Nat) : (s.updLaunch k f).core j = s.core j := rfl
@[simp] theorem State.updLaunch_die (s : State) (k : Nat) (f : Launch → Launch) (j : Nat) : (s.updLaunch k f).die j = s.die j := rfl
@[simp] theorem State.updLaunch_part (s : State) (k : Nat) (f : Launch → Launch) (j : Nat) : (s.updLaunch k f).part j = s.part j := rfl
@[simp] theorem State.updLaunch_grp (s : State) (k : Nat) (f : Launch → Launch) (j : Nat) : (s.updLaunch k f).grp j = s.grp j := rfl
@[simp] theorem State.updLaunch_gang (s : State) (k : Nat) (f : Launch → Launch) (j : Nat) : (s.updLaunch k f).gang j = s.gang j := rfl
@[simp] theorem State.updTomb_core (s : State) (p k : Nat) (f : Tombstone → Tombstone) (j : Nat) : (s.updTomb p k f).core j = s.core j := rfl
@[simp] theorem State.updTomb_die (s : State) (p k : Nat) (f : Tombstone → Tombstone) (j : Nat) : (s.updTomb p k f).die j = s.die j := rfl
@[simp] theorem State.updTomb_part (s : State) (p k : Nat) (f : Tombstone → Tombstone) (j : Nat) : (s.updTomb p k f).part j = s.part j := rfl
@[simp] theorem State.updTomb_grp (s : State) (p k : Nat) (f : Tombstone → Tombstone) (j : Nat) : (s.updTomb p k f).grp j = s.grp j := rfl
@[simp] theorem State.updTomb_gang (s : State) (p k : Nat) (f : Tombstone → Tombstone) (j : Nat) : (s.updTomb p k f).gang j = s.gang j := rfl
@[simp] theorem State.updTomb_launch (s : State) (p k : Nat) (f : Tombstone → Tombstone) (j : Nat) : (s.updTomb p k f).launch j = s.launch j := rfl
@[simp] theorem State.send_core (s : State) (o : Output) (j : Nat) : (s.send o).core j = s.core j := rfl
@[simp] theorem State.send_die (s : State) (o : Output) (j : Nat) : (s.send o).die j = s.die j := rfl
@[simp] theorem State.send_part (s : State) (o : Output) (j : Nat) : (s.send o).part j = s.part j := rfl
@[simp] theorem State.send_grp (s : State) (o : Output) (j : Nat) : (s.send o).grp j = s.grp j := rfl
@[simp] theorem State.send_gang (s : State) (o : Output) (j : Nat) : (s.send o).gang j = s.gang j := rfl
@[simp] theorem State.send_launch (s : State) (o : Output) (j : Nat) : (s.send o).launch j = s.launch j := rfl
@[simp] theorem State.setScratch_core (s : State) (k c : Nat) (m : Memory) (j : Nat) : (s.setScratch k c m).core j = s.core j := rfl
@[simp] theorem State.setScratch_die (s : State) (k c : Nat) (m : Memory) (j : Nat) : (s.setScratch k c m).die j = s.die j := rfl
@[simp] theorem State.setScratch_part (s : State) (k c : Nat) (m : Memory) (j : Nat) : (s.setScratch k c m).part j = s.part j := rfl
@[simp] theorem State.setScratch_grp (s : State) (k c : Nat) (m : Memory) (j : Nat) : (s.setScratch k c m).grp j = s.grp j := rfl
@[simp] theorem State.setScratch_launch (s : State) (k c : Nat) (m : Memory) (j : Nat) : (s.setScratch k c m).launch j = s.launch j := rfl
@[simp] theorem State.noteDirty_core (s : State) (pa n p : Nat) (j : Nat) : (s.noteDirty pa n p).core j = s.core j := rfl
@[simp] theorem State.noteDirty_die (s : State) (pa n p : Nat) (j : Nat) : (s.noteDirty pa n p).die j = s.die j := rfl
@[simp] theorem State.noteDirty_part (s : State) (pa n p : Nat) (j : Nat) : (s.noteDirty pa n p).part j = s.part j := rfl
@[simp] theorem State.noteDirty_grp (s : State) (pa n p : Nat) (j : Nat) : (s.noteDirty pa n p).grp j = s.grp j := rfl
@[simp] theorem State.noteDirty_gang (s : State) (pa n p : Nat) (j : Nat) : (s.noteDirty pa n p).gang j = s.gang j := rfl
@[simp] theorem State.noteDirty_launch (s : State) (pa n p : Nat) (j : Nat) : (s.noteDirty pa n p).launch j = s.launch j := rfl
@[simp] theorem State.ackSide_core (s : State) (p k : Nat) (o : BitVec 8) (n : Nat) (j : Nat) : (s.ackSide p k o n).core j = s.core j := rfl
@[simp] theorem State.ackSide_die (s : State) (p k : Nat) (o : BitVec 8) (n : Nat) (j : Nat) : (s.ackSide p k o n).die j = s.die j := rfl
@[simp] theorem State.ackSide_part (s : State) (p k : Nat) (o : BitVec 8) (n : Nat) (j : Nat) : (s.ackSide p k o n).part j = s.part j := rfl
@[simp] theorem State.ackSide_grp (s : State) (p k : Nat) (o : BitVec 8) (n : Nat) (j : Nat) : (s.ackSide p k o n).grp j = s.grp j := rfl
@[simp] theorem State.ackSide_gang (s : State) (p k : Nat) (o : BitVec 8) (n : Nat) (j : Nat) : (s.ackSide p k o n).gang j = s.gang j := rfl
@[simp] theorem State.ackSide_launch (s : State) (p k : Nat) (o : BitVec 8) (n : Nat) (j : Nat) : (s.ackSide p k o n).launch j = s.launch j := rfl
@[simp] theorem State.addSide_core (s : State) (p k : Nat) (o : BitVec 8) (pc : Word) (n : Nat) (j : Nat) : (s.addSide p k o pc n).core j = s.core j := rfl
@[simp] theorem State.addSide_die (s : State) (p k : Nat) (o : BitVec 8) (pc : Word) (n : Nat) (j : Nat) : (s.addSide p k o pc n).die j = s.die j := rfl
@[simp] theorem State.addSide_part (s : State) (p k : Nat) (o : BitVec 8) (pc : Word) (n : Nat) (j : Nat) : (s.addSide p k o pc n).part j = s.part j := rfl
@[simp] theorem State.addSide_grp (s : State) (p k : Nat) (o : BitVec 8) (pc : Word) (n : Nat) (j : Nat) : (s.addSide p k o pc n).grp j = s.grp j := rfl
@[simp] theorem State.addSide_gang (s : State) (p k : Nat) (o : BitVec 8) (pc : Word) (n : Nat) (j : Nat) : (s.addSide p k o pc n).gang j = s.gang j := rfl
@[simp] theorem State.addSide_launch (s : State) (p k : Nat) (o : BitVec 8) (pc : Word) (n : Nat) (j : Nat) : (s.addSide p k o pc n).launch j = s.launch j := rfl
@[simp] theorem State.evictLine_core (s : State) (line : Nat) (j : Nat) : (s.evictLine line).core j = s.core j := by simp [State.core]
@[simp] theorem State.evictLine_die (s : State) (line : Nat) (j : Nat) : (s.evictLine line).die j = s.die j := by simp [State.die]
@[simp] theorem State.evictLine_part (s : State) (line : Nat) (j : Nat) : (s.evictLine line).part j = s.part j := by simp [State.part]
@[simp] theorem State.evictLine_grp (s : State) (line : Nat) (j : Nat) : (s.evictLine line).grp j = s.grp j := by simp [State.grp]
@[simp] theorem State.evictLine_gang (s : State) (line : Nat) (j : Nat) : (s.evictLine line).gang j = s.gang j := by simp [State.gang]
@[simp] theorem State.evictLine_launch (s : State) (line : Nat) (j : Nat) : (s.evictLine line).launch j = s.launch j := by simp [State.launch]
@[simp] theorem State.setLine_core (s : State) (pa : Nat) (t : LineTimes) (j : Nat) : (s.setLine pa t).core j = s.core j := by simp [State.core]
@[simp] theorem State.setLine_die (s : State) (pa : Nat) (t : LineTimes) (j : Nat) : (s.setLine pa t).die j = s.die j := by simp [State.die]
@[simp] theorem State.setLine_part (s : State) (pa : Nat) (t : LineTimes) (j : Nat) : (s.setLine pa t).part j = s.part j := by simp [State.part]
@[simp] theorem State.setLine_grp (s : State) (pa : Nat) (t : LineTimes) (j : Nat) : (s.setLine pa t).grp j = s.grp j := by simp [State.grp]
@[simp] theorem State.setLine_gang (s : State) (pa : Nat) (t : LineTimes) (j : Nat) : (s.setLine pa t).gang j = s.gang j := by simp [State.gang]
@[simp] theorem State.setLine_launch (s : State) (pa : Nat) (t : LineTimes) (j : Nat) : (s.setLine pa t).launch j = s.launch j := by simp [State.launch]
@[simp] theorem State.fireWatches_core (s : State) (t : Target) (n : Nat) (j : Nat) : (s.fireWatches t n).core j = s.core j := rfl
@[simp] theorem State.fireWatches_die (s : State) (t : Target) (n : Nat) (j : Nat) : (s.fireWatches t n).die j = s.die j := rfl
@[simp] theorem State.fireWatches_part (s : State) (t : Target) (n : Nat) (j : Nat) : (s.fireWatches t n).part j = s.part j := rfl
@[simp] theorem State.fireWatches_gang (s : State) (t : Target) (n : Nat) (j : Nat) : (s.fireWatches t n).gang j = s.gang j := rfl
@[simp] theorem State.fireWatches_launch (s : State) (t : Target) (n : Nat) (j : Nat) : (s.fireWatches t n).launch j = s.launch j := rfl
@[simp] theorem State.putCopy_core (s : State) (c : Copy) (j : Nat) : (s.putCopy c).core j = s.core j := rfl
@[simp] theorem State.putCopy_die (s : State) (c : Copy) (j : Nat) : (s.putCopy c).die j = s.die j := rfl
@[simp] theorem State.putCopy_part (s : State) (c : Copy) (j : Nat) : (s.putCopy c).part j = s.part j := rfl
@[simp] theorem State.putCopy_grp (s : State) (c : Copy) (j : Nat) : (s.putCopy c).grp j = s.grp j := rfl
@[simp] theorem State.putCopy_gang (s : State) (c : Copy) (j : Nat) : (s.putCopy c).gang j = s.gang j := rfl
@[simp] theorem State.putCopy_launch (s : State) (c : Copy) (j : Nat) : (s.putCopy c).launch j = s.launch j := rfl
@[simp] theorem State.dropCopies_core (s : State) (pa : Nat) (j : Nat) : (s.dropCopies pa).core j = s.core j := rfl
@[simp] theorem State.dropCopies_die (s : State) (pa : Nat) (j : Nat) : (s.dropCopies pa).die j = s.die j := rfl
@[simp] theorem State.dropCopies_part (s : State) (pa : Nat) (j : Nat) : (s.dropCopies pa).part j = s.part j := rfl
@[simp] theorem State.dropCopies_grp (s : State) (pa : Nat) (j : Nat) : (s.dropCopies pa).grp j = s.grp j := rfl
@[simp] theorem State.dropCopies_gang (s : State) (pa : Nat) (j : Nat) : (s.dropCopies pa).gang j = s.gang j := rfl
@[simp] theorem State.dropCopies_launch (s : State) (pa : Nat) (j : Nat) : (s.dropCopies pa).launch j = s.launch j := rfl
@[simp] theorem State.refreshCopies_core (s : State) (core pa t : Nat) (j : Nat) : (s.refreshCopies core pa t).core j = s.core j := rfl
@[simp] theorem State.refreshCopies_die (s : State) (core pa t : Nat) (j : Nat) : (s.refreshCopies core pa t).die j = s.die j := rfl
@[simp] theorem State.refreshCopies_part (s : State) (core pa t : Nat) (j : Nat) : (s.refreshCopies core pa t).part j = s.part j := rfl
@[simp] theorem State.refreshCopies_grp (s : State) (core pa t : Nat) (j : Nat) : (s.refreshCopies core pa t).grp j = s.grp j := rfl
@[simp] theorem State.refreshCopies_gang (s : State) (core pa t : Nat) (j : Nat) : (s.refreshCopies core pa t).gang j = s.gang j := rfl
@[simp] theorem State.refreshCopies_launch (s : State) (core pa t : Nat) (j : Nat) : (s.refreshCopies core pa t).launch j = s.launch j := rfl

@[simp] theorem State.takeKey_fst (s : State) : s.takeKey.1 = s.fresh := rfl
@[simp] theorem State.await_clk (s : State) (w : LineWait) : (s.await w).clk = s.clk := by simp only [State.await]; split <;> rfl
@[simp] theorem State.await_agenda (s : State) (w : LineWait) : (s.await w).agenda = s.agenda := by simp only [State.await]; split <;> rfl
@[simp] theorem State.await_iss (s : State) (w : LineWait) : (s.await w).iss = s.iss := by simp only [State.await]; split <;> rfl
@[simp] theorem State.await_stowed (s : State) (w : LineWait) : (s.await w).stowed = s.stowed := by simp only [State.await]; split <;> rfl
@[simp] theorem State.await_groups (s : State) (w : LineWait) : (s.await w).groups = s.groups := by simp only [State.await]; split <;> rfl
@[simp] theorem State.await_gangs (s : State) (w : LineWait) : (s.await w).gangs = s.gangs := by simp only [State.await]; split <;> rfl
@[simp] theorem State.await_launches (s : State) (w : LineWait) : (s.await w).launches = s.launches := by simp only [State.await]; split <;> rfl
@[simp] theorem State.await_tombs (s : State) (w : LineWait) : (s.await w).tombs = s.tombs := by simp only [State.await]; split <;> rfl
@[simp] theorem State.await_cores (s : State) (w : LineWait) : (s.await w).cores = s.cores := by simp only [State.await]; split <;> rfl
@[simp] theorem State.await_dies (s : State) (w : LineWait) : (s.await w).dies = s.dies := by simp only [State.await]; split <;> rfl
@[simp] theorem State.await_parts (s : State) (w : LineWait) : (s.await w).parts = s.parts := by simp only [State.await]; split <;> rfl
@[simp] theorem State.await_mem (s : State) (w : LineWait) : (s.await w).mem = s.mem := by simp only [State.await]; split <;> rfl
@[simp] theorem State.await_pois (s : State) (w : LineWait) : (s.await w).pois = s.pois := by simp only [State.await]; split <;> rfl
@[simp] theorem State.await_dirty (s : State) (w : LineWait) : (s.await w).dirty = s.dirty := by simp only [State.await]; split <;> rfl
@[simp] theorem State.await_lines (s : State) (w : LineWait) : (s.await w).lines = s.lines := by simp only [State.await]; split <;> rfl
@[simp] theorem State.await_mts (s : State) (w : LineWait) : (s.await w).mts = s.mts := by simp only [State.await]; split <;> rfl
@[simp] theorem State.await_copies (s : State) (w : LineWait) : (s.await w).copies = s.copies := by simp only [State.await]; split <;> rfl
@[simp] theorem State.await_reqs (s : State) (w : LineWait) : (s.await w).reqs = s.reqs := by simp only [State.await]; split <;> rfl
@[simp] theorem State.await_cpys (s : State) (w : LineWait) : (s.await w).cpys = s.cpys := by simp only [State.await]; split <;> rfl
@[simp] theorem State.await_engs (s : State) (w : LineWait) : (s.await w).engs = s.engs := by simp only [State.await]; split <;> rfl
@[simp] theorem State.await_ecmds (s : State) (w : LineWait) : (s.await w).ecmds = s.ecmds := by simp only [State.await]; split <;> rfl
@[simp] theorem State.await_status (s : State) (w : LineWait) : (s.await w).status = s.status := by simp only [State.await]; split <;> rfl
@[simp] theorem State.await_fences (s : State) (w : LineWait) : (s.await w).fences = s.fences := by simp only [State.await]; split <;> rfl
@[simp] theorem State.await_stalls (s : State) (w : LineWait) : (s.await w).stalls = s.stalls := by simp only [State.await]; split <;> rfl
@[simp] theorem State.await_plists (s : State) (w : LineWait) : (s.await w).plists = s.plists := by simp only [State.await]; split <;> rfl
@[simp] theorem State.await_bcmds (s : State) (w : LineWait) : (s.await w).bcmds = s.bcmds := by simp only [State.await]; split <;> rfl
@[simp] theorem State.await_banks (s : State) (w : LineWait) : (s.await w).banks = s.banks := by simp only [State.await]; split <;> rfl
@[simp] theorem State.await_waves (s : State) (w : LineWait) : (s.await w).waves = s.waves := by simp only [State.await]; split <;> rfl
@[simp] theorem State.await_pkts (s : State) (w : LineWait) : (s.await w).pkts = s.pkts := by simp only [State.await]; split <;> rfl
@[simp] theorem State.await_recs (s : State) (w : LineWait) : (s.await w).recs = s.recs := by simp only [State.await]; split <;> rfl
@[simp] theorem State.await_replies (s : State) (w : LineWait) : (s.await w).replies = s.replies := by simp only [State.await]; split <;> rfl
@[simp] theorem State.await_hlogs (s : State) (w : LineWait) : (s.await w).hlogs = s.hlogs := by simp only [State.await]; split <;> rfl
@[simp] theorem State.await_harts (s : State) (w : LineWait) : (s.await w).harts = s.harts := by simp only [State.await]; split <;> rfl
@[simp] theorem State.await_flash (s : State) (w : LineWait) : (s.await w).flash = s.flash := by simp only [State.await]; split <;> rfl
@[simp] theorem State.await_conf (s : State) (w : LineWait) : (s.await w).conf = s.conf := by simp only [State.await]; split <;> rfl
@[simp] theorem State.await_booted (s : State) (w : LineWait) : (s.await w).booted = s.booted := by simp only [State.await]; split <;> rfl
@[simp] theorem State.await_hostLines (s : State) (w : LineWait) : (s.await w).hostLines = s.hostLines := by simp only [State.await]; split <;> rfl
@[simp] theorem State.await_out (s : State) (w : LineWait) : (s.await w).out = s.out := by simp only [State.await]; split <;> rfl
@[simp] theorem State.await_turn (s : State) (w : LineWait) : (s.await w).turn = s.turn := by simp only [State.await]; split <;> rfl
@[simp] theorem State.await_evs (s : State) (w : LineWait) : (s.await w).evs = s.evs := by simp only [State.await]; split <;> rfl
@[simp] theorem State.await_evTurn (s : State) (w : LineWait) : (s.await w).evTurn = s.evTurn := by simp only [State.await]; split <;> rfl
@[simp] theorem State.await_evLast (s : State) (w : LineWait) : (s.await w).evLast = s.evLast := by simp only [State.await]; split <;> rfl
@[simp] theorem State.await_fresh (s : State) (w : LineWait) : (s.await w).fresh = s.fresh := by simp only [State.await]; split <;> rfl
@[simp] theorem State.await_free (s : State) (w : LineWait) : (s.await w).free = s.free := by simp only [State.await]; split <;> rfl
@[simp] theorem State.await_lineWaits (s : State) (w : LineWait) :
    (s.await w).lineWaits = if s.lineWaits.contains w then s.lineWaits else s.lineWaits ++ [w] := by simp only [State.await]; split <;> rfl

@[simp] theorem State.unawait_clk (s : State) (p : LineWait → Bool) : (s.unawait p).clk = s.clk := rfl
@[simp] theorem State.unawait_agenda (s : State) (p : LineWait → Bool) : (s.unawait p).agenda = s.agenda := rfl
@[simp] theorem State.unawait_iss (s : State) (p : LineWait → Bool) : (s.unawait p).iss = s.iss := rfl
@[simp] theorem State.unawait_stowed (s : State) (p : LineWait → Bool) : (s.unawait p).stowed = s.stowed := rfl
@[simp] theorem State.unawait_groups (s : State) (p : LineWait → Bool) : (s.unawait p).groups = s.groups := rfl
@[simp] theorem State.unawait_gangs (s : State) (p : LineWait → Bool) : (s.unawait p).gangs = s.gangs := rfl
@[simp] theorem State.unawait_launches (s : State) (p : LineWait → Bool) : (s.unawait p).launches = s.launches := rfl
@[simp] theorem State.unawait_tombs (s : State) (p : LineWait → Bool) : (s.unawait p).tombs = s.tombs := rfl
@[simp] theorem State.unawait_cores (s : State) (p : LineWait → Bool) : (s.unawait p).cores = s.cores := rfl
@[simp] theorem State.unawait_dies (s : State) (p : LineWait → Bool) : (s.unawait p).dies = s.dies := rfl
@[simp] theorem State.unawait_parts (s : State) (p : LineWait → Bool) : (s.unawait p).parts = s.parts := rfl
@[simp] theorem State.unawait_mem (s : State) (p : LineWait → Bool) : (s.unawait p).mem = s.mem := rfl
@[simp] theorem State.unawait_pois (s : State) (p : LineWait → Bool) : (s.unawait p).pois = s.pois := rfl
@[simp] theorem State.unawait_dirty (s : State) (p : LineWait → Bool) : (s.unawait p).dirty = s.dirty := rfl
@[simp] theorem State.unawait_lines (s : State) (p : LineWait → Bool) : (s.unawait p).lines = s.lines := rfl
@[simp] theorem State.unawait_mts (s : State) (p : LineWait → Bool) : (s.unawait p).mts = s.mts := rfl
@[simp] theorem State.unawait_copies (s : State) (p : LineWait → Bool) : (s.unawait p).copies = s.copies := rfl
@[simp] theorem State.unawait_reqs (s : State) (p : LineWait → Bool) : (s.unawait p).reqs = s.reqs := rfl
@[simp] theorem State.unawait_cpys (s : State) (p : LineWait → Bool) : (s.unawait p).cpys = s.cpys := rfl
@[simp] theorem State.unawait_engs (s : State) (p : LineWait → Bool) : (s.unawait p).engs = s.engs := rfl
@[simp] theorem State.unawait_ecmds (s : State) (p : LineWait → Bool) : (s.unawait p).ecmds = s.ecmds := rfl
@[simp] theorem State.unawait_status (s : State) (p : LineWait → Bool) : (s.unawait p).status = s.status := rfl
@[simp] theorem State.unawait_fences (s : State) (p : LineWait → Bool) : (s.unawait p).fences = s.fences := rfl
@[simp] theorem State.unawait_stalls (s : State) (p : LineWait → Bool) : (s.unawait p).stalls = s.stalls := rfl
@[simp] theorem State.unawait_plists (s : State) (p : LineWait → Bool) : (s.unawait p).plists = s.plists := rfl
@[simp] theorem State.unawait_bcmds (s : State) (p : LineWait → Bool) : (s.unawait p).bcmds = s.bcmds := rfl
@[simp] theorem State.unawait_banks (s : State) (p : LineWait → Bool) : (s.unawait p).banks = s.banks := rfl
@[simp] theorem State.unawait_waves (s : State) (p : LineWait → Bool) : (s.unawait p).waves = s.waves := rfl
@[simp] theorem State.unawait_pkts (s : State) (p : LineWait → Bool) : (s.unawait p).pkts = s.pkts := rfl
@[simp] theorem State.unawait_recs (s : State) (p : LineWait → Bool) : (s.unawait p).recs = s.recs := rfl
@[simp] theorem State.unawait_replies (s : State) (p : LineWait → Bool) : (s.unawait p).replies = s.replies := rfl
@[simp] theorem State.unawait_hlogs (s : State) (p : LineWait → Bool) : (s.unawait p).hlogs = s.hlogs := rfl
@[simp] theorem State.unawait_harts (s : State) (p : LineWait → Bool) : (s.unawait p).harts = s.harts := rfl
@[simp] theorem State.unawait_flash (s : State) (p : LineWait → Bool) : (s.unawait p).flash = s.flash := rfl
@[simp] theorem State.unawait_conf (s : State) (p : LineWait → Bool) : (s.unawait p).conf = s.conf := rfl
@[simp] theorem State.unawait_booted (s : State) (p : LineWait → Bool) : (s.unawait p).booted = s.booted := rfl
@[simp] theorem State.unawait_hostLines (s : State) (p : LineWait → Bool) : (s.unawait p).hostLines = s.hostLines := rfl
@[simp] theorem State.unawait_out (s : State) (p : LineWait → Bool) : (s.unawait p).out = s.out := rfl
@[simp] theorem State.unawait_turn (s : State) (p : LineWait → Bool) : (s.unawait p).turn = s.turn := rfl
@[simp] theorem State.unawait_evs (s : State) (p : LineWait → Bool) : (s.unawait p).evs = s.evs := rfl
@[simp] theorem State.unawait_evTurn (s : State) (p : LineWait → Bool) : (s.unawait p).evTurn = s.evTurn := rfl
@[simp] theorem State.unawait_evLast (s : State) (p : LineWait → Bool) : (s.unawait p).evLast = s.evLast := rfl
@[simp] theorem State.unawait_fresh (s : State) (p : LineWait → Bool) : (s.unawait p).fresh = s.fresh := rfl
@[simp] theorem State.unawait_free (s : State) (p : LineWait → Bool) : (s.unawait p).free = s.free := rfl
@[simp] theorem State.unawait_lineWaits (s : State) (p : LineWait → Bool) : (s.unawait p).lineWaits = s.lineWaits.filter fun w => !p w := rfl

@[simp] theorem State.takeKey_clk (s : State) : s.takeKey.2.clk = s.clk := rfl
@[simp] theorem State.takeKey_agenda (s : State) : s.takeKey.2.agenda = s.agenda := rfl
@[simp] theorem State.takeKey_iss (s : State) : s.takeKey.2.iss = s.iss := rfl
@[simp] theorem State.takeKey_stowed (s : State) : s.takeKey.2.stowed = s.stowed := rfl
@[simp] theorem State.takeKey_groups (s : State) : s.takeKey.2.groups = s.groups := rfl
@[simp] theorem State.takeKey_gangs (s : State) : s.takeKey.2.gangs = s.gangs := rfl
@[simp] theorem State.takeKey_launches (s : State) : s.takeKey.2.launches = s.launches := rfl
@[simp] theorem State.takeKey_tombs (s : State) : s.takeKey.2.tombs = s.tombs := rfl
@[simp] theorem State.takeKey_cores (s : State) : s.takeKey.2.cores = s.cores := rfl
@[simp] theorem State.takeKey_dies (s : State) : s.takeKey.2.dies = s.dies := rfl
@[simp] theorem State.takeKey_parts (s : State) : s.takeKey.2.parts = s.parts := rfl
@[simp] theorem State.takeKey_mem (s : State) : s.takeKey.2.mem = s.mem := rfl
@[simp] theorem State.takeKey_pois (s : State) : s.takeKey.2.pois = s.pois := rfl
@[simp] theorem State.takeKey_dirty (s : State) : s.takeKey.2.dirty = s.dirty := rfl
@[simp] theorem State.takeKey_lines (s : State) : s.takeKey.2.lines = s.lines := rfl
@[simp] theorem State.takeKey_mts (s : State) : s.takeKey.2.mts = s.mts := rfl
@[simp] theorem State.takeKey_copies (s : State) : s.takeKey.2.copies = s.copies := rfl
@[simp] theorem State.takeKey_reqs (s : State) : s.takeKey.2.reqs = s.reqs := rfl
@[simp] theorem State.takeKey_cpys (s : State) : s.takeKey.2.cpys = s.cpys := rfl
@[simp] theorem State.takeKey_engs (s : State) : s.takeKey.2.engs = s.engs := rfl
@[simp] theorem State.takeKey_ecmds (s : State) : s.takeKey.2.ecmds = s.ecmds := rfl
@[simp] theorem State.takeKey_status (s : State) : s.takeKey.2.status = s.status := rfl
@[simp] theorem State.takeKey_fences (s : State) : s.takeKey.2.fences = s.fences := rfl
@[simp] theorem State.takeKey_stalls (s : State) : s.takeKey.2.stalls = s.stalls := rfl
@[simp] theorem State.takeKey_lineWaits (s : State) : s.takeKey.2.lineWaits = s.lineWaits := rfl
@[simp] theorem State.takeKey_plists (s : State) : s.takeKey.2.plists = s.plists := rfl
@[simp] theorem State.takeKey_bcmds (s : State) : s.takeKey.2.bcmds = s.bcmds := rfl
@[simp] theorem State.takeKey_banks (s : State) : s.takeKey.2.banks = s.banks := rfl
@[simp] theorem State.takeKey_waves (s : State) : s.takeKey.2.waves = s.waves := rfl
@[simp] theorem State.takeKey_pkts (s : State) : s.takeKey.2.pkts = s.pkts := rfl
@[simp] theorem State.takeKey_recs (s : State) : s.takeKey.2.recs = s.recs := rfl
@[simp] theorem State.takeKey_replies (s : State) : s.takeKey.2.replies = s.replies := rfl
@[simp] theorem State.takeKey_hlogs (s : State) : s.takeKey.2.hlogs = s.hlogs := rfl
@[simp] theorem State.takeKey_harts (s : State) : s.takeKey.2.harts = s.harts := rfl
@[simp] theorem State.takeKey_flash (s : State) : s.takeKey.2.flash = s.flash := rfl
@[simp] theorem State.takeKey_conf (s : State) : s.takeKey.2.conf = s.conf := rfl
@[simp] theorem State.takeKey_booted (s : State) : s.takeKey.2.booted = s.booted := rfl
@[simp] theorem State.takeKey_hostLines (s : State) : s.takeKey.2.hostLines = s.hostLines := rfl
@[simp] theorem State.takeKey_out (s : State) : s.takeKey.2.out = s.out := rfl
@[simp] theorem State.takeKey_turn (s : State) : s.takeKey.2.turn = s.turn := rfl
@[simp] theorem State.takeKey_evs (s : State) : s.takeKey.2.evs = s.evs := rfl
@[simp] theorem State.takeKey_evTurn (s : State) : s.takeKey.2.evTurn = s.evTurn := rfl
@[simp] theorem State.takeKey_evLast (s : State) : s.takeKey.2.evLast = s.evLast := rfl
@[simp] theorem State.takeKey_fresh (s : State) : s.takeKey.2.fresh = s.fresh + 1 := rfl
@[simp] theorem State.takeKey_free (s : State) : s.takeKey.2.free = s.free := rfl

@[simp] theorem Grp.setSlot_false_uid (g : Grp) (x : Slot) : (g.setSlot false x).uid = g.uid := rfl
@[simp] theorem Grp.updSlot_false_uid (g : Grp) (h : Slot → Slot) : (g.updSlot false h).uid = g.uid := rfl
@[simp] theorem Grp.setSlot_false_gang (g : Grp) (x : Slot) : (g.setSlot false x).gang = g.gang := rfl
@[simp] theorem Grp.updSlot_false_gang (g : Grp) (h : Slot → Slot) : (g.updSlot false h).gang = g.gang := rfl
@[simp] theorem Grp.setSlot_false_launch (g : Grp) (x : Slot) : (g.setSlot false x).launch = g.launch := rfl
@[simp] theorem Grp.updSlot_false_launch (g : Grp) (h : Slot → Slot) : (g.updSlot false h).launch = g.launch := rfl
@[simp] theorem Grp.setSlot_false_part (g : Grp) (x : Slot) : (g.setSlot false x).part = g.part := rfl
@[simp] theorem Grp.updSlot_false_part (g : Grp) (h : Slot → Slot) : (g.updSlot false h).part = g.part := rfl
@[simp] theorem Grp.setSlot_false_system (g : Grp) (x : Slot) : (g.setSlot false x).system = g.system := rfl
@[simp] theorem Grp.updSlot_false_system (g : Grp) (h : Slot → Slot) : (g.updSlot false h).system = g.system := rfl
@[simp] theorem Grp.setSlot_false_groupNo (g : Grp) (x : Slot) : (g.setSlot false x).groupNo = g.groupNo := rfl
@[simp] theorem Grp.updSlot_false_groupNo (g : Grp) (h : Slot → Slot) : (g.updSlot false h).groupNo = g.groupNo := rfl
@[simp] theorem Grp.setSlot_false_block (g : Grp) (x : Slot) : (g.setSlot false x).block = g.block := rfl
@[simp] theorem Grp.updSlot_false_block (g : Grp) (h : Slot → Slot) : (g.updSlot false h).block = g.block := rfl
@[simp] theorem Grp.setSlot_false_gangB (g : Grp) (x : Slot) : (g.setSlot false x).gangB = g.gangB := rfl
@[simp] theorem Grp.updSlot_false_gangB (g : Grp) (h : Slot → Slot) : (g.updSlot false h).gangB = g.gangB := rfl
@[simp] theorem Grp.setSlot_false_gangNo (g : Grp) (x : Slot) : (g.setSlot false x).gangNo = g.gangNo := rfl
@[simp] theorem Grp.updSlot_false_gangNo (g : Grp) (h : Slot → Slot) : (g.updSlot false h).gangNo = g.gangNo := rfl
@[simp] theorem Grp.setSlot_false_nGroup (g : Grp) (x : Slot) : (g.setSlot false x).nGroup = g.nGroup := rfl
@[simp] theorem Grp.updSlot_false_nGroup (g : Grp) (h : Slot → Slot) : (g.updSlot false h).nGroup = g.nGroup := rfl
@[simp] theorem Grp.setSlot_false_core (g : Grp) (x : Slot) : (g.setSlot false x).core = g.core := rfl
@[simp] theorem Grp.updSlot_false_core (g : Grp) (h : Slot → Slot) : (g.updSlot false h).core = g.core := rfl
@[simp] theorem Grp.setSlot_false_coreIdx (g : Grp) (x : Slot) : (g.setSlot false x).coreIdx = g.coreIdx := rfl
@[simp] theorem Grp.updSlot_false_coreIdx (g : Grp) (h : Slot → Slot) : (g.updSlot false h).coreIdx = g.coreIdx := rfl
@[simp] theorem Grp.setSlot_false_imgSlot (g : Grp) (x : Slot) : (g.setSlot false x).imgSlot = g.imgSlot := rfl
@[simp] theorem Grp.updSlot_false_imgSlot (g : Grp) (h : Slot → Slot) : (g.updSlot false h).imgSlot = g.imgSlot := rfl
@[simp] theorem Grp.setSlot_false_imgBase (g : Grp) (x : Slot) : (g.setSlot false x).imgBase = g.imgBase := rfl
@[simp] theorem Grp.updSlot_false_imgBase (g : Grp) (h : Slot → Slot) : (g.updSlot false h).imgBase = g.imgBase := rfl
@[simp] theorem Grp.setSlot_false_place (g : Grp) (x : Slot) : (g.setSlot false x).place = g.place := rfl
@[simp] theorem Grp.updSlot_false_place (g : Grp) (h : Slot → Slot) : (g.updSlot false h).place = g.place := rfl
@[simp] theorem Grp.setSlot_false_preempt (g : Grp) (x : Slot) : (g.setSlot false x).preempt = g.preempt := rfl
@[simp] theorem Grp.updSlot_false_preempt (g : Grp) (h : Slot → Slot) : (g.updSlot false h).preempt = g.preempt := rfl
@[simp] theorem Grp.setSlot_false_book (g : Grp) (x : Slot) : (g.setSlot false x).book = g.book := rfl
@[simp] theorem Grp.updSlot_false_book (g : Grp) (h : Slot → Slot) : (g.updSlot false h).book = g.book := rfl
@[simp] theorem Grp.setSlot_false_started (g : Grp) (x : Slot) : (g.setSlot false x).started = g.started := rfl
@[simp] theorem Grp.updSlot_false_started (g : Grp) (h : Slot → Slot) : (g.updSlot false h).started = g.started := rfl
@[simp] theorem Grp.setSlot_false_slot0 (g : Grp) (x : Slot) : (g.setSlot false x).slot0 = x := rfl
@[simp] theorem Grp.updSlot_false_slot0 (g : Grp) (h : Slot → Slot) : (g.updSlot false h).slot0 = h g.slot0 := rfl
@[simp] theorem Grp.setSlot_false_slot1 (g : Grp) (x : Slot) : (g.setSlot false x).slot1 = g.slot1 := rfl
@[simp] theorem Grp.updSlot_false_slot1 (g : Grp) (h : Slot → Slot) : (g.updSlot false h).slot1 = g.slot1 := rfl
@[simp] theorem Grp.setSlot_false_stack (g : Grp) (x : Slot) : (g.setSlot false x).stack = g.stack := rfl
@[simp] theorem Grp.updSlot_false_stack (g : Grp) (h : Slot → Slot) : (g.updSlot false h).stack = g.stack := rfl
@[simp] theorem Grp.setSlot_false_trapInfo (g : Grp) (x : Slot) : (g.setSlot false x).trapInfo = g.trapInfo := rfl
@[simp] theorem Grp.updSlot_false_trapInfo (g : Grp) (h : Slot → Slot) : (g.updSlot false h).trapInfo = g.trapInfo := rfl
@[simp] theorem Grp.setSlot_false_trapPc (g : Grp) (x : Slot) : (g.setSlot false x).trapPc = g.trapPc := rfl
@[simp] theorem Grp.updSlot_false_trapPc (g : Grp) (h : Slot → Slot) : (g.updSlot false h).trapPc = g.trapPc := rfl
@[simp] theorem Grp.setSlot_false_trapSlot (g : Grp) (x : Slot) : (g.setSlot false x).trapSlot = g.trapSlot := rfl
@[simp] theorem Grp.updSlot_false_trapSlot (g : Grp) (h : Slot → Slot) : (g.updSlot false h).trapSlot = g.trapSlot := rfl
@[simp] theorem Grp.setSlot_false_savedMode (g : Grp) (x : Slot) : (g.setSlot false x).savedMode = g.savedMode := rfl
@[simp] theorem Grp.updSlot_false_savedMode (g : Grp) (h : Slot → Slot) : (g.updSlot false h).savedMode = g.savedMode := rfl
@[simp] theorem Grp.setSlot_false_pts (g : Grp) (x : Slot) : (g.setSlot false x).pts = g.pts := rfl
@[simp] theorem Grp.updSlot_false_pts (g : Grp) (h : Slot → Slot) : (g.updSlot false h).pts = g.pts := rfl
@[simp] theorem Grp.setSlot_false_ord (g : Grp) (x : Slot) : (g.setSlot false x).ord = g.ord := rfl
@[simp] theorem Grp.updSlot_false_ord (g : Grp) (h : Slot → Slot) : (g.updSlot false h).ord = g.ord := rfl
@[simp] theorem Grp.setSlot_false_sig (g : Grp) (x : Slot) : (g.setSlot false x).sig = g.sig := rfl
@[simp] theorem Grp.updSlot_false_sig (g : Grp) (h : Slot → Slot) : (g.updSlot false h).sig = g.sig := rfl
@[simp] theorem Grp.setSlot_false_faultVa (g : Grp) (x : Slot) : (g.setSlot false x).faultVa = g.faultVa := rfl
@[simp] theorem Grp.updSlot_false_faultVa (g : Grp) (h : Slot → Slot) : (g.updSlot false h).faultVa = g.faultVa := rfl
@[simp] theorem Grp.setSlot_false_faultInfo (g : Grp) (x : Slot) : (g.setSlot false x).faultInfo = g.faultInfo := rfl
@[simp] theorem Grp.updSlot_false_faultInfo (g : Grp) (h : Slot → Slot) : (g.updSlot false h).faultInfo = g.faultInfo := rfl
@[simp] theorem Grp.setSlot_false_v (g : Grp) (x : Slot) : (g.setSlot false x).v = g.v := rfl
@[simp] theorem Grp.updSlot_false_v (g : Grp) (h : Slot → Slot) : (g.updSlot false h).v = g.v := rfl
@[simp] theorem Grp.setSlot_false_s (g : Grp) (x : Slot) : (g.setSlot false x).s = g.s := rfl
@[simp] theorem Grp.updSlot_false_s (g : Grp) (h : Slot → Slot) : (g.updSlot false h).s = g.s := rfl
@[simp] theorem Grp.setSlot_false_p (g : Grp) (x : Slot) : (g.setSlot false x).p = g.p := rfl
@[simp] theorem Grp.updSlot_false_p (g : Grp) (h : Slot → Slot) : (g.updSlot false h).p = g.p := rfl
@[simp] theorem Grp.setSlot_false_w (g : Grp) (x : Slot) : (g.setSlot false x).w = g.w := rfl
@[simp] theorem Grp.updSlot_false_w (g : Grp) (h : Slot → Slot) : (g.updSlot false h).w = g.w := rfl
@[simp] theorem Grp.setSlot_false_h (g : Grp) (x : Slot) : (g.setSlot false x).h = g.h := rfl
@[simp] theorem Grp.updSlot_false_h (g : Grp) (h : Slot → Slot) : (g.updSlot false h).h = g.h := rfl
@[simp] theorem Grp.setSlot_false_q (g : Grp) (x : Slot) : (g.setSlot false x).q = g.q := rfl
@[simp] theorem Grp.updSlot_false_q (g : Grp) (h : Slot → Slot) : (g.updSlot false h).q = g.q := rfl
@[simp] theorem Grp.setSlot_false_arr (g : Grp) (x : Slot) : (g.setSlot false x).arr = g.arr := rfl
@[simp] theorem Grp.updSlot_false_arr (g : Grp) (h : Slot → Slot) : (g.updSlot false h).arr = g.arr := rfl
@[simp] theorem Grp.setSlot_false_fence (g : Grp) (x : Slot) : (g.setSlot false x).fence = g.fence := rfl
@[simp] theorem Grp.updSlot_false_fence (g : Grp) (h : Slot → Slot) : (g.updSlot false h).fence = g.fence := rfl
@[simp] theorem Grp.setSlot_false_lastSlot1 (g : Grp) (x : Slot) : (g.setSlot false x).lastSlot1 = g.lastSlot1 := rfl
@[simp] theorem Grp.updSlot_false_lastSlot1 (g : Grp) (h : Slot → Slot) : (g.updSlot false h).lastSlot1 = g.lastSlot1 := rfl
@[simp] theorem Grp.setSlot_false_ptsSince (g : Grp) (x : Slot) : (g.setSlot false x).ptsSince = g.ptsSince := rfl
@[simp] theorem Grp.updSlot_false_ptsSince (g : Grp) (h : Slot → Slot) : (g.updSlot false h).ptsSince = g.ptsSince := rfl
@[simp] theorem Grp.setSlot_false_ptsAcc (g : Grp) (x : Slot) : (g.setSlot false x).ptsAcc = g.ptsAcc := rfl
@[simp] theorem Grp.updSlot_false_ptsAcc (g : Grp) (h : Slot → Slot) : (g.updSlot false h).ptsAcc = g.ptsAcc := rfl
@[simp] theorem Grp.setSlot_false_cpyTime (g : Grp) (x : Slot) : (g.setSlot false x).cpyTime = g.cpyTime := rfl
@[simp] theorem Grp.updSlot_false_cpyTime (g : Grp) (h : Slot → Slot) : (g.updSlot false h).cpyTime = g.cpyTime := rfl
@[simp] theorem Grp.setSlot_false_since (g : Grp) (x : Slot) : (g.setSlot false x).since = g.since := rfl
@[simp] theorem Grp.updSlot_false_since (g : Grp) (h : Slot → Slot) : (g.updSlot false h).since = g.since := rfl
@[simp] theorem Grp.setSlot_false_copied (g : Grp) (x : Slot) : (g.setSlot false x).copied = g.copied := rfl
@[simp] theorem Grp.updSlot_false_copied (g : Grp) (h : Slot → Slot) : (g.updSlot false h).copied = g.copied := rfl
@[simp] theorem Grp.setSlot_false_twin (g : Grp) (x : Slot) : (g.setSlot false x).twin = g.twin := rfl
@[simp] theorem Grp.updSlot_false_twin (g : Grp) (h : Slot → Slot) : (g.updSlot false h).twin = g.twin := rfl
@[simp] theorem Grp.setSlot_false_solo (g : Grp) (x : Slot) : (g.setSlot false x).solo = g.solo := rfl
@[simp] theorem Grp.updSlot_false_solo (g : Grp) (h : Slot → Slot) : (g.updSlot false h).solo = g.solo := rfl
@[simp] theorem Grp.setSlot_false_under (g : Grp) (x : Slot) : (g.setSlot false x).under = g.under := rfl
@[simp] theorem Grp.updSlot_false_under (g : Grp) (h : Slot → Slot) : (g.updSlot false h).under = g.under := rfl
@[simp] theorem Grp.setSlot_false_held (g : Grp) (x : Slot) : (g.setSlot false x).held = g.held := rfl
@[simp] theorem Grp.updSlot_false_held (g : Grp) (h : Slot → Slot) : (g.updSlot false h).held = g.held := rfl
@[simp] theorem Grp.setSlot_false_scenes (g : Grp) (x : Slot) : (g.setSlot false x).scenes = g.scenes := rfl
@[simp] theorem Grp.updSlot_false_scenes (g : Grp) (h : Slot → Slot) : (g.updSlot false h).scenes = g.scenes := rfl
@[simp] theorem Grp.setSlot_false_evCmp (g : Grp) (x : Slot) : (g.setSlot false x).evCmp = g.evCmp := rfl
@[simp] theorem Grp.updSlot_false_evCmp (g : Grp) (h : Slot → Slot) : (g.updSlot false h).evCmp = g.evCmp := rfl
@[simp] theorem Grp.setSlot_false_points (g : Grp) (x : Slot) : (g.setSlot false x).points = g.points := rfl
@[simp] theorem Grp.updSlot_false_points (g : Grp) (h : Slot → Slot) : (g.updSlot false h).points = g.points := rfl
@[simp] theorem Grp.setSlot_true_uid (g : Grp) (x : Slot) : (g.setSlot true x).uid = g.uid := rfl
@[simp] theorem Grp.updSlot_true_uid (g : Grp) (h : Slot → Slot) : (g.updSlot true h).uid = g.uid := rfl
@[simp] theorem Grp.setSlot_true_gang (g : Grp) (x : Slot) : (g.setSlot true x).gang = g.gang := rfl
@[simp] theorem Grp.updSlot_true_gang (g : Grp) (h : Slot → Slot) : (g.updSlot true h).gang = g.gang := rfl
@[simp] theorem Grp.setSlot_true_launch (g : Grp) (x : Slot) : (g.setSlot true x).launch = g.launch := rfl
@[simp] theorem Grp.updSlot_true_launch (g : Grp) (h : Slot → Slot) : (g.updSlot true h).launch = g.launch := rfl
@[simp] theorem Grp.setSlot_true_part (g : Grp) (x : Slot) : (g.setSlot true x).part = g.part := rfl
@[simp] theorem Grp.updSlot_true_part (g : Grp) (h : Slot → Slot) : (g.updSlot true h).part = g.part := rfl
@[simp] theorem Grp.setSlot_true_system (g : Grp) (x : Slot) : (g.setSlot true x).system = g.system := rfl
@[simp] theorem Grp.updSlot_true_system (g : Grp) (h : Slot → Slot) : (g.updSlot true h).system = g.system := rfl
@[simp] theorem Grp.setSlot_true_groupNo (g : Grp) (x : Slot) : (g.setSlot true x).groupNo = g.groupNo := rfl
@[simp] theorem Grp.updSlot_true_groupNo (g : Grp) (h : Slot → Slot) : (g.updSlot true h).groupNo = g.groupNo := rfl
@[simp] theorem Grp.setSlot_true_block (g : Grp) (x : Slot) : (g.setSlot true x).block = g.block := rfl
@[simp] theorem Grp.updSlot_true_block (g : Grp) (h : Slot → Slot) : (g.updSlot true h).block = g.block := rfl
@[simp] theorem Grp.setSlot_true_gangB (g : Grp) (x : Slot) : (g.setSlot true x).gangB = g.gangB := rfl
@[simp] theorem Grp.updSlot_true_gangB (g : Grp) (h : Slot → Slot) : (g.updSlot true h).gangB = g.gangB := rfl
@[simp] theorem Grp.setSlot_true_gangNo (g : Grp) (x : Slot) : (g.setSlot true x).gangNo = g.gangNo := rfl
@[simp] theorem Grp.updSlot_true_gangNo (g : Grp) (h : Slot → Slot) : (g.updSlot true h).gangNo = g.gangNo := rfl
@[simp] theorem Grp.setSlot_true_nGroup (g : Grp) (x : Slot) : (g.setSlot true x).nGroup = g.nGroup := rfl
@[simp] theorem Grp.updSlot_true_nGroup (g : Grp) (h : Slot → Slot) : (g.updSlot true h).nGroup = g.nGroup := rfl
@[simp] theorem Grp.setSlot_true_core (g : Grp) (x : Slot) : (g.setSlot true x).core = g.core := rfl
@[simp] theorem Grp.updSlot_true_core (g : Grp) (h : Slot → Slot) : (g.updSlot true h).core = g.core := rfl
@[simp] theorem Grp.setSlot_true_coreIdx (g : Grp) (x : Slot) : (g.setSlot true x).coreIdx = g.coreIdx := rfl
@[simp] theorem Grp.updSlot_true_coreIdx (g : Grp) (h : Slot → Slot) : (g.updSlot true h).coreIdx = g.coreIdx := rfl
@[simp] theorem Grp.setSlot_true_imgSlot (g : Grp) (x : Slot) : (g.setSlot true x).imgSlot = g.imgSlot := rfl
@[simp] theorem Grp.updSlot_true_imgSlot (g : Grp) (h : Slot → Slot) : (g.updSlot true h).imgSlot = g.imgSlot := rfl
@[simp] theorem Grp.setSlot_true_imgBase (g : Grp) (x : Slot) : (g.setSlot true x).imgBase = g.imgBase := rfl
@[simp] theorem Grp.updSlot_true_imgBase (g : Grp) (h : Slot → Slot) : (g.updSlot true h).imgBase = g.imgBase := rfl
@[simp] theorem Grp.setSlot_true_place (g : Grp) (x : Slot) : (g.setSlot true x).place = g.place := rfl
@[simp] theorem Grp.updSlot_true_place (g : Grp) (h : Slot → Slot) : (g.updSlot true h).place = g.place := rfl
@[simp] theorem Grp.setSlot_true_preempt (g : Grp) (x : Slot) : (g.setSlot true x).preempt = g.preempt := rfl
@[simp] theorem Grp.updSlot_true_preempt (g : Grp) (h : Slot → Slot) : (g.updSlot true h).preempt = g.preempt := rfl
@[simp] theorem Grp.setSlot_true_book (g : Grp) (x : Slot) : (g.setSlot true x).book = g.book := rfl
@[simp] theorem Grp.updSlot_true_book (g : Grp) (h : Slot → Slot) : (g.updSlot true h).book = g.book := rfl
@[simp] theorem Grp.setSlot_true_started (g : Grp) (x : Slot) : (g.setSlot true x).started = g.started := rfl
@[simp] theorem Grp.updSlot_true_started (g : Grp) (h : Slot → Slot) : (g.updSlot true h).started = g.started := rfl
@[simp] theorem Grp.setSlot_true_slot0 (g : Grp) (x : Slot) : (g.setSlot true x).slot0 = g.slot0 := rfl
@[simp] theorem Grp.updSlot_true_slot0 (g : Grp) (h : Slot → Slot) : (g.updSlot true h).slot0 = g.slot0 := rfl
@[simp] theorem Grp.setSlot_true_slot1 (g : Grp) (x : Slot) : (g.setSlot true x).slot1 = x := rfl
@[simp] theorem Grp.updSlot_true_slot1 (g : Grp) (h : Slot → Slot) : (g.updSlot true h).slot1 = h g.slot1 := rfl
@[simp] theorem Grp.setSlot_true_stack (g : Grp) (x : Slot) : (g.setSlot true x).stack = g.stack := rfl
@[simp] theorem Grp.updSlot_true_stack (g : Grp) (h : Slot → Slot) : (g.updSlot true h).stack = g.stack := rfl
@[simp] theorem Grp.setSlot_true_trapInfo (g : Grp) (x : Slot) : (g.setSlot true x).trapInfo = g.trapInfo := rfl
@[simp] theorem Grp.updSlot_true_trapInfo (g : Grp) (h : Slot → Slot) : (g.updSlot true h).trapInfo = g.trapInfo := rfl
@[simp] theorem Grp.setSlot_true_trapPc (g : Grp) (x : Slot) : (g.setSlot true x).trapPc = g.trapPc := rfl
@[simp] theorem Grp.updSlot_true_trapPc (g : Grp) (h : Slot → Slot) : (g.updSlot true h).trapPc = g.trapPc := rfl
@[simp] theorem Grp.setSlot_true_trapSlot (g : Grp) (x : Slot) : (g.setSlot true x).trapSlot = g.trapSlot := rfl
@[simp] theorem Grp.updSlot_true_trapSlot (g : Grp) (h : Slot → Slot) : (g.updSlot true h).trapSlot = g.trapSlot := rfl
@[simp] theorem Grp.setSlot_true_savedMode (g : Grp) (x : Slot) : (g.setSlot true x).savedMode = g.savedMode := rfl
@[simp] theorem Grp.updSlot_true_savedMode (g : Grp) (h : Slot → Slot) : (g.updSlot true h).savedMode = g.savedMode := rfl
@[simp] theorem Grp.setSlot_true_pts (g : Grp) (x : Slot) : (g.setSlot true x).pts = g.pts := rfl
@[simp] theorem Grp.updSlot_true_pts (g : Grp) (h : Slot → Slot) : (g.updSlot true h).pts = g.pts := rfl
@[simp] theorem Grp.setSlot_true_ord (g : Grp) (x : Slot) : (g.setSlot true x).ord = g.ord := rfl
@[simp] theorem Grp.updSlot_true_ord (g : Grp) (h : Slot → Slot) : (g.updSlot true h).ord = g.ord := rfl
@[simp] theorem Grp.setSlot_true_sig (g : Grp) (x : Slot) : (g.setSlot true x).sig = g.sig := rfl
@[simp] theorem Grp.updSlot_true_sig (g : Grp) (h : Slot → Slot) : (g.updSlot true h).sig = g.sig := rfl
@[simp] theorem Grp.setSlot_true_faultVa (g : Grp) (x : Slot) : (g.setSlot true x).faultVa = g.faultVa := rfl
@[simp] theorem Grp.updSlot_true_faultVa (g : Grp) (h : Slot → Slot) : (g.updSlot true h).faultVa = g.faultVa := rfl
@[simp] theorem Grp.setSlot_true_faultInfo (g : Grp) (x : Slot) : (g.setSlot true x).faultInfo = g.faultInfo := rfl
@[simp] theorem Grp.updSlot_true_faultInfo (g : Grp) (h : Slot → Slot) : (g.updSlot true h).faultInfo = g.faultInfo := rfl
@[simp] theorem Grp.setSlot_true_v (g : Grp) (x : Slot) : (g.setSlot true x).v = g.v := rfl
@[simp] theorem Grp.updSlot_true_v (g : Grp) (h : Slot → Slot) : (g.updSlot true h).v = g.v := rfl
@[simp] theorem Grp.setSlot_true_s (g : Grp) (x : Slot) : (g.setSlot true x).s = g.s := rfl
@[simp] theorem Grp.updSlot_true_s (g : Grp) (h : Slot → Slot) : (g.updSlot true h).s = g.s := rfl
@[simp] theorem Grp.setSlot_true_p (g : Grp) (x : Slot) : (g.setSlot true x).p = g.p := rfl
@[simp] theorem Grp.updSlot_true_p (g : Grp) (h : Slot → Slot) : (g.updSlot true h).p = g.p := rfl
@[simp] theorem Grp.setSlot_true_w (g : Grp) (x : Slot) : (g.setSlot true x).w = g.w := rfl
@[simp] theorem Grp.updSlot_true_w (g : Grp) (h : Slot → Slot) : (g.updSlot true h).w = g.w := rfl
@[simp] theorem Grp.setSlot_true_h (g : Grp) (x : Slot) : (g.setSlot true x).h = g.h := rfl
@[simp] theorem Grp.updSlot_true_h (g : Grp) (h : Slot → Slot) : (g.updSlot true h).h = g.h := rfl
@[simp] theorem Grp.setSlot_true_q (g : Grp) (x : Slot) : (g.setSlot true x).q = g.q := rfl
@[simp] theorem Grp.updSlot_true_q (g : Grp) (h : Slot → Slot) : (g.updSlot true h).q = g.q := rfl
@[simp] theorem Grp.setSlot_true_arr (g : Grp) (x : Slot) : (g.setSlot true x).arr = g.arr := rfl
@[simp] theorem Grp.updSlot_true_arr (g : Grp) (h : Slot → Slot) : (g.updSlot true h).arr = g.arr := rfl
@[simp] theorem Grp.setSlot_true_fence (g : Grp) (x : Slot) : (g.setSlot true x).fence = g.fence := rfl
@[simp] theorem Grp.updSlot_true_fence (g : Grp) (h : Slot → Slot) : (g.updSlot true h).fence = g.fence := rfl
@[simp] theorem Grp.setSlot_true_lastSlot1 (g : Grp) (x : Slot) : (g.setSlot true x).lastSlot1 = g.lastSlot1 := rfl
@[simp] theorem Grp.updSlot_true_lastSlot1 (g : Grp) (h : Slot → Slot) : (g.updSlot true h).lastSlot1 = g.lastSlot1 := rfl
@[simp] theorem Grp.setSlot_true_ptsSince (g : Grp) (x : Slot) : (g.setSlot true x).ptsSince = g.ptsSince := rfl
@[simp] theorem Grp.updSlot_true_ptsSince (g : Grp) (h : Slot → Slot) : (g.updSlot true h).ptsSince = g.ptsSince := rfl
@[simp] theorem Grp.setSlot_true_ptsAcc (g : Grp) (x : Slot) : (g.setSlot true x).ptsAcc = g.ptsAcc := rfl
@[simp] theorem Grp.updSlot_true_ptsAcc (g : Grp) (h : Slot → Slot) : (g.updSlot true h).ptsAcc = g.ptsAcc := rfl
@[simp] theorem Grp.setSlot_true_cpyTime (g : Grp) (x : Slot) : (g.setSlot true x).cpyTime = g.cpyTime := rfl
@[simp] theorem Grp.updSlot_true_cpyTime (g : Grp) (h : Slot → Slot) : (g.updSlot true h).cpyTime = g.cpyTime := rfl
@[simp] theorem Grp.setSlot_true_since (g : Grp) (x : Slot) : (g.setSlot true x).since = g.since := rfl
@[simp] theorem Grp.updSlot_true_since (g : Grp) (h : Slot → Slot) : (g.updSlot true h).since = g.since := rfl
@[simp] theorem Grp.setSlot_true_copied (g : Grp) (x : Slot) : (g.setSlot true x).copied = g.copied := rfl
@[simp] theorem Grp.updSlot_true_copied (g : Grp) (h : Slot → Slot) : (g.updSlot true h).copied = g.copied := rfl
@[simp] theorem Grp.setSlot_true_twin (g : Grp) (x : Slot) : (g.setSlot true x).twin = g.twin := rfl
@[simp] theorem Grp.updSlot_true_twin (g : Grp) (h : Slot → Slot) : (g.updSlot true h).twin = g.twin := rfl
@[simp] theorem Grp.setSlot_true_solo (g : Grp) (x : Slot) : (g.setSlot true x).solo = g.solo := rfl
@[simp] theorem Grp.updSlot_true_solo (g : Grp) (h : Slot → Slot) : (g.updSlot true h).solo = g.solo := rfl
@[simp] theorem Grp.setSlot_true_under (g : Grp) (x : Slot) : (g.setSlot true x).under = g.under := rfl
@[simp] theorem Grp.updSlot_true_under (g : Grp) (h : Slot → Slot) : (g.updSlot true h).under = g.under := rfl
@[simp] theorem Grp.setSlot_true_held (g : Grp) (x : Slot) : (g.setSlot true x).held = g.held := rfl
@[simp] theorem Grp.updSlot_true_held (g : Grp) (h : Slot → Slot) : (g.updSlot true h).held = g.held := rfl
@[simp] theorem Grp.setSlot_true_scenes (g : Grp) (x : Slot) : (g.setSlot true x).scenes = g.scenes := rfl
@[simp] theorem Grp.updSlot_true_scenes (g : Grp) (h : Slot → Slot) : (g.updSlot true h).scenes = g.scenes := rfl
@[simp] theorem Grp.setSlot_true_evCmp (g : Grp) (x : Slot) : (g.setSlot true x).evCmp = g.evCmp := rfl
@[simp] theorem Grp.updSlot_true_evCmp (g : Grp) (h : Slot → Slot) : (g.updSlot true h).evCmp = g.evCmp := rfl
@[simp] theorem Grp.setSlot_true_points (g : Grp) (x : Slot) : (g.setSlot true x).points = g.points := rfl
@[simp] theorem Grp.updSlot_true_points (g : Grp) (h : Slot → Slot) : (g.updSlot true h).points = g.points := rfl

end Sys2Proof.Machine
end

