-- ==== Sys2Proof/Laws/Memory.lean ====
section
/-! SUPPORT. The tables and the memory: what a write leaves at every key and address, and the form of memory that every operation
keeps (R5, log 2). -/

namespace Sys2Proof.Machine

/-! Tables. -/

@[simp] theorem tget_tset_same {α : Type} (t : Tbl α) (k : Nat) (x d : α) : tget (tset t k x) k d = x := by simp [tset, tget]

theorem tget_filter {α : Type} (t : Tbl α) (k : Nat) (d : α) (p : Nat × α → Bool) (h : ∀ x, p (k, x) = true) :
    tget (t.filter p) k d = tget t k d := by
  induction t with
  | nil => rfl
  | cons e r ih =>
    obtain ⟨j, y⟩ := e
    by_cases hj : j = k
    · subst hj; simp [List.filter_cons, h, tget]
    · by_cases hp : p (j, y) = true
      · simp [List.filter_cons, hp, tget, hj, ih]
      · simp [List.filter_cons, hp, tget, hj, ih]

@[simp] theorem tget_tset_other {α : Type} (t : Tbl α) (k j : Nat) (x d : α) (h : j ≠ k) : tget (tset t k x) j d = tget t j d := by
  simp only [tset, tget]
  rw [if_neg (fun e => h e.symm)]
  exact tget_filter t j d _ (by simp [h])

theorem tfind_filter {α : Type} (t : Tbl α) (k : Nat) (p : Nat × α → Bool) (h : ∀ x, p (k, x) = true) :
    tfind (t.filter p) k = tfind t k := by
  induction t with
  | nil => rfl
  | cons e r ih =>
    obtain ⟨j, y⟩ := e
    by_cases hj : j = k
    · subst hj; simp [List.filter_cons, h, tfind]
    · by_cases hp : p (j, y) = true
      · simp [List.filter_cons, hp, tfind, hj, ih]
      · simp [List.filter_cons, hp, tfind, hj, ih]

@[simp] theorem tfind_tset_same {α : Type} (t : Tbl α) (k : Nat) (x : α) : tfind (tset t k x) k = some x := by simp [tset, tfind]

@[simp] theorem tfind_tset_other {α : Type} (t : Tbl α) (k j : Nat) (x : α) (h : j ≠ k) : tfind (tset t k x) j = tfind t j := by
  simp only [tset, tfind]
  rw [if_neg (fun e => h e.symm)]
  exact tfind_filter t j _ (by simp [h])

@[simp] theorem tfind_terase_same {α : Type} (t : Tbl α) (k : Nat) : tfind (terase t k) k = none := by
  induction t with
  | nil => rfl
  | cons e r ih =>
    obtain ⟨j, y⟩ := e
    simp only [terase, ne_eq, decide_not] at ih ⊢
    by_cases hj : j = k <;> simp [List.filter_cons, tfind, hj, ih]

@[simp] theorem tfind_terase_other {α : Type} (t : Tbl α) (k j : Nat) (h : j ≠ k) : tfind (terase t k) j = tfind t j :=
  tfind_filter t j _ (by simp [h])

/-! The parts of the state by key. -/

@[simp] theorem State.core_setCore (s : State) (c : Nat) (x : CoreState) : (s.setCore c x).core c = x := by
  simp [State.core]
@[simp] theorem State.core_setCore_other (s : State) (c d : Nat) (x : CoreState) (h : d ≠ c) : (s.setCore c x).core d = s.core d := by
  simp [State.core, h]
@[simp] theorem State.core_updCore (s : State) (c : Nat) (f : CoreState → CoreState) : (s.updCore c f).core c = f (s.core c) := by
  simp [State.updCore]
@[simp] theorem State.core_updCore_other (s : State) (c d : Nat) (f : CoreState → CoreState) (h : d ≠ c) :
    (s.updCore c f).core d = s.core d := by simp [State.updCore, h]
@[simp] theorem State.die_setDie (s : State) (d : Nat) (x : DieState) : (s.setDie d x).die d = x := by simp [State.die]
@[simp] theorem State.die_setDie_other (s : State) (c d : Nat) (x : DieState) (h : d ≠ c) : (s.setDie c x).die d = s.die d := by
  simp [State.die, h]
@[simp] theorem State.die_updDie (s : State) (d : Nat) (f : DieState → DieState) : (s.updDie d f).die d = f (s.die d) := by
  simp [State.updDie]
@[simp] theorem State.die_updDie_other (s : State) (c d : Nat) (f : DieState → DieState) (h : d ≠ c) :
    (s.updDie c f).die d = s.die d := by simp [State.updDie, h]
@[simp] theorem State.part_setPart (s : State) (p : Nat) (x : PartState) : (s.setPart p x).part p = x := by simp [State.part]
@[simp] theorem State.part_setPart_other (s : State) (p q : Nat) (x : PartState) (h : q ≠ p) : (s.setPart p x).part q = s.part q := by
  simp [State.part, h]
@[simp] theorem State.part_updPart (s : State) (p : Nat) (f : PartState → PartState) : (s.updPart p f).part p = f (s.part p) := by
  simp [State.updPart]
@[simp] theorem State.part_updPart_other (s : State) (p q : Nat) (f : PartState → PartState) (h : q ≠ p) :
    (s.updPart p f).part q = s.part q := by simp [State.updPart, h]

/-- The first element with a property, after that element was replaced by one that has it too. -/
theorem find_updFirst {α : Type} {p : α → Bool} {f : α → α} {xs : List α} {x : α} (hf : p (f x) = true)
    (h : xs.find? p = some x) : (updFirst p f xs).find? p = some (f x) := by
  induction xs with
  | nil => simp at h
  | cons y r ih =>
    by_cases hy : p y = true
    · simp [List.find?, hy] at h; subst h; simp [updFirst, hy, List.find?, hf]
    · have hy' : p y = false := by simpa using hy
      simp [List.find?, hy'] at h; simp [updFirst, hy', List.find?, ih h]

/-- What another property finds is left. -/
theorem find_updFirst_other {α : Type} {p q : α → Bool} {f : α → α} {xs : List α} (hf : ∀ x, p x = true → q x = false)
    (hg : ∀ x, p x = true → q (f x) = false) : (updFirst p f xs).find? q = xs.find? q := by
  induction xs with
  | nil => rfl
  | cons y r ih =>
    by_cases hy : p y = true
    · simp [updFirst, hy, List.find?, hf y hy, hg y hy]
    · have hy' : p y = false := by simpa using hy
      simp [updFirst, hy', List.find?, ih]

theorem State.grp_updGrp {s : State} {u : Nat} {f : Grp → Grp} {g : Grp} (h : s.grp u = some g) (hf : (f g).uid = u) :
    (s.updGrp u f).grp u = some (f g) := find_updFirst (by simp [hf]) h

theorem State.grp_updGrp_other {s : State} {u v : Nat} {f : Grp → Grp} (h : v ≠ u) (hf : ∀ g, g.uid = u → (f g).uid = u) :
    (s.updGrp u f).grp v = s.grp v := by
  refine find_updFirst_other (fun x hx => ?_) (fun x hx => ?_) <;> simp at hx ⊢
  · rw [hx]; exact fun e => h e.symm
  · rw [hf x hx]; exact fun e => h e.symm

theorem State.gang_updGang {s : State} {k : Nat} {f : Gang → Gang} {g : Gang} (h : s.gang k = some g) (hf : (f g).id = k) :
    (s.updGang k f).gang k = some (f g) := find_updFirst (by simp [hf]) h

theorem State.launch_updLaunch {s : State} {k : Nat} {f : Launch → Launch} {l : Launch} (h : s.launch k = some l) (hf : (f l).id = k) :
    (s.updLaunch k f).launch k = some (f l) := find_updFirst (by simp [hf]) h

/-- The group a key finds has that key. -/
theorem State.grp_uid {s : State} {u : Nat} {g : Grp} (h : s.grp u = some g) : g.uid = u := by
  simpa using List.find?_some h

/-! Memory. -/

/-- The form of memory as a property of its cells: addresses strictly rising, no cell equal to what an unlisted address reads as. -/
theorem Memory.wf_iff (m : Memory) : Memory.wf m = true ↔ m.Pairwise (fun c d => c.1 < d.1) ∧ ∀ c ∈ m, c.2 ≠ 0#8 := by
  induction m with
  | nil => simp [Memory.wf]
  | cons c r ih =>
    cases r with
    | nil => simp [Memory.wf]
    | cons d r =>
      simp only [Memory.wf, Bool.and_eq_true, ih, bne_iff_ne, decide_eq_true_eq]
      constructor
      · rintro ⟨⟨h0, h1⟩, hp, hz⟩
        refine ⟨List.pairwise_cons.mpr ⟨fun x hx => ?_, hp⟩, fun x hx => ?_⟩
        · rcases List.mem_cons.mp hx with rfl | hx
          · exact h1
          · exact Nat.lt_trans h1 ((List.pairwise_cons.mp hp).1 x hx)
        · rcases List.mem_cons.mp hx with rfl | hx
          · exact h0
          · exact hz x hx
      · rintro ⟨hp, hz⟩
        exact ⟨⟨hz c (by simp), (List.pairwise_cons.mp hp).1 d (by simp)⟩, (List.pairwise_cons.mp hp).2,
          fun x hx => hz x (List.mem_cons_of_mem _ hx)⟩

/-- A cell of a run of bytes: its address is in the run and its byte is none that an unlisted address reads as. -/
theorem mem_cellsOf {bs : List Byte} {a : Nat} {c : Host.Cell} (h : c ∈ cellsOf a bs) : a ≤ c.1 ∧ c.1 < a + bs.length ∧ c.2 ≠ 0#8 := by
  induction bs generalizing a with
  | nil => simp [cellsOf] at h
  | cons b r ih =>
    simp only [cellsOf] at h
    split at h
    · obtain ⟨h1, h2, h3⟩ := ih h; exact ⟨by omega, by simp only [List.length_cons]; omega, h3⟩
    · next hb =>
      rcases List.mem_cons.mp h with rfl | h
      · exact ⟨Nat.le_refl _, by simp, hb⟩
      · obtain ⟨h1, h2, h3⟩ := ih h; exact ⟨by omega, by simp only [List.length_cons]; omega, h3⟩

theorem cellsOf_pairwise (bs : List Byte) (a : Nat) : (cellsOf a bs).Pairwise (fun c d => c.1 < d.1) := by
  induction bs generalizing a with
  | nil => simp [cellsOf]
  | cons b r ih =>
    simp only [cellsOf]
    split
    · exact ih _
    · exact List.pairwise_cons.mpr ⟨fun x hx => (mem_cellsOf hx).1, ih _⟩

/-- The one operation that writes memory keeps its form. -/
theorem Memory.wf_writeRun {m : Memory} (h : Memory.wf m = true) (a : Nat) (bs : List Byte) : Memory.wf (writeRun m a bs) = true := by
  rw [Memory.wf_iff] at h ⊢
  obtain ⟨hp, hz⟩ := h
  refine ⟨?_, fun c hc => ?_⟩
  · simp only [writeRun, List.pairwise_append]
    refine ⟨⟨hp.filter _, cellsOf_pairwise _ _, fun x hx y hy => ?_⟩, hp.filter _, fun x hx y hy => ?_⟩
    · have := mem_cellsOf hy; simp at hx; omega
    · simp at hx hy
      rcases hx with hx | hx
      · omega
      · have := mem_cellsOf hx; omega
  · simp only [writeRun, List.mem_append] at hc
    rcases hc with (hc | hc) | hc
    · exact hz c (List.mem_of_mem_filter hc)
    · exact (mem_cellsOf hc).2.2
    · exact hz c (List.mem_of_mem_filter hc)

theorem Memory.wf_nil : Memory.wf [] = true := rfl

/-- A write of physical memory: nothing, or one run of bytes (R5, R236, R366). -/
theorem State.writePa_cases (s : State) (pa : Nat) (bs : List Byte) :
    s.writePa pa bs = s ∨ s.writePa pa bs = { s with mem := writeRun s.mem pa bs, pois := clearPois s.pois pa bs.length } := by
  simp only [State.writePa]
  split
  · exact .inl rfl
  · exact .inr rfl

theorem Memory.wf_writePa {s : State} (h : Memory.wf s.mem = true) (pa : Nat) (bs : List Byte) :
    Memory.wf (s.writePa pa bs).mem = true := by
  rcases State.writePa_cases s pa bs with e | e <;> rw [e]
  · exact h
  · exact Memory.wf_writeRun h pa bs

/-- A read of a memory whose cells none is at the address. -/
theorem readByte_none {m : Memory} {a : Nat} (h : ∀ c ∈ m, c.1 ≠ a) : readByte m a = 0#8 := by
  induction m with
  | nil => rfl
  | cons c r ih =>
    obtain ⟨b, x⟩ := c
    have : b ≠ a := h (b, x) (by simp)
    simp [readByte, this, ih fun c hc => h c (List.mem_cons_of_mem _ hc)]

theorem readByte_append_right {m n : Memory} {a : Nat} (h : ∀ c ∈ m, c.1 ≠ a) : readByte (m ++ n) a = readByte n a := by
  induction m with
  | nil => rfl
  | cons c r ih =>
    obtain ⟨b, x⟩ := c
    have : b ≠ a := h (b, x) (by simp)
    simp [readByte, this, ih fun c hc => h c (List.mem_cons_of_mem _ hc)]

theorem readByte_append_left {m n : Memory} {a : Nat} (h : ∀ c ∈ n, c.1 ≠ a) : readByte (m ++ n) a = readByte m a := by
  induction m with
  | nil => exact readByte_none h
  | cons c r ih => obtain ⟨b, x⟩ := c; simp [readByte, ih]

theorem readByte_filter {m : Memory} {a : Nat} {p : Host.Cell → Bool} (h : ∀ x, p (a, x) = true) :
    readByte (m.filter p) a = readByte m a := by
  induction m with
  | nil => rfl
  | cons c r ih =>
    obtain ⟨b, x⟩ := c
    by_cases hb : b = a
    · subst hb; simp [List.filter_cons, h, readByte]
    · by_cases hp : p (b, x) = true <;> simp [List.filter_cons, hp, readByte, hb, ih]

/-- A write leaves every other address alone. -/
theorem readByte_writeRun_other (m : Memory) (a : Nat) (bs : List Byte) (b : Nat) (h : b < a ∨ a + bs.length ≤ b) :
    readByte (writeRun m a bs) b = readByte m b := by
  have hc : ∀ c ∈ cellsOf a bs, c.1 ≠ b := fun c hc => by have := mem_cellsOf hc; omega
  rcases h with h | h
  · rw [writeRun, readByte_append_left, readByte_append_left hc, readByte_filter]
    · simpa using h
    · intro c hc; simp at hc; omega
  · rw [writeRun, readByte_append_right, readByte_filter]
    · simpa using h
    · intro c hc'
      rcases List.mem_append.mp hc' with hc' | hc'
      · simp at hc'; omega
      · exact hc c hc'

theorem readByte_cellsOf (bs : List Byte) (a i : Nat) (h : i < bs.length) : readByte (cellsOf a bs) (a + i) = bs[i] := by
  induction bs generalizing a i with
  | nil => simp at h
  | cons b r ih =>
    cases i with
    | zero =>
      simp only [cellsOf]
      split
      · next hb => rw [readByte_none fun c hc => by have := mem_cellsOf hc; omega]; simpa using hb.symm
      · simp [readByte]
    | succ i =>
      have e : a + (i + 1) = a + 1 + i := by omega
      simp only [cellsOf]
      split
      · rw [e]; simpa using ih (a + 1) i (by simpa using h)
      · have : a ≠ a + (i + 1) := by omega
        simp only [readByte, if_neg this]; rw [e]; simpa using ih (a + 1) i (by simpa using h)

/-- A read after a write to the same place gives the value written. -/
theorem readByte_writeRun_same (m : Memory) (a : Nat) (bs : List Byte) (i : Nat) (h : i < bs.length) :
    readByte (writeRun m a bs) (a + i) = bs[i] := by
  rw [writeRun, readByte_append_left, readByte_append_right, readByte_cellsOf bs a i h]
  · intro c hc; simp at hc; omega
  · intro c hc; simp at hc; omega

end Sys2Proof.Machine
end

