-- ==== Sys2Proof/Laws/Frame.lean ====
section
/-! SUPPORT. What every operation of the machine does to memory: it leaves it as it is (the lemmas named _mem), or keeps its form
(those named _form; R5, log 2). A proof opens the operation and goes through its branches; at each one it cites the lemma of the
operation called there. -/

set_option linter.unusedTactic false
set_option linter.unreachableTactic false
set_option linter.unusedSimpArgs false
set_option linter.unusedVariables false

namespace Sys2Proof.Machine

/-- A fold of steps that leave memory leaves memory. -/
theorem foldl_mem {α : Type} {f : State → α → State} (h : ∀ s x, (f s x).mem = s.mem) (s : State) (xs : List α) :
    (xs.foldl f s).mem = s.mem := by
  induction xs generalizing s with
  | nil => rfl
  | cons x r ih => rw [List.foldl_cons, ih, h]

/-- A fold of steps that keep memory's form keeps it. -/
theorem foldl_form {α : Type} {f : State → α → State} (h : ∀ s x, Memory.wf s.mem = true → Memory.wf (f s x).mem = true) {s :
    State}
    (hs : Memory.wf s.mem = true) (xs : List α) : Memory.wf (xs.foldl f s).mem = true := by
  induction xs generalizing s with
  | nil => exact hs
  | cons x r ih => exact ih (h s x hs)

theorem foldlM_form {α β : Type} {f : State → α → Except β State} (h :
    ∀ s x t, Memory.wf s.mem = true → f s x = .ok t → Memory.wf t.mem = true)
    {s t : State} {xs : List α} (hs : Memory.wf s.mem = true) (e : xs.foldlM f s = .ok t) : Memory.wf t.mem = true := by
  induction xs generalizing s with
  | nil => cases e; exact hs
  | cons x r ih =>
    simp only [List.foldlM_cons, bind, Except.bind] at e
    split at e
    · cases e
    · next y hy => exact ih (h s x y hs hy) e

theorem Memory.form_of {s t : State} (e : t.mem = s.mem) (h : Memory.wf s.mem = true) : Memory.wf t.mem = true := e ▸ h

theorem Memory.form_ite {c : Prop} [Decidable c] {a b : State} (ha : c → Memory.wf a.mem = true) (hb :
    ¬c → Memory.wf b.mem = true) :
    Memory.wf (if c then a else b).mem = true := by
  split
  · exact ha ‹_›
  · exact hb ‹_›

theorem State.writeTarget_form (s : State) (t : Target) (bs : List Byte) (hf : Memory.wf s.mem = true) :
    Memory.wf (State.writeTarget s t bs).mem = true := by
  unfold State.writeTarget
  repeat' first
    | with_reducible assumption | (with_reducible apply Memory.form_ite <;> intro _)
    | with_reducible refine Memory.form_of (State.updGang_mem _ _ _) ?_ | with_reducible apply Memory.wf_writePa
    | (with_reducible apply foldl_form; intro s x hf) | dsimp only | split | (rename _ = some _ => he; split at he)
    | (rename some _ = some _ => he; cases he)

@[simp] theorem State.poisonTarget_mem (s : State) (t : Target) : (State.poisonTarget s t).mem = s.mem := by
  simp only [State.poisonTarget]
  repeat' first | rfl | assumption | (refine Eq.trans (foldl_mem (fun s x => ?_) _ _) ?_) | split | simp

@[simp] theorem State.noteTime_mem (s : State) (part : Nat) (t : Nat) : (State.noteTime s part t).mem = s.mem := by
  simp only [State.noteTime]
  repeat' first | rfl | assumption | (refine Eq.trans (foldl_mem (fun s x => ?_) _ _) ?_) | split | simp

@[simp] theorem State.homeLoad_mem (s : State) (pa : Nat) (part : Nat) (pts : Nat) :
    (State.homeLoad s pa part pts).2.mem = s.mem := by
  simp only [State.homeLoad]
  repeat' first | rfl | assumption | (refine Eq.trans (foldl_mem (fun s x => ?_) _ _) ?_) | split | simp

@[simp] theorem State.stampLine_mem (s : State) (pa : Nat) (part : Nat) (t : Nat) :
    (State.stampLine s pa part t).mem = s.mem := by
  simp only [State.stampLine]
  repeat' first | rfl | assumption | (refine Eq.trans (foldl_mem (fun s x => ?_) _ _) ?_) | split | simp

@[simp] theorem State.markEarly_mem (s : State) (core : Nat) (pa : Nat) (part : Nat) :
    (State.markEarly s core pa part).mem = s.mem := by
  simp only [State.markEarly]
  repeat' first | rfl | assumption | (refine Eq.trans (foldl_mem (fun s x => ?_) _ _) ?_) | split | simp

@[simp] theorem State.backInvalidate_mem (s : State) (pa : Nat) (part : Nat) (from_ : Nat) :
    (State.backInvalidate s pa part from_).2.mem = s.mem := by
  simp only [State.backInvalidate]
  repeat' first | rfl | assumption | (refine Eq.trans (foldl_mem (fun s x => ?_) _ _) ?_) | split | simp

@[simp] theorem State.noteSectors_mem (s : State) (part : Nat) (pas : List Nat) : (State.noteSectors s part pas).mem = s.mem := by
  simp only [State.noteSectors]
  repeat' first | rfl | assumption | (refine Eq.trans (foldl_mem (fun s x => ?_) _ _) ?_) | split | simp

theorem State.homeStore_form (s : State) (part : Nat) (pts : Nat) (pa : Nat) (bs : List Byte) (bank : Bool) (hf :
    Memory.wf s.mem = true) : Memory.wf (State.homeStore s part pts pa bs bank).2.mem = true := by
  unfold State.homeStore
  repeat' first
    | with_reducible assumption | (with_reducible apply Memory.form_ite <;> intro _)
    | with_reducible refine Memory.form_of (State.stampLine_mem _ _ _ _) ?_
    | with_reducible refine Memory.form_of (State.fireWatches_mem _ _ _) ?_
    | with_reducible refine Memory.form_of (State.noteDirty_mem _ _ _ _) ?_ | with_reducible apply Memory.wf_writePa
    | (with_reducible apply foldl_form; intro s x hf) | dsimp only | split | (rename _ = some _ => he; split at he)
    | (rename some _ = some _ => he; cases he)

@[simp] theorem State.demand_mem (s : State) (pa : Nat) (key : Nat × Nat) (write : Bool) :
    (State.demand s pa key write).mem = s.mem := by
  simp only [State.demand]
  repeat' first | rfl | assumption | (refine Eq.trans (foldl_mem (fun s x => ?_) _ _) ?_) | split | simp

@[simp] theorem State.served_mem (s : State) (key : Nat × Nat) : (State.served s key).mem = s.mem := by
  simp only [State.served]
  repeat' first | rfl | assumption | (refine Eq.trans (foldl_mem (fun s x => ?_) _ _) ?_) | split | simp

theorem State.agentStore_form (s : State) (part : Nat) (pts : Nat) (pa : Nat) (bs : List Byte) (bank : Bool := false) (hf :
    Memory.wf s.mem = true) : Memory.wf (State.agentStore s part pts pa bs bank).2.mem = true := by
  unfold State.agentStore
  repeat' first
    | with_reducible assumption | (with_reducible apply Memory.form_ite <;> intro _) | with_reducible apply State.homeStore_form
    | with_reducible apply Memory.wf_writePa | (with_reducible apply foldl_form; intro s x hf) | dsimp only | split
    | (rename _ = some _ => he; split at he) | (rename some _ = some _ => he; cases he)

@[simp] theorem State.unwait_mem (s : State) (id : Nat) : (State.unwait s id).mem = s.mem := by
  simp only [State.unwait]
  repeat' first | rfl | assumption | (refine Eq.trans (foldl_mem (fun s x => ?_) _ _) ?_) | split | simp

theorem State.serveStall_form (s : State) (hf : Memory.wf s.mem = true) : Memory.wf (State.serveStall s).mem = true := by
  unfold State.serveStall
  repeat' first
    | with_reducible assumption | (with_reducible apply Memory.form_ite <;> intro _) | with_reducible apply State.homeStore_form
    | with_reducible refine Memory.form_of (State.demand_mem _ _ _ _) ?_
    | with_reducible refine Memory.form_of (State.served_mem _ _) ?_ | with_reducible apply Memory.wf_writePa
    | (with_reducible apply foldl_form; intro s x hf) | dsimp only | split | (rename _ = some _ => he; split at he)
    | (rename some _ = some _ => he; cases he)

theorem State.homeStores_form (s : State) (part pts : Nat) (xs : List (Nat × List Byte)) (bank : Nat → Bool)
    (hf : Memory.wf s.mem = true) : Memory.wf (State.homeStores s part pts xs bank).2.mem = true := by
  induction xs generalizing s pts with
  | nil => exact hf
  | cons x r ih => exact ih _ _ (State.homeStore_form _ _ _ _ _ _ hf)

theorem State.errorRecord_form (s : State) (part : Nat) (launchId : Nat) (kind : Nat) (group : Nat) (block : Nat) (pc : Nat)
    (pa : Nat) (hf : Memory.wf s.mem = true) : Memory.wf (State.errorRecord s part launchId kind group block pc pa).mem = true := by
  unfold State.errorRecord
  repeat' first
    | with_reducible assumption | (with_reducible apply Memory.form_ite <;> intro _) | with_reducible apply State.agentStore_form
    | with_reducible refine Memory.form_of (State.send_mem _ _) ?_
    | with_reducible refine Memory.form_of (State.updPart_mem _ _ _) ?_ | with_reducible apply Memory.wf_writePa
    | (with_reducible apply foldl_form; intro s x hf) | dsimp only | split | (rename _ = some _ => he; split at he)
    | (rename some _ = some _ => he; cases he)

theorem State.imprecise_form (s : State) (kind : ErrKind) (part : Nat) (slot : Nat) (ord : BitVec 8) (pa : Nat) (hf :
    Memory.wf s.mem = true) : Memory.wf (State.imprecise s kind part slot ord pa).mem = true := by
  unfold State.imprecise
  repeat' first
    | with_reducible assumption | (with_reducible apply Memory.form_ite <;> intro _) | with_reducible apply State.errorRecord_form
    | with_reducible refine Memory.form_of (State.updLaunch_mem _ _ _) ?_ | with_reducible apply Memory.wf_writePa
    | (with_reducible apply foldl_form; intro s x hf) | dsimp only | split | (rename _ = some _ => he; split at he)
    | (rename some _ = some _ => he; cases he)

theorem State.bareError_form (s : State) (kind : ErrKind) (part : Nat) (slot : Nat) (ord : BitVec 8) (hf :
    Memory.wf s.mem = true) : Memory.wf (State.bareError s kind part slot ord).mem = true := by
  unfold State.bareError
  repeat' first
    | with_reducible assumption | (with_reducible apply Memory.form_ite <;> intro _) | with_reducible apply State.errorRecord_form
    | with_reducible refine Memory.form_of (State.updLaunch_mem _ _ _) ?_ | with_reducible apply Memory.wf_writePa
    | (with_reducible apply foldl_form; intro s x hf) | dsimp only | split | (rename _ = some _ => he; split at he)
    | (rename some _ = some _ => he; cases he)

@[simp] theorem State.fillTlb_mem (s : State) (core : Nat) (ps : List PtrEntry) (e : TlbEntry) :
    (State.fillTlb s core ps e).mem = s.mem := by
  simp only [State.fillTlb]
  repeat' first | rfl | assumption | (refine Eq.trans (foldl_mem (fun s x => ?_) _ _) ?_) | split | simp

@[simp] theorem State.touchTlb_mem (s : State) (core : Nat) (part : Nat) (vas : List Nat) :
    (State.touchTlb s core part vas).mem = s.mem := by
  simp only [State.touchTlb]
  repeat' first | rfl | assumption | (refine Eq.trans (foldl_mem (fun s x => ?_) _ _) ?_) | split | simp

theorem State.writeLines_form (s : State) (core : Nat) (part : Nat) (va : Nat) (bs : List Byte) (hf : Memory.wf s.mem = true) :
    Memory.wf (State.writeLines s core part va bs).mem = true := by
  unfold State.writeLines
  repeat' first
    | with_reducible assumption | (with_reducible apply Memory.form_ite <;> intro _) | with_reducible apply Memory.wf_writePa
    | (with_reducible apply foldl_form; intro s x hf) | dsimp only | split | (rename _ = some _ => he; split at he)
    | (rename some _ = some _ => he; cases he)

theorem State.writeImage_form (s : State) (g : Grp) (hf : Memory.wf s.mem = true) :
    Memory.wf (State.writeImage s g).mem = true := by
  unfold State.writeImage
  repeat' first
    | with_reducible assumption | (with_reducible apply Memory.form_ite <;> intro _) | with_reducible apply State.writeLines_form
    | with_reducible apply Memory.wf_writePa | (with_reducible apply foldl_form; intro s x hf) | dsimp only | split
    | (rename _ = some _ => he; split at he) | (rename some _ = some _ => he; cases he)

theorem State.saveImage_form (s : State) (u : Nat) (hf : Memory.wf s.mem = true) :
    Memory.wf (State.saveImage s u).mem = true := by
  unfold State.saveImage
  repeat' first
    | with_reducible assumption | (with_reducible apply Memory.form_ite <;> intro _) | with_reducible apply State.writeImage_form
    | with_reducible refine Memory.form_of (State.updGrp_mem _ _ _) ?_ | with_reducible apply Memory.wf_writePa
    | (with_reducible apply foldl_form; intro s x hf) | dsimp only | split | (rename _ = some _ => he; split at he)
    | (rename some _ = some _ => he; cases he)

@[simp] theorem State.fetchImage_mem (s : State) (u : Nat) : (State.fetchImage s u).mem = s.mem := by
  simp only [State.fetchImage]
  repeat' first | rfl | assumption | (refine Eq.trans (foldl_mem (fun s x => ?_) _ _) ?_) | split | simp

theorem State.updImage_form (s : State) (u : Nat) (f : Grp → Grp) (hf : Memory.wf s.mem = true) :
    Memory.wf (State.updImage s u f).mem = true := by
  unfold State.updImage
  repeat' first
    | with_reducible assumption | (with_reducible apply Memory.form_ite <;> intro _) | with_reducible apply State.writeImage_form
    | with_reducible refine Memory.form_of (State.updGrp_mem _ _ _) ?_ | with_reducible apply Memory.wf_writePa
    | (with_reducible apply foldl_form; intro s x hf) | dsimp only | split | (rename _ = some _ => he; split at he)
    | (rename some _ = some _ => he; cases he)

theorem State.pushLines_form (s : State) (u core n : Nat) (hf : Memory.wf s.mem = true) :
    Memory.wf (State.pushLines s u core n).mem = true := by
  induction n generalizing s with
  | zero => exact hf
  | succ n ih =>
    simp only [State.pushLines]
    split
    · exact hf
    · split
      · exact hf
      · exact ih _ (State.saveImage_form _ _ hf)

theorem State.useImage_form (s : State) (u : Nat) (hf : Memory.wf s.mem = true) : Memory.wf (State.useImage s u).mem = true := by
  unfold State.useImage
  split
  · exact hf
  · exact State.pushLines_form _ _ _ _ (Memory.form_of (State.updGrp_mem _ _ _) (Memory.form_of (State.fetchImage_mem _ _) hf))

theorem State.writeGangImage_form (s : State) (k : Gang) (core : Nat) (hf : Memory.wf s.mem = true) :
    Memory.wf (State.writeGangImage s k core).mem = true := by
  unfold State.writeGangImage
  repeat' first
    | with_reducible assumption | (with_reducible apply Memory.form_ite <;> intro _) | with_reducible apply State.writeLines_form
    | with_reducible apply Memory.wf_writePa | (with_reducible apply foldl_form; intro s x hf) | dsimp only | split
    | (rename _ = some _ => he; split at he) | (rename some _ = some _ => he; cases he)

@[simp] theorem State.readGangImage_mem (s : State) (k : Gang) (core : Nat) : (State.readGangImage s k core).mem = s.mem := by
  simp only [State.readGangImage]
  repeat' first | rfl | assumption | (refine Eq.trans (foldl_mem (fun s x => ?_) _ _) ?_) | split | simp

theorem State.wcWrite_form (s : State) (e : WcEntry) (part : Nat) (hf : Memory.wf s.mem = true) :
    Memory.wf (State.wcWrite s e part).mem = true := by
  unfold State.wcWrite
  repeat' first
    | with_reducible assumption | (with_reducible apply Memory.form_ite <;> intro _) | with_reducible apply State.imprecise_form
    | with_reducible refine Memory.form_of (State.dropCopies_mem _ _) ?_
    | with_reducible refine Memory.form_of (State.fireWatches_mem _ _ _) ?_
    | with_reducible refine Memory.form_of (State.noteDirty_mem _ _ _ _) ?_ | with_reducible apply Memory.wf_writePa
    | (with_reducible apply foldl_form; intro s x hf) | dsimp only | split | (rename _ = some _ => he; split at he)
    | (rename some _ = some _ => he; cases he)

theorem State.wcLeave_form (s : State) (core : Nat) (e : WcEntry) (hf : Memory.wf s.mem = true) :
    Memory.wf (State.wcLeave s core e).mem = true := by
  unfold State.wcLeave
  repeat' first
    | with_reducible refine Memory.form_of (State.await_mem _ _) ?_ | with_reducible refine Memory.form_of (State.unawait_mem _ _) ?_
    | with_reducible refine Memory.form_of (State.unwait_mem _ _) ?_ | with_reducible refine Memory.form_of (State.served_mem _ _) ?_
    | with_reducible refine Memory.form_of (State.demand_mem _ _ _ _) ?_
    | with_reducible assumption | (with_reducible apply Memory.form_ite <;> intro _) | with_reducible apply State.wcWrite_form
    | with_reducible refine Memory.form_of (State.updCore_mem _ _ _) ?_ | with_reducible apply Memory.wf_writePa
    | (with_reducible apply foldl_form; intro s x hf) | dsimp only | split | (rename _ = some _ => he; split at he)
    | (rename some _ = some _ => he; cases he)

theorem State.wcFlush_form (s : State) (core : Nat) (p : WcEntry → Bool) (hf : Memory.wf s.mem = true) :
    Memory.wf (State.wcFlush s core p).mem = true := by
  unfold State.wcFlush
  repeat' first
    | with_reducible assumption | (with_reducible apply Memory.form_ite <;> intro _) | with_reducible apply State.wcLeave_form
    | with_reducible refine Memory.form_of (State.updCore_mem _ _ _) ?_ | with_reducible apply Memory.wf_writePa
    | (with_reducible apply foldl_form; intro s x hf) | dsimp only | split | (rename _ = some _ => he; split at he)
    | (rename some _ = some _ => he; cases he)

theorem State.wcFlushGroup_form (s : State) (u : Nat) (core : Nat) (hf : Memory.wf s.mem = true) :
    Memory.wf (State.wcFlushGroup s u core).mem = true := by
  unfold State.wcFlushGroup
  repeat' first
    | with_reducible assumption | (with_reducible apply Memory.form_ite <;> intro _) | with_reducible apply State.wcFlush_form
    | with_reducible apply Memory.wf_writePa | (with_reducible apply foldl_form; intro s x hf) | dsimp only | split
    | (rename _ = some _ => he; split at he) | (rename some _ = some _ => he; cases he)

@[simp] theorem State.dropCmds_mem (s : State) (ids : List Nat) : (State.dropCmds s ids).mem = s.mem := by
  simp only [State.dropCmds]
  repeat' first | rfl | assumption | (refine Eq.trans (foldl_mem (fun s x => ?_) _ _) ?_) | split | simp

@[simp] theorem State.setEng_mem (s : State) (e : EngBlock) : (State.setEng s e).mem = s.mem := by
  simp only [State.setEng]
  repeat' first | rfl | assumption | (refine Eq.trans (foldl_mem (fun s x => ?_) _ _) ?_) | split | simp

@[simp] theorem State.dropEngine_mem (s : State) (gang : Nat) (coreIdx : Nat) (preempted : Bool) :
    (State.dropEngine s gang coreIdx preempted).mem = s.mem := by
  simp only [State.dropEngine]
  repeat' first | rfl | assumption | (refine Eq.trans (foldl_mem (fun s x => ?_) _ _) ?_) | split | simp

@[simp] theorem State.forgive_mem (s : State) (gang : Nat) (coreIdx : Nat) (qs : List Nat) :
    (State.forgive s gang coreIdx qs).mem = s.mem := by
  simp only [State.forgive]
  repeat' first | rfl | assumption | (refine Eq.trans (foldl_mem (fun s x => ?_) _ _) ?_) | split | simp

@[simp] theorem State.unbindAll_mem (s : State) (g : Grp) : (State.unbindAll s g).mem = s.mem := by
  simp only [State.unbindAll]
  repeat' first | rfl | assumption | (refine Eq.trans (foldl_mem (fun s x => ?_) _ _) ?_) | split | simp

@[simp] theorem State.unschedule_mem (s : State) (u : Nat) (core : Nat) : (State.unschedule s u core).mem = s.mem := by
  simp only [State.unschedule]
  repeat' first | rfl | assumption | (refine Eq.trans (foldl_mem (fun s x => ?_) _ _) ?_) | split | simp

theorem State.afterEnd_form (s : State) (u : Nat) (hf : Memory.wf s.mem = true) : Memory.wf (State.afterEnd s u).mem = true := by
  unfold State.afterEnd
  repeat' first
    | with_reducible refine Memory.form_of (State.await_mem _ _) ?_ | with_reducible refine Memory.form_of (State.unawait_mem _ _) ?_
    | with_reducible refine Memory.form_of (State.unwait_mem _ _) ?_ | with_reducible refine Memory.form_of (State.served_mem _ _) ?_
    | with_reducible refine Memory.form_of (State.demand_mem _ _ _ _) ?_
    | with_reducible assumption | (with_reducible apply Memory.form_ite <;> intro _)
    | with_reducible apply State.wcFlushGroup_form | with_reducible refine Memory.form_of (State.dropEngine_mem _ _ _ _) ?_
    | with_reducible refine Memory.form_of (State.unbindAll_mem _ _) ?_
    | with_reducible refine Memory.form_of (State.unschedule_mem _ _ _) ?_
    | with_reducible refine Memory.form_of (State.updGang_mem _ _ _) ?_
    | with_reducible refine Memory.form_of (State.updGrp_mem _ _ _) ?_
    | with_reducible refine Memory.form_of (State.updLaunch_mem _ _ _) ?_ | with_reducible apply Memory.wf_writePa
    | (with_reducible apply foldl_form; intro s x hf) | dsimp only | split | (rename _ = some _ => he; split at he)
    | (rename some _ = some _ => he; cases he)

@[simp] theorem State.discardHeld_mem (s : State) (u : Nat) : (State.discardHeld s u).mem = s.mem := by
  simp only [State.discardHeld]
  repeat' first | rfl | assumption | (refine Eq.trans (foldl_mem (fun s x => ?_) _ _) ?_) | split | simp

theorem State.killGroup_form (s : State) (u : Nat) (hf : Memory.wf s.mem = true) :
    Memory.wf (State.killGroup s u).mem = true := by
  unfold State.killGroup
  repeat' first
    | with_reducible assumption | (with_reducible apply Memory.form_ite <;> intro _) | with_reducible apply State.afterEnd_form
    | with_reducible refine Memory.form_of (State.discardHeld_mem _ _) ?_
    | with_reducible refine Memory.form_of (State.updGrp_mem _ _ _) ?_ | with_reducible apply Memory.wf_writePa
    | (with_reducible apply foldl_form; intro s x hf) | dsimp only | split | (rename _ = some _ => he; split at he)
    | (rename some _ = some _ => he; cases he)

theorem State.killGang_form (s : State) (k : Nat) (hf : Memory.wf s.mem = true) : Memory.wf (State.killGang s k).mem = true := by
  unfold State.killGang
  repeat' first
    | with_reducible assumption | (with_reducible apply Memory.form_ite <;> intro _) | with_reducible apply State.killGroup_form
    | with_reducible refine Memory.form_of (State.updGang_mem _ _ _) ?_ | with_reducible apply Memory.wf_writePa
    | (with_reducible apply foldl_form; intro s x hf) | dsimp only | split | (rename _ = some _ => he; split at he)
    | (rename some _ = some _ => he; cases he)

theorem State.endLaunch_form (s : State) (l : Nat) (status : Nat) (fclass : Nat) (hf : Memory.wf s.mem = true) :
    Memory.wf (State.endLaunch s l status fclass).mem = true := by
  unfold State.endLaunch
  repeat' first
    | with_reducible assumption | (with_reducible apply Memory.form_ite <;> intro _) | with_reducible apply State.killGang_form
    | with_reducible refine Memory.form_of (State.updLaunch_mem _ _ _) ?_ | with_reducible apply Memory.wf_writePa
    | (with_reducible apply foldl_form; intro s x hf) | dsimp only | split | (rename _ = some _ => he; split at he)
    | (rename some _ = some _ => he; cases he)

@[simp] theorem State.staleLists_mem (s : State) (part : Nat) (hit : PageList → Bool) :
    (State.staleLists s part hit).mem = s.mem := by
  simp only [State.staleLists]
  repeat' first | rfl | assumption | (refine Eq.trans (foldl_mem (fun s x => ?_) _ _) ?_) | split | simp

@[simp] theorem State.dropTlbs_mem (s : State) (part : Nat) (hit : TlbEntry → Bool) (ptr : PtrEntry → Bool) :
    (State.dropTlbs s part hit ptr).mem = s.mem := by
  simp only [State.dropTlbs]
  repeat' first | rfl | assumption | (refine Eq.trans (foldl_mem (fun s x => ?_) _ _) ?_) | split | simp

@[simp] theorem State.dropShared_mem (s : State) (part : Nat) : (State.dropShared s part).mem = s.mem := by
  simp only [State.dropShared]
  repeat' first | rfl | assumption | (refine Eq.trans (foldl_mem (fun s x => ?_) _ _) ?_) | split | simp

@[simp] theorem State.startShootdown_mem (s : State) (part : Nat) (start : Nat) (len : Nat) (st2 : Bool) (all : Bool) :
    (State.startShootdown s part start len st2 all).mem = s.mem := by
  simp only [State.startShootdown]
  repeat' first | rfl | assumption | (refine Eq.trans (foldl_mem (fun s x => ?_) _ _) ?_) | split | simp

@[simp] theorem State.freeLines_mem (s : State) (w : Wave) : (State.freeLines s w).mem = s.mem := by
  simp only [State.freeLines]
  repeat' first | rfl | assumption | (refine Eq.trans (foldl_mem (fun s x => ?_) _ _) ?_) | split | simp

@[simp] theorem State.noteWave_mem (s : State) (w : Wave) : (State.noteWave s w).mem = s.mem := by
  simp only [State.noteWave]
  repeat' first | rfl | assumption | (refine Eq.trans (foldl_mem (fun s x => ?_) _ _) ?_) | split | simp

@[simp] theorem State.abortWave_mem (s : State) (w : Wave) : (State.abortWave s w).mem = s.mem := by
  simp only [State.abortWave]
  repeat' first | rfl | assumption | (refine Eq.trans (foldl_mem (fun s x => ?_) _ _) ?_) | split | simp

theorem State.endWaits_form (s : State) (part : Nat) (hf : Memory.wf s.mem = true) :
    Memory.wf (State.endWaits s part).mem = true := by
  unfold State.endWaits
  repeat' first
    | with_reducible refine Memory.form_of (State.await_mem _ _) ?_ | with_reducible refine Memory.form_of (State.unawait_mem _ _) ?_
    | with_reducible refine Memory.form_of (State.unwait_mem _ _) ?_ | with_reducible refine Memory.form_of (State.served_mem _ _) ?_
    | with_reducible refine Memory.form_of (State.demand_mem _ _ _ _) ?_
    | with_reducible assumption | (with_reducible apply Memory.form_ite <;> intro _) | with_reducible apply State.updImage_form
    | with_reducible refine Memory.form_of (State.updCore_mem _ _ _) ?_ | with_reducible apply Memory.wf_writePa
    | (with_reducible apply foldl_form; intro s x hf) | dsimp only | split | (rename _ = some _ => he; split at he)
    | (rename some _ = some _ => he; cases he)

theorem State.stopBank_form (s : State) (c : BankCmd) (hf : Memory.wf s.mem = true) :
    Memory.wf (State.stopBank s c).mem = true := by
  unfold State.stopBank
  repeat' first
    | with_reducible assumption | (with_reducible apply Memory.form_ite <;> intro _) | with_reducible apply State.bareError_form
    | with_reducible apply Memory.wf_writePa | (with_reducible apply foldl_form; intro s x hf) | dsimp only | split
    | (rename _ = some _ => he; split at he) | (rename some _ = some _ => he; cases he)

theorem State.cancelWork_form (s : State) (part : Nat) (hf : Memory.wf s.mem = true) :
    Memory.wf (State.cancelWork s part).mem = true := by
  unfold State.cancelWork
  repeat' first
    | with_reducible assumption | (with_reducible apply Memory.form_ite <;> intro _) | with_reducible apply State.stopBank_form
    | with_reducible refine Memory.form_of (State.abortWave_mem _ _) ?_
    | with_reducible refine Memory.form_of (State.discardHeld_mem _ _) ?_
    | with_reducible refine Memory.form_of (State.dropCmds_mem _ _) ?_
    | with_reducible refine Memory.form_of (State.unwait_mem _ _) ?_
    | with_reducible refine Memory.form_of (State.ackSide_mem _ _ _ _ _) ?_ | with_reducible apply Memory.wf_writePa
    | (with_reducible apply foldl_form; intro s x hf) | dsimp only | split | (rename _ = some _ => he; split at he)
    | (rename some _ = some _ => he; cases he)

theorem State.teardownPart_form (s : State) (part : Nat) (hf : Memory.wf s.mem = true) :
    Memory.wf (State.teardownPart s part).mem = true := by
  simp only [State.teardownPart]
  refine State.cancelWork_form _ _ (State.endWaits_form _ _ ?_)
  simp only [State.updPart_mem, State.startShootdown_mem]
  exact foldl_form (fun s x h => Memory.form_of (State.updCore_mem _ _ _) h) hf _

theorem State.gangFate_form (s : State) (k : Nat) (fclass : Nat) (hf : Memory.wf s.mem = true) :
    Memory.wf (State.gangFate s k fclass).mem = true := by
  unfold State.gangFate
  repeat' first
    | with_reducible assumption | (with_reducible apply Memory.form_ite <;> intro _) | with_reducible apply State.endLaunch_form
    | with_reducible apply State.killGang_form | with_reducible apply State.teardownPart_form
    | with_reducible refine Memory.form_of (State.updLaunch_mem _ _ _) ?_ | with_reducible apply Memory.wf_writePa
    | (with_reducible apply foldl_form; intro s x hf) | dsimp only | split | (rename _ = some _ => he; split at he)
    | (rename some _ = some _ => he; cases he)

theorem State.handlerStep_form (s : State) (u : Nat) (i : Bool) (c : Nat) (info : Word) (pc : Word) (hf :
    Memory.wf s.mem = true) : Memory.wf (State.handlerStep s u i c info pc).mem = true := by
  unfold State.handlerStep
  repeat' first
    | with_reducible assumption | (with_reducible apply Memory.form_ite <;> intro _) | with_reducible apply State.endLaunch_form
    | with_reducible refine Memory.form_of (State.updGrp_mem _ _ _) ?_ | with_reducible apply Memory.wf_writePa
    | (with_reducible apply foldl_form; intro s x hf) | dsimp only | split | (rename _ = some _ => he; split at he)
    | (rename some _ = some _ => he; cases he)

theorem State.settlePark_form (s : State) (u : Nat) (hf : Memory.wf s.mem = true) :
    Memory.wf (State.settlePark s u).mem = true := by
  unfold State.settlePark
  repeat' first
    | with_reducible assumption | (with_reducible apply Memory.form_ite <;> intro _) | with_reducible apply State.saveImage_form
    | with_reducible refine Memory.form_of (State.unschedule_mem _ _ _) ?_
    | with_reducible refine Memory.form_of (State.send_mem _ _) ?_
    | with_reducible refine Memory.form_of (State.updGrp_mem _ _ _) ?_ | with_reducible apply Memory.wf_writePa
    | (with_reducible apply foldl_form; intro s x hf) | dsimp only | split | (rename _ = some _ => he; split at he)
    | (rename some _ = some _ => he; cases he)

theorem State.settleParks_form (s : State) (hf : Memory.wf s.mem = true) : Memory.wf (State.settleParks s).mem = true := by
  unfold State.settleParks
  repeat' first
    | with_reducible assumption | (with_reducible apply Memory.form_ite <;> intro _) | with_reducible apply State.settlePark_form
    | with_reducible apply Memory.wf_writePa | (with_reducible apply foldl_form; intro s x hf) | dsimp only | split
    | (rename _ = some _ => he; split at he) | (rename some _ = some _ => he; cases he)

theorem State.takeTrap_form (s : State) (u : Nat) (i : Bool) (t : Trap) (pc : Word) (hf : Memory.wf s.mem = true) :
    Memory.wf (State.takeTrap s u i t pc).mem = true := by
  unfold State.takeTrap
  repeat' first
    | with_reducible assumption | (with_reducible apply Memory.form_ite <;> intro _) | with_reducible apply State.endLaunch_form
    | with_reducible apply State.gangFate_form | with_reducible apply State.handlerStep_form
    | with_reducible apply State.killGroup_form | with_reducible apply State.settlePark_form
    | with_reducible refine Memory.form_of (State.updGang_mem _ _ _) ?_
    | with_reducible refine Memory.form_of (State.updGrp_mem _ _ _) ?_ | with_reducible apply Memory.wf_writePa
    | (with_reducible apply foldl_form; intro s x hf) | dsimp only | split | (rename _ = some _ => he; split at he)
    | (rename some _ = some _ => he; cases he)

theorem State.releaseHeld_form (s : State) (u : Nat) (i : Bool) (hf : Memory.wf s.mem = true) :
    Memory.wf (State.releaseHeld s u i).mem = true := by
  unfold State.releaseHeld
  repeat' first
    | with_reducible assumption | (with_reducible apply Memory.form_ite <;> intro _) | with_reducible apply State.handlerStep_form
    | with_reducible apply State.takeTrap_form | with_reducible refine Memory.form_of (State.updGrp_mem _ _ _) ?_
    | with_reducible apply Memory.wf_writePa | (with_reducible apply foldl_form; intro s x hf) | dsimp only | split
    | (rename _ = some _ => he; split at he) | (rename some _ = some _ => he; cases he)

theorem State.returnTrap_form (s : State) (u : Nat) (i : Bool) (hf : Memory.wf s.mem = true) :
    Memory.wf (State.returnTrap s u i).mem = true := by
  unfold State.returnTrap
  repeat' first
    | with_reducible assumption | (with_reducible apply Memory.form_ite <;> intro _) | with_reducible apply State.releaseHeld_form
    | with_reducible refine Memory.form_of (State.updGrp_mem _ _ _) ?_ | with_reducible apply Memory.wf_writePa
    | (with_reducible apply foldl_form; intro s x hf) | dsimp only | split | (rename _ = some _ => he; split at he)
    | (rename some _ = some _ => he; cases he)

@[simp] theorem State.schedule_mem (s : State) (u : Nat) (core : Nat) : (State.schedule s u core).mem = s.mem := by
  simp only [State.schedule]
  repeat' first | rfl | assumption | (refine Eq.trans (foldl_mem (fun s x => ?_) _ _) ?_) | split | simp

@[simp] theorem State.makeResident_mem (s : State) (u : Nat) : (State.makeResident s u).mem = s.mem := by
  simp only [State.makeResident]
  repeat' first | rfl | assumption | (refine Eq.trans (foldl_mem (fun s x => ?_) _ _) ?_) | split | simp

@[simp] theorem State.leaveResident_mem (s : State) (u : Nat) (core : Nat) : (State.leaveResident s u core).mem = s.mem := by
  simp only [State.leaveResident]
  repeat' first | rfl | assumption | (refine Eq.trans (foldl_mem (fun s x => ?_) _ _) ?_) | split | simp

theorem State.leaveCore_form (s : State) (u : Nat) (core : Nat) (hf : Memory.wf s.mem = true) :
    Memory.wf (State.leaveCore s u core).mem = true := by
  unfold State.leaveCore
  repeat' first
    | with_reducible refine Memory.form_of (State.await_mem _ _) ?_ | with_reducible refine Memory.form_of (State.unawait_mem _ _) ?_
    | with_reducible refine Memory.form_of (State.unwait_mem _ _) ?_ | with_reducible refine Memory.form_of (State.served_mem _ _) ?_
    | with_reducible refine Memory.form_of (State.demand_mem _ _ _ _) ?_
    | with_reducible assumption | (with_reducible apply Memory.form_ite <;> intro _)
    | with_reducible apply State.wcFlushGroup_form | with_reducible refine Memory.form_of (State.unschedule_mem _ _ _) ?_
    | with_reducible refine Memory.form_of (State.updGrp_mem _ _ _) ?_ | with_reducible apply Memory.wf_writePa
    | (with_reducible apply foldl_form; intro s x hf) | dsimp only | split | (rename _ = some _ => he; split at he)
    | (rename some _ = some _ => he; cases he)

@[simp] theorem State.raisePts_mem (s : State) (u : Nat) (t : Nat) : (State.raisePts s u t).mem = s.mem := by
  simp only [State.raisePts]
  repeat' first | rfl | assumption | (refine Eq.trans (foldl_mem (fun s x => ?_) _ _) ?_) | split | simp

theorem State.endWait_form (s : State) (u : Nat) (slot : Bool) (hf : Memory.wf s.mem = true) :
    Memory.wf (State.endWait s u slot).mem = true := by
  unfold State.endWait
  repeat' first
    | with_reducible assumption | (with_reducible apply Memory.form_ite <;> intro _) | with_reducible apply State.updImage_form
    | with_reducible refine Memory.form_of (State.updCore_mem _ _ _) ?_ | with_reducible apply Memory.wf_writePa
    | (with_reducible apply foldl_form; intro s x hf) | dsimp only | split | (rename _ = some _ => he; split at he)
    | (rename some _ = some _ => he; cases he)

theorem State.wakeSlot_form (s : State) (u : Nat) (slot : Bool) (hf : Memory.wf s.mem = true) :
    Memory.wf (State.wakeSlot s u slot).mem = true := by
  unfold State.wakeSlot
  repeat' first
    | with_reducible assumption | (with_reducible apply Memory.form_ite <;> intro _) | with_reducible apply State.endWait_form
    | with_reducible refine Memory.form_of (State.raisePts_mem _ _ _) ?_ | with_reducible apply Memory.wf_writePa
    | (with_reducible apply foldl_form; intro s x hf) | dsimp only | split | (rename _ = some _ => he; split at he)
    | (rename some _ = some _ => he; cases he)

theorem State.wakeWaits_form (s : State) (hf : Memory.wf s.mem = true) : Memory.wf (State.wakeWaits s).mem = true := by
  unfold State.wakeWaits
  repeat' first
    | with_reducible assumption | (with_reducible apply Memory.form_ite <;> intro _) | with_reducible apply State.wakeSlot_form
    | with_reducible apply Memory.wf_writePa | (with_reducible apply foldl_form; intro s x hf) | dsimp only | split
    | (rename _ = some _ => he; split at he) | (rename some _ = some _ => he; cases he)

theorem State.evictGroup_form (s : State) (u : Nat) (core : Nat) (hf : Memory.wf s.mem = true) :
    Memory.wf (State.evictGroup s u core).mem = true := by
  unfold State.evictGroup
  repeat' first
    | with_reducible assumption | (with_reducible apply Memory.form_ite <;> intro _) | with_reducible apply State.leaveCore_form
    | with_reducible refine Memory.form_of (State.fetchImage_mem _ _) ?_
    | with_reducible refine Memory.form_of (State.updGrp_mem _ _ _) ?_ | with_reducible apply Memory.wf_writePa
    | (with_reducible apply foldl_form; intro s x hf) | dsimp only | split | (rename _ = some _ => he; split at he)
    | (rename some _ = some _ => he; cases he)

theorem State.evictGang_form (s : State) (k : Nat) (hf : Memory.wf s.mem = true) :
    Memory.wf (State.evictGang s k).mem = true := by
  unfold State.evictGang
  repeat' first
    | with_reducible assumption | (with_reducible apply Memory.form_ite <;> intro _) | with_reducible apply State.evictGroup_form
    | with_reducible apply State.saveImage_form | with_reducible apply State.wakeWaits_form
    | with_reducible apply State.writeGangImage_form | with_reducible refine Memory.form_of (State.dropEngine_mem _ _ _ _) ?_
    | with_reducible refine Memory.form_of (State.updGang_mem _ _ _) ?_ | with_reducible apply Memory.wf_writePa
    | (with_reducible apply foldl_form; intro s x hf) | dsimp only | split | (rename _ = some _ => he; split at he)
    | (rename some _ = some _ => he; cases he)

theorem State.settleGang_form (s : State) (k : Nat) (hf : Memory.wf s.mem = true) :
    Memory.wf (State.settleGang s k).mem = true := by
  unfold State.settleGang
  repeat' first
    | with_reducible assumption | (with_reducible apply Memory.form_ite <;> intro _) | with_reducible apply State.evictGang_form
    | with_reducible apply Memory.wf_writePa | (with_reducible apply foldl_form; intro s x hf) | dsimp only | split
    | (rename _ = some _ => he; split at he) | (rename some _ = some _ => he; cases he)

theorem State.settleGangs_form (s : State) (hf : Memory.wf s.mem = true) : Memory.wf (State.settleGangs s).mem = true := by
  unfold State.settleGangs
  repeat' first
    | with_reducible assumption | (with_reducible apply Memory.form_ite <;> intro _) | with_reducible apply State.settleGang_form
    | with_reducible apply Memory.wf_writePa | (with_reducible apply foldl_form; intro s x hf) | dsimp only | split
    | (rename _ = some _ => he; split at he) | (rename some _ = some _ => he; cases he)

@[simp] theorem State.setHealth_mem (s : State) (d : Nat) (h : Word) : (State.setHealth s d h).mem = s.mem := by
  simp only [State.setHealth]
  repeat' first | rfl | assumption | (refine Eq.trans (foldl_mem (fun s x => ?_) _ _) ?_) | split | simp

@[simp] theorem State.healthEvent_mem (s : State) (d : Nat) (f : Word → Word) : (State.healthEvent s d f).mem = s.mem := by
  simp only [State.healthEvent]
  repeat' first | rfl | assumption | (refine Eq.trans (foldl_mem (fun s x => ?_) _ _) ?_) | split | simp

@[simp] theorem State.alarm_mem (s old : State) (part : Option Nat) : (State.alarm s old part).mem = s.mem := by
  simp only [State.alarm]
  repeat' first | rfl | assumption | (refine Eq.trans (foldl_mem (fun s x => ?_) _ _) ?_) | split | simp

@[simp] theorem State.logMargin_mem (s : State) (core : Nat) (kind : Nat) : (State.logMargin s core kind).mem = s.mem := by
  simp only [State.logMargin]
  repeat' first | rfl | assumption | (refine Eq.trans (foldl_mem (fun s x => ?_) _ _) ?_) | split | simp

theorem State.askEvict_form (s : State) (k : Nat) (hf : Memory.wf s.mem = true) : Memory.wf (State.askEvict s k).mem = true := by
  unfold State.askEvict
  repeat' first
    | with_reducible assumption | (with_reducible apply Memory.form_ite <;> intro _) | with_reducible apply State.settleGang_form
    | with_reducible apply Memory.wf_writePa | (with_reducible apply foldl_form; intro s x hf) | dsimp only | split
    | (rename _ = some _ => he; split at he) | (rename some _ = some _ => he; cases he)

theorem State.recheck_form (s : State) (part : Nat) (hf : Memory.wf s.mem = true) :
    Memory.wf (State.recheck s part).mem = true := by
  unfold State.recheck
  repeat' first
    | with_reducible assumption | (with_reducible apply Memory.form_ite <;> intro _) | with_reducible apply State.endLaunch_form
    | with_reducible apply Memory.wf_writePa | (with_reducible apply foldl_form; intro s x hf) | dsimp only | split
    | (rename _ = some _ => he; split at he) | (rename some _ = some _ => he; cases he)

theorem State.quarantine_form (s : State) (core : Nat) (hf : Memory.wf s.mem = true) :
    Memory.wf (State.quarantine s core).mem = true := by
  unfold State.quarantine
  repeat' first
    | with_reducible assumption | (with_reducible apply Memory.form_ite <;> intro _) | with_reducible apply State.askEvict_form
    | with_reducible apply State.recheck_form | with_reducible refine Memory.form_of (State.alarm_mem _ _ _) ?_
    | with_reducible refine Memory.form_of (State.healthEvent_mem _ _ _) ?_ | with_reducible apply Memory.wf_writePa
    | (with_reducible apply foldl_form; intro s x hf) | dsimp only | split | (rename _ = some _ => he; split at he)
    | (rename some _ = some _ => he; cases he)

theorem State.countLte_form (s : State) (core : Nat) (hf : Memory.wf s.mem = true) :
    Memory.wf (State.countLte s core).mem = true := by
  unfold State.countLte
  repeat' first
    | with_reducible assumption | (with_reducible apply Memory.form_ite <;> intro _) | with_reducible apply State.quarantine_form
    | with_reducible refine Memory.form_of (State.logMargin_mem _ _ _) ?_
    | with_reducible refine Memory.form_of (State.updCore_mem _ _ _) ?_ | with_reducible apply Memory.wf_writePa
    | (with_reducible apply foldl_form; intro s x hf) | dsimp only | split | (rename _ = some _ => he; split at he)
    | (rename some _ = some _ => he; cases he)

@[simp] theorem State.resetSwitch_mem (s : State) (d : Nat) (stage : Nat) (sw : Nat) :
    (State.resetSwitch s d stage sw).mem = s.mem := by
  simp only [State.resetSwitch]
  repeat' first | rfl | assumption | (refine Eq.trans (foldl_mem (fun s x => ?_) _ _) ?_) | split | simp

@[simp] theorem State.writeCombtest_mem (s : State) (d : Nat) (x : Word) : (State.writeCombtest s d x).mem = s.mem := by
  simp only [State.writeCombtest]
  repeat' first | rfl | assumption | (refine Eq.trans (foldl_mem (fun s x => ?_) _ _) ?_) | split | simp

@[simp] theorem State.noteRoot_mem (s : State) (core : Nat) : (State.noteRoot s core).mem = s.mem := by
  simp only [State.noteRoot]
  repeat' first | rfl | assumption | (refine Eq.trans (foldl_mem (fun s x => ?_) _ _) ?_) | split | simp

theorem State.writeReg_form (s : State) (core : Nat) (n : Nat) (x : Word) (hf : Memory.wf s.mem = true) :
    Memory.wf (State.writeReg s core n x).mem = true := by
  unfold State.writeReg
  repeat' first
    | with_reducible assumption | (with_reducible apply Memory.form_ite <;> intro _) | with_reducible apply State.quarantine_form
    | with_reducible refine Memory.form_of (State.alarm_mem _ _ _) ?_
    | with_reducible refine Memory.form_of (State.healthEvent_mem _ _ _) ?_
    | with_reducible refine Memory.form_of (State.logMargin_mem _ _ _) ?_
    | with_reducible refine Memory.form_of (State.noteRoot_mem _ _) ?_
    | with_reducible refine Memory.form_of (State.setHealth_mem _ _ _) ?_
    | with_reducible refine Memory.form_of (State.writeCombtest_mem _ _ _) ?_
    | with_reducible refine Memory.form_of (State.updCore_mem _ _ _) ?_
    | with_reducible refine Memory.form_of (State.updDie_mem _ _ _) ?_ | with_reducible apply Memory.wf_writePa
    | (with_reducible apply foldl_form; intro s x hf) | dsimp only | split | (rename _ = some _ => he; split at he)
    | (rename some _ = some _ => he; cases he)

theorem State.hartWriteReg_form (s : State) (core : Nat) (n : Nat) (x : Word) (hf : Memory.wf s.mem = true) :
    Memory.wf (State.hartWriteReg s core n x).mem = true := by
  unfold State.hartWriteReg
  repeat' first
    | with_reducible assumption | (with_reducible apply Memory.form_ite <;> intro _) | with_reducible apply State.writeReg_form
    | with_reducible apply Memory.wf_writePa | (with_reducible apply foldl_form; intro s x hf) | dsimp only | split
    | (rename _ = some _ => he; split at he) | (rename some _ = some _ => he; cases he)

theorem State.writeGraphctl_form (s : State) (part : Nat) (r : Nat) (x : Word) (hf : Memory.wf s.mem = true) :
    Memory.wf (State.writeGraphctl s part r x).mem = true := by
  unfold State.writeGraphctl
  repeat' first
    | with_reducible assumption | (with_reducible apply Memory.form_ite <;> intro _)
    | with_reducible refine Memory.form_of (State.setPart_mem _ _ _) ?_ | with_reducible apply Memory.wf_writePa
    | (with_reducible apply foldl_form; intro s x hf) | dsimp only | split | (rename _ = some _ => he; split at he)
    | (rename some _ = some _ => he; cases he)

theorem State.doQuiesce_form (s : State) (part : Nat) (hf : Memory.wf s.mem = true) :
    Memory.wf (State.doQuiesce s part).mem = true := by
  unfold State.doQuiesce
  repeat' first
    | with_reducible assumption | (with_reducible apply Memory.form_ite <;> intro _) | with_reducible apply State.askEvict_form
    | with_reducible refine Memory.form_of (State.updPart_mem _ _ _) ?_ | with_reducible apply Memory.wf_writePa
    | (with_reducible apply foldl_form; intro s x hf) | dsimp only | split | (rename _ = some _ => he; split at he)
    | (rename some _ = some _ => he; cases he)

theorem State.doRebase_form (s : State) (part : Nat) (hf : Memory.wf s.mem = true) :
    Memory.wf (State.doRebase s part).mem = true := by
  unfold State.doRebase
  repeat' first
    | with_reducible assumption | (with_reducible apply Memory.form_ite <;> intro _) | with_reducible apply State.updImage_form
    | with_reducible refine Memory.form_of (State.updPart_mem _ _ _) ?_ | with_reducible apply Memory.wf_writePa
    | (with_reducible apply foldl_form; intro s x hf) | dsimp only | split | (rename _ = some _ => he; split at he)
    | (rename some _ = some _ => he; cases he)

@[simp] theorem State.doShootdown_mem (s : State) (part : Nat) (x : Word) : (State.doShootdown s part x).mem = s.mem := by
  simp only [State.doShootdown]
  repeat' first | rfl | assumption | (refine Eq.trans (foldl_mem (fun s x => ?_) _ _) ?_) | split | simp

theorem State.unpark_form (s : State) (u : Nat) (hf : Memory.wf s.mem = true) : Memory.wf (State.unpark s u).mem = true := by
  unfold State.unpark
  repeat' first
    | with_reducible assumption | (with_reducible apply Memory.form_ite <;> intro _) | with_reducible apply State.useImage_form
    | with_reducible refine Memory.form_of (State.fetchImage_mem _ _) ?_
    | with_reducible refine Memory.form_of (State.makeResident_mem _ _) ?_
    | with_reducible refine Memory.form_of (State.updCore_mem _ _ _) ?_
    | with_reducible refine Memory.form_of (State.updGrp_mem _ _ _) ?_ | with_reducible apply Memory.wf_writePa
    | (with_reducible apply foldl_form; intro s x hf) | dsimp only | split | (rename _ = some _ => he; split at he)
    | (rename some _ = some _ => he; cases he)

theorem State.combtestStore_form (s : State) (die : Nat) (mode : Nat) (value : Word) (hf : Memory.wf s.mem = true) :
    Memory.wf (State.combtestStore s die mode value).mem = true := by
  unfold State.combtestStore
  repeat' first
    | with_reducible assumption | (with_reducible apply Memory.form_ite <;> intro _)
    | with_reducible apply State.hartWriteReg_form | with_reducible apply Memory.wf_writePa
    | (with_reducible apply foldl_form; intro s x hf) | dsimp only | split | (rename _ = some _ => he; split at he)
    | (rename some _ = some _ => he; cases he)

theorem State.flushImage_form (s : State) (u : Nat) (hf : Memory.wf s.mem = true) :
    Memory.wf (State.flushImage s u).mem = true := by
  unfold State.flushImage
  repeat' first
    | with_reducible assumption | (with_reducible apply Memory.form_ite <;> intro _) | with_reducible apply State.saveImage_form
    | with_reducible apply Memory.wf_writePa | (with_reducible apply foldl_form; intro s x hf) | dsimp only | split
    | (rename _ = some _ => he; split at he) | (rename some _ = some _ => he; cases he)

theorem State.deliverTrap_form (s : State) (u : Nat) (hf : Memory.wf s.mem = true) :
    Memory.wf (State.deliverTrap s u).mem = true := by
  unfold State.deliverTrap
  repeat' first
    | with_reducible refine Memory.form_of (State.updGrp_mem _ _ _) ?_
    | with_reducible assumption | (with_reducible apply Memory.form_ite <;> intro _) | with_reducible apply State.handlerStep_form
    | with_reducible apply Memory.wf_writePa | (with_reducible apply foldl_form; intro s x hf) | dsimp only | split
    | (rename _ = some _ => he; split at he) | (rename some _ = some _ => he; cases he)

theorem State.parkRetry_form (s : State) (part : Nat) (slot : Nat) (hf : Memory.wf s.mem = true) :
    Memory.wf (State.parkRetry s part slot).mem = true := by
  unfold State.parkRetry
  repeat' first
    | with_reducible assumption | (with_reducible apply Memory.form_ite <;> intro _) | with_reducible apply State.flushImage_form
    | with_reducible apply State.releaseHeld_form | with_reducible apply State.unpark_form
    | with_reducible refine Memory.form_of (State.updGrp_mem _ _ _) ?_ | with_reducible apply Memory.wf_writePa
    | (with_reducible apply foldl_form; intro s x hf) | dsimp only | split | (rename _ = some _ => he; split at he)
    | (rename some _ = some _ => he; cases he)

theorem State.parkDeliver_form (s : State) (part : Nat) (slot : Nat) (hf : Memory.wf s.mem = true) :
    Memory.wf (State.parkDeliver s part slot).mem = true := by
  unfold State.parkDeliver
  repeat' first
    | with_reducible assumption | (with_reducible apply Memory.form_ite <;> intro _) | with_reducible apply State.deliverTrap_form
    | with_reducible apply State.flushImage_form | with_reducible apply State.releaseHeld_form
    | with_reducible apply State.unpark_form | with_reducible apply Memory.wf_writePa
    | (with_reducible apply foldl_form; intro s x hf) | dsimp only | split | (rename _ = some _ => he; split at he)
    | (rename some _ = some _ => he; cases he)

theorem State.parkKill_form (s : State) (part : Nat) (slot : Nat) (hf : Memory.wf s.mem = true) :
    Memory.wf (State.parkKill s part slot).mem = true := by
  unfold State.parkKill
  repeat' first
    | with_reducible assumption | (with_reducible apply Memory.form_ite <;> intro _) | with_reducible apply State.killGang_form
    | with_reducible refine Memory.form_of (State.updLaunch_mem _ _ _) ?_ | with_reducible apply Memory.wf_writePa
    | (with_reducible apply foldl_form; intro s x hf) | dsimp only | split | (rename _ = some _ => he; split at he)
    | (rename some _ = some _ => he; cases he)

theorem State.askRebase_form (s : State) (part : Nat) (hf : Memory.wf s.mem = true) :
    Memory.wf (State.askRebase s part).mem = true := by
  unfold State.askRebase
  repeat' first
    | with_reducible assumption | (with_reducible apply Memory.form_ite <;> intro _) | with_reducible apply State.doRebase_form
    | with_reducible apply Memory.wf_writePa | (with_reducible apply foldl_form; intro s x hf) | dsimp only | split
    | (rename _ = some _ => he; split at he) | (rename some _ = some _ => he; cases he)

@[simp] theorem State.clearTeardown_mem (s : State) (part : Nat) : (State.clearTeardown s part).mem = s.mem := by
  simp only [State.clearTeardown]
  repeat' first | rfl | assumption | (refine Eq.trans (foldl_mem (fun s x => ?_) _ _) ?_) | split | simp

theorem State.writeUnit_form (s : State) (part : Nat) (off : Nat) (x : Word) (hf : Memory.wf s.mem = true) :
    Memory.wf (State.writeUnit s part off x).mem = true := by
  unfold State.writeUnit
  repeat' first
    | with_reducible assumption | (with_reducible apply Memory.form_ite <;> intro _) | with_reducible apply State.askRebase_form
    | with_reducible apply State.doQuiesce_form | with_reducible apply State.parkDeliver_form
    | with_reducible apply State.parkKill_form | with_reducible apply State.parkRetry_form
    | with_reducible apply State.teardownPart_form | with_reducible apply State.writeGraphctl_form
    | with_reducible refine Memory.form_of (State.clearTeardown_mem _ _) ?_
    | with_reducible refine Memory.form_of (State.doShootdown_mem _ _ _) ?_
    | with_reducible refine Memory.form_of (State.updPart_mem _ _ _) ?_ | with_reducible apply Memory.wf_writePa
    | (with_reducible apply foldl_form; intro s x hf) | dsimp only | split | (rename _ = some _ => he; split at he)
    | (rename some _ = some _ => he; cases he)

theorem State.blockStore_form {s : State} {die : Nat} {off : Nat} {x : Word} {t : State} (hf : Memory.wf s.mem = true) (e :
    State.blockStore s die off x = some t) : Memory.wf t.mem = true := by
  simp only [State.blockStore, bind, Option.bind, Except.bind, pure, Except.pure] at e
  repeat' first | (cases e; done) | split at e
  all_goals try obtain rfl := Option.some.inj e
  all_goals (repeat' first
    | with_reducible assumption | (with_reducible apply Memory.form_ite <;> intro _)
    | with_reducible apply State.hartWriteReg_form | with_reducible apply State.writeUnit_form
    | with_reducible apply Memory.wf_writePa | (with_reducible apply foldl_form; intro s x hf) | dsimp only | split
    | (rename _ = some _ => he; split at he) | (rename some _ = some _ => he; cases he))

@[simp] theorem State.markLost_mem (s : State) (d : Nat) : (State.markLost s d).mem = s.mem := by
  simp only [State.markLost]
  repeat' first | rfl | assumption | (refine Eq.trans (foldl_mem (fun s x => ?_) _ _) ?_) | split | simp

theorem State.afterLoss_form (s : State) (d : Nat) (hf : Memory.wf s.mem = true) :
    Memory.wf (State.afterLoss s d).mem = true := by
  unfold State.afterLoss
  repeat' first
    | with_reducible assumption | (with_reducible apply Memory.form_ite <;> intro _) | with_reducible apply State.gangFate_form
    | with_reducible apply State.wakeWaits_form | with_reducible refine Memory.form_of (State.abortWave_mem _ _) ?_
    | with_reducible apply Memory.wf_writePa | (with_reducible apply foldl_form; intro s x hf) | dsimp only | split
    | (rename _ = some _ => he; split at he) | (rename some _ = some _ => he; cases he)

theorem State.loseDiesSince_form (s old : State) (ds : List Nat) (hf : Memory.wf s.mem = true) :
    Memory.wf (State.loseDiesSince s old ds).mem = true :=
  foldl_form (fun _ _ h => State.afterLoss_form _ _ h)
    (Memory.form_of ((State.alarm_mem _ _ _).trans (foldl_mem (fun _ _ => State.markLost_mem _ _) _ _)) hf) _

theorem State.loseDie_form (s : State) (d : Nat) (hf : Memory.wf s.mem = true) : Memory.wf (State.loseDie s d).mem = true :=
  State.loseDiesSince_form _ _ _ hf

@[simp] theorem State.agentMark_mem (s : State) (part pts va n : Nat) : (State.agentMark s part pts va n).2.mem = s.mem := by
  have h (xs : List Nat) (f : Nat × State → Nat → Nat × State) (hf : ∀ x k, (f x k).2.mem = x.2.mem) (x : Nat × State) :
      (xs.foldl f x).2.mem = x.2.mem := by
    induction xs generalizing x with
    | nil => rfl
    | cons k r ih => rw [List.foldl_cons, ih, hf]
  refine h _ _ (fun x k => ?_) _
  dsimp only
  split
  · split
    · exact State.homeLoad_mem _ _ _ _
    · rfl
  · rfl

theorem State.agentWrite_form (s : State) (part pts va : Nat) (xs : List Word) (hf : Memory.wf s.mem = true) :
    Memory.wf (State.agentWrite s part pts va xs).2.mem = true := by
  induction xs generalizing s pts va with
  | nil => exact hf
  | cons w r ih =>
    simp only [State.agentWrite]
    refine ih _ _ _ ?_
    split
    · exact State.agentStore_form _ _ _ _ _ _ hf
    · exact hf

@[simp] theorem State.ringInterrupt_mem (s : State) (part : Nat) (ring : Nat) :
    (State.ringInterrupt s part ring).mem = s.mem := by
  simp only [State.ringInterrupt]
  repeat' first | rfl | assumption | (refine Eq.trans (foldl_mem (fun s x => ?_) _ _) ?_) | split | simp

@[simp] theorem State.fillCopy_mem (s : State) (c : Copy) : (State.fillCopy s c).mem = s.mem := by
  simp only [State.fillCopy]
  repeat' first | rfl | assumption | (refine Eq.trans (foldl_mem (fun s x => ?_) _ _) ?_) | split | simp

@[simp] theorem State.sawLine_mem (s : State) (u : Nat) (line : Nat) (w : Nat) : (State.sawLine s u line w).mem = s.mem := by
  simp only [State.sawLine]
  repeat' first | rfl | assumption | (refine Eq.trans (foldl_mem (fun s x => ?_) _ _) ?_) | split | simp

@[simp] theorem State.loadHome_mem (s : State) (g : Grp) (pa : Nat) (n : Nat) (reqPts : Nat) (cls : Class) (policy : Policy)
    (l1 : Bool) : (State.loadHome s g pa n reqPts cls policy l1).2.2.mem = s.mem := by
  simp only [State.loadHome]
  repeat' first | rfl | assumption | (refine Eq.trans (foldl_mem (fun s x => ?_) _ _) ?_) | split | simp

@[simp] theorem State.loadHit_mem (s : State) (g : Grp) (c : Copy) (inL1 : Bool) (pa : Nat) (n : Nat) :
    (State.loadHit s g c inL1 pa n).2.2.mem = s.mem := by
  simp only [State.loadHit]
  repeat' first | rfl | assumption | (refine Eq.trans (foldl_mem (fun s x => ?_) _ _) ?_) | split | simp

@[simp] theorem State.loadNow_mem (s : State) (g : Grp) (pa : Nat) (n : Nat) (cls : Class) :
    (State.loadNow s g pa n cls).2.2.mem = s.mem := by
  simp only [State.loadNow]
  repeat' first | rfl | assumption | (refine Eq.trans (foldl_mem (fun s x => ?_) _ _) ?_) | split | simp

@[simp] theorem State.agentLoads_mem (s : State) (u : Nat) (part : Nat) (ps : List (Nat × Nat × Target)) :
    (State.agentLoads s u part ps).mem = s.mem := by
  simp only [State.agentLoads]
  repeat' first | rfl | assumption | (refine Eq.trans (foldl_mem (fun s x => ?_) _ _) ?_) | split | simp

@[simp] theorem State.raiseFor_mem (s : State) (q : Req) (t : Nat) : (State.raiseFor s q t).mem = s.mem := by
  simp only [State.raiseFor]
  repeat' first | rfl | assumption | (refine Eq.trans (foldl_mem (fun s x => ?_) _ _) ?_) | split | simp

@[simp] theorem State.beganWait_mem (s : State) (u : Nat) : (State.beganWait s u).mem = s.mem := by
  simp only [State.beganWait]
  repeat' first | rfl | assumption | (refine Eq.trans (foldl_mem (fun s x => ?_) _ _) ?_) | split | simp

theorem State.mwaitRead_form (s : State) (u : Nat) (slot : Bool) (hf : Memory.wf s.mem = true) :
    Memory.wf (State.mwaitRead s u slot).mem = true := by
  unfold State.mwaitRead
  repeat' first
    | with_reducible refine Memory.form_of (State.await_mem _ _) ?_ | with_reducible refine Memory.form_of (State.unawait_mem _ _) ?_
    | with_reducible refine Memory.form_of (State.unwait_mem _ _) ?_ | with_reducible refine Memory.form_of (State.served_mem _ _) ?_
    | with_reducible refine Memory.form_of (State.demand_mem _ _ _ _) ?_
    | with_reducible assumption | (with_reducible apply Memory.form_ite <;> intro _) | with_reducible apply State.endWait_form
    | with_reducible refine Memory.form_of (State.homeLoad_mem _ _ _ _) ?_
    | with_reducible refine Memory.form_of (State.raisePts_mem _ _ _) ?_
    | with_reducible refine Memory.form_of (State.updGrp_mem _ _ _) ?_ | with_reducible apply Memory.wf_writePa
    | (with_reducible apply foldl_form; intro s x hf) | dsimp only | split | (rename _ = some _ => he; split at he)
    | (rename some _ = some _ => he; cases he)

theorem State.trapIssue_form (s : State) (i : Issue) (t : Trap) (hf : Memory.wf s.mem = true) :
    Memory.wf (State.trapIssue s i t).mem = true := by
  unfold State.trapIssue
  repeat' first
    | with_reducible assumption | (with_reducible apply Memory.form_ite <;> intro _) | with_reducible apply State.settleGang_form
    | with_reducible apply State.takeTrap_form | with_reducible refine Memory.form_of (State.updGrp_mem _ _ _) ?_
    | with_reducible apply Memory.wf_writePa | (with_reducible apply foldl_form; intro s x hf) | dsimp only | split
    | (rename _ = some _ => he; split at he) | (rename some _ = some _ => he; cases he)

theorem State.trapScene_form (s : State) (t : Trap) (hf : Memory.wf s.mem = true) :
    Memory.wf (State.trapScene s t).mem = true := by
  unfold State.trapScene
  repeat' first
    | with_reducible assumption | (with_reducible apply Memory.form_ite <;> intro _) | with_reducible apply State.trapIssue_form
    | with_reducible apply Memory.wf_writePa | (with_reducible apply foldl_form; intro s x hf) | dsimp only | split
    | (rename _ = some _ => he; split at he) | (rename some _ = some _ => he; cases he)

theorem State.word_form {s : State} {ins : Instr} {f : Issue → Except Trap Issue} {t : State} (hf : Memory.wf s.mem = true)
    (e : State.word s ins f = .next t) : Memory.wf t.mem = true := by
  simp only [State.word, bind, Option.bind, Except.bind, pure, Except.pure] at e
  repeat' first | (cases e; done) | split at e
  all_goals try obtain rfl := Host.Outcome.next.inj e
  all_goals (repeat' first
    | with_reducible assumption | (with_reducible apply Memory.form_ite <;> intro _) | with_reducible apply State.trapScene_form
    | with_reducible apply Memory.wf_writePa | (with_reducible apply foldl_form; intro s x hf) | dsimp only | split
    | (rename _ = some _ => he; split at he) | (rename some _ = some _ => he; cases he))

theorem Ck.wload_s {k : Ck} {o : SOp} {r : SOp × Ck} (e : Ck.wload k o = .ok r) : r.2.s.mem = k.s.mem := by
  simp only [Ck.wload, bind, Except.bind] at e
  repeat' first | (cases e; done) | split at e
  all_goals cases e
  all_goals first | rfl | simp

theorem Ck.stage_s {k : Ck} {o : SOp} {single : Bool} {r : SOp × Ck} (e : Ck.stage k o single = .ok r) : r.2.s.mem = k.s.mem := by
  simp only [Ck.stage, bind, Except.bind] at e
  repeat' first | (cases e; done) | split at e
  all_goals cases e
  all_goals first | rfl | simp

theorem Ck.qcfg_s {k : Ck} {o : SOp} {n : Nat} {r : SOp × Ck} (e : Ck.qcfg k o n = .ok r) : r.2.s.mem = k.s.mem := by
  simp only [Ck.qcfg, bind, Except.bind] at e
  repeat' first | (cases e; done) | split at e
  all_goals cases e
  all_goals first | rfl | simp

theorem Ck.wfree_s {k : Ck} {o : SOp} {r : SOp × Ck} (e : Ck.wfree k o = .ok r) : r.2.s.mem = k.s.mem := by
  simp only [Ck.wfree, bind, Except.bind] at e
  repeat' first | (cases e; done) | split at e
  all_goals cases e
  all_goals first | rfl | simp

theorem Ck.bexec_s {k : Ck} {o : SOp} {r : SOp × Ck} (e : Ck.bexec k o = .ok r) : r.2.s.mem = k.s.mem := by
  simp only [Ck.bexec, bind, Except.bind] at e
  repeat' first | (cases e; done) | split at e
  all_goals cases e
  all_goals first | rfl | simp

theorem Ck.rowop_s {k : Ck} {o : SOp} {r : SOp × Ck} (e : Ck.rowop k o = .ok r) : r.2.s.mem = k.s.mem := by
  simp only [Ck.rowop, bind, Except.bind] at e
  repeat' first | (cases e; done) | split at e
  all_goals cases e
  all_goals first | rfl | simp

theorem Ck.bpage_s {k : Ck} {o : SOp} {w : Nat} {r : SOp × Ck} (e : Ck.bpage k o w = .ok r) : r.2.s.mem = k.s.mem := by
  simp only [Ck.bpage, bind, Except.bind] at e
  repeat' first | (cases e; done) | split at e
  all_goals cases e
  all_goals first | rfl | simp

theorem Ck.gbind_s {k : Ck} {o : SOp} {r : SOp × Ck} (e : Ck.gbind k o = .ok r) : r.2.s.mem = k.s.mem := by
  simp only [Ck.gbind, bind, Except.bind] at e
  repeat' first | (cases e; done) | split at e
  all_goals cases e
  all_goals first | rfl | simp

theorem Ck.gprog_s {k : Ck} {o : SOp} {r : SOp × Ck} (e : Ck.gprog k o = .ok r) : r.2.s.mem = k.s.mem := by
  simp only [Ck.gprog, bind, Except.bind] at e
  repeat' first | (cases e; done) | split at e
  all_goals cases e
  all_goals first | rfl | simp

theorem Ck.gmark_s {k : Ck} {o : SOp} {r : SOp × Ck} (e : Ck.gmark k o = .ok r) : r.2.s.mem = k.s.mem := by
  simp only [Ck.gmark, bind, Except.bind] at e
  repeat' first | (cases e; done) | split at e
  all_goals cases e
  all_goals first | rfl | simp

theorem Ck.gclr_s {k : Ck} {o : SOp} {r : SOp × Ck} (e : Ck.gclr k o = .ok r) : r.2.s.mem = k.s.mem := by
  simp only [Ck.gclr, bind, Except.bind] at e
  repeat' first | (cases e; done) | split at e
  all_goals cases e
  all_goals first | rfl | simp

theorem Ck.gprop_s {k : Ck} {o : SOp} {r : SOp × Ck} (e : Ck.gprop k o = .ok r) : r.2.s.mem = k.s.mem := by
  simp only [Ck.gprop, bind, Except.bind] at e
  repeat' first | (cases e; done) | split at e
  all_goals cases e
  all_goals first | rfl | simp

theorem Ck.gcoll_s {k : Ck} {o : SOp} {r : SOp × Ck} (e : Ck.gcoll k o = .ok r) : r.2.s.mem = k.s.mem := by
  simp only [Ck.gcoll, bind, Except.bind] at e
  repeat' first | (cases e; done) | split at e
  all_goals cases e
  all_goals first | rfl | simp

theorem Ck.queueUse_s {k : Ck} {o : SOp} {n : Nat} {push : Bool} {r : SOp × Ck} (e : Ck.queueUse k o n push = .ok r) :
    r.2.s.mem = k.s.mem := by
  simp only [Ck.queueUse, bind, Except.bind] at e
  repeat' first | (cases e; done) | split at e
  all_goals cases e
  all_goals first | rfl | simp

theorem Ck.memory_s {k : Ck} {o : SOp} {w : Nat} {disp : Nat} {size : Nat} {kind : AccKind} {r : SOp × Ck} (e :
    Ck.memory k o w disp size kind = .ok r) : r.2.s.mem = k.s.mem := by
  simp only [Ck.memory, bind, Except.bind] at e
  repeat' first | (cases e; done) | split at e
  all_goals cases e
  all_goals first | rfl | simp

theorem Ck.prefetch_s {k : Ck} {o : SOp} {w : Nat} {disp : Nat} {r : SOp × Ck} (e : Ck.prefetch k o w disp = .ok r) :
    r.2.s.mem = k.s.mem := by
  simp only [Ck.prefetch, bind, Except.bind] at e
  repeat' first | (cases e; done) | split at e
  all_goals cases e
  all_goals first | rfl | simp

theorem Ck.copy_s {k : Ck} {o : SOp} {src : Nat} {dst : Nat} {r : SOp × Ck} (e : Ck.copy k o src dst = .ok r) :
    r.2.s.mem = k.s.mem := by
  simp only [Ck.copy, bind, Except.bind] at e
  repeat' first | (cases e; done) | split at e
  all_goals cases e
  all_goals first | rfl | simp

theorem Ck.winld_s {k : Ck} {o : SOp} {n : Nat} {r : SOp × Ck} (e : Ck.winld k o n = .ok r) : r.2.s.mem = k.s.mem := by
  simp only [Ck.winld, bind, Except.bind] at e
  repeat' first | (cases e; done) | split at e
  all_goals cases e
  all_goals first | rfl | simp

theorem Ck.winsub_s {k : Ck} {o : SOp} {src : Nat} {r : SOp × Ck} (e : Ck.winsub k o src = .ok r) : r.2.s.mem = k.s.mem := by
  simp only [Ck.winsub, bind, Except.bind] at e
  repeat' first | (cases e; done) | split at e
  all_goals cases e
  all_goals first | rfl | simp

theorem Ck.wrsp_s {k : Ck} {o : SOp} {n : Nat} {r : SOp × Ck} (e : Ck.wrsp k o n = .ok r) : r.2.s.mem = k.s.mem := by
  simp only [Ck.wrsp, bind, Except.bind] at e
  repeat' first | (cases e; done) | split at e
  all_goals cases e
  all_goals first | rfl | simp

theorem Ck.wrsys_s {k : Ck} {o : SOp} {n : Nat} {r : SOp × Ck} (e : Ck.wrsys k o n = .ok r) : r.2.s.mem = k.s.mem := by
  simp only [Ck.wrsys, bind, Except.bind] at e
  repeat' first | (cases e; done) | split at e
  all_goals cases e
  all_goals first | rfl | simp

theorem Ck.barinit_s {k : Ck} {o : SOp} {gang : Bool} {id : Nat} {phase : Nat} {r : SOp × Ck} (e :
    Ck.barinit k o gang id phase = .ok r) : r.2.s.mem = k.s.mem := by
  simp only [Ck.barinit, bind, Except.bind] at e
  repeat' first | (cases e; done) | split at e
  all_goals cases e
  all_goals first | rfl | simp

theorem Ck.acting_s {k : Ck} {o : SOp} {r : SOp × Ck} (e : Ck.acting k o = .ok r) : r.2.s.mem = k.s.mem := by
  simp only [Ck.acting, bind, Except.bind] at e
  split at e <;> first
    | exact Ck.wrsp_s e | exact Ck.winld_s e | exact Ck.winsub_s e | exact Ck.prefetch_s e | exact Ck.copy_s e
    | exact Ck.barinit_s e | exact Ck.wload_s e | exact Ck.stage_s e | exact Ck.qcfg_s e | exact Ck.wfree_s e
    | exact Ck.gbind_s e | exact Ck.gprog_s e | exact Ck.gmark_s e | exact Ck.gprop_s e | exact Ck.gcoll_s e | exact Ck.gclr_s e
    | exact Ck.bexec_s e | exact Ck.rowop_s e | exact Ck.bpage_s e
    | (repeat' first | exact Ck.memory_s e | (cases e; done) | (cases e; rfl) | split at e)

theorem Ck.op_s {k : Ck} {o : SOp} {r : SOp × Ck} (e : Ck.op k o = .ok r) : r.2.s.mem = k.s.mem := by
  simp only [Ck.op] at e
  repeat' first | exact Ck.queueUse_s e | exact Ck.wrsys_s e | exact Ck.acting_s e | (cases e; rfl) | split at e

theorem Ck.ops_s {k : Ck} {xs : List SOp} {r : List SOp × Ck} (e : Ck.ops k xs = .ok r) : r.2.s.mem = k.s.mem := by
  induction xs generalizing k r with
  | nil => cases e; rfl
  | cons o xs ih =>
    simp only [Ck.ops] at e
    split at e
    · cases e
    · next h =>
      split at e
      · cases e
      · next h' => cases e; exact (ih h').trans (Ck.op_s h)

theorem State.checkScene_mem {s : State} {i : Issue} {t : List SOp × State} (e : State.checkScene s i = .ok t) :
    t.2.mem = s.mem := by
  simp only [State.checkScene] at e
  split at e
  · cases e
  · next h =>
    split at e
    · cases e
    · cases e; exact Ck.ops_s h

@[simp] theorem State.updWave_mem (s : State) (id : Nat) (f : Wave → Wave) : (State.updWave s id f).mem = s.mem := by
  simp only [State.updWave]
  repeat' first | rfl | assumption | (refine Eq.trans (foldl_mem (fun s x => ?_) _ _) ?_) | split | simp

@[simp] theorem State.updRec_mem (s : State) (w : Wave) (f : WaveRec → WaveRec) : (State.updRec s w f).mem = s.mem := by
  simp only [State.updRec]
  repeat' first | rfl | assumption | (refine Eq.trans (foldl_mem (fun s x => ?_) _ _) ?_) | split | simp

theorem State.mergeMarkers_mem {s : State} {wave : Nat} {q : Nat} {p : Nat} {t : State} (e :
    State.mergeMarkers s wave q p = some t) : t.mem = s.mem := by
  simp only [State.mergeMarkers, bind, Option.bind, Except.bind, pure, Except.pure] at e
  repeat' first | (cases e; done) | split at e
  all_goals try obtain rfl := Option.some.inj e
  all_goals (repeat' first | rfl | assumption | (refine Eq.trans (foldl_mem (fun s x => ?_) _ _) ?_) | split | simp)

@[simp] theorem State.sendAtomics_mem (s : State) (r : Req) : (State.sendAtomics s r).mem = s.mem := by
  simp only [State.sendAtomics]
  repeat' first | rfl | assumption | (refine Eq.trans (foldl_mem (fun s x => ?_) _ _) ?_) | split | simp

@[simp] theorem State.updPkt_mem (s : State) (id : Nat) (f : Packet → Packet) : (State.updPkt s id f).mem = s.mem := by
  simp only [State.updPkt]
  repeat' first | rfl | assumption | (refine Eq.trans (foldl_mem (fun s x => ?_) _ _) ?_) | split | simp

@[simp] theorem State.dropPkt_mem (s : State) (id : Nat) : (State.dropPkt s id).mem = s.mem := by
  simp only [State.dropPkt]
  repeat' first | rfl | assumption | (refine Eq.trans (foldl_mem (fun s x => ?_) _ _) ?_) | split | simp

@[simp] theorem State.sendPacket_mem (s : State) (h : Hop) (p : Packet) : (State.sendPacket s h p).mem = s.mem := by
  simp only [State.sendPacket]
  repeat' first | rfl | assumption | (refine Eq.trans (foldl_mem (fun s x => ?_) _ _) ?_) | split | simp

@[simp] theorem State.makeRecord_mem (s : State) (h : Hop) (a : Packet) (b : Packet) (op : AtomOp) (signed : Bool) :
    (State.makeRecord s h a b op signed).mem = s.mem := by
  simp only [State.makeRecord]
  repeat' first | rfl | assumption | (refine Eq.trans (foldl_mem (fun s x => ?_) _ _) ?_) | split | simp

@[simp] theorem State.deliver_mem (s : State) (c : Constituent) (v : Word) (pois : Bool) :
    (State.deliver s c v pois).mem = s.mem := by
  simp only [State.deliver]
  repeat' first | rfl | assumption | (refine Eq.trans (foldl_mem (fun s x => ?_) _ _) ?_) | split | simp

@[simp] theorem State.sendReply_mem (s : State) (r : Reply) : (State.sendReply s r).mem = s.mem := by
  simp only [State.sendReply]
  repeat' first | rfl | assumption | (refine Eq.trans (foldl_mem (fun s x => ?_) _ _) ?_) | split | simp

@[simp] theorem State.updQueue_mem (s : State) (gang : Nat) (coreIdx : Nat) (n : Nat) (f : Queue → Queue) :
    (State.updQueue s gang coreIdx n f).mem = s.mem := by
  simp only [State.updQueue]
  repeat' first | rfl | assumption | (refine Eq.trans (foldl_mem (fun s x => ?_) _ _) ?_) | split | simp

@[simp] theorem State.addReq_mem (s : State) (r : Req) : (State.addReq s r).2.mem = s.mem := by
  simp only [State.addReq]
  repeat' first | rfl | assumption | (refine Eq.trans (foldl_mem (fun s x => ?_) _ _) ?_) | split | simp

theorem State.doLoad_form {s : State} {g : Grp} {i : Issue} {o : SOp} {d : Sel} {n : Nat} {t : State} (hf :
    Memory.wf s.mem = true) (e : State.doLoad s g i o d n = some t) : Memory.wf t.mem = true := by
  simp only [State.doLoad, bind, Option.bind, Except.bind, pure, Except.pure] at e
  repeat' first | (cases e; done) | split at e
  all_goals try obtain rfl := Option.some.inj e
  all_goals (repeat' first
    | with_reducible assumption | (with_reducible apply Memory.form_ite <;> intro _) | with_reducible apply State.wcFlush_form
    | with_reducible refine Memory.form_of (State.addReq_mem _ _) ?_ | with_reducible apply Memory.wf_writePa
    | (with_reducible apply foldl_form; intro s x hf) | dsimp only | split | (rename _ = some _ => he; split at he)
    | (rename some _ = some _ => he; cases he))

theorem State.storeScratch_form (s : State) (accs : List Acc) (hf : Memory.wf s.mem = true) :
    Memory.wf (State.storeScratch s accs).mem = true := by
  unfold State.storeScratch
  repeat' first
    | with_reducible assumption | (with_reducible apply Memory.form_ite <;> intro _) | with_reducible apply State.writeTarget_form
    | with_reducible refine Memory.form_of (State.fireWatches_mem _ _ _) ?_ | with_reducible apply Memory.wf_writePa
    | (with_reducible apply foldl_form; intro s x hf) | dsimp only | split | (rename _ = some _ => he; split at he)
    | (rename some _ = some _ => he; cases he)

theorem State.wcPut_form (s : State) (g : Grp) (req : Nat) (a : Acc) (n : Nat) (hf : Memory.wf s.mem = true) :
    Memory.wf (State.wcPut s g req a n).mem = true := by
  unfold State.wcPut
  repeat' first
    | with_reducible assumption | (with_reducible apply Memory.form_ite <;> intro _) | with_reducible apply State.wcFlush_form
    | with_reducible refine Memory.form_of (State.updCore_mem _ _ _) ?_ | with_reducible apply Memory.wf_writePa
    | (with_reducible apply foldl_form; intro s x hf) | dsimp only | split | (rename _ = some _ => he; split at he)
    | (rename some _ = some _ => he; cases he)

theorem State.hold_mem {s : State} {g : Grp} {i : Issue} {ins : Instr} {signed : Bool} {accs : List Acc} {t : State} (e :
    State.hold s g i ins signed accs = some t) : t.mem = s.mem := by
  simp only [State.hold, bind, Option.bind, Except.bind, pure, Except.pure] at e
  repeat' first | (cases e; done) | split at e
  all_goals try obtain rfl := Option.some.inj e
  all_goals (repeat' first | rfl | assumption | (refine Eq.trans (foldl_mem (fun s x => ?_) _ _) ?_) | split | simp)

theorem State.doStore_form {s : State} {g : Grp} {i : Issue} {o : SOp} {t : State} (hf : Memory.wf s.mem = true) (e :
    State.doStore s g i o = some t) : Memory.wf t.mem = true := by
  simp only [State.doStore, bind, Option.bind, Except.bind, pure, Except.pure] at e
  repeat' first | (cases e; done) | split at e
  all_goals try obtain rfl := Option.some.inj e
  all_goals (repeat' first
    | with_reducible assumption | (with_reducible apply Memory.form_ite <;> intro _)
    | with_reducible refine Memory.form_of (State.hold_mem (by assumption)) ?_ | with_reducible apply State.storeScratch_form
    | with_reducible apply State.wcPut_form | with_reducible refine Memory.form_of (State.addReq_mem _ _) ?_
    | with_reducible refine Memory.form_of (State.addSide_mem _ _ _ _ _ _) ?_ | with_reducible apply Memory.wf_writePa
    | (with_reducible apply foldl_form; intro s x hf) | dsimp only | split | (rename _ = some _ => he; split at he)
    | (rename some _ = some _ => he; cases he))

theorem State.atomScratch_form (s : State) (op : AtomOp) (signed : Bool) (xs : List Acc) (hf : Memory.wf s.mem = true) :
    Memory.wf (State.atomScratch s op signed xs).2.mem = true := by
  induction xs generalizing s with
  | nil => exact hf
  | cons a r ih => exact ih _ (State.writeTarget_form _ _ _ hf)

theorem State.doAtomic_form {s : State} {g : Grp} {i : Issue} {o : SOp} {d : Option Sel} {t : State} (hf :
    Memory.wf s.mem = true) (e : State.doAtomic s g i o d = some t) : Memory.wf t.mem = true := by
  simp only [State.doAtomic, bind, Option.bind, Except.bind, pure, Except.pure] at e
  repeat' first | (cases e; done) | split at e
  all_goals try obtain rfl := Option.some.inj e
  all_goals (repeat' first
    | with_reducible assumption | (with_reducible apply Memory.form_ite <;> intro _)
    | with_reducible refine Memory.form_of (State.hold_mem (by assumption)) ?_ | with_reducible apply State.atomScratch_form
    | with_reducible refine Memory.form_of (State.addReq_mem _ _) ?_
    | with_reducible refine Memory.form_of (State.sendAtomics_mem _ _) ?_
    | with_reducible refine Memory.form_of (State.addSide_mem _ _ _ _ _ _) ?_ | with_reducible apply Memory.wf_writePa
    | (with_reducible apply foldl_form; intro s x hf) | dsimp only | split | (rename _ = some _ => he; split at he)
    | (rename some _ = some _ => he; cases he))

@[simp] theorem State.prefetchLine_mem (s : State) (g : Grp) (pa : Nat) (cls : Class) (l1 : Bool) :
    (State.prefetchLine s g pa cls l1).mem = s.mem := by
  simp only [State.prefetchLine]
  repeat' first | rfl | assumption | (refine Eq.trans (foldl_mem (fun s x => ?_) _ _) ?_) | split | simp

@[simp] theorem State.doPrefetch_mem (s : State) (g : Grp) (i : Issue) (o : SOp) (l1 : Bool) :
    (State.doPrefetch s g i o l1).mem = s.mem := by
  simp only [State.doPrefetch]
  repeat' first | rfl | assumption | (refine Eq.trans (foldl_mem (fun s x => ?_) _ _) ?_) | split | simp

@[simp] theorem State.noteCopied_mem (s : State) (g : Grp) (lines : List Nat) : (State.noteCopied s g lines).mem = s.mem := by
  simp only [State.noteCopied]
  repeat' first | rfl | assumption | (refine Eq.trans (foldl_mem (fun s x => ?_) _ _) ?_) | split | simp

@[simp] theorem State.askBanks_mem (s : State) (g : Grp) (o : SOp) : (State.askBanks s g o).mem = s.mem := by
  simp only [State.askBanks]
  repeat' first | rfl | assumption | (refine Eq.trans (foldl_mem (fun s x => ?_) _ _) ?_) | split | simp

@[simp] theorem State.servedBanks_mem (s : State) (g : Grp) : (State.servedBanks s g).mem = s.mem := by
  simp only [State.servedBanks]
  repeat' first | rfl | assumption | (refine Eq.trans (foldl_mem (fun s x => ?_) _ _) ?_) | split | simp

theorem State.doCopy_form {s : State} {g : Grp} {i : Issue} {o : SOp} {t : State} (hf : Memory.wf s.mem = true) (e :
    State.doCopy s g i o = some t) : Memory.wf t.mem = true := by
  simp only [State.doCopy, bind, Option.bind, Except.bind, pure, Except.pure] at e
  repeat' first | (cases e; done) | split at e
  all_goals try obtain rfl := Option.some.inj e
  all_goals (repeat' first
    | with_reducible assumption | (with_reducible apply Memory.form_ite <;> intro _) | with_reducible apply State.wcFlush_form
    | with_reducible refine Memory.form_of (State.agentLoads_mem _ _ _ _) ?_
    | with_reducible refine Memory.form_of (State.noteCopied_mem _ _ _) ?_
    | with_reducible refine Memory.form_of (State.addSide_mem _ _ _ _ _ _) ?_
    | with_reducible refine Memory.form_of (State.takeKey_mem _) ?_ | with_reducible apply Memory.wf_writePa
    | (with_reducible apply foldl_form; intro s x hf) | dsimp only | split | (rename _ = some _ => he; split at he)
    | (rename some _ = some _ => he; cases he))

theorem State.mirrorCopy_mem {s : State} {g : Grp} {t : Grp} {i : Issue} {o : SOp} {u : State} (e :
    State.mirrorCopy s g t i o = some u) : u.mem = s.mem := by
  simp only [State.mirrorCopy, bind, Option.bind, Except.bind, pure, Except.pure] at e
  repeat' first | (cases e; done) | split at e
  all_goals try obtain rfl := Option.some.inj e
  all_goals (repeat' first | rfl | assumption | (refine Eq.trans (foldl_mem (fun s x => ?_) _ _) ?_) | split | simp)

@[simp] theorem State.updBarrier_mem (s : State) (g : Grp) (gang : Bool) (id : Nat) (phase : Nat) (f : Barrier → Barrier) :
    (State.updBarrier s g gang id phase f).mem = s.mem := by
  simp only [State.updBarrier]
  repeat' first | rfl | assumption | (refine Eq.trans (foldl_mem (fun s x => ?_) _ _) ?_) | split | simp

theorem State.releaseWaiter_form (s : State) (u : Nat) (slot : Bool) (gang : Bool) (id : Nat) (phase : Nat) (t : Nat) (hf :
    Memory.wf s.mem = true) : Memory.wf (State.releaseWaiter s u slot gang id phase t).mem = true := by
  unfold State.releaseWaiter
  repeat' first
    | with_reducible assumption | (with_reducible apply Memory.form_ite <;> intro _) | with_reducible apply State.endWait_form
    | with_reducible refine Memory.form_of (State.updGrp_mem _ _ _) ?_ | with_reducible apply Memory.wf_writePa
    | (with_reducible apply foldl_form; intro s x hf) | dsimp only | split | (rename _ = some _ => he; split at he)
    | (rename some _ = some _ => he; cases he)

theorem State.wakeBarrier_form (s : State) (g : Grp) (gang : Bool) (id : Nat) (phase : Nat) (t : Nat) (hf :
    Memory.wf s.mem = true) : Memory.wf (State.wakeBarrier s g gang id phase t).mem = true := by
  unfold State.wakeBarrier
  repeat' first
    | with_reducible assumption | (with_reducible apply Memory.form_ite <;> intro _)
    | with_reducible apply State.releaseWaiter_form | with_reducible apply Memory.wf_writePa
    | (with_reducible apply foldl_form; intro s x hf) | dsimp only | split | (rename _ = some _ => he; split at he)
    | (rename some _ = some _ => he; cases he)

theorem State.arrive_form {s : State} {u : Nat} {gang : Bool} {id : Nat} {phase : Nat} {t : State} (hf :
    Memory.wf s.mem = true) (e : State.arrive s u gang id phase = some t) : Memory.wf t.mem = true := by
  simp only [State.arrive, bind, Option.bind, Except.bind, pure, Except.pure] at e
  repeat' first | (cases e; done) | split at e
  all_goals try obtain rfl := Option.some.inj e
  all_goals (repeat' first
    | with_reducible assumption | (with_reducible apply Memory.form_ite <;> intro _) | with_reducible apply State.wakeBarrier_form
    | with_reducible refine Memory.form_of (State.updBarrier_mem _ _ _ _ _ _) ?_
    | with_reducible refine Memory.form_of (State.updGrp_mem _ _ _) ?_ | with_reducible apply Memory.wf_writePa
    | (with_reducible apply foldl_form; intro s x hf) | dsimp only | split | (rename _ = some _ => he; split at he)
    | (rename some _ = some _ => he; cases he))

@[simp] theorem State.updECmd_mem (s : State) (id : Nat) (f : ECmd → ECmd) : (State.updECmd s id f).mem = s.mem := by
  simp only [State.updECmd]
  repeat' first | rfl | assumption | (refine Eq.trans (foldl_mem (fun s x => ?_) _ _) ?_) | split | simp

@[simp] theorem State.fill_mem (s : State) (gang : Nat) (coreIdx : Nat) (n : Nat) :
    (State.fill s gang coreIdx n).mem = s.mem := by
  simp only [State.fill]
  repeat' first | rfl | assumption | (refine Eq.trans (foldl_mem (fun s x => ?_) _ _) ?_) | split | simp

@[simp] theorem State.runStages_mem (s : State) (c : ECmd) : (State.runStages s c).mem = s.mem := by
  simp only [State.runStages]
  repeat' first | rfl | assumption | (refine Eq.trans (foldl_mem (fun s x => ?_) _ _) ?_) | split | simp

@[simp] theorem State.addECmd_mem (s : State) (c : ECmd) : (State.addECmd s c).mem = s.mem := by
  simp only [State.addECmd]
  repeat' first | rfl | assumption | (refine Eq.trans (foldl_mem (fun s x => ?_) _ _) ?_) | split | simp

@[simp] theorem State.markGranules_mem (s : State) (gang : Nat) (coreIdx : Nat) (first : Nat) (count : Nat) (f :
    Granule → Granule) : (State.markGranules s gang coreIdx first count f).mem = s.mem := by
  simp only [State.markGranules]
  repeat' first | rfl | assumption | (refine Eq.trans (foldl_mem (fun s x => ?_) _ _) ?_) | split | simp

@[simp] theorem State.enterWload_mem (s : State) (c : ECmd) : (State.enterWload s c).mem = s.mem := by
  simp only [State.enterWload]
  repeat' first | rfl | assumption | (refine Eq.trans (foldl_mem (fun s x => ?_) _ _) ?_) | split | simp

theorem State.doWload_form {s : State} {g : Grp} {i : Issue} {o : SOp} {t : State} (hf : Memory.wf s.mem = true) (e :
    State.doWload s g i o = some t) : Memory.wf t.mem = true := by
  simp only [State.doWload, bind, Option.bind, Except.bind, pure, Except.pure] at e
  repeat' first | (cases e; done) | split at e
  all_goals try obtain rfl := Option.some.inj e
  all_goals (repeat' first
    | with_reducible assumption | (with_reducible apply Memory.form_ite <;> intro _) | with_reducible apply State.wcFlush_form
    | with_reducible refine Memory.form_of (State.agentLoads_mem _ _ _ _) ?_
    | with_reducible refine Memory.form_of (State.enterWload_mem _ _) ?_ | with_reducible apply Memory.wf_writePa
    | (with_reducible apply foldl_form; intro s x hf) | dsimp only | split | (rename _ = some _ => he; split at he)
    | (rename some _ = some _ => he; cases he))

theorem State.mirrorWload_mem {s : State} {g t : Grp} {o : SOp} {u : State} (e : State.mirrorWload s g t o = some u) :
    u.mem = s.mem := by
  simp only [State.mirrorWload] at e
  split at e
  · cases e
  · obtain ⟨c, -, rfl⟩ := Option.map_eq_some_iff.1 e
    exact State.enterWload_mem _ _

theorem State.doStage_mem {s : State} {g : Grp} {o : SOp} {t : State} (e : State.doStage s g o = some t) : t.mem = s.mem := by
  simp only [State.doStage, bind, Option.bind, Except.bind, pure, Except.pure] at e
  repeat' first | (cases e; done) | split at e
  all_goals try obtain rfl := Option.some.inj e
  all_goals (repeat' first | rfl | assumption | (refine Eq.trans (foldl_mem (fun s x => ?_) _ _) ?_) | split | simp)

theorem State.doWfree_mem {s : State} {g : Grp} {o : SOp} {t : State} (e : State.doWfree s g o = some t) : t.mem = s.mem := by
  simp only [State.doWfree, bind, Option.bind, Except.bind, pure, Except.pure] at e
  repeat' first | (cases e; done) | split at e
  all_goals try obtain rfl := Option.some.inj e
  all_goals (repeat' first | rfl | assumption | (refine Eq.trans (foldl_mem (fun s x => ?_) _ _) ?_) | split | simp)

theorem State.doRelease_form {s : State} {g : Grp} {cue : Nat} {commit : Bool} {t : State} (hf : Memory.wf s.mem = true) (e :
    State.doRelease s g cue commit = some t) : Memory.wf t.mem = true := by
  simp only [State.doRelease, bind, Option.bind, Except.bind, pure, Except.pure] at e
  repeat' first | (cases e; done) | split at e
  all_goals try obtain rfl := Option.some.inj e
  all_goals (repeat' first
    | with_reducible assumption | (with_reducible apply Memory.form_ite <;> intro _) | with_reducible apply State.wakeWaits_form
    | with_reducible refine Memory.form_of (State.dropCmds_mem _ _) ?_ | with_reducible apply Memory.wf_writePa
    | (with_reducible apply foldl_form; intro s x hf) | dsimp only | split | (rename _ = some _ => he; split at he)
    | (rename some _ = some _ => he; cases he))

theorem State.doPush_mem {s : State} {g : Grp} {o : SOp} {n : Nat} {t : State} (e : State.doPush s g o n = some t) :
    t.mem = s.mem := by
  simp only [State.doPush, bind, Option.bind, Except.bind, pure, Except.pure] at e
  repeat' first | (cases e; done) | split at e
  all_goals try obtain rfl := Option.some.inj e
  all_goals (repeat' first | rfl | assumption | (refine Eq.trans (foldl_mem (fun s x => ?_) _ _) ?_) | split | simp)

@[simp] theorem State.doPop_mem (s : State) (g : Grp) (o : SOp) (d : Sel) (n : Nat) : (State.doPop s g o d n).mem = s.mem := by
  simp only [State.doPop]
  repeat' first | rfl | assumption | (refine Eq.trans (foldl_mem (fun s x => ?_) _ _) ?_) | split | simp

@[simp] theorem State.doQcfg_mem (s : State) (g : Grp) (n : Nat) (kind : QKind) : (State.doQcfg s g n kind).mem = s.mem := by
  simp only [State.doQcfg]
  repeat' first | rfl | assumption | (refine Eq.trans (foldl_mem (fun s x => ?_) _ _) ?_) | split | simp

@[simp] theorem State.addStatus_mem (s : State) (g : Grp) (o : SOp) (d : Sel) (got : Option Word) (ask : Option
    (Nat × Option Nat)) : (State.addStatus s g o d got ask).mem = s.mem := by
  simp only [State.addStatus]
  repeat' first | rfl | assumption | (refine Eq.trans (foldl_mem (fun s x => ?_) _ _) ?_) | split | simp

theorem State.doBank_form {s : State} {g : Grp} {i : Issue} {o : SOp} {t : State} (hf : Memory.wf s.mem = true) (e :
    State.doBank s g i o = some t) : Memory.wf t.mem = true := by
  simp only [State.doBank, bind, Option.bind, Except.bind, pure, Except.pure] at e
  repeat' first | (cases e; done) | split at e
  all_goals try obtain rfl := Option.some.inj e
  all_goals (repeat' first
    | with_reducible assumption | (with_reducible apply Memory.form_ite <;> intro _) | with_reducible apply State.stopBank_form
    | with_reducible refine Memory.form_of (State.addSide_mem _ _ _ _ _ _) ?_
    | with_reducible refine Memory.form_of (State.takeKey_mem _) ?_ | with_reducible apply Memory.wf_writePa
    | (with_reducible apply foldl_form; intro s x hf) | dsimp only | split | (rename _ = some _ => he; split at he)
    | (rename some _ = some _ => he; cases he))

@[simp] theorem State.setPageList_mem (s : State) (p : PageList) : (State.setPageList s p).mem = s.mem := by
  simp only [State.setPageList]
  repeat' first | rfl | assumption | (refine Eq.trans (foldl_mem (fun s x => ?_) _ _) ?_) | split | simp

@[simp] theorem State.doBpage_mem (s : State) (g : Grp) (i : Issue) (o : SOp) : (State.doBpage s g i o).mem = s.mem := by
  simp only [State.doBpage]
  repeat' first | rfl | assumption | (refine Eq.trans (foldl_mem (fun s x => ?_) _ _) ?_) | split | simp

theorem State.doGprog_form {s : State} {g : Grp} {i : Issue} {o : SOp} {t : State} (hf : Memory.wf s.mem = true) (e :
    State.doGprog s g i o = some t) : Memory.wf t.mem = true := by
  simp only [State.doGprog, bind, Option.bind, Except.bind, pure, Except.pure] at e
  repeat' first | (cases e; done) | split at e
  all_goals try obtain rfl := Option.some.inj e
  all_goals (repeat' first
    | with_reducible assumption | (with_reducible apply Memory.form_ite <;> intro _) | with_reducible apply State.homeStore_form
    | with_reducible apply State.imprecise_form | with_reducible apply State.wcFlush_form
    | with_reducible apply State.writeTarget_form | with_reducible refine Memory.form_of (State.agentLoads_mem _ _ _ _) ?_
    | with_reducible refine Memory.form_of (State.raisePts_mem _ _ _) ?_
    | with_reducible refine Memory.form_of (State.ackSide_mem _ _ _ _ _) ?_
    | with_reducible refine Memory.form_of (State.addSide_mem _ _ _ _ _ _) ?_
    | with_reducible refine Memory.form_of (State.dropCopies_mem _ _) ?_
    | with_reducible refine Memory.form_of (State.fireWatches_mem _ _ _) ?_
    | with_reducible refine Memory.form_of (State.noteDirty_mem _ _ _ _) ?_
    | with_reducible refine Memory.form_of (State.refreshCopies_mem _ _ _ _) ?_
    | with_reducible refine Memory.form_of (State.updPart_mem _ _ _) ?_ | with_reducible apply Memory.wf_writePa
    | (with_reducible apply foldl_form; intro s x hf) | dsimp only | split | (rename _ = some _ => he; split at he)
    | (rename some _ = some _ => he; cases he))

theorem State.doWave_form {s : State} {g : Grp} {i : Issue} {o : SOp} {t : State} (hf : Memory.wf s.mem = true) (e :
    State.doWave s g i o = some t) : Memory.wf t.mem = true := by
  simp only [State.doWave, bind, Option.bind, Except.bind, pure, Except.pure] at e
  repeat' first | (cases e; done) | split at e
  all_goals try obtain rfl := Option.some.inj e
  all_goals (repeat' first
    | with_reducible assumption | (with_reducible apply Memory.form_ite <;> intro _) | with_reducible apply State.wcFlush_form
    | with_reducible refine Memory.form_of (State.noteCopied_mem _ _ _) ?_
    | with_reducible refine Memory.form_of (State.addSide_mem _ _ _ _ _ _) ?_
    | with_reducible refine Memory.form_of (State.takeKey_mem _) ?_ | with_reducible apply Memory.wf_writePa
    | (with_reducible apply foldl_form; intro s x hf) | dsimp only | split | (rename _ = some _ => he; split at he)
    | (rename some _ = some _ => he; cases he))

theorem State.doMemory_form {s : State} {g : Grp} {i : Issue} {o : SOp} {t : State} (hf : Memory.wf s.mem = true) (e :
    State.doMemory s g i o = some t) : Memory.wf t.mem = true := by
  simp only [State.doMemory, bind, Option.bind, Except.bind, pure, Except.pure] at e
  repeat' first | (cases e; done) | split at e
  all_goals try obtain rfl := Option.some.inj e
  all_goals (repeat' first
    | with_reducible assumption | (with_reducible apply Memory.form_ite <;> intro _)
    | with_reducible refine State.doAtomic_form ?_ (by assumption) | with_reducible refine State.doCopy_form ?_ (by assumption)
    | with_reducible refine State.doLoad_form ?_ (by assumption) | with_reducible refine State.doStore_form ?_ (by assumption)
    | with_reducible refine Memory.form_of (State.doPrefetch_mem _ _ _ _ _) ?_ | with_reducible apply Memory.wf_writePa
    | (with_reducible apply foldl_form; intro s x hf) | dsimp only | split | (rename _ = some _ => he; split at he)
    | (rename some _ = some _ => he; cases he))

@[simp] theorem State.doWrsp_mem (s : State) (g : Grp) (i : Issue) (n : Nat) (x : Word) :
    (State.doWrsp s g i n x).mem = s.mem := by
  simp only [State.doWrsp]
  repeat' first | rfl | assumption | (refine Eq.trans (foldl_mem (fun s x => ?_) _ _) ?_) | split | simp

theorem State.doOp_form {s : State} {g : Grp} {i : Issue} {o : SOp} {t : State} (hf : Memory.wf s.mem = true) (e :
    State.doOp s g i o = some t) : Memory.wf t.mem = true := by
  simp only [State.doOp, bind, Option.bind, Except.bind, pure, Except.pure] at e
  repeat' first | (cases e; done) | split at e
  all_goals try obtain rfl := Option.some.inj e
  all_goals (repeat' first
    | with_reducible assumption | (with_reducible apply Memory.form_ite <;> intro _)
    | with_reducible refine State.doBank_form ?_ (by assumption) | with_reducible refine State.doGprog_form ?_ (by assumption)
    | with_reducible refine State.doMemory_form ?_ (by assumption) | with_reducible refine State.doRelease_form ?_ (by assumption)
    | with_reducible refine State.doWave_form ?_ (by assumption) | with_reducible refine State.doWload_form ?_ (by assumption)
    | with_reducible refine Memory.form_of (State.doPush_mem (by assumption)) ?_
    | with_reducible refine Memory.form_of (State.doStage_mem (by assumption)) ?_
    | with_reducible refine Memory.form_of (State.doWfree_mem (by assumption)) ?_ | with_reducible apply State.wcFlushGroup_form
    | with_reducible apply State.writeReg_form | with_reducible refine Memory.form_of (State.addStatus_mem _ _ _ _ _ _) ?_
    | with_reducible refine Memory.form_of (State.doBpage_mem _ _ _ _) ?_
    | with_reducible refine Memory.form_of (State.doPop_mem _ _ _ _ _) ?_
    | with_reducible refine Memory.form_of (State.doQcfg_mem _ _ _ _) ?_
    | with_reducible refine Memory.form_of (State.doWrsp_mem _ _ _ _ _) ?_
    | with_reducible refine Memory.form_of (State.updBarrier_mem _ _ _ _ _ _) ?_
    | with_reducible refine Memory.form_of (State.updGrp_mem _ _ _) ?_ | with_reducible apply Memory.wf_writePa
    | (with_reducible apply foldl_form; intro s x hf) | dsimp only | split | (rename _ = some _ => he; split at he)
    | (rename some _ = some _ => he; cases he))

@[simp] theorem State.askCompare_mem (s : State) (g : Grp) : (State.askCompare s g).mem = s.mem := by
  simp only [State.askCompare]
  repeat' first | rfl | assumption | (refine Eq.trans (foldl_mem (fun s x => ?_) _ _) ?_) | split | simp

theorem State.takeOrdinal_mem {s : State} {g : Grp} {i : Issue} {o : SOp} {t : State × Issue} (e :
    State.takeOrdinal s g i o = some t) : t.1.mem = s.mem := by
  simp only [State.takeOrdinal, bind, Option.bind, Except.bind, pure, Except.pure] at e
  repeat' first | (cases e; done) | split at e
  all_goals try obtain rfl := Option.some.inj e
  all_goals (repeat' first | rfl | assumption | (refine Eq.trans (foldl_mem (fun s x => ?_) _ _) ?_) | split | simp)

theorem State.mirror_mem {s : State} {g : Grp} {i : Issue} {o : SOp} {t : State} (e : State.mirror s g i o = some t) :
    t.mem = s.mem := by
  simp only [State.mirror, bind, Option.bind, Except.bind, pure, Except.pure] at e
  repeat' first | (cases e; done) | split at e
  all_goals try obtain rfl := Option.some.inj e
  all_goals (repeat' first
    | rfl | assumption | exact State.mirrorCopy_mem (by assumption) | exact State.mirrorWload_mem (by assumption)
    | (rw [State.mirrorCopy_mem (by assumption)]) | (rw [State.mirrorWload_mem (by assumption)])
    | (refine Eq.trans (foldl_mem (fun s x => ?_) _ _) ?_) | split | simp)

theorem State.performOne_form (s : State) (i : Issue) (o : SOp) (hf : Memory.wf s.mem = true) :
    Memory.wf (State.performOne s i o).1.mem = true := by
  have key (c : Bool) (s1 s2 : State) (g : Grp) (j : Issue) (h1 : Memory.wf s1.mem = true)
      (e : (if c = true then some s1 else (s1.doOp g j o).bind fun s => s.mirror g j o) = some s2) : Memory.wf s2.mem = true := by
    split at e
    · cases e; exact h1
    · obtain ⟨x, hx, hy⟩ := Option.bind_eq_some_iff.1 e
      exact Memory.form_of (State.mirror_mem hy) (State.doOp_form h1 hx)
  unfold State.performOne
  split
  · exact hf
  · split
    · exact hf
    · split
      · exact hf
      · split
        · exact Memory.form_of (State.servedBanks_mem _ _) hf
        · dsimp only
          split
          · exact Memory.form_of (State.askCompare_mem _ _) hf
          · split
            · exact hf
            · next h1 =>
              have h1 := Memory.form_of (State.takeOrdinal_mem h1) hf
              split
              · exact Memory.form_of (State.askBanks_mem _ _ _) hf
              · next h2 =>
                have h2 := key _ _ _ _ _ h1 h2
                repeat' first | assumption | simp only [State.updGrp_mem, State.servedBanks_mem] | split

@[simp] theorem State.startLaunch_mem (s : State) (l : Launch) : (State.startLaunch s l).mem = s.mem := by
  simp only [State.startLaunch]
  repeat' first | rfl | assumption | (refine Eq.trans (foldl_mem (fun s x => ?_) _ _) ?_) | split | simp

theorem State.placeGang_form (s : State) (l : Launch) (gangNo : Nat) (attempts : Nat) (pts : Nat) (core : Nat) (under : Bool)
    (img : Nat) (imgs : List Nat) (hf : Memory.wf s.mem = true) : Memory.wf (State.placeGang s l gangNo attempts pts core under img imgs).2.mem = true := by
  unfold State.placeGang
  repeat' first
    | with_reducible assumption | (with_reducible apply Memory.form_ite <;> intro _) | with_reducible apply State.useImage_form
    | with_reducible refine Memory.form_of (State.makeResident_mem _ _) ?_
    | with_reducible refine Memory.form_of (State.updCore_mem _ _ _) ?_ | with_reducible apply Memory.wf_writePa
    | (with_reducible apply foldl_form; intro s x hf) | dsimp only | split | (rename _ = some _ => he; split at he)
    | (rename some _ = some _ => he; cases he)

theorem State.makeRoom_form (s : State) (cluster : Nat) (b : Book) (below : Nat) (hf : Memory.wf s.mem = true) :
    Memory.wf (State.makeRoom s cluster b below).mem = true := by
  unfold State.makeRoom
  repeat' first
    | with_reducible assumption | (with_reducible apply Memory.form_ite <;> intro _) | with_reducible apply State.askEvict_form
    | with_reducible apply Memory.wf_writePa | (with_reducible apply foldl_form; intro s x hf) | dsimp only | split
    | (rename _ = some _ => he; split at he) | (rename some _ = some _ => he; cases he)

theorem State.reload_form (s : State) (g : Grp) (core : Nat) (hf : Memory.wf s.mem = true) :
    Memory.wf (State.reload s g core).mem = true := by
  unfold State.reload
  repeat' first
    | with_reducible assumption | (with_reducible apply Memory.form_ite <;> intro _) | with_reducible apply State.useImage_form
    | with_reducible refine Memory.form_of (State.updGrp_mem _ _ _) ?_ | with_reducible apply Memory.wf_writePa
    | (with_reducible apply foldl_form; intro s x hf) | dsimp only | split | (rename _ = some _ => he; split at he)
    | (rename some _ = some _ => he; cases he)

theorem State.resumeGang_form (s : State) (k : Nat) (core : Nat) (hf : Memory.wf s.mem = true) :
    Memory.wf (State.resumeGang s k core).mem = true := by
  unfold State.resumeGang
  repeat' first
    | with_reducible assumption | (with_reducible apply Memory.form_ite <;> intro _) | with_reducible apply State.reload_form
    | with_reducible refine Memory.form_of (State.makeResident_mem _ _) ?_
    | with_reducible refine Memory.form_of (State.readGangImage_mem _ _ _) ?_
    | with_reducible refine Memory.form_of (State.setEng_mem _ _) ?_
    | with_reducible refine Memory.form_of (State.updCore_mem _ _ _) ?_
    | with_reducible refine Memory.form_of (State.updGang_mem _ _ _) ?_
    | with_reducible refine Memory.form_of (State.updLaunch_mem _ _ _) ?_ | with_reducible apply Memory.wf_writePa
    | (with_reducible apply foldl_form; intro s x hf) | dsimp only | split | (rename _ = some _ => he; split at he)
    | (rename some _ = some _ => he; cases he)

theorem State.finishLaunch_form (s : State) (l : Launch) (t : Nat) (hf : Memory.wf s.mem = true) :
    Memory.wf (State.finishLaunch s l t).mem = true := by
  unfold State.finishLaunch
  repeat' first
    | with_reducible assumption | (with_reducible apply Memory.form_ite <;> intro _) | with_reducible apply State.agentStore_form
    | with_reducible apply State.agentWrite_form | with_reducible refine Memory.form_of (State.updLaunch_mem _ _ _) ?_
    | with_reducible refine Memory.form_of (State.updPart_mem _ _ _) ?_ | with_reducible apply Memory.wf_writePa
    | (with_reducible apply foldl_form; intro s x hf) | dsimp only | split | (rename _ = some _ => he; split at he)
    | (rename some _ = some _ => he; cases he)

@[simp] theorem State.countLost_mem (s : State) (part : Nat) : (State.countLost s part).mem = s.mem := by
  simp only [State.countLost]
  repeat' first | rfl | assumption | (refine Eq.trans (foldl_mem (fun s x => ?_) _ _) ?_) | split | simp

theorem State.writeRecord_form (s : State) (l : Launch) (hf : Memory.wf s.mem = true) :
    Memory.wf (State.writeRecord s l).2.mem = true := by
  unfold State.writeRecord
  repeat' first
    | with_reducible assumption | (with_reducible apply Memory.form_ite <;> intro _) | with_reducible apply State.agentWrite_form
    | with_reducible refine Memory.form_of (State.agentMark_mem _ _ _ _ _) ?_
    | with_reducible refine Memory.form_of (State.ringInterrupt_mem _ _ _) ?_
    | with_reducible refine Memory.form_of (State.updPart_mem _ _ _) ?_ | with_reducible apply Memory.wf_writePa
    | (with_reducible apply foldl_form; intro s x hf) | dsimp only | split | (rename _ = some _ => he; split at he)
    | (rename some _ = some _ => he; cases he)

theorem State.completeLaunch_form (s : State) (l : Launch) (hf : Memory.wf s.mem = true) :
    Memory.wf (State.completeLaunch s l).mem = true := by
  unfold State.completeLaunch
  repeat' first
    | with_reducible assumption | (with_reducible apply Memory.form_ite <;> intro _)
    | with_reducible apply State.finishLaunch_form | with_reducible apply State.writeRecord_form
    | with_reducible refine Memory.form_of (State.countLost_mem _ _) ?_
    | with_reducible refine Memory.form_of (State.updLaunch_mem _ _ _) ?_ | with_reducible apply Memory.wf_writePa
    | (with_reducible apply foldl_form; intro s x hf) | dsimp only | split | (rename _ = some _ => he; split at he)
    | (rename some _ = some _ => he; cases he)

@[simp] theorem State.releaseHeldStores_mem (s : State) (g : Grp) (t : Grp) (n : Nat) :
    (State.releaseHeldStores s g t n).mem = s.mem := by
  simp only [State.releaseHeldStores]
  repeat' first | rfl | assumption | (refine Eq.trans (foldl_mem (fun s x => ?_) _ _) ?_) | split | simp

theorem State.performAll_form (s : State) (i : Issue) (xs : List SOp) (hf : Memory.wf s.mem = true) :
    Memory.wf (State.performAll s i xs).1.mem = true := by
  induction xs generalizing s i with
  | nil => exact hf
  | cons o r ih =>
    have h := State.performOne_form s i o hf
    simp only [State.performAll]
    split <;> next e => rw [e] at h; first | exact ih _ _ h | exact h

@[simp] theorem State.wait_mem (s : State) (u : Nat) (slot : Bool) (k : WaitKind) (f : Slot → Slot) :
    (State.wait s u slot k f).mem = s.mem := by
  simp only [State.wait]
  repeat' first | rfl | assumption | (refine Eq.trans (foldl_mem (fun s x => ?_) _ _) ?_) | split | simp

theorem State.beginBarrier_form (s : State) (u : Nat) (slot : Bool) (gang : Bool) (id : Nat) (phase : Nat) (hf :
    Memory.wf s.mem = true) : Memory.wf (State.beginBarrier s u slot gang id phase).mem = true := by
  unfold State.beginBarrier
  repeat' first
    | with_reducible assumption | (with_reducible apply Memory.form_ite <;> intro _)
    | with_reducible apply State.releaseWaiter_form | with_reducible refine Memory.form_of (State.wait_mem _ _ _ _ _) ?_
    | with_reducible apply Memory.wf_writePa | (with_reducible apply foldl_form; intro s x hf) | dsimp only | split
    | (rename _ = some _ => he; split at he) | (rename some _ = some _ => he; cases he)

theorem State.mwaitTry_form (s : State) (u : Nat) (slot : Bool) (hf : Memory.wf s.mem = true) :
    Memory.wf (State.mwaitTry s u slot).mem = true := by
  unfold State.mwaitTry
  repeat' first
    | with_reducible assumption | (with_reducible apply Memory.form_ite <;> intro _) | with_reducible apply State.mwaitRead_form
    | with_reducible refine Memory.form_of (State.await_mem _ _) ?_ | with_reducible refine Memory.form_of (State.demand_mem _ _ _ _) ?_
    | with_reducible refine Memory.form_of (State.updGrp_mem _ _ _) ?_ | dsimp only | split

theorem State.beginMwait_form (s : State) (i : Issue) (u : Nat) (slot : Bool) (k : WaitKind) (c : Word) (hf :
    Memory.wf s.mem = true) : Memory.wf (State.beginMwait s i u slot k c).mem = true := by
  unfold State.beginMwait
  repeat' first
    | with_reducible assumption | (with_reducible apply Memory.form_ite <;> intro _) | with_reducible apply State.mwaitTry_form
    | with_reducible refine Memory.form_of (State.wait_mem _ _ _ _ _) ?_ | with_reducible apply Memory.wf_writePa
    | (with_reducible apply foldl_form; intro s x hf) | dsimp only | split | (rename _ = some _ => he; split at he)
    | (rename some _ = some _ => he; cases he)

theorem State.settleSlot_form (s : State) (u : Nat) (slot : Bool) (hf : Memory.wf s.mem = true) :
    Memory.wf (State.settleSlot s u slot).mem = true := by
  unfold State.settleSlot
  repeat' first
    | with_reducible apply State.releaseHeld_form
    | with_reducible assumption | (with_reducible apply Memory.form_ite <;> intro _) | with_reducible apply State.endWait_form
    | with_reducible apply State.releaseWaiter_form | with_reducible apply State.wakeSlot_form
    | with_reducible refine Memory.form_of (State.wait_mem _ _ _ _ _) ?_ | with_reducible apply Memory.wf_writePa
    | (with_reducible apply foldl_form; intro s x hf) | dsimp only | split | (rename _ = some _ => he; split at he)
    | (rename some _ = some _ => he; cases he)

theorem State.exitSlot_form (s : State) (u : Nat) (slot : Bool) (hf : Memory.wf s.mem = true) :
    Memory.wf (State.exitSlot s u slot).mem = true := by
  unfold State.exitSlot
  repeat' first
    | with_reducible assumption | (with_reducible apply Memory.form_ite <;> intro _) | with_reducible apply State.afterEnd_form
    | with_reducible apply State.releaseHeld_form | with_reducible apply State.wcFlushGroup_form
    | with_reducible refine Memory.form_of (State.updGrp_mem _ _ _) ?_ | with_reducible apply Memory.wf_writePa
    | (with_reducible apply foldl_form; intro s x hf) | dsimp only | split | (rename _ = some _ => he; split at he)
    | (rename some _ = some _ => he; cases he)

theorem State.applyFinal_form {s : State} {i : Issue} {slot : Bool} {t : State} (hf : Memory.wf s.mem = true) (e :
    State.applyFinal s i slot = some t) : Memory.wf t.mem = true := by
  simp only [State.applyFinal, bind, Option.bind, Except.bind, pure, Except.pure] at e
  repeat' first | (cases e; done) | split at e
  all_goals try obtain rfl := Option.some.inj e
  all_goals (repeat' first
    | with_reducible assumption | (with_reducible apply Memory.form_ite <;> intro _)
    | with_reducible refine State.arrive_form ?_ (by assumption) | with_reducible apply State.beginBarrier_form
    | with_reducible apply State.beginMwait_form | with_reducible apply State.exitSlot_form
    | with_reducible apply State.returnTrap_form | with_reducible apply State.takeTrap_form
    | with_reducible apply State.wakeSlot_form | with_reducible apply State.wcFlushGroup_form
    | with_reducible refine Memory.form_of (State.wait_mem _ _ _ _ _) ?_
    | with_reducible refine Memory.form_of (State.updGrp_mem _ _ _) ?_ | with_reducible apply Memory.wf_writePa
    | (with_reducible apply foldl_form; intro s x hf) | dsimp only | split | (rename _ = some _ => he; split at he)
    | (rename some _ = some _ => he; cases he))

theorem State.endScene_form {s : State} {i : Issue} {slot : Bool} {t : State} (hf : Memory.wf s.mem = true) (e :
    State.endScene s i slot = some t) : Memory.wf t.mem = true := by
  simp only [State.endScene, bind, Option.bind, Except.bind, pure, Except.pure] at e
  repeat' first | (cases e; done) | split at e
  all_goals try obtain rfl := Option.some.inj e
  all_goals (repeat' first
    | with_reducible assumption | (with_reducible apply Memory.form_ite <;> intro _)
    | with_reducible refine State.applyFinal_form ?_ (by assumption) | with_reducible apply State.settleGang_form
    | with_reducible apply State.settleSlot_form | with_reducible refine Memory.form_of (State.beganWait_mem _ _) ?_
    | with_reducible apply Memory.wf_writePa | (with_reducible apply foldl_form; intro s x hf) | dsimp only | split
    | (rename _ = some _ => he; split at he) | (rename some _ = some _ => he; cases he))

@[simp] theorem State.endedWork_mem (s : State) (g : Grp) : (State.endedWork s g).mem = s.mem := by
  simp only [State.endedWork]
  repeat' first | rfl | assumption | (refine Eq.trans (foldl_mem (fun s x => ?_) _ _) ?_) | split | simp

theorem State.runPerform_form (s : State) (i : Issue) (hf : Memory.wf s.mem = true) :
    Memory.wf (State.runPerform s i).mem = true := by
  unfold State.runPerform
  repeat' first
    | with_reducible assumption | (with_reducible apply Memory.form_ite <;> intro _)
    | with_reducible refine State.endScene_form ?_ (by assumption) | with_reducible apply State.performAll_form
    | with_reducible refine Memory.form_of (State.askCompare_mem _ _) ?_
    | with_reducible refine Memory.form_of (State.endedWork_mem _ _) ?_ | with_reducible apply Memory.wf_writePa
    | (with_reducible apply foldl_form; intro s x hf) | dsimp only | split | (rename _ = some _ => he; split at he)
    | (rename some _ = some _ => he; cases he)

@[simp] theorem State.askTables_mem (s : State) (i : Issue) : (State.askTables s i).mem = s.mem := by
  simp only [State.askTables]
  repeat' first | rfl | assumption | (refine Eq.trans (foldl_mem (fun s x => ?_) _ _) ?_) | split | simp

@[simp] theorem State.servedTables_mem (s : State) (i : Issue) : (State.servedTables s i).mem = s.mem := by
  simp only [State.servedTables, State.unawait_mem]
  exact foldl_mem (fun s x => State.served_mem _ _) _ _

theorem State.finishScene_form {s : State} {i : Issue} {t : State} (hf : Memory.wf s.mem = true) (e :
    State.finishScene s i = .next t) : Memory.wf t.mem = true := by
  simp only [State.finishScene, bind, Option.bind, Except.bind, pure, Except.pure] at e
  repeat' first | (cases e; done) | split at e
  all_goals try obtain rfl := Host.Outcome.next.inj e
  all_goals (repeat' first
    | with_reducible refine Memory.form_of (State.askTables_mem _ _) ?_
    | with_reducible refine Memory.form_of (State.servedTables_mem _ _) ?_
    | with_reducible assumption | (with_reducible apply Memory.form_ite <;> intro _)
    | with_reducible refine Memory.form_of (State.checkScene_mem (by assumption)) ?_ | with_reducible apply State.runPerform_form
    | with_reducible apply State.trapIssue_form | with_reducible refine Memory.form_of (State.touchTlb_mem _ _ _ _) ?_
    | with_reducible refine Memory.form_of (State.updGrp_mem _ _ _) ?_ | with_reducible apply Memory.wf_writePa
    | (with_reducible apply foldl_form; intro s x hf) | dsimp only | split | (rename _ = some _ => he; split at he)
    | (rename some _ = some _ => he; cases he))

@[simp] theorem State.lateWork_mem (s old : State) (i : Issue) : (State.lateWork s old i).mem = s.mem := by
  simp only [State.lateWork]
  split <;> simp

@[simp] theorem State.updReq_mem (s : State) (id : Nat) (f : Req → Req) : (State.updReq s id f).mem = s.mem := by
  simp only [State.updReq]
  repeat' first | rfl | assumption | (refine Eq.trans (foldl_mem (fun s x => ?_) _ _) ?_) | split | simp

@[simp] theorem State.dropReq_mem (s : State) (id : Nat) : (State.dropReq s id).mem = s.mem := by
  simp only [State.dropReq]
  repeat' first | rfl | assumption | (refine Eq.trans (foldl_mem (fun s x => ?_) _ _) ?_) | split | simp

@[simp] theorem State.sendLine_mem (s : State) (core : Nat) (line : Nat) (due : Nat) :
    (State.sendLine s core line due).mem = s.mem := by
  simp only [State.sendLine]
  repeat' first | rfl | assumption | (refine Eq.trans (foldl_mem (fun s x => ?_) _ _) ?_) | split | simp

@[simp] theorem State.endPrefetch_mem (s : State) (r : Nat) : (State.endPrefetch s r).mem = s.mem := by
  simp only [State.endPrefetch]
  repeat' first | rfl | assumption | (refine Eq.trans (foldl_mem (fun s x => ?_) _ _) ?_) | split | simp

theorem State.storeSector_form (s : State) (q : Req) (g : Grp) (accs : List Acc) (sec : Nat) (cls : Class) (hf :
    Memory.wf s.mem = true) : Memory.wf (State.storeSector s q g accs sec cls).mem = true := by
  unfold State.storeSector
  repeat' first
    | with_reducible assumption | (with_reducible apply Memory.form_ite <;> intro _) | with_reducible apply State.imprecise_form
    | with_reducible refine Memory.form_of (State.markEarly_mem _ _ _ _) ?_
    | with_reducible refine Memory.form_of (State.raiseFor_mem _ _ _) ?_
    | with_reducible refine Memory.form_of (State.stampLine_mem _ _ _ _) ?_
    | with_reducible refine Memory.form_of (State.dropCopies_mem _ _) ?_
    | with_reducible refine Memory.form_of (State.fireWatches_mem _ _ _) ?_
    | with_reducible refine Memory.form_of (State.noteDirty_mem _ _ _ _) ?_
    | with_reducible refine Memory.form_of (State.refreshCopies_mem _ _ _ _) ?_ | with_reducible apply Memory.wf_writePa
    | (with_reducible apply foldl_form; intro s x hf) | dsimp only | split | (rename _ = some _ => he; split at he)
    | (rename some _ = some _ => he; cases he)

theorem State.writeMarked_form (s : State) (bs : List (Nat × Byte × Bool)) (hf : Memory.wf s.mem = true) :
    Memory.wf (State.writeMarked s bs).mem = true := by
  unfold State.writeMarked
  repeat' first
    | with_reducible assumption | (with_reducible apply Memory.form_ite <;> intro _) | with_reducible apply Memory.wf_writePa
    | (with_reducible apply foldl_form; intro s x hf) | dsimp only | split | (rename _ = some _ => he; split at he)
    | (rename some _ = some _ => he; cases he)

theorem State.writeMarkedScratch_form (s : State) (k : Nat) (c : Nat) (bs : List (Nat × Byte × Bool)) (hf :
    Memory.wf s.mem = true) : Memory.wf (State.writeMarkedScratch s k c bs).mem = true := by
  unfold State.writeMarkedScratch
  repeat' first
    | with_reducible assumption | (with_reducible apply Memory.form_ite <;> intro _) | with_reducible apply State.writeTarget_form
    | with_reducible refine Memory.form_of (State.poisonTarget_mem _ _) ?_ | with_reducible apply Memory.wf_writePa
    | (with_reducible apply foldl_form; intro s x hf) | dsimp only | split | (rename _ = some _ => he; split at he)
    | (rename some _ = some _ => he; cases he)

@[simp] theorem State.endCopy_mem (s : State) (c : CopyCmd) : (State.endCopy s c).mem = s.mem := by
  simp only [State.endCopy]
  repeat' first | rfl | assumption | (refine Eq.trans (foldl_mem (fun s x => ?_) _ _) ?_) | split | simp

theorem State.moveCopy_form (s : State) (c : CopyCmd) (hf : Memory.wf s.mem = true) :
    Memory.wf (State.moveCopy s c).mem = true := by
  unfold State.moveCopy
  repeat' first
    | with_reducible assumption | (with_reducible apply Memory.form_ite <;> intro _) | with_reducible apply State.imprecise_form
    | with_reducible refine Memory.form_of (State.endCopy_mem _ _) ?_
    | with_reducible refine Memory.form_of (State.noteCopied_mem _ _ _) ?_ | with_reducible apply Memory.wf_writePa
    | (with_reducible apply foldl_form; intro s x hf) | dsimp only | split | (rename _ = some _ => he; split at he)
    | (rename some _ = some _ => he; cases he)

theorem State.copyLine_form (s : State) (c : CopyCmd) (line : Nat) (hf : Memory.wf s.mem = true) :
    Memory.wf (State.copyLine s c line).mem = true := by
  unfold State.copyLine
  repeat' first
    | with_reducible assumption | (with_reducible apply Memory.form_ite <;> intro _) | with_reducible apply State.imprecise_form
    | with_reducible apply State.writeMarked_form | with_reducible refine Memory.form_of (State.demand_mem _ _ _ _) ?_
    | with_reducible refine Memory.form_of (State.noteSectors_mem _ _ _) ?_
    | with_reducible refine Memory.form_of (State.served_mem _ _) ?_
    | with_reducible refine Memory.form_of (State.stampLine_mem _ _ _ _) ?_
    | with_reducible refine Memory.form_of (State.fireWatches_mem _ _ _) ?_ | with_reducible apply Memory.wf_writePa
    | (with_reducible apply foldl_form; intro s x hf) | dsimp only | split | (rename _ = some _ => he; split at he)
    | (rename some _ = some _ => he; cases he)

@[simp] theorem State.enterFence_mem (s : State) (by_ : Option Nat) (scope : Nat) (die : Nat) (incl : List Nat) :
    (State.enterFence s by_ scope die incl).mem = s.mem := by
  simp only [State.enterFence]
  repeat' first | rfl | assumption | (refine Eq.trans (foldl_mem (fun s x => ?_) _ _) ?_) | split | simp

@[simp] theorem State.performFence_mem (s : State) (g : Grp) (scope : Nat) : (State.performFence s g scope).mem = s.mem := by
  simp only [State.performFence]
  repeat' first | rfl | assumption | (refine Eq.trans (foldl_mem (fun s x => ?_) _ _) ?_) | split | simp

@[simp] theorem State.writeGranules_mem (s : State) (c : ECmd) (f : Nat → Granule) : (State.writeGranules s c f).mem = s.mem := by
  simp only [State.writeGranules]
  repeat' first | rfl | assumption | (refine Eq.trans (foldl_mem (fun s x => ?_) _ _) ?_) | split | simp

@[simp] theorem State.advance_mem (s : State) (c : ECmd) : (State.advance s c).mem = s.mem := by
  simp only [State.advance]
  repeat' first | rfl | assumption | (refine Eq.trans (foldl_mem (fun s x => ?_) _ _) ?_) | split | simp

@[simp] theorem State.bankWorks_mem (s : State) (pa : Nat) : (State.bankWorks s pa).mem = s.mem := by
  simp only [State.bankWorks]
  repeat' first | rfl | assumption | (refine Eq.trans (foldl_mem (fun s x => ?_) _ _) ?_) | split | simp

theorem State.unitWrite_form (s : State) (part from_ : Nat) (bs : List (Nat × Byte × Bool)) (hf : Memory.wf s.mem = true) :
    Memory.wf (State.unitWrite s part from_ bs).2.mem = true := by
  have h (ls : List Nat) (x : Nat × State) (hx : Memory.wf x.2.mem = true) :
      Memory.wf (ls.foldl (fun (x : Nat × State) l => (max x.1 (x.2.backInvalidate (256 * l) part from_).1,
        (x.2.backInvalidate (256 * l) part from_).2)) x).2.mem = true := by
    induction ls generalizing x with
    | nil => exact hx
    | cons l r ih => exact ih _ (Memory.form_of (State.backInvalidate_mem _ _ _ _) hx)
  unfold State.unitWrite
  refine foldl_form (fun s l hs => ?_) ?_ _
  · exact Memory.form_of (State.bankWorks_mem _ _) (Memory.form_of (State.fireWatches_mem _ _ _) hs)
  · exact State.writeMarked_form _ _ (h _ _ hf)

@[simp] theorem State.updBank_mem (s : State) (id : Nat) (f : BankCmd → BankCmd) : (State.updBank s id f).mem = s.mem := by
  simp only [State.updBank]
  repeat' first | rfl | assumption | (refine Eq.trans (foldl_mem (fun s x => ?_) _ _) ?_) | split | simp

theorem State.bankLine_form (s : State) (c : BankCmd) (line : Nat) (hf : Memory.wf s.mem = true) :
    Memory.wf (State.bankLine s c line).mem = true := by
  unfold State.bankLine
  repeat' first
    | with_reducible assumption | (with_reducible apply Memory.form_ite <;> intro _) | with_reducible apply State.imprecise_form
    | with_reducible apply State.stopBank_form | with_reducible apply State.unitWrite_form
    | with_reducible refine Memory.form_of (State.updBank_mem _ _ _) ?_
    | with_reducible refine Memory.form_of (State.send_mem _ _) ?_ | with_reducible apply Memory.wf_writePa
    | (with_reducible apply foldl_form; intro s x hf) | dsimp only | split | (rename _ = some _ => he; split at he)
    | (rename some _ = some _ => he; cases he)

@[simp] theorem State.handBack_mem (s : State) (bank : Nat) : (State.handBack s bank).mem = s.mem := by
  simp only [State.handBack]
  repeat' first | rfl | assumption | (refine Eq.trans (foldl_mem (fun s x => ?_) _ _) ?_) | split | simp

theorem State.waveWrite_form (s : State) (w : Wave) (bs : List (Nat × Byte × Bool)) (hf : Memory.wf s.mem = true) :
    Memory.wf (State.waveWrite s w bs).mem = true := by
  unfold State.waveWrite
  repeat' first
    | with_reducible assumption | (with_reducible apply Memory.form_ite <;> intro _) | with_reducible apply State.unitWrite_form
    | with_reducible refine Memory.form_of (State.updWave_mem _ _ _) ?_ | with_reducible apply Memory.wf_writePa
    | (with_reducible apply foldl_form; intro s x hf) | dsimp only | split | (rename _ = some _ => he; split at he)
    | (rename some _ = some _ => he; cases he)

@[simp] theorem State.noteChange_mem (s : State) (w : Wave) (n : Nat) (pa : Nat) : (State.noteChange s w n pa).mem = s.mem := by
  simp only [State.noteChange]
  repeat' first | rfl | assumption | (refine Eq.trans (foldl_mem (fun s x => ?_) _ _) ?_) | split | simp

theorem State.take_form (s : State) (w : Wave) (n : Nat) (pa : Nat) (v : List Int) (p : Word) (hf : Memory.wf s.mem = true) :
    Memory.wf (State.take s w n pa v p).1.mem = true := by
  unfold State.take
  repeat' first
    | with_reducible refine Memory.form_of (State.poisonTarget_mem _ _) ?_
    | with_reducible assumption | (with_reducible apply Memory.form_ite <;> intro _) | with_reducible apply State.waveWrite_form
    | with_reducible refine Memory.form_of (State.noteChange_mem _ _ _ _) ?_
    | with_reducible refine Memory.form_of (State.updRec_mem _ _ _) ?_ | with_reducible apply Memory.wf_writePa
    | (with_reducible apply foldl_form; intro s x hf) | dsimp only | split | (rename _ = some _ => he; split at he)
    | (rename some _ = some _ => he; cases he)

theorem State.flagMalformed_form (s : State) (w : Wave) (n : Nat) (pa : Nat) (hf : Memory.wf s.mem = true) :
    Memory.wf (State.flagMalformed s w n pa).mem = true := by
  unfold State.flagMalformed
  repeat' first
    | with_reducible assumption | (with_reducible apply Memory.form_ite <;> intro _) | with_reducible apply State.waveWrite_form
    | with_reducible refine Memory.form_of (State.updRec_mem _ _ _) ?_
    | with_reducible refine Memory.form_of (State.updWave_mem _ _ _) ?_ | with_reducible apply Memory.wf_writePa
    | (with_reducible apply foldl_form; intro s x hf) | dsimp only | split | (rename _ = some _ => he; split at he)
    | (rename some _ = some _ => he; cases he)

theorem State.sendFrom_form {s : State} {w : Wave} {n : Nat} {pa : Nat} {v : List Int} {p : Word} {t : State × List Marker}
    (hf : Memory.wf s.mem = true) (e : State.sendFrom s w n pa v p = .ok t) : Memory.wf t.1.mem = true := by
  simp only [State.sendFrom, bind, Option.bind, Except.bind, pure, Except.pure] at e
  repeat' first | (cases e; done) | split at e
  all_goals try obtain rfl := Except.ok.inj e
  all_goals (repeat' first
    | with_reducible assumption | (with_reducible apply Memory.form_ite <;> intro _)
    | with_reducible apply State.flagMalformed_form | with_reducible refine Memory.form_of (State.updRec_mem _ _ _) ?_
    | with_reducible apply Memory.wf_writePa | (with_reducible apply foldl_form; intro s x hf) | dsimp only | split
    | (rename _ = some _ => he; split at he) | (rename some _ = some _ => he; cases he))

theorem State.post_mem (s : State) (w : Wave) (bank each extra : Nat) (xs : List Marker) :
    (State.post s w bank each extra xs).mem = s.mem := by
  induction xs generalizing s extra with
  | nil => rfl
  | cons m r ih =>
    simp only [State.post]
    rw [ih]
    split
    · rfl
    · split <;> rfl

@[simp] theorem State.dispatch_mem (s : State) (id bank : Nat) (ms : List Marker) :
    (State.dispatch s id bank ms).mem = s.mem := by
  simp only [State.dispatch]
  repeat' first | rfl | split
  rw [State.post_mem]
  simp

theorem State.waveBlocked_mem {s : State} {w : Wave} {lines : List Nat} {t : State} (e : State.waveBlocked s w lines = some t) :
    t.mem = s.mem := by
  simp only [State.waveBlocked, bind, Option.bind, Except.bind, pure, Except.pure] at e
  repeat' first | (cases e; done) | split at e
  all_goals try obtain rfl := Option.some.inj e
  all_goals (repeat' first | rfl | assumption | (refine Eq.trans (foldl_mem (fun s x => ?_) _ _) ?_) | split | simp)

theorem State.loseWave_form (s : State) (w : Wave) (hf : Memory.wf s.mem = true) : Memory.wf (State.loseWave s w).mem = true := by
  unfold State.loseWave
  repeat' first
    | with_reducible assumption | (with_reducible apply Memory.form_ite <;> intro _) | with_reducible apply State.bareError_form
    | with_reducible apply State.wakeWaits_form | with_reducible refine Memory.form_of (State.abortWave_mem _ _) ?_
    | with_reducible apply Memory.wf_writePa | (with_reducible apply foldl_form; intro s x hf) | dsimp only | split
    | (rename _ = some _ => he; split at he) | (rename some _ = some _ => he; cases he)

theorem State.endWave_form (s : State) (id : Nat) (hf : Memory.wf s.mem = true) : Memory.wf (State.endWave s id).mem = true := by
  unfold State.endWave
  repeat' first
    | with_reducible assumption | (with_reducible apply Memory.form_ite <;> intro _) | with_reducible apply State.wakeWaits_form
    | with_reducible refine Memory.form_of (State.freeLines_mem _ _) ?_
    | with_reducible refine Memory.form_of (State.noteWave_mem _ _) ?_
    | with_reducible refine Memory.form_of (State.updRec_mem _ _ _) ?_
    | with_reducible refine Memory.form_of (State.ackSide_mem _ _ _ _ _) ?_
    | with_reducible refine Memory.form_of (State.updLaunch_mem _ _ _) ?_ | with_reducible apply Memory.wf_writePa
    | (with_reducible apply foldl_form; intro s x hf) | dsimp only | split | (rename _ = some _ => he; split at he)
    | (rename some _ = some _ => he; cases he)

theorem State.chainNode_form {s : State} {x : Wave} {n : Nat} {pa : Nat} {t : State × Bool} (hf : Memory.wf s.mem = true) (e :
    State.chainNode s x n pa = .ok t) : Memory.wf t.1.mem = true := by
  simp only [State.chainNode, bind, Option.bind, Except.bind, pure, Except.pure] at e
  repeat' first | (cases e; done) | split at e
  all_goals try obtain rfl := Except.ok.inj e
  all_goals (repeat' first
    | with_reducible assumption | (with_reducible apply Memory.form_ite <;> intro _)
    | with_reducible refine State.sendFrom_form ?_ (by assumption) | with_reducible apply State.take_form
    | with_reducible refine Memory.form_of (State.dispatch_mem _ _ _ _) ?_ | with_reducible apply Memory.wf_writePa
    | (with_reducible apply foldl_form; intro s x hf) | dsimp only | split | (rename _ = some _ => he; split at he)
    | (rename some _ = some _ => he; cases he))

theorem ofWave_ok {α : Type} {id : Nat} {x : Except BankStop α} {y : α} (e : ofWave id x = .ok y) : x = .ok y := by
  unfold ofWave at e
  split at e <;> cases e
  rfl

theorem State.feed_form {k : Nat} {s : State} {e pa : Nat} {t : State} (hf : Memory.wf s.mem = true) (h :
    State.feed k s e pa = .ok t) : Memory.wf t.mem = true := by
  induction k generalizing s e t with
  | zero => simp only [State.feed] at h; cases h; exact hf
  | succ k ih =>
    simp only [State.feed] at h
    refine foldlM_form (fun s x t hf h => ?_) hf h
    simp only [bind, Except.bind] at h
    split at h
    · cases h
    · refine foldlM_form (fun s n t hf h => ?_) hf h
      split at h
      · split at h
        · cases h
        · next e =>
          have := State.chainNode_form hf (ofWave_ok e)
          split at h
          · exact ih this h
          · cases h; exact this
      · cases h; exact hf

theorem State.fed_form {r : State × Bool} {e pa : Nat} {t : State} (hf : Memory.wf r.1.mem = true) (h :
    State.fed r e pa = .ok t) :
    Memory.wf t.mem = true := by
  simp only [State.fed] at h
  split at h
  · exact State.feed_form hf h
  · cases h; exact hf

theorem State.stopWave_form (s : State) (e : WaveStop) (hf : Memory.wf s.mem = true) :
    Memory.wf (State.stopWave s e).mem = true := by
  unfold State.stopWave
  repeat' first
    | with_reducible assumption | (with_reducible apply Memory.form_ite <;> intro _) | with_reducible apply State.loseWave_form
    | with_reducible apply Memory.wf_writePa | (with_reducible apply foldl_form; intro s x hf) | dsimp only | split
    | (rename _ = some _ => he; split at he) | (rename some _ = some _ => he; cases he)

theorem State.roundNode_form {s : State} {w : Wave} {n pa : Nat} {t : State} (hf : Memory.wf s.mem = true)
    (e : State.roundNode s w n pa = .ok t) : Memory.wf t.mem = true := by
  have last (y : State × List Marker) (f : Wave → Wave) (h : Memory.wf y.1.mem = true) :
      Memory.wf (match (y.1.updWave w.id f).wave w.id with
        | some x => if (y.1.updWave w.id f).entriesAt x (bankOf pa) then y.1.updWave w.id f
                    else (y.1.updWave w.id f).dispatch w.id (bankOf pa) []
        | none => y.1.updWave w.id f).mem = true := by
    have h := Memory.form_of (State.updWave_mem y.1 w.id f) h
    split
    · exact Memory.form_ite (fun _ => h) (fun _ => Memory.form_of (State.dispatch_mem _ _ _ _) h)
    · exact h
  simp only [State.roundNode, bind, Except.bind] at e
  split at e
  · split at e
    · cases e
    · next u hu =>
      have hm := State.fed_form (State.take_form _ _ _ _ _ _ hf) hu
      split at e
      · cases e
      · next y hy => cases e; exact last _ _ (State.sendFrom_form hm (ofWave_ok hy))
  · split at e
    · cases e
    · next y hy => cases e; exact last _ _ (State.sendFrom_form hf (ofWave_ok hy))

@[simp] theorem State.beginRound_mem (s : State) (w : Wave) (ns : List Nat) : (State.beginRound s w ns).mem = s.mem := by
  simp [State.beginRound]

theorem State.tryRound_form (s : State) (w : Wave) (hf : Memory.wf s.mem = true) : Memory.wf (State.tryRound s w).mem = true := by
  unfold State.tryRound
  split
  · exact State.stopWave_form _ _ hf
  · exact Memory.form_of (State.beginRound_mem _ _ _) hf

theorem State.countReturn_form (s : State) (w : Wave) (n : Nat) (hf : Memory.wf s.mem = true) :
    Memory.wf (State.countReturn s w n).mem = true := by
  unfold State.countReturn
  repeat' first
    | with_reducible assumption | (with_reducible apply Memory.form_ite <;> intro _) | with_reducible apply State.endWave_form
    | with_reducible refine Memory.form_of (State.updRec_mem _ _ _) ?_
    | with_reducible refine Memory.form_of (State.updWave_mem _ _ _) ?_ | with_reducible apply Memory.wf_writePa
    | (with_reducible apply foldl_form; intro s x hf) | dsimp only | split | (rename _ = some _ => he; split at he)
    | (rename some _ = some _ => he; cases he)

theorem State.waveLine_form (s : State) (w : Wave) (line : Nat) (hf : Memory.wf s.mem = true) :
    Memory.wf (State.waveLine s w line).mem = true := by
  unfold State.waveLine
  repeat' first
    | with_reducible assumption | (with_reducible apply Memory.form_ite <;> intro _)
    | with_reducible refine State.roundNode_form ?_ (by assumption)
    | with_reducible refine Memory.form_of (State.waveBlocked_mem (by assumption)) ?_ | with_reducible apply State.loseWave_form
    | with_reducible apply State.stopWave_form | with_reducible apply State.waveWrite_form
    | with_reducible refine Memory.form_of (State.updRec_mem _ _ _) ?_
    | with_reducible refine Memory.form_of (State.updWave_mem _ _ _) ?_ | with_reducible apply Memory.wf_writePa
    | (with_reducible apply foldl_form; intro s x hf) | dsimp only | split | (rename _ = some _ => he; split at he)
    | (rename some _ = some _ => he; cases he)

theorem State.writeEntry_form (s : State) (w : Wave) (bs : List (Nat × Byte × Bool)) (hf : Memory.wf s.mem = true) :
    Memory.wf (State.writeEntry s w bs).mem = true := by
  unfold State.writeEntry
  repeat' first
    | with_reducible assumption | (with_reducible apply Memory.form_ite <;> intro _) | with_reducible apply State.writeMarked_form
    | with_reducible apply State.writeMarkedScratch_form | with_reducible refine Memory.form_of (State.dropCopies_mem _ _) ?_
    | with_reducible refine Memory.form_of (State.fireWatches_mem _ _ _) ?_
    | with_reducible refine Memory.form_of (State.noteDirty_mem _ _ _ _) ?_ | with_reducible apply Memory.wf_writePa
    | (with_reducible apply foldl_form; intro s x hf) | dsimp only | split | (rename _ = some _ => he; split at he)
    | (rename some _ = some _ => he; cases he)

theorem State.moveWave_form (s : State) (w : Wave) (hf : Memory.wf s.mem = true) : Memory.wf (State.moveWave s w).mem = true := by
  unfold State.moveWave
  repeat' first
    | with_reducible assumption | (with_reducible apply Memory.form_ite <;> intro _) | with_reducible apply State.loseWave_form
    | with_reducible refine Memory.form_of (State.updWave_mem _ _ _) ?_ | with_reducible apply Memory.wf_writePa
    | (with_reducible apply foldl_form; intro s x hf) | dsimp only | split | (rename _ = some _ => he; split at he)
    | (rename some _ = some _ => he; cases he)

@[simp] theorem State.waitOutside_mem (s : State) (m : Move) (reads : List Nat) (writes : List Nat) :
    (State.waitOutside s m reads writes).mem = s.mem := by
  simp only [State.waitOutside]
  repeat' first | rfl | assumption | (refine Eq.trans (foldl_mem (fun s x => ?_) _ _) ?_) | split | simp

@[simp] theorem State.servedOutside_mem (s : State) : (State.servedOutside s).mem = s.mem := by
  simp only [State.servedOutside]
  repeat' first | rfl | assumption | (refine Eq.trans (foldl_mem (fun s x => ?_) _ _) ?_) | split | simp

theorem State.nakPacket_form (s : State) (p : NetPacket) (a : Nat) (invalid : Bool) (hf : Memory.wf s.mem = true) :
    Memory.wf (State.nakPacket s p a invalid).mem = true := by
  unfold State.nakPacket
  repeat' first
    | with_reducible assumption | (with_reducible apply Memory.form_ite <;> intro _) | with_reducible apply State.homeStores_form
    | with_reducible refine Memory.form_of (State.send_mem _ _) ?_ | with_reducible apply Memory.wf_writePa
    | (with_reducible apply foldl_form; intro s x hf) | dsimp only | split | (rename _ = some _ => he; split at he)
    | (rename some _ = some _ => he; cases he)

theorem State.nak_form {s : State} {p : NetPacket} {a : Nat} {invalid : Bool} {t : State} (hf : Memory.wf s.mem = true) (e :
    State.nak s p a invalid = .next t) : Memory.wf t.mem = true := by
  simp only [State.nak, bind, Option.bind, Except.bind, pure, Except.pure] at e
  repeat' first | (cases e; done) | split at e
  all_goals try obtain rfl := Host.Outcome.next.inj e
  all_goals (repeat' first
    | with_reducible assumption | (with_reducible apply Memory.form_ite <;> intro _) | with_reducible apply State.nakPacket_form
    | with_reducible refine Memory.form_of (State.servedOutside_mem _) ?_
    | with_reducible refine Memory.form_of (State.waitOutside_mem _ _ _ _) ?_ | with_reducible apply Memory.wf_writePa
    | (with_reducible apply foldl_form; intro s x hf) | dsimp only | split | (rename _ = some _ => he; split at he)
    | (rename some _ = some _ => he; cases he))

theorem State.packetDone_form (s : State) (p : NetPacket) (a : Nat) (q : QueuePair) (psns : Nat) (msgs : Nat) (t : Nat) (hf :
    Memory.wf s.mem = true) : Memory.wf (State.packetDone s p a q psns msgs t).mem = true := by
  unfold State.packetDone
  repeat' first
    | with_reducible assumption | (with_reducible apply Memory.form_ite <;> intro _) | with_reducible apply State.homeStores_form
    | with_reducible refine Memory.form_of (State.updPart_mem _ _ _) ?_ | with_reducible apply Memory.wf_writePa
    | (with_reducible apply foldl_form; intro s x hf) | dsimp only | split | (rename _ = some _ => he; split at he)
    | (rename some _ = some _ => he; cases he)

theorem State.storeRuns_form (s : State) (part pts : Nat) (bs : List (Nat × Byte)) (bank : Nat → Bool)
    (hf : Memory.wf s.mem = true) : Memory.wf (State.storeRuns s part pts bs bank).2.mem = true :=
  State.homeStores_form _ _ _ _ _ hf

theorem State.deviceStores_form (s : State) (xs : List (Nat × List Byte)) (hf : Memory.wf s.mem = true) :
    Memory.wf (State.deviceStores s xs).mem = true := by
  induction xs generalizing s with
  | nil => exact hf
  | cons x r ih => exact ih _ (State.homeStores_form _ _ _ _ _ hf)

theorem State.hartStore_form {s : State} {hart : Nat} {part : Nat} {pa : Nat} {data : List Byte} {t : State} (hf :
    Memory.wf s.mem = true) (e : State.hartStore s hart part pa data = .next t) : Memory.wf t.mem = true := by
  simp only [State.hartStore, bind, Option.bind, Except.bind, pure, Except.pure] at e
  repeat' first | (cases e; done) | split at e
  all_goals try obtain rfl := Host.Outcome.next.inj e
  all_goals (repeat' first
    | with_reducible assumption | (with_reducible apply Memory.form_ite <;> intro _)
    | with_reducible refine State.blockStore_form ?_ (by assumption) | with_reducible apply State.storeRuns_form
    | with_reducible refine Memory.form_of (State.servedOutside_mem _) ?_
    | with_reducible refine Memory.form_of (State.waitOutside_mem _ _ _ _) ?_ | with_reducible apply Memory.wf_writePa
    | (with_reducible apply foldl_form; intro s x hf) | dsimp only | split | (rename _ = some _ => he; split at he)
    | (rename some _ = some _ => he; cases he))

@[simp] theorem State.hartLoads_mem (s : State) (part t : Nat) (xs : List Nat) : (State.hartLoads s part t xs).2.mem = s.mem := by
  induction xs generalizing s t with
  | nil => rfl
  | cons l r ih => simp only [State.hartLoads]; rw [ih, State.homeLoad_mem]

theorem State.hartLoad_mem {s : State} {hart : Nat} {part : Nat} {pa : Nat} {n : Nat} {t : State} (e :
    State.hartLoad s hart part pa n = .next t) : t.mem = s.mem := by
  simp only [State.hartLoad, bind, Option.bind, Except.bind, pure, Except.pure] at e
  repeat' first | (cases e; done) | split at e
  all_goals try obtain rfl := Host.Outcome.next.inj e
  all_goals (repeat' first | rfl | assumption | (refine Eq.trans (foldl_mem (fun s x => ?_) _ _) ?_) | split | simp)

@[simp] theorem State.hartFence_mem (s : State) (die : Nat) : (State.hartFence s die).mem = s.mem := by
  simp only [State.hartFence]
  repeat' first | rfl | assumption | (refine Eq.trans (foldl_mem (fun s x => ?_) _ _) ?_) | split | simp

@[simp] theorem State.copyError_mem (s : State) (site : Nat) (line : Nat) (sector : Nat) :
    (State.copyError s site line sector).mem = s.mem := by
  simp only [State.copyError]
  repeat' first | rfl | assumption | (refine Eq.trans (foldl_mem (fun s x => ?_) _ _) ?_) | split | simp

theorem State.applyRecord_form (s : State) (r : ConfigRecord) (d : Nat) (hf : Memory.wf s.mem = true) :
    Memory.wf (State.applyRecord s r d).mem = true := by
  unfold State.applyRecord
  repeat' first
    | with_reducible refine Memory.form_of (State.updDie_mem _ _ _) ?_
    | with_reducible assumption | (with_reducible apply Memory.form_ite <;> intro _) | with_reducible apply State.quarantine_form
    | with_reducible refine Memory.form_of (State.alarm_mem _ _ _) ?_
    | with_reducible refine Memory.form_of (State.healthEvent_mem _ _ _) ?_
    | with_reducible refine Memory.form_of (State.updCore_mem _ _ _) ?_ | with_reducible apply Memory.wf_writePa
    | (with_reducible apply foldl_form; intro s x hf) | dsimp only | split | (rename _ = some _ => he; split at he)
    | (rename some _ = some _ => he; cases he)

end Sys2Proof.Machine
end

