-- ==== Sys2Proof/Laws/Image.lean ====
section
/-! SUPPORT. What writing a context image or a tombstone's layout does (R25, R27, R343, R352): memory and its poison marks change, nothing else. -/

namespace Sys2Proof.Machine

/-- A state that differs from another in memory and its poison marks alone. -/
def State.OnlyMem (s t : State) : Prop := t = { s with mem := t.mem, pois := t.pois }

theorem State.OnlyMem.refl (s : State) : State.OnlyMem s s := rfl

theorem State.OnlyMem.trans {s t u : State} (h : State.OnlyMem s t) (k : State.OnlyMem t u) : State.OnlyMem s u := by
  unfold State.OnlyMem at *
  rw [k, h]

/-- Each field but memory and its marks is the same. -/
theorem State.OnlyMem.groups {s t : State} (h : State.OnlyMem s t) : t.groups = s.groups := by rw [h]
theorem State.OnlyMem.gangs {s t : State} (h : State.OnlyMem s t) : t.gangs = s.gangs := by rw [h]
theorem State.OnlyMem.cores {s t : State} (h : State.OnlyMem s t) : t.cores = s.cores := by rw [h]
theorem State.OnlyMem.out {s t : State} (h : State.OnlyMem s t) : t.out = s.out := by rw [h]
theorem State.OnlyMem.reqs {s t : State} (h : State.OnlyMem s t) : t.reqs = s.reqs := by rw [h]
theorem State.OnlyMem.grp {s t : State} (h : State.OnlyMem s t) (u : Nat) : t.grp u = s.grp u := by rw [State.grp, h.groups, ← State.grp]

theorem State.writePa_onlyMem (s : State) (pa : Nat) (bs : List Byte) : State.OnlyMem s (s.writePa pa bs) := by
  unfold State.writePa State.OnlyMem
  split <;> rfl

/-- Lines written through a core's translations. -/
theorem State.writeLines_onlyMem (s : State) (core part va : Nat) (bs : List Byte) :
    State.OnlyMem s (s.writeLines core part va bs) := by
  simp only [State.writeLines]
  generalize chunk bs = cs
  induction cs generalizing s with
  | nil => exact .refl s
  | cons c r ih =>
    refine .trans ?_ (ih _)
    simp only
    split
    · split
      · exact s.writePa_onlyMem _ _
      · exact .refl s
    · exact .refl s

/-- A group's image and tombstone written. -/
theorem State.writeImage_onlyMem (s : State) (g : Grp) : State.OnlyMem s (s.writeImage g) := by
  simp only [State.writeImage]
  split
  · exact (s.writeLines_onlyMem _ _ _ _).trans (State.writeLines_onlyMem _ _ _ _ _)
  · exact s.writeLines_onlyMem _ _ _ _

/-- A cached image leaves the register cache: it is written, and the group's lines are no longer held there (R26, R27). -/
theorem State.saveImage_cached {s : State} {u : Nat} {g : Grp} (hg : s.grp u = some g) (hc : g.cached = true) :
    s.saveImage u = (s.writeImage g).updGrp u fun x => { x with cached := false } := by
  simp [State.saveImage, hg, hc]

/-- Saving an image changes memory, its marks and the groups alone. -/
theorem State.saveImage_leaves (s : State) (u : Nat) :
    s.saveImage u = { s with mem := (s.saveImage u).mem, pois := (s.saveImage u).pois, groups := (s.saveImage u).groups } := by
  simp only [State.saveImage]
  split
  · split
    · next g _ _ =>
      have h := s.writeImage_onlyMem g
      unfold State.OnlyMem at h
      rw [h]
      rfl
    · rfl
  · rfl

/-- A tombstone's layout written. -/
theorem State.saveTomb_onlyMem (s : State) (t : Tombstone) : State.OnlyMem s (s.saveTomb t) := by
  simp only [State.saveTomb]
  generalize List.range 8 = ks
  induction ks generalizing s with
  | nil => exact .refl s
  | cons k r ih =>
    refine .trans ?_ (ih _)
    simp only
    split
    · split
      · exact s.writePa_onlyMem _ _
      · exact .refl s
    · exact .refl s

/-- The layouts of the tombstones that a step has made or changed. -/
theorem State.saveTombs_onlyMem (old new : State) : State.OnlyMem new (old.saveTombs new) := by
  simp only [State.saveTombs]
  generalize new.tombs.filter (fun t => !old.tombs.contains t) = ts
  induction ts generalizing new with
  | nil => exact .refl new
  | cons t r ih =>
    rw [List.foldl_cons]
    exact (new.saveTomb_onlyMem t).trans (ih _)

end Sys2Proof.Machine
end

