-- ==== Sys2Proof/Laws/PerInstr.lean ====
section
/-! SUPPORT. Statements made per instruction. Family Opcode: the encoding of every word carries the opcode of its row in the
opcode map (R32, R52); an event has no encoding. -/

namespace Sys2Proof.Laws

/-- An append as a number. -/
theorem toNat_app {m n : Nat} (x : BitVec m) (y : BitVec n) : (x ++ y).toNat = x.toNat * 2 ^ n + y.toNat := by
  rw [BitVec.toNat_append, ← Nat.shiftLeft_add_eq_or_of_lt y.isLt, Nat.shiftLeft_eq]

/-- A bit field as a number. -/
theorem toNat_ext {m : Nat} (x : BitVec m) (s n : Nat) : (x.extractLsb' s n).toNat = x.toNat / 2 ^ s % 2 ^ n := by
  simp [BitVec.extractLsb'_toNat, Nat.shiftRight_eq_div_pow]

/-! The top byte of each format of R32, named by the widths of the fields below it. -/

theorem top_5_19 (o : BitVec 8) (x0 : BitVec 5) (x1 : BitVec 19) :
    (o ++ x0 ++ x1).extractLsb' 24 8 = o := by
  apply BitVec.eq_of_toNat_eq
  have := o.isLt
  have := x0.isLt
  have := x1.isLt
  simp only [toNat_ext, toNat_app]
  omega

theorem top_8_8_8 (o : BitVec 8) (x0 : BitVec 8) (x1 : BitVec 8) (x2 : BitVec 8) :
    (o ++ x0 ++ x1 ++ x2).extractLsb' 24 8 = o := by
  apply BitVec.eq_of_toNat_eq
  have := o.isLt
  have := x0.isLt
  have := x1.isLt
  have := x2.isLt
  simp only [toNat_ext, toNat_app]
  omega

theorem top_24 (o : BitVec 8) (x0 : BitVec 24) :
    (o ++ x0).extractLsb' 24 8 = o := by
  apply BitVec.eq_of_toNat_eq
  have := o.isLt
  have := x0.isLt
  simp only [toNat_ext, toNat_app]
  omega

theorem top_3_10_11 (o : BitVec 8) (x0 : BitVec 3) (x1 : BitVec 10) (x2 : BitVec 11) :
    (o ++ x0 ++ x1 ++ x2).extractLsb' 24 8 = o := by
  apply BitVec.eq_of_toNat_eq
  have := o.isLt
  have := x0.isLt
  have := x1.isLt
  have := x2.isLt
  simp only [toNat_ext, toNat_app]
  omega

theorem top_3_2_19 (o : BitVec 8) (x0 : BitVec 3) (x1 : BitVec 2) (x2 : BitVec 19) :
    (o ++ x0 ++ x1 ++ x2).extractLsb' 24 8 = o := by
  apply BitVec.eq_of_toNat_eq
  have := o.isLt
  have := x0.isLt
  have := x1.isLt
  have := x2.isLt
  simp only [toNat_ext, toNat_app]
  omega

theorem top_8_16 (o : BitVec 8) (x0 : BitVec 8) (x1 : BitVec 16) :
    (o ++ x0 ++ x1).extractLsb' 24 8 = o := by
  apply BitVec.eq_of_toNat_eq
  have := o.isLt
  have := x0.isLt
  have := x1.isLt
  simp only [toNat_ext, toNat_app]
  omega

theorem top_5_3_8_8 (o : BitVec 8) (x0 : BitVec 5) (x1 : BitVec 3) (x2 : BitVec 8) (x3 : BitVec 8) :
    (o ++ x0 ++ x1 ++ x2 ++ x3).extractLsb' 24 8 = o := by
  apply BitVec.eq_of_toNat_eq
  have := o.isLt
  have := x0.isLt
  have := x1.isLt
  have := x2.isLt
  have := x3.isLt
  simp only [toNat_ext, toNat_app]
  omega

theorem top_1_3_1_3_8_8 (o : BitVec 8) (x0 : BitVec 1) (x1 : BitVec 3) (x2 : BitVec 1) (x3 : BitVec 3) (x4 : BitVec 8) (x5 : BitVec 8) :
    (o ++ x0 ++ x1 ++ x2 ++ x3 ++ x4 ++ x5).extractLsb' 24 8 = o := by
  apply BitVec.eq_of_toNat_eq
  have := o.isLt
  have := x0.isLt
  have := x1.isLt
  have := x2.isLt
  have := x3.isLt
  have := x4.isLt
  have := x5.isLt
  simp only [toNat_ext, toNat_app]
  omega

theorem top_8_8_3_5 (o : BitVec 8) (x0 : BitVec 8) (x1 : BitVec 8) (x2 : BitVec 3) (x3 : BitVec 5) :
    (o ++ x0 ++ x1 ++ x2 ++ x3).extractLsb' 24 8 = o := by
  apply BitVec.eq_of_toNat_eq
  have := o.isLt
  have := x0.isLt
  have := x1.isLt
  have := x2.isLt
  have := x3.isLt
  simp only [toNat_ext, toNat_app]
  omega

theorem top_7_1_8_3_5 (o : BitVec 8) (x0 : BitVec 7) (x1 : BitVec 1) (x2 : BitVec 8) (x3 : BitVec 3) (x4 : BitVec 5) :
    (o ++ x0 ++ x1 ++ x2 ++ x3 ++ x4).extractLsb' 24 8 = o := by
  apply BitVec.eq_of_toNat_eq
  have := o.isLt
  have := x0.isLt
  have := x1.isLt
  have := x2.isLt
  have := x3.isLt
  have := x4.isLt
  simp only [toNat_ext, toNat_app]
  omega

theorem top_21_3 (o : BitVec 8) (x0 : BitVec 21) (x1 : BitVec 3) :
    (o ++ x0 ++ x1).extractLsb' 24 8 = o := by
  apply BitVec.eq_of_toNat_eq
  have := o.isLt
  have := x0.isLt
  have := x1.isLt
  simp only [toNat_ext, toNat_app]
  omega

theorem top_8_1_9_2_4 (o : BitVec 8) (x0 : BitVec 8) (x1 : BitVec 1) (x2 : BitVec 9) (x3 : BitVec 2) (x4 : BitVec 4) :
    (o ++ x0 ++ x1 ++ x2 ++ x3 ++ x4).extractLsb' 24 8 = o := by
  apply BitVec.eq_of_toNat_eq
  have := o.isLt
  have := x0.isLt
  have := x1.isLt
  have := x2.isLt
  have := x3.isLt
  have := x4.isLt
  simp only [toNat_ext, toNat_app]
  omega

theorem top_16_8 (o : BitVec 8) (x0 : BitVec 16) (x1 : BitVec 8) :
    (o ++ x0 ++ x1).extractLsb' 24 8 = o := by
  apply BitVec.eq_of_toNat_eq
  have := o.isLt
  have := x0.isLt
  have := x1.isLt
  simp only [toNat_ext, toNat_app]
  omega

theorem top_4_4_8_8 (o : BitVec 8) (x0 : BitVec 4) (x1 : BitVec 4) (x2 : BitVec 8) (x3 : BitVec 8) :
    (o ++ x0 ++ x1 ++ x2 ++ x3).extractLsb' 24 8 = o := by
  apply BitVec.eq_of_toNat_eq
  have := o.isLt
  have := x0.isLt
  have := x1.isLt
  have := x2.isLt
  have := x3.isLt
  simp only [toNat_ext, toNat_app]
  omega

theorem top_11_3_10 (o : BitVec 8) (x0 : BitVec 11) (x1 : BitVec 3) (x2 : BitVec 10) :
    (o ++ x0 ++ x1 ++ x2).extractLsb' 24 8 = o := by
  apply BitVec.eq_of_toNat_eq
  have := o.isLt
  have := x0.isLt
  have := x1.isLt
  have := x2.isLt
  simp only [toNat_ext, toNat_app]
  omega

theorem top_3_5_8_8 (o : BitVec 8) (x0 : BitVec 3) (x1 : BitVec 5) (x2 : BitVec 8) (x3 : BitVec 8) :
    (o ++ x0 ++ x1 ++ x2 ++ x3).extractLsb' 24 8 = o := by
  apply BitVec.eq_of_toNat_eq
  have := o.isLt
  have := x0.isLt
  have := x1.isLt
  have := x2.isLt
  have := x3.isLt
  simp only [toNat_ext, toNat_app]
  omega

theorem top_20_4 (o : BitVec 8) (x0 : BitVec 20) (x1 : BitVec 4) :
    (o ++ x0 ++ x1).extractLsb' 24 8 = o := by
  apply BitVec.eq_of_toNat_eq
  have := o.isLt
  have := x0.isLt
  have := x1.isLt
  simp only [toNat_ext, toNat_app]
  omega

theorem top_5_3_16 (o : BitVec 8) (x0 : BitVec 5) (x1 : BitVec 3) (x2 : BitVec 16) :
    (o ++ x0 ++ x1 ++ x2).extractLsb' 24 8 = o := by
  apply BitVec.eq_of_toNat_eq
  have := o.isLt
  have := x0.isLt
  have := x1.isLt
  have := x2.isLt
  simp only [toNat_ext, toNat_app]
  omega

namespace Opcode

/-- The word's opcode is the value the encoding tables fix in its top byte. -/
def Statement (i : Instr) : Prop :=
  ∀ w, encode? i = some w → w.extractLsb' 24 8 = (fixedBits i).2.extractLsb' 24 8

/-- A word whose encoding and fixed bits are known. -/
theorem of_word {i : Instr} {w : Word} (h : encode? i = some w) (f : Word) (hf : (fixedBits i).2 = f)
    (hw : w.extractLsb' 24 8 = f.extractLsb' 24 8) : Statement i := by
  intro v hv
  rw [h] at hv
  rw [hf]
  cases hv
  exact hw

theorem scene (l : BitVec 5) : Statement (.scene l) :=
  of_word rfl 0x01000000#32 rfl (top_5_19 _ _ _)
theorem sceneEnd (x : BitVec 8) (y : BitVec 8) (z : BitVec 8) : Statement (.sceneEnd x y z) :=
  of_word rfl 0x02000000#32 rfl (top_8_8_8 _ _ _ _)
theorem jmp (f : BitVec 24) : Statement (.jmp f) :=
  of_word rfl 0x03000000#32 rfl (top_24 _ _)
theorem call (f : BitVec 24) : Statement (.call f) :=
  of_word rfl 0x04000000#32 rfl (top_24 _ _)
theorem jmpr (a : Sel) : Statement (.jmpr a) :=
  of_word rfl 0x05000000#32 rfl (top_8_8_8 _ _ _ _)
theorem callr (a : Sel) : Statement (.callr a) :=
  of_word rfl 0x06000000#32 rfl (top_8_8_8 _ _ _ _)
theorem brc (p : BitVec 3) (j : BitVec 10) (f : BitVec 11) : Statement (.brc p j f) :=
  of_word rfl 0x07000000#32 rfl (top_3_10_11 _ _ _ _)
theorem bru (p : BitVec 3) (c : BitVec 2) (f : BitVec 19) : Statement (.bru p c f) :=
  of_word rfl 0x08000000#32 rfl (top_3_2_19 _ _ _ _)
theorem exit : Statement .exit :=
  of_word rfl 0x09000000#32 rfl (top_24 _ _)
theorem trap (i : BitVec 16) : Statement (.trap i) :=
  of_word rfl 0x0A000000#32 rfl (top_8_16 _ _ _)
theorem yield : Statement .yield :=
  of_word rfl 0x0B000000#32 rfl (top_24 _ _)
theorem brk (i : BitVec 16) : Statement (.brk i) :=
  of_word rfl 0x0C000000#32 rfl (top_8_16 _ _ _)
theorem nop : Statement .nop :=
  of_word rfl 0x0D000000#32 rfl (top_24 _ _)
theorem ldi (d : Sel) (i : BitVec 16) : Statement (.ldi d i) :=
  of_word rfl 0x10000000#32 rfl (top_8_16 _ _ _)
theorem ldhi (d : Sel) (i : BitVec 16) : Statement (.ldhi d i) :=
  of_word rfl 0x11000000#32 rfl (top_8_16 _ _ _)
theorem mov (d : Sel) (a : Sel) : Statement (.mov d a) :=
  of_word rfl 0x12000000#32 rfl (top_8_8_8 _ _ _ _)
theorem modei (d : BitVec 8) (i : BitVec 16) : Statement (.modei d i) :=
  of_word rfl 0x13000000#32 rfl (top_8_16 _ _ _)
theorem mode (a : Sel) : Statement (.mode a) :=
  of_word rfl 0x14000000#32 rfl (top_8_8_8 _ _ _ _)
theorem rdsp (d : Sel) (n : BitVec 16) : Statement (.rdsp d n) :=
  of_word rfl 0x15000000#32 rfl (top_8_16 _ _ _)
theorem wrsp (s : Sel) (n : BitVec 16) : Statement (.wrsp s n) :=
  of_word rfl 0x16000000#32 rfl (top_8_16 _ _ _)
theorem winld (w : BitVec 3) (n : BitVec 8) : Statement (.winld w n) :=
  of_word rfl 0x17000000#32 rfl (top_5_3_8_8 _ _ _ _ _)
theorem winsub (s : BitVec 3) (d : BitVec 3) (a : Sel) (b : Sel) : Statement (.winsub s d a b) :=
  of_word rfl 0x18000000#32 rfl (top_1_3_1_3_8_8 _ _ _ _ _ _ _)
theorem rdtag (d : Sel) (a : Sel) : Statement (.rdtag d a) :=
  of_word rfl 0x19000000#32 rfl (top_8_8_8 _ _ _ _)
theorem retag (d : Sel) (a : Sel) (b : Sel) : Statement (.retag d a b) :=
  of_word rfl 0x1A000000#32 rfl (top_8_8_8 _ _ _ _)
theorem add (d : Sel) (a : Sel) (b : Sel) : Statement (.add d a b) :=
  of_word rfl 0x20000000#32 rfl (top_8_8_8 _ _ _ _)
theorem sub (d : Sel) (a : Sel) (b : Sel) : Statement (.sub d a b) :=
  of_word rfl 0x21000000#32 rfl (top_8_8_8 _ _ _ _)
theorem mul (d : Sel) (a : Sel) (b : Sel) : Statement (.mul d a b) :=
  of_word rfl 0x22000000#32 rfl (top_8_8_8 _ _ _ _)
theorem mulhi (d : Sel) (a : Sel) (b : Sel) : Statement (.mulhi d a b) :=
  of_word rfl 0x23000000#32 rfl (top_8_8_8 _ _ _ _)
theorem mad (d : Sel) (a : Sel) (b : Sel) : Statement (.mad d a b) :=
  of_word rfl 0x24000000#32 rfl (top_8_8_8 _ _ _ _)
theorem min (d : Sel) (a : Sel) (b : Sel) : Statement (.min d a b) :=
  of_word rfl 0x25000000#32 rfl (top_8_8_8 _ _ _ _)
theorem max (d : Sel) (a : Sel) (b : Sel) : Statement (.max d a b) :=
  of_word rfl 0x26000000#32 rfl (top_8_8_8 _ _ _ _)
theorem absd (d : Sel) (a : Sel) (b : Sel) : Statement (.absd d a b) :=
  of_word rfl 0x27000000#32 rfl (top_8_8_8 _ _ _ _)
theorem and (d : Sel) (a : Sel) (b : Sel) : Statement (.and d a b) :=
  of_word rfl 0x28000000#32 rfl (top_8_8_8 _ _ _ _)
theorem or (d : Sel) (a : Sel) (b : Sel) : Statement (.or d a b) :=
  of_word rfl 0x29000000#32 rfl (top_8_8_8 _ _ _ _)
theorem xor (d : Sel) (a : Sel) (b : Sel) : Statement (.xor d a b) :=
  of_word rfl 0x2A000000#32 rfl (top_8_8_8 _ _ _ _)
theorem andn (d : Sel) (a : Sel) (b : Sel) : Statement (.andn d a b) :=
  of_word rfl 0x2B000000#32 rfl (top_8_8_8 _ _ _ _)
theorem not (d : Sel) (a : Sel) : Statement (.not d a) :=
  of_word rfl 0x2C000000#32 rfl (top_8_8_8 _ _ _ _)
theorem shl (d : Sel) (a : Sel) (b : Sel) : Statement (.shl d a b) :=
  of_word rfl 0x2D000000#32 rfl (top_8_8_8 _ _ _ _)
theorem shr (d : Sel) (a : Sel) (b : Sel) : Statement (.shr d a b) :=
  of_word rfl 0x2E000000#32 rfl (top_8_8_8 _ _ _ _)
theorem sar (d : Sel) (a : Sel) (b : Sel) : Statement (.sar d a b) :=
  of_word rfl 0x2F000000#32 rfl (top_8_8_8 _ _ _ _)
theorem rol (d : Sel) (a : Sel) (b : Sel) : Statement (.rol d a b) :=
  of_word rfl 0x30000000#32 rfl (top_8_8_8 _ _ _ _)
theorem fshl (d : Sel) (a : Sel) (b : Sel) : Statement (.fshl d a b) :=
  of_word rfl 0x31000000#32 rfl (top_8_8_8 _ _ _ _)
theorem fshr (d : Sel) (a : Sel) (b : Sel) : Statement (.fshr d a b) :=
  of_word rfl 0x32000000#32 rfl (top_8_8_8 _ _ _ _)
theorem lut3 (d : Sel) (a : Sel) (b : Sel) : Statement (.lut3 d a b) :=
  of_word rfl 0x33000000#32 rfl (top_8_8_8 _ _ _ _)
theorem clz (d : Sel) (a : Sel) : Statement (.clz d a) :=
  of_word rfl 0x34000000#32 rfl (top_8_8_8 _ _ _ _)
theorem ffs (d : Sel) (a : Sel) : Statement (.ffs d a) :=
  of_word rfl 0x35000000#32 rfl (top_8_8_8 _ _ _ _)
theorem popc (d : Sel) (a : Sel) : Statement (.popc d a) :=
  of_word rfl 0x36000000#32 rfl (top_8_8_8 _ _ _ _)
theorem brev (d : Sel) (a : Sel) : Statement (.brev d a) :=
  of_word rfl 0x37000000#32 rfl (top_8_8_8 _ _ _ _)
theorem bfx (d : Sel) (a : Sel) (b : Sel) : Statement (.bfx d a b) :=
  of_word rfl 0x38000000#32 rfl (top_8_8_8 _ _ _ _)
theorem bfi (d : Sel) (a : Sel) (b : Sel) : Statement (.bfi d a b) :=
  of_word rfl 0x39000000#32 rfl (top_8_8_8 _ _ _ _)
theorem cmpeq (d : Sel) (a : Sel) (b : Sel) : Statement (.cmpeq d a b) :=
  of_word rfl 0x3A000000#32 rfl (top_8_8_8 _ _ _ _)
theorem cmpne (d : Sel) (a : Sel) (b : Sel) : Statement (.cmpne d a b) :=
  of_word rfl 0x3B000000#32 rfl (top_8_8_8 _ _ _ _)
theorem cmplt (d : Sel) (a : Sel) (b : Sel) : Statement (.cmplt d a b) :=
  of_word rfl 0x3C000000#32 rfl (top_8_8_8 _ _ _ _)
theorem cmple (d : Sel) (a : Sel) (b : Sel) : Statement (.cmple d a b) :=
  of_word rfl 0x3D000000#32 rfl (top_8_8_8 _ _ _ _)
theorem sel (d : Sel) (a : Sel) (b : Sel) : Statement (.sel d a b) :=
  of_word rfl 0x3E000000#32 rfl (top_8_8_8 _ _ _ _)
theorem sad (d : Sel) (a : Sel) (b : Sel) : Statement (.sad d a b) :=
  of_word rfl 0x3F000000#32 rfl (top_8_8_8 _ _ _ _)
theorem fadd (d : Sel) (a : Sel) (b : Sel) : Statement (.fadd d a b) :=
  of_word rfl 0x40000000#32 rfl (top_8_8_8 _ _ _ _)
theorem fsub (d : Sel) (a : Sel) (b : Sel) : Statement (.fsub d a b) :=
  of_word rfl 0x41000000#32 rfl (top_8_8_8 _ _ _ _)
theorem fmul (d : Sel) (a : Sel) (b : Sel) : Statement (.fmul d a b) :=
  of_word rfl 0x42000000#32 rfl (top_8_8_8 _ _ _ _)
theorem fma (d : Sel) (a : Sel) (b : Sel) : Statement (.fma d a b) :=
  of_word rfl 0x43000000#32 rfl (top_8_8_8 _ _ _ _)
theorem fmin (d : Sel) (a : Sel) (b : Sel) : Statement (.fmin d a b) :=
  of_word rfl 0x44000000#32 rfl (top_8_8_8 _ _ _ _)
theorem fmax (d : Sel) (a : Sel) (b : Sel) : Statement (.fmax d a b) :=
  of_word rfl 0x45000000#32 rfl (top_8_8_8 _ _ _ _)
theorem fcmpeq (d : Sel) (a : Sel) (b : Sel) : Statement (.fcmpeq d a b) :=
  of_word rfl 0x46000000#32 rfl (top_8_8_8 _ _ _ _)
theorem fcmplt (d : Sel) (a : Sel) (b : Sel) : Statement (.fcmplt d a b) :=
  of_word rfl 0x47000000#32 rfl (top_8_8_8 _ _ _ _)
theorem fcmple (d : Sel) (a : Sel) (b : Sel) : Statement (.fcmple d a b) :=
  of_word rfl 0x48000000#32 rfl (top_8_8_8 _ _ _ _)
theorem fcmpun (d : Sel) (a : Sel) (b : Sel) : Statement (.fcmpun d a b) :=
  of_word rfl 0x49000000#32 rfl (top_8_8_8 _ _ _ _)
theorem fabs (d : Sel) (a : Sel) : Statement (.fabs d a) :=
  of_word rfl 0x4A000000#32 rfl (top_8_8_8 _ _ _ _)
theorem fneg (d : Sel) (a : Sel) : Statement (.fneg d a) :=
  of_word rfl 0x4B000000#32 rfl (top_8_8_8 _ _ _ _)
theorem rcp (d : Sel) (a : Sel) : Statement (.rcp d a) :=
  of_word rfl 0x4C000000#32 rfl (top_8_8_8 _ _ _ _)
theorem rsqrt (d : Sel) (a : Sel) : Statement (.rsqrt d a) :=
  of_word rfl 0x4D000000#32 rfl (top_8_8_8 _ _ _ _)
theorem sqrt (d : Sel) (a : Sel) : Statement (.sqrt d a) :=
  of_word rfl 0x4E000000#32 rfl (top_8_8_8 _ _ _ _)
theorem exp2 (d : Sel) (a : Sel) : Statement (.exp2 d a) :=
  of_word rfl 0x4F000000#32 rfl (top_8_8_8 _ _ _ _)
theorem log2 (d : Sel) (a : Sel) : Statement (.log2 d a) :=
  of_word rfl 0x50000000#32 rfl (top_8_8_8 _ _ _ _)
theorem sinpi (d : Sel) (a : Sel) : Statement (.sinpi d a) :=
  of_word rfl 0x51000000#32 rfl (top_8_8_8 _ _ _ _)
theorem cospi (d : Sel) (a : Sel) : Statement (.cospi d a) :=
  of_word rfl 0x52000000#32 rfl (top_8_8_8 _ _ _ _)
theorem tanh (d : Sel) (a : Sel) : Statement (.tanh d a) :=
  of_word rfl 0x53000000#32 rfl (top_8_8_8 _ _ _ _)
theorem rnd (d : Sel) (a : Sel) : Statement (.rnd d a) :=
  of_word rfl 0x54000000#32 rfl (top_8_8_8 _ _ _ _)
theorem frac (d : Sel) (a : Sel) : Statement (.frac d a) :=
  of_word rfl 0x55000000#32 rfl (top_8_8_8 _ _ _ _)
theorem cvt (d : Sel) (a : Sel) : Statement (.cvt d a) :=
  of_word rfl 0x56000000#32 rfl (top_8_8_8 _ _ _ _)
theorem dotk (d : Sel) (a : Sel) (b : Sel) : Statement (.dotk d a b) :=
  of_word rfl 0x57000000#32 rfl (top_8_8_8 _ _ _ _)
theorem dot4 (d : Sel) (a : Sel) (b : Sel) : Statement (.dot4 d a b) :=
  of_word rfl 0x58000000#32 rfl (top_8_8_8 _ _ _ _)
theorem dot2 (d : Sel) (a : Sel) (b : Sel) : Statement (.dot2 d a b) :=
  of_word rfl 0x59000000#32 rfl (top_8_8_8 _ _ _ _)
theorem fclass (d : Sel) (a : Sel) (b : Sel) : Statement (.fclass d a b) :=
  of_word rfl 0x5A000000#32 rfl (top_8_8_8 _ _ _ _)
theorem ldexp (d : Sel) (a : Sel) (b : Sel) : Statement (.ldexp d a b) :=
  of_word rfl 0x5B000000#32 rfl (top_8_8_8 _ _ _ _)
theorem qshf (d : Sel) (a : Sel) (b : Sel) : Statement (.qshf d a b) :=
  of_word rfl 0x60000000#32 rfl (top_8_8_8 _ _ _ _)
theorem qswp (d : Sel) (a : Sel) (b : Sel) : Statement (.qswp d a b) :=
  of_word rfl 0x61000000#32 rfl (top_8_8_8 _ _ _ _)
theorem qred (d : Sel) (a : Sel) (b : Sel) : Statement (.qred d a b) :=
  of_word rfl 0x62000000#32 rfl (top_8_8_8 _ _ _ _)
theorem shfi (d : Sel) (a : Sel) (b : Sel) : Statement (.shfi d a b) :=
  of_word rfl 0x63000000#32 rfl (top_8_8_8 _ _ _ _)
theorem shfx (d : Sel) (a : Sel) (b : Sel) : Statement (.shfx d a b) :=
  of_word rfl 0x64000000#32 rfl (top_8_8_8 _ _ _ _)
theorem shfu (d : Sel) (a : Sel) (b : Sel) : Statement (.shfu d a b) :=
  of_word rfl 0x65000000#32 rfl (top_8_8_8 _ _ _ _)
theorem shfd (d : Sel) (a : Sel) (b : Sel) : Statement (.shfd d a b) :=
  of_word rfl 0x66000000#32 rfl (top_8_8_8 _ _ _ _)
theorem redx (d : Sel) (a : Sel) (b : Sel) : Statement (.redx d a b) :=
  of_word rfl 0x67000000#32 rfl (top_8_8_8 _ _ _ _)
theorem scanx (d : Sel) (a : Sel) (b : Sel) : Statement (.scanx d a b) :=
  of_word rfl 0x68000000#32 rfl (top_8_8_8 _ _ _ _)
theorem ballot (d : Sel) (a : Sel) : Statement (.ballot d a) :=
  of_word rfl 0x69000000#32 rfl (top_8_8_8 _ _ _ _)
theorem vote (d : Sel) (a : Sel) (b : Sel) : Statement (.vote d a b) :=
  of_word rfl 0x6A000000#32 rfl (top_8_8_8 _ _ _ _)
theorem matchLanes (d : Sel) (a : Sel) : Statement (.matchLanes d a) :=
  of_word rfl 0x6B000000#32 rfl (top_8_8_8 _ _ _ _)
theorem bcst (d : Sel) (a : Sel) (b : Sel) : Statement (.bcst d a b) :=
  of_word rfl 0x6C000000#32 rfl (top_8_8_8 _ _ _ _)
theorem elect (d : Sel) : Statement (.elect d) :=
  of_word rfl 0x6D000000#32 rfl (top_8_16 _ _ _)
theorem pset (d : Sel) (a : Sel) : Statement (.pset d a) :=
  of_word rfl 0x70000000#32 rfl (top_8_8_8 _ _ _ _)
theorem pget (d : Sel) (a : Sel) : Statement (.pget d a) :=
  of_word rfl 0x71000000#32 rfl (top_8_8_8 _ _ _ _)
theorem pand (d : Sel) (a : Sel) (b : Sel) : Statement (.pand d a b) :=
  of_word rfl 0x72000000#32 rfl (top_8_8_8 _ _ _ _)
theorem por (d : Sel) (a : Sel) (b : Sel) : Statement (.por d a b) :=
  of_word rfl 0x73000000#32 rfl (top_8_8_8 _ _ _ _)
theorem pxor (d : Sel) (a : Sel) (b : Sel) : Statement (.pxor d a b) :=
  of_word rfl 0x74000000#32 rfl (top_8_8_8 _ _ _ _)
theorem pnot (d : Sel) (a : Sel) : Statement (.pnot d a) :=
  of_word rfl 0x75000000#32 rfl (top_8_8_8 _ _ _ _)
theorem pmask (d : Sel) (a : Sel) : Statement (.pmask d a) :=
  of_word rfl 0x76000000#32 rfl (top_8_8_8 _ _ _ _)
theorem ldb (d : Sel) (a : Sel) (w : BitVec 3) (k : BitVec 5) : Statement (.ldb d a w k) :=
  of_word rfl 0x80000000#32 rfl (top_8_8_3_5 _ _ _ _ _)
theorem ldh (d : Sel) (a : Sel) (w : BitVec 3) (k : BitVec 5) : Statement (.ldh d a w k) :=
  of_word rfl 0x81000000#32 rfl (top_8_8_3_5 _ _ _ _ _)
theorem ldw (d : Sel) (a : Sel) (w : BitVec 3) (k : BitVec 5) : Statement (.ldw d a w k) :=
  of_word rfl 0x82000000#32 rfl (top_8_8_3_5 _ _ _ _ _)
theorem ldq (d : Sel) (a : Sel) (w : BitVec 3) (k : BitVec 5) : Statement (.ldq d a w k) :=
  of_word rfl 0x83000000#32 rfl (top_8_8_3_5 _ _ _ _ _)
theorem stb (d : Sel) (a : Sel) (w : BitVec 3) (k : BitVec 5) : Statement (.stb d a w k) :=
  of_word rfl 0x84000000#32 rfl (top_8_8_3_5 _ _ _ _ _)
theorem sth (d : Sel) (a : Sel) (w : BitVec 3) (k : BitVec 5) : Statement (.sth d a w k) :=
  of_word rfl 0x85000000#32 rfl (top_8_8_3_5 _ _ _ _ _)
theorem stw (d : Sel) (a : Sel) (w : BitVec 3) (k : BitVec 5) : Statement (.stw d a w k) :=
  of_word rfl 0x86000000#32 rfl (top_8_8_3_5 _ _ _ _ _)
theorem stq (d : Sel) (a : Sel) (w : BitVec 3) (k : BitVec 5) : Statement (.stq d a w k) :=
  of_word rfl 0x87000000#32 rfl (top_8_8_3_5 _ _ _ _ _)
theorem faa (d : Sel) (a : Sel) (w : BitVec 3) (k : BitVec 5) : Statement (.faa d a w k) :=
  of_word rfl 0x88000000#32 rfl (top_8_8_3_5 _ _ _ _ _)
theorem fmn (d : Sel) (a : Sel) (w : BitVec 3) (k : BitVec 5) : Statement (.fmn d a w k) :=
  of_word rfl 0x89000000#32 rfl (top_8_8_3_5 _ _ _ _ _)
theorem fmx (d : Sel) (a : Sel) (w : BitVec 3) (k : BitVec 5) : Statement (.fmx d a w k) :=
  of_word rfl 0x8A000000#32 rfl (top_8_8_3_5 _ _ _ _ _)
theorem fand (d : Sel) (a : Sel) (w : BitVec 3) (k : BitVec 5) : Statement (.fand d a w k) :=
  of_word rfl 0x8B000000#32 rfl (top_8_8_3_5 _ _ _ _ _)
theorem fior (d : Sel) (a : Sel) (w : BitVec 3) (k : BitVec 5) : Statement (.fior d a w k) :=
  of_word rfl 0x8C000000#32 rfl (top_8_8_3_5 _ _ _ _ _)
theorem fxor (d : Sel) (a : Sel) (w : BitVec 3) (k : BitVec 5) : Statement (.fxor d a w k) :=
  of_word rfl 0x8D000000#32 rfl (top_8_8_3_5 _ _ _ _ _)
theorem swp (d : Sel) (a : Sel) (w : BitVec 3) (k : BitVec 5) : Statement (.swp d a w k) :=
  of_word rfl 0x8E000000#32 rfl (top_8_8_3_5 _ _ _ _ _)
theorem cas (d : Sel) (a : Sel) (w : BitVec 3) (k : BitVec 5) : Statement (.cas d a w k) :=
  of_word rfl 0x8F000000#32 rfl (top_8_8_3_5 _ _ _ _ _)
theorem radd (d : Sel) (a : Sel) (w : BitVec 3) (k : BitVec 5) : Statement (.radd d a w k) :=
  of_word rfl 0x90000000#32 rfl (top_8_8_3_5 _ _ _ _ _)
theorem rmin (d : Sel) (a : Sel) (w : BitVec 3) (k : BitVec 5) : Statement (.rmin d a w k) :=
  of_word rfl 0x91000000#32 rfl (top_8_8_3_5 _ _ _ _ _)
theorem rmax (d : Sel) (a : Sel) (w : BitVec 3) (k : BitVec 5) : Statement (.rmax d a w k) :=
  of_word rfl 0x92000000#32 rfl (top_8_8_3_5 _ _ _ _ _)
theorem ror (d : Sel) (a : Sel) (w : BitVec 3) (k : BitVec 5) : Statement (.ror d a w k) :=
  of_word rfl 0x93000000#32 rfl (top_8_8_3_5 _ _ _ _ _)
theorem pfl (t : BitVec 1) (a : Sel) (w : BitVec 3) (k : BitVec 5) : Statement (.pfl t a w k) :=
  of_word rfl 0x94000000#32 rfl (top_7_1_8_3_5 _ _ _ _ _ _)
theorem cpy (s : BitVec 3) (d : BitVec 3) (a : Sel) : Statement (.cpy s d a) :=
  of_word rfl 0x95000000#32 rfl (top_1_3_1_3_8_8 _ _ _ _ _ _ _)
theorem fence (s : BitVec 3) : Statement (.fence s) :=
  of_word rfl 0xA0000000#32 rfl (top_21_3 _ _ _)
theorem bara (g : BitVec 1) (p : BitVec 2) (h : BitVec 4) : Statement (.bara g p h) :=
  of_word rfl 0xA1000000#32 rfl (top_8_1_9_2_4 _ _ _ _ _ _)
theorem barw (g : BitVec 1) (p : BitVec 2) (h : BitVec 4) : Statement (.barw g p h) :=
  of_word rfl 0xA2000000#32 rfl (top_8_1_9_2_4 _ _ _ _ _ _)
theorem bars (g : BitVec 1) (p : BitVec 2) (h : BitVec 4) : Statement (.bars g p h) :=
  of_word rfl 0xA3000000#32 rfl (top_8_1_9_2_4 _ _ _ _ _ _)
theorem barinit (c : Sel) (g : BitVec 1) (p : BitVec 2) (h : BitVec 4) : Statement (.barinit c g p h) :=
  of_word rfl 0xA4000000#32 rfl (top_8_1_9_2_4 _ _ _ _ _ _)
theorem mwne (d : Sel) (a : Sel) (w : BitVec 3) (k : BitVec 5) : Statement (.mwne d a w k) :=
  of_word rfl 0xA5000000#32 rfl (top_8_8_3_5 _ _ _ _ _)
theorem mwge (d : Sel) (a : Sel) (w : BitVec 3) (k : BitVec 5) : Statement (.mwge d a w k) :=
  of_word rfl 0xA6000000#32 rfl (top_8_8_3_5 _ _ _ _ _)
theorem drain : Statement .drain :=
  of_word rfl 0xA7000000#32 rfl (top_24 _ _)
theorem cwait (c : BitVec 8) : Statement (.cwait c) :=
  of_word rfl 0xA8000000#32 rfl (top_16_8 _ _ _)
theorem hop (h : BitVec 4) (a : Sel) : Statement (.hop h a) :=
  of_word rfl 0xB0000000#32 rfl (top_4_4_8_8 _ _ _ _ _)
theorem wload (n : BitVec 3) : Statement (.wload n) :=
  of_word rfl 0xB1008000#32 rfl (top_11_3_10 _ _ _ _)
theorem stage (n : BitVec 3) : Statement (.stage n) :=
  of_word rfl 0xB2008000#32 rfl (top_11_3_10 _ _ _ _)
theorem chain (n : BitVec 3) : Statement (.chain n) :=
  of_word rfl 0xB3008000#32 rfl (top_11_3_10 _ _ _ _)
theorem cmit (c : BitVec 8) : Statement (.cmit c) :=
  of_word rfl 0xB4000000#32 rfl (top_16_8 _ _ _)
theorem cdisc (c : BitVec 8) : Statement (.cdisc c) :=
  of_word rfl 0xB5000000#32 rfl (top_16_8 _ _ _)
theorem qcfg (q : BitVec 4) (a : Sel) : Statement (.qcfg q a) :=
  of_word rfl 0xB6A00000#32 rfl (top_4_4_8_8 _ _ _ _ _)
theorem cstat (d : BitVec 5) (a : Sel) : Statement (.cstat d a) :=
  of_word rfl 0xB7800000#32 rfl (top_3_5_8_8 _ _ _ _ _)
theorem wfree (a : Sel) (b : Sel) : Statement (.wfree a b) :=
  of_word rfl 0xB8000000#32 rfl (top_8_8_8 _ _ _ _)
theorem gbind (n : BitVec 3) : Statement (.gbind n) :=
  of_word rfl 0xC0008000#32 rfl (top_11_3_10 _ _ _ _)
theorem gprog (n : BitVec 3) : Statement (.gprog n) :=
  of_word rfl 0xC1008000#32 rfl (top_11_3_10 _ _ _ _)
theorem gmark (n : BitVec 3) : Statement (.gmark n) :=
  of_word rfl 0xC2008000#32 rfl (top_11_3_10 _ _ _ _)
theorem gprop (n : BitVec 3) : Statement (.gprop n) :=
  of_word rfl 0xC3008000#32 rfl (top_11_3_10 _ _ _ _)
theorem gcoll (n : BitVec 3) : Statement (.gcoll n) :=
  of_word rfl 0xC4008000#32 rfl (top_11_3_10 _ _ _ _)
theorem gclr (n : BitVec 3) : Statement (.gclr n) :=
  of_word rfl 0xC5008000#32 rfl (top_11_3_10 _ _ _ _)
theorem gwait (t : BitVec 4) : Statement (.gwait t) :=
  of_word rfl 0xC6000000#32 rfl (top_20_4 _ _ _)
theorem gstat (d : Sel) (a : Sel) (b : Sel) : Statement (.gstat d a b) :=
  of_word rfl 0xC7000000#32 rfl (top_8_8_8 _ _ _ _)
theorem bexec (n : BitVec 3) : Statement (.bexec n) :=
  of_word rfl 0xC8008000#32 rfl (top_11_3_10 _ _ _ _)
theorem rowop (n : BitVec 3) : Statement (.rowop n) :=
  of_word rfl 0xC9008000#32 rfl (top_11_3_10 _ _ _ _)
theorem bpage (d : BitVec 3) : Statement (.bpage d) :=
  of_word rfl 0xCA000000#32 rfl (top_5_3_16 _ _ _ _)
theorem tret : Statement .tret :=
  of_word rfl 0xD0000000#32 rfl (top_24 _ _)
theorem rdsys (d : Sel) (n : BitVec 16) : Statement (.rdsys d n) :=
  of_word rfl 0xD1000000#32 rfl (top_8_16 _ _ _)
theorem wrsys (s : Sel) (n : BitVec 16) : Statement (.wrsys s n) :=
  of_word rfl 0xD2000000#32 rfl (top_8_16 _ _ _)
theorem ptest (d : Sel) (a : Sel) : Statement (.ptest d a) :=
  of_word rfl 0xD3000000#32 rfl (top_8_8_8 _ _ _ _)
theorem pclr (d : Sel) : Statement (.pclr d) :=
  of_word rfl 0xD4000000#32 rfl (top_8_16 _ _ _)
theorem sigck : Statement .sigck :=
  of_word rfl 0xD5000000#32 rfl (top_24 _ _)
theorem deferredResultLands (r : Nat) : Statement (.deferredResultLands r) := nofun
theorem emptyWaitEnd (u : Nat) (slot : Bool) : Statement (.emptyWaitEnd u slot) := nofun
theorem stalledPerformResume (u : Nat) (slot : Bool) : Statement (.stalledPerformResume u slot) := nofun
theorem preemptionRequest (gang : Nat) : Statement (.preemptionRequest gang) := nofun
theorem groupResume (gang core : Nat) : Statement (.groupResume gang core) := nofun
theorem parkedGroupReady (u : Nat) : Statement (.parkedGroupReady u) := nofun
theorem ptsSelfIncrement (u : Nat) : Statement (.ptsSelfIncrement u) := nofun
theorem lineEviction (line : Nat) : Statement (.lineEviction line) := nofun
theorem homeLoad (r i : Nat) : Statement (.homeLoad r i) := nofun
theorem homeStore (r i : Nat) : Statement (.homeStore r i) := nofun
theorem homeAtomic (pkt : Nat) : Statement (.homeAtomic pkt) := nofun
theorem storeAcknowledge (r : Nat) : Statement (.storeAcknowledge r) := nofun
theorem wcSectorTimeout (core i : Nat) : Statement (.wcSectorTimeout core i) := nofun
theorem gatherWindowExpiry (r : Nat) : Statement (.gatherWindowExpiry r) := nofun
theorem gatherWake (r : Nat) : Statement (.gatherWake r) := nofun
theorem agentLineRelease (cmd line : Nat) : Statement (.agentLineRelease cmd line) := nofun
theorem copyRetire (cmd : Nat) : Statement (.copyRetire cmd) := nofun
theorem fencePerform (u : Nat) : Statement (.fencePerform u) := nofun
theorem drainComplete (u : Nat) (slot : Bool) : Statement (.drainComplete u slot) := nofun
theorem mwaitWatchFire (u : Nat) (slot : Bool) : Statement (.mwaitWatchFire u slot) := nofun
theorem mwaitPoll (u : Nat) (slot : Bool) : Statement (.mwaitPoll u slot) := nofun
theorem sequencerIssue (cmd : Nat) : Statement (.sequencerIssue cmd) := nofun
theorem wloadRetire (cmd : Nat) : Statement (.wloadRetire cmd) := nofun
theorem wfreeRetire (cmd : Nat) : Statement (.wfreeRetire cmd) := nofun
theorem engineOutputEntry (cmd : Nat) : Statement (.engineOutputEntry cmd) := nofun
theorem stageRetire (cmd : Nat) : Statement (.stageRetire cmd) := nofun
theorem rehearsalHeld (cmd : Nat) : Statement (.rehearsalHeld cmd) := nofun
theorem engineBitstepReplay (core : Nat) : Statement (.engineBitstepReplay core) := nofun
theorem bankCommandComplete (cmd : Nat) : Statement (.bankCommandComplete cmd) := nofun
theorem bankRowWrite (cmd line : Nat) : Statement (.bankRowWrite cmd line) := nofun
theorem demandWaitTimeout (bank : Nat) : Statement (.demandWaitTimeout bank) := nofun
theorem bankRefresh (bank : Nat) : Statement (.bankRefresh bank) := nofun
theorem waveArrival (wave : Nat) : Statement (.waveArrival wave) := nofun
theorem gbindApply (wave : Nat) : Statement (.gbindApply wave) := nofun
theorem waveStart (wave : Nat) : Statement (.waveStart wave) := nofun
theorem markerMessage (wave i : Nat) : Statement (.markerMessage wave i) := nofun
theorem weightReturn (wave bank : Nat) : Statement (.weightReturn wave bank) := nofun
theorem weightLoan (wave bank : Nat) : Statement (.weightLoan wave bank) := nofun
theorem collectPush (wave : Nat) : Statement (.collectPush wave) := nofun
theorem launchWatchFire (part queue : Nat) : Statement (.launchWatchFire part queue) := nofun
theorem predecessorRelease (launch : Nat) : Statement (.predecessorRelease launch) := nofun
theorem gangPlacement (cluster launch core : Nat) : Statement (.gangPlacement cluster launch core) := nofun
theorem gangSteal (cluster launch victim : Nat) : Statement (.gangSteal cluster launch victim) := nofun
theorem clusterClear (cluster launch core : Nat) : Statement (.clusterClear cluster launch core) := nofun
theorem progressEviction (launch : Nat) : Statement (.progressEviction launch) := nofun
theorem launchCompletion (launch : Nat) : Statement (.launchCompletion launch) := nofun
theorem callboardAgeTrigger (part ring : Nat) : Statement (.callboardAgeTrigger part ring) := nofun
theorem callboardHoldRelease (launch : Nat) : Statement (.callboardHoldRelease launch) := nofun
theorem parkRetry (part slot : Nat) : Statement (.parkRetry part slot) := nofun
theorem parkDeliver (part slot : Nat) : Statement (.parkDeliver part slot) := nofun
theorem parkKillGang (part slot : Nat) : Statement (.parkKillGang part slot) := nofun
theorem quiesce (part : Nat) : Statement (.quiesce part) := nofun
theorem rebase (part : Nat) : Statement (.rebase part) := nofun
theorem teardown (part : Nat) : Statement (.teardown part) := nofun
theorem teardownClear (part : Nat) : Statement (.teardownClear part) := nofun
theorem shootdownGo (part : Nat) (value : Word) : Statement (.shootdownGo part value) := nofun
theorem shootdownDone (part : Nat) : Statement (.shootdownDone part) := nofun
theorem partidWrite (core : Nat) (value : Word) : Statement (.partidWrite core value) := nofun
theorem ptrootWrite (core : Nat) (value : Word) : Statement (.ptrootWrite core value) := nofun
theorem graphctlWrite (part r : Nat) (value : Word) : Statement (.graphctlWrite part r value) := nofun
theorem marginWrite (core : Nat) (value : Word) : Statement (.marginWrite core value) := nofun
theorem ltelimWrite (core : Nat) (value : Word) : Statement (.ltelimWrite core value) := nofun
theorem ltewinWrite (core : Nat) (value : Word) : Statement (.ltewinWrite core value) := nofun
theorem quarWrite (core : Nat) (value : Word) : Statement (.quarWrite core value) := nofun
theorem healthWrite (die : Nat) (value : Word) : Statement (.healthWrite die value) := nofun
theorem registerWrite (reg : RegAddr) (value : Word) : Statement (.registerWrite reg value) := nofun
theorem lateTransitionEvent (core : Nat) : Statement (.lateTransitionEvent core) := nofun
theorem lteWindowExpiry (core : Nat) : Statement (.lteWindowExpiry core) := nofun
theorem sliceErrorThreshold (die slice : Nat) : Statement (.sliceErrorThreshold die slice) := nofun
theorem impreciseError (kind : ErrKind) (slot : Nat) (ord : BitVec 8) (pa : Nat) : Statement (.impreciseError kind slot ord pa) := nofun
theorem understudyCompare (u : Nat) : Statement (.understudyCompare u) := nofun
theorem dieFailure (die : Nat) : Statement (.dieFailure die) := nofun
theorem dieLinkFailure (die port : Nat) (full : Bool) : Statement (.dieLinkFailure die port full) := nofun
theorem thermalGate (die : Nat) : Statement (.thermalGate die) := nofun
theorem thermalStop (die : Nat) : Statement (.thermalStop die) := nofun
theorem combineRequestArrival (pkt : Nat) : Statement (.combineRequestArrival pkt) := nofun
theorem combineHoldExpiry (pkt : Nat) : Statement (.combineHoldExpiry pkt) := nofun
theorem replySplit (reply : Nat) : Statement (.replySplit reply) := nofun
theorem recoverReply (reply : Nat) : Statement (.recoverReply reply) := nofun
theorem recordExpiry (record : Nat) : Statement (.recordExpiry record) := nofun
theorem switchReset (die stage switch : Nat) : Statement (.switchReset die stage switch) := nofun
theorem combtestDisarm (die : Nat) (value : Word) : Statement (.combtestDisarm die value) := nofun
theorem combtestCorruptCopy (die : Nat) (value : Word) : Statement (.combtestCorruptCopy die value) := nofun
theorem combtestLoseRecord (die : Nat) (value : Word) : Statement (.combtestLoseRecord die value) := nofun
theorem combtestResetSwitch (die : Nat) (value : Word) : Statement (.combtestResetSwitch die value) := nofun
theorem rdmaWrite (p : NetPacket) : Statement (.rdmaWrite p) := nofun
theorem rdmaRead (p : NetPacket) : Statement (.rdmaRead p) := nofun
theorem atomicFetchAdd (p : NetPacket) : Statement (.atomicFetchAdd p) := nofun
theorem invalidRequest (p : NetPacket) : Statement (.invalidRequest p) := nofun
theorem deviceDma (q : DmaRequest) : Statement (.deviceDma q) := nofun
theorem pldmMonitoring (die : Nat) : Statement (.pldmMonitoring die) := nofun
theorem pldmFirmwareUpdate (f : Flash) : Statement (.pldmFirmwareUpdate f) := nofun
theorem spdmMeasurements : Statement .spdmMeasurements := nofun
theorem powerOnBoot : Statement .powerOnBoot := nofun
theorem thermalUngate (die : Nat) : Statement (.thermalUngate die) := nofun
theorem bisnpResponse (cmd line : Nat) : Statement (.bisnpResponse cmd line) := nofun
theorem homeLogExpiry (entry : Nat) : Statement (.homeLogExpiry entry) := nofun

end Opcode

end Sys2Proof.Laws
end

