-- ==== Sys2Proof/Laws/Regs.lean ====
section
/-! SUPPORT. The register files of a group: what a write of one register leaves in every other place (R23), and what the shared
operations on registers and traps do (R38, R50, R307 to R310). -/

namespace Sys2Proof.Machine

@[simp] theorem Grp.setV_uid (g : Grp) (n : Nat) (r : VReg) : (g.setV n r).uid = g.uid := rfl
@[simp] theorem Grp.setV_gang (g : Grp) (n : Nat) (r : VReg) : (g.setV n r).gang = g.gang := rfl
@[simp] theorem Grp.setV_launch (g : Grp) (n : Nat) (r : VReg) : (g.setV n r).launch = g.launch := rfl
@[simp] theorem Grp.setV_part (g : Grp) (n : Nat) (r : VReg) : (g.setV n r).part = g.part := rfl
@[simp] theorem Grp.setV_system (g : Grp) (n : Nat) (r : VReg) : (g.setV n r).system = g.system := rfl
@[simp] theorem Grp.setV_groupNo (g : Grp) (n : Nat) (r : VReg) : (g.setV n r).groupNo = g.groupNo := rfl
@[simp] theorem Grp.setV_block (g : Grp) (n : Nat) (r : VReg) : (g.setV n r).block = g.block := rfl
@[simp] theorem Grp.setV_gangB (g : Grp) (n : Nat) (r : VReg) : (g.setV n r).gangB = g.gangB := rfl
@[simp] theorem Grp.setV_gangNo (g : Grp) (n : Nat) (r : VReg) : (g.setV n r).gangNo = g.gangNo := rfl
@[simp] theorem Grp.setV_nGroup (g : Grp) (n : Nat) (r : VReg) : (g.setV n r).nGroup = g.nGroup := rfl
@[simp] theorem Grp.setV_core (g : Grp) (n : Nat) (r : VReg) : (g.setV n r).core = g.core := rfl
@[simp] theorem Grp.setV_coreIdx (g : Grp) (n : Nat) (r : VReg) : (g.setV n r).coreIdx = g.coreIdx := rfl
@[simp] theorem Grp.setV_imgSlot (g : Grp) (n : Nat) (r : VReg) : (g.setV n r).imgSlot = g.imgSlot := rfl
@[simp] theorem Grp.setV_place (g : Grp) (n : Nat) (r : VReg) : (g.setV n r).place = g.place := rfl
@[simp] theorem Grp.setV_preempt (g : Grp) (n : Nat) (r : VReg) : (g.setV n r).preempt = g.preempt := rfl
@[simp] theorem Grp.setV_book (g : Grp) (n : Nat) (r : VReg) : (g.setV n r).book = g.book := rfl
@[simp] theorem Grp.setV_started (g : Grp) (n : Nat) (r : VReg) : (g.setV n r).started = g.started := rfl
@[simp] theorem Grp.setV_slot0 (g : Grp) (n : Nat) (r : VReg) : (g.setV n r).slot0 = g.slot0 := rfl
@[simp] theorem Grp.setV_slot1 (g : Grp) (n : Nat) (r : VReg) : (g.setV n r).slot1 = g.slot1 := rfl
@[simp] theorem Grp.setV_stack (g : Grp) (n : Nat) (r : VReg) : (g.setV n r).stack = g.stack := rfl
@[simp] theorem Grp.setV_trapInfo (g : Grp) (n : Nat) (r : VReg) : (g.setV n r).trapInfo = g.trapInfo := rfl
@[simp] theorem Grp.setV_trapPc (g : Grp) (n : Nat) (r : VReg) : (g.setV n r).trapPc = g.trapPc := rfl
@[simp] theorem Grp.setV_trapSlot (g : Grp) (n : Nat) (r : VReg) : (g.setV n r).trapSlot = g.trapSlot := rfl
@[simp] theorem Grp.setV_savedMode (g : Grp) (n : Nat) (r : VReg) : (g.setV n r).savedMode = g.savedMode := rfl
@[simp] theorem Grp.setV_pts (g : Grp) (n : Nat) (r : VReg) : (g.setV n r).pts = g.pts := rfl
@[simp] theorem Grp.setV_ord (g : Grp) (n : Nat) (r : VReg) : (g.setV n r).ord = g.ord := rfl
@[simp] theorem Grp.setV_sig (g : Grp) (n : Nat) (r : VReg) : (g.setV n r).sig = g.sig := rfl
@[simp] theorem Grp.setV_faultVa (g : Grp) (n : Nat) (r : VReg) : (g.setV n r).faultVa = g.faultVa := rfl
@[simp] theorem Grp.setV_faultInfo (g : Grp) (n : Nat) (r : VReg) : (g.setV n r).faultInfo = g.faultInfo := rfl
@[simp] theorem Grp.setV_s (g : Grp) (n : Nat) (r : VReg) : (g.setV n r).s = g.s := rfl
@[simp] theorem Grp.setV_p (g : Grp) (n : Nat) (r : VReg) : (g.setV n r).p = g.p := rfl
@[simp] theorem Grp.setV_w (g : Grp) (n : Nat) (r : VReg) : (g.setV n r).w = g.w := rfl
@[simp] theorem Grp.setV_h (g : Grp) (n : Nat) (r : VReg) : (g.setV n r).h = g.h := rfl
@[simp] theorem Grp.setV_q (g : Grp) (n : Nat) (r : VReg) : (g.setV n r).q = g.q := rfl
@[simp] theorem Grp.setV_arr (g : Grp) (n : Nat) (r : VReg) : (g.setV n r).arr = g.arr := rfl
@[simp] theorem Grp.setV_fence (g : Grp) (n : Nat) (r : VReg) : (g.setV n r).fence = g.fence := rfl
@[simp] theorem Grp.setV_lastSlot1 (g : Grp) (n : Nat) (r : VReg) : (g.setV n r).lastSlot1 = g.lastSlot1 := rfl
@[simp] theorem Grp.setV_ptsSince (g : Grp) (n : Nat) (r : VReg) : (g.setV n r).ptsSince = g.ptsSince := rfl
@[simp] theorem Grp.setV_cpyTime (g : Grp) (n : Nat) (r : VReg) : (g.setV n r).cpyTime = g.cpyTime := rfl
@[simp] theorem Grp.setV_twin (g : Grp) (n : Nat) (r : VReg) : (g.setV n r).twin = g.twin := rfl
@[simp] theorem Grp.setV_under (g : Grp) (n : Nat) (r : VReg) : (g.setV n r).under = g.under := rfl
@[simp] theorem Grp.setV_held (g : Grp) (n : Nat) (r : VReg) : (g.setV n r).held = g.held := rfl
@[simp] theorem Grp.setV_points (g : Grp) (n : Nat) (r : VReg) : (g.setV n r).points = g.points := rfl
@[simp] theorem Grp.setS_uid (g : Grp) (n : Nat) (r : SReg) : (g.setS n r).uid = g.uid := rfl
@[simp] theorem Grp.setS_gang (g : Grp) (n : Nat) (r : SReg) : (g.setS n r).gang = g.gang := rfl
@[simp] theorem Grp.setS_launch (g : Grp) (n : Nat) (r : SReg) : (g.setS n r).launch = g.launch := rfl
@[simp] theorem Grp.setS_part (g : Grp) (n : Nat) (r : SReg) : (g.setS n r).part = g.part := rfl
@[simp] theorem Grp.setS_system (g : Grp) (n : Nat) (r : SReg) : (g.setS n r).system = g.system := rfl
@[simp] theorem Grp.setS_groupNo (g : Grp) (n : Nat) (r : SReg) : (g.setS n r).groupNo = g.groupNo := rfl
@[simp] theorem Grp.setS_block (g : Grp) (n : Nat) (r : SReg) : (g.setS n r).block = g.block := rfl
@[simp] theorem Grp.setS_gangB (g : Grp) (n : Nat) (r : SReg) : (g.setS n r).gangB = g.gangB := rfl
@[simp] theorem Grp.setS_gangNo (g : Grp) (n : Nat) (r : SReg) : (g.setS n r).gangNo = g.gangNo := rfl
@[simp] theorem Grp.setS_nGroup (g : Grp) (n : Nat) (r : SReg) : (g.setS n r).nGroup = g.nGroup := rfl
@[simp] theorem Grp.setS_core (g : Grp) (n : Nat) (r : SReg) : (g.setS n r).core = g.core := rfl
@[simp] theorem Grp.setS_coreIdx (g : Grp) (n : Nat) (r : SReg) : (g.setS n r).coreIdx = g.coreIdx := rfl
@[simp] theorem Grp.setS_imgSlot (g : Grp) (n : Nat) (r : SReg) : (g.setS n r).imgSlot = g.imgSlot := rfl
@[simp] theorem Grp.setS_place (g : Grp) (n : Nat) (r : SReg) : (g.setS n r).place = g.place := rfl
@[simp] theorem Grp.setS_preempt (g : Grp) (n : Nat) (r : SReg) : (g.setS n r).preempt = g.preempt := rfl
@[simp] theorem Grp.setS_book (g : Grp) (n : Nat) (r : SReg) : (g.setS n r).book = g.book := rfl
@[simp] theorem Grp.setS_started (g : Grp) (n : Nat) (r : SReg) : (g.setS n r).started = g.started := rfl
@[simp] theorem Grp.setS_slot0 (g : Grp) (n : Nat) (r : SReg) : (g.setS n r).slot0 = g.slot0 := rfl
@[simp] theorem Grp.setS_slot1 (g : Grp) (n : Nat) (r : SReg) : (g.setS n r).slot1 = g.slot1 := rfl
@[simp] theorem Grp.setS_stack (g : Grp) (n : Nat) (r : SReg) : (g.setS n r).stack = g.stack := rfl
@[simp] theorem Grp.setS_trapInfo (g : Grp) (n : Nat) (r : SReg) : (g.setS n r).trapInfo = g.trapInfo := rfl
@[simp] theorem Grp.setS_trapPc (g : Grp) (n : Nat) (r : SReg) : (g.setS n r).trapPc = g.trapPc := rfl
@[simp] theorem Grp.setS_trapSlot (g : Grp) (n : Nat) (r : SReg) : (g.setS n r).trapSlot = g.trapSlot := rfl
@[simp] theorem Grp.setS_savedMode (g : Grp) (n : Nat) (r : SReg) : (g.setS n r).savedMode = g.savedMode := rfl
@[simp] theorem Grp.setS_pts (g : Grp) (n : Nat) (r : SReg) : (g.setS n r).pts = g.pts := rfl
@[simp] theorem Grp.setS_ord (g : Grp) (n : Nat) (r : SReg) : (g.setS n r).ord = g.ord := rfl
@[simp] theorem Grp.setS_sig (g : Grp) (n : Nat) (r : SReg) : (g.setS n r).sig = g.sig := rfl
@[simp] theorem Grp.setS_faultVa (g : Grp) (n : Nat) (r : SReg) : (g.setS n r).faultVa = g.faultVa := rfl
@[simp] theorem Grp.setS_faultInfo (g : Grp) (n : Nat) (r : SReg) : (g.setS n r).faultInfo = g.faultInfo := rfl
@[simp] theorem Grp.setS_v (g : Grp) (n : Nat) (r : SReg) : (g.setS n r).v = g.v := rfl
@[simp] theorem Grp.setS_p (g : Grp) (n : Nat) (r : SReg) : (g.setS n r).p = g.p := rfl
@[simp] theorem Grp.setS_w (g : Grp) (n : Nat) (r : SReg) : (g.setS n r).w = g.w := rfl
@[simp] theorem Grp.setS_h (g : Grp) (n : Nat) (r : SReg) : (g.setS n r).h = g.h := rfl
@[simp] theorem Grp.setS_q (g : Grp) (n : Nat) (r : SReg) : (g.setS n r).q = g.q := rfl
@[simp] theorem Grp.setS_arr (g : Grp) (n : Nat) (r : SReg) : (g.setS n r).arr = g.arr := rfl
@[simp] theorem Grp.setS_fence (g : Grp) (n : Nat) (r : SReg) : (g.setS n r).fence = g.fence := rfl
@[simp] theorem Grp.setS_lastSlot1 (g : Grp) (n : Nat) (r : SReg) : (g.setS n r).lastSlot1 = g.lastSlot1 := rfl
@[simp] theorem Grp.setS_ptsSince (g : Grp) (n : Nat) (r : SReg) : (g.setS n r).ptsSince = g.ptsSince := rfl
@[simp] theorem Grp.setS_cpyTime (g : Grp) (n : Nat) (r : SReg) : (g.setS n r).cpyTime = g.cpyTime := rfl
@[simp] theorem Grp.setS_twin (g : Grp) (n : Nat) (r : SReg) : (g.setS n r).twin = g.twin := rfl
@[simp] theorem Grp.setS_under (g : Grp) (n : Nat) (r : SReg) : (g.setS n r).under = g.under := rfl
@[simp] theorem Grp.setS_held (g : Grp) (n : Nat) (r : SReg) : (g.setS n r).held = g.held := rfl
@[simp] theorem Grp.setS_points (g : Grp) (n : Nat) (r : SReg) : (g.setS n r).points = g.points := rfl
@[simp] theorem Grp.setW_uid (g : Grp) (n : Nat) (r : BitVec 128) : (g.setW n r).uid = g.uid := rfl
@[simp] theorem Grp.setW_gang (g : Grp) (n : Nat) (r : BitVec 128) : (g.setW n r).gang = g.gang := rfl
@[simp] theorem Grp.setW_launch (g : Grp) (n : Nat) (r : BitVec 128) : (g.setW n r).launch = g.launch := rfl
@[simp] theorem Grp.setW_part (g : Grp) (n : Nat) (r : BitVec 128) : (g.setW n r).part = g.part := rfl
@[simp] theorem Grp.setW_system (g : Grp) (n : Nat) (r : BitVec 128) : (g.setW n r).system = g.system := rfl
@[simp] theorem Grp.setW_groupNo (g : Grp) (n : Nat) (r : BitVec 128) : (g.setW n r).groupNo = g.groupNo := rfl
@[simp] theorem Grp.setW_block (g : Grp) (n : Nat) (r : BitVec 128) : (g.setW n r).block = g.block := rfl
@[simp] theorem Grp.setW_gangB (g : Grp) (n : Nat) (r : BitVec 128) : (g.setW n r).gangB = g.gangB := rfl
@[simp] theorem Grp.setW_gangNo (g : Grp) (n : Nat) (r : BitVec 128) : (g.setW n r).gangNo = g.gangNo := rfl
@[simp] theorem Grp.setW_nGroup (g : Grp) (n : Nat) (r : BitVec 128) : (g.setW n r).nGroup = g.nGroup := rfl
@[simp] theorem Grp.setW_core (g : Grp) (n : Nat) (r : BitVec 128) : (g.setW n r).core = g.core := rfl
@[simp] theorem Grp.setW_coreIdx (g : Grp) (n : Nat) (r : BitVec 128) : (g.setW n r).coreIdx = g.coreIdx := rfl
@[simp] theorem Grp.setW_imgSlot (g : Grp) (n : Nat) (r : BitVec 128) : (g.setW n r).imgSlot = g.imgSlot := rfl
@[simp] theorem Grp.setW_place (g : Grp) (n : Nat) (r : BitVec 128) : (g.setW n r).place = g.place := rfl
@[simp] theorem Grp.setW_preempt (g : Grp) (n : Nat) (r : BitVec 128) : (g.setW n r).preempt = g.preempt := rfl
@[simp] theorem Grp.setW_book (g : Grp) (n : Nat) (r : BitVec 128) : (g.setW n r).book = g.book := rfl
@[simp] theorem Grp.setW_started (g : Grp) (n : Nat) (r : BitVec 128) : (g.setW n r).started = g.started := rfl
@[simp] theorem Grp.setW_slot0 (g : Grp) (n : Nat) (r : BitVec 128) : (g.setW n r).slot0 = g.slot0 := rfl
@[simp] theorem Grp.setW_slot1 (g : Grp) (n : Nat) (r : BitVec 128) : (g.setW n r).slot1 = g.slot1 := rfl
@[simp] theorem Grp.setW_stack (g : Grp) (n : Nat) (r : BitVec 128) : (g.setW n r).stack = g.stack := rfl
@[simp] theorem Grp.setW_trapInfo (g : Grp) (n : Nat) (r : BitVec 128) : (g.setW n r).trapInfo = g.trapInfo := rfl
@[simp] theorem Grp.setW_trapPc (g : Grp) (n : Nat) (r : BitVec 128) : (g.setW n r).trapPc = g.trapPc := rfl
@[simp] theorem Grp.setW_trapSlot (g : Grp) (n : Nat) (r : BitVec 128) : (g.setW n r).trapSlot = g.trapSlot := rfl
@[simp] theorem Grp.setW_savedMode (g : Grp) (n : Nat) (r : BitVec 128) : (g.setW n r).savedMode = g.savedMode := rfl
@[simp] theorem Grp.setW_pts (g : Grp) (n : Nat) (r : BitVec 128) : (g.setW n r).pts = g.pts := rfl
@[simp] theorem Grp.setW_ord (g : Grp) (n : Nat) (r : BitVec 128) : (g.setW n r).ord = g.ord := rfl
@[simp] theorem Grp.setW_sig (g : Grp) (n : Nat) (r : BitVec 128) : (g.setW n r).sig = g.sig := rfl
@[simp] theorem Grp.setW_faultVa (g : Grp) (n : Nat) (r : BitVec 128) : (g.setW n r).faultVa = g.faultVa := rfl
@[simp] theorem Grp.setW_faultInfo (g : Grp) (n : Nat) (r : BitVec 128) : (g.setW n r).faultInfo = g.faultInfo := rfl
@[simp] theorem Grp.setW_v (g : Grp) (n : Nat) (r : BitVec 128) : (g.setW n r).v = g.v := rfl
@[simp] theorem Grp.setW_s (g : Grp) (n : Nat) (r : BitVec 128) : (g.setW n r).s = g.s := rfl
@[simp] theorem Grp.setW_p (g : Grp) (n : Nat) (r : BitVec 128) : (g.setW n r).p = g.p := rfl
@[simp] theorem Grp.setW_h (g : Grp) (n : Nat) (r : BitVec 128) : (g.setW n r).h = g.h := rfl
@[simp] theorem Grp.setW_q (g : Grp) (n : Nat) (r : BitVec 128) : (g.setW n r).q = g.q := rfl
@[simp] theorem Grp.setW_arr (g : Grp) (n : Nat) (r : BitVec 128) : (g.setW n r).arr = g.arr := rfl
@[simp] theorem Grp.setW_fence (g : Grp) (n : Nat) (r : BitVec 128) : (g.setW n r).fence = g.fence := rfl
@[simp] theorem Grp.setW_lastSlot1 (g : Grp) (n : Nat) (r : BitVec 128) : (g.setW n r).lastSlot1 = g.lastSlot1 := rfl
@[simp] theorem Grp.setW_ptsSince (g : Grp) (n : Nat) (r : BitVec 128) : (g.setW n r).ptsSince = g.ptsSince := rfl
@[simp] theorem Grp.setW_cpyTime (g : Grp) (n : Nat) (r : BitVec 128) : (g.setW n r).cpyTime = g.cpyTime := rfl
@[simp] theorem Grp.setW_twin (g : Grp) (n : Nat) (r : BitVec 128) : (g.setW n r).twin = g.twin := rfl
@[simp] theorem Grp.setW_under (g : Grp) (n : Nat) (r : BitVec 128) : (g.setW n r).under = g.under := rfl
@[simp] theorem Grp.setW_held (g : Grp) (n : Nat) (r : BitVec 128) : (g.setW n r).held = g.held := rfl
@[simp] theorem Grp.setW_points (g : Grp) (n : Nat) (r : BitVec 128) : (g.setW n r).points = g.points := rfl
@[simp] theorem Grp.setH_uid (g : Grp) (n : Nat) (r : BitVec 4) : (g.setH n r).uid = g.uid := rfl
@[simp] theorem Grp.setH_gang (g : Grp) (n : Nat) (r : BitVec 4) : (g.setH n r).gang = g.gang := rfl
@[simp] theorem Grp.setH_launch (g : Grp) (n : Nat) (r : BitVec 4) : (g.setH n r).launch = g.launch := rfl
@[simp] theorem Grp.setH_part (g : Grp) (n : Nat) (r : BitVec 4) : (g.setH n r).part = g.part := rfl
@[simp] theorem Grp.setH_system (g : Grp) (n : Nat) (r : BitVec 4) : (g.setH n r).system = g.system := rfl
@[simp] theorem Grp.setH_groupNo (g : Grp) (n : Nat) (r : BitVec 4) : (g.setH n r).groupNo = g.groupNo := rfl
@[simp] theorem Grp.setH_block (g : Grp) (n : Nat) (r : BitVec 4) : (g.setH n r).block = g.block := rfl
@[simp] theorem Grp.setH_gangB (g : Grp) (n : Nat) (r : BitVec 4) : (g.setH n r).gangB = g.gangB := rfl
@[simp] theorem Grp.setH_gangNo (g : Grp) (n : Nat) (r : BitVec 4) : (g.setH n r).gangNo = g.gangNo := rfl
@[simp] theorem Grp.setH_nGroup (g : Grp) (n : Nat) (r : BitVec 4) : (g.setH n r).nGroup = g.nGroup := rfl
@[simp] theorem Grp.setH_core (g : Grp) (n : Nat) (r : BitVec 4) : (g.setH n r).core = g.core := rfl
@[simp] theorem Grp.setH_coreIdx (g : Grp) (n : Nat) (r : BitVec 4) : (g.setH n r).coreIdx = g.coreIdx := rfl
@[simp] theorem Grp.setH_imgSlot (g : Grp) (n : Nat) (r : BitVec 4) : (g.setH n r).imgSlot = g.imgSlot := rfl
@[simp] theorem Grp.setH_place (g : Grp) (n : Nat) (r : BitVec 4) : (g.setH n r).place = g.place := rfl
@[simp] theorem Grp.setH_preempt (g : Grp) (n : Nat) (r : BitVec 4) : (g.setH n r).preempt = g.preempt := rfl
@[simp] theorem Grp.setH_book (g : Grp) (n : Nat) (r : BitVec 4) : (g.setH n r).book = g.book := rfl
@[simp] theorem Grp.setH_started (g : Grp) (n : Nat) (r : BitVec 4) : (g.setH n r).started = g.started := rfl
@[simp] theorem Grp.setH_slot0 (g : Grp) (n : Nat) (r : BitVec 4) : (g.setH n r).slot0 = g.slot0 := rfl
@[simp] theorem Grp.setH_slot1 (g : Grp) (n : Nat) (r : BitVec 4) : (g.setH n r).slot1 = g.slot1 := rfl
@[simp] theorem Grp.setH_stack (g : Grp) (n : Nat) (r : BitVec 4) : (g.setH n r).stack = g.stack := rfl
@[simp] theorem Grp.setH_trapInfo (g : Grp) (n : Nat) (r : BitVec 4) : (g.setH n r).trapInfo = g.trapInfo := rfl
@[simp] theorem Grp.setH_trapPc (g : Grp) (n : Nat) (r : BitVec 4) : (g.setH n r).trapPc = g.trapPc := rfl
@[simp] theorem Grp.setH_trapSlot (g : Grp) (n : Nat) (r : BitVec 4) : (g.setH n r).trapSlot = g.trapSlot := rfl
@[simp] theorem Grp.setH_savedMode (g : Grp) (n : Nat) (r : BitVec 4) : (g.setH n r).savedMode = g.savedMode := rfl
@[simp] theorem Grp.setH_pts (g : Grp) (n : Nat) (r : BitVec 4) : (g.setH n r).pts = g.pts := rfl
@[simp] theorem Grp.setH_ord (g : Grp) (n : Nat) (r : BitVec 4) : (g.setH n r).ord = g.ord := rfl
@[simp] theorem Grp.setH_sig (g : Grp) (n : Nat) (r : BitVec 4) : (g.setH n r).sig = g.sig := rfl
@[simp] theorem Grp.setH_faultVa (g : Grp) (n : Nat) (r : BitVec 4) : (g.setH n r).faultVa = g.faultVa := rfl
@[simp] theorem Grp.setH_faultInfo (g : Grp) (n : Nat) (r : BitVec 4) : (g.setH n r).faultInfo = g.faultInfo := rfl
@[simp] theorem Grp.setH_v (g : Grp) (n : Nat) (r : BitVec 4) : (g.setH n r).v = g.v := rfl
@[simp] theorem Grp.setH_s (g : Grp) (n : Nat) (r : BitVec 4) : (g.setH n r).s = g.s := rfl
@[simp] theorem Grp.setH_p (g : Grp) (n : Nat) (r : BitVec 4) : (g.setH n r).p = g.p := rfl
@[simp] theorem Grp.setH_w (g : Grp) (n : Nat) (r : BitVec 4) : (g.setH n r).w = g.w := rfl
@[simp] theorem Grp.setH_q (g : Grp) (n : Nat) (r : BitVec 4) : (g.setH n r).q = g.q := rfl
@[simp] theorem Grp.setH_arr (g : Grp) (n : Nat) (r : BitVec 4) : (g.setH n r).arr = g.arr := rfl
@[simp] theorem Grp.setH_fence (g : Grp) (n : Nat) (r : BitVec 4) : (g.setH n r).fence = g.fence := rfl
@[simp] theorem Grp.setH_lastSlot1 (g : Grp) (n : Nat) (r : BitVec 4) : (g.setH n r).lastSlot1 = g.lastSlot1 := rfl
@[simp] theorem Grp.setH_ptsSince (g : Grp) (n : Nat) (r : BitVec 4) : (g.setH n r).ptsSince = g.ptsSince := rfl
@[simp] theorem Grp.setH_cpyTime (g : Grp) (n : Nat) (r : BitVec 4) : (g.setH n r).cpyTime = g.cpyTime := rfl
@[simp] theorem Grp.setH_twin (g : Grp) (n : Nat) (r : BitVec 4) : (g.setH n r).twin = g.twin := rfl
@[simp] theorem Grp.setH_under (g : Grp) (n : Nat) (r : BitVec 4) : (g.setH n r).under = g.under := rfl
@[simp] theorem Grp.setH_held (g : Grp) (n : Nat) (r : BitVec 4) : (g.setH n r).held = g.held := rfl
@[simp] theorem Grp.setH_points (g : Grp) (n : Nat) (r : BitVec 4) : (g.setH n r).points = g.points := rfl
@[simp] theorem Grp.setQ_uid (g : Grp) (n : Nat) (r : QBind) : (g.setQ n r).uid = g.uid := rfl
@[simp] theorem Grp.setQ_gang (g : Grp) (n : Nat) (r : QBind) : (g.setQ n r).gang = g.gang := rfl
@[simp] theorem Grp.setQ_launch (g : Grp) (n : Nat) (r : QBind) : (g.setQ n r).launch = g.launch := rfl
@[simp] theorem Grp.setQ_part (g : Grp) (n : Nat) (r : QBind) : (g.setQ n r).part = g.part := rfl
@[simp] theorem Grp.setQ_system (g : Grp) (n : Nat) (r : QBind) : (g.setQ n r).system = g.system := rfl
@[simp] theorem Grp.setQ_groupNo (g : Grp) (n : Nat) (r : QBind) : (g.setQ n r).groupNo = g.groupNo := rfl
@[simp] theorem Grp.setQ_block (g : Grp) (n : Nat) (r : QBind) : (g.setQ n r).block = g.block := rfl
@[simp] theorem Grp.setQ_gangB (g : Grp) (n : Nat) (r : QBind) : (g.setQ n r).gangB = g.gangB := rfl
@[simp] theorem Grp.setQ_gangNo (g : Grp) (n : Nat) (r : QBind) : (g.setQ n r).gangNo = g.gangNo := rfl
@[simp] theorem Grp.setQ_nGroup (g : Grp) (n : Nat) (r : QBind) : (g.setQ n r).nGroup = g.nGroup := rfl
@[simp] theorem Grp.setQ_core (g : Grp) (n : Nat) (r : QBind) : (g.setQ n r).core = g.core := rfl
@[simp] theorem Grp.setQ_coreIdx (g : Grp) (n : Nat) (r : QBind) : (g.setQ n r).coreIdx = g.coreIdx := rfl
@[simp] theorem Grp.setQ_imgSlot (g : Grp) (n : Nat) (r : QBind) : (g.setQ n r).imgSlot = g.imgSlot := rfl
@[simp] theorem Grp.setQ_place (g : Grp) (n : Nat) (r : QBind) : (g.setQ n r).place = g.place := rfl
@[simp] theorem Grp.setQ_preempt (g : Grp) (n : Nat) (r : QBind) : (g.setQ n r).preempt = g.preempt := rfl
@[simp] theorem Grp.setQ_book (g : Grp) (n : Nat) (r : QBind) : (g.setQ n r).book = g.book := rfl
@[simp] theorem Grp.setQ_started (g : Grp) (n : Nat) (r : QBind) : (g.setQ n r).started = g.started := rfl
@[simp] theorem Grp.setQ_slot0 (g : Grp) (n : Nat) (r : QBind) : (g.setQ n r).slot0 = g.slot0 := rfl
@[simp] theorem Grp.setQ_slot1 (g : Grp) (n : Nat) (r : QBind) : (g.setQ n r).slot1 = g.slot1 := rfl
@[simp] theorem Grp.setQ_stack (g : Grp) (n : Nat) (r : QBind) : (g.setQ n r).stack = g.stack := rfl
@[simp] theorem Grp.setQ_trapInfo (g : Grp) (n : Nat) (r : QBind) : (g.setQ n r).trapInfo = g.trapInfo := rfl
@[simp] theorem Grp.setQ_trapPc (g : Grp) (n : Nat) (r : QBind) : (g.setQ n r).trapPc = g.trapPc := rfl
@[simp] theorem Grp.setQ_trapSlot (g : Grp) (n : Nat) (r : QBind) : (g.setQ n r).trapSlot = g.trapSlot := rfl
@[simp] theorem Grp.setQ_savedMode (g : Grp) (n : Nat) (r : QBind) : (g.setQ n r).savedMode = g.savedMode := rfl
@[simp] theorem Grp.setQ_pts (g : Grp) (n : Nat) (r : QBind) : (g.setQ n r).pts = g.pts := rfl
@[simp] theorem Grp.setQ_ord (g : Grp) (n : Nat) (r : QBind) : (g.setQ n r).ord = g.ord := rfl
@[simp] theorem Grp.setQ_sig (g : Grp) (n : Nat) (r : QBind) : (g.setQ n r).sig = g.sig := rfl
@[simp] theorem Grp.setQ_faultVa (g : Grp) (n : Nat) (r : QBind) : (g.setQ n r).faultVa = g.faultVa := rfl
@[simp] theorem Grp.setQ_faultInfo (g : Grp) (n : Nat) (r : QBind) : (g.setQ n r).faultInfo = g.faultInfo := rfl
@[simp] theorem Grp.setQ_v (g : Grp) (n : Nat) (r : QBind) : (g.setQ n r).v = g.v := rfl
@[simp] theorem Grp.setQ_s (g : Grp) (n : Nat) (r : QBind) : (g.setQ n r).s = g.s := rfl
@[simp] theorem Grp.setQ_p (g : Grp) (n : Nat) (r : QBind) : (g.setQ n r).p = g.p := rfl
@[simp] theorem Grp.setQ_w (g : Grp) (n : Nat) (r : QBind) : (g.setQ n r).w = g.w := rfl
@[simp] theorem Grp.setQ_h (g : Grp) (n : Nat) (r : QBind) : (g.setQ n r).h = g.h := rfl
@[simp] theorem Grp.setQ_arr (g : Grp) (n : Nat) (r : QBind) : (g.setQ n r).arr = g.arr := rfl
@[simp] theorem Grp.setQ_fence (g : Grp) (n : Nat) (r : QBind) : (g.setQ n r).fence = g.fence := rfl
@[simp] theorem Grp.setQ_lastSlot1 (g : Grp) (n : Nat) (r : QBind) : (g.setQ n r).lastSlot1 = g.lastSlot1 := rfl
@[simp] theorem Grp.setQ_ptsSince (g : Grp) (n : Nat) (r : QBind) : (g.setQ n r).ptsSince = g.ptsSince := rfl
@[simp] theorem Grp.setQ_cpyTime (g : Grp) (n : Nat) (r : QBind) : (g.setQ n r).cpyTime = g.cpyTime := rfl
@[simp] theorem Grp.setQ_twin (g : Grp) (n : Nat) (r : QBind) : (g.setQ n r).twin = g.twin := rfl
@[simp] theorem Grp.setQ_under (g : Grp) (n : Nat) (r : QBind) : (g.setQ n r).under = g.under := rfl
@[simp] theorem Grp.setQ_held (g : Grp) (n : Nat) (r : QBind) : (g.setQ n r).held = g.held := rfl
@[simp] theorem Grp.setQ_points (g : Grp) (n : Nat) (r : QBind) : (g.setQ n r).points = g.points := rfl
@[simp] theorem Grp.setP_uid (g : Grp) (n : Nat) (r : PReg) : (g.setP n r).uid = g.uid := by
  simp only [Grp.setP]; split <;> rfl
@[simp] theorem Grp.setP_gang (g : Grp) (n : Nat) (r : PReg) : (g.setP n r).gang = g.gang := by
  simp only [Grp.setP]; split <;> rfl
@[simp] theorem Grp.setP_launch (g : Grp) (n : Nat) (r : PReg) : (g.setP n r).launch = g.launch := by
  simp only [Grp.setP]; split <;> rfl
@[simp] theorem Grp.setP_part (g : Grp) (n : Nat) (r : PReg) : (g.setP n r).part = g.part := by
  simp only [Grp.setP]; split <;> rfl
@[simp] theorem Grp.setP_system (g : Grp) (n : Nat) (r : PReg) : (g.setP n r).system = g.system := by
  simp only [Grp.setP]; split <;> rfl
@[simp] theorem Grp.setP_groupNo (g : Grp) (n : Nat) (r : PReg) : (g.setP n r).groupNo = g.groupNo := by
  simp only [Grp.setP]; split <;> rfl
@[simp] theorem Grp.setP_block (g : Grp) (n : Nat) (r : PReg) : (g.setP n r).block = g.block := by
  simp only [Grp.setP]; split <;> rfl
@[simp] theorem Grp.setP_gangB (g : Grp) (n : Nat) (r : PReg) : (g.setP n r).gangB = g.gangB := by
  simp only [Grp.setP]; split <;> rfl
@[simp] theorem Grp.setP_gangNo (g : Grp) (n : Nat) (r : PReg) : (g.setP n r).gangNo = g.gangNo := by
  simp only [Grp.setP]; split <;> rfl
@[simp] theorem Grp.setP_nGroup (g : Grp) (n : Nat) (r : PReg) : (g.setP n r).nGroup = g.nGroup := by
  simp only [Grp.setP]; split <;> rfl
@[simp] theorem Grp.setP_core (g : Grp) (n : Nat) (r : PReg) : (g.setP n r).core = g.core := by
  simp only [Grp.setP]; split <;> rfl
@[simp] theorem Grp.setP_coreIdx (g : Grp) (n : Nat) (r : PReg) : (g.setP n r).coreIdx = g.coreIdx := by
  simp only [Grp.setP]; split <;> rfl
@[simp] theorem Grp.setP_imgSlot (g : Grp) (n : Nat) (r : PReg) : (g.setP n r).imgSlot = g.imgSlot := by
  simp only [Grp.setP]; split <;> rfl
@[simp] theorem Grp.setP_place (g : Grp) (n : Nat) (r : PReg) : (g.setP n r).place = g.place := by
  simp only [Grp.setP]; split <;> rfl
@[simp] theorem Grp.setP_preempt (g : Grp) (n : Nat) (r : PReg) : (g.setP n r).preempt = g.preempt := by
  simp only [Grp.setP]; split <;> rfl
@[simp] theorem Grp.setP_book (g : Grp) (n : Nat) (r : PReg) : (g.setP n r).book = g.book := by
  simp only [Grp.setP]; split <;> rfl
@[simp] theorem Grp.setP_started (g : Grp) (n : Nat) (r : PReg) : (g.setP n r).started = g.started := by
  simp only [Grp.setP]; split <;> rfl
@[simp] theorem Grp.setP_slot0 (g : Grp) (n : Nat) (r : PReg) : (g.setP n r).slot0 = g.slot0 := by
  simp only [Grp.setP]; split <;> rfl
@[simp] theorem Grp.setP_slot1 (g : Grp) (n : Nat) (r : PReg) : (g.setP n r).slot1 = g.slot1 := by
  simp only [Grp.setP]; split <;> rfl
@[simp] theorem Grp.setP_stack (g : Grp) (n : Nat) (r : PReg) : (g.setP n r).stack = g.stack := by
  simp only [Grp.setP]; split <;> rfl
@[simp] theorem Grp.setP_trapInfo (g : Grp) (n : Nat) (r : PReg) : (g.setP n r).trapInfo = g.trapInfo := by
  simp only [Grp.setP]; split <;> rfl
@[simp] theorem Grp.setP_trapPc (g : Grp) (n : Nat) (r : PReg) : (g.setP n r).trapPc = g.trapPc := by
  simp only [Grp.setP]; split <;> rfl
@[simp] theorem Grp.setP_trapSlot (g : Grp) (n : Nat) (r : PReg) : (g.setP n r).trapSlot = g.trapSlot := by
  simp only [Grp.setP]; split <;> rfl
@[simp] theorem Grp.setP_savedMode (g : Grp) (n : Nat) (r : PReg) : (g.setP n r).savedMode = g.savedMode := by
  simp only [Grp.setP]; split <;> rfl
@[simp] theorem Grp.setP_pts (g : Grp) (n : Nat) (r : PReg) : (g.setP n r).pts = g.pts := by
  simp only [Grp.setP]; split <;> rfl
@[simp] theorem Grp.setP_ord (g : Grp) (n : Nat) (r : PReg) : (g.setP n r).ord = g.ord := by
  simp only [Grp.setP]; split <;> rfl
@[simp] theorem Grp.setP_sig (g : Grp) (n : Nat) (r : PReg) : (g.setP n r).sig = g.sig := by
  simp only [Grp.setP]; split <;> rfl
@[simp] theorem Grp.setP_faultVa (g : Grp) (n : Nat) (r : PReg) : (g.setP n r).faultVa = g.faultVa := by
  simp only [Grp.setP]; split <;> rfl
@[simp] theorem Grp.setP_faultInfo (g : Grp) (n : Nat) (r : PReg) : (g.setP n r).faultInfo = g.faultInfo := by
  simp only [Grp.setP]; split <;> rfl
@[simp] theorem Grp.setP_v (g : Grp) (n : Nat) (r : PReg) : (g.setP n r).v = g.v := by
  simp only [Grp.setP]; split <;> rfl
@[simp] theorem Grp.setP_s (g : Grp) (n : Nat) (r : PReg) : (g.setP n r).s = g.s := by
  simp only [Grp.setP]; split <;> rfl
@[simp] theorem Grp.setP_w (g : Grp) (n : Nat) (r : PReg) : (g.setP n r).w = g.w := by
  simp only [Grp.setP]; split <;> rfl
@[simp] theorem Grp.setP_h (g : Grp) (n : Nat) (r : PReg) : (g.setP n r).h = g.h := by
  simp only [Grp.setP]; split <;> rfl
@[simp] theorem Grp.setP_q (g : Grp) (n : Nat) (r : PReg) : (g.setP n r).q = g.q := by
  simp only [Grp.setP]; split <;> rfl
@[simp] theorem Grp.setP_arr (g : Grp) (n : Nat) (r : PReg) : (g.setP n r).arr = g.arr := by
  simp only [Grp.setP]; split <;> rfl
@[simp] theorem Grp.setP_fence (g : Grp) (n : Nat) (r : PReg) : (g.setP n r).fence = g.fence := by
  simp only [Grp.setP]; split <;> rfl
@[simp] theorem Grp.setP_lastSlot1 (g : Grp) (n : Nat) (r : PReg) : (g.setP n r).lastSlot1 = g.lastSlot1 := by
  simp only [Grp.setP]; split <;> rfl
@[simp] theorem Grp.setP_ptsSince (g : Grp) (n : Nat) (r : PReg) : (g.setP n r).ptsSince = g.ptsSince := by
  simp only [Grp.setP]; split <;> rfl
@[simp] theorem Grp.setP_cpyTime (g : Grp) (n : Nat) (r : PReg) : (g.setP n r).cpyTime = g.cpyTime := by
  simp only [Grp.setP]; split <;> rfl
@[simp] theorem Grp.setP_twin (g : Grp) (n : Nat) (r : PReg) : (g.setP n r).twin = g.twin := by
  simp only [Grp.setP]; split <;> rfl
@[simp] theorem Grp.setP_under (g : Grp) (n : Nat) (r : PReg) : (g.setP n r).under = g.under := by
  simp only [Grp.setP]; split <;> rfl
@[simp] theorem Grp.setP_held (g : Grp) (n : Nat) (r : PReg) : (g.setP n r).held = g.held := by
  simp only [Grp.setP]; split <;> rfl
@[simp] theorem Grp.setP_points (g : Grp) (n : Nat) (r : PReg) : (g.setP n r).points = g.points := by
  simp only [Grp.setP]; split <;> rfl

/-! A register read after a write. -/

theorem Grp.vreg_setV (g : Grp) (n : Nat) (r : VReg) (h : n < 128) : (g.setV n r).vreg n = r := by
  simp [Grp.vreg, Grp.setV, h]
theorem Grp.vreg_setV_other (g : Grp) (n k : Nat) (r : VReg) (h : k ≠ n) : (g.setV n r).vreg k = g.vreg k := by
  simp [Grp.vreg, Grp.setV, Vector.getElem?_setIfInBounds, h.symm]
theorem Grp.sreg_setS (g : Grp) (n : Nat) (r : SReg) (h : n < 32) : (g.setS n r).sreg n = r := by
  simp [Grp.sreg, Grp.setS, h]
theorem Grp.sreg_setS_other (g : Grp) (n k : Nat) (r : SReg) (h : k ≠ n) : (g.setS n r).sreg k = g.sreg k := by
  simp [Grp.sreg, Grp.setS, Vector.getElem?_setIfInBounds, h.symm]
theorem Grp.preg_setP (g : Grp) (n : Nat) (r : PReg) (h : n < 8) (h0 : n ≠ 0) : (g.setP n r).preg n = r := by
  simp [Grp.preg, Grp.setP, h, h0]
theorem Grp.preg_setP_other (g : Grp) (n k : Nat) (r : PReg) (h : k ≠ n) : (g.setP n r).preg k = g.preg k := by
  by_cases hn : n = 0
  · simp [Grp.setP, hn]
  · simp [Grp.preg, Grp.setP, hn, Vector.getElem?_setIfInBounds, h.symm]
/-- Predicate 0 reads all ones with no poison, whatever is written to it. -/
@[simp] theorem Grp.preg_zero (g : Grp) : g.preg 0 = { val := BitVec.allOnes 32, pois := 0#32 } := rfl
@[simp] theorem Grp.setP_zero (g : Grp) (r : PReg) : g.setP 0 r = g := rfl
theorem Grp.window_setW (g : Grp) (n : Nat) (d : BitVec 128) (h : n < 8) : (g.setW n d).window n = d := by
  simp [Grp.window, Grp.setW, h]
theorem Grp.window_setW_other (g : Grp) (n k : Nat) (d : BitVec 128) (h : k ≠ n) : (g.setW n d).window k = g.window k := by
  simp [Grp.window, Grp.setW, Vector.getElem?_setIfInBounds, h.symm]

@[simp] theorem Grp.preg_setV (g : Grp) (n k : Nat) (r : VReg) : (g.setV n r).preg k = g.preg k := rfl
@[simp] theorem Grp.sreg_setV (g : Grp) (n k : Nat) (r : VReg) : (g.setV n r).sreg k = g.sreg k := rfl
@[simp] theorem Grp.vreg_setS (g : Grp) (n k : Nat) (r : SReg) : (g.setS n r).vreg k = g.vreg k := rfl
@[simp] theorem Grp.preg_setS (g : Grp) (n k : Nat) (r : SReg) : (g.setS n r).preg k = g.preg k := rfl
@[simp] theorem Grp.vreg_setP (g : Grp) (n k : Nat) (r : PReg) : (g.setP n r).vreg k = g.vreg k := by simp [Grp.vreg]
@[simp] theorem Grp.sreg_setP (g : Grp) (n k : Nat) (r : PReg) : (g.setP n r).sreg k = g.sreg k := by simp [Grp.sreg]

/-! Slots. -/

@[simp] theorem Grp.slot_setSlot (g : Grp) (i : Bool) (x : Slot) : (g.setSlot i x).slot i = x := by cases i <;> rfl
@[simp] theorem Grp.slot_setSlot_other (g : Grp) (i : Bool) (x : Slot) : (g.setSlot i x).slot (!i) = g.slot (!i) := by
  cases i <;> rfl
@[simp] theorem Grp.slot_updSlot (g : Grp) (i : Bool) (f : Slot → Slot) : (g.updSlot i f).slot i = f (g.slot i) := by
  cases i <;> rfl
@[simp] theorem Grp.slot_updSlot_other (g : Grp) (i : Bool) (f : Slot → Slot) : (g.updSlot i f).slot (!i) = g.slot (!i) := by
  cases i <;> rfl

@[simp] theorem Grp.updSlot_uid (g : Grp) (i : Bool) (f : Slot → Slot) : (g.updSlot i f).uid = g.uid := by
  cases i <;> rfl
@[simp] theorem Grp.updSlot_gang (g : Grp) (i : Bool) (f : Slot → Slot) : (g.updSlot i f).gang = g.gang := by
  cases i <;> rfl
@[simp] theorem Grp.updSlot_launch (g : Grp) (i : Bool) (f : Slot → Slot) : (g.updSlot i f).launch = g.launch := by
  cases i <;> rfl
@[simp] theorem Grp.updSlot_part (g : Grp) (i : Bool) (f : Slot → Slot) : (g.updSlot i f).part = g.part := by
  cases i <;> rfl
@[simp] theorem Grp.updSlot_system (g : Grp) (i : Bool) (f : Slot → Slot) : (g.updSlot i f).system = g.system := by
  cases i <;> rfl
@[simp] theorem Grp.updSlot_groupNo (g : Grp) (i : Bool) (f : Slot → Slot) : (g.updSlot i f).groupNo = g.groupNo := by
  cases i <;> rfl
@[simp] theorem Grp.updSlot_block (g : Grp) (i : Bool) (f : Slot → Slot) : (g.updSlot i f).block = g.block := by
  cases i <;> rfl
@[simp] theorem Grp.updSlot_gangB (g : Grp) (i : Bool) (f : Slot → Slot) : (g.updSlot i f).gangB = g.gangB := by
  cases i <;> rfl
@[simp] theorem Grp.updSlot_gangNo (g : Grp) (i : Bool) (f : Slot → Slot) : (g.updSlot i f).gangNo = g.gangNo := by
  cases i <;> rfl
@[simp] theorem Grp.updSlot_nGroup (g : Grp) (i : Bool) (f : Slot → Slot) : (g.updSlot i f).nGroup = g.nGroup := by
  cases i <;> rfl
@[simp] theorem Grp.updSlot_core (g : Grp) (i : Bool) (f : Slot → Slot) : (g.updSlot i f).core = g.core := by
  cases i <;> rfl
@[simp] theorem Grp.updSlot_coreIdx (g : Grp) (i : Bool) (f : Slot → Slot) : (g.updSlot i f).coreIdx = g.coreIdx := by
  cases i <;> rfl
@[simp] theorem Grp.updSlot_imgSlot (g : Grp) (i : Bool) (f : Slot → Slot) : (g.updSlot i f).imgSlot = g.imgSlot := by
  cases i <;> rfl
@[simp] theorem Grp.updSlot_place (g : Grp) (i : Bool) (f : Slot → Slot) : (g.updSlot i f).place = g.place := by
  cases i <;> rfl
@[simp] theorem Grp.updSlot_preempt (g : Grp) (i : Bool) (f : Slot → Slot) : (g.updSlot i f).preempt = g.preempt := by
  cases i <;> rfl
@[simp] theorem Grp.updSlot_book (g : Grp) (i : Bool) (f : Slot → Slot) : (g.updSlot i f).book = g.book := by
  cases i <;> rfl
@[simp] theorem Grp.updSlot_started (g : Grp) (i : Bool) (f : Slot → Slot) : (g.updSlot i f).started = g.started := by
  cases i <;> rfl
@[simp] theorem Grp.updSlot_stack (g : Grp) (i : Bool) (f : Slot → Slot) : (g.updSlot i f).stack = g.stack := by
  cases i <;> rfl
@[simp] theorem Grp.updSlot_trapInfo (g : Grp) (i : Bool) (f : Slot → Slot) : (g.updSlot i f).trapInfo = g.trapInfo := by
  cases i <;> rfl
@[simp] theorem Grp.updSlot_trapPc (g : Grp) (i : Bool) (f : Slot → Slot) : (g.updSlot i f).trapPc = g.trapPc := by
  cases i <;> rfl
@[simp] theorem Grp.updSlot_trapSlot (g : Grp) (i : Bool) (f : Slot → Slot) : (g.updSlot i f).trapSlot = g.trapSlot := by
  cases i <;> rfl
@[simp] theorem Grp.updSlot_savedMode (g : Grp) (i : Bool) (f : Slot → Slot) : (g.updSlot i f).savedMode = g.savedMode := by
  cases i <;> rfl
@[simp] theorem Grp.updSlot_pts (g : Grp) (i : Bool) (f : Slot → Slot) : (g.updSlot i f).pts = g.pts := by
  cases i <;> rfl
@[simp] theorem Grp.updSlot_ord (g : Grp) (i : Bool) (f : Slot → Slot) : (g.updSlot i f).ord = g.ord := by
  cases i <;> rfl
@[simp] theorem Grp.updSlot_sig (g : Grp) (i : Bool) (f : Slot → Slot) : (g.updSlot i f).sig = g.sig := by
  cases i <;> rfl
@[simp] theorem Grp.updSlot_faultVa (g : Grp) (i : Bool) (f : Slot → Slot) : (g.updSlot i f).faultVa = g.faultVa := by
  cases i <;> rfl
@[simp] theorem Grp.updSlot_faultInfo (g : Grp) (i : Bool) (f : Slot → Slot) : (g.updSlot i f).faultInfo = g.faultInfo := by
  cases i <;> rfl
@[simp] theorem Grp.updSlot_v (g : Grp) (i : Bool) (f : Slot → Slot) : (g.updSlot i f).v = g.v := by
  cases i <;> rfl
@[simp] theorem Grp.updSlot_s (g : Grp) (i : Bool) (f : Slot → Slot) : (g.updSlot i f).s = g.s := by
  cases i <;> rfl
@[simp] theorem Grp.updSlot_p (g : Grp) (i : Bool) (f : Slot → Slot) : (g.updSlot i f).p = g.p := by
  cases i <;> rfl
@[simp] theorem Grp.updSlot_w (g : Grp) (i : Bool) (f : Slot → Slot) : (g.updSlot i f).w = g.w := by
  cases i <;> rfl
@[simp] theorem Grp.updSlot_h (g : Grp) (i : Bool) (f : Slot → Slot) : (g.updSlot i f).h = g.h := by
  cases i <;> rfl
@[simp] theorem Grp.updSlot_q (g : Grp) (i : Bool) (f : Slot → Slot) : (g.updSlot i f).q = g.q := by
  cases i <;> rfl
@[simp] theorem Grp.updSlot_arr (g : Grp) (i : Bool) (f : Slot → Slot) : (g.updSlot i f).arr = g.arr := by
  cases i <;> rfl
@[simp] theorem Grp.updSlot_fence (g : Grp) (i : Bool) (f : Slot → Slot) : (g.updSlot i f).fence = g.fence := by
  cases i <;> rfl
@[simp] theorem Grp.updSlot_lastSlot1 (g : Grp) (i : Bool) (f : Slot → Slot) : (g.updSlot i f).lastSlot1 = g.lastSlot1 := by
  cases i <;> rfl
@[simp] theorem Grp.updSlot_ptsSince (g : Grp) (i : Bool) (f : Slot → Slot) : (g.updSlot i f).ptsSince = g.ptsSince := by
  cases i <;> rfl
@[simp] theorem Grp.updSlot_cpyTime (g : Grp) (i : Bool) (f : Slot → Slot) : (g.updSlot i f).cpyTime = g.cpyTime := by
  cases i <;> rfl
@[simp] theorem Grp.updSlot_twin (g : Grp) (i : Bool) (f : Slot → Slot) : (g.updSlot i f).twin = g.twin := by
  cases i <;> rfl
@[simp] theorem Grp.updSlot_under (g : Grp) (i : Bool) (f : Slot → Slot) : (g.updSlot i f).under = g.under := by
  cases i <;> rfl
@[simp] theorem Grp.updSlot_held (g : Grp) (i : Bool) (f : Slot → Slot) : (g.updSlot i f).held = g.held := by
  cases i <;> rfl
@[simp] theorem Grp.updSlot_points (g : Grp) (i : Bool) (f : Slot → Slot) : (g.updSlot i f).points = g.points := by
  cases i <;> rfl

/-! Lanes. -/

@[simp] theorem laneAt_lanesFrom (f : Nat → Word) (l : Nat) (h : l < 32) : laneAt (lanesFrom f) l = f l := by
  simp [laneAt, lanesFrom, h]
@[simp] theorem laneAt_lanesAll (x : Word) (l : Nat) (h : l < 32) : laneAt (lanesAll x) l = x := by
  simp [laneAt, lanesAll, h]
/-- New values in the lanes of the mask, the old ones elsewhere (R12). -/
theorem laneAt_mergeLanes (m : Word) (x y : Lanes) (l : Nat) (h : l < 32) :
    laneAt (mergeLanes m x y) l = if m.getLsbD l then laneAt x l else laneAt y l := by
  simp [mergeLanes, h]

/-! Entering a handler (R308). -/

@[simp] theorem Grp.enterHandler_slot (g : Grp) (i : Bool) : (g.enterHandler i).slot i =
    { g.slot i with handler := true, pc := g.book.handler, mode := Config.modeReset, st := .ready, hold := .none } := by
  cases i <;> rfl
@[simp] theorem Grp.enterHandler_savedMode (g : Grp) (i : Bool) : (g.enterHandler i).savedMode = (g.slot i).mode := by
  cases i <;> rfl
@[simp] theorem Grp.enterHandler_uid (g : Grp) (i : Bool) : (g.enterHandler i).uid = g.uid := by cases i <;> rfl
@[simp] theorem Grp.report_trapInfo (g : Grp) (x p : Word) : (g.report x p).trapInfo = x := rfl
@[simp] theorem Grp.report_trapPc (g : Grp) (x p : Word) : (g.report x p).trapPc = p := rfl
@[simp] theorem Grp.report_uid (g : Grp) (x p : Word) : (g.report x p).uid = g.uid := rfl
@[simp] theorem Grp.reportFault_uid (g : Grp) (t : Trap) : (g.reportFault t).uid = g.uid := by
  simp only [Grp.reportFault]; split <;> rfl
/-- Class 15 is never routed (R308). -/
@[simp] theorem routed_poison (v : Word) : routed v clsPoison = false := rfl

/-- The handler step in a group whose launch names a handler and whose other fragment runs none: the fragment enters (R308). -/
theorem State.handlerStep_enters {s : State} {u : Nat} {i : Bool} {c : Nat} {info pc : Word} {g : Grp} (hg : s.grp u = some g)
    (hh : g.book.handler ≠ Config.noJoin) (ho : (g.slot (!i)).handler = false) :
    s.handlerStep u i c info pc = s.updGrp u fun x => (x.report info pc).enterHandler i := by
  simp [State.handlerStep, hg, hh, ho]

/-- The handler step without a handler in the prompt book ends the launch as FAULTED (R308). -/
theorem State.handlerStep_ends {s : State} {u : Nat} {i : Bool} {c : Nat} {info pc : Word} {g : Grp} (hg : s.grp u = some g)
    (hh : g.book.handler = Config.noJoin) :
    s.handlerStep u i c info pc = (s.updGrp u fun x => x.report info pc).endLaunch g.launch 4 c := by
  simp [State.handlerStep, hg, hh]

/-- A group that waits to park and stands at a scene boundary leaves its place: its image is written and the die's control cores are told
(R27, R308). -/
theorem State.settlePark_parks {s : State} {u : Nat} {g : Grp} (hg : s.grp u = some g) (hp : g.parking = true)
    (he : g.place ≠ .ended) (hb : s.atBoundary u = true) :
    s.settlePark u = State.send (State.saveImage (State.unschedule (s.updGrp u fun x =>
        { x with place := .trapParked, parking := false, ptsAcc := if x.place = .resident then s.clk - x.ptsSince else x.ptsAcc })
          u g.core) u)
        (.trapInterrupt (dieOfCore g.core) g.part g.imgSlot) := by
  simp [State.settlePark, hg, hp, he, hb]

/-- Before its boundary such a group stays where it is. -/
theorem State.settlePark_waits {s : State} {u : Nat} (hb : s.atBoundary u = false) : s.settlePark u = s := by
  simp only [State.settlePark]
  split
  · rfl
  · simp [hb]

/-- Taking a trap of a class that is routed records it, holds the fragment and parks the group at its boundary (R308). -/
theorem State.takeTrap_routed {s : State} {u : Nat} {i : Bool} {t : Trap} {pc : Word} {g : Grp} (hg : s.grp u = some g)
    (hd : t.dead = false) (hc : t.cls ≠ clsPoison) (hh : (g.slot i).handler = false) (hk : g.parking = false)
    (hr : routed (s.core g.core).trapvec t.cls = true) :
    s.takeTrap u i t pc =
      ((s.updGrp u fun x => (x.report t.word pc).reportFault t).updGrp u fun x =>
        { x.updSlot i (fun y => { y with pc := pc, hold := .trapPark }) with parking := true, trapSlot := i }).settlePark u := by
  simp [State.takeTrap, hg, hd, hc, hh, hk, hr]

/-- A trap that comes while a routed trap of the group's other fragment waits for the boundary is kept with its fragment (log 81). -/
theorem State.takeTrap_held {s : State} {u : Nat} {i : Bool} {t : Trap} {pc : Word} {g : Grp} (hg : s.grp u = some g)
    (hd : t.dead = false) (hc : t.cls ≠ clsPoison) (hh : (g.slot i).handler = false) (hk : g.parking = true) :
    s.takeTrap u i t pc = s.updGrp u fun x => x.updSlot i fun y =>
      { y with pc := pc, hold := if t.cls = clsTrapWord ∨ t.cls = clsBreak then .parkPend t.word else .handlerRetry } := by
  simp [State.takeTrap, hg, hd, hc, hh, hk]

/-- Taking a trap of a class that is not routed goes on at the handler step (R308). -/
theorem State.takeTrap_handled {s : State} {u : Nat} {i : Bool} {t : Trap} {pc : Word} {g : Grp} (hg : s.grp u = some g)
    (hd : t.dead = false) (hc : t.cls ≠ clsPoison) (hh : (g.slot i).handler = false) (hk : g.parking = false)
    (hr : routed (s.core g.core).trapvec t.cls = false) :
    s.takeTrap u i t pc = State.handlerStep (s.updGrp u fun x => x.reportFault t) u i t.cls t.word pc := by
  simp [State.takeTrap, hg, hd, hc, hh, hk, hr]

/-- A trap in the scene in issue discards the scene buffer and takes the trap with the header's address (R20, R37); a pending pre-emption
takes effect at that boundary (R27). -/
theorem State.trapScene_eq (s : State) (t : Trap) : s.trapScene t =
    State.settleGang (State.takeTrap (State.updGrp { s with iss := {} } s.iss.g.uid fun g =>
      g.updSlot s.iss.slot fun x => { x with busy := false }) s.iss.g.uid s.iss.slot t s.iss.pc) s.iss.g.gang := rfl

/-! The scene buffer. -/

@[simp] theorem Issue.capture_live (i : Issue) (o : SOp) : (i.capture o).live = i.live := rfl
@[simp] theorem Issue.putUniform_live (i : Issue) (n : Nat) (x : Word) (p : Bool) : (i.putUniform n x p).live = i.live := rfl
@[simp] theorem Issue.capture_phase (i : Issue) (o : SOp) : (i.capture o).phase = i.phase := rfl
@[simp] theorem Issue.putUniform_phase (i : Issue) (n : Nat) (x : Word) (p : Bool) : (i.putUniform n x p).phase = i.phase := rfl
@[simp] theorem Issue.capture_g (i : Issue) (o : SOp) : (i.capture o).g = i.g := rfl
@[simp] theorem Issue.capture_slot (i : Issue) (o : SOp) : (i.capture o).slot = i.slot := rfl
@[simp] theorem Issue.putUniform_slot (i : Issue) (n : Nat) (x : Word) (p : Bool) : (i.putUniform n x p).slot = i.slot := rfl
@[simp] theorem Issue.capture_pc (i : Issue) (o : SOp) : (i.capture o).pc = i.pc := rfl
@[simp] theorem Issue.putUniform_pc (i : Issue) (n : Nat) (x : Word) (p : Bool) : (i.putUniform n x p).pc = i.pc := rfl
@[simp] theorem Issue.capture_idx (i : Issue) (o : SOp) : (i.capture o).idx = i.idx := rfl
@[simp] theorem Issue.putUniform_idx (i : Issue) (n : Nat) (x : Word) (p : Bool) : (i.putUniform n x p).idx = i.idx := rfl
@[simp] theorem Issue.capture_words (i : Issue) (o : SOp) : (i.capture o).words = i.words := rfl
@[simp] theorem Issue.putUniform_words (i : Issue) (n : Nat) (x : Word) (p : Bool) : (i.putUniform n x p).words = i.words := rfl
@[simp] theorem Issue.capture_mask (i : Issue) (o : SOp) : (i.capture o).mask = i.mask := rfl
@[simp] theorem Issue.putUniform_mask (i : Issue) (n : Nat) (x : Word) (p : Bool) : (i.putUniform n x p).mask = i.mask := rfl
@[simp] theorem Issue.capture_mode (i : Issue) (o : SOp) : (i.capture o).mode = i.mode := rfl
@[simp] theorem Issue.putUniform_mode (i : Issue) (n : Nat) (x : Word) (p : Bool) : (i.putUniform n x p).mode = i.mode := rfl
@[simp] theorem Issue.capture_t (i : Issue) (o : SOp) : (i.capture o).t = i.t := rfl
@[simp] theorem Issue.putUniform_t (i : Issue) (n : Nat) (x : Word) (p : Bool) : (i.putUniform n x p).t = i.t := rfl
@[simp] theorem Issue.capture_vmask (i : Issue) (o : SOp) : (i.capture o).vmask = i.vmask := rfl
@[simp] theorem Issue.putUniform_vmask (i : Issue) (n : Nat) (x : Word) (p : Bool) : (i.putUniform n x p).vmask = i.vmask := rfl
@[simp] theorem Issue.capture_vtagged (i : Issue) (o : SOp) : (i.capture o).vtagged = i.vtagged := rfl
@[simp] theorem Issue.putUniform_vtagged (i : Issue) (n : Nat) (x : Word) (p : Bool) : (i.putUniform n x p).vtagged = i.vtagged := rfl
@[simp] theorem Issue.capture_swrote (i : Issue) (o : SOp) : (i.capture o).swrote = i.swrote := rfl
@[simp] theorem Issue.capture_pmask (i : Issue) (o : SOp) : (i.capture o).pmask = i.pmask := rfl
@[simp] theorem Issue.putUniform_pmask (i : Issue) (n : Nat) (x : Word) (p : Bool) : (i.putUniform n x p).pmask = i.pmask := rfl
@[simp] theorem Issue.putUniform_ops (i : Issue) (n : Nat) (x : Word) (p : Bool) : (i.putUniform n x p).ops = i.ops := rfl
@[simp] theorem Issue.capture_final (i : Issue) (o : SOp) : (i.capture o).final = i.final := rfl
@[simp] theorem Issue.putUniform_final (i : Issue) (n : Nat) (x : Word) (p : Bool) : (i.putUniform n x p).final = i.final := rfl
@[simp] theorem Issue.capture_clk (i : Issue) (o : SOp) : (i.capture o).clk = i.clk := rfl
@[simp] theorem Issue.putUniform_clk (i : Issue) (n : Nat) (x : Word) (p : Bool) : (i.putUniform n x p).clk = i.clk := rfl
@[simp] theorem Issue.capture_mark (i : Issue) (o : SOp) : (i.capture o).mark = i.mark := rfl
@[simp] theorem Issue.putUniform_mark (i : Issue) (n : Nat) (x : Word) (p : Bool) : (i.putUniform n x p).mark = i.mark := rfl
@[simp] theorem Issue.capture_bearing (i : Issue) (o : SOp) : (i.capture o).bearing = i.bearing := rfl
@[simp] theorem Issue.putUniform_bearing (i : Issue) (n : Nat) (x : Word) (p : Bool) : (i.putUniform n x p).bearing = i.bearing := rfl
@[simp] theorem Issue.capture_ord (i : Issue) (o : SOp) : (i.capture o).ord = i.ord := rfl
@[simp] theorem Issue.putUniform_ord (i : Issue) (n : Nat) (x : Word) (p : Bool) : (i.putUniform n x p).ord = i.ord := rfl
@[simp] theorem Issue.capture_wacc (i : Issue) (o : SOp) : (i.capture o).wacc = i.wacc := rfl
@[simp] theorem Issue.putUniform_wacc (i : Issue) (n : Nat) (x : Word) (p : Bool) : (i.putUniform n x p).wacc = i.wacc := rfl
@[simp] theorem Issue.capture_cmp (i : Issue) (o : SOp) : (i.capture o).cmp = i.cmp := rfl
@[simp] theorem Issue.putUniform_cmp (i : Issue) (n : Nat) (x : Word) (p : Bool) : (i.putUniform n x p).cmp = i.cmp := rfl
@[simp] theorem Issue.capture_pause (i : Issue) (o : SOp) : (i.capture o).pause = i.pause := rfl
@[simp] theorem Issue.putUniform_pause (i : Issue) (n : Nat) (x : Word) (p : Bool) : (i.putUniform n x p).pause = i.pause := rfl
@[simp] theorem Issue.put_live (i : Issue) (ins : Instr) (d : Sel) (m : Word) (tag : Nat) (x : Lanes) (p : Word) :
    (i.put ins d m tag x p).live = i.live := by
  cases d <;> simp only [Issue.put] <;> (try split) <;> rfl
@[simp] theorem Issue.put_phase (i : Issue) (ins : Instr) (d : Sel) (m : Word) (tag : Nat) (x : Lanes) (p : Word) :
    (i.put ins d m tag x p).phase = i.phase := by
  cases d <;> simp only [Issue.put] <;> (try split) <;> rfl
@[simp] theorem Issue.put_slot (i : Issue) (ins : Instr) (d : Sel) (m : Word) (tag : Nat) (x : Lanes) (p : Word) :
    (i.put ins d m tag x p).slot = i.slot := by
  cases d <;> simp only [Issue.put] <;> (try split) <;> rfl
@[simp] theorem Issue.put_pc (i : Issue) (ins : Instr) (d : Sel) (m : Word) (tag : Nat) (x : Lanes) (p : Word) :
    (i.put ins d m tag x p).pc = i.pc := by
  cases d <;> simp only [Issue.put] <;> (try split) <;> rfl
@[simp] theorem Issue.put_idx (i : Issue) (ins : Instr) (d : Sel) (m : Word) (tag : Nat) (x : Lanes) (p : Word) :
    (i.put ins d m tag x p).idx = i.idx := by
  cases d <;> simp only [Issue.put] <;> (try split) <;> rfl
@[simp] theorem Issue.put_words (i : Issue) (ins : Instr) (d : Sel) (m : Word) (tag : Nat) (x : Lanes) (p : Word) :
    (i.put ins d m tag x p).words = i.words := by
  cases d <;> simp only [Issue.put] <;> (try split) <;> rfl
@[simp] theorem Issue.put_mask (i : Issue) (ins : Instr) (d : Sel) (m : Word) (tag : Nat) (x : Lanes) (p : Word) :
    (i.put ins d m tag x p).mask = i.mask := by
  cases d <;> simp only [Issue.put] <;> (try split) <;> rfl
@[simp] theorem Issue.put_mode (i : Issue) (ins : Instr) (d : Sel) (m : Word) (tag : Nat) (x : Lanes) (p : Word) :
    (i.put ins d m tag x p).mode = i.mode := by
  cases d <;> simp only [Issue.put] <;> (try split) <;> rfl
@[simp] theorem Issue.put_final (i : Issue) (ins : Instr) (d : Sel) (m : Word) (tag : Nat) (x : Lanes) (p : Word) :
    (i.put ins d m tag x p).final = i.final := by
  cases d <;> simp only [Issue.put] <;> (try split) <;> rfl
@[simp] theorem Issue.put_clk (i : Issue) (ins : Instr) (d : Sel) (m : Word) (tag : Nat) (x : Lanes) (p : Word) :
    (i.put ins d m tag x p).clk = i.clk := by
  cases d <;> simp only [Issue.put] <;> (try split) <;> rfl
@[simp] theorem Issue.put_mark (i : Issue) (ins : Instr) (d : Sel) (m : Word) (tag : Nat) (x : Lanes) (p : Word) :
    (i.put ins d m tag x p).mark = i.mark := by
  cases d <;> simp only [Issue.put] <;> (try split) <;> rfl
@[simp] theorem Issue.put_bearing (i : Issue) (ins : Instr) (d : Sel) (m : Word) (tag : Nat) (x : Lanes) (p : Word) :
    (i.put ins d m tag x p).bearing = i.bearing := by
  cases d <;> simp only [Issue.put] <;> (try split) <;> rfl
@[simp] theorem Issue.put_ord (i : Issue) (ins : Instr) (d : Sel) (m : Word) (tag : Nat) (x : Lanes) (p : Word) :
    (i.put ins d m tag x p).ord = i.ord := by
  cases d <;> simp only [Issue.put] <;> (try split) <;> rfl
@[simp] theorem Issue.put_wacc (i : Issue) (ins : Instr) (d : Sel) (m : Word) (tag : Nat) (x : Lanes) (p : Word) :
    (i.put ins d m tag x p).wacc = i.wacc := by
  cases d <;> simp only [Issue.put] <;> (try split) <;> rfl
@[simp] theorem Issue.put_cmp (i : Issue) (ins : Instr) (d : Sel) (m : Word) (tag : Nat) (x : Lanes) (p : Word) :
    (i.put ins d m tag x p).cmp = i.cmp := by
  cases d <;> simp only [Issue.put] <;> (try split) <;> rfl
@[simp] theorem Issue.put_pause (i : Issue) (ins : Instr) (d : Sel) (m : Word) (tag : Nat) (x : Lanes) (p : Word) :
    (i.put ins d m tag x p).pause = i.pause := by
  cases d <;> simp only [Issue.put] <;> (try split) <;> rfl

end Sys2Proof.Machine
end

