-- ==== Sys2Proof/Laws/Scene.lean ====
section
/-! SUPPORT. What the shared steps of "execute" answer: a body word of the scene in issue, and the checks that the meanings of the
words run before they write (R12, R41, R42, R46, R50). -/

namespace Sys2Proof.Machine

/-- A body word whose operands pass R36 and whose checks pass: the scene buffer as f leaves it, the next word next. -/
theorem State.word_next {s : State} {i : Instr} {f : Issue → Except Trap Issue} {j : Issue} (hl : s.iss.live = true)
    (hb : s.iss.phase = .body) (hk : legal i = true) (hr : fitsRegs s.iss.g.book.regs i = true) (hf : f s.iss = .ok j) :
    s.word i f = .next { s with iss := { j with idx := s.iss.idx + 1 } } := by
  simp [State.word, hl, hb, hk, hr, hf]

/-- A body word one of whose checks fails: the scene traps. -/
theorem State.word_trap {s : State} {i : Instr} {f : Issue → Except Trap Issue} {t : Trap} (hl : s.iss.live = true)
    (hb : s.iss.phase = .body) (hk : legal i = true) (hr : fitsRegs s.iss.g.book.regs i = true) (hf : f s.iss = .error t) :
    s.word i f = .next (s.trapScene t) := by
  simp [State.word, hl, hb, hk, hr, hf]

/-- A body word with an operand that R36's last check refuses traps with class 3. -/
theorem State.word_illegal {s : State} {i : Instr} {f : Issue → Except Trap Issue} (hl : s.iss.live = true)
    (hb : s.iss.phase = .body) (h : (legal i && fitsRegs s.iss.g.book.regs i) = false) :
    s.word i f = .next (s.trapScene (s.iss.trap clsIllegalOperand 0)) := by
  simp [State.word, hl, hb, h]

/-- Everything a body word can do: nothing without a scene at its body words, else a trap or the scene buffer that f leaves. -/
theorem State.word_cases (s : State) (i : Instr) (f : Issue → Except Trap Issue) :
    (s.word i f = .next s) ∨ (∃ j, f s.iss = .ok j ∧ s.word i f = .next { s with iss := { j with idx := s.iss.idx + 1 } })
      ∨ ∃ t, s.word i f = .next (s.trapScene t) := by
  simp only [State.word]
  split
  · split
    · split
      · next j hj => exact .inr (.inl ⟨j, hj, rfl⟩)
      · next t _ => exact .inr (.inr ⟨t, rfl⟩)
    · exact .inr (.inr ⟨_, rfl⟩)
  · exact .inl rfl

/-- The active lanes when no lane of the mask has a poisoned guard. -/
theorem Issue.active_ok {i : Issue} (h : i.guard.pois &&& i.mask = 0#32) : i.active = .ok (i.mask &&& i.guard.val) := by
  simp [Issue.active, h]

/-- A poisoned guard is consumed (R50). -/
theorem Issue.active_trap {i : Issue} (h : i.guard.pois &&& i.mask ≠ 0#32) :
    i.active = .error (i.trap clsPoison (lowLane (i.guard.pois &&& i.mask))) := by
  simp [Issue.active, h]

@[simp] theorem Issue.need_true (i : Issue) : i.need true = .ok () := rfl
@[simp] theorem Issue.need_false (i : Issue) : i.need false = .error (i.trap clsIllegalOperand 0) := rfl

/-- The one-source words (R90): their whole result. -/
theorem Issue.lane1_ok {i : Issue} {ins : Instr} {set : Nat → Bool} {chk pass : Bool} {d a : Sel} {f : Nat → Word → Word} {e : Nat}
    {x : Val} (he : i.etype a = .ok e) (hs : set e = true) (ht : chk = true → i.checkTags e [a] = .ok ()) (hx : i.src e a = .ok x)
    (hg : i.guard.pois &&& i.mask = 0#32) :
    i.lane1 ins set chk d a pass f = .ok (i.put ins d (i.mask &&& i.guard.val) (if pass then passTag a x e else e)
      (lanesFrom fun l => f e (x.at l)) x.pois) := by
  cases chk
  · simp [Issue.lane1, he, hs, hx, Issue.active_ok hg, bind, Except.bind]
  · simp [Issue.lane1, he, hs, hx, Issue.active_ok hg, bind, Except.bind, ht rfl]

/-- The two-source words (R90): their whole result. -/
theorem Issue.lane2_ok {i : Issue} {ins : Instr} {set : Nat → Bool} {chk cnt pass : Bool} {d a b : Sel}
    {f : Nat → Word → Word → Word} {e : Nat} {x y : Val} (he : i.etype a = .ok e) (hs : set e = true)
    (ht : chk = true → i.checkTags e [a, b] = .ok ()) (hx : i.src e a = .ok x)
    (hy : (if cnt then i.count b else i.src e b) = .ok y) (hg : i.guard.pois &&& i.mask = 0#32) :
    i.lane2 ins set chk cnt d a b pass f = .ok (i.put ins d (i.mask &&& i.guard.val) (if pass then passTag a x e else e)
      (lanesFrom fun l => f e (x.at l) (y.at l)) (x.pois ||| y.pois)) := by
  cases cnt <;> cases chk <;> simp at hy ht <;>
    simp [Issue.lane2, he, hs, hx, hy, Issue.active_ok hg, bind, Except.bind, ht]

/-- The words that also read d (R90): their whole result. -/
theorem Issue.lane3_ok {i : Issue} {ins : Instr} {set : Nat → Bool} {chk cnt : Bool} {d a b : Sel} {tagD : Nat → Option Nat}
    {f : Nat → Word → Word → Word → Word} {e : Nat} {x y : Val} (he : i.etype a = .ok e) (hs : set e = true)
    (ht : chk = true → i.checkTags e [a, b] = .ok ()) (hd : ∀ t, tagD e = some t → i.checkTag t d = .ok ())
    (hx : i.src e a = .ok x) (hy : (if cnt then i.count b else i.src e b) = .ok y) (hg : i.guard.pois &&& i.mask = 0#32) :
    i.lane3 ins set chk cnt d a b tagD f = .ok (i.put ins d (i.mask &&& i.guard.val) ((tagD e).getD (passTag a x e))
      (lanesFrom fun l => f e (x.at l) (y.at l) ((i.val d).at l)) (x.pois ||| y.pois ||| (i.val d).pois)) := by
  cases h : tagD e with
  | none =>
    cases cnt <;> cases chk <;> simp at hy ht <;>
      simp [Issue.lane3, he, hs, hx, hy, Issue.active_ok hg, bind, Except.bind, ht, h]
  | some t =>
    have := hd t h
    cases cnt <;> cases chk <;> simp at hy ht <;>
      simp [Issue.lane3, he, hs, hx, hy, Issue.active_ok hg, bind, Except.bind, ht, h, this]

end Sys2Proof.Machine
end

