-- ==== Sys2Proof/Laws/Shape.lean ====
section
/-! SUPPORT. The shape of a group's two slots and its stack (R411): each operation on fragments keeps it. -/

namespace Sys2Proof.Machine

open Sys2Proof.Claim

/-- A change of the fragment in a slot keeps the shape when it leaves the join and empties no slot that held a fragment. -/
theorem Grp.updSlot_paired {g : Grp} {i : Bool} {f : Slot → Slot} (h : Paired g) (hj : (f (g.slot i)).join = (g.slot i).join)
    (he : (f (g.slot i)).st = .empty → (g.slot i).st = .empty) : Paired (g.updSlot i f) := by
  obtain ⟨a, b, c, d⟩ := h
  cases i
  · refine ⟨fun _ h1 => ?_, fun h0 => ?_, fun h1 => ⟨(c h1).1, hj.trans (c h1).2.1, (c h1).2.2⟩, d⟩
    · by_cases hx : g.slot0.st = .empty
      · exact hj.trans ((b hx).2.1.trans (b hx).2.2.symm)
      · exact hj.trans (a hx h1)
    · exact ⟨(b (he h0)).1, hj.trans (b (he h0)).2.1, (b (he h0)).2.2⟩
  · refine ⟨fun h0 _ => ?_, fun h0 => ⟨(b h0).1, (b h0).2.1, hj.trans (b h0).2.2⟩, fun h1 => ?_, d⟩
    · by_cases hx : g.slot1.st = .empty
      · exact ((c hx).2.1.trans (c hx).2.2.symm).trans hj.symm
      · exact (a h0 hx).trans hj.symm
    · exact ⟨(c (he h1)).1, (c (he h1)).2.1, hj.trans (c (he h1)).2.2⟩

/-- The fragment left in slot i when the other slot empties: alone, or beside the entry that was on top of the stack. -/
theorem Grp.noPartner_paired {g : Grp} {i : Bool} (hi : (g.slot i).st ≠ .empty) (he : (g.slot (!i)).st = .empty)
    (hj : (g.slot (!i)).join = Config.noJoin) (hs : ∀ x ∈ g.stack, x.st ≠ .empty) (hl : g.stack.length ≤ 64) :
    Paired (g.noPartner i) := by
  unfold Grp.noPartner
  split
  next h => cases i <;> simp_all [Paired, Grp.updSlot, Grp.setSlot, Grp.slot] <;> split <;> simp_all
  next top rest h =>
    cases i <;> simp_all [Paired, Grp.updSlot, Grp.setSlot, Grp.slot] <;> refine ⟨?_, ?_, by omega⟩ <;> split <;> simp_all

/-- The end of a fragment (R17, R18). -/
theorem Grp.endSlot_paired {g : Grp} {i : Bool} (h : Paired g) : Paired (g.endSlot i) := by
  obtain ⟨a, b, c, d, e⟩ := h
  simp only [Grp.endSlot]
  split
  next hx =>
    cases i
    · exact ⟨fun _ h1 => absurd hx h1, fun _ => ⟨(c hx).1, rfl, (c hx).2.2⟩, fun _ => ⟨(c hx).1, rfl, (c hx).2.2⟩, d, e⟩
    · exact ⟨fun h0 => absurd hx h0, fun _ => ⟨(b hx).1, (b hx).2.1, rfl⟩, fun _ => ⟨(b hx).1, (b hx).2.1, rfl⟩, d, e⟩
  next hx => cases i <;> exact Grp.noPartner_paired hx rfl rfl d e

/-- A fragment at its join (R16): it waits there, or the two fuse. -/
theorem Grp.stopAt_paired {g : Grp} {i : Bool} (h : Paired g) : Paired (g.stopAt i) := by
  simp only [Grp.stopAt]
  split
  · split
    · exact Grp.noPartner_paired (i := false) nofun rfl rfl h.2.2.2.1 h.2.2.2.2
    · exact Grp.updSlot_paired h rfl nofun
  · exact h

theorem Grp.stops_paired {n : Nat} {g : Grp} (h : Paired g) : Paired (g.stops n) := by
  induction n generalizing g with
  | zero => exact h
  | succ n ih =>
    unfold Grp.stops
    split
    · exact ih (Grp.stopAt_paired (Grp.stopAt_paired h))
    · exact h

/-- A fragment at a scene boundary (R16, R18). -/
theorem Grp.boundary_paired {g : Grp} {i : Bool} (h : Paired g) : Paired (g.boundary i) := Grp.stops_paired (Grp.stopAt_paired h)

/-- A split (R14, R15) of a fragment that is there. -/
theorem Grp.split_paired {g r : Grp} {i : Bool} {taken : Word} {fall target join : Word} (h : Paired g) (hi : (g.slot i).st ≠ .empty)
    (hr : g.split i taken fall target join = some r) : Paired r := by
  obtain ⟨a, b, c, d, e⟩ := h
  simp only [Grp.split] at hr
  split at hr
  · cases hr
  · cases hr
    cases i <;> simp_all [Paired, Grp.setSlot, Grp.slot] <;> split <;> simp_all <;> omega

/-- A change of every fragment, in the slots and on the stack, that leaves each join and ends none. -/
theorem Grp.mapFrags_paired {g : Grp} {f : Slot → Slot} (h : Paired g) (hj : ∀ x, (f x).join = x.join)
    (he : ∀ x, (f x).st = .empty → x.st = .empty) :
    Paired { g with slot0 := f g.slot0, slot1 := f g.slot1, stack := g.stack.map f } := by
  obtain ⟨a, b, c, d, e⟩ : Paired ((g.updSlot false f).updSlot true f) :=
    Grp.updSlot_paired (Grp.updSlot_paired h (hj _) (he _)) (hj _) (he _)
  refine ⟨a, fun h0 => ⟨?_, (b h0).2⟩, fun h1 => ⟨?_, (c h1).2⟩, ?_, ?_⟩
  · exact List.map_eq_nil_iff.2 (b h0).1
  · exact List.map_eq_nil_iff.2 (c h1).1
  · intro x hx
    obtain ⟨y, hy, rfl⟩ := List.mem_map.1 hx
    exact fun hn => d y hy (he y hn)
  · exact (List.length_map f).symm ▸ e

/-- A change of the fragment with a mask that leaves its join and does not end it. -/
theorem Grp.updFrag_paired {g : Grp} {m : Word} {f : Slot → Slot} (h : Paired g) (hj : ∀ x, (f x).join = x.join)
    (he : ∀ x, (f x).st = .empty → x.st = .empty) : Paired (g.updFrag m f) := by
  refine Grp.mapFrags_paired (f := fun x => if (x.mask == m && x.st != .empty) = true then f x else x) h (fun x => ?_) (fun x => ?_)
  · split
    · exact hj x
    · rfl
  · split
    · exact he x
    · exact id

end Sys2Proof.Machine
end

