-- ==== Sys2Proof/Safety.lean ====
section
/-! DEFINITION. What a safe run is: one whose steps never stop. A step stops only with a fault of `Machine.Fault`, when an access
reaches an address where the spec gives no effect; no step is refused. -/

namespace Sys2Proof

/-- A step that answers a next state. -/
def Runs (s : Machine.State) : Prop := ∃ t, Machine.step s = .next t

/-- A state from which n steps answer next states. -/
def SafeFor : Nat → Machine.State → Prop
  | 0, _ => True
  | n + 1, s => ∃ t, Machine.step s = .next t ∧ SafeFor n t

/-- A safe state: no number of steps from it stops. -/
def Safe (s : Machine.State) : Prop := ∀ n, SafeFor n s

end Sys2Proof
end

