-- ==== Sys2Proof/Tests/Slice0.lean ====
section
/-! SUPPORT. Tests: words written out from the spec's encodings, the checks of WellFormed, one step of the instructions on small
states, and for every statement of the row with hypotheses a state and operands that meet them together. -/

namespace Sys2Proof.Tests

-- The tests one after another: checked side by side, each waits in a thread of its own.
set_option Elab.async false

open Sys2Proof Sys2Proof.Machine Sys2Proof.Claim

/-! ## Decoding (R32, R38, R53): each word is written out from its row's fields. -/

/-- The opcodes 0x00 to 0x0F. -/
theorem test_decode_control : ([
    (0x01900000#32, .scene 18#5), (0x02E881B6#32, .sceneEnd 232#8 129#8 182#8), (0x0391E20B#32, .jmp 9560587#24),
    (0x048F21DD#32, .call 9380317#24), (0x05005300#32, .jmpr (.v 83#7)), (0x06005300#32, .callr (.v 83#7)),
    (0x07DD6D27#32, .brc 6#3 941#10 1319#11), (0x089D74BD#32, .bru 4#3 3#2 357565#19), (0x09000000#32, .exit),
    (0x0A00907A#32, .trap 36986#16), (0x0B000000#32, .yield), (0x0C00F731#32, .brk 63281#16), (0x0D000000#32, .nop)] : List (Word × Instr)).all
    (fun x => (decodeWord x.1).toOption == some x.2) = true := by decide

/-- The opcodes 0x10 to 0x1F. -/
theorem test_decode_move : ([
    (0x102C930D#32, .ldi (.v 44#7) 37645#16), (0x11B5BABC#32, .ldhi (.p 5#3) 47804#16),
    (0x122C0700#32, .mov (.v 44#7) (.v 7#7)), (0x13C1D790#32, .modei 193#8 55184#16), (0x14005300#32, .mode (.v 83#7)),
    (0x15B5D712#32, .rdsp (.p 5#3) 55058#16), (0x16D99474#32, .wrsp (.k 25#6) 38004#16), (0x170700B2#32, .winld 7#3 178#8),
    (0x18549553#32, .winsub 5#3 4#3 (.s 21#5) (.v 83#7)), (0x19BA9500#32, .rdtag (.t 2#3) (.s 21#5)),
    (0x1AD953B5#32, .retag (.k 25#6) (.v 83#7) (.p 5#3))] : List (Word × Instr)).all
    (fun x => (decodeWord x.1).toOption == some x.2) = true := by decide

/-- The opcodes 0x20 to 0x3F. -/
theorem test_decode_integer : ([
    (0x202C0775#32, .add (.v 44#7) (.v 7#7) (.v 117#7)), (0x21958A53#32, .sub (.s 21#5) (.s 10#5) (.v 83#7)),
    (0x2207BA8A#32, .mul (.v 7#7) (.t 2#3) (.s 10#5)), (0x2341752C#32, .mulhi (.v 65#7) (.v 117#7) (.v 44#7)),
    (0x247595EC#32, .mad (.v 117#7) (.s 21#5) (.k 44#6)), (0x254195EC#32, .min (.v 65#7) (.s 21#5) (.k 44#6)),
    (0x268ABAA6#32, .max (.s 10#5) (.t 2#3) (.q 6#4)), (0x2707412C#32, .absd (.v 7#7) (.v 65#7) (.v 44#7)),
    (0x285341A6#32, .and (.v 83#7) (.v 65#7) (.q 6#4)), (0x29957507#32, .or (.s 21#5) (.v 117#7) (.v 7#7)),
    (0x2ABA7553#32, .xor (.t 2#3) (.v 117#7) (.v 83#7)), (0x2BA607B5#32, .andn (.q 6#4) (.v 7#7) (.p 5#3)),
    (0x2C530700#32, .not (.v 83#7) (.v 7#7)), (0x2DBAECA6#32, .shl (.t 2#3) (.k 44#6) (.q 6#4)),
    (0x2E2CA641#32, .shr (.v 44#7) (.q 6#4) (.v 65#7)), (0x2F53BAA6#32, .sar (.v 83#7) (.t 2#3) (.q 6#4)),
    (0x30D9412C#32, .rol (.k 25#6) (.v 65#7) (.v 44#7)), (0x3153B52C#32, .fshl (.v 83#7) (.p 5#3) (.v 44#7)),
    (0x32750753#32, .fshr (.v 117#7) (.v 7#7) (.v 83#7)), (0x3353B52C#32, .lut3 (.v 83#7) (.p 5#3) (.v 44#7)),
    (0x34BA0700#32, .clz (.t 2#3) (.v 7#7)), (0x35B59500#32, .ffs (.p 5#3) (.s 21#5)),
    (0x362CD900#32, .popc (.v 44#7) (.k 25#6)), (0x3707A600#32, .brev (.v 7#7) (.q 6#4)),
    (0x38752C95#32, .bfx (.v 117#7) (.v 44#7) (.s 21#5)), (0x39D995B5#32, .bfi (.k 25#6) (.s 21#5) (.p 5#3)),
    (0x3A53EC75#32, .cmpeq (.v 83#7) (.k 44#6) (.v 117#7)), (0x3B75B5EC#32, .cmpne (.v 117#7) (.p 5#3) (.k 44#6)),
    (0x3CA653EC#32, .cmplt (.q 6#4) (.v 83#7) (.k 44#6)), (0x3D412CA6#32, .cmple (.v 65#7) (.v 44#7) (.q 6#4)),
    (0x3EA675B5#32, .sel (.q 6#4) (.v 117#7) (.p 5#3)), (0x3F07A6EC#32, .sad (.v 7#7) (.q 6#4) (.k 44#6))] : List (Word × Instr)).all
    (fun x => (decodeWord x.1).toOption == some x.2) = true := by decide

/-- The opcodes 0x40 to 0x5F. -/
theorem test_decode_float : ([
    (0x40078AA6#32, .fadd (.v 7#7) (.s 10#5) (.q 6#4)), (0x410741BA#32, .fsub (.v 7#7) (.v 65#7) (.t 2#3)),
    (0x4253B5D9#32, .fmul (.v 83#7) (.p 5#3) (.k 25#6)), (0x43A6D995#32, .fma (.q 6#4) (.k 25#6) (.s 21#5)),
    (0x44D9B507#32, .fmin (.k 25#6) (.p 5#3) (.v 7#7)), (0x452CA6B5#32, .fmax (.v 44#7) (.q 6#4) (.p 5#3)),
    (0x46D9412C#32, .fcmpeq (.k 25#6) (.v 65#7) (.v 44#7)), (0x47D941B5#32, .fcmplt (.k 25#6) (.v 65#7) (.p 5#3)),
    (0x48D95341#32, .fcmple (.k 25#6) (.v 83#7) (.v 65#7)), (0x49072CB5#32, .fcmpun (.v 7#7) (.v 44#7) (.p 5#3)),
    (0x4A75D900#32, .fabs (.v 117#7) (.k 25#6)), (0x4B2CB500#32, .fneg (.v 44#7) (.p 5#3)),
    (0x4CA6D900#32, .rcp (.q 6#4) (.k 25#6)), (0x4D077500#32, .rsqrt (.v 7#7) (.v 117#7)),
    (0x4ED94100#32, .sqrt (.k 25#6) (.v 65#7)), (0x4FD90700#32, .exp2 (.k 25#6) (.v 7#7)),
    (0x50EC7500#32, .log2 (.k 44#6) (.v 117#7)), (0x51075300#32, .sinpi (.v 7#7) (.v 83#7)),
    (0x52EC2C00#32, .cospi (.k 44#6) (.v 44#7)), (0x538ABA00#32, .tanh (.s 10#5) (.t 2#3)),
    (0x54419500#32, .rnd (.v 65#7) (.s 21#5)), (0x55B58A00#32, .frac (.p 5#3) (.s 10#5)),
    (0x5675BA00#32, .cvt (.v 117#7) (.t 2#3)), (0x57ECD9B5#32, .dotk (.k 44#6) (.k 25#6) (.p 5#3)),
    (0x58A675EC#32, .dot4 (.q 6#4) (.v 117#7) (.k 44#6)), (0x5953A6EC#32, .dot2 (.v 83#7) (.q 6#4) (.k 44#6)),
    (0x5A530775#32, .fclass (.v 83#7) (.v 7#7) (.v 117#7)), (0x5BD9A641#32, .ldexp (.k 25#6) (.q 6#4) (.v 65#7))] : List (Word × Instr)).all
    (fun x => (decodeWord x.1).toOption == some x.2) = true := by decide

/-- The opcodes 0x60 to 0x6F. -/
theorem test_decode_cross_lane : ([
    (0x6053EC2C#32, .qshf (.v 83#7) (.k 44#6) (.v 44#7)), (0x6107ECA6#32, .qswp (.v 7#7) (.k 44#6) (.q 6#4)),
    (0x62412CD9#32, .qred (.v 65#7) (.v 44#7) (.k 25#6)), (0x6395A68A#32, .shfi (.s 21#5) (.q 6#4) (.s 10#5)),
    (0x64D9EC2C#32, .shfx (.k 25#6) (.k 44#6) (.v 44#7)), (0x65D92C53#32, .shfu (.k 25#6) (.v 44#7) (.v 83#7)),
    (0x66A6EC07#32, .shfd (.q 6#4) (.k 44#6) (.v 7#7)), (0x67ECD995#32, .redx (.k 44#6) (.k 25#6) (.s 21#5)),
    (0x688A41D9#32, .scanx (.s 10#5) (.v 65#7) (.k 25#6)), (0x69A69500#32, .ballot (.q 6#4) (.s 21#5)),
    (0x6ABA75D9#32, .vote (.t 2#3) (.v 117#7) (.k 25#6)), (0x6BB5D900#32, .matchLanes (.p 5#3) (.k 25#6)),
    (0x6CBA8AA6#32, .bcst (.t 2#3) (.s 10#5) (.q 6#4)), (0x6D410000#32, .elect (.v 65#7))] : List (Word × Instr)).all
    (fun x => (decodeWord x.1).toOption == some x.2) = true := by decide

/-- The opcodes 0x70 to 0x7F. -/
theorem test_decode_predicate : ([
    (0x7041B500#32, .pset (.v 65#7) (.p 5#3)), (0x718AD900#32, .pget (.s 10#5) (.k 25#6)),
    (0x72D9BA2C#32, .pand (.k 25#6) (.t 2#3) (.v 44#7)), (0x73418AA6#32, .por (.v 65#7) (.s 10#5) (.q 6#4)),
    (0x74A6ECBA#32, .pxor (.q 6#4) (.k 44#6) (.t 2#3)), (0x75418A00#32, .pnot (.v 65#7) (.s 10#5)),
    (0x76534100#32, .pmask (.v 83#7) (.v 65#7))] : List (Word × Instr)).all
    (fun x => (decodeWord x.1).toOption == some x.2) = true := by decide

/-- The opcodes 0x80 to 0x9F. -/
theorem test_decode_memory : ([
    (0x8007D9B0#32, .ldb (.v 7#7) (.k 25#6) 5#3 16#5), (0x8195EC9E#32, .ldh (.s 21#5) (.k 44#6) 4#3 30#5),
    (0x82A68A98#32, .ldw (.q 6#4) (.s 10#5) 4#3 24#5), (0x834175D4#32, .ldq (.v 65#7) (.v 117#7) 6#3 20#5),
    (0x844195B1#32, .stb (.v 65#7) (.s 21#5) 5#3 17#5), (0x85B5D998#32, .sth (.p 5#3) (.k 25#6) 4#3 24#5),
    (0x862CBADE#32, .stw (.v 44#7) (.t 2#3) 6#3 30#5), (0x87952C93#32, .stq (.s 21#5) (.v 44#7) 4#3 19#5),
    (0x88A695F0#32, .faa (.q 6#4) (.s 21#5) 7#3 16#5), (0x8995BA94#32, .fmn (.s 21#5) (.t 2#3) 4#3 20#5),
    (0x8A2C8AF5#32, .fmx (.v 44#7) (.s 10#5) 7#3 21#5), (0x8B8A75F9#32, .fand (.s 10#5) (.v 117#7) 7#3 25#5),
    (0x8C8AECDE#32, .fior (.s 10#5) (.k 44#6) 6#3 30#5), (0x8D9575D9#32, .fxor (.s 21#5) (.v 117#7) 6#3 25#5),
    (0x8E074197#32, .swp (.v 7#7) (.v 65#7) 4#3 23#5), (0x8FA68AF7#32, .cas (.q 6#4) (.s 10#5) 7#3 23#5),
    (0x9041BA9A#32, .radd (.v 65#7) (.t 2#3) 4#3 26#5), (0x918A95F7#32, .rmin (.s 10#5) (.s 21#5) 7#3 23#5),
    (0x92BA75FB#32, .rmax (.t 2#3) (.v 117#7) 7#3 27#5), (0x932C41B7#32, .ror (.v 44#7) (.v 65#7) 5#3 23#5),
    (0x940153BA#32, .pfl 1#1 (.v 83#7) 5#3 26#5), (0x95568A00#32, .cpy 5#3 6#3 (.s 10#5))] : List (Word × Instr)).all
    (fun x => (decodeWord x.1).toOption == some x.2) = true := by decide

/-- R202: the words of its program. -/
theorem test_R202_words : ([
    (0x01380000#32, .scene 7#5), (0x15000000#32, .rdsp (.v 0#7) 0#16), (0x2D0100C3#32, .shl (.v 1#7) (.v 0#7) (.k 3#6)),
    (0x76B1C500#32, .pmask (.p 1#3) (.k 5#6)), (0x13010001#32, .modei 1#8 1#16), (0x17010001#32, .winld 1#3 1#8),
    (0x17020002#32, .winld 2#3 2#8), (0x17030003#32, .winld 3#3 3#8), (0x02FFFFFF#32, .sceneEnd 0xFF#8 0xFF#8 0xFF#8),
    (0x01100000#32, .scene 2#5), (0x82020120#32, .ldw (.v 2#7) (.v 1#7) 1#3 0#5), (0x82030121#32, .ldw (.v 3#7) (.v 1#7) 1#3 1#5),
    (0x020203FF#32, .sceneEnd 0x02#8 0x03#8 0xFF#8), (0x01300000#32, .scene 6#5), (0x86020140#32, .stw (.v 2#7) (.v 1#7) 2#3 0#5),
    (0x86030141#32, .stw (.v 3#7) (.v 1#7) 2#3 1#5), (0xA0000005#32, .fence 5#3), (0x10810005#32, .ldi (.s 1#5) 5#16),
    (0x8681C060#32, .stw (.s 1#5) (.k 0#6) 3#3 0#5), (0x09000000#32, .exit)] : List (Word × Instr)).all
    (fun x => (decodeWord x.1).toOption == some x.2) = true := by decide

/-- The opcodes 0xA0 to 0xAF. -/
theorem test_decode_synchronisation : ([
    (0xA0000006#32, .fence 6#3), (0xA100803F#32, .bara 1#1 3#2 15#4), (0xA200803C#32, .barw 1#1 3#2 12#4),
    (0xA3008039#32, .bars 1#1 3#2 9#4), (0xA48A802C#32, .barinit (.s 10#5) 1#1 2#2 12#4),
    (0xA5A695BC#32, .mwne (.q 6#4) (.s 21#5) 5#3 28#5), (0xA6A6BAD9#32, .mwge (.q 6#4) (.t 2#3) 6#3 25#5),
    (0xA7000000#32, .drain), (0xA80000C3#32, .cwait 195#8)] : List (Word × Instr)).all
    (fun x => (decodeWord x.1).toOption == some x.2) = true := by decide

/-- The opcodes 0xB0 to 0xBF. -/
theorem test_decode_engine : ([
    (0xB00B9500#32, .hop 11#4 (.s 21#5)), (0xB1009800#32, .wload 6#3), (0xB2009400#32, .stage 5#3),
    (0xB3009800#32, .chain 6#3), (0xB4000087#32, .cmit 135#8), (0xB50000E0#32, .cdisc 224#8),
    (0xB6AA0700#32, .qcfg 10#4 (.v 7#7)), (0xB798D900#32, .cstat 24#5 (.k 25#6)), (0xB800EC2C#32, .wfree (.k 44#6) (.v 44#7))] : List (Word × Instr)).all
    (fun x => (decodeWord x.1).toOption == some x.2) = true := by decide

/-- The opcodes 0xC0 to 0xC7. -/
theorem test_decode_graph : ([
    (0xC0009400#32, .gbind 5#3), (0xC1009800#32, .gprog 6#3), (0xC2009400#32, .gmark 5#3), (0xC3009000#32, .gprop 4#3),
    (0xC4009000#32, .gcoll 4#3), (0xC5009000#32, .gclr 4#3), (0xC6000009#32, .gwait 9#4),
    (0xC7D95375#32, .gstat (.k 25#6) (.v 83#7) (.v 117#7))] : List (Word × Instr)).all
    (fun x => (decodeWord x.1).toOption == some x.2) = true := by decide

/-- The opcodes 0xC8 to 0xCF. -/
theorem test_decode_bank : ([
    (0xC8009400#32, .bexec 5#3), (0xC9009400#32, .rowop 5#3), (0xCA070000#32, .bpage 7#3)] : List (Word × Instr)).all
    (fun x => (decodeWord x.1).toOption == some x.2) = true := by decide

/-- The opcodes 0xD0 to 0xFF. -/
theorem test_decode_system : ([
    (0xD0000000#32, .tret), (0xD195F57F#32, .rdsys (.s 21#5) 62847#16), (0xD295E308#32, .wrsys (.s 21#5) 58120#16),
    (0xD3072C00#32, .ptest (.v 7#7) (.v 44#7)), (0xD4B50000#32, .pclr (.p 5#3)), (0xD5000000#32, .sigck)] : List (Word × Instr)).all
    (fun x => (decodeWord x.1).toOption == some x.2) = true := by decide
/-- A reserved opcode and a word with an unused field set are refused, each by its name (R52, R53). -/
theorem test_decode_refuses : decodeWord 0x0E000000#32 = .error (.reservedOpcode 0x0E#8)
    ∧ decodeWord 0x0D000001#32 = .error (.unusedField 0x0D#8) := ⟨rfl, rfl⟩

/-- The bytes of a word lie lowest first (R5, R32): add v3, v1, v2. -/
theorem test_decode_bytes : decodeBytes [0x02#8, 0x01#8, 0x03#8, 0x20#8, 0xAA#8] = .ok (.add (.v 3#7) (.v 1#7) (.v 2#7), [0xAA#8]) :=
  rfl

/-- The host's numbering: the word as a number, bit 0 the lowest. -/
theorem test_decode_table : decodeTableWord 32 0x20030102 = some (.add (.v 3#7) (.v 1#7) (.v 2#7)) := rfl

/-! ## Well-formed words: a term for each check of R36's check 6 that the check refuses. -/

/-- An operand kind that its position does not admit (R38); p0 as a destination (R38); a scalar destination over a per-lane source
(R38); then one term for each encoding limit an entry states. -/
theorem test_wellFormed_refuses : [
    Instr.mov (.k 1#6) (.v 1#7), .add (.v 3#7) (.q 0#4) (.v 1#7), .dotk (.v 1#7) (.v 2#7) (.s 4#5), .jmpr (.v 1#7),
    .cmpeq (.p 0#3) (.v 1#7) (.v 2#7), .pset (.p 0#3) (.s 1#5),
    .add (.s 3#5) (.v 1#7) (.s 1#5), .mov (.s 1#5) (.p 1#3),
    .brc 1#3 0#10 4#11, .bru 1#3 3#2 4#19, .modei 0#8 256#16, .modei 1#8 8#16, .modei 2#8 14#16, .modei 3#8 5#16, .modei 4#8 64#16,
    .modei 5#8 0#16, .rdsp (.v 1#7) 23#16, .rdsp (.s 1#5) 2#16, .rdsp (.v 1#7) 17#16, .wrsp (.s 1#5) 18#16,
    .retag (.v 1#7) (.v 2#7) (.k 13#6), .dotk (.v 1#7) (.v 3#7) (.v 4#7), .qswp (.v 1#7) (.v 2#7) (.k 0#6),
    .qswp (.v 1#7) (.v 2#7) (.k 4#6), .qred (.v 1#7) (.v 2#7) (.k 6#6), .redx (.v 1#7) (.v 2#7) (.k 6#6),
    .scanx (.v 1#7) (.v 2#7) (.k 6#6), .shfx (.v 1#7) (.v 2#7) (.k 0#6), .shfu (.v 1#7) (.v 2#7) (.k 6#6),
    .shfd (.v 1#7) (.v 2#7) (.k 0#6), .vote (.s 1#5) (.v 2#7) (.k 4#6), .mov (.p 1#3) (.q 1#4), .ldq (.v 2#7) (.v 1#7) 0#3 0#5,
    .stq (.s 2#5) (.v 1#7) 0#3 0#5, .cas (.v 1#7) (.v 2#7) 0#3 0#5, .fence 6#3, .bara 1#1 0#2 8#4, .barw 1#1 0#2 8#4,
    .bars 1#1 0#2 8#4, .barinit (.s 1#5) 1#1 0#2 8#4, .gstat (.v 1#7) (.s 1#5) (.s 2#5)].all (fun i => !WellFormed i) = true := by
  decide

/-- Their neighbours inside each limit pass, and so does every event. -/
theorem test_wellFormed_accepts : [
    Instr.mov (.v 1#7) (.k 1#6), .add (.v 3#7) (.s 0#5) (.v 1#7), .dotk (.v 1#7) (.v 2#7) (.v 4#7), .cmpeq (.p 1#3) (.v 1#7) (.v 2#7),
    .add (.s 3#5) (.k 1#6) (.s 1#5), .brc 1#3 1#10 4#11, .bru 1#3 2#2 4#19, .modei 0#8 255#16, .modei 1#8 7#16, .modei 2#8 13#16,
    .modei 3#8 4#16, .modei 4#8 63#16, .rdsp (.v 1#7) 2#16, .rdsp (.s 1#5) 17#16, .wrsp (.s 1#5) 21#16,
    .retag (.v 1#7) (.v 2#7) (.k 12#6), .retag (.v 1#7) (.v 2#7) (.k 15#6), .qswp (.v 1#7) (.v 2#7) (.k 3#6),
    .qred (.v 1#7) (.v 2#7) (.k 5#6), .shfx (.v 1#7) (.v 2#7) (.k 5#6), .vote (.s 1#5) (.v 2#7) (.k 3#6), .mov (.s 1#5) (.q 1#4),
    .ldq (.v 4#7) (.v 1#7) 0#3 0#5, .cas (.v 2#7) (.v 1#7) 0#3 0#5, .fence 5#3, .bara 1#1 0#2 7#4, .bara 0#1 0#2 15#4,
    .gstat (.v 1#7) (.s 1#5) (.v 0#7), .dieFailure 0, .spdmMeasurements].all WellFormed = true := by
  decide

/-! ## Small states. -/

/-- A group on core 0 with 128 v registers, its fragment in slot 0 at its code's start, full mask, a handler at code offset 64. -/
def grp : Grp :=
  { uid := 1, gang := 2, launch := 3, book := { code := 0x10000, codeLen := 256, regs := 128, handler := 0x40#32, scratch := 4096 }
    slot0 := { mask := BitVec.allOnes 32, st := .ready, busy := true } }

/-- A scene of two body words of that group at its first body word: effective type e, guard p of number gp, the registers as f
leaves them. -/
def scene (e gp : Nat) (f : Grp → Grp) : State :=
  { State.reset with
    groups := [grp]
    iss := { live := true, g := f grp, idx := 1, words := [0x01100000#32, 0x0D000000#32, 0x0D000000#32, 0x02000000#32]
             mask := BitVec.allOnes 32, mode := BitVec.ofNat 32 (0x0080_0000 + e * 2048 + gp * 256) } }

/-- The scene with every register at its reset value (tag RAW) and every lane active. -/
def plain (e : Nat) : State := scene e 0 id

/-- What a v register reads as there. -/
def zeros : Val := { tag := some 15 }

/-- Lane l holds l in v1 and 3 in v2; s1 holds 5; p1 is set in the even lanes. -/
def filled (g : Grp) : Grp :=
  (((g.setV 1 { lanes := lanesFrom fun l => BitVec.ofNat 32 l }).setV 2 { lanes := lanesAll 3#32 }).setS 1 { val := 5#32 }).setP 1
    { val := 0x55555555#32 }

theorem atWord (e gp : Nat) (f : Grp → Grp) (i : Instr) (h : legal i = true) (hr : fitsRegs (f grp).book.regs i = true) :
    AtWord (scene e gp f) i := ⟨rfl, rfl, h, hr⟩

/-! ## What the hypotheses of the statements admit. -/

theorem witness_ResultPlaces : (0x80000001#32 : Word) ≠ 0#32 ∧ (0#32 : Word) = 0#32 ∧ (7#3 : BitVec 3) ≠ 0#3 ∧ 31 < 32 := by decide

theorem witness_ResultLeavesRest : Sel.v 127#7 ≠ .v 0#7 ∧ Sel.k 63#6 ≠ .v 127#7 ∧ Sel.p 7#3 ≠ .p 0#3 ∧ Sel.s 31#5 ≠ .s 0#5
    ∧ Sel.t 7#3 ≠ .t 0#3 ∧ ∀ k, Sel.v 0#7 ≠ .q k := by decide

theorem witness_two_I32 : Two (plain tI32) (.v 1#7) (.v 2#7) tI32 zeros zeros := ⟨rfl, rfl, rfl, rfl, rfl⟩

theorem witness_IntegerWordsWrite : setA tI32 = true ∧ setZ tI32 = true ∧ (plain tI32).iss.checkTag tI32 (.v 127#7) = .ok ()
    ∧ (∀ w ∈ integerWords (plain tI32).iss.mode tI32 (.v 127#7) (.v 1#7) (.v 2#7), AtWord (plain tI32) w.1)
    ∧ AtWord (plain tI32) (.mulhi (.v 127#7) (.v 1#7) (.v 2#7)) ∧ AtWord (plain tI32) (.mad (.v 127#7) (.v 1#7) (.v 2#7))
    ∧ AtWord (plain tI32) (.sad (.v 127#7) (.v 1#7) (.v 2#7)) := by
  refine ⟨rfl, rfl, rfl, fun w hw => ?_, atWord _ _ _ _ rfl rfl, atWord _ _ _ _ rfl rfl, atWord _ _ _ _ rfl rfl⟩
  simp only [integerWords, List.mem_cons, List.not_mem_nil, or_false] at hw
  rcases hw with rfl | rfl | rfl | rfl | rfl | rfl <;> exact atWord _ _ _ _ rfl rfl

/-- The accumulator types of sad: FX32, the signed types, the unsigned ones. -/
theorem witness_sad_types : setA tFX = true ∧ setA tI8 = true ∧ setA tN8 = true := by decide

theorem witness_RangeRule : setA tI8 = true ∧ minOf tI8 ≤ 127 ∧ (127 : Int) ≤ maxOf tI8 ∧ (-129 : Int) < minOf tI8
    ∧ maxOf tI8 < (128 : Int) := by decide

theorem witness_twoLoose : TwoLoose (plain tI32) false (.v 1#7) (.v 2#7) tI32 zeros zeros
    ∧ TwoLoose (plain tI32) true (.v 1#7) (.v 2#7) tI32 zeros zeros := ⟨⟨rfl, rfl, rfl, rfl⟩, ⟨rfl, rfl, rfl, rfl⟩⟩

theorem witness_LogicWordsWrite : setAny tI32 = true
    ∧ (∀ w ∈ logicWords (.v 127#7) (.v 1#7) (.v 2#7), AtWord (plain tI32) w.1)
    ∧ AtWord (plain tI32) (.not (.v 3#7) (.v 1#7)) ∧ AtWord (plain tI32) (.sel (.v 3#7) (.v 1#7) (.v 2#7)) := by
  refine ⟨rfl, fun w hw => ?_, atWord _ _ _ _ rfl rfl, atWord _ _ _ _ rfl rfl⟩
  simp only [logicWords, List.mem_cons, List.not_mem_nil, or_false] at hw
  rcases hw with rfl | rfl | rfl | rfl <;> exact atWord _ _ _ _ rfl rfl

theorem witness_ShiftWordsWrite : setA tI32 = true ∧ setW tI32 = true ∧ (plain tI32).iss.checkW (.v 1#7) = .ok ()
    ∧ (∀ w ∈ shiftWords (.v 3#7) (.v 1#7) (.v 2#7), AtWord (plain tI32) w.1)
    ∧ AtWord (plain tI32) (.fshl (.v 3#7) (.v 1#7) (.v 2#7)) ∧ AtWord (plain tI32) (.fshr (.v 3#7) (.v 1#7) (.v 2#7)) := by
  refine ⟨rfl, rfl, rfl, fun w hw => ?_, atWord _ _ _ _ rfl rfl, atWord _ _ _ _ rfl rfl⟩
  simp only [shiftWords, List.mem_cons, List.not_mem_nil, or_false] at hw
  rcases hw with rfl | rfl | rfl | rfl <;> exact atWord _ _ _ _ rfl rfl

theorem witness_Lut3Writes : setAny tI32 = true ∧ AtWord (plain tI32) (.lut3 (.v 3#7) (.v 1#7) (.v 2#7)) :=
  ⟨rfl, atWord _ _ _ _ rfl rfl⟩

theorem witness_one : One (plain tI32) true (.v 1#7) tI32 zeros ∧ One (plain tF32) true (.v 1#7) tF32 zeros :=
  ⟨⟨rfl, rfl, fun _ => rfl, rfl⟩, ⟨rfl, rfl, fun _ => rfl, rfl⟩⟩

theorem witness_BitWordsWrite : setZ tI32 = true ∧ ∀ w ∈ bitWords (.v 3#7) (.v 1#7), AtWord (plain tI32) w.1 := by
  refine ⟨rfl, fun w hw => ?_⟩
  simp only [bitWords, List.mem_cons, List.not_mem_nil, or_false] at hw
  rcases hw with rfl | rfl | rfl | rfl <;> exact atWord _ _ _ _ rfl rfl

theorem witness_BitFieldWordsWrite : setW tI32 = true ∧ (plain tI32).iss.checkTags tI32 [.v 1#7, .v 2#7] = .ok ()
    ∧ (plain tI32).iss.checkTag tI32 (.v 3#7) = .ok () ∧ AtWord (plain tI32) (.bfx (.v 3#7) (.v 1#7) (.v 2#7))
    ∧ AtWord (plain tI32) (.bfi (.v 3#7) (.v 1#7) (.v 2#7)) := ⟨rfl, rfl, rfl, atWord _ _ _ _ rfl rfl, atWord _ _ _ _ rfl rfl⟩

theorem witness_CompareWordsWrite : Two (plain tF32) (.v 1#7) (.v 2#7) tF32 zeros zeros
    ∧ (∀ w ∈ compareWords (plain tI32).iss.fm tI32 (.p 7#3) (.v 1#7) (.v 2#7), AtWord (plain tI32) w.1)
    ∧ ((compareWords (plain tI32).iss.fm tI32 (.p 7#3) (.v 1#7) (.v 2#7)).map fun w => w.2.1)
        = [true, true, true, true, false, false, false, false]
    ∧ ((compareWords (plain tF32).iss.fm tF32 (.p 7#3) (.v 1#7) (.v 2#7)).map fun w => w.2.1)
        = [false, false, false, false, true, true, true, true] := by
  refine ⟨⟨rfl, rfl, rfl, rfl, rfl⟩, fun w hw => ?_, rfl, rfl⟩
  simp only [compareWords, List.mem_cons, List.not_mem_nil, or_false] at hw
  rcases hw with rfl | rfl | rfl | rfl | rfl | rfl | rfl | rfl <;> exact atWord _ _ _ _ rfl rfl

theorem witness_guardClean : GuardClean (plain tI32) ∧ GuardClean (scene tI32 1 filled) ∧ acting (scene tI32 1 filled) = 0x55555555#32
    ∧ acting (scene tI32 2 filled) = 0#32 := ⟨rfl, rfl, rfl, rfl⟩

theorem witness_PredicateWordsWrite : (plain tI32).iss.count (.k 32#6) = .ok { lanes := lanesAll 32#32 }
    ∧ kindOf (.v 127#7) ≠ .s ∧ acting (plain tI32) ≠ 0#32
    ∧ (∀ i ∈ [Instr.pset (.p 1#3) (.k 32#6), .pmask (.p 7#3) (.k 32#6), .pget (.s 31#5) (.p 1#3), .pand (.p 1#3) (.p 0#3) (.p 7#3),
        .por (.p 1#3) (.p 0#3) (.p 7#3), .pxor (.p 1#3) (.p 0#3) (.p 7#3), .pnot (.p 1#3) (.p 7#3), .ptest (.p 1#3) (.v 127#7),
        .ptest (.s 31#5) (.v 127#7), .pclr (.v 127#7), .pclr (.s 31#5)], AtWord (plain tI32) i) := by
  refine ⟨rfl, by decide, by decide, fun i hi => ?_⟩
  simp only [List.mem_cons, List.not_mem_nil, or_false] at hi
  rcases hi with rfl | rfl | rfl | rfl | rfl | rfl | rfl | rfl | rfl | rfl | rfl <;> exact atWord _ _ _ _ rfl rfl


/-! ## One step: the spec's worked cases. -/

/-- Lane 31 of v3 after a word d = v3, a = v1, b = v2 under type e and further fields of MODE; v1, v2 and v3 hold a, b and d in every
lane, v1 with a tag. -/
def workedTag (tag : BitVec 4) (e mode : Nat) (i : Sel → Sel → Sel → Instr) (a b d : Word) : Option Word :=
  let f (g : Grp) : Grp := ((g.setV 1 { lanes := lanesAll a, tag := tag }).setV 2 { lanes := lanesAll b }).setV 3 { lanes := lanesAll d }
  let s := scene e 0 f
  match exec (i (.v 3#7) (.v 1#7) (.v 2#7)) { s with iss := { s.iss with mode := s.iss.mode + BitVec.ofNat 32 mode } } with
  | .next t => some (laneAt (t.iss.g.vreg 3).lanes 31)
  | _ => none

/-- The same with tag RAW. -/
def worked : (e mode : Nat) → (i : Sel → Sel → Sel → Instr) → (a b d : Word) → Option Word := workedTag 15#4

/-- MODE.SAT, FTZ, and the rounding modes toward zero, up and ties away (R43). -/
def sat : Nat := 2 ^ 18
def ftz : Nat := 2 ^ 19
def rtz : Nat := 2 ^ 15
def rup : Nat := 3 * 2 ^ 15
def rna : Nat := 4 * 2 ^ 15

/-- R109's table: the packed sums 0, -129, 2 and 128, wrapped and saturated; R69's table, and 3 - 5 as N32; mulhi. -/
theorem test_arithmetic :
    worked tI8 0 .add 0x7F0180FF#32 0x0101FF01#32 0#32 = some 0x80027F00#32
    ∧ worked tI8 sat .add 0x7F0180FF#32 0x0101FF01#32 0#32 = some 0x7F028000#32
    ∧ worked tFX 0 .add 0x7FFF0000#32 0x00010000#32 0#32 = some 0x80000000#32
    ∧ worked tFX sat .add 0x7FFF0000#32 0x00010000#32 0#32 = some 0x7FFFFFFF#32
    ∧ worked tFX 0 .mul 1#32 0x8000#32 0#32 = some 0#32 ∧ worked tFX rna .mul 1#32 0x8000#32 0#32 = some 1#32
    ∧ worked tFX rup .mul 1#32 0x8000#32 0#32 = some 1#32
    ∧ worked tN32 0 .sub 3#32 5#32 0#32 = some 0xFFFFFFFE#32 ∧ worked tN32 sat .sub 3#32 5#32 0#32 = some 0#32
    ∧ worked tI32 0 .mulhi 0x80000000#32 0x80000000#32 0#32 = some 0x40000000#32
    ∧ worked tN32 0 .mulhi 0xFFFFFFFF#32 0xFFFFFFFF#32 0#32 = some 0xFFFFFFFE#32 := by
  decide +kernel
/-- The worked cases of R109 to R112 (lut3: the majority of three inputs) and of R115. -/
theorem test_bits :
    worked tN8 0 (fun d a _ => .clz d a) 0x00018000#32 0#32 0#32 = some 0x08070008#32
    ∧ worked tN8 0 (fun d a _ => .ffs d a) 0x00018000#32 0#32 0#32 = some 0x08000708#32
    ∧ worked tN8 0 (fun d a _ => .popc d a) 0x00018000#32 0#32 0#32 = some 0x00010100#32
    ∧ worked tI16 0 .sar 0x80007FFF#32 17#32 0#32 = some 0xC0003FFF#32
    ∧ worked tI32 0 .fshl 0x9ABCDEF0#32 8#32 0x12345678#32 = some 0x3456789A#32
    ∧ worked tI32 0 .fshr 0x9ABCDEF0#32 8#32 0x12345678#32 = some 0xF0123456#32
    ∧ worked tI32 0xE8 .lut3 0xA#32 0x6#32 0xC#32 = some 0xE#32
    ∧ worked tI32 0 .bfx 0xDEADBEEF#32 0x0C08#32 0#32 = some 0xFFFFFDBE#32
    ∧ worked tN32 0 .bfx 0xDEADBEEF#32 0x0C08#32 0#32 = some 0x00000DBE#32
    ∧ worked tI32 0 .bfi 0xF#32 0x081C#32 0#32 = some 0xF0000000#32
    ∧ worked tN8 0 .sad 0x0A141E28#32 0x14141414#32 100#32 = some 140#32 := by
  decide +kernel
/-- R122's case, the sign of a NaN; R124's table, -2.5 in each of three rounding modes, and its fraction; R125's case, F32 to BF16x2;
R126's case, 1 * 2 + 3 * 1 + 0.5; R129's case, 1.5 with n = -150. -/
theorem test_floats :
    worked tE4M3 0 (fun d a _ => .fabs d a) 0xFF#32 0#32 0#32 = some 0x7F#32
    ∧ worked tF32 0 (fun d a _ => .rnd d a) 0xC0200000#32 0#32 0#32 = some 0xC0000000#32
    ∧ worked tF32 rup (fun d a _ => .rnd d a) 0xC0200000#32 0#32 0#32 = some 0xC0000000#32
    ∧ worked tF32 rna (fun d a _ => .rnd d a) 0xC0200000#32 0#32 0#32 = some 0xC0400000#32
    ∧ worked tF32 0 (fun d a _ => .frac d a) 0xC0200000#32 0#32 0#32 = some 0xBF000000#32
    ∧ workedTag 2#4 tBF16 0 (fun d a _ => .cvt d a) 0x3F808000#32 0#32 0#32 = some 0x00003F80#32
    ∧ worked tBF16 0 .dot2 0x40403F80#32 0x3F804000#32 0x3F000000#32 = some 0x40B00000#32
    ∧ worked tF32 0 .ldexp 0x3FC00000#32 0xFFFFFF6A#32 0#32 = some 1#32
    ∧ worked tF32 rtz .ldexp 0x3FC00000#32 0xFFFFFF6A#32 0#32 = some 0#32
    ∧ worked tF32 ftz .ldexp 0x3FC00000#32 0xFFFFFF6A#32 0#32 = some 0#32 := by
  decide +kernel

/-- The lanes of p3 set after a compare of v1 and v2. -/
def compared (e : Nat) (i : Sel → Sel → Sel → Instr) (a b : Word) : Option Word :=
  let f (g : Grp) : Grp := (g.setV 1 { lanes := lanesAll a }).setV 2 { lanes := lanesAll b }
  match exec (i (.p 3#3) (.v 1#7) (.v 2#7)) (scene e 0 f) with
  | .next t => some (t.iss.g.preg 3).val
  | _ => none

/-- R113's case, one element equal and one not; a sign. -/
theorem test_compares :
    compared tI16 .cmpeq 0x00050003#32 0x00050004#32 = some 0#32
    ∧ compared tI16 .cmpne 0x00050003#32 0x00050004#32 = some 0#32
    ∧ compared tI32 .cmplt 0x80000000#32 0#32 = some 0xFFFFFFFF#32
    ∧ compared tN32 .cmplt 0x80000000#32 0#32 = some 0#32 := by
  decide +kernel

/-- s2 after a word. -/
def scalarAfter (i : Instr) (f : Grp → Grp) : Option Word :=
  match exec i (scene tI32 0 f) with
  | .next t => some (t.iss.g.sreg 2).val
  | _ => none

/-- R100's case: the F32 value nearest pi in two words. -/
theorem test_immediates :
    scalarAfter (.ldi (.s 2#5) 0x0FDB#16) id = some 0x0FDB#32 ∧ scalarAfter (.ldi (.s 2#5) 0x8000#16) id = some 0xFFFF8000#32
    ∧ scalarAfter (.ldhi (.s 2#5) 0x4049#16) (fun g => g.setS 2 { val := 0x0FDB#32 }) = some 0x40490FDB#32 := by
  decide +kernel

/-- v3 of lane l after a word with b a constant, under type e, further fields of MODE and a guard that holds in some lanes. -/
def guarded (e mode : Nat) (m : Word) (a : Nat → Word) (i : Sel → Sel → Sel → Instr) (b : BitVec 6) (l : Nat) : Option Word :=
  let f (g : Grp) : Grp := (g.setV 1 { lanes := lanesFrom a }).setP 1 { val := m }
  let s := scene e 1 f
  match exec (i (.v 3#7) (.v 1#7) (.k b)) { s with iss := { s.iss with mode := s.iss.mode + BitVec.ofNat 32 mode } } with
  | .next t => some (laneAt (t.iss.g.vreg 3).lanes l)
  | _ => none

/-- R131's case, three lanes of a quad active with HLP clear; R71, R72: one lane combined, a NaN with a payload and a subnormal under FTZ. -/
theorem test_reductions :
    guarded tI32 0 0x7#32 (fun l => BitVec.ofNat 32 (10 * (l + 1))) .qred 0#6 2 = some 60#32
    ∧ guarded tF32 0 0x80#32 (fun _ => 0xFF812345#32) .redx 0#6 7 = some 0x7FC00000#32
    ∧ guarded tF32 ftz 0x80#32 (fun _ => 1#32) .redx 2#6 7 = some 0#32 := by
  decide +kernel
/-- R39, R100, R102: words of a per-lane result push. R131, R132: no predicate counts lanes. -/
theorem test_push_forms : legal (.ldhi (.q 15#4) 1#16) = true ∧ legal (.rdsp (.q 3#4) 0#16) = true
    ∧ legal (.qshf (.v 3#7) (.v 1#7) (.p 1#3)) = false ∧ legal (.shfi (.v 3#7) (.v 1#7) (.p 1#3)) = false := by decide
theorem witness_MoveWordsWrite : kindOf (.v 1#7) ≠ .q ∧ (plain tI32).iss.etype (.v 1#7) = .ok tI32
    ∧ (plain tI32).iss.src tI32 (.v 1#7) = .ok zeros ∧ kindOf (.q 15#4) = .q
    ∧ (plain tI32).iss.count (.k 12#6) = .ok { lanes := lanesAll 12#32 } ∧ (plain tI32).iss.count (.k 15#6) = .ok { lanes := lanesAll 15#32 }
    ∧ (scene tI32 0 fun g => g.setS 1 { val := 0x00FA_6800#32 }).iss.count (.s 1#5)
        = .ok { lanes := lanesAll 0x00FA_6800#32 }
    ∧ (allPois false = 0#32 ∧ 0x00FA_6800 < 2 ^ 24 ∧ bits 0x00FA_6800#32 14 11 < 14 ∧ bits 0x00FA_6800#32 17 15 < 5)
    ∧ (∀ i ∈ [Instr.nop, .ldi (.v 127#7) 0xFFFF#16, .ldhi (.v 127#7) 0xFFFF#16, .ldhi (.q 15#4) 0xFFFF#16, .mov (.v 127#7) (.v 1#7), .mov (.v 127#7) (.q 15#4),
        .rdtag (.v 127#7) (.v 1#7), .retag (.v 127#7) (.v 1#7) (.k 12#6), .retag (.v 127#7) (.v 1#7) (.k 15#6), .modei 4#8 63#16,
        .rdsp (.v 127#7) 0#16, .rdsp (.v 127#7) 22#16, .mode (.k 1#6)], AtWord (plain tI32) i)
    ∧ AtWord (scene tI32 0 fun g => g.setS 1 { val := 0x00FA_6800#32 }) (.mode (.s 1#5)) := by
  refine ⟨by decide, rfl, rfl, rfl, rfl, rfl, rfl, by decide, fun i hi => ?_, atWord _ _ _ _ rfl rfl⟩
  simp only [List.mem_cons, List.not_mem_nil, or_false] at hi
  rcases hi with rfl | rfl | rfl | rfl | rfl | rfl | rfl | rfl | rfl | rfl | rfl | rfl | rfl <;> exact atWord _ _ _ _ rfl rfl

theorem witness_FloatWordsWrite : setF tF32 = true ∧ (plain tF32).iss.checkTag tF32 (.v 127#7) = .ok ()
    ∧ (∀ w ∈ floatWords (plain tF32).iss.fm tF32 (.v 127#7) (.v 1#7) (.v 2#7), AtWord (plain tF32) w.1)
    ∧ AtWord (plain tF32) (.fma (.v 127#7) (.v 1#7) (.v 2#7)) := by
  refine ⟨rfl, rfl, fun w hw => ?_, atWord _ _ _ _ rfl rfl⟩
  simp only [floatWords, List.mem_cons, List.not_mem_nil, or_false] at hw
  rcases hw with rfl | rfl | rfl | rfl | rfl <;> exact atWord _ _ _ _ rfl rfl

theorem witness_FloatUnaryWordsWrite : setFF8 tF32 = true ∧ setF tF32 = true
    ∧ (∀ i ∈ [Instr.fabs (.v 127#7) (.v 1#7), .fneg (.v 127#7) (.v 1#7), .rnd (.v 127#7) (.v 1#7), .frac (.v 127#7) (.v 1#7)],
        AtWord (plain tF32) i)
    ∧ ∀ w ∈ tranWords (.v 127#7) (.v 1#7), AtWord (plain tF32) w.1 := by
  refine ⟨rfl, rfl, fun w hw => ?_, fun w hw => ?_⟩
  · simp only [List.mem_cons, List.not_mem_nil, or_false] at hw
    rcases hw with rfl | rfl | rfl | rfl <;> exact atWord _ _ _ _ rfl rfl
  · simp only [tranWords, List.mem_cons, List.not_mem_nil, or_false] at hw
    rcases hw with rfl | rfl | rfl | rfl | rfl | rfl | rfl | rfl <;> exact atWord _ _ _ _ rfl rfl

/-- Every v register with tag I32, the scene's effective type F32: cvt from I32. -/
def tagged : State := scene tF32 0 fun g => { g with v := Vector.replicate 128 { tag := 0#4 } }

theorem witness_ConversionWordsWrite : GuardClean tagged ∧ tagged.iss.etype (.v 1#7) = .ok tF32
    ∧ (tagged.iss.val (.v 1#7)).tag = some tI32 ∧ tI32 ≠ tRAW ∧ tI32 ≠ tK4 ∧ tF32 ≠ tK4 ∧ AtWord tagged (.cvt (.v 127#7) (.v 1#7))
    ∧ setFF8 tF32 = true ∧ setF tF32 = true ∧ (plain tF32).iss.checkTags tF32 [.v 1#7] = .ok ()
    ∧ (plain tF32).iss.src tF32 (.v 1#7) = .ok zeros ∧ (plain tF32).iss.count (.k 31#6) = .ok { lanes := lanesAll 31#32 }
    ∧ AtWord (plain tF32) (.fclass (.p 1#3) (.v 1#7) (.k 31#6)) ∧ (plain tF32).iss.checkTag tI32 (.v 2#7) = .ok ()
    ∧ (plain tF32).iss.src tI32 (.v 2#7) = .ok zeros ∧ AtWord (plain tF32) (.ldexp (.v 127#7) (.v 1#7) (.v 2#7)) :=
  ⟨rfl, rfl, rfl, by decide, by decide, by decide, atWord _ _ _ _ rfl rfl, rfl, rfl, rfl, rfl, rfl, atWord _ _ _ _ rfl rfl, rfl, rfl,
    atWord _ _ _ _ rfl rfl⟩

theorem witness_DotWordsWrite : Two (plain tBF16) (.v 1#7) (.v 2#7) tBF16 zeros zeros
    ∧ (plain tBF16).iss.checkTag tF32 (.v 3#7) = .ok () ∧ AtWord (plain tBF16) (.dot2 (.v 3#7) (.v 1#7) (.v 2#7))
    ∧ Two (plain tI8) (.v 1#7) (.v 2#7) tI8 zeros zeros ∧ (plain tI8).iss.checkTag tI32 (.v 3#7) = .ok ()
    ∧ AtWord (plain tI8) (.dot4 (.v 3#7) (.v 1#7) (.v 2#7)) ∧ (setFF8 tI8 = false ∧ setFF8 tF32 = true)
    ∧ Two (plain tK4) (.v 126#7) (.v 2#7) tK4 zeros zeros ∧ (plain tK4).iss.checkTag tF32 (.v 3#7) = .ok ()
    ∧ AtWord (plain tK4) (.dotk (.v 3#7) (.v 126#7) (.v 2#7)) :=
  ⟨⟨rfl, rfl, rfl, rfl, rfl⟩, rfl, atWord _ _ _ _ rfl rfl, ⟨rfl, rfl, rfl, rfl, rfl⟩, rfl, atWord _ _ _ _ rfl rfl, ⟨rfl, rfl⟩,
    ⟨rfl, rfl, rfl, rfl, rfl⟩, rfl, atWord _ _ _ _ rfl rfl⟩

theorem witness_ShuffleWordsWrite : TwoLoose (plain tI32) true (.v 1#7) (.k 1#6) tI32 zeros { lanes := lanesAll 1#32 }
    ∧ TwoLoose (plain tI32) true (.v 1#7) (.k 3#6) tI32 zeros { lanes := lanesAll 3#32 }
    ∧ TwoLoose (plain tI32) true (.v 1#7) (.k 5#6) tI32 zeros { lanes := lanesAll 5#32 }
    ∧ (∀ i ∈ [Instr.qshf (.v 3#7) (.v 1#7) (.k 1#6), .qswp (.v 3#7) (.v 1#7) (.k 1#6), .qswp (.v 3#7) (.v 1#7) (.k 3#6),
        .shfi (.v 3#7) (.v 1#7) (.k 1#6), .shfx (.v 3#7) (.v 1#7) (.k 1#6), .shfx (.v 3#7) (.v 1#7) (.k 5#6),
        .shfu (.v 3#7) (.v 1#7) (.k 5#6), .shfd (.v 3#7) (.v 1#7) (.k 5#6), .bcst (.v 3#7) (.v 1#7) (.k 5#6)],
        AtWord (plain tI32) i) := by
  refine ⟨⟨rfl, rfl, rfl, rfl⟩, ⟨rfl, rfl, rfl, rfl⟩, ⟨rfl, rfl, rfl, rfl⟩, fun i hi => ?_⟩
  simp only [List.mem_cons, List.not_mem_nil, or_false] at hi
  rcases hi with rfl | rfl | rfl | rfl | rfl | rfl | rfl | rfl | rfl <;> exact atWord _ _ _ _ rfl rfl

theorem witness_ReductionWordsWrite : TwoLoose (plain tI32) true (.v 1#7) (.k 0#6) tI32 zeros { lanes := lanesAll 0#32 }
    ∧ TwoLoose (plain tI32) true (.v 1#7) (.k 5#6) tI32 zeros { lanes := lanesAll 5#32 }
    ∧ redSet 0 tI32 = true ∧ redSet 5 tI32 = true ∧ (plain tI32).iss.checkTag tI32 (.v 1#7) = .ok () ∧ kindOf (.v 127#7) ≠ .s
    ∧ setA tI32 = true ∧ (1#32 : Word) ≠ 0#32
    ∧ (∀ i ∈ [Instr.redx (.s 31#5) (.v 1#7) (.k 5#6), .redx (.v 127#7) (.v 1#7) (.k 0#6), .scanx (.v 127#7) (.v 1#7) (.k 5#6),
        .qred (.v 127#7) (.v 1#7) (.k 0#6)], AtWord (plain tI32) i) := by
  refine ⟨⟨rfl, rfl, rfl, rfl⟩, ⟨rfl, rfl, rfl, rfl⟩, rfl, rfl, rfl, by decide, rfl, by decide, fun i hi => ?_⟩
  simp only [List.mem_cons, List.not_mem_nil, or_false] at hi
  rcases hi with rfl | rfl | rfl | rfl <;> exact atWord _ _ _ _ rfl rfl

theorem witness_VoteWordsWrite : kindOf (.v 1#7) ≠ .k ∧ (plain tI32).iss.count (.k 3#6) = .ok { lanes := lanesAll 3#32 }
    ∧ kindOf (.k 1#6) = .k ∧ (plain tI32).iss.etype (.k 1#6) = .ok tI32
    ∧ (plain tI32).iss.src tI32 (.k 1#6) = .ok { lanes := lanesAll 1#32 } ∧ (plain tI32).iss.checkTag tI32 (.v 1#7) = .ok ()
    ∧ acting (plain tI32) ≠ 0#32 ∧ acting (scene tI32 2 filled) = 0#32 ∧ kindOf (.p 1#3) ≠ .s
    ∧ AtWord (scene tI32 2 filled) (.elect (.s 31#5))
    ∧ (∀ i ∈ [Instr.ballot (.s 31#5) (.v 1#7), .vote (.s 31#5) (.v 1#7) (.k 3#6), .vote (.p 1#3) (.k 1#6) (.k 3#6),
        .matchLanes (.v 127#7) (.v 1#7), .elect (.s 31#5), .elect (.p 1#3)], AtWord (plain tI32) i) := by
  refine ⟨by decide, rfl, rfl, rfl, rfl, rfl, by decide, rfl, by decide, atWord _ _ _ _ rfl rfl, fun i hi => ?_⟩
  simp only [List.mem_cons, List.not_mem_nil, or_false] at hi
  rcases hi with rfl | rfl | rfl | rfl | rfl | rfl <;> exact atWord _ _ _ _ rfl rfl

theorem witness_AccessWordsCaptured : (plain tI32).iss.count (.v 1#7) = .ok zeros ∧ kindOf (.v 124#7) ≠ .k
    ∧ modeEt (plain tI32).iss.mode ≠ tTAG
    ∧ constLane (modeFtz (plain tI32).iss.mode) (modeEt (plain tI32).iss.mode) 1 = some 1#32
    ∧ (plain tI32).iss.etype (.v 124#7) = .ok tI32 ∧ (plain tN32).iss.etype (.v 124#7) = .ok tN32
    ∧ (plain tI32).iss.checkTags tI32 (Sel.run (.v 124#7) 2) = .ok ()
    ∧ (∀ i ∈ loadWords (.v 124#7) (.v 1#7) 7#3 31#5, AtWord (plain tI32) i)
    ∧ AtWord (plain tI32) (.pfl 1#1 (.v 1#7) 7#3 31#5)
    ∧ (∀ i ∈ storeWords (.v 124#7) (.v 1#7) 7#3 31#5, AtWord (plain tI32) i.1)
    ∧ AtWord (plain tI32) (.stw (.k 1#6) (.v 1#7) 7#3 31#5)
    ∧ (∀ i ∈ atomicWords (.v 124#7) (.v 1#7) 7#3 31#5, AtWord (plain tI32) i.1)
    ∧ AtWord (plain tI32) (.radd (.k 1#6) (.v 1#7) 7#3 31#5) := by
  refine ⟨rfl, by decide, by decide, rfl, rfl, rfl, rfl, fun i hi => ?_, atWord _ _ _ _ rfl rfl, fun i hi => ?_,
    atWord _ _ _ _ rfl rfl, fun i hi => ?_, atWord _ _ _ _ rfl rfl⟩
  · simp only [loadWords, List.mem_cons, List.not_mem_nil, or_false] at hi
    rcases hi with rfl | rfl | rfl | rfl <;> exact atWord _ _ _ _ rfl rfl
  · simp only [storeWords, List.mem_cons, List.not_mem_nil, or_false] at hi
    rcases hi with rfl | rfl | rfl | rfl <;> exact atWord _ _ _ _ rfl rfl
  · simp only [atomicWords, List.mem_cons, List.not_mem_nil, or_false] at hi
    rcases hi with rfl | rfl | rfl | rfl | rfl | rfl | rfl | rfl | rfl | rfl | rfl | rfl <;> exact atWord _ _ _ _ rfl rfl

theorem witness_CommandWordsCaptured : (∀ i ∈ descriptorWords 7#3, AtWord (plain tI32) i)
    ∧ (∀ i ∈ plainCommands 254#8 7#3, AtWord (plain tI32) i)
    ∧ (plain tI32).iss.count (.k 16#6) = .ok { lanes := lanesAll 16#32 } ∧ (1 ≤ 16 ∧ 16 ≤ 1024)
    ∧ (plain tI32).iss.count (.k 15#6) = .ok { lanes := lanesAll 15#32 } ∧ kindOf (.s 31#5) ≠ .v ∧ kindOf (.v 127#7) = .v
    ∧ (∀ i ∈ [Instr.cpy 7#3 0#3 (.k 16#6), .fence 5#3, .barinit (.k 16#6) 1#1 3#2 7#4, .hop 15#4 (.k 16#6), .qcfg 15#4 (.k 16#6),
        .cstat 31#5 (.k 16#6), .wfree (.k 16#6) (.k 15#6), .gstat (.s 31#5) (.k 15#6) (.k 15#6), .gstat (.v 127#7) (.k 15#6) (.v 0#7)],
        AtWord (plain tI32) i) := by
  refine ⟨fun i hi => ?_, fun i hi => ?_, rfl, by decide, rfl, by decide, rfl, fun i hi => ?_⟩
  · simp only [descriptorWords, List.mem_cons, List.not_mem_nil, or_false] at hi
    rcases hi with rfl | rfl | rfl | rfl | rfl | rfl | rfl | rfl | rfl | rfl | rfl <;> exact atWord _ _ _ _ rfl rfl
  · simp only [plainCommands, List.mem_cons, List.not_mem_nil, or_false] at hi
    rcases hi with rfl | rfl | rfl <;> exact atWord _ _ _ _ rfl rfl
  · simp only [List.mem_cons, List.not_mem_nil, or_false] at hi
    rcases hi with rfl | rfl | rfl | rfl | rfl | rfl | rfl | rfl | rfl <;> exact atWord _ _ _ _ rfl rfl

/-- The same scene in a system book, and in a fragment that runs the handler. -/
def inSystem : State := scene tI32 0 fun g => { g with system := true }
def inHandler : State := scene tI32 0 fun g => g.updSlot false fun x => { x with handler := true }

theorem witness_SystemWordsAct : (plain tI32).iss.count (.k 1#6) = .ok { lanes := lanesAll 1#32 }
    ∧ (inHandler.iss.g.slot inHandler.iss.slot).handler = true ∧ AtWord inHandler (.wrsp (.k 1#6) 20#16)
    ∧ AtWord (plain tI32) (.wrsp (.k 1#6) 19#16) ∧ AtWord (plain tI32) .sigck ∧ AtWord (plain tI32) (.winld 7#3 255#8)
    ∧ AtWord (plain tI32) (.winsub 0#3 7#3 (.k 1#6) (.k 1#6)) ∧ inSystem.iss.g.system = true
    ∧ inSystem.readReg inSystem.iss.g.core 0x030 = some 0#32 ∧ AtWord inSystem (.rdsys (.v 127#7) 0x030#16)
    ∧ AtWord inSystem (.wrsys (.k 1#6) 0x018#16) ∧ (plain tI32).iss.g.system = false
    ∧ AtWord (plain tI32) (.rdsys (.v 127#7) 0x030#16) ∧ AtWord (plain tI32) (.wrsys (.k 1#6) 0x018#16) :=
  ⟨rfl, rfl, atWord _ _ _ _ rfl rfl, atWord _ _ _ _ rfl rfl, atWord _ _ _ _ rfl rfl, atWord _ _ _ _ rfl rfl, atWord _ _ _ _ rfl rfl,
    rfl, rfl, atWord _ _ _ _ rfl rfl, atWord _ _ _ _ rfl rfl, rfl, atWord _ _ _ _ rfl rfl, atWord _ _ _ _ rfl rfl⟩

theorem witness_FinalWordsComplete : ((plain tI32).iss.g.sreg 31).val.toNat % 4 = 0 ∧ ((plain tI32).iss.g.sreg 31).pois = false
    ∧ (∀ i ∈ [Instr.jmpr (.s 31#5), .callr (.s 31#5), .exit, .trap 0xFFFF#16, .brk 0xFFFF#16, .yield, .tret, .drain, .cwait 255#8,
        .gwait 15#4, .mwne (.k 1#6) (.k 1#6) 7#3 31#5, .mwge (.k 1#6) (.k 1#6) 7#3 31#5], AtWord (plain tI32) i)
    ∧ AtWord inHandler .tret ∧ ((plain tI32).iss.g.slot (plain tI32).iss.slot).handler = false
    ∧ (∀ w ∈ barrierWords 1#1 3#2 7#4, AtWord (plain tI32) w.1)
    ∧ (plain tI32).iss.comparand (.k 1#6) = .ok 1#32 ∧ (plain tI32).iss.count (.k 1#6) = .ok { lanes := lanesAll 1#32 }
    ∧ modeEt (plain tI32).iss.mode = tI32 ∧ modeEt (plain tN32).iss.mode = tN32
    ∧ (modeEt (plain tF32).iss.mode ≠ tI32 ∧ modeEt (plain tF32).iss.mode ≠ tN32)
    ∧ AtWord (plain tF32) (.mwge (.s 1#5) (.k 1#6) 7#3 31#5) ∧ (plain tF32).iss.comparand (.s 1#5) = .ok 0#32 := by
  refine ⟨rfl, rfl, fun i hi => ?_, atWord _ _ _ _ rfl rfl, rfl, fun i hi => ?_, rfl, rfl, rfl, rfl, by decide,
    atWord _ _ _ _ rfl rfl, rfl⟩
  · simp only [List.mem_cons, List.not_mem_nil, or_false] at hi
    rcases hi with rfl | rfl | rfl | rfl | rfl | rfl | rfl | rfl | rfl | rfl | rfl | rfl <;> exact atWord _ _ _ _ rfl rfl
  · simp only [barrierWords, List.mem_cons, List.not_mem_nil, or_false] at hi
    rcases hi with rfl | rfl | rfl <;> exact atWord _ _ _ _ rfl rfl

/-- A group at the header of a scene of one nop, its code page in the core's TLB. -/
def atHeader : State :=
  { State.reset with
    groups := [fixtureGroup 1 false]
    iss := { g := { uid := 1 } }
    cores := [(0, { partid := 8#32, ptroot := 1#32, tlb := [fixturePage] })]
    mem := writeRun [] 0x10_0000 [0x00#8, 0x00#8, 0x08#8, 0x01#8, 0x00#8, 0x00#8, 0x00#8, 0x0D#8, 0xFF#8, 0xFF#8, 0xFF#8, 0x02#8] }

/-- The three words of that scene. -/
def nopScene : List Word := [0x01080000#32, 0x0D000000#32, 0x02FFFFFF#32]

theorem witness_HeaderStartsScene :
    let g := fixtureGroup 1 false
    let view : State := State.touchTlb { atHeader with iss := {} } g.core g.part [g.book.code + g.slot0.pc.toNat]
    atHeader.iss.live = false ∧ atHeader.grp 1 = some g ∧ g.place = .resident ∧ (g.slot false).st = .ready
      ∧ (g.slot false).hold = .none ∧ (g.slot false).busy = false ∧ (g.slot false).pc.toNat % 4 = 0
      ∧ (g.slot false).pc.toNat < g.book.codeLen ∧ 1 ≤ (1#5).toNat ∧ (1#5).toNat ≤ 24 ∧ g.fence = none
      ∧ (view.codeWords g (g.slot false).mask (g.slot false).pc 3).toOption = some nopScene
      ∧ (checkWords g.book.regs 1 1024 nopScene).toOption = some [.nop]
      ∧ startCheck g 1 (g.slot false).mode [] [.nop] = (none, false) := by
  refine ⟨rfl, rfl, rfl, rfl, rfl, rfl, rfl, by decide, by decide, by decide, rfl, rfl, rfl, rfl⟩

/-- Each framing error of R34: a length of 0, a length of 25, a bit of [18:0], a scene that ends past the code image, a header or
trailer among the body words, a word where the trailer stands that is none; a reserved opcode; a final word before the last. -/
theorem witness_SceneErrorsTrap :
    let op (ws : List Word) (i : Nat) : Nat := (ws.getD i 0#32).toNat / 2 ^ 24
    let good (len : Nat) (ws : List Word) : Prop := op ws 0 = 1 ∧ 1 ≤ len ∧ len ≤ 24 ∧ (ws.headD 0#32).toNat % 2 ^ 19 = 0
    24 < 25 ∧ (0x01080001#32 : Word).toNat % 2 ^ 19 ≠ 0 ∧ (good 1 nopScene ∧ 2 < 1 + 2 ∧ 1 + 2 ≤ 3)
      ∧ (good 2 [0x01100000#32, 0x0D000000#32, 0x02FFFFFF#32, 0x02FFFFFF#32] ∧ 2 + 2 ≤ 4 ∧ 1 ≤ 2 ∧ 2 ≤ 2
        ∧ op [0x01100000#32, 0x0D000000#32, 0x02FFFFFF#32, 0x02FFFFFF#32] 2 = 2
        ∧ ∀ j, 1 ≤ j → j < 2 → op [0x01100000#32, 0x0D000000#32, 0x02FFFFFF#32, 0x02FFFFFF#32] j ≠ 1
            ∧ op [0x01100000#32, 0x0D000000#32, 0x02FFFFFF#32, 0x02FFFFFF#32] j ≠ 2)
      ∧ (good 1 [0x01080000#32, 0x0D000000#32, 0x0D000000#32] ∧ op [0x01080000#32, 0x0D000000#32, 0x0D000000#32] 2 ≠ 2)
      ∧ looseDecode 0x0E000000#32 = none ∧ looseDecode 0x09000000#32 = some .exit ∧ isFinal .exit = true ∧ 1 ≠ 2 := by
  refine ⟨by decide, by decide, by decide, ⟨by decide, by decide, by decide, by decide, by decide, fun j h1 h2 => ?_⟩, by decide,
    rfl, rfl, rfl, by decide⟩
  have : j = 1 := by omega
  subst this; decide

/-- The scene past its body words: only the trailer is left. -/
def atTrailer (final : Final) : State :=
  { plain tI32 with iss := { (plain tI32).iss with idx := 3, final := final } }

theorem alone (f : Final) : Alone (atTrailer f) (atTrailer f).iss grp := ⟨rfl, rfl, rfl, rfl, rfl, rfl, rfl, rfl, rfl, rfl, rfl⟩

theorem witness_SceneEndCommits : (atTrailer .none).iss.live = true ∧ (atTrailer .none).iss.phase = .body
    ∧ (atTrailer .none).iss.ops = [] ∧ (atTrailer .none).iss.final = .none ∧ (atTrailer .yield).iss.final = .yield
    ∧ (atTrailer .none).iss.pause = false ∧ (atTrailer .none).iss.cmp = false
    ∧ (∀ k, (atTrailer .none).gang (atTrailer .none).iss.g.gang = some k → k.place ≠ .evicting)
    ∧ (((atTrailer .none).iss.vmask[127]?).getD 0#32 = 0#32 ∧ 127 < 128 ∧ 31 < 32 ∧ 7 < 8)
    ∧ (grp.slot0.mask = (atTrailer .none).iss.mask ∧ grp.slot0.st ≠ .empty) :=
  ⟨rfl, rfl, rfl, rfl, rfl, rfl, rfl, fun _ h => (by cases h), ⟨rfl, by decide, by decide, by decide⟩, ⟨rfl, by decide⟩⟩

theorem witness_JumpAndCallLink : AtWord (plain tI32) (.jmp 0xFFFFFF#24) ∧ AtWord (plain tI32) (.call 0x7FFFFF#24)
    ∧ Alone (atTrailer (.jump 0x40#32 false)) (atTrailer (.jump 0x40#32 false)).iss grp
    ∧ (atTrailer (.jump 0x40#32 false)).iss.final = .jump 0x40#32 false
    ∧ (atTrailer (.jump 0x40#32 true)).iss.final = .jump 0x40#32 true :=
  ⟨atWord _ _ _ _ rfl rfl, atWord _ _ _ _ rfl rfl, alone _, rfl, rfl⟩

/-- p1 is set in the even lanes, p2 in none, p3 is poisoned in lane 31. -/
def flags (g : Grp) : Grp :=
  { g with p := #v[{}, { val := 0x55555555#32 }, {}, { pois := 0x80000000#32 }, {}, {}, {}, { val := BitVec.allOnes 32 }] }

/-- The trailer of a scene with those predicates. -/
def branchAt (final : Final) : State :=
  { scene tI32 0 flags with iss := { (scene tI32 0 flags).iss with idx := 3, final := final } }

theorem branchAlone (f : Final) : Alone (branchAt f) (branchAt f).iss grp :=
  ⟨rfl, rfl, rfl, rfl, rfl, rfl, rfl, rfl, rfl, rfl, rfl⟩

theorem witness_BruMoves :
    let s := scene tI32 0 flags
    let m := s.iss.mask
    ((s.iss.g.preg 1).pois &&& m = 0#32 ∧ AtWord s (.bru 1#3 0#2 0x7FFFF#19)) ∧ ((s.iss.g.preg 3).pois &&& m ≠ 0#32 ∧ AtWord s (.bru 3#3 2#2 1#19))
      ∧ (s.iss.live = true ∧ s.iss.phase = .body) ∧ Alone (branchAt (.bru 1#3 0#2 0x40#32)) (branchAt (.bru 1#3 0#2 0x40#32)).iss grp
      ∧ ((s.iss.g.preg 1).val &&& m ≠ 0#32 ∧ (s.iss.g.preg 7).val &&& m = m ∧ (s.iss.g.preg 2).val &&& m = 0#32)
      ∧ ((s.iss.g.preg 2).val &&& m = 0#32 ∧ (s.iss.g.preg 1).val &&& m ≠ m) :=
  ⟨⟨rfl, atWord _ _ _ _ rfl rfl⟩, ⟨by decide, atWord _ _ _ _ rfl rfl⟩, ⟨rfl, rfl⟩, branchAlone _, ⟨by decide, rfl, rfl⟩,
    ⟨rfl, by decide⟩⟩

/-- The same scene in a handler; the same scene with 64 entries on the split stack. -/
def branchInHandler : State := scene tI32 0 fun g => (flags g).updSlot false fun x => { x with handler := true }
def branchFull : State := scene tI32 0 fun g =>
  { flags g with stack := List.replicate 64 {}, slot1 := { st := .atJoin } }

theorem witness_BrcSplits :
    let m := (scene tI32 0 flags).iss.mask
    let r := (scene tI32 0 flags).iss.g.preg 1
    AtWord (scene tI32 0 flags) (.brc 1#3 1#10 2#11) ∧ r.pois &&& m = 0#32 ∧ r.val &&& m ≠ 0#32 ∧ r.val &&& m ≠ m
      ∧ ((scene tI32 0 flags).iss.g.slot false).handler = false ∧ ((scene tI32 0 flags).iss.g.slot true).st = .empty
      ∧ AtWord branchInHandler (.brc 1#3 1#10 2#11) ∧ (branchInHandler.iss.g.slot false).handler = true
      ∧ AtWord branchFull (.brc 1#3 1#10 2#11) ∧ (branchFull.iss.g.slot true).st ≠ .empty ∧ branchFull.iss.g.stack.length ≥ 64
      ∧ (branchFull.iss.g.slot false).handler = false
      ∧ AtWord (scene tI32 0 flags) (.brc 3#3 1#10 2#11) ∧ ((scene tI32 0 flags).iss.g.preg 3).pois &&& m ≠ 0#32
      ∧ (Alone (branchAt (.brc 1#3 0x80#32 0x40#32)) (branchAt (.brc 1#3 0x80#32 0x40#32)).iss grp
        ∧ (branchAt .none).iss.pc + BitVec.ofNat 32 (4 * (branchAt .none).iss.words.length) ≠ 0x40#32 ∧ 0x80#32 ≠ 0x40#32)
      ∧ (((branchAt .none).iss.g.preg 2).val &&& m = 0#32 ∧ ((branchAt .none).iss.g.preg 7).val &&& m = m ∧ m ≠ 0#32) :=
  ⟨atWord _ _ _ _ rfl rfl, rfl, by decide, by decide, rfl, rfl, atWord _ _ _ _ rfl rfl, rfl, atWord _ _ _ _ rfl rfl, by decide,
    by decide, rfl, atWord _ _ _ _ rfl rfl, by decide, ⟨branchAlone _, by decide, by decide⟩, ⟨rfl, rfl, by decide⟩⟩

/-- The same trailer of a drain with a WC store of the group that its home has not acknowledged. -/
def undrained : State := { atTrailer .drain with fresh := 10, reqs := [{ id := 9, uid := 1, kind := .store, policy := .wc }] }

theorem witness_TrapWordsAndWaitsApply : Alone (atTrailer (.trapWord 17 0xFFFF#16)) (atTrailer (.trapWord 17 0xFFFF#16)).iss grp
    ∧ (atTrailer (.trapWord 17 0xFFFF#16)).iss.final = .trapWord 17 0xFFFF#16 ∧ (atTrailer .drain).iss.final = .drain
    ∧ ((atTrailer .drain).core (atTrailer .drain).iss.g.core).wc = [] ∧ (atTrailer .drain).drained grp 0 = true
    ∧ Alone undrained undrained.iss grp ∧ undrained.iss.final = .drain ∧ (undrained.core undrained.iss.g.core).wc = []
    ∧ undrained.drained grp undrained.fresh = false :=
  ⟨alone _, rfl, rfl, rfl, rfl, ⟨rfl, rfl, rfl, rfl, rfl, rfl, rfl, rfl, rfl, rfl, rfl⟩, rfl, rfl, rfl⟩

/-- A misaligned access's trap, a translation fault's. -/
def trap6 : Trap := { cls := 6, idx := 31, cause := 31, detail := 65535 }
def trap8 : Trap := { cls := 8, idx := 1, fva := 1#64, finfo := 3#64 }

/-- A core whose TRAPVEC routes nothing. -/
def unrouted : State := { plain tI32 with cores := [(0, { trapvec := 0#32 })] }

theorem witness_TrapEntersHandler : (plain tI32).grp grp.uid = some grp ∧ trap6.dead = false ∧ trap6.cls ≠ 15
    ∧ (grp.slot false).handler = false ∧ (grp.slot true).handler = false ∧ ((plain tI32).core grp.core).trapvec.getLsbD trap6.cls = false
    ∧ trap6.cls < 32 ∧ grp.book.handler ≠ 0xFFFF_FFFF#32 ∧ trap8.cls = 8 ∧ trap8.dead = false
    ∧ unrouted.grp grp.uid = some grp ∧ (unrouted.core grp.core).trapvec.getLsbD 8 = false :=
  ⟨rfl, rfl, by decide, rfl, rfl, rfl, by decide, by decide, rfl, rfl, rfl, rfl⟩

/-- A core whose TRAPVEC routes class 6. -/
def routing : State := { plain tI32 with cores := [(0, { trapvec := 0x140#32 })] }

theorem witness_RoutedTrapParks : routing.grp grp.uid = some grp ∧ trap6.dead = false ∧ trap6.cls ≠ 15
    ∧ (grp.slot false).handler = false ∧ trap6.cls < 32 ∧ (routing.core grp.core).trapvec.getLsbD trap6.cls = true :=
  ⟨rfl, rfl, by decide, rfl, by decide, rfl⟩

/-- The group in its handler, and nothing else of it held. -/
def handling : Grp := { grp with slot0 := { grp.slot0 with handler := true, pc := 0x40#32 }, trapPc := 4#32 }

theorem witness_HandlerReturns : ({ plain tI32 with groups := [handling] } : State).grp handling.uid = some handling
    ∧ (handling.slot true).hold = .none ∧ (handling.slot true).atEnd = false ∧ (handling.slot false).join = 0xFFFF_FFFF#32 :=
  ⟨rfl, rfl, rfl, rfl⟩

/-- A scene whose guard p3 is poisoned in lane 31. -/
theorem witness_BadOperandsTrap :
    let s := scene tI32 3 flags
    s.iss.guard.pois &&& s.iss.mask ≠ 0#32 ∧ s.iss.etype (.v 1#7) = .ok tI32 ∧ s.iss.src tI32 (.v 1#7) = .ok zeros
      ∧ setAny tI32 = true ∧ setA tI32 = true ∧ s.iss.checkTags tI32 [.v 1#7, .v 2#7] = .ok ()
      ∧ (∀ w ∈ logicWords (.v 3#7) (.v 1#7) (.v 2#7), AtWord s w.1)
      ∧ (∀ w ∈ integerWords s.iss.mode tI32 (.v 3#7) (.v 1#7) (.v 2#7), AtWord s w.1) ∧ AtWord s (.ldi (.v 3#7) 1#16)
      ∧ ((scene tF32 3 flags).iss.guard.pois &&& (scene tF32 3 flags).iss.mask ≠ 0#32 ∧ setF tF32 = true
        ∧ Two (plain tF32) (.v 1#7) (.v 2#7) tF32 zeros zeros ∧ (scene tF32 3 flags).iss.checkTags tF32 [.v 1#7, .v 2#7] = .ok ()
        ∧ ∀ w ∈ floatWords (scene tF32 3 flags).iss.fm tF32 (.v 3#7) (.v 1#7) (.v 2#7), AtWord (scene tF32 3 flags) w.1)
      ∧ legal (.add (.v 3#7) (.q 0#4) (.v 1#7)) = false ∧ fitsRegs 16 (.add (.v 16#7) (.v 1#7) (.v 2#7)) = false := by
  refine ⟨by decide, rfl, rfl, rfl, rfl, rfl, fun w hw => ?_, fun w hw => ?_, atWord _ _ _ _ rfl rfl,
    ⟨by decide, rfl, ⟨rfl, rfl, rfl, rfl, rfl⟩, rfl, fun w hw => ?_⟩, rfl, rfl⟩
  · simp only [logicWords, List.mem_cons, List.not_mem_nil, or_false] at hw
    rcases hw with rfl | rfl | rfl | rfl <;> exact atWord _ _ _ _ rfl rfl
  · simp only [integerWords, List.mem_cons, List.not_mem_nil, or_false] at hw
    rcases hw with rfl | rfl | rfl | rfl | rfl | rfl <;> exact atWord _ _ _ _ rfl rfl
  · simp only [floatWords, List.mem_cons, List.not_mem_nil, or_false] at hw
    rcases hw with rfl | rfl | rfl | rfl | rfl <;> exact atWord _ _ _ _ rfl rfl

theorem witness_ResetRegisters : 767 < 768 ∧ 0x030 ∈ [0x002, 0x003, 0x030] ∧ 65535 < 65536 ∧ 0x006 ∉ [0x000, 0x001, 0x005] ∧ 7 < 8 ∧ 255 < 256 := by
  decide

/-- Core 5 holds a group. -/
def busyCore : State := { plain tI32 with groups := [{ grp with core := 5 }] }

theorem witness_ControlCoreStores : 0x012 ∈ [0x004, 0x005, 0x012, 0x013, 0x018, 0x020, 0x022, 0x028]
    ∧ regValueOk (State.reset.marginMax 767) 0x012 0xFFFF#32 = true ∧ (5 < 768 ∧ 0x013 ≠ 0x012 ∧ 0x013 ≠ 0x011)
    ∧ State.reset.coreBusy 767 = false ∧ regValueOk (State.reset.marginMax 767) 0x002 15#32 = true
    ∧ busyCore.coreBusy 5 = true ∧ (3#32 : Word) ≠ 0#32 ∧ regValueOk (State.reset.marginMax 767) 0x012 0#32 = false := by decide

theorem witness_PhysicalMemory : 0x7_FFFF / 0x10000 % 4096 < 8 ∧ 0x7_FFFF < 0x60_0000_0000
    ∧ (∀ i < 4, zeroRow (0x8_0000 + i) = false) ∧ (State.reset.die (homeDie 0x8_0000)).failed = false
    ∧ (List.replicate 32 1#8).length = 32 ∧ 0x8_0000 % 32 = 0 := by decide

theorem witness_MemoryReadsBack : Memory.wf [] = true ∧ Memory.wf [(0, 1#8), (1, 255#8)] = true ∧ 1 < [1#8, 0#8].length
    ∧ Memory.wf [(1, 1#8), (0, 1#8)] = false ∧ Memory.wf [(0, 0#8)] = false := by decide

theorem witness_StepKeepsMemoryForm : Memory.wf (State.reset.withFetchWord 32 0x0D000000).mem = true
    ∧ ∃ t, step (State.reset.withFetchWord 32 0x0D000000) = .next t := ⟨rfl, _, rfl⟩

/-- A nop next in the scene in issue; a fragment at a header chosen to issue; an event on the agenda. -/
def withMoves (ms : List Move) : State := { atHeader with agenda := ms }

theorem witness_StepRunsDecoded : (plain tI32).agenda = [] ∧ (plain tI32).iss.live = true
    ∧ decodeWord ((plain tI32).iss.words.getD (plain tI32).iss.idx 0#32) = .ok .nop
    ∧ (withMoves [.issue 1 false]).agenda = .issue 1 false :: [] ∧ (withMoves [.issue 1 false]).iss.live = false
    ∧ (withMoves [.issue 1 false]).grp 1 = some (fixtureGroup 1 false) ∧ (fixtureGroup 1 false).canIssue false = true
    ∧ (withMoves [.issue 1 false]).heldBack (fixtureGroup 1 false) = false
    ∧ ((fixtureGroup 1 false).slot false).pc.toNat % 4 = 0
    ∧ ((fixtureGroup 1 false).slot false).pc.toNat < (fixtureGroup 1 false).book.codeLen
    ∧ (State.codeWord (State.useImage { withMoves [.issue 1 false] with clk := 1, agenda := [] } 1) (fixtureGroup 1 false)
        ((fixtureGroup 1 false).slot false).mask ((fixtureGroup 1 false).slot false).pc).toOption = some 0x01080000#32
    ∧ decodeWord 0x01080000#32 = .ok (.scene 1#5)
    ∧ (withMoves [.event (.dieFailure 3)]).agenda = .event (.dieFailure 3) :: []
    ∧ (∀ p < 8, ((plain tI32).part p).rebaseLate = true → (State.reset.part p).rebaseLate = true)
    ∧ (∀ k ∈ (plain tI32).gangs, k.place ≠ .evicting) ∧ (∀ g ∈ (plain tI32).groups, g.parking = false) ∧ (∀ k ∈ (plain tI32).tombs, k ∈ State.reset.tombs)
    ∧ 0xFF000000 < 2 ^ 32 ∧ decodeWord (BitVec.ofNat 32 0x0D000000) = .ok .nop ∧ 0x0D000000 / 2 ^ 24 ≠ 1 := by
  refine ⟨rfl, rfl, rfl, rfl, rfl, rfl, rfl, rfl, rfl, by decide, by decide +kernel, rfl, rfl, fun p _ h => ?_, by decide, by decide, by decide, by decide, rfl, by decide⟩
  cases h

theorem witness_DecodeOfEncode : isWord (.add (.v 127#7) (.k 63#6) (.t 7#3)) = true ∧ isWord .nop = true := by decide

theorem witness_EncodeOfDecode : decodeWord 0xD3B20500#32 = .ok (.ptest (.p 2#3) (.v 5#7)) := rfl

/-- The first and the last opcode of each reserved range of R53, and the neighbours that are not reserved. -/
theorem test_reservedOpcodes : [0x00, 0xFF, 0x0E, 0x0F, 0x1B, 0x1F, 0x5C, 0x5F, 0x6E, 0x6F, 0x77, 0x7F, 0x96, 0x9F, 0xA9, 0xAF, 0xB9, 0xBF,
      0xCB, 0xCF, 0xD6, 0xFE].all (fun n => (looseDecode (BitVec.ofNat 32 (n * 2 ^ 24))).isNone) = true
    ∧ [0x01, 0x0D, 0x10, 0x1A, 0x20, 0x5B, 0x60, 0x6D, 0x70, 0x76, 0x80, 0x95, 0xA0, 0xA8, 0xB0, 0xB8, 0xC0, 0xCA, 0xD0, 0xD5].all
      (fun n => (looseDecode (BitVec.ofNat 32 (n * 2 ^ 24))).isSome) = true := by decide

theorem witness_ManualWordsDecode : (0xD0000000#32, Instr.tret) ∈ manualWords := by decide

/-- Core 767 with MAX 5. -/
def stepped : State := { State.reset with cores := [(767, { margin := 0x0500#32 })] }

theorem witness_RegisterEvents : bits 0xF000#32 1 0 = 0 ∧ bits 1#32 1 0 = 1 ∧ bits 2#32 1 0 = 2 ∧ bits 3#32 1 0 = 3
    ∧ bits 5#32 7 0 ≤ bits (stepped.core 767).margin 15 8 ∧ bits (stepped.core 767).margin 15 8 < bits 6#32 7 0
    ∧ 3 < 4 ∧ 0x88 ∉ [0x14, 0x18, 0x2C, 0x48, 0x6C, 0x70, 0x74, 0x78] ∧ bits 0x87FF_FFFF#32 30 27 = 0 ∧ (∀ k < 4, bits 0x1F00_1F1F#32 (8 * k + 7) (8 * k + 5) = 0)
    ∧ (∀ w ∈ State.reset.waves, ¬(w.part = 7 ∧ w.kind ≠ .gbind ∧ (w.st = .queued ∨ w.st = .running))) := by decide

/-- Partition 0 quiesced; torn down; with a shootdown that has settled; with a group parked by a trap. -/
def quietPart (p : PartState) : State := { State.reset with parts := [(0, p)] }
def trapParkedState : State := { State.reset with groups := [{ grp with place := .trapParked, imgSlot := 7, trapInfo := trap6.word }] }

theorem witness_PartitionEvents : (quietPart { quiesce := true }).quiesced 0 = true ∧ State.reset.quiesced 0 = false
    ∧ (quietPart { torn := true, tdown := true }).tdone 0 = true ∧ (quietPart { sd := { busy := true, all := true } }).shootdownSettled 0 = true
    ∧ (trapParkedState.trapParked 0 7).isSome = true ∧ trapParkedState.trapParked 0 8 = none ∧ (State.reset.part 0).quiesce = false
    ∧ (0x8000_0000#32 : Word).getLsbD 31 = true := ⟨rfl, rfl, rfl, rfl, rfl, rfl, rfl, rfl⟩

/-- A margin window that is over, a slice with 15 errors within the hour and one with 16, a tombstone, a core one event below LIMIT. -/
def ageing : State :=
  { State.reset with
    clk := 6840000000000
    dies := [(3, { sliceErrs := [(94, List.replicate 16 1), (95, 0 :: List.replicate 15 1)] })]
    cores := [(767, { ltecnt := 63#32 })]
    tombs := [{ imgSlot := 5, part := 1 }] }

theorem witness_MarginAndFailureEvents : (ageing.core 767).winStart + bits (ageing.core 767).ltewin 19 0 * 1900 ≤ ageing.clk
    ∧ (ageing.clk :: (tget (ageing.die 3).sliceErrs 95 []).filter fun t => decide (ageing.clk < t + 6840000000000)).length ≤ 16
    ∧ 16 < (ageing.clk :: (tget (ageing.die 3).sliceErrs 94 []).filter fun t => decide (ageing.clk < t + 6840000000000)).length
    ∧ 94 ∉ (ageing.die 3).retiring ∧ 7 ∉ (ageing.die 3).linksHalf ∧ 7 ∉ (ageing.die 3).linksFailed
    ∧ ErrKind.store ≠ .writeback ∧ (ageing.tomb 1 5).isSome = true ∧ 767 < 768
    ∧ min (bits (ageing.core 767).ltecnt 15 0 + 1) 65535 ≤ bits (ageing.core 767).ltelim 15 0 := by
  refine ⟨by decide, by decide, by decide, by decide, by decide, by decide, by decide, rfl, by decide, by decide⟩

/-- One request of the group, with one access of 4 bytes at an address. -/
def access (pa : Nat) : Acc := { tgt := .mem pa .coherent, data := 0x1234_5678#128 }
def request (q : Req) : State := { plain tI32 with reqs := [q] }
def pending : Req := { id := 9, uid := 1, accs := [access 0x10_001C], dest := .v 127 1, wins := [(lineOf 0x10_001C, 0)] }
def arrived : Req := { pending with accs := [{ access 0x10_001C with done := true }] }

theorem witness_RequestEvents : (request pending).req 9 = some pending ∧ pending.kind = .load ∧ pending.woken = false
    ∧ tfind pending.wins (lineOf 0x10_001C) = some 0 ∧ 0 ≤ (request pending).clk ∧ tfind pending.sent (lineOf 0x10_001C) = none
    ∧ (request pending).grp pending.uid = some grp
    ∧ (request arrived).req 9 = some arrived ∧ (∀ a ∈ arrived.accs, a.done = true) ∧ arrived.woken = false ∧ arrived.kind = .load
    ∧ (let q : Req := { arrived with woken := true }
       (request q).req 9 = some q ∧ q.kind = .load ∧ (∀ a ∈ q.accs, a.done = true) ∧ q.dest ≠ .none ∧ q.twin = none ∧ (request q).grp q.uid = some grp
         ∧ grp.place ≠ .evicted ∧ grp.place ≠ .trapParked)
    ∧ (let q : Req := { arrived with kind := .store, dest := .none }
       (request q).req 9 = some q ∧ q.kind ≠ .load ∧ q.acked = false ∧ (∀ a ∈ q.accs, a.done = true) ∧ q.kind ≠ .atomic) := by
  refine ⟨rfl, rfl, rfl, rfl, by decide, rfl, rfl, rfl, by decide, rfl, rfl,
    ⟨rfl, rfl, by decide, by decide, rfl, rfl, by decide, by decide⟩, ⟨rfl, by decide, rfl, by decide, by decide⟩⟩

theorem witness_LoadResultLands : 127 < 128 ∧ pending.dest = .v 127 1 ∧ pending.ext = 0 ∧ ({ pending with ext := 8 } : Req).ext = 8
    ∧ ({ pending with ext := 16 } : Req).ext = 16 ∧ 31 < 32 := by decide

/-- The load has been sent, past its copies (NT) or by way of them; a store of 4 bytes at the end of its sector. -/
def sentLoad (p : Policy) : Req := { pending with sent := [(lineOf 0x10_001C, 1)], policy := p }
def lastStore : Req := { pending with kind := .store, dest := .none }

theorem witness_HomeAccessEvents :
    (request (sentLoad .nt)).req 9 = some (sentLoad .nt) ∧ (sentLoad .nt).accs[0]? = some (access 0x10_001C)
      ∧ (request (sentLoad .nt)).grp 1 = some grp ∧ (access 0x10_001C).tgt = .mem 0x10_001C .coherent ∧ (access 0x10_001C).done = false
      ∧ (request (sentLoad .nt)).owned (lineOf 0x10_001C) = false ∧ (request (sentLoad .nt)).mayAct (sentLoad .nt) 0 = true
      ∧ ((request (sentLoad .nt)).die (homeDie 0x10_001C)).failed = false ∧ (sentLoad .nt).policy ≠ .normal ∧ (sentLoad .nt).pre = none ∧ (tfind (sentLoad .nt).sent (lineOf 0x10_001C)).isSome = true
      ∧ (request (sentLoad .nt)).bankHolds 0x10_001C false = false ∧ grp.twin = none
      ∧ (request (sentLoad .normal)).hit grp 0x10_001C 4 .coherent = none
      ∧ (request (sentLoad .normal)).mayAct (sentLoad .normal) 0 = true
      ∧ (request lastStore).req 9 = some lastStore ∧ (request lastStore).mayAct lastStore 0 = true ∧ lastStore.policy ≠ .wc
      ∧ (request lastStore).lineHeld (lineOf 0x10_001C) = false ∧ lastStore.accs = [access 0x10_001C] ∧ 0x10_001C % 32 + 4 ≤ 32
      ∧ zeroRow 0x10_001C = false ∧ (request lastStore).bankHolds 0x10_001C true = false := by
  refine ⟨rfl, rfl, rfl, rfl, rfl, rfl, rfl, rfl, by decide, rfl, rfl, rfl, rfl, rfl, rfl, rfl, rfl, by decide, rfl, rfl, by decide, rfl, rfl⟩

/-- A fragment that waits. -/
def waiting (k : WaitKind) (f : Slot → Slot) : Grp := { grp with slot0 := f { grp.slot0 with st := .waiting, wait := k } }
def withGrp (g : Grp) : State := { plain tI32 with groups := [g] }

/-- R76, R90: the type set comes before a RAW source. R236: a zero row takes no poison mark. -/
theorem test_cvt_type_first : exec (.cvt (.v 3#7) (.v 1#7)) (plain tK4) = .next ((plain tK4).trapScene { cls := 3, idx := 1 }) := rfl
theorem test_zero_row_mark : (State.reset.writeMarked [(0, 1#8, true)]).pois = [] ∧ (State.reset.poisonTarget (.mem 0 .bank)).pois = [] := by
  decide +kernel

/-- The same with the fixture's page in its core's TLB. -/
def mapped (g : Grp) : State := { withGrp g with cores := [(0, { partid := 8#32, ptroot := 1#32, tlb := [fixturePage] })] }

theorem witness_OrderingEvents :
    tfind ({ State.reset with lines := [(0x1000, { rts := 10 })] } : State).lines 0x1000 = some { rts := 10 }
      ∧ (let s : State := { State.reset with clk := 4096, cores := [(767, { wc := [{ uid := 1 }] })] }
         (s.core 767).wc[0]? = some { uid := 1 } ∧ 0 + 4096 ≤ s.clk)
      ∧ (let s := withGrp (waiting .drain id)
         s.grp 1 = some (waiting .drain id) ∧ ((waiting .drain id).slot false).st = .waiting ∧ ((waiting .drain id).slot false).wait = .drain
           ∧ (∀ r ∈ s.reqs, r.placeFor 1 = none ∨ r.kind ≠ .store ∨ r.policy = .normal) ∧ (∀ e ∈ (s.core 0).wc, e.uid ≠ 1)
           ∧ (∀ c ∈ s.cpys, (waiting .drain id).has c.uid = false) ∧ ∀ h ∈ (waiting .drain id).held, h.policy = .normal)
      ∧ (let g := waiting .mwne fun x => { x with watched := true, fired := true, wpa := 0x10_0000 }
         (mapped g).grp 1 = some g ∧ (g.slot false).mwaits = true ∧ (g.slot false).watched = true ∧ (g.slot false).fired = true
           ∧ (mapped g).mwaitReady g (g.slot false) = true)
      ∧ (let g := waiting .mwgeU fun x => { x with wpa := 0x10_0000 }
         (mapped g).grp 1 = some g ∧ (g.slot false).mwaits = true ∧ (g.slot false).watched = false ∧ (g.slot false).due ≤ (mapped g).clk
           ∧ g.place ≠ .evicted ∧ (mapped g).mwaitReady g (g.slot false) = true)
      ∧ (let s : State := { plain tI32 with clk := 256 }
         s.grp 1 = some grp ∧ grp.place = .resident ∧ grp.ptsSince + 256 ≤ s.clk) := by
  refine ⟨rfl, ⟨rfl, by decide⟩, ⟨rfl, rfl, rfl, by decide, by decide, by decide, by decide⟩, ⟨rfl, rfl, rfl, rfl, rfl⟩,
    ⟨rfl, rfl, rfl, by decide, by decide, rfl⟩, ⟨rfl, rfl, by decide⟩⟩

/-- A memory waiter whose page has moved from address 0; a WC sector that may be written, one behind an earlier store to its bytes. -/
theorem witness_OrderingEvents_moved : let g := waiting .mwne fun x => { x with watched := true, fired := true }
    (mapped g).grp 1 = some g ∧ (g.slot false).mwaits = true ∧ (g.slot false).wspace = 0#2
      ∧ ((mapped g).translate g.core g.part g.system (g.slot false).waddr.toNat).toOption.map (·.1) = some 0x10_0000
      ∧ (mapped g).orderedDone 1 = true ∧ (mapped g).owned (lineOf 0x10_0000) = false ∧ (mapped g).bankHolds 0x10_0000 false = false := by
  decide +kernel

def wcStore (id : Nat) (policy : Policy) : Req := { id := id, uid := 1, kind := .store, policy := policy, accs := [{}] }
theorem witness_OrderingEvents_wcReady :
    ({ State.reset with reqs := [wcStore 2 .wc] } : State).wcReady { uid := 1, lanes := [(2, 0)] } = true
      ∧ ({ State.reset with reqs := [wcStore 2 .wc, wcStore 1 .normal] } : State).wcReady { uid := 1, lanes := [(2, 0)] } = false := by decide

/-- A copy that owns a line; a group with an outstanding fence; a fragment held at the header of a scene of one nop. -/
def copying (ls : List Nat) : CopyCmd := { id := 8, uid := 1, owned := ls }
def heldGrp : Grp := { fixtureGroup 1 false with slot0 := { (fixtureGroup 1 false).slot0 with hold := .emptyReg } }
def heldState : State := { atHeader with groups := [heldGrp], iss := {} }

theorem witness_CopyAndFenceEvents :
    (let s : State := { State.reset with cpys := [copying [0x1000]] }
     s.cpys.find? (fun x => x.id == 8) = some (copying [0x1000]) ∧ (copying [0x1000]).retranslate = false ∧ 0x1000 ∈ (copying [0x1000]).owned)
      ∧ (let s : State := { State.reset with cpys := [copying []] }
         s.cpys.find? (fun x => x.id == 8) = some (copying []) ∧ (copying []).owned = [] ∧ (copying []).bytes = [])
      ∧ (let g : Grp := { grp with fence := some 2 }
         (withGrp g).grp 1 = some g ∧ g.fence.isSome = true ∧ (withGrp g).effectsOut g = true ∧ g.slot0.st ≠ .waiting ∧ g.slot1.st ≠ .waiting)
      ∧ (heldState.grp 1 = some heldGrp ∧ (heldGrp.slot false).hold = .emptyReg
         ∧ ∃ ws, heldState.startScene heldGrp (heldGrp.slot false) (match heldState.codeWord heldGrp (heldGrp.slot false).mask
            (heldGrp.slot false).pc with | .ok w => bits w 23 19 | .error _ => 0) = .go ws)
      ∧ (∃ i, ({ plain tI32 with stowed := [(plain tI32).iss] } : State).stowed = i :: [] ∧ i.phase ≠ .check)
      ∧ ∃ i, ({ plain tI32 with stowed := [{ (plain tI32).iss with phase := .check }] } : State).stowed = i :: [] ∧ i.phase = .check := by
  refine ⟨⟨rfl, rfl, by decide⟩, ⟨rfl, rfl, rfl⟩, ⟨rfl, rfl, rfl, by decide, by decide⟩, ⟨rfl, rfl, nopScene, rfl⟩, ⟨_, rfl, by decide⟩, _, rfl, rfl⟩

/-- A sequencer command alone. -/
def command (c : ECmd) : State := { plain tI32 with ecmds := [c] }
def wloading : ECmd := { id := 6, uid := 1, kind := .wload }
def staging : ECmd := { id := 6, uid := 1, kind := .stage, st := .running, computed := true }

/-- A bank command whose lines are written, and a bank in compute mode. -/
def banking : BankCmd := { id := 5, donePa := 0x10_0000, poisoned := true, stopped := true }
def computing : State := { State.reset with clk := 3800, banks := [(4095, { compute := true, waits := [(9, 0, true)] })], bcmds := [banking] }

theorem witness_EngineAndBankEvents :
    ((command wloading).ecmd 6 = some wloading ∧ wloading.kind ≠ .stage ∧ (command wloading).canIssue wloading = true)
      ∧ (let c : ECmd := { wloading with st := .running }
         (command c).ecmd 6 = some c ∧ c.kind = .wload ∧ c.st = .running)
      ∧ (let c : ECmd := { wloading with kind := .wfree, st := .running }
         (command c).ecmd 6 = some c ∧ c.kind = .wfree ∧ c.st = .running)
      ∧ ((command staging).ecmd 6 = some staging ∧ staging.kind = .stage ∧ staging.rehearsal = false ∧ staging.outs = [])
      ∧ (let c : ECmd := { staging with rehearsal := true }
         (command c).ecmd 6 = some c ∧ c.rehearsal = true ∧ c.took = false ∧ c.computed = true)
      ∧ (let c : ECmd := { staging with outs := [{}] }
         (command c).ecmd 6 = some c ∧ c.took = false ∧ c.outs = {} :: [] ∧ (command c).canDeliver c = true)
      ∧ (computing.bcmds.find? (fun b => b.id == 5) = some banking ∧ banking.todo = [] ∧ computing.lineFree (lineOf banking.donePa) = true
         ∧ (computing.die (homeDie banking.donePa)).failed = false ∧ zeroRow banking.donePa = false)
      ∧ ((tget computing.banks 4095 {}).compute = true ∧ (tget computing.banks 4095 {}).waits ≠ []
         ∧ (tget computing.banks 4095 {}).waitFrom + 2 * 1900 ≤ computing.clk)
      ∧ AllCached (command wloading) := by
  refine ⟨⟨rfl, by decide, rfl⟩, ⟨rfl, rfl, rfl⟩, ⟨rfl, rfl, rfl⟩, ⟨rfl, rfl, rfl, rfl⟩, ⟨rfl, rfl, rfl, rfl⟩, ⟨rfl, rfl, rfl, rfl⟩,
    ⟨rfl, rfl, rfl, rfl, rfl⟩, ⟨rfl, by decide, by decide⟩, fun g h => ?_⟩
  rcases List.mem_singleton.1 h with rfl
  rfl

/-- One wave alone. -/
def waving (w : Wave) : State := { plain tI32 with waves := [w] }
/-- A wave whose graph has one frame, at 0x10_0000. -/
def bound (w : Wave) : Wave := { w with id := 9, uid := 1, bind := some { node := { limit := 4096 }, count := 16 } }
def framed (w : Wave) : State := { waving w with plists := [{ part := 0, frames := [some 0x10] }] }

theorem witness_WaveEvents :
    (let w : Wave := { id := 9, kind := .gbind, bind := some {} }
     (waving w).wave 9 = some w ∧ w.st = .path ∧ (waving w).behind w = false ∧ ((waving w).die (w.ctrl / 8)).failed = false)
      ∧ (let w : Wave := { id := 9, kind := .gcoll }
         w.kind ≠ .gbind ∧ w.st = .path ∧ (waving w).behind w = false ∧ ((waving w).die (w.ctrl / 8)).failed = false
           ∧ ((waving w).waves.filter fun x => x.ctrl == w.ctrl && x.st == .queued).length < 16)
      ∧ (let w : Wave := { id := 9, kind := .gclr, st := .queued, nograph := true }
         w.nograph = true ∧ ((waving w).waves.filter fun x => x.ctrl == w.ctrl && x.st == .running).length < 4 ∧ (waving w).rivals w = [])
      ∧ (let w : Wave := { id := 9, kind := .gprop, st := .running, go := true }
         w.st = .running ∧ w.go = true ∧ w.chainOf = [])
      ∧ (let m : Marker := { id := 4, target := 15, value := [1], weight := 7 }
         let w := bound { kind := .gprop, st := .running, hop := 2, msgs := [m] }
         (framed w).wave 9 = some w ∧ w.msgs.find? (fun x => x.id == m.id) = some m ∧ (∀ p ∈ (framed w).pkts, p.id ≠ m.id)
           ∧ ((framed w).nodePa w m.target).toOption = some 0x10_0F00 ∧ (framed w).waveBlocked w [lineOf 0x10_0F00] = none ∧ w.hop ≠ 0
           ∧ ∀ x ∈ (framed w).waves, 9 ∉ x.chainOf)
      ∧ (let w : Wave := { id := 9, outbox := [(4095, [{}])] }
         tget w.outbox 4095 [] ≠ [])
      ∧ (let w : Wave := { id := 9, kind := .gprop, st := .running, units := [(4095, 5)], issued := 2 ^ 63 }
         tfind w.units 4095 = some 5 ∧ w.go = false ∧ (waving w).unitBusy w 4095 = false ∧ (waving w).weightBack 9 = none)
      ∧ (let w : Wave := { id := 9, uid := 1, kind := .gcoll, st := .running, queue := some 15, entries := [1, 2] }
         (waving w).grp w.uid = some grp ∧ w.queue = some 15 ∧ w.lastPush = false ∧ w.emit1 = false ∧ (grp.qbind 15).lost = false
           ∧ grp.place ≠ .ended ∧ ((waving w).queue w.gang w.coreIdx 15).entries.length < 64)
      ∧ 0x1000 ∈ ({ id := 9, snooped := [0x1000] } : Wave).snooped := by
  refine ⟨⟨rfl, rfl, rfl, rfl⟩, ⟨by decide, rfl, rfl, rfl, by decide⟩, ⟨rfl, by decide, rfl⟩, ⟨rfl, rfl, rfl⟩,
    ⟨rfl, rfl, by decide, rfl, rfl, by decide, by decide⟩, (nofun : ([{}] : List Marker) ≠ []), ⟨rfl, rfl, rfl, rfl⟩,
    ⟨rfl, rfl, rfl, rfl, rfl, by decide, by decide⟩, by decide⟩

/-- A packet on its way, in a die whose window is closed or open. -/
def packet : Packet := { id := 7, pa := 0x10_0000, path := [{ die := 3, stage := 2, sw := 15, out := 3 }] }
def fabric (p : Packet) (d : DieState) : State := { State.reset with clk := 121600, pkts := [p], dies := [(3, d)] }
def logged : HomeLog := { id := 2, die := 3, list := [{}, {}], due := 121600 }
def replying (r : Reply) : State := { State.reset with clk := 121600, replies := [r], hlogs := [logged], dies := [(3, { fabstat := 0xFF0000FF#32 })] }

theorem witness_FabricEvents :
    (let s := fabric packet { combwin := 0x108#32 }
     s.pkts.find? (fun x => x.id == 7) = some packet ∧ packet.held = false ∧ s.constReady packet = true ∧ bitOf (s.die 3).combwin 8 = true)
      ∧ (let s := fabric packet {}
         s.constReady packet = true ∧ bitOf (s.die 3).combwin 8 = false ∧ ∀ q ∈ s.pkts, q.held = false)
      ∧ (let p := { packet with held := true, due := 121600 }
         let s := fabric p {}
         s.pkts.find? (fun x => x.id == 7) = some p ∧ p.held = true ∧ p.due ≤ s.clk)
      ∧ (let p := { packet with path := [] }
         let s := fabric p {}
         s.pkts.find? (fun x => x.id == 7) = some p ∧ p.kind = .atomic .add false true ∧ p.path = [] ∧ s.constReady p = true
           ∧ s.lineFree (lineOf p.pa) = true ∧ (s.die (homeDie p.pa)).failed = false ∧ zeroRow p.pa = false ∧ AtomOp.add ≠ .cas ∧ s.bankHolds p.pa true = false)
      ∧ (let r : Reply := { id := 8, home := 2, hi := 1 }
         let s := replying r
         s.replies.find? (fun x => x.id == 8) = some r ∧ r.recover = false
           ∧ s.recs.find? (fun x => x.aId == r.cur && x.n == r.hi - r.lo + 1) = none)
      ∧ (∀ n, let r : Reply := { id := 8, home := 2, hi := 1 }
         let x : Record := { id := 6, n := 2, k := 1, good := n }
         let s : State := { replying r with recs := [x] }
         s.replies.find? (fun x => x.id == 8) = some r ∧ r.recover = false ∧ s.recs.find? (fun x => x.aId == r.cur && x.n == r.hi - r.lo + 1) = some x)
      ∧ (let r : Reply := { id := 8, home := 2, hi := 1, recover := true }
         let s := replying r
         s.replies.find? (fun x => x.id == 8) = some r ∧ r.recover = true ∧ s.hlogs.find? (fun x => x.id == r.home) = some logged)
      ∧ (let x : Record := { id := 6, at_ := { die := 3 }, due := 121600 }
         let s : State := { State.reset with clk := 121600, recs := [x] }
         s.recs.find? (fun y => y.id == 6) = some x ∧ x.due ≤ s.clk)
      ∧ (let s : State := { State.reset with clk := 121600, hlogs := [logged] }
         s.hlogs.find? (fun x => x.id == 2) = some logged ∧ logged.due ≤ s.clk ∧ ∀ r ∈ s.replies, r.home ≠ 2) := by
  refine ⟨⟨rfl, rfl, rfl, rfl⟩, ⟨rfl, rfl, by decide⟩, ⟨rfl, rfl, by decide⟩, ⟨rfl, rfl, rfl, rfl, rfl, rfl, rfl, by decide, rfl⟩,
    ⟨rfl, rfl, rfl⟩, fun n => ⟨rfl, rfl, rfl⟩, ⟨rfl, rfl, rfl⟩, ⟨rfl, by decide⟩, ⟨rfl, by decide, by decide⟩⟩

/-- A launch of one-block gangs in partition 0, which owns cluster 95 with some of its cores quarantined. -/
def launched : Launch := { id := 3, book := { fixtureBook with scratch := 262144 }, ranges := [{ cluster := 95, lo := 0, hi := 1 }] }
def owning (quar : List Nat) : State :=
  { State.reset with
    clk := 95000
    cores := (760, { partid := 8#32 }) :: quar.map fun c => (c, { quar := 1#32 })
    parts := [(0, { ctxlen := 1#32 })] }
def launching (l : Launch) : State := { owning [] with launches := [l] }
/-- Cluster 95 full: core 760 holds a gang with all its scratchpad, which waits, and the others are quarantined. -/
def barGang : Gang := { id := 2, launch := 3, cores := [760] }
def full (l : Launch) : State :=
  { owning [761, 762, 763, 764, 765, 766, 767] with
    launches := [l]
    gangs := [barGang]
    groups := [{ waiting .barrier id with core := 760 }] }

set_option maxRecDepth 4096 in
theorem witness_LaunchEvents :
    (let l := { launched with waiting := true }
     (launching l).launch 3 = some l ∧ l.waiting = true ∧ (launching l).predsOpen l.part l.book = false
         ∧ (({ owning [] with parts := [(0, { completed := [(2#64, 7, 9)] })] } : State).predResult l.part { l.book with pred1 := 2#64 }).1 = true)
      ∧ (let s := launching launched
         s.launch 3 = some launched ∧ launched.nextGang 95 = some (0, 0, 1) ∧ launched.ending = false ∧ launched.waiting = false
           ∧ (s.part 0).quiesce = false ∧ (s.part 0).torn = false ∧ 95 ∈ s.partClusters 0 ∧ s.outranked 95 launched = false
           ∧ launched.book.understudied 0 = false ∧ s.roomAt 95 launched.book 760 = true
           ∧ s.newImages 0 launched.book 1 = some ([720896], [0]) ∧ s.killSettled 3 0 = true
         ∧ { launched with again := [(0, 1, 5)] }.nextGang 95 = some (0, 1, 5))
      ∧ (let v : Range := { cluster := 0, lo := 1, hi := 4 }
         let l := { launched with ranges := [v, { cluster := 95, lo := 1, hi := 1 }] }
         let s := launching l
         l.stealVictim 95 = some v ∧ (∀ r ∈ l.ranges, r.cluster ≠ 95 ∨ r.hi ≤ r.lo) ∧ l.again = [] ∧ 95 ∈ s.partClusters 0
           ∧ s.fitsBut [] 95 l.book = true)
      ∧ (let l := { launched with ranges := [] }
         (launching l).launch 3 = some l ∧ l.complete = false ∧ l.held = false ∧ (launching l).launchOver l = true
           ∧ (launching l).launchQuiet l.id = true
         ∧ (launching l).recordFree l = true)
      ∧ (let l := { launched with held := true }
         l.held = true ∧ l.complete = false ∧ (launching l).recordFree l = true)
      ∧ (let s := full launched
         s.launch 3 = some launched ∧ barGang ∈ s.gangs ∧ barGang.place = .placed ∧ s.gangWaits barGang = true
           ∧ (∀ h ∈ s.gangs, h.launch = 3 → h = barGang) ∧ launched.ranges = [{ cluster := 95, lo := 0, hi := 1 }]
           ∧ s.partClusters 0 = [95] ∧ s.fitsBut [] 95 launched.book = false ∧ launched.lastPlaced + 50 * 1900 ≤ s.clk)
      ∧ (let s : State := { State.reset with
           clk := 1900, mem := [(0x10_0008, 16#8), (0x10_000A, 1#8)]
           parts := [(0, { cbtablo := 0x10_0000#32, rings := [(0, { unsignalled := 1 })] })] }
         (s.ringDesc 0 0).valid = true ∧ (s.ringDesc 0 0).age ≠ 0 ∧ 0 < (tget (s.part 0).rings 0 {}).unsignalled
           ∧ (tget (s.part 0).rings 0 {}).oldest + (s.ringDesc 0 0).age * 1900 ≤ s.clk) := by
  refine ⟨⟨rfl, rfl, rfl, by decide⟩, ⟨rfl, rfl, rfl, rfl, rfl, rfl, by decide, rfl, rfl, rfl, by decide +kernel, by decide, rfl⟩, ⟨rfl, by decide, rfl, by decide, rfl⟩,
    ⟨rfl, rfl, rfl, rfl, by decide +kernel, by decide +kernel⟩, ⟨rfl, rfl, by decide +kernel⟩, ⟨rfl, List.mem_singleton.2 rfl, rfl, rfl, fun h hh _ => List.mem_singleton.1 hh, rfl, rfl, rfl, by decide⟩,
    ⟨rfl, by decide, by decide, by decide⟩⟩

/-- The tables of both stages for the first GiB: three levels each, the second stage's at 0x18_0000, the first stage's at 0x18_3000. -/
def walkCells : Memory :=
  [(0x18_0000, 0x01#8), (0x18_0001, 0x10#8), (0x18_0002, 0x18#8), (0x18_1000, 0x01#8), (0x18_1001, 0x20#8), (0x18_1002, 0x18#8),
   (0x18_2000, 0x03#8),
   (0x18_3000, 0x01#8), (0x18_3001, 0x40#8), (0x18_3002, 0x18#8), (0x18_4000, 0x01#8), (0x18_4001, 0x50#8), (0x18_4002, 0x18#8),
   (0x18_5000, 0x23#8)]

/-- Partition 0 with those tables, a launch queue with one record, and a callboard ring. -/
def tables : State :=
  { State.reset with
    cores := [(760, { partid := 8#32 })]
    parts := [(0, { agentRoot := 0x180#32, s1root := 0x183#32, qtablo := 0x14_0000#32, cbtablo := 0x14_8000#32 })]
    mem := [(0x14_0002, 0x15#8), (0x14_0008, 0x01#8), (0x14_0009, 0x80#8), (0x14_0012, 0x16#8), (0x14_0018, 0x40#8), (0x14_001A, 0x16#8),
      (0x14_8008, 0x01#8),
      (0x15_0000, 0x01#8), (0x15_000A, 0x17#8), (0x15_0011, 0x01#8), (0x15_0014, 0x01#8), (0x15_0018, 0x20#8), (0x15_001A, 0x01#8),
      (0x15_001B, 0x80#8), (0x15_0029, 0x10#8), (0x15_002A, 0x17#8), (0x15_0030, 0x01#8), (0x15_0048, 0x01#8),
      (0x16_0000, 0x01#8)] ++ walkCells }

/-- The state in which the record's index is taken, the record's bytes and its book. -/
def taken : State := State.updPart { tables with fresh := tables.fresh + 1 } 0 fun p =>
  { p with queues := tset p.queues 0 { (tget (tables.part 0).queues 0 {} : QueueState) with next := 1#32 } }
def record : List Byte := tables.readPa 0x15_0000 256

theorem witness_watchFire_queue : (tables.queueDesc 0 0).serves = true ∧ (tables.die (tables.queueDesc 0 0).die).failed = false ∧ (tables.queueDesc 0 0).base = 0x15_0000
    ∧ (tables.queueDesc 0 0).tailVa = 0x16_0000 ∧ tables.agentRead 0 0x16_0000 4 = some [1#8, 0#8, 0#8, 0#8]
    ∧ tables.agentRead 0 0x15_0000 4 = some [1#8, 0#8, 0#8, 0#8] ∧ fieldAt [1#8, 0#8, 0#8, 0#8] 0 4 ≠ (0#32 : Word).toNat
    ∧ fieldAt [1#8, 0#8, 0#8, 0#8] 0 1 = 1 := by
  decide +kernel

theorem witness_watchFire_record : taken.agentRead 0 0x15_0000 256 = some record ∧ bookZeros record = true
    ∧ (bookOf record).wintab = 0x17_1000 ∧ (taken.agentRead 0 0x17_1000 16).isSome = true ∧ (bookOf record).ok 0 = true
    ∧ (bookOf record).ring = 0 ∧ (taken.ringDesc 0 0).valid = true ∧ taken.fits 0 (bookOf record) = true ∧ taken.launches = [] := by
  refine ⟨?_, ?_, ?_, ?_, ?_, ?_, ?_, ?_, rfl⟩ <;> decide +kernel

/-- A parked gang; twins at a comparison point. -/
def parkedGang : Gang := { id := 2, launch := 3, place := .parked }
def ready : State :=
  { owning [] with
    cores := [(760, { partid := 8#32, readyParked := [1] })]
    groups := [{ grp with core := 760, place := .parked }]
    launches := [{ launched with ranges := [] }]
    gangs := [parkedGang] }
def twinA (x : BitVec 64) : Grp := { grp with twin := some 5, points := [(x, 1)] }
def twinB : Grp := { grp with uid := 5, under := true, points := [(7#64, 1)] }
def twins (x : BitVec 64) : State := { State.reset with groups := [twinA x, twinB] }

theorem witness_GangEvents :
    (let l : Launch := { launched with ranges := [] }
     ready.gang 2 = some parkedGang ∧ ready.launch 3 = some l ∧ ready.wantsPlace parkedGang = true ∧ (ready.part 0).quiesce = false
       ∧ parkedGang.twin = none ∧ clusterOfCore 760 ∈ ready.partClusters 0 ∧ ready.higherWaits 0 (clusterOfCore 760) 0 = false
       ∧ ready.clearedForOther 0 (clusterOfCore 760) l.id = false ∧ ready.parkedTurn (clusterOfCore 760) l = false
       ∧ ready.roomAt (clusterOfCore 760) l.book 760 = true)
      ∧ ((ready.grp 1).map (·.place) = some .parked ∧ (ready.core 760).readyParked.head? = some 1 ∧ ready.residents 760 < 32)
      ∧ (let s := full launched
         launched.ending = false ∧ launched.book.gangCores = 1 ∧ (launched.nextGang 95).isSome = true ∧ s.fitsBut [] 95 launched.book = false
           ∧ (∀ x ∈ s.gangs, x.place = .placed → x.priority ≤ launched.book.priority) ∧ s.quarantined (8 * 95) = false
           ∧ (1 < 8 ∧ s.coreGangs [] (8 * 95 + 1) = []) ∧ tget launched.turns 95 launched.dealtAt + 50 * 1900 ≤ s.clk
           ∧ 95 ∉ launched.clearing ∧ s.clearedForOther 0 95 3 = false ∧ s.higherWaits 0 95 launched.book.priority = false)
      ∧ ((twins 7#64).grp 1 = some (twinA 7#64) ∧ (twinA 7#64).twin = some twinB.uid ∧ twinB.uid ≠ (twinA 7#64).uid
         ∧ (twins 7#64).grp 5 = some twinB ∧ (twinA 7#64).under = false ∧ (twinA 7#64).points = [(7#64, 1)] ∧ twinB.points = [(7#64, 1)]
         ∧ (twins 8#64).grp 1 = some (twinA 8#64) ∧ (8#64 : BitVec 64) ≠ 7#64) := by
  refine ⟨⟨rfl, rfl, rfl, rfl, rfl, by decide, rfl, rfl, by decide, by decide⟩, ⟨rfl, rfl, by decide⟩,
    ⟨rfl, rfl, rfl, rfl, by decide, rfl, ⟨by decide, rfl⟩, by decide, by decide, by decide, rfl⟩,
    ⟨rfl, rfl, by decide, rfl, rfl, rfl, rfl, rfl, by decide⟩⟩

/-- Partition 0 with the tables, a queue pair and a remote key for 64 bytes at 0x19_0000. -/
def network : State :=
  { State.reset with
    booted := true
    parts := [(0, { agentRoot := 0x180#32, s1root := 0x183#32
                    qptablo := 0x12_0000#32, qpctl := 1#32, nktablo := 0x12_1000#32, nkctl := 1#32 })]
    mem := [(0x12_0000, 0x12#8), (0x12_0001, 0x01#8), (0x12_003C, 0x05#8),
      (0x12_1022, 0x19#8), (0x12_1028, 0x40#8), (0x12_1030, 0x0F#8), (0x12_1032, 0x05#8), (0x12_1034, 0x01#8)] ++ walkCells }

/-- A packet for that queue pair, of one byte where it is no FETCH_ADD. -/
def netPacket (op : NetOp) (psn : BitVec 24) (va : Nat) : NetPacket :=
  { part := 0, port := 0, qpn := 0, reliable := true, op := op, psn := psn, pkey := 5#16, rkey := 1#32, va := va, len := 1
    data := [1#8], add := 1#64 }

/-- What the queue pair's entry holds. -/
def pair : QueuePair := network.queuePair 0x12_0000

theorem witness_packets_seen : network.seePacket { netPacket .writeOnly 0#24 0 with qpn := 2 } = .drop
    ∧ network.seePacket (netPacket .writeOnly 0xFFFFFF#24 0) = .again 0x12_0000 pair
    ∧ network.seePacket (netPacket .writeOnly 0#24 0x19_003F) = .expected 0x12_0000 pair
    ∧ network.seePacket (netPacket .readRequest 0xFFFFFF#24 0x19_003F) = .again 0x12_0000 pair
    ∧ network.seePacket (netPacket .readRequest 0#24 0x19_003F) = .expected 0x12_0000 pair
    ∧ network.seePacket (netPacket .readRequest 7#24 0x19_003F) = .wrongPsn 0x12_0000
    ∧ network.seePacket { netPacket .readRequest 0#24 0x19_003F with qpn := 2 } = .drop
    ∧ network.seePacket (netPacket .fetchAdd 0#24 0x19_0038) = .expected 0x12_0000 pair
    ∧ network.seePacket (netPacket .other 0#24 0) = .invalid 0x12_0000 := by
  refine ⟨rfl, rfl, rfl, rfl, rfl, rfl, rfl, rfl, rfl⟩

theorem witness_packets_reach :
    network.packetPas (netPacket .writeOnly 0#24 0x19_003F) pair = some [0x19_003F]
      ∧ network.packetPas (netPacket .readRequest 0xFFFFFF#24 0x19_003F) pair = some [0x19_003F]
      ∧ network.writeWaits [0x19_003F] = false ∧ network.readWaits [0x19_003F] = false
      ∧ network.packetPas (netPacket .readRequest 0#24 0x19_0040) pair = none := by decide +kernel

theorem witness_packets_add : (network.packetPas (netPacket .fetchAdd 0#24 0x19_0038) pair).map (·.take 1) = some [0x19_0038]
    ∧ ((network.packetPas (netPacket .fetchAdd 0#24 0x19_0038) pair).map network.writeWaits) = some false := by decide +kernel

theorem witness_PortEvents : State.reset.paFault 0x5F_FFFF_FFFC 4 = none
    ∧ State.reset.readWaits ((List.range 4).map (0x5F_FFFF_FFFC + ·)) = false ∧ State.reset.conf.endpoint = false
    ∧ State.reset.writeWaits ((List.range [1#8, 2#8].length).map (0x5F_FFFF_FFFC + ·)) = false
    ∧ State.reset.paFault 0x60_0000_0000 1 = some (.noMemory 0x60_0000_0000) ∧ State.reset.booted = false := by
  refine ⟨rfl, rfl, rfl, rfl, rfl, rfl⟩

/-! ## What the wider clauses of the statements admit. -/

/-- A core with one page of the fixture's, at virtual address 0; window 0 of a group there: base, limit, space. -/
def paged (es : List TlbEntry) : State := { plain tI32 with cores := [(0, { partid := 8#32, ptroot := 1#32, tlb := es })] }
def win (base limit space : Nat) : BitVec 128 := BitVec.ofNat 128 (base + limit * 2 ^ 64 + space * 2 ^ 113)
def windowed (base limit space : Nat) : Grp := grp.setW 0 (win base limit space)
def checking (base limit space : Nat) (es : List TlbEntry) : Ck := { s := paged es, g := windowed base limit space, e := {}, lists := [] }
def accessing (i : Instr) (act opois : Word) : SOp := { ins := i, act := act, off := lanesFrom fun l => BitVec.ofNat 32 (4 * l), opois := opois }
def loading : SOp := accessing (.ldw (.v 3#7) (.v 1#7) 0#3 31#5) 0x80000001#32 0#32
def storing : SOp := accessing (.stw (.v 3#7) (.v 1#7) 0#3 31#5) 0x80000001#32 0#32

theorem witness_AccessWordsCaptured_form : memForm loading.ins = some (0, 31, 4, .load) ∧ memForm storing.ins = some (0, 31, 4, .store)
    ∧ loading.act &&& (0x80000000#32 ||| loading.dpois) ≠ 0#32 ∧ loading.act &&& (loading.opois ||| loading.dpois) = 0#32
    ∧ (∀ l, loading.act.getLsbD l = true ↔ l = 0 ∨ l = 31) := by
  refine ⟨rfl, rfl, by decide, rfl, fun l => ?_⟩
  by_cases h : l < 32
  · have : ∀ k < 32, (loading.act.getLsbD k = true ↔ k = 0 ∨ k = 31) := by decide
    exact this l h
  · rw [BitVec.getLsbD_of_ge _ _ (Nat.le_of_not_lt h)]; simp; omega

/-- Lane 0 within 128 bytes and lane 31 past them; a base of 2; a page that the tables do not map; one of class read-shared, with a
load and with a store. -/
theorem witness_AccessWordsCaptured_stops :
    (let c := checking 0 128 0 [fixturePage]
     (c.g.window 0).extractLsb' 64 49 = 128#49 ∧ 0 + 31 * 4 + 4 ≤ 128 ∧ 128 < 4 * 31 + 31 * 4 + 4)
      ∧ (let c := checking 2 4096 0 [fixturePage]
         (c.g.window 0).extractLsb' 0 57 = 2#57 ∧ (2 + 4 * 0 + 31 * 4) % 4 ≠ 0)
      ∧ (let c := checking 0 4096 0 []
         (match c.s.translate c.g.core c.g.part c.g.system (31 * 4) with | .error (.trap kd st lev) => kd == 1 && st == 0 && lev == 5 | _ => false) = true)
      ∧ (let c := checking 0 4096 0 [fixturePage]
         (c.g.window 0).extractLsb' 113 2 = 0#2
           ∧ (∀ l ∈ [0, 31], (c.s.translate c.g.core c.g.part c.g.system (31 * 4 + 4 * l)).toOption = some (0x10_007C + 4 * l, fixturePage))
           ∧ attrOk .store 0 fixturePage.cls = false ∧ attrOk .load 0 fixturePage.cls = true
           ∧ ∀ l ∈ [0, 31], c.s.targetFault (.mem (0x10_007C + 4 * l) fixturePage.cls) 4 = none)
      ∧ ((checking 0 4096 1 []).g.window 0).extractLsb' 113 2 = 1#2 ∧ ((checking 0 4096 2 []).g.window 0).extractLsb' 113 2 = 2#2 := by
  refine ⟨⟨rfl, by decide, by decide⟩, ⟨rfl, by decide⟩, by decide +kernel, ⟨rfl, by decide +kernel, rfl, rfl, by decide +kernel⟩, rfl, rfl⟩

/-- A system page, an ordinary one, no first-stage root; entries of each kind: not valid, a reserved bit set, a first-stage class set, a
table, a table at level 1, leaves at levels 1, 2 and 3, one out of its alignment, and leaves with a span their level does not have. -/
theorem witness_AccessWordsCaptured_pages : ((paged [{ fixturePage with sys := true }]).lookup 0 0 0).toOption = some { fixturePage with sys := true }
    ∧ ((paged [fixturePage]).lookup 0 0 4095).toOption = some fixturePage ∧ ((paged []).part 0).s1root = 0#32
    ∧ (let clean (e : BitVec 64) (stage : Nat) : Bool := e.extractLsb' 52 12 == 0#12 && e.extractLsb' 9 3 == 0#3 && e.extractLsb' 6 2 == 0#2
         && (stage != 1 || (e.getLsbD 8 == false && e.extractLsb' 4 2 == 0#2))
       (0x1000#64 : BitVec 64).getLsbD 0 = false ∧ ¬clean 0x201#64 2 ∧ ¬clean 0x101#64 1 ∧ clean 0x101#64 2
         ∧ (clean 0x1001#64 1 ∧ (0x1001#64 : BitVec 64).getLsbD 1 = false ∧ 2 ≤ 2 ∧ 1 ≤ 1)
         ∧ (clean 0x1003#64 1 ∧ (0x1003#64 : BitVec 64).getLsbD 1 = true ∧ 1 * 4096 % (4096 * 4 ^ 0) = 0 ∧ 1 * 4096 % (4096 * 4 ^ 3) ≠ 0)
         ∧ (clean 0x4000000B#64 2 ∧ ((0x4000000B#64 : BitVec 64).extractLsb' 2 2).toNat = 2) ∧ (clean 0x40000003#64 2 ∧ 3 < 4)
         ∧ (clean 0xF#64 2 ∧ ((0xF#64 : BitVec 64).extractLsb' 2 2).toNat = 3)) := by decide +kernel

/-- A word of the scene whose effect is performed, in every lane, with its operands. -/
def effect (i : Instr) (desc : List Word) (wval : BitVec 128) : SOp := { ins := i, act := BitVec.allOnes 32, desc := desc, wval := wval }

theorem performs (i : Instr) (desc : List Word) (wval : BitVec 128) : Performs (plain tI32) (plain tI32).iss (effect i desc wval) grp :=
  ⟨rfl, by show BitVec.allOnes 32 ≠ 0#32; decide, rfl, rfl, rfl⟩

theorem witness_SystemWordsAct_performed : (5 < 16 ∧ (32#32 : Word).toNat = 2 ^ 5) ∧ qcfgKind 0#32 = .unbound ∧ qcfgKind 5#32 ≠ .unbound
    ∧ (∀ y ∈ (plain tI32).groups, y.gang = grp.gang → y.coreIdx = grp.coreIdx → y.place = .ended ∨ (y.qbind 3).kind = .unbound)
    ∧ (grp.slot0.mask = (plain tI32).iss.mask ∧ grp.slot0.st ≠ .empty ∧ grp.slot1.mask ≠ (plain tI32).iss.mask ∧ grp.stack = [])
    ∧ (0x028#16 ∈ [0x012#16, 0x013#16, 0x018#16, 0x020#16, 0x028#16] ∧ grp.core < 768) := by decide

/-- A window of 64 bytes, cut at its end, past its end, and by poisoned operands. -/
def cutting (off len : Word) (pois : Bool) : SOp := { effect (.winsub 0#3 1#3 (.s 1#5) (.s 2#5)) [off, len] 0 with cpois := pois }

theorem witness_SystemWordsAct_winsub : winLimit ((checking 0 64 0 []).g.window 0) = 64 ∧ 64 < 32 + 33
    ∧ (cutting 32#32 32#32 true).cpois = true ∧ (cutting 32#32 33#32 false).cpois = false
    ∧ ((checking 0 64 0 []).acting (cutting 32#32 32#32 false)).toOption.isSome = true := by
  refine ⟨rfl, by decide, rfl, rfl, by decide +kernel⟩

/-- The group with the scene's fragment in slot 0 or 1 (mask: all lanes of the scene) and another beside it, a join, and a stack. -/
def beside (b : Bool) (x y : Slot) (st : List Slot) : Grp :=
  if b then { grp with slot0 := y, slot1 := x, stack := st } else { grp with slot0 := x, slot1 := y, stack := st }
def here (join : Word) : Slot := { mask := 0x0000FFFF#32, st := .ready, busy := true, join := join }
def there (join : Word) (st : SlotState) : Slot := { mask := 0xFFFF0000#32, st := st, pc := 0x40#32, join := join }
/-- That group at the trailer of a scene with a final word, p1 set in the even lanes, p7 in all. -/
def ending (g : Grp) (f : Final) : State :=
  { branchAt f with groups := [g], iss := { (branchAt f).iss with mask := 0x0000FFFF#32 } }

theorem goesOn_here (b : Bool) (join pc : Word) (st : SlotState) (k : List Slot) (h : pc ≠ join) (hs : (there join st).atEnd = false) :
    GoesOn (beside b (here join) (there join st) k) b pc := by
  cases b
  · exact ⟨.inr (.inl h), hs⟩
  · exact ⟨.inr (.inl h), hs⟩

theorem joins_here (b : Bool) (join : Word) (st : SlotState) (k : List Slot) (h : join ≠ Config.noJoin) (hs : (there join st).atEnd = false) :
    Joins (beside b (here join) (there join st) k) b join := by
  cases b
  · exact ⟨rfl, h, ⟨rfl, rfl⟩, hs⟩
  · exact ⟨rfl, h, ⟨rfl, rfl⟩, hs⟩

theorem witness_JumpAndCallLink_trailer (b : Bool) :
    (ending (beside b (here 0x80#32) (there 0x80#32 .ready) []) (.jump 0x40#32 true)).grp 1 = some (beside b (here 0x80#32) (there 0x80#32 .ready) [])
      ∧ GoesOn (beside b (here 0x80#32) (there 0x80#32 .ready) []) b 0x40#32 :=
  ⟨by cases b <;> rfl, goesOn_here _ _ _ _ _ (by decide) rfl⟩

theorem witness_BruMoves_trailer : (0#2 : BitVec 2) ≠ 3#2
    ∧ GoesOn (beside true (here 0x80#32) (there 0x80#32 .atJoin) []) true 0x40#32
    ∧ ((flags grp).preg 1).val &&& 0x0000FFFF#32 ≠ 0#32 ∧ ((flags grp).preg 7).val &&& 0x0000FFFF#32 = 0x0000FFFF#32
    ∧ ((flags grp).preg 2).val &&& 0x0000FFFF#32 = 0#32 :=
  ⟨by decide, goesOn_here _ _ _ _ _ (by decide) rfl, by decide, by decide, by decide⟩

/-- Another fragment beside the one that splits, with room on the stack; a fragment at its join alone, with its partner there, and with an
outer fragment on the stack; an exit beside a partner that waits at the join, one with an outer fragment, and the last one. -/
theorem witness_BrcSplits_trailer :
    (let s := ending (beside true (here 0x80#32) (there 0x80#32 .ready) []) (.brc 1#3 0x40#32 0x80#32)
     let next : Word := s.iss.pc + BitVec.ofNat 32 (4 * s.iss.words.length)
     let taken := (s.iss.g.preg 1).val &&& s.iss.mask
     taken ≠ 0#32 ∧ taken ≠ s.iss.mask ∧ next ≠ 0x80#32 ∧ (0x40#32 : Word) ≠ 0x80#32 ∧ grp.stack.length < 64
       ∧ ((beside true (here 0x80#32) (there 0x80#32 .ready) []).slot false).st ≠ .empty)
      ∧ (Joins (beside false (here 0x80#32) (there 0x80#32 .ready) []) false 0x80#32 ∧ (there 0x80#32 .ready).st ≠ .atJoin)
      ∧ (Joins (beside true (here 0x80#32) (there 0x80#32 .atJoin) []) true 0x80#32 ∧ (there 0x80#32 .atJoin).st = .atJoin
        ∧ (there 0x80#32 .atJoin).join = (here 0x80#32).join)
      ∧ (Joins (beside true (here 0x80#32) (there 0x80#32 .atJoin) [there 0xC0#32 .ready]) true 0x80#32 ∧ (there 0xC0#32 .ready).join ≠ 0x80#32
        ∧ (there 0xC0#32 .ready).atEnd = false)
      ∧ (let s := ending (beside true (here 0x80#32) (there 0x80#32 .atJoin) [there 0xC0#32 .ready]) .exit
         s.iss.final = .exit ∧ (here 0x80#32).handler = false ∧ (s.core grp.core).wc = [] ∧ (there 0x80#32 .atJoin).st ≠ .empty
           ∧ (there 0xC0#32 .ready).atEnd = false ∧ (there 0x80#32 .atJoin).pc ≠ (there 0xC0#32 .ready).join ∧ (there 0xC0#32 .ready).st ≠ .empty)
      ∧ (let g := beside true (here Config.noJoin) {} []
         (ending g .exit).grp 1 = some g ∧ (g.slot false).st = .empty ∧ (g.slot false).join = Config.noJoin ∧ g.stack = []) :=
  ⟨⟨by decide, by decide, by decide, by decide, by decide, by decide⟩, ⟨joins_here _ _ _ _ (by decide) rfl, by decide⟩,
    ⟨joins_here _ _ _ _ (by decide) rfl, rfl, rfl⟩, ⟨joins_here _ _ _ _ (by decide) rfl, by decide, by decide⟩,
    ⟨rfl, rfl, rfl, by decide, by decide, by decide, by decide⟩, ⟨rfl, rfl, rfl, rfl⟩⟩

/-- The trailer of a wait word in a launch with one gang; the fragment's group; a phase of the gang's barriers. -/
def barred (b : Barrier) (f : Final) (h : Grp → Grp) : State :=
  { atTrailer f with
    groups := [h grp]
    gangs := [{ id := 2, launch := 3, cores := [0], bars := [(barKey grp true 15 3, b)] }]
    launches := [{ id := 3 }] }

/-- A group that has arrived in generation 0, and one that has a fence open. -/
def hasArrived (g : Grp) : Grp := { g with arr := [(arrKey true 15 3, 0)] }
def fenced (g : Grp) : Grp := { g with fence := some 1 }

theorem witness_TrapWordsAndWaitsApply_waits :
    (let c : ECmd := { id := 6, uid := 1, kind := .wload, cue := 255 }
     let mine (c : ECmd) : Bool := c.uid == 1 && c.live && c.kind != .wfree && c.cue == (255#8 : BitVec 8).toNat && decide (c.id < 7)
     (atTrailer (.cwait 255#8)).ecmds.any mine = false ∧ ({ atTrailer (.cwait 255#8) with ecmds := [c] } : State).ecmds.any mine = true)
      ∧ ((barred {} (.gwait 15#4) id).launch grp.launch = some { id := 3 } ∧ (tget ({ id := 3 } : Launch).tags 15 {}).count = 0
        ∧ (∀ w ∈ (barred {} (.gwait 15#4) id).waves, ¬(w.uid = 1 ∧ w.st = .path))
        ∧ (tget ({ id := 3, tags := [(15, { count := 1 })] } : Launch).tags 15 {}).count ≠ 0)
      ∧ (atTrailer (.mwait .mwgeU 5#32)).orderedDone 1 = true ∧ ({ request pending with iss := (atTrailer (.mwait .mwgeU 5#32)).iss } : State).orderedDone 1 = false := by
  refine ⟨by decide, ⟨rfl, rfl, by decide, by decide⟩, rfl, rfl⟩

/-- A wait for the generation that is open, for one that has passed; the first of two arrivals, the last; an arrival behind a fence. -/
theorem witness_TrapWordsAndWaitsApply_barriers :
    (let s := barred { gen := 0 } (.barrier false true true 15 3) id
     (tfind grp.arr (arrKey true 15 3)).getD (s.barrier grp true 15 3).gen = 0 ∧ (s.barrier grp true 15 3).gen ≤ 0)
      ∧ (let s := barred { gen := 1, released := [(0, 9)] } (.barrier false true true 15 3) hasArrived
         (tfind (hasArrived grp).arr (arrKey true 15 3)).getD (s.barrier (hasArrived grp) true 15 3).gen = 0
           ∧ 0 < (s.barrier (hasArrived grp) true 15 3).gen ∧ s.grp 1 = some (hasArrived grp))
      ∧ (let s := barred { limit := some 2 } (.barrier true false true 15 3) id
         s.gang grp.gang = some { id := 2, launch := 3, cores := [0], bars := [(barKey grp true 15 3, { limit := some 2 })] } ∧ s.stowed = [] ∧ grp.fence = none ∧ s.reqs = []
           ∧ (s.barrier grp true 15 3).count + 1 < (s.barrier grp true 15 3).limitOf grp true)
      ∧ (let s := barred { limit := some 2, count := 1 } (.barrier true false true 15 3) id
         (s.barrier grp true 15 3).limitOf grp true ≤ (s.barrier grp true 15 3).count + 1)
      ∧ (fenced grp).fence.isSome = true ∧ (barred {} (.barrier true true true 15 3) fenced).grp 1 = some (fenced grp) ∧ 15 < 16 ∧ 3 < 4 := by
  refine ⟨⟨rfl, by decide⟩, ⟨rfl, by decide, rfl⟩, ⟨rfl, rfl, rfl, rfl, by decide⟩, by decide, rfl, rfl, by decide, by decide⟩

theorem witness_TrapWordsAndWaitsApply_alone : Alone (barred {} (.barrier true true true 15 3) fenced) (atTrailer .none).iss (fenced grp)
    ∧ Alone (barred { gen := 1 } (.barrier false true true 15 3) hasArrived) (atTrailer .none).iss (hasArrived grp)
    ∧ Alone (barred {} (.gwait 15#4) id) (atTrailer .none).iss grp :=
  ⟨⟨rfl, rfl, rfl, rfl, rfl, rfl, rfl, rfl, rfl, rfl, rfl⟩, ⟨rfl, rfl, rfl, rfl, rfl, rfl, rfl, rfl, rfl, rfl, rfl⟩,
   ⟨rfl, rfl, rfl, rfl, rfl, rfl, rfl, rfl, rfl, rfl, rfl⟩⟩

/-- A load's word, then a word that reads its destination, one that reads a temporary no word has written, one with a q operand where none
may stand, one with a bit set that its row leaves zero, one that all checks accept; a trailer with its publication and one without. -/
theorem witness_SceneErrorsTrap_bodies :
    (let w := encode (.add (.v 3#7) (.v 124#7) (.v 1#7))
     let i : Instr := .add (.v 3#7) (.v 124#7) (.v 1#7)
     looseDecode w = some i ∧ isFinal i = false ∧ .v 124#7 ∈ fieldReads w i ∧ .v 124#7 ∈ ({ covered := [.v 124#7] } : Seen).covered)
      ∧ (let w := encode (.add (.v 3#7) (.t 7#3) (.v 1#7))
         let i : Instr := .add (.v 3#7) (.t 7#3) (.v 1#7)
         looseDecode w = some i ∧ .t 7#3 ∈ fieldReads w i ∧ .t 7#3 ∉ ({} : Seen).temps ∧ (∀ r ∈ fieldReads w i, r ∉ ({} : Seen).covered)
           ∧ ∀ r ∈ fieldWrites w i, r ∉ ({} : Seen).covered)
      ∧ (let w := encode (.add (.v 3#7) (.q 0#4) (.v 1#7))
         (looseDecode w).isSome = true ∧ (decodeWord w).toOption = some (.add (.v 3#7) (.q 0#4) (.v 1#7))
           ∧ legal (.add (.v 3#7) (.q 0#4) (.v 1#7)) = false)
      ∧ (let w : Word := encode .nop ||| 1#32
         looseDecode w = some .nop ∧ (decodeWord w).toOption = none)
      ∧ (let w := encode (.add (.v 3#7) (.v 2#7) (.v 1#7))
         (decodeWord w).toOption = some (.add (.v 3#7) (.v 2#7) (.v 1#7)) ∧ legal (.add (.v 3#7) (.v 2#7) (.v 1#7)) = true
           ∧ fitsRegs 16 (.add (.v 3#7) (.v 2#7) (.v 1#7)) = true
           ∧ (wordFault 16 1 1 w {}).isNone = true)
      ∧ (let ws : List Word := [0x01080000#32, encode (.ldw (.v 124#7) (.v 1#7) 0#3 0#5), 0x027CFFFF#32]
         ((bodyCheck 128 1 1 {} ((ws.drop 1).take 1)).toOption.map fun body => (body.filterMap produces).map selByte) = some [0x7C#8]
           ∧ (checkWords 128 1 3 ws).toOption.isSome = true
           ∧ (match checkWords 128 1 3 [0x01080000#32, encode (.ldw (.v 124#7) (.v 1#7) 0#3 0#5), 0x02FFFFFF#32] with
              | .error t => t == { cls := 1, idx := 2 } | .ok _ => false) = true) := by
  decide +kernel

/-- A fragment at a misaligned PC; at a header whose scene's second word is the header's. -/
def crooked : State := { atHeader with groups := [{ fixtureGroup 1 false with slot0 := { (fixtureGroup 1 false).slot0 with pc := 2#32 } }] }
def doubled : State := { atHeader with mem := writeRun [] 0x10_0000 [0x00#8, 0x00#8, 0x08#8, 0x01#8, 0x00#8, 0x00#8, 0x08#8, 0x01#8] }

theorem witness_SceneErrorsTrap_header :
    ((crooked.grp 1).map fun g => (g.slot0.pc.toNat % 4, g.place, g.slot0.st, g.slot0.hold, g.slot0.busy)) = some (2, .resident, .ready, .none, false)
      ∧ crooked.iss.live = false
      ∧ (let g := fixtureGroup 1 false
         let view : State := State.touchTlb { doubled with iss := {} } g.core g.part [g.book.code + g.slot0.pc.toNat]
         doubled.grp 1 = some g ∧ (view.codeWords g g.slot0.mask g.slot0.pc 3).toOption = some [0x01080000#32, 0x01080000#32, 0#32]
           ∧ (match checkWords g.book.regs 1 1024 [0x01080000#32, 0x01080000#32, 0#32] with
              | .error t => t == { cls := 1, idx := 1 } | .ok _ => false) = true) := by
  refine ⟨rfl, rfl, rfl, rfl, by decide +kernel⟩

theorem witness_BadOperandsTrap_every : AtWord (scene tI32 3 flags) (.ldw (.v 3#7) (.v 1#7) 0#3 0#5) ∧ isWord (.ldw (.v 3#7) (.v 1#7) 0#3 0#5) = true
    ∧ unguarded (.ldw (.v 3#7) (.v 1#7) 0#3 0#5) = false ∧ (scene tI32 3 flags).iss.guard.pois &&& (scene tI32 3 flags).iss.mask ≠ 0#32
    ∧ (∀ n, Instr.redx (.p 1#3) (.v 1#7) (.k 0#6) ≠ .scene n) ∧ (∀ p q r, Instr.redx (.p 1#3) (.v 1#7) (.k 0#6) ≠ .sceneEnd p q r)
    ∧ legal (.redx (.p 1#3) (.v 1#7) (.k 0#6)) = false :=
  ⟨atWord _ _ _ _ rfl rfl, rfl, rfl, by decide, fun _ => nofun, fun _ _ _ => nofun, rfl⟩

/-- The group whose core routes class 6, outside a scene; with a scene of its other fragment stalled; with a park already asked for. -/
def routed : State := { routing with iss := {} }
def stalledBeside : State := { routed with stowed := [{ g := { uid := 1 } }] }

theorem witness_RoutedTrapParks_cases : routed.grp 1 = some grp ∧ grp.parking = false ∧ grp.place = .resident ∧ grp.cached = true
    ∧ (routed.core grp.core).trapvec.getLsbD trap6.cls = true ∧ routed.iss.live = false ∧ (∀ j ∈ routed.stowed, j.g.uid ≠ 1)
    ∧ (∃ j ∈ stalledBeside.stowed, j.g.uid = 1)
    ∧ (withGrp { grp with parking := true }).grp 1 = some { grp with parking := true } :=
  by
  refine ⟨rfl, rfl, rfl, rfl, rfl, rfl, ?_, ⟨_, List.mem_singleton.2 rfl, rfl⟩, rfl⟩
  intro j h; cases h

theorem witness_ControlCoreStores_die : 0x028 ∈ [0x020, 0x022, 0x028] ∧ regValueOk (State.reset.marginMax 767) 0x028 255#32 = true
    ∧ 766 / 192 = 767 / 192 ∧ ¬(191 / 192 = 767 / 192 ∧ 0x028 = 0x028) ∧ ¬(766 = 767 ∧ 0x011 = 0x012)
    ∧ ¬(766 = 767 ∧ 0x011 = 0x011 ∧ (0x012 = 0x012 ∨ 0x012 = 0x013)) := by decide

/-- A HEALTH word with 33 failed banks where there were 32; the same count again; a quarantined core, one that is not. -/
def worn : State := { State.reset with dies := [(3, { health := 0x0004_0000#32 })], cores := [(767, { quar := 1#32 })] }

theorem witness_RegisterEvents_registers : (newlyReplaces (worn.die 3).health 0x0004_2000#32 ∧ bits 0x0004_2000#32 30 27 = 0)
    ∧ ¬newlyReplaces (worn.die 3).health 0x0004_0000#32
    ∧ bits 7#32 31 3 = 0 ∧ (bitOf (worn.core 767).quar 0 = true ∧ bitOf 1#32 0 = true)
    ∧ (bitOf (worn.core 766).quar 0 = false ∧ bitOf 0#32 0 = false) ∧ (∀ k ∈ worn.gangs, 766 ∈ k.cores → k.place = .ended)
    ∧ (∀ l ∈ worn.launches, l.complete = true) := by
  refine ⟨⟨⟨2, by decide, by show ¬(32 < 32); decide, by show 32 < 33; decide⟩, by decide⟩, ?_, by decide, ⟨by decide, by decide⟩, ⟨by decide, by decide⟩, nofun, nofun⟩
  rintro ⟨k, hk, hn, hy⟩
  exact hn hy

theorem witness_RegisterEvents_commands : (bits 0x00FF_2F02#32 31 24 = 0 ∧ bits 0x00FF_2F02#32 15 14 = 0 ∧ bits 0x00FF_2F02#32 7 2 = 0
      ∧ bits 0x00FF_2F02#32 13 12 ≠ 3 ∧ bits 0x00FF_2F02#32 1 0 ≠ 3 ∧ bits 3#32 1 0 = 3)
    ∧ (let p := ({ State.reset with parts := [(0, { sdvalo := 0x2000#32 })] } : State).part 0
       let x : Word := 0x8000_000D#32
       p.sd.busy = false ∧ bits x 7 6 = 0 ∧ bits x 30 10 = 0 ∧ 12 ≤ bits x 5 0 ∧ bits x 5 0 ≤ 57
         ∧ (bits p.sdvalo 31 12 * 4096 + bits p.sdvahi 24 0 * 2 ^ 32) % 2 ^ bits x 5 0 = 0)
    ∧ ((quietPart { sd := { busy := true } }).part 0).sd.busy = true
    ∧ (quietPart { sdvalo := 0x1000#32 }).part 0 = { sdvalo := 0x1000#32 }
    ∧ ¬((bits 0x1000#32 31 12 * 4096) % 2 ^ bits 0x8000_000D#32 5 0 = 0) := by decide +kernel

/-- A trap park of a group without v registers, on its core, its image written. -/
def lean0 : Grp := { grp with book := { grp.book with regs := 0 }, imgSlot := 7 }
def parkedByTrap : State :=
  State.takeTrap { routed with groups := [lean0], gangs := [{ id := 2, launch := 3, cores := [0] }] } 1 false trap6 4#32
def parkedGrp : Grp := (parkedByTrap.grp 1).getD {}

theorem witness_PartitionEvents_parked : Parked parkedByTrap 0 7 parkedGrp { id := 2, launch := 3, cores := [0] } ∧ parkedGrp.cached = false :=
  ⟨⟨by decide +kernel, by decide +kernel, by decide +kernel, rfl, by decide +kernel, by decide +kernel⟩, by decide +kernel⟩

theorem witness_PartitionEvents_unparked :
    let x := unparked parkedByTrap parkedGrp
    (x.slot parkedGrp.trapSlot).hold = .trapPark ∧ (x.slot (!parkedGrp.trapSlot)).hold = .none ∧ (x.slot parkedGrp.trapSlot).join = Config.noJoin
      ∧ (x.slot (!parkedGrp.trapSlot)).atEnd = false ∧ (x.slot (!parkedGrp.trapSlot)).handler = false ∧ x.book.handler ≠ Config.noJoin := by
  decide +kernel

/-- A trapped fragment that a branch at the end of the other fragment's scene has pushed on the stack. -/
def deepGrp : Grp := { lean0 with place := .trapParked, stack := [{ grp.slot0 with hold := .trapPark }] }
def parkedDeep : State := { routed with groups := [deepGrp], gangs := [{ id := 2, launch := 3, cores := [0] }] }

theorem witness_PartitionEvents_deep : Parked parkedDeep 0 7 deepGrp { id := 2, launch := 3, cores := [0] }
    ∧ (let x := unparked parkedDeep deepGrp
       (x.slot deepGrp.trapSlot).hold ≠ .trapPark ∧ (∃ y ∈ x.stack, y.hold = .trapPark) ∧ (x.slot (!deepGrp.trapSlot)).hold = .none
         ∧ x.book.handler ≠ Config.noJoin) :=
  ⟨⟨by decide +kernel, by decide +kernel, by decide +kernel, rfl, by decide +kernel, by decide +kernel⟩, by decide +kernel⟩

theorem witness_PartitionEvents_empty : (∀ k ∈ State.reset.gangs, k.part = 0 → k.place ≠ .placed) ∧ State.reset.groups = [] ∧ State.reset.waves = []
    ∧ State.reset.cpys = [] ∧ State.reset.bcmds = [] ∧ (quietPart { sd := { busy := true, all := true, mark := 1 } }).shootdownSettled 0 = true
    ∧ (({ quietPart { sd := { busy := true, mark := 2 } } with reqs := [{ id := 1, accs := [{}] }] } : State).shootdownSettled 0) = false := by
  refine ⟨nofun, rfl, rfl, rfl, rfl, rfl, rfl⟩

/-- Die 3 without anything on it. -/
theorem witness_MarginAndFailureEvents_bare : Bare ageing 3 :=
  ⟨rfl, fun _ h => (by cases h), fun _ h => (by cases h), fun _ h => (by cases h), by decide +kernel⟩

/-- Die 0 has failed, and die 3 fails: dies 1 and 2 are left. -/
theorem witness_MarginAndFailureEvents_cut : let s : State := { State.reset with dies := [(0, { failed := true })] }
    s.gangs = [] ∧ s.groups = [] ∧ s.waves = [] ∧ (∀ d < 4, (s.die d).failed = true ↔ d = 3 ^^^ 3) := by decide

/-- An error ring of four records at 0x2000 in partition 1, with room and without; no ring; a window that goes on; a core at LIMIT. -/
def ringed (head : Word) : State :=
  { ageing with parts := [(1, { errctl := 2#32, errlo := 0x8_2000#32, errcount := 4, errhead := head })], launches := [{ id := 0 }] }

theorem witness_MarginAndFailureEvents_ring :
    (let p := (ringed 1#32).part 1
     bits p.errctl 4 0 ≠ 0 ∧ (BitVec.ofNat 32 p.errcount - p.errhead).toNat < 2 ^ bits p.errctl 4 0
       ∧ p.errlo.toNat + bits p.errhi 15 0 * 2 ^ 32 + 32 * (p.errcount % 2 ^ bits p.errctl 4 0) = 0x8_2000
       ∧ (ringed 1#32).lineFree (lineOf 0x8_2000) = true ∧ (ringed 1#32).bankHolds 0x8_2000 true = false
       ∧ (∀ x ∈ (ringed 1#32).stalls, x.part ≠ 1) ∧ ((ringed 1#32).die (homeDie 0x8_2000)).failed = false ∧ (∀ i < 32, zeroRow (0x8_2000 + i) = false))
      ∧ (let p := (ringed 0#32).part 1
         2 ^ bits p.errctl 4 0 ≤ (BitVec.ofNat 32 p.errcount - p.errhead).toNat)
      ∧ bits (ageing.part 1).errctl 4 0 = 0 ∧ ((ringed 1#32).launch 0).isSome = true ∧ zeroRow 0x8_0000 = false := by decide +kernel

/-- A core with STEP 1 whose LIMIT is reached within its window. -/
def marginal : State := { State.reset with clk := 1899999, cores := [(767, { ltecnt := 64#32, margin := 0x0501#32 })] }

theorem witness_MarginAndFailureEvents_crossing :
    let c := marginal.core 767
    let w := bits c.ltewin 19 0 * 1900
    ¬(0 < w ∧ c.winStart + w ≤ marginal.clk) ∧ bits c.ltelim 15 0 < min (bits c.ltecnt 15 0 + 1) 65535 ∧ 0 < bits c.margin 7 0 := by decide

/-- A quadword in the last registers: v124 to v127, s28 to s31. -/
theorem witness_LoadResultLands_wide : 124 + 4 ≤ 128 ∧ ({ pending with dest := .v 124 4 } : Req).dest = .v 124 4 ∧ 28 + 4 ≤ 32
    ∧ ({ pending with dest := .s 28 4 } : Req).dest = .s 28 4 ∧ 3 < 4 := by decide

/-- The core holds a leased copy of the load's line, written at time 3. -/
def leased : Copy := { site := l1Site 0, line := lineOf 0x10_001C, w := 3, r := 10, sectors := 0xFF#8, bytes := [(0x1C, 7#8)] }
def cachedLoad : State := { request (sentLoad .normal) with copies := [leased] }

theorem witness_HomeAccessEvents_hit : cachedLoad.hit grp 0x10_001C 4 .coherent = some (leased, true) ∧ leased.owner = none ∧ leased.readShared = false
    ∧ (sentLoad .normal).policy = .normal ∧ cachedLoad.mayAct (sentLoad .normal) 0 = true := ⟨rfl, rfl, rfl, rfl, rfl⟩

theorem witness_HomeAccessEvents_times : tfind (sentLoad .normal).sent (lineOf 0x10_001C) = some 1 ∧ grp.pts ≤ 1 ∧ lastStore.policy = .normal
    ∧ (lastStore.kind = .store ∧ Class.coherent ≠ .priv) ∧ 1 ≤ (access 0x10_001C).size
    ∧ ((request (sentLoad .normal)).die (homeDie 0x10_001C)).failed = false := by decide +kernel

/-- A sector of one byte whose time is out; its line free, and owned by a copy. -/
def combining (cs : List CopyCmd) : State :=
  { plain tI32 with clk := 4096, cores := [(767, { wc := [{ uid := 1, sector := 0x8001, mask := 1#32, data := 0xAB#256 }] })], cpys := cs }

theorem witness_OrderingEvents_sector :
    (let s := combining []
     let e : WcEntry := { uid := 1, sector := 0x8001, mask := 1#32, data := 0xAB#256 }
     (s.core 767).wc[0]? = some e ∧ ((s.core 767).wc.filter fun x => x.uid == e.uid && x.sector == e.sector) = [e] ∧ e.since + 4096 ≤ s.clk
       ∧ s.owned (e.sector / 8) = false ∧ s.lineHeld (e.sector / 8) = false ∧ s.bankHolds (32 * e.sector) true = false
       ∧ (s.die (homeDie (e.sector * 32))).failed = false ∧ (∀ i < 32, zeroRow (e.sector * 32 + i) = false))
      ∧ (combining [{ id := 8, uid := 1, owned := [0x1000] }]).owned (0x8001 / 8) = true := by decide +kernel

/-- A drain whose group still has a store in flight that it performed before; one that its other fragment performed after. -/
def draining (r : Req) : State := { withGrp (waiting .drain fun x => { x with wgen := 5 }) with reqs := [r] }

theorem witness_OrderingEvents_drain :
    (let g := waiting .drain fun x => { x with wgen := 5 }
     (draining { id := 4, uid := 1, kind := .store, policy := .wc }).grp 1 = some g ∧ (g.slot false).st = .waiting ∧ (g.slot false).wait = .drain
       ∧ (draining { id := 4, uid := 1, kind := .store, policy := .wc }).drained g (g.slot false).wgen = false
       ∧ (∀ r ∈ (draining { id := 6, uid := 1, kind := .store, policy := .wc }).reqs, ∀ k, r.placeFor 1 = some k → k < 5 →
           r.kind ≠ .store ∨ r.policy = .normal)
       ∧ g.cached = true ∧ (g.slot false).join = Config.noJoin ∧ (g.slot true).atEnd = false) := by
  refine ⟨rfl, rfl, rfl, rfl, ?_, rfl, rfl, rfl⟩
  intro r hr k hk hlt
  rcases List.mem_singleton.1 hr with rfl
  cases hk; exact absurd hlt (by decide)

/-- A memory wait for a word of 5 or more that reads 7 or 0, watching or not, with 31 and 32 other watches of the word. -/
def waiter (w : Bool) : Grp := waiting .mwgeU fun x => { x with warg := 5#32, wpa := 0x10_0000, watched := w }
def reading (v : Byte) (w : Bool) (n : Nat) : State :=
  { withGrp (waiter w) with
    mem := [(0x10_0000, v)]
    groups := waiter w :: (List.range n).map fun k => { waiter true with uid := 100 + k } }

theorem witness_OrderingEvents_wait : (reading 7#8 true 0).grp 1 = some (waiter true)
    ∧ (match watchTarget (waiter true) ((waiter true).slot false) with | .mem pa _ => pa == 0x10_0000 | _ => false) = true
    ∧ (5#32 : Word).toNat ≤ (BitVec.ofNat 32 ((reading 7#8 true 0).readPaNat 0x10_0000 4)).toNat
    ∧ ¬(5#32 : Word).toNat ≤ (BitVec.ofNat 32 ((State.readPaNat { State.reset with mem := [(0x10_0000, 4#8)] } 0x10_0000 4))).toNat
    ∧ (reading 4#8 false 31).watchesAt (watchTarget (waiter false) ((waiter false).slot false)) < 32
    ∧ 32 ≤ (reading 4#8 false 32).watchesAt (watchTarget (waiter false) ((waiter false).slot false))
    ∧ (waiter true).cached = true ∧ (waiter true).twin = none ∧ ((waiter true).slot false).join = Config.noJoin := by
  refine ⟨rfl, rfl, by decide +kernel, by decide +kernel, by decide +kernel, by decide +kernel, rfl, rfl, rfl⟩

theorem witness_OrderingEvents_fence : Performs (plain tI32) (plain tI32).iss (effect (.fence 5#3) [] 0) grp
    ∧ (∀ e ∈ ((plain tI32).core grp.core).wc, e.uid ≠ grp.uid) ∧ (withGrp (fenced grp)).grp 1 = some (fenced grp)
    ∧ (effect (.fence 5#3) [] 0).act ≠ 0#32 ∧ (fenced grp).fence.isSome = true :=
  ⟨performs _ _ _, (by decide), rfl, by show BitVec.allOnes 32 ≠ 0#32; decide, rfl⟩

/-- A group with a fence open at the header of a scene of one store. -/
def fencedHeader : State :=
  { atHeader with
    groups := [{ fixtureGroup 1 false with fence := some 2 }]
    mem := writeRun [] 0x10_0000 ([0x01080000#32, encode (.stw (.v 3#7) (.v 1#7) 0#3 0#5), 0x02FFFFFF#32].flatMap fun w => bytesLE 4 w.toNat) }

theorem witness_OrderingEvents_header :
    let g : Grp := { fixtureGroup 1 false with fence := some 2 }
    let view : State := State.touchTlb { fencedHeader with iss := {} } g.core g.part [g.book.code + g.slot0.pc.toNat]
    let i : Instr := .stw (.v 3#7) (.v 1#7) 0#3 0#5
    fencedHeader.iss.live = false ∧ fencedHeader.grp 1 = some g ∧ g.place = .resident ∧ (g.slot false).st = .ready ∧ (g.slot false).hold = .none
      ∧ (g.slot false).busy = false ∧ (view.codeWords g g.slot0.mask g.slot0.pc 3).toOption = some [0x01080000#32, encode i, 0x02FFFFFF#32]
      ∧ (checkWords g.book.regs 1 1024 [0x01080000#32, encode i, 0x02FFFFFF#32]).toOption = some [i]
      ∧ startCheck g 1 g.slot0.mode [] [i] = (none, false) ∧ hasEffects [i] = true := by
  refine ⟨rfl, rfl, rfl, rfl, rfl, rfl, by decide +kernel, by decide +kernel, by decide +kernel, by decide +kernel⟩

/-- A copy of one byte to a line that it owns, and one that is done, of a group with a tombstone. -/
def copyOf (bs : List (Nat × Target × Byte × Bool)) (ls : List Nat) : CopyCmd := { id := 8, uid := 1, owned := ls, bytes := bs, time := 4, imgSlot := 5 }
def copyState (bs : List (Nat × Target × Byte × Bool)) (ls : List Nat) : State :=
  { plain tI32 with cpys := [copyOf bs ls], tombs := [{ imgSlot := 5, outstanding := 1 }] }

theorem witness_CopyAndFenceEvents_line :
    (let bs := [(0, Target.mem 0x10_0001 .coherent, 0xAB#8, false)]
     (copyState bs [0x1000]).cpys.find? (fun x => x.id == 8) = some (copyOf bs [0x1000]) ∧ 0x1000 ∈ (copyOf bs [0x1000]).owned
       ∧ (copyState bs [0x1000]).bankHolds (256 * 0x1000) true = false ∧ ((copyState bs [0x1000]).die (homeDie (256 * 0x1000))).failed = false
       ∧ (∀ x ∈ bs, ∀ y ∈ bs, x = y) ∧ lineOf 0x10_0001 = 0x1000 ∧ Class.coherent ≠ .priv ∧ zeroRow 0x10_0001 = false)
      ∧ (copyOf [] []).owned = [] ∧ (copyOf [] []).bytes = [] ∧ (copyState [] []).grp 1 = some grp ∧ grp.has (copyOf [] []).uid = true
      ∧ ((copyState [] []).tomb 0 5).isSome = true := by
  refine ⟨⟨rfl, by decide, by decide +kernel, rfl, ?_, rfl, nofun, rfl⟩, rfl, rfl, rfl, rfl, rfl⟩
  intro x hx y hy
  rw [List.mem_singleton.1 hx, List.mem_singleton.1 hy]

/-- A scene in "perform" with a word that performs, one that a fence stops, and none left. -/
theorem witness_CopyAndFenceEvents_perform :
    (let i : Issue := { (plain tI32).iss with ops := [effect (.hop 15#4 (.k 1#6)) [32#32] 0] }
     ((plain tI32).performOne i (effect (.hop 15#4 (.k 1#6)) [32#32] 0)).2.2 = true
       ∧ ((withGrp (fenced grp)).performOne i (effect (.hop 15#4 (.k 1#6)) [32#32] 0)).2.2 = false
       ∧ ((((withGrp (fenced grp)).performOne i (effect (.hop 15#4 (.k 1#6)) [32#32] 0)).1.grp 1).isSome = true))
      ∧ grp.whereIs (BitVec.allOnes 32) = some false ∧ grp.points = [] ∧ grp.twin = none
      ∧ ((atTrailer .none).endScene (atTrailer .none).iss false).isSome = true
      ∧ ((barred {} (.barrier true true true 15 3) fenced).endScene (atTrailer (.barrier true true true 15 3)).iss false).isNone = true := by
  refine ⟨⟨rfl, rfl, rfl⟩, rfl, rfl, rfl, rfl, rfl⟩

/-- A rowop that clears one row of 1 KiB at 0x10_0000. -/
def clearing : BankCmd := { id := 5, uid := 1, rowop := true, z := { limit := 65536 }, count := 1, todo := [0], donePa := 0x20_0000 }
def clearState : State := { State.reset with bcmds := [clearing], plists := [{ frames := [some 0x10] }] }

theorem witness_EngineAndBankEvents_row :
    clearState.bcmds.find? (fun b => b.id == 5) = some clearing ∧ clearing.todo = 0 :: []
      ∧ (clearState.bankPa clearing.part clearing.tab clearing.z 0).toOption = some 0x10_0000 ∧ lineOf 0x10_0000 / 4 = 0x1003 / 4
      ∧ (((clearState.bankBytes clearing 0).toOption.map fun bs =>
          bs.length == 1024 && bs.all fun b => clearState.unitFree (lineOf b.1) && !clearState.hostLines.contains (lineOf b.1)
            && !b.2.2 && !zeroRow b.1 && !(clearState.die (homeDie b.1)).failed) = some true) := by
  refine ⟨rfl, rfl, by decide +kernel, by decide, by decide +kernel⟩

/-- The graph of 16 nodes in one frame, node 5 with mark 3; a queued collection of it, a queued propagation, a running one's second round. -/
def marked (w : Wave) : State := { framed w with mem := [(0x10_050C, 8#8)] }
def collecting : Wave := bound { kind := .gcoll, st := .queued, sel := 3, cap := 4 }
def spreading : Wave := bound { kind := .gprop, st := .queued, sel := 3, hop := 2 }

theorem witness_WaveEvents_start : (marked collecting).wave 9 = some collecting ∧ (marked collecting).rivals collecting = []
    ∧ ((marked collecting).waves.filter fun x => x.ctrl == collecting.ctrl && x.st == .running).length < 4
    ∧ ((marked collecting).nodePas collecting (List.range collecting.nodes)).toOption = some ((List.range 16).map fun n => (n, 0x10_0000 + 256 * n))
    ∧ (match (State.nodePas { marked collecting with plists := [{ frames := [some 0x10], stale := true }] } collecting (List.range 16)) with
       | .error .stale => true | _ => false) = true
    ∧ (marked spreading).wave 9 = some spreading ∧ (marked spreading).rivals spreading = [] ∧ spreading.kind = .gprop ∧ spreading.nograph = false := by
  refine ⟨rfl, rfl, by decide, by decide +kernel, by decide +kernel, rfl, rfl, rfl, rfl⟩

theorem witness_WaveEvents_round : ((marked { spreading with st := .running, round := 1 }).roundNodes { spreading with st := .running, round := 1 }).toOption
      = some [(5, 0x10_0500)] ∧ collecting.owned = [] ∧ AllCached (marked collecting) := by
  refine ⟨by decide +kernel, rfl, fun g h => ?_⟩
  rcases List.mem_singleton.1 h with rfl
  rfl

/-- A packet of weight that has come back to its controller: the last of a round, of a wave, and one before. -/
def returning (issued : Nat) (w : Wave) : State :=
  { waving { w with id := 9, st := .running, issued := issued } with pkts := [{ id := 7, kind := .weight 9 0 5 }] }

theorem witness_WaveEvents_weight : (returning 5 { kind := .gprop, hop := 2, round := 1 }).weightBack 9 = some ({ id := 7, kind := .weight 9 0 5 }, 5)
    ∧ 0 + 5 ≠ 6 ∧ (∀ o ∈ ({ kind := .gprop, hop := 2, round := 1 } : Wave).outbox, o.2 = [])
    ∧ (returning 6 { kind := .gmark }).weightBack 9 = some ({ id := 7, kind := .weight 9 0 5 }, 5) ∧ WaveKind.gmark ≠ .gprop := by
  refine ⟨rfl, by decide, nofun, rfl, by decide⟩

theorem witness_WaveEvents_lost :
    let w : Wave := { id := 9, uid := 1, kind := .gcoll, st := .running, queue := some 15, entries := [1, 2], qlost := true }
    (waving w).wave 9 = some w ∧ w.queue = some 15 ∧ w.lastPush = false ∧ w.qlost = true := ⟨rfl, rfl, rfl, rfl⟩

/-- A message at node 5: a mark that is set and one that is not; a slot that keeps its value and one that takes a larger one. -/
theorem witness_WaveEvents_take :
    (let w := { spreading with dst := 3 }
     w.slotKind = false ∧ (bitOf ((marked w).marks 0x10_0500) w.dst || ([1] : List Int).headD 0 != 0) = bitOf ((marked w).marks 0x10_0500) w.dst)
      ∧ (let w := { spreading with dst := 4 }
         (bitOf ((marked w).marks 0x10_0500) w.dst || ([1] : List Int).headD 0 != 0) ≠ bitOf ((marked w).marks 0x10_0500) w.dst
           ∧ ∀ i < 4, zeroRow (0x10_0500 + 12 + i) = false ∧ ((marked w).die (homeDie (0x10_0500 + 12 + i))).failed = false)
      ∧ (let w := { spreading with slotKind := true, comb := 3, dst := 1 }
         w.comb ≠ 4 ∧ w.comb ≠ 5
           ∧ combineVals w.comb ((marked w).nodeVal w 0x10_0500 w.dst).1 (List.replicate 16 0) = ((marked w).nodeVal w 0x10_0500 w.dst).1
           ∧ combineVals w.comb ((marked w).nodeVal w 0x10_0500 w.dst).1 (List.replicate 16 1) ≠ ((marked w).nodeVal w 0x10_0500 w.dst).1)
      ∧ ({ spreading with slotKind := true, comb := 4 } : Wave).comb = 4 := by decide +kernel

/-- A packet held at the output port that the next one reaches, with one constituent each; two that wait to be sent there. -/
def earlier : Packet := { packet with id := 6, operand := 5#32, held := true, due := 121610, list := [{ req := 1 }] }
def later : Packet := { packet with operand := 3#32, list := [{ req := 2 }] }
def meeting : State := { fabric packet {} with pkts := [earlier, later] }

theorem witness_FabricEvents_merge :
    meeting.pkts.find? (fun x => x.id == 7) = some later ∧ later.path = { die := 3, stage := 2, sw := 15, out := 3 } :: [] ∧ later.held = false
      ∧ later.ready = false ∧ meeting.constReady later = true ∧ bitOf (meeting.die 3).combwin 8 = false ∧ later.kind = .atomic .add false true
      ∧ meeting.pkts.find? (fun q => (q.held && q.path.head? == some { die := 3, stage := 2, sw := 15, out := 3 }) && q.mergesWith later) = some earlier
      ∧ meeting.recordsAt { die := 3, stage := 2, sw := 15, out := 3 } < 256 ∧ bits (meeting.die 3).combtest 23 16 = 0
      ∧ later.kind.channel ≠ .requests := by
  refine ⟨rfl, rfl, rfl, rfl, rfl, rfl, rfl, rfl, by decide, rfl, by decide⟩

theorem witness_FabricEvents_sent :
    let h : Hop := { die := 3, stage := 2, sw := 15, out := 3 }
    let s : State := { meeting with pkts := [{ later with ready := true }, { earlier with ready := true, passed := 64 }] }
    (s.sentNext h).map (·.id) = some 6 ∧ (∃ q ∈ s.readyAt h, 64 ≤ q.passed)
      ∧ ((State.sentNext { meeting with pkts := [{ later with ready := true }] } h).map (·.id) = some 7)
      ∧ ∀ q ∈ State.readyAt { meeting with pkts := [{ later with ready := true }] } h, q.passed < 64 := by
  refine ⟨rfl, ⟨_, List.mem_cons_of_mem _ (List.mem_singleton.2 rfl), by decide⟩, rfl, ?_⟩
  intro q hq
  rcases List.mem_singleton.1 hq with rfl
  decide

theorem witness_LaunchEvents_start : (launching { launched with waiting := true }).predResult 0 launched.book = (false, 0)
    ∧ (launching { launched with waiting := true }).predsOpen 0 launched.book = false
    ∧ (∀ g ∈ State.reset.groups, g.uid < State.reset.fresh) ∧ (∀ x ∈ State.reset.gangs, x.id ≠ State.reset.fresh)
    ∧ (launched.book.bpg * launched.book.groups) * (13 + ceilDiv launched.book.regs 2) ≤ Config.regLines := by
  refine ⟨by decide +kernel, rfl, fun _ h => (by cases h), fun _ h => (by cases h), by decide⟩

theorem witness_LaunchEvents_steal :
    let l := { launched with ranges := [({ cluster := 0, lo := 1, hi := 4 } : Range), { cluster := 95, lo := 1, hi := 1 }] }
    (launching l).serves 95 l = true ∧ (launching l).freePlace 95 l (4 - 1) = true := by decide +kernel

/-- A callboard ring of one record with none written, and full. -/
def ringState (n : Nat) : State :=
  { launching { launched with ranges := [] } with
    mem := [(0x10_0008, 16#8), (0x10_000A, 1#8)], parts := [(0, { cbtablo := 0x10_0000#32, ctxlen := 1#32, rings := [(0, { count := n })] })] }

theorem witness_LaunchEvents_ring : ((ringState 0).ringDesc 0 0).valid = true ∧ (ringState 0).ringFull 0 0 = false
    ∧ (ringState 65536).ringFull 0 0 = true ∧ ((launching launched).ringDesc 0 0).valid = false := by decide +kernel

/-- A gang one of whose groups is inside a scene; one at a boundary. -/
def leaving (i : Issue) : State :=
  { State.reset with groups := [lean0], gangs := [{ id := 2, launch := 3, cores := [0] }], launches := [{ id := 3 }], iss := i }

theorem witness_GangEvents_leave :
    (let s := leaving { live := true, g := { uid := 1 } }
     s.gang 2 = some { id := 2, launch := 3, cores := [0] } ∧ (∃ x ∈ s.groups, x.gang = 2 ∧ x.place ≠ .ended ∧ s.atBoundary x.uid = false))
      ∧ (let s := leaving {}
         (s.groups.map (·.uid)).Nodup ∧ (∀ x ∈ s.groups, x.gang = 2 → x.place ≠ .ended → s.atBoundary x.uid = true ∧ x.twin = none ∧ x.points = [])
           ∧ s.scratchBusy [2] = false) := by
  refine ⟨⟨rfl, lean0, List.mem_singleton.2 rfl, rfl, by decide, rfl⟩, by decide, fun x hx _ _ => ?_, rfl⟩
  rcases List.mem_singleton.1 hx with rfl
  exact ⟨rfl, rfl, rfl⟩

/-- The gang after it has left, ready to resume on core 0. -/
def left : State := match exec (.preemptionRequest 2) (leaving {}) with | .next t => t | _ => State.reset

theorem witness_GangEvents_resume : (left.gang 2).map (·.place) = some .parked ∧ (left.launch 3).isSome = true
    ∧ ((left.gangGroups 2).map fun x => (x.uid, x.place, x.gang, x.cached)) = [(1, .evicted, 2, false)] ∧ left.residents 0 < 32
    ∧ ((left.cachedOn 0).map Grp.lines).sum + lean0.lines ≤ Config.regLines := by
  decide +kernel

/-- A write of the network behind a line that a copy owns, and one that nothing stops. -/
theorem witness_PortEvents_waits :
    network.writeWaits [0x12_0008, 0x12_000C, 0x19_003F] = false
      ∧ ({ network with cpys := [{ id := 8, owned := [lineOf 0x19_003F] }] } : State).writeWaits [0x12_0008, 0x12_000C, 0x19_003F] = true
      ∧ (∀ i < 8, zeroRow (0x19_0038 + i) = false ∧ zeroRow (0x12_0008 + i) = false) ∧ (network.die (homeDie 0x19_0038)).failed = false
      ∧ (network.die (homeDie 0x12_0008)).failed = false ∧ (network.die (homeDie 0x12_000C)).failed = false
      ∧ (0x19_0038 + 8 ≤ 0x12_0008 ∨ 0x12_0008 + 8 ≤ 0x19_0038) := by decide +kernel

theorem witness_PortEvents_dma : (let s : State := { State.reset with booted := true }
    s.paFault 0x5F_FFFF_FFFC 4 = none ∧ s.readWaits ((List.range 4).map (0x5F_FFFF_FFFC + ·)) = false ∧ s.conf.endpoint = false
      ∧ s.writeWaits ((List.range [1#8, 2#8].length).map (0x5F_FFFF_FFFC + ·)) = false ∧ s.paFault 0x60_0000_0000 1 = some (.noMemory 0x60_0000_0000))
    ∧ (∀ d < 4, flashPasses State.reset.flash d = true ∨ flashPasses State.reset.flash d = false) := by
  refine ⟨⟨rfl, rfl, rfl, rfl, rfl⟩, fun d _ => ?_⟩
  cases flashPasses State.reset.flash d <;> simp

/-- Dies that have all passed, and one that has not where its checks fail. -/
theorem witness_PortEvents_boot :
    (let s : State := { State.reset with dies := (List.range 4).map fun d => (d, { passed := true }) }
     s.booted = false ∧ ∀ d < 4, ((s.die d).passed || flashPasses s.flash d) = true)
      ∧ (State.reset.die 3).passed = false :=
  ⟨⟨rfl, fun d h => (by have : d = 0 ∨ d = 1 ∨ d = 2 ∨ d = 3 := (by omega); rcases this with rfl | rfl | rfl | rfl <;> rfl)⟩, rfl⟩

theorem witness_StepKeepsSplitShape : UidsOk (State.withFetchWord State.reset 32 0x0D000000) ∧ Paired (fixtureGroup 1 true)
    ∧ (State.withFetchWord State.reset 32 0x0D000000).grp 1 = some (fixtureGroup 1 true) ∧ (fixtureGroup 1 true).cached = true
    ∧ (∀ k ∈ (State.withFetchWord State.reset 32 0x0D000000).gangs, (k.id = (fixtureGroup 1 true).gang ∨ k.twin = some (fixtureGroup 1 true).gang) → k.place ≠ .parked)
    ∧ (∃ t, step (State.withFetchWord State.reset 32 0x0D000000) = .next t ∧ ∃ h, t.grp 1 = some h ∧ h.cached = true) := by
  refine ⟨⟨by decide +kernel, by decide +kernel⟩, ⟨by decide, by decide, by decide, nofun, by decide⟩, rfl, rfl, by decide +kernel, _, rfl, _, rfl, rfl⟩

end Sys2Proof.Tests
end

section
/-! SUPPORT. The proofs of the statements of spec/05_isa_core.md on table look-up and bit fields (R111, R112) and on jumps and the
branch that never splits (R92, R95). First the rules they share: what a body word answers, in the terms of the statements, and Sext of R6;
then one part for each family of words. -/

namespace Sys2Proof.Machine

open Sys2Proof.Claim

/-! Body words. -/

/-- A body word whose checks pass (R36, R37): the scene buffer as f leaves it. -/
theorem State.word_went {s : State} {ins : Instr} {f : Issue → Except Trap Issue} {j : Issue} (hw : AtWord s ins)
    (hf : f s.iss = .ok j) : s.word ins f = .next (went s j) :=
  State.word_next hw.live hw.body hw.kinds hw.regs hf

/-- A body word one of whose checks fails (R36, R37): the scene traps. -/
theorem State.word_trapScene {s : State} {ins : Instr} {f : Issue → Except Trap Issue} {t : Trap} (hw : AtWord s ins)
    (hf : f s.iss = .error t) : s.word ins f = .next (s.trapScene t) :=
  State.word_trap hw.live hw.body hw.kinds hw.regs hf

/-! Sext of R6. -/

/-- Sext as an integer: a field whose sign bit is set stands for its number less 2 ^ n. -/
theorem sext_eq_ofInt (x : Word) {n : Nat} (hn : n ≤ 32) : sext x n =
    BitVec.ofInt 32 (if x.toNat % 2 ^ n < 2 ^ (n - 1) then ((x.toNat % 2 ^ n : Nat) : Int)
      else ((x.toNat % 2 ^ n : Nat) : Int) - 2 ^ n) := by
  have hle : 2 ^ n ≤ 2 ^ 32 := Nat.pow_le_pow_right (by decide) hn
  simp only [sext]
  generalize x.toNat % 2 ^ n = v
  split
  · exact (BitVec.ofInt_natCast 32 v).symm
  · have hcast : ((v + 2 ^ 32 - 2 ^ n : Nat) : Int) = (v : Int) - 2 ^ n + ((2 ^ 32 : Nat) : Int) := by
      rw [Nat.cast_sub (by omega)]; push_cast; ring
    rw [← BitVec.ofInt_natCast, hcast, BitVec.ofInt_add, BitVec.ofInt_natCast 32 (2 ^ 32)]
    exact BitVec.add_zero _

/-- Sext of a whole n-bit field is its sign extension. -/
theorem sext_setWidth {n : Nat} (f : BitVec n) (h0 : 0 < n) (hn : n ≤ 32) : sext (f.setWidth 32) n = f.signExtend 32 := by
  have hle : 2 ^ n ≤ 2 ^ 32 := Nat.pow_le_pow_right (by decide) hn
  have hv : (f.setWidth 32).toNat % 2 ^ n = f.toNat := by
    rw [BitVec.toNat_setWidth, Nat.mod_eq_of_lt (f.isLt.trans_le hle), Nat.mod_eq_of_lt f.isLt]
  have hhalf : f.toNat < 2 ^ (n - 1) ↔ 2 * f.toNat < 2 ^ n := by
    obtain ⟨k, rfl⟩ := Nat.exists_eq_succ_of_ne_zero h0.ne'
    simp only [Nat.succ_sub_one, Nat.pow_succ]; omega
  rw [sext_eq_ofInt _ hn, hv, BitVec.signExtend, BitVec.toInt_eq_toNat_cond]
  simp only [hhalf, Nat.cast_pow, Nat.cast_ofNat]

/-! Table look-up (R111). -/

/-- The bit that lut3 reads for one position: the three sources' bits, as 1 and 0, give its place in the table. -/
theorem lut3_bit (lut : Nat) (x y z : Bool) :
    (lut / 2 ^ ((if z then 1 else 0) * 4 + (if x then 1 else 0) * 2 + (if y then 1 else 0)) % 2 == 1)
      = lut.testBit (4 * z.toNat + 2 * x.toNat + y.toNat) := by
  have hbit (b : Bool) : (if b then 1 else 0) = b.toNat := by cases b <;> rfl
  rw [Nat.testBit_eq_decide_div_mod_eq, hbit, hbit, hbit, Nat.mul_comm _ 4, Nat.mul_comm _ 2, beq_eq_decide]

/-- Settles O7: the three-source rule of R90, then the table bit by bit. -/
theorem lut3Writes : Obligations.Lut3Writes := by
  intro s d a b e x y h he hw
  rw [exec_lut3, execLut3, State.word_went hw (Issue.lane3_ok h.type he (by nofun) (by nofun) h.srcA h.srcB h.guard)]
  simp only [lut3_bit]
  rfl

/-! Bit fields (R112). -/

theorem fieldPos_eq (y : Word) : fieldPos y = y.toNat % 32 := rfl

theorem fieldLen_eq (y : Word) : fieldLen y = min (y.toNat / 256 % 32) (32 - y.toNat % 32) := by
  rewrite [fieldLen, fieldPos_eq, bits, Nat.shiftRight_eq_div_pow]
  rfl

theorem fieldLen_le (y : Word) : fieldLen y ≤ 32 := (Nat.min_le_right _ _).trans (Nat.sub_le _ _)

/-- Sext of a field of n bits, by its number. -/
theorem sext_field {f n : Nat} (hn : n ≤ 32) (hf : f < 2 ^ n) :
    sext (BitVec.ofNat 32 f) n = if 2 ^ (n - 1) ≤ f then BitVec.ofInt 32 ((f : Int) - 2 ^ n) else BitVec.ofNat 32 f := by
  have hle : 2 ^ n ≤ 2 ^ 32 := Nat.pow_le_pow_right (by decide) hn
  have hv : (BitVec.ofNat 32 f).toNat % 2 ^ n = f := by
    rw [BitVec.toNat_ofNat, Nat.mod_eq_of_lt (hf.trans_le hle), Nat.mod_eq_of_lt hf]
  rw [sext_eq_ofInt _ hn, hv]
  by_cases h : 2 ^ (n - 1) ≤ f
  · rw [if_neg (Nat.not_lt.2 h), if_pos h]
  · rw [if_pos (Nat.lt_of_not_le h), if_neg h, BitVec.ofInt_natCast]

/-- What bfx makes of a field: signed under I32, unsigned under N32. -/
theorem extend_field {e f n : Nat} (hn : n ≤ 32) (hf : f < 2 ^ n) :
    (if e = tI32 then sext (BitVec.ofNat 32 f) n else BitVec.ofNat 32 f)
      = if e = tI32 ∧ 2 ^ (n - 1) ≤ f then BitVec.ofInt 32 ((f : Int) - 2 ^ n) else BitVec.ofNat 32 f := by
  by_cases he : e = tI32 <;> simp [he, sext_field hn hf]

/-- Settles O9: the two- and three-source rules of R90, then the field's bounds. -/
theorem bitFieldWordsWrite : Obligations.BitFieldWordsWrite := by
  intro s d a b e x y h he ht
  refine ⟨fun hw => ?_, fun hd hw => ?_⟩
  · rw [exec_bfx, execBfx, State.word_went hw (Issue.lane2_ok h.type he (fun _ => ht) h.srcA h.srcB h.guard)]
    have hfield (l : Nat) := extend_field (e := e) (fieldLen_le (y.at l))
      (Nat.mod_lt ((x.at l).toNat / 2 ^ fieldPos (y.at l)) (Nat.two_pow_pos _))
    simp only [hfield]
    simp only [fieldPos_eq, fieldLen_eq]
    rfl
  · have hd' : ∀ t, some e = some t → s.iss.checkTag t d = .ok () := by rintro t ⟨⟩; exact hd
    rw [exec_bfi, execBfi, State.word_went hw (Issue.lane3_ok h.type he (fun _ => ht) hd' h.srcA h.srcB h.guard)]
    simp only [fieldPos_eq, fieldLen_eq]
    rfl

/-! A fragment that goes on at an address (R16, R92). -/

/-- At a scene boundary nothing happens where neither fragment stands at its join. -/
theorem Grp.boundary_eq_self {g : Grp} {b : Bool} (hb : (g.slot b).atEnd = false) (ho : (g.slot (!b)).atEnd = false) :
    g.boundary b = g := by
  have hstop : g.stopAt b = g := by simp [Grp.stopAt, hb]
  have hslots : (g.slot0.atEnd || g.slot1.atEnd) = false := by
    cases b
    · exact Bool.or_eq_false_iff.2 ⟨hb, ho⟩
    · exact Bool.or_eq_false_iff.2 ⟨ho, hb⟩
  simp [Grp.boundary, hstop, Grp.stops, hslots]

/-- The fragment in slot b sent to an address, with what follows there at the boundary (R16, R18). -/
def State.goTo (s : State) (u : Nat) (b : Bool) (pc : Word) : State := s.updGrp u fun g => (sentTo g b pc).boundary b

/-- A fragment sent to an address where it does not stop is ready there. -/
theorem boundary_sentTo {g : Grp} {b : Bool} {pc : Word} (h : GoesOn g b pc) : (sentTo g b pc).boundary b = sentTo g b pc := by
  refine Grp.boundary_eq_self ?_ ?_
  · rcases h.away with hj | hj | hj <;> simp [sentTo, Slot.atEnd, hj]
  · simp [sentTo, h.other]

theorem State.grp_goTo {s : State} {u : Nat} {g : Grp} {b : Bool} {pc : Word} (hg : s.grp u = some g) (h : GoesOn g b pc) :
    (s.goTo u b pc).grp u = some (sentTo g b pc) := by
  have huid : ((sentTo g b pc).boundary b).uid = u := by rw [boundary_sentTo h, sentTo, Grp.updSlot_uid, State.grp_uid hg]
  rw [State.goTo, State.grp_updGrp hg huid, boundary_sentTo h]

/-- Where a fragment goes on does not depend on a scalar. -/
theorem goesOn_setS {g : Grp} {b : Bool} {pc : Word} (n : Nat) (r : SReg) (h : GoesOn g b pc) : GoesOn (g.setS n r) b pc :=
  ⟨h.away, h.other⟩

/-! Jumps (R33, R92). -/

/-- A target off words from the executing word (R33). -/
theorem Issue.target_eq (i : Issue) {n : Nat} (f : BitVec n) (h0 : 0 < n) (hn : n ≤ 32) :
    i.target (f.setWidth 32) n = i.pc + 4#32 * BitVec.ofNat 32 i.idx + 4#32 * f.signExtend 32 := by
  rw [Issue.target, Issue.addr, sext_setWidth f h0 hn, BitVec.ofNat_mul]

theorem execJmp_went {s : State} {f : BitVec 24} (hw : AtWord s (.jmp f)) :
    execJmp f s = .next (went s { s.iss with final := .jump (s.iss.target (f.setWidth 32) 24) false }) :=
  State.word_went hw rfl

theorem execCall_went {s : State} {f : BitVec 24} (hw : AtWord s (.call f)) :
    execCall f s = .next (went s { s.iss with final := .jump (s.iss.target (f.setWidth 32) 24) true }) :=
  State.word_went hw rfl

/-- The link that call writes into s31: the next header, clean and full. -/
def Issue.link (i : Issue) : SReg := { val := i.nextPc, pois := false, full := true }

theorem State.applyFinal_jump {s : State} {i : Issue} {b : Bool} {t : Word} (h : i.final = .jump t false) :
    s.applyFinal i b = some (s.goTo i.g.uid b t) := by
  rw [State.applyFinal, h]; rfl

theorem State.applyFinal_call {s : State} {i : Issue} {b : Bool} {t : Word} (h : i.final = .jump t true) :
    s.applyFinal i b = some ((s.updGrp i.g.uid fun g => g.setS 31 i.link).goTo i.g.uid b t) := by
  rw [State.applyFinal, h]; rfl

/-- Settles O27: at the word the target of R33, at the trailer the fragment sent there, after the link for call. -/
theorem jumpAndCallLink : Obligations.JumpAndCallLink := by
  refine ⟨fun s f => ?_, fun s i g b t hg hgo => ⟨fun hf => ?_, fun hf => ?_⟩⟩
  · have htarget := s.iss.target_eq f (by decide) (by decide)
    refine ⟨fun hw => ?_, fun hw => ?_⟩
    · rw [exec_jmp, execJmp_went hw, htarget]
    · rw [exec_call, execCall_went hw, htarget]
  · exact ⟨_, State.applyFinal_jump hf, rfl, State.grp_goTo hg hgo⟩
  · have hlink : (s.updGrp i.g.uid fun g => g.setS 31 i.link).grp i.g.uid = some (g.setS 31 i.link) :=
      State.grp_updGrp hg ((Grp.setS_uid g 31 i.link).trans (State.grp_uid hg))
    exact ⟨_, State.applyFinal_call hf, rfl, State.grp_goTo hlink (goesOn_setS _ _ hgo)⟩

/-! The branch that never splits (R95). -/

theorem Issue.branch_ok {i : Issue} {p : Nat} (h : (i.g.preg p).pois &&& i.mask = 0#32) :
    i.branch p = .ok ((i.g.preg p).val &&& i.mask) := by
  rw [Issue.branch, if_pos h]

/-- A branch predicate poisoned in a lane of the mask is consumed (R50). -/
theorem Issue.branch_trap {i : Issue} {p : Nat} (h : (i.g.preg p).pois &&& i.mask ≠ 0#32) :
    i.branch p = .error (i.trap clsPoison (lowLane ((i.g.preg p).pois &&& i.mask))) := by
  rw [Issue.branch, if_neg h]

theorem execBru_went {s : State} {p : BitVec 3} {c : BitVec 2} {f : BitVec 19}
    (hp : (s.iss.g.preg p.toNat).pois &&& s.iss.mask = 0#32) (hw : AtWord s (.bru p c f)) :
    execBru p c f s = .next (went s { s.iss with final := .bru p c (s.iss.target (f.setWidth 32) 19) }) :=
  State.word_went hw (by rw [Issue.branch_ok hp]; rfl)

theorem execBru_trap {s : State} {p : BitVec 3} {c : BitVec 2} {f : BitVec 19}
    (hp : (s.iss.g.preg p.toNat).pois &&& s.iss.mask ≠ 0#32) (hw : AtWord s (.bru p c f)) :
    execBru p c f s = .next (s.trapScene (s.iss.trap clsPoison (lowLane ((s.iss.g.preg p.toNat).pois &&& s.iss.mask)))) :=
  State.word_trapScene hw (by rw [Issue.branch_trap hp]; rfl)

/-- Condition 3 is no operand of bru (R36, R95). -/
theorem execBru_illegal {s : State} {p : BitVec 3} {f : BitVec 19} (hl : s.iss.live = true) (hb : s.iss.phase = .body) :
    execBru p 3#2 f s = .next (s.trapScene (s.iss.trap clsIllegalOperand 0)) :=
  State.word_illegal hl hb rfl

/-- Whether bru takes its branch: x holds the lanes of the mask m with the predicate set. -/
def bruTakes (c : BitVec 2) (x m : Word) : Bool := if c = 0#2 then x != 0#32 else if c = 1#2 then x == m else x == 0#32

/-- The conditions of R95: some, every and no lane. -/
theorem bruTakes_iff {c : BitVec 2} {x m : Word} (hc : c ≠ 3#2) :
    bruTakes c x m = true ↔ (c = 0#2 ∧ x ≠ 0#32) ∨ (c = 1#2 ∧ x = m) ∨ (c = 2#2 ∧ x = 0#32) := by
  have hcases : c = 0#2 ∨ c = 1#2 ∨ c = 2#2 := by bv_omega
  rcases hcases with rfl | rfl | rfl <;> simp [bruTakes]

theorem State.applyFinal_bru {s : State} {i : Issue} {b : Bool} {p : BitVec 3} {c : BitVec 2} {t : Word} (h : i.final = .bru p c t) :
    s.applyFinal i b =
      some (s.goTo i.g.uid b (if bruTakes c ((i.g.preg p.toNat).val &&& i.mask) i.mask then t else i.nextPc)) := by
  rw [State.applyFinal, h]; rfl

/-- Settles O28: at the word the predicate's poison and the target of R33, at the trailer the fragment sent to one of two addresses. -/
theorem bruMoves : Obligations.BruMoves := by
  intro s p c f
  refine ⟨fun hp hw => ?_, fun hp hw => ?_, fun hl hb hc => ?_, fun u g b hg hf hc => ⟨fun ht hgo => ?_, fun ht hgo => ?_⟩⟩
  · rw [exec_bru, execBru_went hp hw, s.iss.target_eq f (by decide) (by decide)]
  · rw [exec_bru, execBru_trap hp hw]
    rfl
  · subst hc
    rw [exec_bru, execBru_illegal hl hb]
    rfl
  · have htakes := (bruTakes_iff hc).2 ht
    refine ⟨_, State.applyFinal_bru hf, rfl, ?_⟩
    rw [if_pos htakes]
    exact State.grp_goTo hg hgo
  · have htakes := mt (bruTakes_iff hc).1 ht
    refine ⟨_, State.applyFinal_bru hf, rfl, ?_⟩
    rw [if_neg htakes]
    exact State.grp_goTo hg hgo

end Sys2Proof.Machine
end

section
/-! SUPPORT. What the machine's own moves are: words, events, a scheduler's choice. -/

namespace Sys2Proof.Machine

open Sys2Proof.Claim

/-- What the machine does of itself (log 1): the events that an instruction's row names, and the agents' stores that wait. -/
inductive OwnEvent : (State → Out) → Prop
  | row (i : Instr) : OwnEvent (exec i)
  | stall : OwnEvent fun s => .next s.serveStall

theorem forall_eventsOf {A : Type} {xs : List A} {key : A → Nat} {f : A → List (State → Out)}
    (h : ∀ x ∈ xs, ∀ e ∈ f x, OwnEvent e) : ∀ e ∈ eventsOf xs key f, OwnEvent e.2 := by
  intro e he
  obtain ⟨x, hx, he⟩ := List.mem_flatMap.1 he
  obtain ⟨g, hg, rfl⟩ := List.mem_map.1 he
  exact h x hx g hg

theorem State.ownEvent_requestMoves (s : State) : ∀ e ∈ s.requestMoves, OwnEvent e.2 := by
  refine forall_eventsOf fun r _ => ?_
  simp only [List.forall_mem_append, List.forall_mem_cons, List.forall_mem_flatMap, List.not_mem_nil, false_imp_iff, implies_true, and_true]
  exact ⟨⟨.row (.gatherWindowExpiry _), fun i _ => ⟨.row (.homeLoad _ _), .row (.homeStore _ _)⟩⟩, .row (.gatherWake _),
    .row (.deferredResultLands _), .row (.storeAcknowledge _)⟩

theorem State.ownEvent_fabricMoves (s : State) : ∀ e ∈ s.fabricMoves, OwnEvent e.2 := by
  simp only [State.fabricMoves, List.forall_mem_append]
  refine ⟨⟨⟨⟨?_, ?_⟩, ?_⟩, ?_⟩, ?_⟩ <;> refine forall_eventsOf fun r _ => ?_ <;>
    simp only [List.forall_mem_cons, List.not_mem_nil, false_imp_iff, implies_true, and_true]
  · exact .row (.deferredResultLands _)
  · exact ⟨.row (.combineRequestArrival _), .row (.combineHoldExpiry _), .row (.homeAtomic _)⟩
  · exact ⟨.row (.replySplit _), .row (.recoverReply _)⟩
  · exact .row (.recordExpiry _)
  · exact .row (.homeLogExpiry _)

theorem State.ownEvent_copyMoves (s : State) : ∀ e ∈ s.copyMoves, OwnEvent e.2 := by
  simp only [State.copyMoves, List.forall_mem_append, List.forall_mem_cons, List.not_mem_nil, false_imp_iff, implies_true, and_true]
  refine ⟨forall_eventsOf fun c _ => ?_, .stall⟩
  simp only [List.forall_mem_append, List.forall_mem_cons, List.forall_mem_map, List.not_mem_nil, false_imp_iff, implies_true, and_true]
  exact ⟨fun l _ => .row (.agentLineRelease _ _), .row (.agentLineRelease _ _), .row (.copyRetire _)⟩

theorem State.ownEvent_coreMoves (s : State) : ∀ e ∈ s.coreMoves, OwnEvent e.2 := by
  refine forall_eventsOf fun c _ => ?_
  simp only [List.forall_mem_append, List.forall_mem_cons, List.forall_mem_map, List.not_mem_nil, false_imp_iff, implies_true, and_true]
  exact ⟨fun k _ => .row (.wcSectorTimeout _ _), .row (.lteWindowExpiry _)⟩

theorem State.ownEvent_groupMoves (s : State) : ∀ e ∈ s.groupMoves, OwnEvent e.2 := by
  refine forall_eventsOf fun g _ => ?_
  simp only [List.forall_mem_append, List.forall_mem_flatMap, List.forall_mem_cons, List.not_mem_nil, false_imp_iff, implies_true, and_true]
  have hslot (i : Bool) : OwnEvent (execEmptyWaitEnd g.uid i) ∧ OwnEvent (execStalledPerformResume g.uid i) ∧
      OwnEvent (execDrainComplete g.uid i) ∧ OwnEvent (execMwaitWatchFire g.uid i) ∧ OwnEvent (execMwaitPoll g.uid i) :=
    ⟨.row (.emptyWaitEnd _ _), .row (.stalledPerformResume _ _), .row (.drainComplete _ _), .row (.mwaitWatchFire _ _),
      .row (.mwaitPoll _ _)⟩
  exact ⟨⟨.row (.understudyCompare _), .row (.fencePerform _), .row (.parkedGroupReady _), .row (.ptsSelfIncrement _)⟩,
    hslot false, hslot true⟩

theorem State.ownEvent_engineMoves (s : State) : ∀ e ∈ s.engineMoves, OwnEvent e.2 := by
  simp only [State.engineMoves, List.forall_mem_append]
  refine ⟨forall_eventsOf fun c _ => ?_, forall_eventsOf fun c _ => ?_⟩ <;>
    simp only [List.forall_mem_append, List.forall_mem_map, List.forall_mem_cons, List.not_mem_nil, false_imp_iff, implies_true, and_true]
  · exact ⟨.row (.sequencerIssue _), .row (.wloadRetire _), .row (.wfreeRetire _), .row (.engineOutputEntry _), .row (.rehearsalHeld _),
      .row (.stageRetire _)⟩
  · exact ⟨fun l _ => .row (.bankRowWrite _ _), .row (.bankCommandComplete _)⟩

theorem State.ownEvent_bankMoves (s : State) : ∀ e ∈ s.bankMoves, OwnEvent e.2 := by
  refine forall_eventsOf fun b _ => ?_
  simp only [List.forall_mem_cons, List.not_mem_nil, false_imp_iff, implies_true, and_true]
  exact .row (.demandWaitTimeout _)

theorem State.ownEvent_waveMoves (s : State) : ∀ e ∈ s.waveMoves, OwnEvent e.2 := by
  refine forall_eventsOf fun w _ => ?_
  simp only [List.forall_mem_append, List.forall_mem_map, List.forall_mem_cons, List.not_mem_nil, false_imp_iff, implies_true, and_true]
  exact ⟨⟨⟨⟨⟨⟨.row (.gbindApply _), .row (.waveArrival _), .row (.waveStart _), .row (.collectPush _)⟩,
    fun l _ => .row (.bankRowWrite _ _)⟩, fun l _ => .row (.agentLineRelease _ _)⟩, fun m _ => .row (.markerMessage _ _)⟩,
    fun o _ => .row (.weightLoan _ _)⟩, .row (.weightReturn _ _), fun x _ => .row (.weightReturn _ _)⟩

theorem State.ownEvent_partMoves (s : State) : ∀ e ∈ s.partMoves, OwnEvent e.2 := by
  refine forall_eventsOf fun p _ => ?_
  simp only [List.forall_mem_append, List.forall_mem_map, List.forall_mem_cons, List.not_mem_nil, false_imp_iff, implies_true, and_true]
  exact ⟨⟨fun q _ => .row (.launchWatchFire _ _), fun r _ => .row (.callboardAgeTrigger _ _)⟩, .row (.shootdownDone _)⟩

theorem State.ownEvent_resumeMoves (s : State) : ∀ e ∈ s.resumeMoves, OwnEvent e.2 := by
  refine forall_eventsOf fun g _ => ?_
  exact List.forall_mem_map.2 fun c _ => .row (.groupResume _ _)

theorem State.ownEvent_launchMoves (s : State) : ∀ e ∈ s.launchMoves, OwnEvent e.2 := by
  refine forall_eventsOf fun l _ => ?_
  simp only [List.forall_mem_append, List.forall_mem_flatMap, List.forall_mem_map, List.forall_mem_cons, List.not_mem_nil, false_imp_iff,
    implies_true, and_true]
  exact ⟨⟨⟨⟨⟨.row (.predecessorRelease _), .row (.launchCompletion _), .row (.callboardHoldRelease _)⟩,
    fun k _ i _ => .row (.gangPlacement _ _ _)⟩, fun k _ v _ => .row (.gangSteal _ _ _)⟩, fun k _ i _ => .row (.clusterClear _ _ _)⟩,
    .row (.progressEviction _)⟩

theorem State.ownEvent_ownMoves (s : State) : ∀ es ∈ s.ownMoves, ∀ e ∈ es, OwnEvent e.2 := by
  simp only [State.ownMoves, List.forall_mem_cons, List.not_mem_nil, false_imp_iff, implies_true, and_true]
  exact ⟨s.ownEvent_requestMoves, s.ownEvent_fabricMoves, s.ownEvent_copyMoves, s.ownEvent_coreMoves, s.ownEvent_groupMoves,
    s.ownEvent_engineMoves, s.ownEvent_bankMoves, s.ownEvent_waveMoves, s.ownEvent_partMoves, s.ownEvent_resumeMoves,
    s.ownEvent_launchMoves⟩

theorem Events.least_mem {es : Events} {e : Nat × (State → Out)} (h : es.least = some e) : e ∈ es := by
  have hfold (es ds : Events) (b : Option (Nat × (State → Out))) (hb : ∀ x, b = some x → x ∈ ds) (x)
      (hx : es.foldl (fun b e => match b with | none => some e | some x => if e.1 < x.1 then some e else b) b = some x) :
      x ∈ ds ++ es := by
    induction es generalizing b ds with
    | nil => simpa using hb x hx
    | cons e es ih =>
      have := ih (ds ++ [e]) _ (fun y hy => ?_) hx
      · simpa using this
      · rcases b with _ | b
        · cases hy; simp
        · dsimp only at hy
          split at hy
          · cases hy; simp
          · exact List.mem_append_left _ (hb y hy)
  exact hfold es [] none (fun _ h => by cases h) e h

theorem State.pick_mem {s : State} {last : Nat} {es : Events} {e : Nat × (State → Out)} (h : s.pick last es = some e) : e ∈ es := by
  rcases Option.or_eq_some_iff.1 h with h | ⟨_, h⟩
  · exact List.mem_of_mem_filter (List.mem_of_mem_filter (Events.least_mem h))
  · exact List.mem_of_mem_filter (Events.least_mem h)

/-- What the machine does of itself between two choices of schedulers is one of its events, run with the agenda's counters set. -/
theorem State.eventMove_own {s : State} {o : Out} (h : s.eventMove = some o) :
    ∃ e k l, OwnEvent e ∧ o = e { s with evs := s.evs + 1, evTurn := k, evLast := l } := by
  obtain ⟨⟨k, n, e⟩, hf, rfl⟩ := Option.map_eq_some_iff.1 h
  obtain ⟨⟨es, i⟩, hmem, hp⟩ := List.exists_of_findSome?_eq_some hf
  obtain ⟨x, hx, hxe⟩ := Option.map_eq_some_iff.1 hp
  cases hxe
  refine ⟨e, _, _, ?_, rfl⟩
  have hin : (es, i) ∈ s.ownMoves.zipIdx := by
    rcases List.mem_append.1 hmem with h | h
    · exact List.mem_of_mem_drop h
    · exact List.mem_of_mem_take h
  exact s.ownEvent_ownMoves es (List.fst_mem_of_mem_zipIdx hin) _ (State.pick_mem hx)

theorem LineWait.event_own (w : LineWait) (s : State) : ∃ e, OwnEvent e ∧ w.event s = e s := by
  rcases w with ⟨r, i⟩ | ⟨r, i⟩ | p | ⟨u, slot⟩ | ⟨u, slot⟩
  · exact ⟨_, .row (.homeLoad r i), rfl⟩
  · exact ⟨_, .row (.homeStore r i), rfl⟩
  · exact ⟨_, .row (.homeAtomic p), rfl⟩
  · simp only [LineWait.event]
    split
    · exact ⟨_, .row (.mwaitWatchFire u slot), rfl⟩
    · exact ⟨_, .row (.mwaitPoll u slot), rfl⟩
  · exact ⟨_, .row (.stalledPerformResume u slot), rfl⟩

theorem State.waitMove_own {s : State} {o : Out} (h : s.waitMove = some o) : ∃ e, OwnEvent e ∧ o = e s := by
  obtain ⟨w, -, rfl⟩ := Option.map_eq_some_iff.1 h
  exact w.event_own s

/-- The machine's own next move is the next word of the scene in issue, one of its events, a scheduler's choice, or nothing. -/
theorem State.ownMove_cases (s : State) :
    (∃ w, s.nextWord = some w ∧ s.ownMove = s.runWord w)
      ∨ (∃ e v k l, OwnEvent e ∧ s.ownMove = e { s with evs := v, evTurn := k, evLast := l })
      ∨ (∃ k, s.ownMove = State.schedIssue { s with turn := k, evs := 0 } (k / 4) (k % 4))
      ∨ s.ownMove = .next s := by
  unfold State.ownMove
  split
  · next w hw => exact .inl ⟨w, hw, rfl⟩
  split
  · next o ho =>
    obtain ⟨e, he, rfl⟩ := State.waitMove_own ho
    exact .inr (.inl ⟨e, s.evs, s.evTurn, s.evLast, he, rfl⟩)
  have hevent (o : Out) (h : s.eventMove = some o) : ∃ e v k l, OwnEvent e ∧ o = e { s with evs := v, evTurn := k, evLast := l } := by
    obtain ⟨e, k, l, he, rfl⟩ := State.eventMove_own h
    exact ⟨e, _, k, l, he, rfl⟩
  have hissue (o : Out) (h : s.issueMove = some o) : ∃ k, o = State.schedIssue { s with turn := k, evs := 0 } (k / 4) (k % 4) := by
    obtain ⟨k, -, rfl⟩ := Option.map_eq_some_iff.1 h
    exact ⟨k, rfl⟩
  rcases hc : (if s.evs < 64 then s.eventMove.or s.issueMove else s.issueMove.or s.eventMove) with _ | o
  · exact .inr (.inr (.inr rfl))
  · split at hc <;> rcases Option.or_eq_some_iff.1 hc with h | ⟨_, h⟩
    · exact .inr (.inl (hevent o h))
    · exact .inr (.inr (.inl (hissue o h)))
    · exact .inr (.inr (.inl (hissue o h)))
    · exact .inr (.inl (hevent o h))

/-- Every instruction word but the two of a scene's frame runs as a word of the scene in issue. -/
theorem exec_word {i : Instr} (s : State) (hw : isWord i = true) (hs : ∀ l, i ≠ .scene l) (he : ∀ x y z, i ≠ .sceneEnd x y z) :
    ∃ f, exec i s = s.word i f := by
  cases i <;> cases hw
  case scene.refl l => exact absurd rfl (hs l)
  case sceneEnd.refl x y z => exact absurd rfl (he x y z)
  all_goals
    apply Exists.intro
    dsimp only [exec]
    rfl

end Sys2Proof.Machine
end

section
/-! SUPPORT. Every step keeps memory's form (log 2): an event at a time, then the moves, then what settles. -/

namespace Sys2Proof.Machine

open Sys2Proof.Claim

/-- An outcome whose next state, if there is one, keeps memory in its form. -/
def Formed (o : Out) : Prop := ∀ t, o = .next t → Memory.wf t.mem = true

@[simp] theorem formed_next {t : State} : Formed (.next t) ↔ Memory.wf t.mem = true :=
  ⟨fun h => h t rfl, fun h u e => by cases e; exact h⟩

@[simp] theorem formed_fault {f : Fault} : Formed (.fault f) := by simp [Formed]

theorem formed_ite {c : Prop} [Decidable c] {a b : Out} (ha : c → Formed a) (hb : ¬c → Formed b) :
    Formed (if c then a else b) := by
  split
  · exact ha ‹_›
  · exact hb ‹_›

theorem State.nak_formed {s : State} (hf : Memory.wf s.mem = true) (p : NetPacket) (a : Nat) (invalid : Bool) :
    Formed (s.nak p a invalid) :=
  fun _ e => State.nak_form hf e

theorem execDeferredResultLands_formed {s : State} (hf : Memory.wf s.mem = true) (id : Nat) :
    Formed (execDeferredResultLands id s) := by
  unfold execDeferredResultLands
  dsimp only
  repeat' split
  all_goals simp [hf, State.updImage_form]

theorem execEmptyWaitEnd_formed {s : State} (hf : Memory.wf s.mem = true) (u : Nat) (slot : Bool) :
    Formed (execEmptyWaitEnd u slot s) := by
  unfold execEmptyWaitEnd
  dsimp only
  repeat' split
  all_goals simp [hf]

theorem execStalledPerformResume_formed {s : State} (hf : Memory.wf s.mem = true) (u : Nat) (slot : Bool) :
    Formed (execStalledPerformResume u slot s) := by
  unfold execStalledPerformResume
  split
  · exact formed_next.2 hf
  dsimp only
  have htaken (r : List Issue) : Memory.wf (({ s with stowed := r } : State).useImage u).mem = true := State.useImage_form _ _ hf
  refine formed_ite (fun _ => ?_) fun _ => ?_
  · split
    · next t ht => exact formed_next.2 (Memory.form_ite (fun _ => hf) fun _ => State.finishScene_form (t := t) (htaken _) ht)
    · next o ho => exact fun t ht => State.finishScene_form (htaken _) ht
  · refine formed_next.2 (Memory.form_ite (fun _ => hf) fun _ => ?_)
    exact Memory.form_of (State.lateWork_mem ..) (State.runPerform_form _ _ (htaken _))

theorem execPreemptionRequest_formed {s : State} (hf : Memory.wf s.mem = true) (gang : Nat) :
    Formed (execPreemptionRequest gang s) := by
  simp [execPreemptionRequest, hf, State.askEvict_form]

theorem execGroupResume_formed {s : State} (hf : Memory.wf s.mem = true) (gang core : Nat) :
    Formed (execGroupResume gang core s) := by
  unfold execGroupResume
  dsimp only
  repeat' split
  all_goals simp [hf, State.resumeGang_form, State.makeRoom_form]

theorem execParkedGroupReady_formed {s : State} (hf : Memory.wf s.mem = true) (u : Nat) :
    Formed (execParkedGroupReady u s) := by
  unfold execParkedGroupReady
  repeat' split
  all_goals simp [hf]

theorem execPtsSelfIncrement_formed {s : State} (hf : Memory.wf s.mem = true) (u : Nat) :
    Formed (execPtsSelfIncrement u s) := by
  unfold execPtsSelfIncrement
  dsimp only
  repeat' split
  all_goals simp [hf]

theorem execLineEviction_formed {s : State} (hf : Memory.wf s.mem = true) (line : Nat) :
    Formed (execLineEviction line s) := by
  simp [execLineEviction, hf]

theorem execHomeLoad_formed {s : State} (hf : Memory.wf s.mem = true) (r i : Nat) :
    Formed (execHomeLoad r i s) := by
  unfold execHomeLoad
  dsimp only
  repeat' split
  all_goals try next h => 
    have ht := congrArg (Option.map (·.2.2.mem)) h
    (repeat' split at ht) <;> simp at ht <;> simp [← ht, hf]
  all_goals simp [hf]

theorem execHomeStore_formed {s : State} (hf : Memory.wf s.mem = true) (r i : Nat) :
    Formed (execHomeStore r i s) := by
  unfold execHomeStore
  dsimp only
  repeat' split
  all_goals simp [hf, State.storeSector_form]
  exact State.wcWrite_form _ _ _ hf

theorem execHomeAtomic_formed {s : State} (hf : Memory.wf s.mem = true) (pkt : Nat) :
    Formed (execHomeAtomic pkt s) := by
  unfold execHomeAtomic
  split
  · exact formed_next.2 hf
  split
  · dsimp only
    refine formed_ite (fun _ => formed_next.2 hf) fun _ => formed_ite (fun _ => ?_) fun _ => formed_ite (fun _ => ?_) fun _ =>
      formed_ite (fun _ => formed_next.2 ?_) fun _ => formed_next.2 (Memory.form_of (foldl_mem (fun s c => State.deliver_mem ..) _ _) ?_)
    · exact formed_next.2 (Memory.form_of (State.await_mem ..) hf)
    · exact formed_next.2 (Memory.form_of (State.demand_mem ..) hf)
    all_goals
      simp only [State.takeKey_mem, State.unawait_mem, State.served_mem, State.dropPkt_mem, State.fireWatches_mem]
      have hw (rs : List Req) (p : Packet) (bs : List Byte) :
          Memory.wf (if (s.die (homeDie p.pa)).failed then
            rs.foldl (fun s r => s.imprecise .homelost r.part r.imgSlot r.ord p.pa) s else s.writePa p.pa bs).mem = true :=
        Memory.form_ite (fun _ => foldl_form (fun s r h => State.imprecise_form _ _ _ _ _ _ h) hf _) fun _ => Memory.wf_writePa hf _ _
      refine Memory.form_ite (fun _ => ?_) fun _ =>
        Memory.form_of (foldl_mem (fun s r => ?_) _ _) <| Memory.form_of (foldl_mem (fun s r => ?_) _ _) ?_
      · refine Memory.form_of (State.dropCopies_mem ..) (Memory.form_ite (fun _ => hw _ _ _) fun _ =>
          Memory.form_of (State.noteDirty_mem ..) (hw _ _ _))
      · exact State.markEarly_mem ..
      · exact (State.refreshCopies_mem ..).trans (State.raiseFor_mem ..)
      · refine Memory.form_of (State.stampLine_mem ..) (Memory.form_ite (fun _ => hw _ _ _) fun _ =>
          Memory.form_of (State.noteDirty_mem ..) (hw _ _ _))
  · exact formed_next.2 hf

theorem execStoreAcknowledge_formed {s : State} (hf : Memory.wf s.mem = true) (r : Nat) :
    Formed (execStoreAcknowledge r s) := by
  unfold execStoreAcknowledge
  dsimp only
  repeat' split
  all_goals simp [hf]

theorem execWcSectorTimeout_formed {s : State} (hf : Memory.wf s.mem = true) (core i : Nat) :
    Formed (execWcSectorTimeout core i s) := by
  unfold execWcSectorTimeout
  repeat' split
  all_goals simp [hf, State.wcFlush_form]

theorem execGatherWindowExpiry_formed {s : State} (hf : Memory.wf s.mem = true) (r : Nat) :
    Formed (execGatherWindowExpiry r s) := by
  unfold execGatherWindowExpiry
  dsimp only
  repeat' split
  all_goals simp [hf, foldl_mem]

theorem execGatherWake_formed {s : State} (hf : Memory.wf s.mem = true) (r : Nat) :
    Formed (execGatherWake r s) := by
  unfold execGatherWake
  repeat' split
  all_goals simp [hf]

theorem execAgentLineRelease_formed {s : State} (hf : Memory.wf s.mem = true) (cmd line : Nat) :
    Formed (execAgentLineRelease cmd line s) := by
  unfold execAgentLineRelease
  dsimp only
  repeat' split
  all_goals simp [hf, State.moveCopy_form, State.copyLine_form]

theorem execCopyRetire_formed {s : State} (hf : Memory.wf s.mem = true) (r : Nat) :
    Formed (execCopyRetire r s) := by
  unfold execCopyRetire
  dsimp only
  repeat' split
  · exact formed_next.2 hf
  · simp [hf, State.moveCopy_form]
  · exact formed_next.2 hf
  · simp only [formed_next, State.endCopy_mem]
    refine foldl_form (fun s kn h => ?_) (foldl_form (fun s b h => ?_) (foldl_form (fun s l h => ?_) ?_ _) _) _
    · exact Memory.form_of (foldl_mem (fun s b => State.fireWatches_mem ..) _ _) (State.writeMarkedScratch_form _ _ _ _ h)
    · simpa using h
    · exact State.imprecise_form _ _ _ _ _ _ h
    · simp [hf, State.writeMarked_form]

theorem execFencePerform_formed {s : State} (hf : Memory.wf s.mem = true) (u : Nat) :
    Formed (execFencePerform u s) := by
  unfold execFencePerform
  dsimp only
  repeat' split
  all_goals simp [hf, State.endWait_form]

theorem execDrainComplete_formed {s : State} (hf : Memory.wf s.mem = true) (u : Nat) (slot : Bool) :
    Formed (execDrainComplete u slot s) := by
  unfold execDrainComplete
  dsimp only
  repeat' split
  all_goals simp [hf, State.endWait_form]

theorem execMwaitWatchFire_formed {s : State} (hf : Memory.wf s.mem = true) (u : Nat) (slot : Bool) :
    Formed (execMwaitWatchFire u slot s) := by
  unfold execMwaitWatchFire
  dsimp only
  repeat' split
  all_goals simp [hf, State.mwaitTry_form]

theorem execMwaitPoll_formed {s : State} (hf : Memory.wf s.mem = true) (u : Nat) (slot : Bool) :
    Formed (execMwaitPoll u slot s) := by
  unfold execMwaitPoll
  dsimp only
  repeat' split
  all_goals simp [hf, State.mwaitTry_form]

theorem execSequencerIssue_formed {s : State} (hf : Memory.wf s.mem = true) (cmd : Nat) :
    Formed (execSequencerIssue cmd s) := by
  unfold execSequencerIssue
  dsimp only
  repeat' split
  all_goals simp [hf]

theorem execWloadRetire_formed {s : State} (hf : Memory.wf s.mem = true) (cmd : Nat) :
    Formed (execWloadRetire cmd s) := by
  unfold execWloadRetire
  dsimp only
  repeat' split
  all_goals simp [hf, State.wakeWaits_form]

theorem execWfreeRetire_formed {s : State} (hf : Memory.wf s.mem = true) (cmd : Nat) :
    Formed (execWfreeRetire cmd s) := by
  unfold execWfreeRetire
  repeat' split
  all_goals simp [hf, State.wakeWaits_form]

theorem execEngineOutputEntry_formed {s : State} (hf : Memory.wf s.mem = true) (cmd : Nat) :
    Formed (execEngineOutputEntry cmd s) := by
  unfold execEngineOutputEntry
  dsimp only
  repeat' split
  all_goals simp [hf]

theorem execStageRetire_formed {s : State} (hf : Memory.wf s.mem = true) (cmd : Nat) :
    Formed (execStageRetire cmd s) := by
  unfold execStageRetire
  repeat' split
  all_goals simp [hf, State.wakeWaits_form]

theorem execRehearsalHeld_formed {s : State} (hf : Memory.wf s.mem = true) (cmd : Nat) :
    Formed (execRehearsalHeld cmd s) := by
  unfold execRehearsalHeld
  dsimp only
  repeat' split
  all_goals simp [hf]

theorem execEngineBitstepReplay_formed {s : State} (hf : Memory.wf s.mem = true) (core : Nat) :
    Formed (execEngineBitstepReplay core s) := by
  simp [execEngineBitstepReplay, hf, State.countLte_form]

theorem execBankCommandComplete_formed {s : State} (hf : Memory.wf s.mem = true) (cmd : Nat) :
    Formed (execBankCommandComplete cmd s) := by
  unfold execBankCommandComplete
  dsimp only
  repeat' split
  all_goals simp [hf, State.imprecise_form, Memory.wf_writePa]

theorem execBankRowWrite_formed {s : State} (hf : Memory.wf s.mem = true) (cmd line : Nat) :
    Formed (execBankRowWrite cmd line s) := by
  unfold execBankRowWrite
  repeat' split
  all_goals simp [hf, State.bankLine_form, State.waveLine_form]

theorem execDemandWaitTimeout_formed {s : State} (hf : Memory.wf s.mem = true) (bank : Nat) :
    Formed (execDemandWaitTimeout bank s) := by
  unfold execDemandWaitTimeout
  dsimp only
  repeat' split
  all_goals simp [hf]

theorem execBankRefresh_formed {s : State} (hf : Memory.wf s.mem = true) (bank : Nat) :
    Formed (execBankRefresh bank s) := by
  unfold execBankRefresh
  repeat' split
  all_goals simp [hf]

theorem execWaveArrival_formed {s : State} (hf : Memory.wf s.mem = true) (wave : Nat) :
    Formed (execWaveArrival wave s) := by
  unfold execWaveArrival
  dsimp only
  repeat' split
  all_goals simp [hf, State.wakeWaits_form]

theorem execGbindApply_formed {s : State} (hf : Memory.wf s.mem = true) (wave : Nat) :
    Formed (execGbindApply wave s) := by
  unfold execGbindApply
  dsimp only
  repeat' split
  all_goals simp [hf, State.wakeWaits_form]

theorem execWaveStart_formed {s : State} (hf : Memory.wf s.mem = true) (wave : Nat) :
    Formed (execWaveStart wave s) := by
  unfold execWaveStart
  dsimp only
  repeat' split
  all_goals simp [hf, State.tryRound_form, State.endWave_form, State.loseWave_form]

theorem execMarkerMessage_formed {s : State} (hf : Memory.wf s.mem = true) (wave i : Nat) :
    Formed (execMarkerMessage wave i s) := by
  unfold execMarkerMessage
  split
  · exact formed_next.2 hf
  split
  · exact formed_next.2 hf
  refine formed_ite (fun _ => formed_next.2 hf) fun _ => ?_
  split
  · exact formed_next.2 (State.stopWave_form _ _ hf)
  split
  · next t h => exact formed_next.2 (Memory.form_of (State.waveBlocked_mem h) hf)
  dsimp only
  split
  · exact formed_next.2 (State.stopWave_form _ _ hf)
  next u hu =>
  have hu : Memory.wf u.mem = true := State.fed_form (State.take_form _ _ _ _ _ _ (by simpa using hf)) hu
  refine formed_ite (fun _ => ?_) fun _ => formed_next.2 hu
  split
  · next y hy => exact formed_next.2 (Memory.form_of (State.dispatch_mem ..) (State.sendFrom_form hu hy))
  · exact formed_next.2 hf
  · exact formed_next.2 (State.loseWave_form _ _ hu)

theorem execWeightReturn_formed {s : State} (hf : Memory.wf s.mem = true) (wave bank : Nat) :
    Formed (execWeightReturn wave bank s) := by
  unfold execWeightReturn
  dsimp only
  repeat' split
  all_goals simp [hf, State.countReturn_form]

theorem execWeightLoan_formed {s : State} (hf : Memory.wf s.mem = true) (wave bank : Nat) :
    Formed (execWeightLoan wave bank s) := by
  unfold execWeightLoan
  dsimp only
  repeat' split
  all_goals simp [hf]

theorem execCollectPush_formed {s : State} (hf : Memory.wf s.mem = true) (wave : Nat) :
    Formed (execCollectPush wave s) := by
  unfold execCollectPush
  dsimp only
  repeat' split
  all_goals simp [hf, State.loseWave_form, State.moveWave_form]
  exact Memory.form_of (foldl_mem (fun s l => State.served_mem ..) _ _) (State.writeEntry_form _ _ _ hf)

/-- Entering launches leaves memory. -/
theorem State.setLaunches_mem (s : State) (ls : List Launch) : ({ s with launches := ls } : State).mem = s.mem := rfl

theorem execLaunchWatchFire_formed {s : State} (hf : Memory.wf s.mem = true) (part queue : Nat) :
    Formed (execLaunchWatchFire part queue s) := by
  simp only [execLaunchWatchFire]
  refine formed_ite (fun _ => formed_next.2 hf) fun _ => ?_
  split
  · exact formed_next.2 hf
  refine formed_ite (fun _ => formed_next.2 hf) fun _ =>
    formed_ite (fun _ => formed_next.2 (Memory.form_of (State.demand_mem ..) hf)) fun _ =>
      formed_ite (fun _ => formed_next.2 (Memory.form_of (State.startLaunch_mem ..) ?_)) fun _ => formed_next.2 ?_
  all_goals
    refine Memory.form_of (State.setLaunches_mem ..) ?_
    split <;> split
    all_goals simp [hf]

theorem execPredecessorRelease_formed {s : State} (hf : Memory.wf s.mem = true) (launch : Nat) :
    Formed (execPredecessorRelease launch s) := by
  unfold execPredecessorRelease
  repeat' split
  all_goals simp [hf]

theorem execGangPlacement_formed {s : State} (hf : Memory.wf s.mem = true) (cluster launch core : Nat) :
    Formed (execGangPlacement cluster launch core s) := by
  unfold execGangPlacement
  dsimp only
  repeat' split
  all_goals simp [hf, State.makeRoom_form, State.placeGang_form]

theorem execGangSteal_formed {s : State} (hf : Memory.wf s.mem = true) (cluster launch victim : Nat) :
    Formed (execGangSteal cluster launch victim s) := by
  unfold execGangSteal
  dsimp only
  repeat' split
  all_goals simp [hf]

theorem execClusterClear_formed {s : State} (hf : Memory.wf s.mem = true) (cluster launch core : Nat) :
    Formed (execClusterClear cluster launch core s) := by
  unfold execClusterClear
  dsimp only
  repeat' split
  all_goals simp only [formed_next, hf]
  exact foldl_form (fun s g h => State.askEvict_form _ _ h) (by simpa using hf) _

theorem execProgressEviction_formed {s : State} (hf : Memory.wf s.mem = true) (launch : Nat) :
    Formed (execProgressEviction launch s) := by
  unfold execProgressEviction
  dsimp only
  repeat' split
  all_goals simp [hf, State.askEvict_form]

theorem execLaunchCompletion_formed {s : State} (hf : Memory.wf s.mem = true) (launch : Nat) :
    Formed (execLaunchCompletion launch s) := by
  unfold execLaunchCompletion
  repeat' split
  all_goals simp [hf, State.completeLaunch_form]

theorem execCallboardAgeTrigger_formed {s : State} (hf : Memory.wf s.mem = true) (part ring : Nat) :
    Formed (execCallboardAgeTrigger part ring s) := by
  unfold execCallboardAgeTrigger
  dsimp only
  repeat' split
  all_goals simp [hf]

theorem execCallboardHoldRelease_formed {s : State} (hf : Memory.wf s.mem = true) (launch : Nat) :
    Formed (execCallboardHoldRelease launch s) := by
  unfold execCallboardHoldRelease
  repeat' split
  all_goals simp [hf, State.completeLaunch_form]

theorem execParkRetry_formed {s : State} (hf : Memory.wf s.mem = true) (part slot : Nat) :
    Formed (execParkRetry part slot s) := by
  simp [execParkRetry, hf, State.parkRetry_form]

theorem execParkDeliver_formed {s : State} (hf : Memory.wf s.mem = true) (part slot : Nat) :
    Formed (execParkDeliver part slot s) := by
  simp [execParkDeliver, hf, State.parkDeliver_form]

theorem execParkKillGang_formed {s : State} (hf : Memory.wf s.mem = true) (part slot : Nat) :
    Formed (execParkKillGang part slot s) := by
  simp [execParkKillGang, hf, State.parkKill_form]

theorem execQuiesce_formed {s : State} (hf : Memory.wf s.mem = true) (part : Nat) :
    Formed (execQuiesce part s) := by
  simp [execQuiesce, hf, State.doQuiesce_form]

theorem execRebase_formed {s : State} (hf : Memory.wf s.mem = true) (part : Nat) :
    Formed (execRebase part s) := by
  simp [execRebase, hf, State.askRebase_form]

theorem execTeardown_formed {s : State} (hf : Memory.wf s.mem = true) (part : Nat) :
    Formed (execTeardown part s) := by
  simp [execTeardown, hf, State.teardownPart_form]

theorem execTeardownClear_formed {s : State} (hf : Memory.wf s.mem = true) (part : Nat) :
    Formed (execTeardownClear part s) := by
  simp [execTeardownClear, hf]

theorem execShootdownGo_formed {s : State} (hf : Memory.wf s.mem = true) (part : Nat) (value : Word) :
    Formed (execShootdownGo part value s) := by
  simp [execShootdownGo, hf]

theorem execShootdownDone_formed {s : State} (hf : Memory.wf s.mem = true) (part : Nat) :
    Formed (execShootdownDone part s) := by
  unfold execShootdownDone
  repeat' split
  all_goals simp [hf]

theorem execPartidWrite_formed {s : State} (hf : Memory.wf s.mem = true) (core : Nat) (value : Word) :
    Formed (execPartidWrite core value s) := by
  simp [execPartidWrite, hf, State.hartWriteReg_form]

theorem execPtrootWrite_formed {s : State} (hf : Memory.wf s.mem = true) (core : Nat) (value : Word) :
    Formed (execPtrootWrite core value s) := by
  simp [execPtrootWrite, hf, State.hartWriteReg_form]

theorem execGraphctlWrite_formed {s : State} (hf : Memory.wf s.mem = true) (part r : Nat) (value : Word) :
    Formed (execGraphctlWrite part r value s) := by
  simp [execGraphctlWrite, hf, State.writeGraphctl_form]

theorem execMarginWrite_formed {s : State} (hf : Memory.wf s.mem = true) (core : Nat) (value : Word) :
    Formed (execMarginWrite core value s) := by
  simp [execMarginWrite, hf, State.hartWriteReg_form]

theorem execLtelimWrite_formed {s : State} (hf : Memory.wf s.mem = true) (core : Nat) (value : Word) :
    Formed (execLtelimWrite core value s) := by
  simp [execLtelimWrite, hf, State.hartWriteReg_form]

theorem execLtewinWrite_formed {s : State} (hf : Memory.wf s.mem = true) (core : Nat) (value : Word) :
    Formed (execLtewinWrite core value s) := by
  simp [execLtewinWrite, hf, State.hartWriteReg_form]

theorem execQuarWrite_formed {s : State} (hf : Memory.wf s.mem = true) (core : Nat) (value : Word) :
    Formed (execQuarWrite core value s) := by
  simp [execQuarWrite, hf, State.hartWriteReg_form]

theorem execHealthWrite_formed {s : State} (hf : Memory.wf s.mem = true) (die : Nat) (value : Word) :
    Formed (execHealthWrite die value s) := by
  simp [execHealthWrite, hf, State.hartWriteReg_form]

theorem execRegisterWrite_formed {s : State} (hf : Memory.wf s.mem = true) (reg : RegAddr) (value : Word) :
    Formed (execRegisterWrite reg value s) := by
  unfold execRegisterWrite
  repeat' split
  all_goals simp [hf, State.hartWriteReg_form, State.writeUnit_form]

theorem execLateTransitionEvent_formed {s : State} (hf : Memory.wf s.mem = true) (core : Nat) :
    Formed (execLateTransitionEvent core s) := by
  simp [execLateTransitionEvent, hf, State.countLte_form]

theorem execLteWindowExpiry_formed {s : State} (hf : Memory.wf s.mem = true) (core : Nat) :
    Formed (execLteWindowExpiry core s) := by
  unfold execLteWindowExpiry
  dsimp only
  repeat' split
  all_goals simp [hf]

theorem execSliceErrorThreshold_formed {s : State} (hf : Memory.wf s.mem = true) (die slice : Nat) :
    Formed (execSliceErrorThreshold die slice s) := by
  unfold execSliceErrorThreshold
  dsimp only
  repeat' split
  all_goals simp [hf]

theorem execImpreciseError_formed {s : State} (hf : Memory.wf s.mem = true) (kind : ErrKind) (slot : Nat) (ord : BitVec 8) (pa : Nat) :
    Formed (execImpreciseError kind slot ord pa s) := by
  unfold execImpreciseError
  dsimp only
  repeat' split
  all_goals simp [hf, State.errorRecord_form, State.imprecise_form]

theorem execUnderstudyCompare_formed {s : State} (hf : Memory.wf s.mem = true) (u : Nat) :
    Formed (execUnderstudyCompare u s) := by
  unfold execUnderstudyCompare
  dsimp only
  repeat' split
  all_goals simp [hf, State.settleGang_form, State.gangFate_form]

theorem execDieFailure_formed {s : State} (hf : Memory.wf s.mem = true) (die : Nat) :
    Formed (execDieFailure die s) := by
  simp [execDieFailure, hf, State.loseDie_form]

theorem execDieLinkFailure_formed {s : State} (hf : Memory.wf s.mem = true) (die port : Nat) (full : Bool) :
    Formed (execDieLinkFailure die port full s) := by
  unfold execDieLinkFailure
  dsimp only
  repeat' split
  all_goals simp [hf, State.loseDiesSince_form]

theorem execThermalGate_formed {s : State} (hf : Memory.wf s.mem = true) (die : Nat) :
    Formed (execThermalGate die s) := by
  simp [execThermalGate, hf]

theorem execThermalStop_formed {s : State} (hf : Memory.wf s.mem = true) (die : Nat) :
    Formed (execThermalStop die s) := by
  simp [execThermalStop, hf, State.loseDie_form]

theorem execCombineRequestArrival_formed {s : State} (hf : Memory.wf s.mem = true) (pkt : Nat) :
    Formed (execCombineRequestArrival pkt s) := by
  unfold execCombineRequestArrival
  dsimp only
  repeat' split
  all_goals simp only [formed_next, State.updPkt_mem, State.dropPkt_mem, State.makeRecord_mem, State.updDie_mem, hf]
  next h => exact Memory.form_of (State.mergeMarkers_mem h) hf

theorem execCombineHoldExpiry_formed {s : State} (hf : Memory.wf s.mem = true) (pkt : Nat) :
    Formed (execCombineHoldExpiry pkt s) := by
  unfold execCombineHoldExpiry
  repeat' split
  all_goals simp [hf]

theorem execReplySplit_formed {s : State} (hf : Memory.wf s.mem = true) (reply : Nat) :
    Formed (execReplySplit reply s) := by
  unfold execReplySplit
  dsimp only
  repeat' split
  all_goals simp [hf]

theorem execRecoverReply_formed {s : State} (hf : Memory.wf s.mem = true) (reply : Nat) :
    Formed (execRecoverReply reply s) := by
  unfold execRecoverReply
  dsimp only
  repeat' split
  all_goals simp only [formed_next, hf]
  exact Memory.form_of (foldl_mem (fun s c => State.deliver_mem ..) _ _) hf

theorem execRecordExpiry_formed {s : State} (hf : Memory.wf s.mem = true) (record : Nat) :
    Formed (execRecordExpiry record s) := by
  unfold execRecordExpiry
  dsimp only
  repeat' split
  all_goals simp [hf]

theorem execSwitchReset_formed {s : State} (hf : Memory.wf s.mem = true) (die stage switch : Nat) :
    Formed (execSwitchReset die stage switch s) := by
  simp [execSwitchReset, hf]

theorem execCombtestDisarm_formed {s : State} (hf : Memory.wf s.mem = true) (die : Nat) (value : Word) :
    Formed (execCombtestDisarm die value s) := by
  simp [execCombtestDisarm, hf, State.combtestStore_form]

theorem execCombtestCorruptCopy_formed {s : State} (hf : Memory.wf s.mem = true) (die : Nat) (value : Word) :
    Formed (execCombtestCorruptCopy die value s) := by
  simp [execCombtestCorruptCopy, hf, State.combtestStore_form]

theorem execCombtestLoseRecord_formed {s : State} (hf : Memory.wf s.mem = true) (die : Nat) (value : Word) :
    Formed (execCombtestLoseRecord die value s) := by
  simp [execCombtestLoseRecord, hf, State.combtestStore_form]

theorem execCombtestResetSwitch_formed {s : State} (hf : Memory.wf s.mem = true) (die : Nat) (value : Word) :
    Formed (execCombtestResetSwitch die value s) := by
  simp [execCombtestResetSwitch, hf, State.combtestStore_form]

theorem execRdmaWrite_formed {s : State} (hf : Memory.wf s.mem = true) (p : NetPacket) :
    Formed (execRdmaWrite p s) := by
  unfold execRdmaWrite
  dsimp only
  repeat' split
  all_goals simp [hf, State.storeRuns_form, State.packetDone_form, State.nak_formed hf]

theorem execRdmaRead_formed {s : State} (hf : Memory.wf s.mem = true) (p : NetPacket) :
    Formed (execRdmaRead p s) := by
  unfold execRdmaRead
  dsimp only
  repeat' split
  all_goals simp [hf, State.packetDone_form, State.nak_formed hf]

theorem execAtomicFetchAdd_formed {s : State} (hf : Memory.wf s.mem = true) (p : NetPacket) :
    Formed (execAtomicFetchAdd p s) := by
  unfold execAtomicFetchAdd
  dsimp only
  repeat' split
  all_goals simp [hf, State.homeStores_form, State.packetDone_form, State.nak_formed hf]

theorem execInvalidRequest_formed {s : State} (hf : Memory.wf s.mem = true) (p : NetPacket) :
    Formed (execInvalidRequest p s) := by
  unfold execInvalidRequest
  repeat' split
  all_goals simp [hf, State.nak_formed hf]

theorem execDeviceDma_formed {s : State} (hf : Memory.wf s.mem = true) (q : DmaRequest) :
    Formed (execDeviceDma q s) := by
  unfold execDeviceDma
  dsimp only
  repeat' split
  all_goals simp [hf, State.deviceStores_form]

theorem execPldmMonitoring_formed {s : State} (hf : Memory.wf s.mem = true) (die : Nat) :
    Formed (execPldmMonitoring die s) := by
  simp [execPldmMonitoring, hf]

theorem execPldmFirmwareUpdate_formed {s : State} (hf : Memory.wf s.mem = true) (f : Flash) :
    Formed (execPldmFirmwareUpdate f s) := by
  simp [execPldmFirmwareUpdate, hf]

theorem execSpdmMeasurements_formed {s : State} (hf : Memory.wf s.mem = true) :
    Formed (execSpdmMeasurements s) := by
  simp [execSpdmMeasurements, hf]

theorem execPowerOnBoot_formed {s : State} (hf : Memory.wf s.mem = true) : Formed (execPowerOnBoot s) := by
  have happlied (xs : List Nat) : Memory.wf (xs.foldl (fun s d => s.applyRecord s.flash.record d) s).mem = true :=
    foldl_form (fun s d h => State.applyRecord_form _ _ _ h) hf _
  unfold execPowerOnBoot
  dsimp only
  repeat' split
  · exact formed_next.2 hf
  · exact formed_next.2 (Memory.form_of (foldl_mem (fun s d => State.updDie_mem ..) _ _) (happlied _))
  · exact formed_next.2 (happlied _)

theorem execThermalUngate_formed {s : State} (hf : Memory.wf s.mem = true) (die : Nat) :
    Formed (execThermalUngate die s) := by
  simp [execThermalUngate, hf]

theorem execBisnpResponse_formed {s : State} (hf : Memory.wf s.mem = true) (cmd line : Nat) :
    Formed (execBisnpResponse cmd line s) := by
  unfold execBisnpResponse
  dsimp only
  repeat' split
  all_goals simp [hf]

theorem execHomeLogExpiry_formed {s : State} (hf : Memory.wf s.mem = true) (entry : Nat) :
    Formed (execHomeLogExpiry entry s) := by
  unfold execHomeLogExpiry
  repeat' split
  all_goals simp [hf]

theorem execScene_formed {s : State} (hf : Memory.wf s.mem = true) (l : BitVec 5) : Formed (execScene l s) := by
  unfold execScene
  refine formed_ite (fun _ => formed_next.2 hf) fun _ => ?_
  dsimp only
  split
  · exact formed_next.2 hf
  refine formed_ite (fun _ => formed_next.2 hf) fun _ => ?_
  split
  · exact formed_next.2 (State.takeTrap_form _ _ _ _ _ (by simpa using hf))
  · exact formed_fault
  · exact formed_next.2 (by simpa using hf)
  · exact formed_next.2 (by simpa using hf)
  · exact formed_next.2 (by simpa using hf)

theorem execSceneEnd_formed {s : State} (hf : Memory.wf s.mem = true) (x y z : BitVec 8) : Formed (execSceneEnd x y z s) := by
  unfold execSceneEnd
  exact formed_ite (fun _ => fun _ => State.finishScene_form hf) fun _ => formed_next.2 hf

/-- Every instruction's and event's outcome keeps memory in its form. -/
theorem exec_formed (i : Instr) {s : State} (hf : Memory.wf s.mem = true) : Formed (exec i s) := by
  by_cases hw : isWord i = true
  · by_cases hs : ∃ l, i = .scene l
    · obtain ⟨l, rfl⟩ := hs
      exact execScene_formed hf l
    by_cases he : ∃ x y z, i = .sceneEnd x y z
    · obtain ⟨x, y, z, rfl⟩ := he
      exact execSceneEnd_formed hf x y z
    obtain ⟨f, hx⟩ := exec_word s hw (fun l e => hs ⟨l, e⟩) fun x y z e => he ⟨x, y, z, e⟩
    rw [hx]
    exact fun t => State.word_form hf
  · cases i
    case deferredResultLands r => exact execDeferredResultLands_formed hf r
    case emptyWaitEnd u slot => exact execEmptyWaitEnd_formed hf u slot
    case stalledPerformResume u slot => exact execStalledPerformResume_formed hf u slot
    case preemptionRequest gang => exact execPreemptionRequest_formed hf gang
    case groupResume gang core => exact execGroupResume_formed hf gang core
    case parkedGroupReady u => exact execParkedGroupReady_formed hf u
    case ptsSelfIncrement u => exact execPtsSelfIncrement_formed hf u
    case lineEviction line => exact execLineEviction_formed hf line
    case homeLoad r k => exact execHomeLoad_formed hf r k
    case homeStore r k => exact execHomeStore_formed hf r k
    case homeAtomic pkt => exact execHomeAtomic_formed hf pkt
    case storeAcknowledge r => exact execStoreAcknowledge_formed hf r
    case wcSectorTimeout core k => exact execWcSectorTimeout_formed hf core k
    case gatherWindowExpiry r => exact execGatherWindowExpiry_formed hf r
    case gatherWake r => exact execGatherWake_formed hf r
    case agentLineRelease cmd line => exact execAgentLineRelease_formed hf cmd line
    case copyRetire cmd => exact execCopyRetire_formed hf cmd
    case fencePerform u => exact execFencePerform_formed hf u
    case drainComplete u slot => exact execDrainComplete_formed hf u slot
    case mwaitWatchFire u slot => exact execMwaitWatchFire_formed hf u slot
    case mwaitPoll u slot => exact execMwaitPoll_formed hf u slot
    case sequencerIssue cmd => exact execSequencerIssue_formed hf cmd
    case wloadRetire cmd => exact execWloadRetire_formed hf cmd
    case wfreeRetire cmd => exact execWfreeRetire_formed hf cmd
    case engineOutputEntry cmd => exact execEngineOutputEntry_formed hf cmd
    case stageRetire cmd => exact execStageRetire_formed hf cmd
    case rehearsalHeld cmd => exact execRehearsalHeld_formed hf cmd
    case engineBitstepReplay core => exact execEngineBitstepReplay_formed hf core
    case bankCommandComplete cmd => exact execBankCommandComplete_formed hf cmd
    case bankRowWrite cmd line => exact execBankRowWrite_formed hf cmd line
    case demandWaitTimeout bank => exact execDemandWaitTimeout_formed hf bank
    case bankRefresh bank => exact execBankRefresh_formed hf bank
    case waveArrival wave => exact execWaveArrival_formed hf wave
    case gbindApply wave => exact execGbindApply_formed hf wave
    case waveStart wave => exact execWaveStart_formed hf wave
    case markerMessage wave k => exact execMarkerMessage_formed hf wave k
    case weightReturn wave bank => exact execWeightReturn_formed hf wave bank
    case weightLoan wave bank => exact execWeightLoan_formed hf wave bank
    case collectPush wave => exact execCollectPush_formed hf wave
    case launchWatchFire part queue => exact execLaunchWatchFire_formed hf part queue
    case predecessorRelease launch => exact execPredecessorRelease_formed hf launch
    case gangPlacement cluster launch core => exact execGangPlacement_formed hf cluster launch core
    case gangSteal cluster launch victim => exact execGangSteal_formed hf cluster launch victim
    case clusterClear cluster launch core => exact execClusterClear_formed hf cluster launch core
    case progressEviction launch => exact execProgressEviction_formed hf launch
    case launchCompletion launch => exact execLaunchCompletion_formed hf launch
    case callboardAgeTrigger part ring => exact execCallboardAgeTrigger_formed hf part ring
    case callboardHoldRelease launch => exact execCallboardHoldRelease_formed hf launch
    case parkRetry part slot => exact execParkRetry_formed hf part slot
    case parkDeliver part slot => exact execParkDeliver_formed hf part slot
    case parkKillGang part slot => exact execParkKillGang_formed hf part slot
    case quiesce part => exact execQuiesce_formed hf part
    case rebase part => exact execRebase_formed hf part
    case teardown part => exact execTeardown_formed hf part
    case teardownClear part => exact execTeardownClear_formed hf part
    case shootdownGo part value => exact execShootdownGo_formed hf part value
    case shootdownDone part => exact execShootdownDone_formed hf part
    case partidWrite core value => exact execPartidWrite_formed hf core value
    case ptrootWrite core value => exact execPtrootWrite_formed hf core value
    case graphctlWrite part r value => exact execGraphctlWrite_formed hf part r value
    case marginWrite core value => exact execMarginWrite_formed hf core value
    case ltelimWrite core value => exact execLtelimWrite_formed hf core value
    case ltewinWrite core value => exact execLtewinWrite_formed hf core value
    case quarWrite core value => exact execQuarWrite_formed hf core value
    case healthWrite die value => exact execHealthWrite_formed hf die value
    case registerWrite reg value => exact execRegisterWrite_formed hf reg value
    case lateTransitionEvent core => exact execLateTransitionEvent_formed hf core
    case lteWindowExpiry core => exact execLteWindowExpiry_formed hf core
    case sliceErrorThreshold die slice => exact execSliceErrorThreshold_formed hf die slice
    case impreciseError kind slot ord pa => exact execImpreciseError_formed hf kind slot ord pa
    case understudyCompare u => exact execUnderstudyCompare_formed hf u
    case dieFailure die => exact execDieFailure_formed hf die
    case dieLinkFailure die port full => exact execDieLinkFailure_formed hf die port full
    case thermalGate die => exact execThermalGate_formed hf die
    case thermalStop die => exact execThermalStop_formed hf die
    case combineRequestArrival pkt => exact execCombineRequestArrival_formed hf pkt
    case combineHoldExpiry pkt => exact execCombineHoldExpiry_formed hf pkt
    case replySplit reply => exact execReplySplit_formed hf reply
    case recoverReply reply => exact execRecoverReply_formed hf reply
    case recordExpiry record => exact execRecordExpiry_formed hf record
    case switchReset die stage switch => exact execSwitchReset_formed hf die stage switch
    case combtestDisarm die value => exact execCombtestDisarm_formed hf die value
    case combtestCorruptCopy die value => exact execCombtestCorruptCopy_formed hf die value
    case combtestLoseRecord die value => exact execCombtestLoseRecord_formed hf die value
    case combtestResetSwitch die value => exact execCombtestResetSwitch_formed hf die value
    case rdmaWrite p => exact execRdmaWrite_formed hf p
    case rdmaRead p => exact execRdmaRead_formed hf p
    case atomicFetchAdd p => exact execAtomicFetchAdd_formed hf p
    case invalidRequest p => exact execInvalidRequest_formed hf p
    case deviceDma q => exact execDeviceDma_formed hf q
    case pldmMonitoring die => exact execPldmMonitoring_formed hf die
    case pldmFirmwareUpdate f => exact execPldmFirmwareUpdate_formed hf f
    case spdmMeasurements => exact execSpdmMeasurements_formed hf
    case powerOnBoot => exact execPowerOnBoot_formed hf
    case thermalUngate die => exact execThermalUngate_formed hf die
    case bisnpResponse cmd line => exact execBisnpResponse_formed hf cmd line
    case homeLogExpiry entry => exact execHomeLogExpiry_formed hf entry
    all_goals exact absurd rfl hw

theorem OwnEvent.formed {e : State → Out} (he : OwnEvent e) {s : State} (hf : Memory.wf s.mem = true) : Formed (e s) := by
  rcases he with i | _
  · exact exec_formed i hf
  · exact formed_next.2 (State.serveStall_form _ hf)

theorem State.runWord_formed {s : State} (hf : Memory.wf s.mem = true) (w : Word) : Formed (s.runWord w) := by
  unfold State.runWord
  split
  · exact exec_formed _ hf
  · exact formed_next.2 (State.trapScene_form _ _ hf)

theorem State.issueHeader_formed {s : State} (hf : Memory.wf s.mem = true) (u : Nat) (slot : Bool) : Formed (s.issueHeader u slot) := by
  have htrap (g : Grp) (t : Trap) (pc : Word) : Formed (.next ((s.useImage u).takeTrap u slot t pc)) :=
    formed_next.2 (State.takeTrap_form _ _ _ _ _ (State.useImage_form _ _ hf))
  unfold State.issueHeader
  split
  · exact formed_next.2 hf
  next g _ =>
  refine formed_ite (fun _ => formed_next.2 hf) fun _ => ?_
  refine formed_ite (fun _ => htrap g _ _) fun _ => ?_
  split
  · exact formed_fault
  · exact htrap g _ _
  · split
    · exact exec_formed _ (State.useImage_form _ _ hf)
    · exact htrap g _ _

theorem State.schedIssue_formed {s : State} (hf : Memory.wf s.mem = true) (core k : Nat) : Formed (s.schedIssue core k) := by
  unfold State.schedIssue
  dsimp only
  refine formed_ite (fun _ => formed_next.2 (by simpa using hf)) fun _ => ?_
  split
  · exact formed_next.2 hf
  next g slot h _ =>
  have hi := State.issueHeader_formed hf g.uid slot
  split
  · next t ht =>
    rw [ht] at hi
    exact formed_ite (fun _ => formed_next.2 (by simpa using hi)) fun _ => formed_next.2 (by simpa using hi)
  · exact hi

theorem State.ownMove_formed {s : State} (hf : Memory.wf s.mem = true) : Formed s.ownMove := by
  rcases s.ownMove_cases with ⟨w, -, e⟩ | ⟨f, v, k, l, hown, e⟩ | ⟨k, e⟩ | e
  · exact e ▸ State.runWord_formed hf w
  · exact e ▸ hown.formed hf
  · exact e ▸ State.schedIssue_formed (s := { s with turn := k, evs := 0 }) hf _ _
  · exact e ▸ formed_next.2 hf

theorem State.servePacket_formed {s : State} (hf : Memory.wf s.mem = true) (p : NetPacket) : Formed (s.servePacket p) := by
  unfold State.servePacket
  split
  · exact execRdmaRead_formed hf p
  · exact execAtomicFetchAdd_formed hf p
  · exact execRdmaWrite_formed hf p

@[simp] theorem State.installProgram_mem (s : State) (part slot : Nat) (image : List Byte) :
    (s.installProgram part slot image).mem = s.mem := by
  unfold State.installProgram
  split <;> simp

theorem State.runMove_formed {s : State} (hf : Memory.wf s.mem = true) (m : Move) : Formed (s.runMove m) := by
  unfold State.runMove
  refine formed_ite (fun _ => formed_next.2 hf) fun _ => ?_
  cases m with
  | own => exact State.ownMove_formed hf
  | packet p => exact State.servePacket_formed hf p
  | dma q => exact execDeviceDma_formed hf q
  | event i => exact exec_formed i hf
  | issue u slot => exact State.issueHeader_formed hf u slot
  | wait n => exact formed_next.2 hf
  | hartStore h p pa bs => exact fun _ => State.hartStore_form hf
  | hartLoad h p pa n => exact fun _ e => Memory.form_of (State.hartLoad_mem e) hf
  | hartFence h d => exact formed_next.2 (Memory.form_of (State.enterFence_mem ..) hf)
  | pageList p => exact formed_next.2 hf
  | program p k bs => exact formed_next.2 (Memory.form_of (State.installProgram_mem ..) hf)
  | powerCycle => exact formed_next.2 rfl
  | readError t => exact formed_next.2 (Memory.form_of (State.poisonTarget_mem ..) hf)
  | copyError c l k => exact formed_next.2 hf

theorem State.move_formed {s : State} (hf : Memory.wf s.mem = true) : Formed s.move := by
  unfold State.move
  split
  · next m r _ => exact State.runMove_formed (s := { s with agenda := r }) hf m
  · exact State.ownMove_formed hf

theorem State.lateTeardown_form {s t : State} (hf : Memory.wf t.mem = true) : Memory.wf (s.lateTeardown t).mem = true :=
  foldl_form (fun v _ h => Memory.form_ite (fun _ => State.teardownPart_form v _ h) fun _ => h) hf _

theorem State.saveTomb_form (s : State) (t : Tombstone) (hf : Memory.wf s.mem = true) : Memory.wf (s.saveTomb t).mem = true := by
  refine foldl_form (fun v k h => ?_) hf _
  split
  · exact Memory.form_ite (fun _ => Memory.wf_writePa h _ _) fun _ => h
  · exact h

/-- What settles at the end of a step keeps memory's form. -/
theorem State.settle_formed (s : State) {o : Out} (h : Formed o) : Formed (s.settle o) := by
  unfold State.settle
  split
  · refine formed_next.2 (foldl_form State.saveTomb_form ?_ _)
    exact State.settleGangs_form _ (State.settleParks_form _ (State.lateTeardown_form (formed_next.1 h)))
  · exact h

/-- Settles O39: every move keeps memory's form, and so does what settles after it. -/
theorem stepKeepsMemoryForm : Obligations.StepKeepsMemoryForm := by
  unfold Obligations.StepKeepsMemoryForm
  intro s t hf h
  exact State.settle_formed s (State.move_formed (s := s.tick) hf) t h

end Sys2Proof.Machine
end

section
/-! SUPPORT. The encoding, both ways (R32, R38, R52, R53): fields and fixed bits of each format, then each row of the opcode table. -/

namespace Sys2Proof

/-! The fields of each format of R32, named by the widths below the opcode. -/

theorem fields_11_3_10 (o : BitVec 8) (x0 : BitVec 11) (x1 : BitVec 3) (x2 : BitVec 10) :
    BitVec.extractLsb' (n := 32) 13 11 (o ++ x0 ++ x1 ++ x2) = x0 ∧
    BitVec.extractLsb' (n := 32) 10 3 (o ++ x0 ++ x1 ++ x2) = x1 ∧
    BitVec.extractLsb' (n := 32) 0 10 (o ++ x0 ++ x1 ++ x2) = x2 := by
  have := x0.isLt
  have := x1.isLt
  have := x2.isLt
  refine ⟨?_, ?_, ?_⟩ <;>
    · apply BitVec.eq_of_toNat_eq
      simp only [Laws.toNat_ext, Laws.toNat_app]
      omega

theorem fields_16_8 (o : BitVec 8) (x0 : BitVec 16) (x1 : BitVec 8) :
    BitVec.extractLsb' (n := 32) 8 16 (o ++ x0 ++ x1) = x0 ∧
    BitVec.extractLsb' (n := 32) 0 8 (o ++ x0 ++ x1) = x1 := by
  have := x0.isLt
  have := x1.isLt
  refine ⟨?_, ?_⟩ <;>
    · apply BitVec.eq_of_toNat_eq
      simp only [Laws.toNat_ext, Laws.toNat_app]
      omega

theorem fields_1_3_1_3_8_8 (o : BitVec 8) (x0 : BitVec 1) (x1 : BitVec 3) (x2 : BitVec 1) (x3 : BitVec 3) (x4 : BitVec 8) (x5 : BitVec 8) :
    BitVec.extractLsb' (n := 32) 23 1 (o ++ x0 ++ x1 ++ x2 ++ x3 ++ x4 ++ x5) = x0 ∧
    BitVec.extractLsb' (n := 32) 20 3 (o ++ x0 ++ x1 ++ x2 ++ x3 ++ x4 ++ x5) = x1 ∧
    BitVec.extractLsb' (n := 32) 19 1 (o ++ x0 ++ x1 ++ x2 ++ x3 ++ x4 ++ x5) = x2 ∧
    BitVec.extractLsb' (n := 32) 16 3 (o ++ x0 ++ x1 ++ x2 ++ x3 ++ x4 ++ x5) = x3 ∧
    BitVec.extractLsb' (n := 32) 8 8 (o ++ x0 ++ x1 ++ x2 ++ x3 ++ x4 ++ x5) = x4 ∧
    BitVec.extractLsb' (n := 32) 0 8 (o ++ x0 ++ x1 ++ x2 ++ x3 ++ x4 ++ x5) = x5 := by
  have := x0.isLt
  have := x1.isLt
  have := x2.isLt
  have := x3.isLt
  have := x4.isLt
  have := x5.isLt
  refine ⟨?_, ?_, ?_, ?_, ?_, ?_⟩ <;>
    · apply BitVec.eq_of_toNat_eq
      simp only [Laws.toNat_ext, Laws.toNat_app]
      omega

theorem fields_20_4 (o : BitVec 8) (x0 : BitVec 20) (x1 : BitVec 4) :
    BitVec.extractLsb' (n := 32) 4 20 (o ++ x0 ++ x1) = x0 ∧
    BitVec.extractLsb' (n := 32) 0 4 (o ++ x0 ++ x1) = x1 := by
  have := x0.isLt
  have := x1.isLt
  refine ⟨?_, ?_⟩ <;>
    · apply BitVec.eq_of_toNat_eq
      simp only [Laws.toNat_ext, Laws.toNat_app]
      omega

theorem fields_21_3 (o : BitVec 8) (x0 : BitVec 21) (x1 : BitVec 3) :
    BitVec.extractLsb' (n := 32) 3 21 (o ++ x0 ++ x1) = x0 ∧
    BitVec.extractLsb' (n := 32) 0 3 (o ++ x0 ++ x1) = x1 := by
  have := x0.isLt
  have := x1.isLt
  refine ⟨?_, ?_⟩ <;>
    · apply BitVec.eq_of_toNat_eq
      simp only [Laws.toNat_ext, Laws.toNat_app]
      omega

theorem fields_24 (o : BitVec 8) (x0 : BitVec 24) :
    BitVec.extractLsb' (n := 32) 0 24 (o ++ x0) = x0 := by
  have := x0.isLt
  apply BitVec.eq_of_toNat_eq
  simp only [Laws.toNat_ext, Laws.toNat_app]
  omega

theorem fields_3_10_11 (o : BitVec 8) (x0 : BitVec 3) (x1 : BitVec 10) (x2 : BitVec 11) :
    BitVec.extractLsb' (n := 32) 21 3 (o ++ x0 ++ x1 ++ x2) = x0 ∧
    BitVec.extractLsb' (n := 32) 11 10 (o ++ x0 ++ x1 ++ x2) = x1 ∧
    BitVec.extractLsb' (n := 32) 0 11 (o ++ x0 ++ x1 ++ x2) = x2 := by
  have := x0.isLt
  have := x1.isLt
  have := x2.isLt
  refine ⟨?_, ?_, ?_⟩ <;>
    · apply BitVec.eq_of_toNat_eq
      simp only [Laws.toNat_ext, Laws.toNat_app]
      omega

theorem fields_3_2_19 (o : BitVec 8) (x0 : BitVec 3) (x1 : BitVec 2) (x2 : BitVec 19) :
    BitVec.extractLsb' (n := 32) 21 3 (o ++ x0 ++ x1 ++ x2) = x0 ∧
    BitVec.extractLsb' (n := 32) 19 2 (o ++ x0 ++ x1 ++ x2) = x1 ∧
    BitVec.extractLsb' (n := 32) 0 19 (o ++ x0 ++ x1 ++ x2) = x2 := by
  have := x0.isLt
  have := x1.isLt
  have := x2.isLt
  refine ⟨?_, ?_, ?_⟩ <;>
    · apply BitVec.eq_of_toNat_eq
      simp only [Laws.toNat_ext, Laws.toNat_app]
      omega

theorem fields_3_5_8_8 (o : BitVec 8) (x0 : BitVec 3) (x1 : BitVec 5) (x2 : BitVec 8) (x3 : BitVec 8) :
    BitVec.extractLsb' (n := 32) 21 3 (o ++ x0 ++ x1 ++ x2 ++ x3) = x0 ∧
    BitVec.extractLsb' (n := 32) 16 5 (o ++ x0 ++ x1 ++ x2 ++ x3) = x1 ∧
    BitVec.extractLsb' (n := 32) 8 8 (o ++ x0 ++ x1 ++ x2 ++ x3) = x2 ∧
    BitVec.extractLsb' (n := 32) 0 8 (o ++ x0 ++ x1 ++ x2 ++ x3) = x3 := by
  have := x0.isLt
  have := x1.isLt
  have := x2.isLt
  have := x3.isLt
  refine ⟨?_, ?_, ?_, ?_⟩ <;>
    · apply BitVec.eq_of_toNat_eq
      simp only [Laws.toNat_ext, Laws.toNat_app]
      omega

theorem fields_4_4_8_8 (o : BitVec 8) (x0 : BitVec 4) (x1 : BitVec 4) (x2 : BitVec 8) (x3 : BitVec 8) :
    BitVec.extractLsb' (n := 32) 20 4 (o ++ x0 ++ x1 ++ x2 ++ x3) = x0 ∧
    BitVec.extractLsb' (n := 32) 16 4 (o ++ x0 ++ x1 ++ x2 ++ x3) = x1 ∧
    BitVec.extractLsb' (n := 32) 8 8 (o ++ x0 ++ x1 ++ x2 ++ x3) = x2 ∧
    BitVec.extractLsb' (n := 32) 0 8 (o ++ x0 ++ x1 ++ x2 ++ x3) = x3 := by
  have := x0.isLt
  have := x1.isLt
  have := x2.isLt
  have := x3.isLt
  refine ⟨?_, ?_, ?_, ?_⟩ <;>
    · apply BitVec.eq_of_toNat_eq
      simp only [Laws.toNat_ext, Laws.toNat_app]
      omega

theorem fields_5_19 (o : BitVec 8) (x0 : BitVec 5) (x1 : BitVec 19) :
    BitVec.extractLsb' (n := 32) 19 5 (o ++ x0 ++ x1) = x0 ∧
    BitVec.extractLsb' (n := 32) 0 19 (o ++ x0 ++ x1) = x1 := by
  have := x0.isLt
  have := x1.isLt
  refine ⟨?_, ?_⟩ <;>
    · apply BitVec.eq_of_toNat_eq
      simp only [Laws.toNat_ext, Laws.toNat_app]
      omega

theorem fields_5_3_16 (o : BitVec 8) (x0 : BitVec 5) (x1 : BitVec 3) (x2 : BitVec 16) :
    BitVec.extractLsb' (n := 32) 19 5 (o ++ x0 ++ x1 ++ x2) = x0 ∧
    BitVec.extractLsb' (n := 32) 16 3 (o ++ x0 ++ x1 ++ x2) = x1 ∧
    BitVec.extractLsb' (n := 32) 0 16 (o ++ x0 ++ x1 ++ x2) = x2 := by
  have := x0.isLt
  have := x1.isLt
  have := x2.isLt
  refine ⟨?_, ?_, ?_⟩ <;>
    · apply BitVec.eq_of_toNat_eq
      simp only [Laws.toNat_ext, Laws.toNat_app]
      omega

theorem fields_5_3_8_8 (o : BitVec 8) (x0 : BitVec 5) (x1 : BitVec 3) (x2 : BitVec 8) (x3 : BitVec 8) :
    BitVec.extractLsb' (n := 32) 19 5 (o ++ x0 ++ x1 ++ x2 ++ x3) = x0 ∧
    BitVec.extractLsb' (n := 32) 16 3 (o ++ x0 ++ x1 ++ x2 ++ x3) = x1 ∧
    BitVec.extractLsb' (n := 32) 8 8 (o ++ x0 ++ x1 ++ x2 ++ x3) = x2 ∧
    BitVec.extractLsb' (n := 32) 0 8 (o ++ x0 ++ x1 ++ x2 ++ x3) = x3 := by
  have := x0.isLt
  have := x1.isLt
  have := x2.isLt
  have := x3.isLt
  refine ⟨?_, ?_, ?_, ?_⟩ <;>
    · apply BitVec.eq_of_toNat_eq
      simp only [Laws.toNat_ext, Laws.toNat_app]
      omega

theorem fields_7_1_8_3_5 (o : BitVec 8) (x0 : BitVec 7) (x1 : BitVec 1) (x2 : BitVec 8) (x3 : BitVec 3) (x4 : BitVec 5) :
    BitVec.extractLsb' (n := 32) 17 7 (o ++ x0 ++ x1 ++ x2 ++ x3 ++ x4) = x0 ∧
    BitVec.extractLsb' (n := 32) 16 1 (o ++ x0 ++ x1 ++ x2 ++ x3 ++ x4) = x1 ∧
    BitVec.extractLsb' (n := 32) 8 8 (o ++ x0 ++ x1 ++ x2 ++ x3 ++ x4) = x2 ∧
    BitVec.extractLsb' (n := 32) 5 3 (o ++ x0 ++ x1 ++ x2 ++ x3 ++ x4) = x3 ∧
    BitVec.extractLsb' (n := 32) 0 5 (o ++ x0 ++ x1 ++ x2 ++ x3 ++ x4) = x4 := by
  have := x0.isLt
  have := x1.isLt
  have := x2.isLt
  have := x3.isLt
  have := x4.isLt
  refine ⟨?_, ?_, ?_, ?_, ?_⟩ <;>
    · apply BitVec.eq_of_toNat_eq
      simp only [Laws.toNat_ext, Laws.toNat_app]
      omega

theorem fields_8_16 (o : BitVec 8) (x0 : BitVec 8) (x1 : BitVec 16) :
    BitVec.extractLsb' (n := 32) 16 8 (o ++ x0 ++ x1) = x0 ∧
    BitVec.extractLsb' (n := 32) 0 16 (o ++ x0 ++ x1) = x1 := by
  have := x0.isLt
  have := x1.isLt
  refine ⟨?_, ?_⟩ <;>
    · apply BitVec.eq_of_toNat_eq
      simp only [Laws.toNat_ext, Laws.toNat_app]
      omega

theorem fields_8_1_9_2_4 (o : BitVec 8) (x0 : BitVec 8) (x1 : BitVec 1) (x2 : BitVec 9) (x3 : BitVec 2) (x4 : BitVec 4) :
    BitVec.extractLsb' (n := 32) 16 8 (o ++ x0 ++ x1 ++ x2 ++ x3 ++ x4) = x0 ∧
    BitVec.extractLsb' (n := 32) 15 1 (o ++ x0 ++ x1 ++ x2 ++ x3 ++ x4) = x1 ∧
    BitVec.extractLsb' (n := 32) 6 9 (o ++ x0 ++ x1 ++ x2 ++ x3 ++ x4) = x2 ∧
    BitVec.extractLsb' (n := 32) 4 2 (o ++ x0 ++ x1 ++ x2 ++ x3 ++ x4) = x3 ∧
    BitVec.extractLsb' (n := 32) 0 4 (o ++ x0 ++ x1 ++ x2 ++ x3 ++ x4) = x4 := by
  have := x0.isLt
  have := x1.isLt
  have := x2.isLt
  have := x3.isLt
  have := x4.isLt
  refine ⟨?_, ?_, ?_, ?_, ?_⟩ <;>
    · apply BitVec.eq_of_toNat_eq
      simp only [Laws.toNat_ext, Laws.toNat_app]
      omega

theorem fields_8_8_3_5 (o : BitVec 8) (x0 : BitVec 8) (x1 : BitVec 8) (x2 : BitVec 3) (x3 : BitVec 5) :
    BitVec.extractLsb' (n := 32) 16 8 (o ++ x0 ++ x1 ++ x2 ++ x3) = x0 ∧
    BitVec.extractLsb' (n := 32) 8 8 (o ++ x0 ++ x1 ++ x2 ++ x3) = x1 ∧
    BitVec.extractLsb' (n := 32) 5 3 (o ++ x0 ++ x1 ++ x2 ++ x3) = x2 ∧
    BitVec.extractLsb' (n := 32) 0 5 (o ++ x0 ++ x1 ++ x2 ++ x3) = x3 := by
  have := x0.isLt
  have := x1.isLt
  have := x2.isLt
  have := x3.isLt
  refine ⟨?_, ?_, ?_, ?_⟩ <;>
    · apply BitVec.eq_of_toNat_eq
      simp only [Laws.toNat_ext, Laws.toNat_app]
      omega

theorem fields_8_8_8 (o : BitVec 8) (x0 : BitVec 8) (x1 : BitVec 8) (x2 : BitVec 8) :
    BitVec.extractLsb' (n := 32) 16 8 (o ++ x0 ++ x1 ++ x2) = x0 ∧
    BitVec.extractLsb' (n := 32) 8 8 (o ++ x0 ++ x1 ++ x2) = x1 ∧
    BitVec.extractLsb' (n := 32) 0 8 (o ++ x0 ++ x1 ++ x2) = x2 := by
  have := x0.isLt
  have := x1.isLt
  have := x2.isLt
  refine ⟨?_, ?_, ?_⟩ <;>
    · apply BitVec.eq_of_toNat_eq
      simp only [Laws.toNat_ext, Laws.toNat_app]
      omega

/-! The fixed bits of each format: z marks a field of zeros, c a constant. A word with a format's fixed bits is what its fields make. -/

/-- A block of n ones from bit s. -/
def ones (s n : Nat) : Word := (BitVec.allOnes n).setWidth 32 <<< s

theorem getLsbD_ones {s n i : Nat} (hi : i < 32) : (ones s n).getLsbD i = (decide (s ≤ i) && decide (i < s + n)) := by
  by_cases h : s ≤ i
  · simp [ones, hi, h, Nat.sub_lt_iff_lt_add h, Nat.add_comm]
  · simp [ones, hi, Nat.not_le.1 h, h]

/-- A field that a mask covers is the value's field. -/
theorem field_of_and {w M V : Word} (h : w &&& M = V) (s n : Nat) (hM : M.extractLsb' s n = BitVec.allOnes n) :
    w.extractLsb' s n = V.extractLsb' s n := by
  rw [← h, BitVec.extractLsb'_and, hM, BitVec.and_allOnes]

/-- A word whose fields under a mask are the value's has the value under the mask. -/
theorem and_eq_of_fields {w M V : Word} (bs : List (Nat × Nat)) (hM : M = bs.foldr (fun b m => ones b.1 b.2 ||| m) 0#32)
    (hV : V &&& M = V) (h : ∀ b ∈ bs, w.extractLsb' b.1 b.2 = V.extractLsb' b.1 b.2) : w &&& M = V := by
  rw [← hV]
  clear hV
  subst hM
  induction bs with
  | nil => simp
  | cons b bs ih =>
    have hb : w &&& ones b.1 b.2 = V &&& ones b.1 b.2 := by
      refine BitVec.eq_of_getLsbD_eq fun i hi => ?_
      simp only [BitVec.getLsbD_and, getLsbD_ones hi]
      by_cases hin : b.1 ≤ i ∧ i < b.1 + b.2
      · have := congrArg (·.getLsbD (i - b.1)) (h b (.head _))
        have hlt : i - b.1 < b.2 := by omega
        simpa [hlt, Nat.add_sub_cancel' hin.1, hin] using this
      · rcases not_and_or.1 hin with h | h <;> simp [h]
    simp only [List.foldr_cons, BitVec.and_or_distrib_left, hb, ih fun b hm => h b (.tail _ hm)]

theorem fixed_5_19z (o : BitVec 8) (x0 : BitVec 5) :
    (o ++ x0 ++ 0#19 : Word) &&& 0xFF07FFFF#32 = o ++ 0#24 := by
  have := o.isLt
  have := x0.isLt
  refine and_eq_of_fields [(24, 8), (0, 19)] (by decide) (by revert o; decide) ?_
  simp only [List.forall_mem_cons, List.not_mem_nil, false_imp_iff, implies_true, and_true]
  refine ⟨?_, ?_⟩ <;>
    · apply BitVec.eq_of_toNat_eq
      simp only [Laws.toNat_ext, Laws.toNat_app, BitVec.toNat_ofNat]
      omega

theorem refit_5_19z {w : Word} {o : BitVec 8} (h : w &&& 0xFF07FFFF#32 = o ++ 0#24) :
    o ++ w.extractLsb' 19 5 ++ 0#19 = w := by
  have := o.isLt
  have := w.isLt
  have h24 := congrArg BitVec.toNat (field_of_and h 24 8 (by decide))
  have h0 := congrArg BitVec.toNat (field_of_and h 0 19 (by decide))
  apply BitVec.eq_of_toNat_eq
  simp only [Laws.toNat_ext, Laws.toNat_app, BitVec.toNat_ofNat] at *
  omega

theorem fixed_8_8_8 (o : BitVec 8) (x0 : BitVec 8) (x1 : BitVec 8) (x2 : BitVec 8) :
    (o ++ x0 ++ x1 ++ x2 : Word) &&& 0xFF000000#32 = o ++ 0#24 := by
  have := o.isLt
  have := x0.isLt
  have := x1.isLt
  have := x2.isLt
  refine and_eq_of_fields [(24, 8)] (by decide) (by revert o; decide) ?_
  simp only [List.forall_mem_cons, List.not_mem_nil, false_imp_iff, implies_true, and_true]
  apply BitVec.eq_of_toNat_eq
  simp only [Laws.toNat_ext, Laws.toNat_app, BitVec.toNat_ofNat]
  omega

theorem refit_8_8_8 {w : Word} {o : BitVec 8} (h : w &&& 0xFF000000#32 = o ++ 0#24) :
    o ++ w.extractLsb' 16 8 ++ w.extractLsb' 8 8 ++ w.extractLsb' 0 8 = w := by
  have := o.isLt
  have := w.isLt
  have h24 := congrArg BitVec.toNat (field_of_and h 24 8 (by decide))
  apply BitVec.eq_of_toNat_eq
  simp only [Laws.toNat_ext, Laws.toNat_app, BitVec.toNat_ofNat] at *
  omega

theorem fixed_24 (o : BitVec 8) (x0 : BitVec 24) :
    (o ++ x0 : Word) &&& 0xFF000000#32 = o ++ 0#24 := by
  have := o.isLt
  have := x0.isLt
  refine and_eq_of_fields [(24, 8)] (by decide) (by revert o; decide) ?_
  simp only [List.forall_mem_cons, List.not_mem_nil, false_imp_iff, implies_true, and_true]
  apply BitVec.eq_of_toNat_eq
  simp only [Laws.toNat_ext, Laws.toNat_app, BitVec.toNat_ofNat]
  omega

theorem refit_24 {w : Word} {o : BitVec 8} (h : w &&& 0xFF000000#32 = o ++ 0#24) :
    o ++ w.extractLsb' 0 24 = w := by
  have := o.isLt
  have := w.isLt
  have h24 := congrArg BitVec.toNat (field_of_and h 24 8 (by decide))
  apply BitVec.eq_of_toNat_eq
  simp only [Laws.toNat_ext, Laws.toNat_app, BitVec.toNat_ofNat] at *
  omega

theorem fixed_8z_8_8z (o : BitVec 8) (x1 : BitVec 8) :
    (o ++ 0#8 ++ x1 ++ 0#8 : Word) &&& 0xFFFF00FF#32 = o ++ 0#24 := by
  have := o.isLt
  have := x1.isLt
  refine and_eq_of_fields [(16, 16), (0, 8)] (by decide) (by revert o; decide) ?_
  simp only [List.forall_mem_cons, List.not_mem_nil, false_imp_iff, implies_true, and_true]
  refine ⟨?_, ?_⟩ <;>
    · apply BitVec.eq_of_toNat_eq
      simp only [Laws.toNat_ext, Laws.toNat_app, BitVec.toNat_ofNat]
      omega

theorem refit_8z_8_8z {w : Word} {o : BitVec 8} (h : w &&& 0xFFFF00FF#32 = o ++ 0#24) :
    o ++ 0#8 ++ w.extractLsb' 8 8 ++ 0#8 = w := by
  have := o.isLt
  have := w.isLt
  have h16 := congrArg BitVec.toNat (field_of_and h 16 16 (by decide))
  have h0 := congrArg BitVec.toNat (field_of_and h 0 8 (by decide))
  apply BitVec.eq_of_toNat_eq
  simp only [Laws.toNat_ext, Laws.toNat_app, BitVec.toNat_ofNat] at *
  omega

theorem fixed_24z (o : BitVec 8) : (o ++ 0#24 : Word) &&& 0xFFFFFFFF#32 = o ++ 0#24 := by
  revert o
  decide

theorem refit_24z {w : Word} {o : BitVec 8} (h : w &&& 0xFFFFFFFF#32 = o ++ 0#24) : o ++ 0#24 = w :=
  h.symm.trans BitVec.and_allOnes

theorem fixed_8z_16 (o : BitVec 8) (x1 : BitVec 16) :
    (o ++ 0#8 ++ x1 : Word) &&& 0xFFFF0000#32 = o ++ 0#24 := by
  have := o.isLt
  have := x1.isLt
  refine and_eq_of_fields [(16, 16)] (by decide) (by revert o; decide) ?_
  simp only [List.forall_mem_cons, List.not_mem_nil, false_imp_iff, implies_true, and_true]
  apply BitVec.eq_of_toNat_eq
  simp only [Laws.toNat_ext, Laws.toNat_app, BitVec.toNat_ofNat]
  omega

theorem refit_8z_16 {w : Word} {o : BitVec 8} (h : w &&& 0xFFFF0000#32 = o ++ 0#24) :
    o ++ 0#8 ++ w.extractLsb' 0 16 = w := by
  have := o.isLt
  have := w.isLt
  have h16 := congrArg BitVec.toNat (field_of_and h 16 16 (by decide))
  apply BitVec.eq_of_toNat_eq
  simp only [Laws.toNat_ext, Laws.toNat_app, BitVec.toNat_ofNat] at *
  omega

theorem fixed_8_16 (o : BitVec 8) (x0 : BitVec 8) (x1 : BitVec 16) :
    (o ++ x0 ++ x1 : Word) &&& 0xFF000000#32 = o ++ 0#24 := by
  have := o.isLt
  have := x0.isLt
  have := x1.isLt
  refine and_eq_of_fields [(24, 8)] (by decide) (by revert o; decide) ?_
  simp only [List.forall_mem_cons, List.not_mem_nil, false_imp_iff, implies_true, and_true]
  apply BitVec.eq_of_toNat_eq
  simp only [Laws.toNat_ext, Laws.toNat_app, BitVec.toNat_ofNat]
  omega

theorem refit_8_16 {w : Word} {o : BitVec 8} (h : w &&& 0xFF000000#32 = o ++ 0#24) :
    o ++ w.extractLsb' 16 8 ++ w.extractLsb' 0 16 = w := by
  have := o.isLt
  have := w.isLt
  have h24 := congrArg BitVec.toNat (field_of_and h 24 8 (by decide))
  apply BitVec.eq_of_toNat_eq
  simp only [Laws.toNat_ext, Laws.toNat_app, BitVec.toNat_ofNat] at *
  omega

theorem fixed_8_8_8z (o : BitVec 8) (x0 : BitVec 8) (x1 : BitVec 8) :
    (o ++ x0 ++ x1 ++ 0#8 : Word) &&& 0xFF0000FF#32 = o ++ 0#24 := by
  have := o.isLt
  have := x0.isLt
  have := x1.isLt
  refine and_eq_of_fields [(24, 8), (0, 8)] (by decide) (by revert o; decide) ?_
  simp only [List.forall_mem_cons, List.not_mem_nil, false_imp_iff, implies_true, and_true]
  refine ⟨?_, ?_⟩ <;>
    · apply BitVec.eq_of_toNat_eq
      simp only [Laws.toNat_ext, Laws.toNat_app, BitVec.toNat_ofNat]
      omega

theorem refit_8_8_8z {w : Word} {o : BitVec 8} (h : w &&& 0xFF0000FF#32 = o ++ 0#24) :
    o ++ w.extractLsb' 16 8 ++ w.extractLsb' 8 8 ++ 0#8 = w := by
  have := o.isLt
  have := w.isLt
  have h24 := congrArg BitVec.toNat (field_of_and h 24 8 (by decide))
  have h0 := congrArg BitVec.toNat (field_of_and h 0 8 (by decide))
  apply BitVec.eq_of_toNat_eq
  simp only [Laws.toNat_ext, Laws.toNat_app, BitVec.toNat_ofNat] at *
  omega

theorem fixed_5z_3_8z_8 (o : BitVec 8) (x1 : BitVec 3) (x3 : BitVec 8) :
    (o ++ 0#5 ++ x1 ++ 0#8 ++ x3 : Word) &&& 0xFFF8FF00#32 = o ++ 0#24 := by
  have := o.isLt
  have := x1.isLt
  have := x3.isLt
  refine and_eq_of_fields [(19, 13), (8, 8)] (by decide) (by revert o; decide) ?_
  simp only [List.forall_mem_cons, List.not_mem_nil, false_imp_iff, implies_true, and_true]
  refine ⟨?_, ?_⟩ <;>
    · apply BitVec.eq_of_toNat_eq
      simp only [Laws.toNat_ext, Laws.toNat_app, BitVec.toNat_ofNat]
      omega

theorem refit_5z_3_8z_8 {w : Word} {o : BitVec 8} (h : w &&& 0xFFF8FF00#32 = o ++ 0#24) :
    o ++ 0#5 ++ w.extractLsb' 16 3 ++ 0#8 ++ w.extractLsb' 0 8 = w := by
  have := o.isLt
  have := w.isLt
  have h19 := congrArg BitVec.toNat (field_of_and h 19 13 (by decide))
  have h8 := congrArg BitVec.toNat (field_of_and h 8 8 (by decide))
  apply BitVec.eq_of_toNat_eq
  simp only [Laws.toNat_ext, Laws.toNat_app, BitVec.toNat_ofNat] at *
  omega

theorem fixed_1z_3_1z_3_8_8 (o : BitVec 8) (x1 : BitVec 3) (x3 : BitVec 3) (x4 : BitVec 8) (x5 : BitVec 8) :
    (o ++ 0#1 ++ x1 ++ 0#1 ++ x3 ++ x4 ++ x5 : Word) &&& 0xFF880000#32 = o ++ 0#24 := by
  have := o.isLt
  have := x1.isLt
  have := x3.isLt
  have := x4.isLt
  have := x5.isLt
  refine and_eq_of_fields [(23, 9), (19, 1)] (by decide) (by revert o; decide) ?_
  simp only [List.forall_mem_cons, List.not_mem_nil, false_imp_iff, implies_true, and_true]
  refine ⟨?_, ?_⟩ <;>
    · apply BitVec.eq_of_toNat_eq
      simp only [Laws.toNat_ext, Laws.toNat_app, BitVec.toNat_ofNat]
      omega

theorem refit_1z_3_1z_3_8_8 {w : Word} {o : BitVec 8} (h : w &&& 0xFF880000#32 = o ++ 0#24) :
    o ++ 0#1 ++ w.extractLsb' 20 3 ++ 0#1 ++ w.extractLsb' 16 3 ++ w.extractLsb' 8 8 ++ w.extractLsb' 0 8 = w := by
  have := o.isLt
  have := w.isLt
  have h23 := congrArg BitVec.toNat (field_of_and h 23 9 (by decide))
  have h19 := congrArg BitVec.toNat (field_of_and h 19 1 (by decide))
  apply BitVec.eq_of_toNat_eq
  simp only [Laws.toNat_ext, Laws.toNat_app, BitVec.toNat_ofNat] at *
  omega

theorem fixed_8_16z (o : BitVec 8) (x0 : BitVec 8) :
    (o ++ x0 ++ 0#16 : Word) &&& 0xFF00FFFF#32 = o ++ 0#24 := by
  have := o.isLt
  have := x0.isLt
  refine and_eq_of_fields [(24, 8), (0, 16)] (by decide) (by revert o; decide) ?_
  simp only [List.forall_mem_cons, List.not_mem_nil, false_imp_iff, implies_true, and_true]
  refine ⟨?_, ?_⟩ <;>
    · apply BitVec.eq_of_toNat_eq
      simp only [Laws.toNat_ext, Laws.toNat_app, BitVec.toNat_ofNat]
      omega

theorem refit_8_16z {w : Word} {o : BitVec 8} (h : w &&& 0xFF00FFFF#32 = o ++ 0#24) :
    o ++ w.extractLsb' 16 8 ++ 0#16 = w := by
  have := o.isLt
  have := w.isLt
  have h24 := congrArg BitVec.toNat (field_of_and h 24 8 (by decide))
  have h0 := congrArg BitVec.toNat (field_of_and h 0 16 (by decide))
  apply BitVec.eq_of_toNat_eq
  simp only [Laws.toNat_ext, Laws.toNat_app, BitVec.toNat_ofNat] at *
  omega

theorem fixed_8_8_3_5 (o : BitVec 8) (x0 : BitVec 8) (x1 : BitVec 8) (x2 : BitVec 3) (x3 : BitVec 5) :
    (o ++ x0 ++ x1 ++ x2 ++ x3 : Word) &&& 0xFF000000#32 = o ++ 0#24 := by
  have := o.isLt
  have := x0.isLt
  have := x1.isLt
  have := x2.isLt
  have := x3.isLt
  refine and_eq_of_fields [(24, 8)] (by decide) (by revert o; decide) ?_
  simp only [List.forall_mem_cons, List.not_mem_nil, false_imp_iff, implies_true, and_true]
  apply BitVec.eq_of_toNat_eq
  simp only [Laws.toNat_ext, Laws.toNat_app, BitVec.toNat_ofNat]
  omega

theorem refit_8_8_3_5 {w : Word} {o : BitVec 8} (h : w &&& 0xFF000000#32 = o ++ 0#24) :
    o ++ w.extractLsb' 16 8 ++ w.extractLsb' 8 8 ++ w.extractLsb' 5 3 ++ w.extractLsb' 0 5 = w := by
  have := o.isLt
  have := w.isLt
  have h24 := congrArg BitVec.toNat (field_of_and h 24 8 (by decide))
  apply BitVec.eq_of_toNat_eq
  simp only [Laws.toNat_ext, Laws.toNat_app, BitVec.toNat_ofNat] at *
  omega

theorem fixed_7z_1_8_3_5 (o : BitVec 8) (x1 : BitVec 1) (x2 : BitVec 8) (x3 : BitVec 3) (x4 : BitVec 5) :
    (o ++ 0#7 ++ x1 ++ x2 ++ x3 ++ x4 : Word) &&& 0xFFFE0000#32 = o ++ 0#24 := by
  have := o.isLt
  have := x1.isLt
  have := x2.isLt
  have := x3.isLt
  have := x4.isLt
  refine and_eq_of_fields [(17, 15)] (by decide) (by revert o; decide) ?_
  simp only [List.forall_mem_cons, List.not_mem_nil, false_imp_iff, implies_true, and_true]
  apply BitVec.eq_of_toNat_eq
  simp only [Laws.toNat_ext, Laws.toNat_app, BitVec.toNat_ofNat]
  omega

theorem refit_7z_1_8_3_5 {w : Word} {o : BitVec 8} (h : w &&& 0xFFFE0000#32 = o ++ 0#24) :
    o ++ 0#7 ++ w.extractLsb' 16 1 ++ w.extractLsb' 8 8 ++ w.extractLsb' 5 3 ++ w.extractLsb' 0 5 = w := by
  have := o.isLt
  have := w.isLt
  have h17 := congrArg BitVec.toNat (field_of_and h 17 15 (by decide))
  apply BitVec.eq_of_toNat_eq
  simp only [Laws.toNat_ext, Laws.toNat_app, BitVec.toNat_ofNat] at *
  omega

theorem fixed_1z_3_1z_3_8_8z (o : BitVec 8) (x1 : BitVec 3) (x3 : BitVec 3) (x4 : BitVec 8) :
    (o ++ 0#1 ++ x1 ++ 0#1 ++ x3 ++ x4 ++ 0#8 : Word) &&& 0xFF8800FF#32 = o ++ 0#24 := by
  have := o.isLt
  have := x1.isLt
  have := x3.isLt
  have := x4.isLt
  refine and_eq_of_fields [(23, 9), (19, 1), (0, 8)] (by decide) (by revert o; decide) ?_
  simp only [List.forall_mem_cons, List.not_mem_nil, false_imp_iff, implies_true, and_true]
  refine ⟨?_, ?_, ?_⟩ <;>
    · apply BitVec.eq_of_toNat_eq
      simp only [Laws.toNat_ext, Laws.toNat_app, BitVec.toNat_ofNat]
      omega

theorem refit_1z_3_1z_3_8_8z {w : Word} {o : BitVec 8} (h : w &&& 0xFF8800FF#32 = o ++ 0#24) :
    o ++ 0#1 ++ w.extractLsb' 20 3 ++ 0#1 ++ w.extractLsb' 16 3 ++ w.extractLsb' 8 8 ++ 0#8 = w := by
  have := o.isLt
  have := w.isLt
  have h23 := congrArg BitVec.toNat (field_of_and h 23 9 (by decide))
  have h19 := congrArg BitVec.toNat (field_of_and h 19 1 (by decide))
  have h0 := congrArg BitVec.toNat (field_of_and h 0 8 (by decide))
  apply BitVec.eq_of_toNat_eq
  simp only [Laws.toNat_ext, Laws.toNat_app, BitVec.toNat_ofNat] at *
  omega

theorem fixed_21z_3 (o : BitVec 8) (x1 : BitVec 3) :
    (o ++ 0#21 ++ x1 : Word) &&& 0xFFFFFFF8#32 = o ++ 0#24 := by
  have := o.isLt
  have := x1.isLt
  refine and_eq_of_fields [(3, 29)] (by decide) (by revert o; decide) ?_
  simp only [List.forall_mem_cons, List.not_mem_nil, false_imp_iff, implies_true, and_true]
  apply BitVec.eq_of_toNat_eq
  simp only [Laws.toNat_ext, Laws.toNat_app, BitVec.toNat_ofNat]
  omega

theorem refit_21z_3 {w : Word} {o : BitVec 8} (h : w &&& 0xFFFFFFF8#32 = o ++ 0#24) :
    o ++ 0#21 ++ w.extractLsb' 0 3 = w := by
  have := o.isLt
  have := w.isLt
  have h3 := congrArg BitVec.toNat (field_of_and h 3 29 (by decide))
  apply BitVec.eq_of_toNat_eq
  simp only [Laws.toNat_ext, Laws.toNat_app, BitVec.toNat_ofNat] at *
  omega

theorem fixed_8z_1_9z_2_4 (o : BitVec 8) (x1 : BitVec 1) (x3 : BitVec 2) (x4 : BitVec 4) :
    (o ++ 0#8 ++ x1 ++ 0#9 ++ x3 ++ x4 : Word) &&& 0xFFFF7FC0#32 = o ++ 0#24 := by
  have := o.isLt
  have := x1.isLt
  have := x3.isLt
  have := x4.isLt
  refine and_eq_of_fields [(16, 16), (6, 9)] (by decide) (by revert o; decide) ?_
  simp only [List.forall_mem_cons, List.not_mem_nil, false_imp_iff, implies_true, and_true]
  refine ⟨?_, ?_⟩ <;>
    · apply BitVec.eq_of_toNat_eq
      simp only [Laws.toNat_ext, Laws.toNat_app, BitVec.toNat_ofNat]
      omega

theorem refit_8z_1_9z_2_4 {w : Word} {o : BitVec 8} (h : w &&& 0xFFFF7FC0#32 = o ++ 0#24) :
    o ++ 0#8 ++ w.extractLsb' 15 1 ++ 0#9 ++ w.extractLsb' 4 2 ++ w.extractLsb' 0 4 = w := by
  have := o.isLt
  have := w.isLt
  have h16 := congrArg BitVec.toNat (field_of_and h 16 16 (by decide))
  have h6 := congrArg BitVec.toNat (field_of_and h 6 9 (by decide))
  apply BitVec.eq_of_toNat_eq
  simp only [Laws.toNat_ext, Laws.toNat_app, BitVec.toNat_ofNat] at *
  omega

theorem fixed_8_1_9z_2_4 (o : BitVec 8) (x0 : BitVec 8) (x1 : BitVec 1) (x3 : BitVec 2) (x4 : BitVec 4) :
    (o ++ x0 ++ x1 ++ 0#9 ++ x3 ++ x4 : Word) &&& 0xFF007FC0#32 = o ++ 0#24 := by
  have := o.isLt
  have := x0.isLt
  have := x1.isLt
  have := x3.isLt
  have := x4.isLt
  refine and_eq_of_fields [(24, 8), (6, 9)] (by decide) (by revert o; decide) ?_
  simp only [List.forall_mem_cons, List.not_mem_nil, false_imp_iff, implies_true, and_true]
  refine ⟨?_, ?_⟩ <;>
    · apply BitVec.eq_of_toNat_eq
      simp only [Laws.toNat_ext, Laws.toNat_app, BitVec.toNat_ofNat]
      omega

theorem refit_8_1_9z_2_4 {w : Word} {o : BitVec 8} (h : w &&& 0xFF007FC0#32 = o ++ 0#24) :
    o ++ w.extractLsb' 16 8 ++ w.extractLsb' 15 1 ++ 0#9 ++ w.extractLsb' 4 2 ++ w.extractLsb' 0 4 = w := by
  have := o.isLt
  have := w.isLt
  have h24 := congrArg BitVec.toNat (field_of_and h 24 8 (by decide))
  have h6 := congrArg BitVec.toNat (field_of_and h 6 9 (by decide))
  apply BitVec.eq_of_toNat_eq
  simp only [Laws.toNat_ext, Laws.toNat_app, BitVec.toNat_ofNat] at *
  omega

theorem fixed_16z_8 (o : BitVec 8) (x1 : BitVec 8) :
    (o ++ 0#16 ++ x1 : Word) &&& 0xFFFFFF00#32 = o ++ 0#24 := by
  have := o.isLt
  have := x1.isLt
  refine and_eq_of_fields [(8, 24)] (by decide) (by revert o; decide) ?_
  simp only [List.forall_mem_cons, List.not_mem_nil, false_imp_iff, implies_true, and_true]
  apply BitVec.eq_of_toNat_eq
  simp only [Laws.toNat_ext, Laws.toNat_app, BitVec.toNat_ofNat]
  omega

theorem refit_16z_8 {w : Word} {o : BitVec 8} (h : w &&& 0xFFFFFF00#32 = o ++ 0#24) :
    o ++ 0#16 ++ w.extractLsb' 0 8 = w := by
  have := o.isLt
  have := w.isLt
  have h8 := congrArg BitVec.toNat (field_of_and h 8 24 (by decide))
  apply BitVec.eq_of_toNat_eq
  simp only [Laws.toNat_ext, Laws.toNat_app, BitVec.toNat_ofNat] at *
  omega

theorem fixed_4z_4_8_8z (o : BitVec 8) (x1 : BitVec 4) (x2 : BitVec 8) :
    (o ++ 0#4 ++ x1 ++ x2 ++ 0#8 : Word) &&& 0xFFF000FF#32 = o ++ 0#24 := by
  have := o.isLt
  have := x1.isLt
  have := x2.isLt
  refine and_eq_of_fields [(20, 12), (0, 8)] (by decide) (by revert o; decide) ?_
  simp only [List.forall_mem_cons, List.not_mem_nil, false_imp_iff, implies_true, and_true]
  refine ⟨?_, ?_⟩ <;>
    · apply BitVec.eq_of_toNat_eq
      simp only [Laws.toNat_ext, Laws.toNat_app, BitVec.toNat_ofNat]
      omega

theorem refit_4z_4_8_8z {w : Word} {o : BitVec 8} (h : w &&& 0xFFF000FF#32 = o ++ 0#24) :
    o ++ 0#4 ++ w.extractLsb' 16 4 ++ w.extractLsb' 8 8 ++ 0#8 = w := by
  have := o.isLt
  have := w.isLt
  have h20 := congrArg BitVec.toNat (field_of_and h 20 12 (by decide))
  have h0 := congrArg BitVec.toNat (field_of_and h 0 8 (by decide))
  apply BitVec.eq_of_toNat_eq
  simp only [Laws.toNat_ext, Laws.toNat_app, BitVec.toNat_ofNat] at *
  omega

theorem fixed_11c4_3_10z (o : BitVec 8) (x1 : BitVec 3) :
    (o ++ 4#11 ++ x1 ++ 0#10 : Word) &&& 0xFFFFE3FF#32 = o ++ 0x8000#24 := by
  have := o.isLt
  have := x1.isLt
  refine and_eq_of_fields [(13, 19), (0, 10)] (by decide) (by revert o; decide) ?_
  simp only [List.forall_mem_cons, List.not_mem_nil, false_imp_iff, implies_true, and_true]
  refine ⟨?_, ?_⟩ <;>
    · apply BitVec.eq_of_toNat_eq
      simp only [Laws.toNat_ext, Laws.toNat_app, BitVec.toNat_ofNat]
      omega

theorem refit_11c4_3_10z {w : Word} {o : BitVec 8} (h : w &&& 0xFFFFE3FF#32 = o ++ 0x8000#24) :
    o ++ 4#11 ++ w.extractLsb' 10 3 ++ 0#10 = w := by
  have := o.isLt
  have := w.isLt
  have h13 := congrArg BitVec.toNat (field_of_and h 13 19 (by decide))
  have h0 := congrArg BitVec.toNat (field_of_and h 0 10 (by decide))
  apply BitVec.eq_of_toNat_eq
  simp only [Laws.toNat_ext, Laws.toNat_app, BitVec.toNat_ofNat] at *
  omega

theorem fixed_4c10_4_8_8z (o : BitVec 8) (x1 : BitVec 4) (x2 : BitVec 8) :
    (o ++ 10#4 ++ x1 ++ x2 ++ 0#8 : Word) &&& 0xFFF000FF#32 = o ++ 0xA00000#24 := by
  have := o.isLt
  have := x1.isLt
  have := x2.isLt
  refine and_eq_of_fields [(20, 12), (0, 8)] (by decide) (by revert o; decide) ?_
  simp only [List.forall_mem_cons, List.not_mem_nil, false_imp_iff, implies_true, and_true]
  refine ⟨?_, ?_⟩ <;>
    · apply BitVec.eq_of_toNat_eq
      simp only [Laws.toNat_ext, Laws.toNat_app, BitVec.toNat_ofNat]
      omega

theorem refit_4c10_4_8_8z {w : Word} {o : BitVec 8} (h : w &&& 0xFFF000FF#32 = o ++ 0xA00000#24) :
    o ++ 10#4 ++ w.extractLsb' 16 4 ++ w.extractLsb' 8 8 ++ 0#8 = w := by
  have := o.isLt
  have := w.isLt
  have h20 := congrArg BitVec.toNat (field_of_and h 20 12 (by decide))
  have h0 := congrArg BitVec.toNat (field_of_and h 0 8 (by decide))
  apply BitVec.eq_of_toNat_eq
  simp only [Laws.toNat_ext, Laws.toNat_app, BitVec.toNat_ofNat] at *
  omega

theorem fixed_3c4_5_8_8z (o : BitVec 8) (x1 : BitVec 5) (x2 : BitVec 8) :
    (o ++ 4#3 ++ x1 ++ x2 ++ 0#8 : Word) &&& 0xFFE000FF#32 = o ++ 0x800000#24 := by
  have := o.isLt
  have := x1.isLt
  have := x2.isLt
  refine and_eq_of_fields [(21, 11), (0, 8)] (by decide) (by revert o; decide) ?_
  simp only [List.forall_mem_cons, List.not_mem_nil, false_imp_iff, implies_true, and_true]
  refine ⟨?_, ?_⟩ <;>
    · apply BitVec.eq_of_toNat_eq
      simp only [Laws.toNat_ext, Laws.toNat_app, BitVec.toNat_ofNat]
      omega

theorem refit_3c4_5_8_8z {w : Word} {o : BitVec 8} (h : w &&& 0xFFE000FF#32 = o ++ 0x800000#24) :
    o ++ 4#3 ++ w.extractLsb' 16 5 ++ w.extractLsb' 8 8 ++ 0#8 = w := by
  have := o.isLt
  have := w.isLt
  have h21 := congrArg BitVec.toNat (field_of_and h 21 11 (by decide))
  have h0 := congrArg BitVec.toNat (field_of_and h 0 8 (by decide))
  apply BitVec.eq_of_toNat_eq
  simp only [Laws.toNat_ext, Laws.toNat_app, BitVec.toNat_ofNat] at *
  omega

theorem fixed_8z_8_8 (o : BitVec 8) (x1 : BitVec 8) (x2 : BitVec 8) :
    (o ++ 0#8 ++ x1 ++ x2 : Word) &&& 0xFFFF0000#32 = o ++ 0#24 := by
  have := o.isLt
  have := x1.isLt
  have := x2.isLt
  refine and_eq_of_fields [(16, 16)] (by decide) (by revert o; decide) ?_
  simp only [List.forall_mem_cons, List.not_mem_nil, false_imp_iff, implies_true, and_true]
  apply BitVec.eq_of_toNat_eq
  simp only [Laws.toNat_ext, Laws.toNat_app, BitVec.toNat_ofNat]
  omega

theorem refit_8z_8_8 {w : Word} {o : BitVec 8} (h : w &&& 0xFFFF0000#32 = o ++ 0#24) :
    o ++ 0#8 ++ w.extractLsb' 8 8 ++ w.extractLsb' 0 8 = w := by
  have := o.isLt
  have := w.isLt
  have h16 := congrArg BitVec.toNat (field_of_and h 16 16 (by decide))
  apply BitVec.eq_of_toNat_eq
  simp only [Laws.toNat_ext, Laws.toNat_app, BitVec.toNat_ofNat] at *
  omega

theorem fixed_20z_4 (o : BitVec 8) (x1 : BitVec 4) :
    (o ++ 0#20 ++ x1 : Word) &&& 0xFFFFFFF0#32 = o ++ 0#24 := by
  have := o.isLt
  have := x1.isLt
  refine and_eq_of_fields [(4, 28)] (by decide) (by revert o; decide) ?_
  simp only [List.forall_mem_cons, List.not_mem_nil, false_imp_iff, implies_true, and_true]
  apply BitVec.eq_of_toNat_eq
  simp only [Laws.toNat_ext, Laws.toNat_app, BitVec.toNat_ofNat]
  omega

theorem refit_20z_4 {w : Word} {o : BitVec 8} (h : w &&& 0xFFFFFFF0#32 = o ++ 0#24) :
    o ++ 0#20 ++ w.extractLsb' 0 4 = w := by
  have := o.isLt
  have := w.isLt
  have h4 := congrArg BitVec.toNat (field_of_and h 4 28 (by decide))
  apply BitVec.eq_of_toNat_eq
  simp only [Laws.toNat_ext, Laws.toNat_app, BitVec.toNat_ofNat] at *
  omega

theorem fixed_5z_3_16z (o : BitVec 8) (x1 : BitVec 3) :
    (o ++ 0#5 ++ x1 ++ 0#16 : Word) &&& 0xFFF8FFFF#32 = o ++ 0#24 := by
  have := o.isLt
  have := x1.isLt
  refine and_eq_of_fields [(19, 13), (0, 16)] (by decide) (by revert o; decide) ?_
  simp only [List.forall_mem_cons, List.not_mem_nil, false_imp_iff, implies_true, and_true]
  refine ⟨?_, ?_⟩ <;>
    · apply BitVec.eq_of_toNat_eq
      simp only [Laws.toNat_ext, Laws.toNat_app, BitVec.toNat_ofNat]
      omega

theorem refit_5z_3_16z {w : Word} {o : BitVec 8} (h : w &&& 0xFFF8FFFF#32 = o ++ 0#24) :
    o ++ 0#5 ++ w.extractLsb' 16 3 ++ 0#16 = w := by
  have := o.isLt
  have := w.isLt
  have h19 := congrArg BitVec.toNat (field_of_and h 19 13 (by decide))
  have h0 := congrArg BitVec.toNat (field_of_and h 0 16 (by decide))
  apply BitVec.eq_of_toNat_eq
  simp only [Laws.toNat_ext, Laws.toNat_app, BitVec.toNat_ofNat] at *
  omega

theorem fixed_3_10_11 (o : BitVec 8) (x0 : BitVec 3) (x1 : BitVec 10) (x2 : BitVec 11) :
    (o ++ x0 ++ x1 ++ x2 : Word) &&& 0xFF000000#32 = o ++ 0#24 := by
  have := o.isLt
  have := x0.isLt
  have := x1.isLt
  have := x2.isLt
  refine and_eq_of_fields [(24, 8)] (by decide) (by revert o; decide) ?_
  simp only [List.forall_mem_cons, List.not_mem_nil, false_imp_iff, implies_true, and_true]
  apply BitVec.eq_of_toNat_eq
  simp only [Laws.toNat_ext, Laws.toNat_app, BitVec.toNat_ofNat]
  omega

theorem refit_3_10_11 {w : Word} {o : BitVec 8} (h : w &&& 0xFF000000#32 = o ++ 0#24) :
    o ++ w.extractLsb' 21 3 ++ w.extractLsb' 11 10 ++ w.extractLsb' 0 11 = w := by
  have := o.isLt
  have := w.isLt
  have h24 := congrArg BitVec.toNat (field_of_and h 24 8 (by decide))
  apply BitVec.eq_of_toNat_eq
  simp only [Laws.toNat_ext, Laws.toNat_app, BitVec.toNat_ofNat] at *
  omega

theorem fixed_3_2_19 (o : BitVec 8) (x0 : BitVec 3) (x1 : BitVec 2) (x2 : BitVec 19) :
    (o ++ x0 ++ x1 ++ x2 : Word) &&& 0xFF000000#32 = o ++ 0#24 := by
  have := o.isLt
  have := x0.isLt
  have := x1.isLt
  have := x2.isLt
  refine and_eq_of_fields [(24, 8)] (by decide) (by revert o; decide) ?_
  simp only [List.forall_mem_cons, List.not_mem_nil, false_imp_iff, implies_true, and_true]
  apply BitVec.eq_of_toNat_eq
  simp only [Laws.toNat_ext, Laws.toNat_app, BitVec.toNat_ofNat]
  omega

theorem refit_3_2_19 {w : Word} {o : BitVec 8} (h : w &&& 0xFF000000#32 = o ++ 0#24) :
    o ++ w.extractLsb' 21 3 ++ w.extractLsb' 19 2 ++ w.extractLsb' 0 19 = w := by
  have := o.isLt
  have := w.isLt
  have h24 := congrArg BitVec.toNat (field_of_and h 24 8 (by decide))
  apply BitVec.eq_of_toNat_eq
  simp only [Laws.toNat_ext, Laws.toNat_app, BitVec.toNat_ofNat] at *
  omega

/-! Selectors (R38). -/

theorem selByte_selOf (x : BitVec 8) : selByte (selOf x) = x := by
  revert x
  decide

theorem selOf_selByte (x : Sel) : selOf (selByte x) = x := by
  cases x with
  | v n => revert n; decide
  | s n => revert n; decide
  | q n => revert n; decide
  | p n => revert n; decide
  | t n => revert n; decide
  | k n => revert n; decide

/-! Decode of encode, by format: s marks a selector. -/

/-- The row of an opcode and the word's place in it. -/
def looseAt (o : BitVec 8) (w : Word) : Option Instr :=
  let n := (o.extractLsb' 0 4).toNat
  match (o.extractLsb' 4 4).toNat with
  | 0x0 => looseRow0 n w
  | 0x1 => looseRow1 n w
  | 0x2 => looseRow2 n w
  | 0x3 => looseRow3 n w
  | 0x4 => looseRow4 n w
  | 0x5 => looseRow5 n w
  | 0x6 => looseRow6 n w
  | 0x7 => looseRow7 n w
  | 0x8 => looseRow8 n w
  | 0x9 => looseRow9 n w
  | 0xA => looseRowA n w
  | 0xB => looseRowB n w
  | 0xC => looseRowC n w
  | 0xD => looseRowD n w
  | _ => none

theorem looseDecode_eq_looseAt {w : Word} {o : BitVec 8} (h : w.extractLsb' 24 8 = o) : looseDecode w = looseAt o w := by
  have hhi : w.extractLsb' 28 4 = o.extractLsb' 4 4 := by
    subst h
    apply BitVec.eq_of_toNat_eq
    simp only [Laws.toNat_ext]
    omega
  have hlo : w.extractLsb' 24 4 = o.extractLsb' 0 4 := by
    subst h
    apply BitVec.eq_of_toNat_eq
    simp only [Laws.toNat_ext]
    omega
  simp only [looseDecode, looseAt, hhi, hlo] <;> rfl

/-- A word reads as an instruction when its opcode's row and its fixed bits say so (R32). -/
theorem decodeWord_eq_ok {w : Word} {o : BitVec 8} {i : Instr} (ho : w.extractLsb' 24 8 = o) (hi : looseAt o w = some i)
    (hf : w &&& (fixedBits i).1 = (fixedBits i).2) : decodeWord w = .ok i := by
  simp only [decodeWord, looseDecode_eq_looseAt ho, hi, hf, if_true]

theorem decode_11c4_3_10z {o : BitVec 8} {mk : BitVec 3 → Instr}
    (hr : ∀ w, looseAt o w = some (mk (w.extractLsb' 10 3)))
    (hf : ∀ x1, fixedBits (mk x1) = (0xFFFFE3FF#32, o ++ 0x8000#24)) (x1 : BitVec 3) :
    decodeWord (o ++ 4#11 ++ x1 ++ 0#10) = .ok (mk x1) := by
  refine decodeWord_eq_ok (Laws.top_11_3_10 ..) ((hr _).trans ?_) ?_
  · simp only [fields_11_3_10]
  · simp only [hf, fixed_11c4_3_10z]

theorem decode_16z_8 {o : BitVec 8} {mk : BitVec 8 → Instr}
    (hr : ∀ w, looseAt o w = some (mk (w.extractLsb' 0 8)))
    (hf : ∀ x1, fixedBits (mk x1) = (0xFFFFFF00#32, o ++ 0#24)) (x1 : BitVec 8) :
    decodeWord (o ++ 0#16 ++ x1) = .ok (mk x1) := by
  refine decodeWord_eq_ok (Laws.top_16_8 ..) ((hr _).trans ?_) ?_
  · simp only [fields_16_8]
  · simp only [hf, fixed_16z_8]

theorem decode_1z_3_1z_3_s_8z {o : BitVec 8} {mk : BitVec 3 → BitVec 3 → Sel → Instr}
    (hr : ∀ w, looseAt o w = some (mk (w.extractLsb' 20 3) (w.extractLsb' 16 3) (selOf (w.extractLsb' 8 8))))
    (hf : ∀ x1 x3 x4, fixedBits (mk x1 x3 x4) = (0xFF8800FF#32, o ++ 0#24)) (x1 : BitVec 3) (x3 : BitVec 3) (x4 : Sel) :
    decodeWord (o ++ 0#1 ++ x1 ++ 0#1 ++ x3 ++ selByte x4 ++ 0#8) = .ok (mk x1 x3 x4) := by
  refine decodeWord_eq_ok (Laws.top_1_3_1_3_8_8 ..) ((hr _).trans ?_) ?_
  · simp only [fields_1_3_1_3_8_8, selOf_selByte]
  · simp only [hf, fixed_1z_3_1z_3_8_8z]

theorem decode_1z_3_1z_3_s_s {o : BitVec 8} {mk : BitVec 3 → BitVec 3 → Sel → Sel → Instr}
    (hr : ∀ w, looseAt o w = some (mk (w.extractLsb' 20 3) (w.extractLsb' 16 3) (selOf (w.extractLsb' 8 8)) (selOf (w.extractLsb' 0 8))))
    (hf : ∀ x1 x3 x4 x5, fixedBits (mk x1 x3 x4 x5) = (0xFF880000#32, o ++ 0#24)) (x1 : BitVec 3) (x3 : BitVec 3) (x4 : Sel) (x5 : Sel) :
    decodeWord (o ++ 0#1 ++ x1 ++ 0#1 ++ x3 ++ selByte x4 ++ selByte x5) = .ok (mk x1 x3 x4 x5) := by
  refine decodeWord_eq_ok (Laws.top_1_3_1_3_8_8 ..) ((hr _).trans ?_) ?_
  · simp only [fields_1_3_1_3_8_8, selOf_selByte]
  · simp only [hf, fixed_1z_3_1z_3_8_8]

theorem decode_20z_4 {o : BitVec 8} {mk : BitVec 4 → Instr}
    (hr : ∀ w, looseAt o w = some (mk (w.extractLsb' 0 4)))
    (hf : ∀ x1, fixedBits (mk x1) = (0xFFFFFFF0#32, o ++ 0#24)) (x1 : BitVec 4) :
    decodeWord (o ++ 0#20 ++ x1) = .ok (mk x1) := by
  refine decodeWord_eq_ok (Laws.top_20_4 ..) ((hr _).trans ?_) ?_
  · simp only [fields_20_4]
  · simp only [hf, fixed_20z_4]

theorem decode_21z_3 {o : BitVec 8} {mk : BitVec 3 → Instr}
    (hr : ∀ w, looseAt o w = some (mk (w.extractLsb' 0 3)))
    (hf : ∀ x1, fixedBits (mk x1) = (0xFFFFFFF8#32, o ++ 0#24)) (x1 : BitVec 3) :
    decodeWord (o ++ 0#21 ++ x1) = .ok (mk x1) := by
  refine decodeWord_eq_ok (Laws.top_21_3 ..) ((hr _).trans ?_) ?_
  · simp only [fields_21_3]
  · simp only [hf, fixed_21z_3]

theorem decode_24 {o : BitVec 8} {mk : BitVec 24 → Instr}
    (hr : ∀ w, looseAt o w = some (mk (w.extractLsb' 0 24)))
    (hf : ∀ x0, fixedBits (mk x0) = (0xFF000000#32, o ++ 0#24)) (x0 : BitVec 24) :
    decodeWord (o ++ x0) = .ok (mk x0) := by
  refine decodeWord_eq_ok (Laws.top_24 ..) ((hr _).trans ?_) ?_
  · simp only [fields_24]
  · simp only [hf, fixed_24]

theorem decode_24z {o : BitVec 8} {mk : Instr} (hr : ∀ w, looseAt o w = some mk)
    (hf : fixedBits mk = (0xFFFFFFFF#32, o ++ 0#24)) : decodeWord (o ++ 0#24) = .ok mk := by
  refine decodeWord_eq_ok (Laws.top_24 ..) (hr _) ?_
  simp only [hf, fixed_24z]

theorem decode_3_10_11 {o : BitVec 8} {mk : BitVec 3 → BitVec 10 → BitVec 11 → Instr}
    (hr : ∀ w, looseAt o w = some (mk (w.extractLsb' 21 3) (w.extractLsb' 11 10) (w.extractLsb' 0 11)))
    (hf : ∀ x0 x1 x2, fixedBits (mk x0 x1 x2) = (0xFF000000#32, o ++ 0#24)) (x0 : BitVec 3) (x1 : BitVec 10) (x2 : BitVec 11) :
    decodeWord (o ++ x0 ++ x1 ++ x2) = .ok (mk x0 x1 x2) := by
  refine decodeWord_eq_ok (Laws.top_3_10_11 ..) ((hr _).trans ?_) ?_
  · simp only [fields_3_10_11]
  · simp only [hf, fixed_3_10_11]

theorem decode_3_2_19 {o : BitVec 8} {mk : BitVec 3 → BitVec 2 → BitVec 19 → Instr}
    (hr : ∀ w, looseAt o w = some (mk (w.extractLsb' 21 3) (w.extractLsb' 19 2) (w.extractLsb' 0 19)))
    (hf : ∀ x0 x1 x2, fixedBits (mk x0 x1 x2) = (0xFF000000#32, o ++ 0#24)) (x0 : BitVec 3) (x1 : BitVec 2) (x2 : BitVec 19) :
    decodeWord (o ++ x0 ++ x1 ++ x2) = .ok (mk x0 x1 x2) := by
  refine decodeWord_eq_ok (Laws.top_3_2_19 ..) ((hr _).trans ?_) ?_
  · simp only [fields_3_2_19]
  · simp only [hf, fixed_3_2_19]

theorem decode_3c4_5_s_8z {o : BitVec 8} {mk : BitVec 5 → Sel → Instr}
    (hr : ∀ w, looseAt o w = some (mk (w.extractLsb' 16 5) (selOf (w.extractLsb' 8 8))))
    (hf : ∀ x1 x2, fixedBits (mk x1 x2) = (0xFFE000FF#32, o ++ 0x800000#24)) (x1 : BitVec 5) (x2 : Sel) :
    decodeWord (o ++ 4#3 ++ x1 ++ selByte x2 ++ 0#8) = .ok (mk x1 x2) := by
  refine decodeWord_eq_ok (Laws.top_3_5_8_8 ..) ((hr _).trans ?_) ?_
  · simp only [fields_3_5_8_8, selOf_selByte]
  · simp only [hf, fixed_3c4_5_8_8z]

theorem decode_4c10_4_s_8z {o : BitVec 8} {mk : BitVec 4 → Sel → Instr}
    (hr : ∀ w, looseAt o w = some (mk (w.extractLsb' 16 4) (selOf (w.extractLsb' 8 8))))
    (hf : ∀ x1 x2, fixedBits (mk x1 x2) = (0xFFF000FF#32, o ++ 0xA00000#24)) (x1 : BitVec 4) (x2 : Sel) :
    decodeWord (o ++ 10#4 ++ x1 ++ selByte x2 ++ 0#8) = .ok (mk x1 x2) := by
  refine decodeWord_eq_ok (Laws.top_4_4_8_8 ..) ((hr _).trans ?_) ?_
  · simp only [fields_4_4_8_8, selOf_selByte]
  · simp only [hf, fixed_4c10_4_8_8z]

theorem decode_4z_4_s_8z {o : BitVec 8} {mk : BitVec 4 → Sel → Instr}
    (hr : ∀ w, looseAt o w = some (mk (w.extractLsb' 16 4) (selOf (w.extractLsb' 8 8))))
    (hf : ∀ x1 x2, fixedBits (mk x1 x2) = (0xFFF000FF#32, o ++ 0#24)) (x1 : BitVec 4) (x2 : Sel) :
    decodeWord (o ++ 0#4 ++ x1 ++ selByte x2 ++ 0#8) = .ok (mk x1 x2) := by
  refine decodeWord_eq_ok (Laws.top_4_4_8_8 ..) ((hr _).trans ?_) ?_
  · simp only [fields_4_4_8_8, selOf_selByte]
  · simp only [hf, fixed_4z_4_8_8z]

theorem decode_5_19z {o : BitVec 8} {mk : BitVec 5 → Instr}
    (hr : ∀ w, looseAt o w = some (mk (w.extractLsb' 19 5)))
    (hf : ∀ x0, fixedBits (mk x0) = (0xFF07FFFF#32, o ++ 0#24)) (x0 : BitVec 5) :
    decodeWord (o ++ x0 ++ 0#19) = .ok (mk x0) := by
  refine decodeWord_eq_ok (Laws.top_5_19 ..) ((hr _).trans ?_) ?_
  · simp only [fields_5_19]
  · simp only [hf, fixed_5_19z]

theorem decode_5z_3_16z {o : BitVec 8} {mk : BitVec 3 → Instr}
    (hr : ∀ w, looseAt o w = some (mk (w.extractLsb' 16 3)))
    (hf : ∀ x1, fixedBits (mk x1) = (0xFFF8FFFF#32, o ++ 0#24)) (x1 : BitVec 3) :
    decodeWord (o ++ 0#5 ++ x1 ++ 0#16) = .ok (mk x1) := by
  refine decodeWord_eq_ok (Laws.top_5_3_16 ..) ((hr _).trans ?_) ?_
  · simp only [fields_5_3_16]
  · simp only [hf, fixed_5z_3_16z]

theorem decode_5z_3_8z_8 {o : BitVec 8} {mk : BitVec 3 → BitVec 8 → Instr}
    (hr : ∀ w, looseAt o w = some (mk (w.extractLsb' 16 3) (w.extractLsb' 0 8)))
    (hf : ∀ x1 x3, fixedBits (mk x1 x3) = (0xFFF8FF00#32, o ++ 0#24)) (x1 : BitVec 3) (x3 : BitVec 8) :
    decodeWord (o ++ 0#5 ++ x1 ++ 0#8 ++ x3) = .ok (mk x1 x3) := by
  refine decodeWord_eq_ok (Laws.top_5_3_8_8 ..) ((hr _).trans ?_) ?_
  · simp only [fields_5_3_8_8]
  · simp only [hf, fixed_5z_3_8z_8]

theorem decode_7z_1_s_3_5 {o : BitVec 8} {mk : BitVec 1 → Sel → BitVec 3 → BitVec 5 → Instr}
    (hr : ∀ w, looseAt o w = some (mk (w.extractLsb' 16 1) (selOf (w.extractLsb' 8 8)) (w.extractLsb' 5 3) (w.extractLsb' 0 5)))
    (hf : ∀ x1 x2 x3 x4, fixedBits (mk x1 x2 x3 x4) = (0xFFFE0000#32, o ++ 0#24)) (x1 : BitVec 1) (x2 : Sel) (x3 : BitVec 3) (x4 : BitVec 5) :
    decodeWord (o ++ 0#7 ++ x1 ++ selByte x2 ++ x3 ++ x4) = .ok (mk x1 x2 x3 x4) := by
  refine decodeWord_eq_ok (Laws.top_7_1_8_3_5 ..) ((hr _).trans ?_) ?_
  · simp only [fields_7_1_8_3_5, selOf_selByte]
  · simp only [hf, fixed_7z_1_8_3_5]

theorem decode_8_16 {o : BitVec 8} {mk : BitVec 8 → BitVec 16 → Instr}
    (hr : ∀ w, looseAt o w = some (mk (w.extractLsb' 16 8) (w.extractLsb' 0 16)))
    (hf : ∀ x0 x1, fixedBits (mk x0 x1) = (0xFF000000#32, o ++ 0#24)) (x0 : BitVec 8) (x1 : BitVec 16) :
    decodeWord (o ++ x0 ++ x1) = .ok (mk x0 x1) := by
  refine decodeWord_eq_ok (Laws.top_8_16 ..) ((hr _).trans ?_) ?_
  · simp only [fields_8_16]
  · simp only [hf, fixed_8_16]

theorem decode_8_8_8 {o : BitVec 8} {mk : BitVec 8 → BitVec 8 → BitVec 8 → Instr}
    (hr : ∀ w, looseAt o w = some (mk (w.extractLsb' 16 8) (w.extractLsb' 8 8) (w.extractLsb' 0 8)))
    (hf : ∀ x0 x1 x2, fixedBits (mk x0 x1 x2) = (0xFF000000#32, o ++ 0#24)) (x0 : BitVec 8) (x1 : BitVec 8) (x2 : BitVec 8) :
    decodeWord (o ++ x0 ++ x1 ++ x2) = .ok (mk x0 x1 x2) := by
  refine decodeWord_eq_ok (Laws.top_8_8_8 ..) ((hr _).trans ?_) ?_
  · simp only [fields_8_8_8]
  · simp only [hf, fixed_8_8_8]

theorem decode_8z_16 {o : BitVec 8} {mk : BitVec 16 → Instr}
    (hr : ∀ w, looseAt o w = some (mk (w.extractLsb' 0 16)))
    (hf : ∀ x1, fixedBits (mk x1) = (0xFFFF0000#32, o ++ 0#24)) (x1 : BitVec 16) :
    decodeWord (o ++ 0#8 ++ x1) = .ok (mk x1) := by
  refine decodeWord_eq_ok (Laws.top_8_16 ..) ((hr _).trans ?_) ?_
  · simp only [fields_8_16]
  · simp only [hf, fixed_8z_16]

theorem decode_8z_1_9z_2_4 {o : BitVec 8} {mk : BitVec 1 → BitVec 2 → BitVec 4 → Instr}
    (hr : ∀ w, looseAt o w = some (mk (w.extractLsb' 15 1) (w.extractLsb' 4 2) (w.extractLsb' 0 4)))
    (hf : ∀ x1 x3 x4, fixedBits (mk x1 x3 x4) = (0xFFFF7FC0#32, o ++ 0#24)) (x1 : BitVec 1) (x3 : BitVec 2) (x4 : BitVec 4) :
    decodeWord (o ++ 0#8 ++ x1 ++ 0#9 ++ x3 ++ x4) = .ok (mk x1 x3 x4) := by
  refine decodeWord_eq_ok (Laws.top_8_1_9_2_4 ..) ((hr _).trans ?_) ?_
  · simp only [fields_8_1_9_2_4]
  · simp only [hf, fixed_8z_1_9z_2_4]

theorem decode_8z_s_8z {o : BitVec 8} {mk : Sel → Instr}
    (hr : ∀ w, looseAt o w = some (mk (selOf (w.extractLsb' 8 8))))
    (hf : ∀ x1, fixedBits (mk x1) = (0xFFFF00FF#32, o ++ 0#24)) (x1 : Sel) :
    decodeWord (o ++ 0#8 ++ selByte x1 ++ 0#8) = .ok (mk x1) := by
  refine decodeWord_eq_ok (Laws.top_8_8_8 ..) ((hr _).trans ?_) ?_
  · simp only [fields_8_8_8, selOf_selByte]
  · simp only [hf, fixed_8z_8_8z]

theorem decode_8z_s_s {o : BitVec 8} {mk : Sel → Sel → Instr}
    (hr : ∀ w, looseAt o w = some (mk (selOf (w.extractLsb' 8 8)) (selOf (w.extractLsb' 0 8))))
    (hf : ∀ x1 x2, fixedBits (mk x1 x2) = (0xFFFF0000#32, o ++ 0#24)) (x1 : Sel) (x2 : Sel) :
    decodeWord (o ++ 0#8 ++ selByte x1 ++ selByte x2) = .ok (mk x1 x2) := by
  refine decodeWord_eq_ok (Laws.top_8_8_8 ..) ((hr _).trans ?_) ?_
  · simp only [fields_8_8_8, selOf_selByte]
  · simp only [hf, fixed_8z_8_8]

theorem decode_s_16 {o : BitVec 8} {mk : Sel → BitVec 16 → Instr}
    (hr : ∀ w, looseAt o w = some (mk (selOf (w.extractLsb' 16 8)) (w.extractLsb' 0 16)))
    (hf : ∀ x0 x1, fixedBits (mk x0 x1) = (0xFF000000#32, o ++ 0#24)) (x0 : Sel) (x1 : BitVec 16) :
    decodeWord (o ++ selByte x0 ++ x1) = .ok (mk x0 x1) := by
  refine decodeWord_eq_ok (Laws.top_8_16 ..) ((hr _).trans ?_) ?_
  · simp only [fields_8_16, selOf_selByte]
  · simp only [hf, fixed_8_16]

theorem decode_s_16z {o : BitVec 8} {mk : Sel → Instr}
    (hr : ∀ w, looseAt o w = some (mk (selOf (w.extractLsb' 16 8))))
    (hf : ∀ x0, fixedBits (mk x0) = (0xFF00FFFF#32, o ++ 0#24)) (x0 : Sel) :
    decodeWord (o ++ selByte x0 ++ 0#16) = .ok (mk x0) := by
  refine decodeWord_eq_ok (Laws.top_8_16 ..) ((hr _).trans ?_) ?_
  · simp only [fields_8_16, selOf_selByte]
  · simp only [hf, fixed_8_16z]

theorem decode_s_1_9z_2_4 {o : BitVec 8} {mk : Sel → BitVec 1 → BitVec 2 → BitVec 4 → Instr}
    (hr : ∀ w, looseAt o w = some (mk (selOf (w.extractLsb' 16 8)) (w.extractLsb' 15 1) (w.extractLsb' 4 2) (w.extractLsb' 0 4)))
    (hf : ∀ x0 x1 x3 x4, fixedBits (mk x0 x1 x3 x4) = (0xFF007FC0#32, o ++ 0#24)) (x0 : Sel) (x1 : BitVec 1) (x3 : BitVec 2) (x4 : BitVec 4) :
    decodeWord (o ++ selByte x0 ++ x1 ++ 0#9 ++ x3 ++ x4) = .ok (mk x0 x1 x3 x4) := by
  refine decodeWord_eq_ok (Laws.top_8_1_9_2_4 ..) ((hr _).trans ?_) ?_
  · simp only [fields_8_1_9_2_4, selOf_selByte]
  · simp only [hf, fixed_8_1_9z_2_4]

theorem decode_s_s_3_5 {o : BitVec 8} {mk : Sel → Sel → BitVec 3 → BitVec 5 → Instr}
    (hr : ∀ w, looseAt o w = some (mk (selOf (w.extractLsb' 16 8)) (selOf (w.extractLsb' 8 8)) (w.extractLsb' 5 3) (w.extractLsb' 0 5)))
    (hf : ∀ x0 x1 x2 x3, fixedBits (mk x0 x1 x2 x3) = (0xFF000000#32, o ++ 0#24)) (x0 : Sel) (x1 : Sel) (x2 : BitVec 3) (x3 : BitVec 5) :
    decodeWord (o ++ selByte x0 ++ selByte x1 ++ x2 ++ x3) = .ok (mk x0 x1 x2 x3) := by
  refine decodeWord_eq_ok (Laws.top_8_8_3_5 ..) ((hr _).trans ?_) ?_
  · simp only [fields_8_8_3_5, selOf_selByte]
  · simp only [hf, fixed_8_8_3_5]

theorem decode_s_s_8z {o : BitVec 8} {mk : Sel → Sel → Instr}
    (hr : ∀ w, looseAt o w = some (mk (selOf (w.extractLsb' 16 8)) (selOf (w.extractLsb' 8 8))))
    (hf : ∀ x0 x1, fixedBits (mk x0 x1) = (0xFF0000FF#32, o ++ 0#24)) (x0 : Sel) (x1 : Sel) :
    decodeWord (o ++ selByte x0 ++ selByte x1 ++ 0#8) = .ok (mk x0 x1) := by
  refine decodeWord_eq_ok (Laws.top_8_8_8 ..) ((hr _).trans ?_) ?_
  · simp only [fields_8_8_8, selOf_selByte]
  · simp only [hf, fixed_8_8_8z]

theorem decode_s_s_s {o : BitVec 8} {mk : Sel → Sel → Sel → Instr}
    (hr : ∀ w, looseAt o w = some (mk (selOf (w.extractLsb' 16 8)) (selOf (w.extractLsb' 8 8)) (selOf (w.extractLsb' 0 8))))
    (hf : ∀ x0 x1 x2, fixedBits (mk x0 x1 x2) = (0xFF000000#32, o ++ 0#24)) (x0 : Sel) (x1 : Sel) (x2 : Sel) :
    decodeWord (o ++ selByte x0 ++ selByte x1 ++ selByte x2) = .ok (mk x0 x1 x2) := by
  refine decodeWord_eq_ok (Laws.top_8_8_8 ..) ((hr _).trans ?_) ?_
  · simp only [fields_8_8_8, selOf_selByte]
  · simp only [hf, fixed_8_8_8]

/-- A word instruction's word reads as that instruction. -/
theorem decodeWord_of_encode? {i : Instr} {w : Word} (h : encode? i = some w) : decodeWord w = .ok i := by
  cases i <;> cases h
  case scene.refl =>
    exact decode_5_19z (fun _ => rfl) (fun _ => rfl) _
  case sceneEnd.refl =>
    exact decode_8_8_8 (fun _ => rfl) (fun _ _ _ => rfl) _ _ _
  case brc.refl =>
    exact decode_3_10_11 (fun _ => rfl) (fun _ _ _ => rfl) _ _ _
  case bru.refl =>
    exact decode_3_2_19 (fun _ => rfl) (fun _ _ _ => rfl) _ _ _
  case modei.refl =>
    exact decode_8_16 (fun _ => rfl) (fun _ _ => rfl) _ _
  case winld.refl =>
    exact decode_5z_3_8z_8 (fun _ => rfl) (fun _ _ => rfl) _ _
  case winsub.refl =>
    exact decode_1z_3_1z_3_s_s (fun _ => rfl) (fun _ _ _ _ => rfl) _ _ _ _
  case pfl.refl =>
    exact decode_7z_1_s_3_5 (fun _ => rfl) (fun _ _ _ _ => rfl) _ _ _ _
  case cpy.refl =>
    exact decode_1z_3_1z_3_s_8z (fun _ => rfl) (fun _ _ _ => rfl) _ _ _
  case fence.refl =>
    exact decode_21z_3 (fun _ => rfl) (fun _ => rfl) _
  case barinit.refl =>
    exact decode_s_1_9z_2_4 (fun _ => rfl) (fun _ _ _ _ => rfl) _ _ _ _
  case hop.refl =>
    exact decode_4z_4_s_8z (fun _ => rfl) (fun _ _ => rfl) _ _
  case qcfg.refl =>
    exact decode_4c10_4_s_8z (fun _ => rfl) (fun _ _ => rfl) _ _
  case cstat.refl =>
    exact decode_3c4_5_s_8z (fun _ => rfl) (fun _ _ => rfl) _ _
  case wfree.refl =>
    exact decode_8z_s_s (fun _ => rfl) (fun _ _ => rfl) _ _
  case gwait.refl =>
    exact decode_20z_4 (fun _ => rfl) (fun _ => rfl) _
  case bpage.refl =>
    exact decode_5z_3_16z (fun _ => rfl) (fun _ => rfl) _
  case jmp.refl | call.refl =>
    exact decode_24 (fun _ => rfl) (fun _ => rfl) _
  case trap.refl | brk.refl =>
    exact decode_8z_16 (fun _ => rfl) (fun _ => rfl) _
  case elect.refl | pclr.refl =>
    exact decode_s_16z (fun _ => rfl) (fun _ => rfl) _
  case jmpr.refl | callr.refl | mode.refl =>
    exact decode_8z_s_8z (fun _ => rfl) (fun _ => rfl) _
  case bara.refl | barw.refl | bars.refl =>
    exact decode_8z_1_9z_2_4 (fun _ => rfl) (fun _ _ _ => rfl) _ _ _
  case cwait.refl | cmit.refl | cdisc.refl =>
    exact decode_16z_8 (fun _ => rfl) (fun _ => rfl) _
  case exit.refl | yield.refl | nop.refl | drain.refl | tret.refl | sigck.refl =>
    exact decode_24z (fun _ => rfl) rfl
  case ldi.refl | ldhi.refl | rdsp.refl | wrsp.refl | rdsys.refl | wrsys.refl =>
    exact decode_s_16 (fun _ => rfl) (fun _ _ => rfl) _ _
  case wload.refl | stage.refl | chain.refl | gbind.refl | gprog.refl | gmark.refl | gprop.refl | gcoll.refl | gclr.refl |
      bexec.refl | rowop.refl =>
    exact decode_11c4_3_10z (fun _ => rfl) (fun _ => rfl) _
  case ldb.refl | ldh.refl | ldw.refl | ldq.refl | stb.refl | sth.refl | stw.refl | stq.refl | faa.refl | fmn.refl |
      fmx.refl | fand.refl | fior.refl | fxor.refl | swp.refl | cas.refl | radd.refl | rmin.refl | rmax.refl | ror.refl |
      mwne.refl | mwge.refl =>
    exact decode_s_s_3_5 (fun _ => rfl) (fun _ _ _ _ => rfl) _ _ _ _
  case mov.refl | rdtag.refl | not.refl | clz.refl | ffs.refl | popc.refl | brev.refl | fabs.refl | fneg.refl | rcp.refl |
      rsqrt.refl | sqrt.refl | exp2.refl | log2.refl | sinpi.refl | cospi.refl | tanh.refl | rnd.refl | frac.refl |
      cvt.refl | ballot.refl | matchLanes.refl | pset.refl | pget.refl | pnot.refl | pmask.refl | ptest.refl =>
    exact decode_s_s_8z (fun _ => rfl) (fun _ _ => rfl) _ _
  case retag.refl | add.refl | sub.refl | mul.refl | mulhi.refl | mad.refl | min.refl | max.refl | absd.refl | and.refl |
      or.refl | xor.refl | andn.refl | shl.refl | shr.refl | sar.refl | rol.refl | fshl.refl | fshr.refl | lut3.refl |
      bfx.refl | bfi.refl | cmpeq.refl | cmpne.refl | cmplt.refl | cmple.refl | sel.refl | sad.refl | fadd.refl |
      fsub.refl | fmul.refl | fma.refl | fmin.refl | fmax.refl | fcmpeq.refl | fcmplt.refl | fcmple.refl | fcmpun.refl |
      dotk.refl | dot4.refl | dot2.refl | fclass.refl | ldexp.refl | qshf.refl | qswp.refl | qred.refl | shfi.refl |
      shfx.refl | shfu.refl | shfd.refl | redx.refl | scanx.refl | vote.refl | bcst.refl | pand.refl | por.refl |
      pxor.refl | gstat.refl =>
    exact decode_s_s_s (fun _ => rfl) (fun _ _ _ => rfl) _ _ _

theorem encode?_of_looseRow0 {n : Nat} {w : Word} {i : Instr} (h : looseRow0 n w = some i)
    (hf : w &&& (fixedBits i).1 = (fixedBits i).2) : encode? i = some w := by
  unfold looseRow0 at h
  split at h <;> cases h
  case h_1.refl => exact congrArg some (refit_5_19z hf)
  case h_2.refl => exact congrArg some (refit_8_8_8 hf)
  case h_7.refl => exact congrArg some (refit_3_10_11 hf)
  case h_8.refl => exact congrArg some (refit_3_2_19 hf)
  case h_3.refl | h_4.refl => exact congrArg some (refit_24 hf)
  case h_5.refl | h_6.refl => exact congrArg some (by simpa only [selByte_selOf] using refit_8z_8_8z hf)
  case h_10.refl | h_12.refl => exact congrArg some (refit_8z_16 hf)
  all_goals exact congrArg some (refit_24z hf)

theorem encode?_of_looseRow1 {n : Nat} {w : Word} {i : Instr} (h : looseRow1 n w = some i)
    (hf : w &&& (fixedBits i).1 = (fixedBits i).2) : encode? i = some w := by
  unfold looseRow1 at h
  split at h <;> cases h
  case h_5.refl => exact congrArg some (by simpa only [selByte_selOf] using refit_8z_8_8z hf)
  case h_8.refl => exact congrArg some (by simpa only [selByte_selOf] using refit_5z_3_8z_8 hf)
  case h_9.refl => exact congrArg some (by simpa only [selByte_selOf] using refit_1z_3_1z_3_8_8 hf)
  case h_11.refl => exact congrArg some (by simpa only [selByte_selOf] using refit_8_8_8 hf)
  case h_3.refl | h_10.refl => exact congrArg some (by simpa only [selByte_selOf] using refit_8_8_8z hf)
  all_goals exact congrArg some (by simpa only [selByte_selOf] using refit_8_16 hf)

theorem encode?_of_looseRow2 {n : Nat} {w : Word} {i : Instr} (h : looseRow2 n w = some i)
    (hf : w &&& (fixedBits i).1 = (fixedBits i).2) : encode? i = some w := by
  unfold looseRow2 at h
  split at h <;> cases h
  case h_13.refl => exact congrArg some (by simpa only [selByte_selOf] using refit_8_8_8z hf)
  all_goals exact congrArg some (by simpa only [selByte_selOf] using refit_8_8_8 hf)

theorem encode?_of_looseRow3 {n : Nat} {w : Word} {i : Instr} (h : looseRow3 n w = some i)
    (hf : w &&& (fixedBits i).1 = (fixedBits i).2) : encode? i = some w := by
  unfold looseRow3 at h
  split at h <;> cases h
  case h_5.refl | h_6.refl | h_7.refl | h_8.refl => exact congrArg some (by simpa only [selByte_selOf] using refit_8_8_8z hf)
  all_goals exact congrArg some (by simpa only [selByte_selOf] using refit_8_8_8 hf)

theorem encode?_of_looseRow4 {n : Nat} {w : Word} {i : Instr} (h : looseRow4 n w = some i)
    (hf : w &&& (fixedBits i).1 = (fixedBits i).2) : encode? i = some w := by
  unfold looseRow4 at h
  split at h <;> cases h
  case h_11.refl | h_12.refl | h_13.refl | h_14.refl | h_15.refl | h_16.refl => exact congrArg some (by simpa only [selByte_selOf] using refit_8_8_8z hf)
  all_goals exact congrArg some (by simpa only [selByte_selOf] using refit_8_8_8 hf)

theorem encode?_of_looseRow5 {n : Nat} {w : Word} {i : Instr} (h : looseRow5 n w = some i)
    (hf : w &&& (fixedBits i).1 = (fixedBits i).2) : encode? i = some w := by
  unfold looseRow5 at h
  split at h <;> cases h
  case h_8.refl | h_9.refl | h_10.refl | h_11.refl | h_12.refl => exact congrArg some (by simpa only [selByte_selOf] using refit_8_8_8 hf)
  all_goals exact congrArg some (by simpa only [selByte_selOf] using refit_8_8_8z hf)

theorem encode?_of_looseRow6 {n : Nat} {w : Word} {i : Instr} (h : looseRow6 n w = some i)
    (hf : w &&& (fixedBits i).1 = (fixedBits i).2) : encode? i = some w := by
  unfold looseRow6 at h
  split at h <;> cases h
  case h_14.refl => exact congrArg some (by simpa only [selByte_selOf] using refit_8_16z hf)
  case h_10.refl | h_12.refl => exact congrArg some (by simpa only [selByte_selOf] using refit_8_8_8z hf)
  all_goals exact congrArg some (by simpa only [selByte_selOf] using refit_8_8_8 hf)

theorem encode?_of_looseRow7 {n : Nat} {w : Word} {i : Instr} (h : looseRow7 n w = some i)
    (hf : w &&& (fixedBits i).1 = (fixedBits i).2) : encode? i = some w := by
  unfold looseRow7 at h
  split at h <;> cases h
  case h_3.refl | h_4.refl | h_5.refl => exact congrArg some (by simpa only [selByte_selOf] using refit_8_8_8 hf)
  all_goals exact congrArg some (by simpa only [selByte_selOf] using refit_8_8_8z hf)

theorem encode?_of_looseRow8 {n : Nat} {w : Word} {i : Instr} (h : looseRow8 n w = some i)
    (hf : w &&& (fixedBits i).1 = (fixedBits i).2) : encode? i = some w := by
  unfold looseRow8 at h
  split at h <;> cases h
  all_goals exact congrArg some (by simpa only [selByte_selOf] using refit_8_8_3_5 hf)

theorem encode?_of_looseRow9 {n : Nat} {w : Word} {i : Instr} (h : looseRow9 n w = some i)
    (hf : w &&& (fixedBits i).1 = (fixedBits i).2) : encode? i = some w := by
  unfold looseRow9 at h
  split at h <;> cases h
  case h_5.refl => exact congrArg some (by simpa only [selByte_selOf] using refit_7z_1_8_3_5 hf)
  case h_6.refl => exact congrArg some (by simpa only [selByte_selOf] using refit_1z_3_1z_3_8_8z hf)
  all_goals exact congrArg some (by simpa only [selByte_selOf] using refit_8_8_3_5 hf)

theorem encode?_of_looseRowA {n : Nat} {w : Word} {i : Instr} (h : looseRowA n w = some i)
    (hf : w &&& (fixedBits i).1 = (fixedBits i).2) : encode? i = some w := by
  unfold looseRowA at h
  split at h <;> cases h
  case h_1.refl => exact congrArg some (refit_21z_3 hf)
  case h_5.refl => exact congrArg some (by simpa only [selByte_selOf] using refit_8_1_9z_2_4 hf)
  case h_8.refl => exact congrArg some (refit_24z hf)
  case h_9.refl => exact congrArg some (refit_16z_8 hf)
  case h_6.refl | h_7.refl => exact congrArg some (by simpa only [selByte_selOf] using refit_8_8_3_5 hf)
  all_goals exact congrArg some (refit_8z_1_9z_2_4 hf)

theorem encode?_of_looseRowB {n : Nat} {w : Word} {i : Instr} (h : looseRowB n w = some i)
    (hf : w &&& (fixedBits i).1 = (fixedBits i).2) : encode? i = some w := by
  unfold looseRowB at h
  split at h <;> cases h
  case h_1.refl => exact congrArg some (by simpa only [selByte_selOf] using refit_4z_4_8_8z hf)
  case h_7.refl => exact congrArg some (by simpa only [selByte_selOf] using refit_4c10_4_8_8z hf)
  case h_8.refl => exact congrArg some (by simpa only [selByte_selOf] using refit_3c4_5_8_8z hf)
  case h_9.refl => exact congrArg some (by simpa only [selByte_selOf] using refit_8z_8_8 hf)
  case h_5.refl | h_6.refl => exact congrArg some (refit_16z_8 hf)
  all_goals exact congrArg some (refit_11c4_3_10z hf)

theorem encode?_of_looseRowC {n : Nat} {w : Word} {i : Instr} (h : looseRowC n w = some i)
    (hf : w &&& (fixedBits i).1 = (fixedBits i).2) : encode? i = some w := by
  unfold looseRowC at h
  split at h <;> cases h
  case h_7.refl => exact congrArg some (refit_20z_4 hf)
  case h_8.refl => exact congrArg some (by simpa only [selByte_selOf] using refit_8_8_8 hf)
  case h_11.refl => exact congrArg some (refit_5z_3_16z hf)
  all_goals exact congrArg some (refit_11c4_3_10z hf)

theorem encode?_of_looseRowD {n : Nat} {w : Word} {i : Instr} (h : looseRowD n w = some i)
    (hf : w &&& (fixedBits i).1 = (fixedBits i).2) : encode? i = some w := by
  unfold looseRowD at h
  split at h <;> cases h
  case h_4.refl => exact congrArg some (by simpa only [selByte_selOf] using refit_8_8_8z hf)
  case h_5.refl => exact congrArg some (by simpa only [selByte_selOf] using refit_8_16z hf)
  case h_1.refl | h_6.refl => exact congrArg some (refit_24z hf)
  all_goals exact congrArg some (by simpa only [selByte_selOf] using refit_8_16 hf)

/-- A word that reads as an instruction is that instruction's word. -/
theorem encode?_of_decodeWord {w : Word} {i : Instr} (h : decodeWord w = .ok i) : encode? i = some w := by
  unfold decodeWord at h
  split at h
  · cases h
  next j hj =>
  split at h
  next hf =>
    cases h
    unfold looseDecode at hj
    split at hj
    · exact encode?_of_looseRow0 hj hf
    · exact encode?_of_looseRow1 hj hf
    · exact encode?_of_looseRow2 hj hf
    · exact encode?_of_looseRow3 hj hf
    · exact encode?_of_looseRow4 hj hf
    · exact encode?_of_looseRow5 hj hf
    · exact encode?_of_looseRow6 hj hf
    · exact encode?_of_looseRow7 hj hf
    · exact encode?_of_looseRow8 hj hf
    · exact encode?_of_looseRow9 hj hf
    · exact encode?_of_looseRowA hj hf
    · exact encode?_of_looseRowB hj hf
    · exact encode?_of_looseRowC hj hf
    · exact encode?_of_looseRowD hj hf
    · cases hj
  · cases h

theorem wordOfBytes_bytesOfWord (w : Word) : wordOfBytes (w.extractLsb' 0 8) (w.extractLsb' 8 8) (w.extractLsb' 16 8) (w.extractLsb' 24 8) = w := by
  apply BitVec.eq_of_toNat_eq
  have := w.isLt
  simp only [wordOfBytes, Laws.toNat_app, Laws.toNat_ext]
  omega

/-! The opcodes of each row that name an instruction. -/

theorem looseRow0_isSome (n : Nat) (w : Word) : (looseRow0 n w).isSome ↔ 1 ≤ n ∧ n ≤ 0xD := by
  unfold looseRow0
  split <;> simp
  simp only [imp_false] at *
  omega
theorem looseRow1_isSome (n : Nat) (w : Word) : (looseRow1 n w).isSome ↔ n ≤ 0xA := by
  unfold looseRow1
  split <;> simp
  simp only [imp_false] at *
  omega
theorem looseRow2_isSome (n : Nat) (w : Word) : (looseRow2 n w).isSome ↔ n ≤ 0xF := by
  unfold looseRow2
  split <;> simp
  simp only [imp_false] at *
  omega
theorem looseRow3_isSome (n : Nat) (w : Word) : (looseRow3 n w).isSome ↔ n ≤ 0xF := by
  unfold looseRow3
  split <;> simp
  simp only [imp_false] at *
  omega
theorem looseRow4_isSome (n : Nat) (w : Word) : (looseRow4 n w).isSome ↔ n ≤ 0xF := by
  unfold looseRow4
  split <;> simp
  simp only [imp_false] at *
  omega
theorem looseRow5_isSome (n : Nat) (w : Word) : (looseRow5 n w).isSome ↔ n ≤ 0xB := by
  unfold looseRow5
  split <;> simp
  simp only [imp_false] at *
  omega
theorem looseRow6_isSome (n : Nat) (w : Word) : (looseRow6 n w).isSome ↔ n ≤ 0xD := by
  unfold looseRow6
  split <;> simp
  simp only [imp_false] at *
  omega
theorem looseRow7_isSome (n : Nat) (w : Word) : (looseRow7 n w).isSome ↔ n ≤ 6 := by
  unfold looseRow7
  split <;> simp
  simp only [imp_false] at *
  omega
theorem looseRow8_isSome (n : Nat) (w : Word) : (looseRow8 n w).isSome ↔ n ≤ 0xF := by
  unfold looseRow8
  split <;> simp
  simp only [imp_false] at *
  omega
theorem looseRow9_isSome (n : Nat) (w : Word) : (looseRow9 n w).isSome ↔ n ≤ 5 := by
  unfold looseRow9
  split <;> simp
  simp only [imp_false] at *
  omega
theorem looseRowA_isSome (n : Nat) (w : Word) : (looseRowA n w).isSome ↔ n ≤ 8 := by
  unfold looseRowA
  split <;> simp
  simp only [imp_false] at *
  omega
theorem looseRowB_isSome (n : Nat) (w : Word) : (looseRowB n w).isSome ↔ n ≤ 8 := by
  unfold looseRowB
  split <;> simp
  simp only [imp_false] at *
  omega
theorem looseRowC_isSome (n : Nat) (w : Word) : (looseRowC n w).isSome ↔ n ≤ 0xA := by
  unfold looseRowC
  split <;> simp
  simp only [imp_false] at *
  omega
theorem looseRowD_isSome (n : Nat) (w : Word) : (looseRowD n w).isSome ↔ n ≤ 5 := by
  unfold looseRowD
  split <;> simp
  simp only [imp_false] at *
  omega

/-- The opcodes that name no instruction (R53). -/
def reservedOp (op : Nat) : Prop :=
  op = 0 ∨ op = 0xFF ∨ (0x0E ≤ op ∧ op ≤ 0x0F) ∨ (0x1B ≤ op ∧ op ≤ 0x1F) ∨ (0x5C ≤ op ∧ op ≤ 0x5F)
      ∨ (0x6E ≤ op ∧ op ≤ 0x6F) ∨ (0x77 ≤ op ∧ op ≤ 0x7F) ∨ (0x96 ≤ op ∧ op ≤ 0x9F) ∨ (0xA9 ≤ op ∧ op ≤ 0xAF)
      ∨ (0xB9 ≤ op ∧ op ≤ 0xBF) ∨ (0xCB ≤ op ∧ op ≤ 0xCF) ∨ (0xD6 ≤ op ∧ op ≤ 0xFE)

theorem looseDecode_isSome (w : Word) : (looseDecode w).isSome ↔ ¬reservedOp (w.toNat / 2 ^ 24) := by
  have hw := w.isLt
  have hhi : (w.extractLsb' 28 4).toNat = w.toNat / 2 ^ 24 / 16 := by
    rw [Laws.toNat_ext]
    omega
  have hlo : (w.extractLsb' 24 4).toNat = w.toNat / 2 ^ 24 % 16 := by
    exact Laws.toNat_ext ..
  have hop : w.toNat / 2 ^ 24 < 256 := by omega
  unfold looseDecode reservedOp
  rw [hhi, hlo]
  generalize w.toNat / 2 ^ 24 = op at hop ⊢
  split
  all_goals
    simp only [imp_false] at *
    simp only [looseRow0_isSome, looseRow1_isSome, looseRow2_isSome, looseRow3_isSome, looseRow4_isSome, looseRow5_isSome,
      looseRow6_isSome, looseRow7_isSome, looseRow8_isSome, looseRow9_isSome, looseRowA_isSome, looseRowB_isSome, looseRowC_isSome,
      looseRowD_isSome, Option.isSome_none, Bool.false_eq_true, false_iff]
    omega

end Sys2Proof

namespace Sys2Proof.Machine

open Sys2Proof.Claim

/-- Settles O42: an instruction's word reads as that instruction, and a word's bytes as the word (R5). -/
theorem decodeOfEncode : Obligations.DecodeOfEncode := by
  unfold Obligations.DecodeOfEncode
  intro i rest hi
  obtain ⟨w, hw⟩ := Option.isSome_iff_exists.1 hi
  have he : encode i = w := by simp [encode, hw]
  simp only [encodeBytes, bytesOfWord, he, List.cons_append, List.nil_append, decodeBytes, wordOfBytes_bytesOfWord,
    decodeWord_of_encode? hw]

/-- Settles O43: the row and the fixed bits of a word that decodes give back every bit of it. -/
theorem encodeOfDecode : Obligations.EncodeOfDecode := by
  unfold Obligations.EncodeOfDecode
  intro w i h
  have hw := encode?_of_decodeWord h
  exact ⟨by simp [encode, hw], by simp [isWord, hw]⟩

/-- Settles O44: a row names the opcodes up to its last, and no row is past 0xD. -/
theorem reservedOpcodes : Obligations.ReservedOpcodes := by
  unfold Obligations.ReservedOpcodes
  intro w
  refine ⟨fun h => ?_, fun h => (looseDecode_isSome w).2 h⟩
  have hnone : looseDecode w = none :=
    Option.not_isSome_iff_eq_none.1 fun hs => (looseDecode_isSome w).1 hs h
  have hop : w.extractLsb' 24 8 = BitVec.ofNat 8 (w.toNat / 2 ^ 24) := by
    apply BitVec.eq_of_toNat_eq
    simp only [Laws.toNat_ext, BitVec.toNat_ofNat]
  refine ⟨hnone, ?_, fun regs len idx x => ?_⟩
  · simp only [decodeWord, hnone, hop]
  · simp only [wordFault, hnone]
    rfl

/-- Settles O45: the words of the manual's tables, each decoded and encoded. -/
theorem manualWordsDecode : Obligations.ManualWordsDecode := by
  unfold Obligations.ManualWordsDecode
  decide

/-- Settles O40: memory at reset lists nothing. -/
theorem resetMemoryForm : Obligations.ResetMemoryForm := ⟨rfl, fun _ => rfl⟩

end Sys2Proof.Machine
end

section
/-! SUPPORT. Memory's cells and the system registers: what a store leaves there (R5, R236, R303 to R306). -/

namespace Sys2Proof.Machine

open Sys2Proof.Claim

/-- In a memory in its form a cell is listed when the address reads as its value, and the value is not what an unlisted address reads as. -/
theorem Memory.mem_iff_readByte {m : Memory} (h : Memory.wf m = true) (c : Host.Cell) : c ∈ m ↔ readByte m c.1 = c.2 ∧ c.2 ≠ 0#8 := by
  obtain ⟨hp, hz⟩ := (Memory.wf_iff m).1 h
  clear h
  induction m with
  | nil => simp only [List.not_mem_nil, readByte, unlisted, false_iff, not_and, not_not]; exact fun h => h.symm
  | cons d r ih =>
    obtain ⟨hd, hr⟩ := List.pairwise_cons.1 hp
    have ih := ih hr fun x hx => hz x (.tail _ hx)
    by_cases hc : d.1 = c.1
    · have hnot : c ∉ r := fun hm => absurd (hd c hm) (by omega)
      simp only [List.mem_cons, hnot, or_false, readByte, hc, if_true]
      constructor
      · rintro rfl
        exact ⟨rfl, hz c (.head _)⟩
      · rintro ⟨e, -⟩
        exact Prod.ext hc.symm e.symm
    · have hne : c ≠ d := fun e => hc (e ▸ rfl)
      simpa only [List.mem_cons, hne, false_or, readByte, hc, if_false] using ih

theorem Memory.ext_readByte {m n : Memory} (hm : Memory.wf m = true) (hn : Memory.wf n = true)
    (h : ∀ a, readByte m a = readByte n a) : m = n := by
  refine List.Pairwise.eq_of_mem_iff (r := fun c d : Host.Cell => c.1 < d.1) ((Memory.wf_iff m).1 hm).1 ((Memory.wf_iff n).1 hn).1 fun c => ?_
  rw [Memory.mem_iff_readByte hm, Memory.mem_iff_readByte hn, h]

/-- Settles O38: what a written run reads as, and a memory's cells from its reads. -/
theorem memoryReadsBack : Obligations.MemoryReadsBack := by
  unfold Obligations.MemoryReadsBack
  exact ⟨fun m a bs => ⟨fun h => Memory.wf_writeRun h a bs, fun i h => readByte_writeRun_same m a bs i h,
    fun b h => readByte_writeRun_other m a bs b h⟩, fun m n hm hn h => Memory.ext_readByte hm hn h⟩

theorem zeroRow_of_low {pa : Nat} (h : pa / 0x10000 % 4096 < 8) (hm : pa < 0x60_0000_0000) : zeroRow pa = true := by
  have hlt : pa < Config.memBytes := hm
  have hrow : rowOf pa % 512 = 0 := by
    simp only [rowOf, Config.stackBytes]
    omega
  simp [zeroRow, hlt, hrow]

theorem State.readPa_one (s : State) (b : Nat) : s.readPa b 1 = [if zeroRow b then 0#8 else readByte s.mem b] := rfl

/-- A write outside the zero rows of a working die. -/
theorem State.writePa_of_open {s : State} {pa : Nat} (hz : zeroRow pa = false) (hd : (s.die (homeDie pa)).failed = false)
    (bs : List Byte) : s.writePa pa bs = { s with mem := writeRun s.mem pa bs, pois := clearPois s.pois pa bs.length } := by
  simp [State.writePa, hz, hd]

theorem bytesLE_four (w : Word) :
    bytesLE 4 w.toNat = [w.extractLsb' 0 8, w.extractLsb' 8 8, w.extractLsb' 16 8, w.extractLsb' 24 8] := rfl

theorem ofBytesLE_bytes (w : Word) :
    ofBytesLE [w.extractLsb' 0 8, w.extractLsb' 8 8, w.extractLsb' 16 8, w.extractLsb' 24 8] = w.toNat := by
  have := w.isLt
  simp only [ofBytesLE, List.foldr_cons, List.foldr_nil, Laws.toNat_ext]
  omega

/-- Clean data over a whole sector clears its mark (R153). -/
theorem rangePois_clearPois (p : List Nat) {pa : Nat} (h : pa % 32 = 0) : rangePois (clearPois p pa 32) pa 32 = false := by
  simp only [rangePois, clearPois, List.any_filter, List.any_eq_false]
  intro k _
  simp
  omega

/-- Settles O37: a zero row is no cell, and any other word is the run of bytes that memory holds. -/
theorem physicalMemory : Obligations.PhysicalMemory := by
  unfold Obligations.PhysicalMemory
  refine ⟨fun s pa h hm => ?_, fun s pa w hz hd => ?_⟩
  · have hrow := zeroRow_of_low h hm
    exact ⟨by rw [State.readPa_one, if_pos hrow], fun bs => by simp [State.writePa, hrow]⟩
  · have hz0 : zeroRow pa = false := hz 0 (by decide)
    intro t
    have ht : t = { s with mem := writeRun s.mem pa (bytesLE 4 w.toNat), pois := clearPois s.pois pa 4 } :=
      State.writePa_of_open hz0 hd _
    have hread : t.readPa pa 4 = [w.extractLsb' 0 8, w.extractLsb' 8 8, w.extractLsb' 16 8, w.extractLsb' 24 8] := by
      have hbyte (i : Nat) (hi : i < 4) : (if zeroRow (pa + i) then 0#8 else readByte t.mem (pa + i)) = (bytesLE 4 w.toNat)[i]'hi := by
        rw [if_neg (by simp [hz i hi]), ht]
        exact readByte_writeRun_same s.mem pa (bytesLE 4 w.toNat) i hi
      simp only [State.readPa, List.range, List.range.loop, List.map_cons, List.map_nil]
      rw [hbyte 0 (by decide), hbyte 1 (by decide), hbyte 2 (by decide), hbyte 3 (by decide)]
      rfl
    refine ⟨?_, hread, fun b hb => ?_, fun bs hlen hpa => ?_, by rw [ht], by rw [ht]⟩
    · rw [State.readPaNat, hread, ofBytesLE_bytes]
    · rw [State.readPa_one, State.readPa_one, ht]
      exact congrArg (fun x => [if zeroRow b then 0#8 else x]) (readByte_writeRun_other s.mem pa (bytesLE 4 w.toNat) b hb)
    · rw [State.writePa_of_open hz0 hd bs, hlen]
      have hdie : (State.die { s with mem := writeRun s.mem pa bs, pois := clearPois s.pois pa 32 } (homeDie pa)).failed = false := hd
      simp only [State.paPois, rangePois_clearPois _ hpa, Bool.and_false, Bool.false_or]
      exact hdie

theorem State.readUnit_reset (part off : Nat) : State.reset.readUnit part off = 0#32 := by
  have hpart : State.reset.part part = {} := rfl
  have hq : State.reset.quiesced part = false := rfl
  have hd : State.reset.tdone part = false := rfl
  unfold State.readUnit
  simp only [hpart, hq, hd]
  split <;> decide

theorem State.readReg_unlisted {s : State} {core n : Nat}
    (h : n ∉ [0x000, 0x001, 0x002, 0x003, 0x004, 0x005, 0x010, 0x011, 0x012, 0x013, 0x014, 0x018, 0x020, 0x021, 0x022, 0x028, 0x030]) :
    s.readReg core n = none := by
  unfold State.readReg
  split
  case h_18 => rfl
  all_goals exact absurd (by decide) h

/-- Settles O35: each register's value at reset, the table's numbers being the only ones that name a register. -/
theorem resetRegisters : Obligations.ResetRegisters := by
  unfold Obligations.ResetRegisters
  intro core _
  refine ⟨rfl, rfl, rfl, rfl, rfl, rfl, rfl, rfl, ?_, fun n _ h => State.readReg_unlisted h, fun part _ off _ => State.readUnit_reset part off⟩
  simp only [List.forall_mem_cons, List.not_mem_nil, false_imp_iff, implies_true, and_true]
  exact ⟨rfl, rfl, rfl, rfl, rfl, rfl, rfl, rfl, rfl⟩

theorem State.readReg_updCore_other (s : State) {core c : Nat} (f : CoreState → CoreState) (m : Nat) (h : c ≠ core) :
    (s.updCore core f).readReg c m = s.readReg c m := by
  simp only [State.readReg, State.core_updCore_other _ _ _ _ h, State.updCore_clk]
  rfl

theorem State.readReg_updDie_other (s : State) {d c : Nat} (f : DieState → DieState) (m : Nat) (h : dieOfCore c ≠ d) :
    (s.updDie d f).readReg c m = s.readReg c m := by
  simp only [State.readReg, State.die_updDie_other _ _ _ _ h, State.updDie_clk]
  rfl

/-- A new window's count is 0, its upper half as before, and it has not ended yet (R374). -/
theorem CoreState.rollWindow_newWindow (c : CoreState) (clk : Nat) (x y : Word) :
    ({ c.newWindow clk with ltelim := x, ltewin := y } : CoreState).rollWindow clk = { c.newWindow clk with ltelim := x, ltewin := y } := by
  unfold CoreState.rollWindow
  rw [if_neg]
  simp only [CoreState.newWindow]
  omega

theorem setField_low16 (x : Word) : setField x 15 0 0 = x &&& 0xFFFF_0000#32 := by
  have hx : x = x.extractLsb' 16 16 ++ x.extractLsb' 0 16 := by
    apply BitVec.eq_of_toNat_eq
    have := x.isLt
    simp only [Laws.toNat_app, Laws.toNat_ext]
    omega
  have hand : x &&& 0xFFFF_0000#32 = x.extractLsb' 16 16 ++ 0#16 :=
    calc x &&& 0xFFFF_0000#32 = (x.extractLsb' 16 16 ++ x.extractLsb' 0 16) &&& (BitVec.allOnes 16 ++ 0#16) := congrArg (· &&& 0xFFFF_0000#32) hx
      _ = (x.extractLsb' 16 16 &&& BitVec.allOnes 16) ++ (x.extractLsb' 0 16 &&& 0#16) := BitVec.and_append
      _ = x.extractLsb' 16 16 ++ 0#16 := by rw [BitVec.and_allOnes, BitVec.and_zero]
  rw [hand]
  apply BitVec.eq_of_toNat_eq
  have := x.isLt
  simp only [setField, bits, Laws.toNat_app, Laws.toNat_ext, BitVec.toNat_ofNat, Nat.shiftRight_zero]
  omega

theorem CoreState.ltecnt_rollWindow (c : CoreState) (clk : Nat) : (c.rollWindow clk).ltecnt =
    if 0 < clksOfUs (bits c.ltewin 19 0) ∧ c.winStart + clksOfUs (bits c.ltewin 19 0) ≤ clk then setField c.ltecnt 15 0 0 else c.ltecnt := by
  simp only [CoreState.rollWindow, CoreState.newWindow]
  split <;> rfl

/-- A store that is legal and that no group on the core forbids is a write (R304, R305). -/
theorem State.hartWriteReg_eq_writeReg {s : State} {core n : Nat} {x : Word} (hw : hartWritable n = true)
    (hok : regValueOk (s.marginMax core) n x = true) (hb : (n = 2 ∨ n = 3) → s.coreBusy core = false) :
    s.hartWriteReg core n x = s.writeReg core n x := by
  have hfree : ((n == 2 || (n == 3 && x != 0#32)) && s.coreBusy core) = false := by
    by_cases h : n = 2 ∨ n = 3
    · simp [hb h]
    · obtain ⟨h2, h3⟩ := not_or.1 h
      simp [h2, h3]
  simp [State.hartWriteReg, hw, hok, hfree]

/-- A store that changes fields of a core alone: the other cores' registers, memory and the groups stay. -/
theorem State.readReg_updCore (s : State) (core : Nat) (f : CoreState → CoreState) (n : Nat)
    (hf : ∀ m, m ≠ n → (s.updCore core f).readReg core m = s.readReg core m) {c m : Nat} (h : ¬(c = core ∧ m = n)) :
    (s.updCore core f).readReg c m = s.readReg c m := by
  by_cases hc : c = core
  · subst hc
    exact hf m fun e => h ⟨rfl, e⟩
  · exact State.readReg_updCore_other s f m hc

/-- The registers whose store sets off nothing else, on the core alone (R304, R375). -/
theorem State.hartWriteReg_core {s : State} {core n : Nat} {x : Word} (hn : n ∈ [0x004, 0x005, 0x018])
    (hok : regValueOk (s.marginMax core) n x = true) :
    ∃ f, s.hartWriteReg core n x = s.updCore core f ∧ (s.updCore core f).readReg core n = some x
      ∧ ∀ m, m ≠ n → (s.updCore core f).readReg core m = s.readReg core m := by
  rw [State.hartWriteReg_eq_writeReg (by fin_cases hn <;> rfl) hok (by fin_cases hn <;> simp)]
  fin_cases hn
  · refine ⟨fun c => { c with ctxbase := x }, rfl, by simp [State.readReg], fun m hm => ?_⟩
    simp only [State.readReg, State.core_updCore, State.updCore_clk, CoreState.ltecnt_rollWindow]
    split
    case h_5 => exact absurd rfl hm
    all_goals rfl
  · refine ⟨fun c => { c with trapvec := x }, rfl, by simp [State.readReg], fun m hm => ?_⟩
    simp only [State.readReg, State.core_updCore, State.updCore_clk, CoreState.ltecnt_rollWindow]
    split
    case h_6 => exact absurd rfl hm
    all_goals rfl
  · refine ⟨fun c => { c with gcwin := x }, rfl, by simp [State.readReg], fun m hm => ?_⟩
    simp only [State.readReg, State.core_updCore, State.updCore_clk, CoreState.ltecnt_rollWindow]
    split
    case h_12 => exact absurd rfl hm
    all_goals rfl

/-- A store to a register that begins a margin window (R375): the register, and the count of late transitions. -/
theorem State.hartWriteReg_window {s : State} {core n : Nat} {x : Word} (hn : n ∈ [0x012, 0x013])
    (hok : regValueOk (s.marginMax core) n x = true) :
    ∃ f, s.hartWriteReg core n x = s.updCore core f ∧ (s.updCore core f).readReg core n = some x
      ∧ (s.updCore core f).readReg core 0x011 = some ((s.core core).ltecnt &&& 0xFFFF_0000#32)
      ∧ (f (s.core core)).winStart = s.clk
      ∧ ∀ m, m ≠ n → m ≠ 0x011 → (s.updCore core f).readReg core m = s.readReg core m := by
  rw [State.hartWriteReg_eq_writeReg (by fin_cases hn <;> rfl) hok (by fin_cases hn <;> simp)]
  have hcount (c : CoreState) (x y : Word) :
      (CoreState.rollWindow { c.newWindow s.clk with ltelim := x, ltewin := y } s.clk).ltecnt = c.ltecnt &&& 0xFFFF_0000#32 := by
    rw [CoreState.rollWindow_newWindow]
    exact setField_low16 c.ltecnt
  fin_cases hn
  · refine ⟨fun c => { c.newWindow s.clk with ltelim := x }, rfl, by simp [State.readReg], ?_, rfl, fun m hm hc => ?_⟩
    · simpa only [State.readReg, State.core_updCore, State.updCore_clk] using congrArg some (hcount (s.core core) x ((s.core core).newWindow s.clk).ltewin)
    · simp only [State.readReg, State.core_updCore]
      split
      case h_8 => exact absurd rfl hc
      case h_9 => exact absurd rfl hm
      all_goals rfl
  · refine ⟨fun c => { c.newWindow s.clk with ltewin := x }, rfl, by simp [State.readReg], ?_, rfl, fun m hm hc => ?_⟩
    · simpa only [State.readReg, State.core_updCore, State.updCore_clk] using congrArg some (hcount (s.core core) ((s.core core).newWindow s.clk).ltelim x)
    · simp only [State.readReg, State.core_updCore]
      split
      case h_8 => exact absurd rfl hc
      case h_10 => exact absurd rfl hm
      all_goals rfl

/-- The registers of a die whose store sets off nothing else. -/
theorem State.hartWriteReg_die {s : State} {core n : Nat} {x : Word} (hn : n ∈ [0x020, 0x022, 0x028])
    (hok : regValueOk (s.marginMax core) n x = true) :
    ∃ f, s.hartWriteReg core n x = s.updDie (dieOfCore core) f
      ∧ (∀ c, dieOfCore c = dieOfCore core → (s.updDie (dieOfCore core) f).readReg c n = some x)
      ∧ ∀ c m, ¬(dieOfCore c = dieOfCore core ∧ m = n) → (s.updDie (dieOfCore core) f).readReg c m = s.readReg c m := by
  rw [State.hartWriteReg_eq_writeReg (by fin_cases hn <;> rfl) hok (by fin_cases hn <;> simp)]
  fin_cases hn
  · refine ⟨fun y => { y with combwin := x }, rfl, fun c hc => by simp [State.readReg, hc], fun c m hm => ?_⟩
    by_cases hc : dieOfCore c = dieOfCore core
    · simp only [State.readReg, hc, State.die_updDie]
      split
      case h_13 => exact absurd ⟨hc, rfl⟩ hm
      all_goals rfl
    · exact State.readReg_updDie_other s _ m hc
  · refine ⟨fun y => { y with fabstat := x }, rfl, fun c hc => by simp [State.readReg, hc], fun c m hm => ?_⟩
    by_cases hc : dieOfCore c = dieOfCore core
    · simp only [State.readReg, hc, State.die_updDie]
      split
      case h_15 => exact absurd ⟨hc, rfl⟩ hm
      all_goals rfl
    · exact State.readReg_updDie_other s _ m hc
  · refine ⟨fun y => { y with lease := x }, rfl, fun c hc => by simp [State.readReg, hc], fun c m hm => ?_⟩
    by_cases hc : dieOfCore c = dieOfCore core
    · simp only [State.readReg, hc, State.die_updDie]
      split
      case h_16 => exact absurd ⟨hc, rfl⟩ hm
      all_goals rfl
    · exact State.readReg_updDie_other s _ m hc

@[simp] theorem State.core_noteRoot (s : State) (core c : Nat) : (s.noteRoot core).core c = s.core c := by
  unfold State.noteRoot
  dsimp only
  split <;> rfl

theorem State.hartWriteReg_root {s : State} {core n : Nat} {x : Word} (hn : n = 0x002 ∨ n = 0x003) (hb : s.coreBusy core = false)
    (hok : regValueOk (s.marginMax core) n x = true) : (s.hartWriteReg core n x).readReg core n = some x := by
  rw [State.hartWriteReg_eq_writeReg (by rcases hn with rfl | rfl <;> rfl) hok fun _ => hb]
  rcases hn with rfl | rfl
  · simp [State.writeReg, State.readReg]
  · simp [State.writeReg, State.readReg]

/-- Settles O36: a store to a register that sets off nothing else changes fields of the core or of the die alone. -/
theorem controlCoreStores : Obligations.ControlCoreStores := by
  unfold Obligations.ControlCoreStores
  intro s core n x _ t
  refine ⟨fun hn hok => ?_, fun hn hok => ?_, fun hn hb hok => State.hartWriteReg_root hn hb hok, fun hb hn => ?_, fun hok => ?_, fun hn => ?_⟩
  · by_cases hwin : n ∈ [0x012, 0x013]
    · obtain ⟨f, ht, hread, hcount, hstart, hrest⟩ := State.hartWriteReg_window hwin hok
      simp only [t, ht]
      refine ⟨hread, rfl, rfl, fun c m hc hnot => ?_, fun _ => ⟨hcount, by rw [State.core_updCore, hstart]⟩⟩
      have hwin : n = 0x012 ∨ n = 0x013 := by simpa using hwin
      by_cases he : c = core
      · subst he
        exact hrest m (fun e => hc ⟨rfl, e⟩) fun e => hnot ⟨rfl, e, hwin⟩
      · exact State.readReg_updCore_other s f m he
    · have hmem : n ∈ [0x004, 0x005, 0x018] := by
        simp only [List.mem_cons, List.not_mem_nil, or_false] at hn hwin ⊢
        omega
      obtain ⟨f, ht, hread, hrest⟩ := State.hartWriteReg_core hmem hok
      simp only [t, ht]
      refine ⟨hread, rfl, rfl, fun c m hc _ => State.readReg_updCore s core f n hrest hc, fun h => ?_⟩
      exact absurd (by simpa using h) hwin
  · obtain ⟨f, ht, hread, hrest⟩ := State.hartWriteReg_die hn hok
    simp only [t, ht]
    exact ⟨hread, rfl, rfl, hrest⟩
  · have : ((n == 2 || (n == 3 && x != 0#32)) && s.coreBusy core) = true := by
      rcases hn with rfl | ⟨rfl, hx⟩
      · simp [hb]
      · simp [hb, hx]
    simp [t, State.hartWriteReg, this]
  · simp [t, State.hartWriteReg, hok]
  · have : hartWritable n = false := by rcases hn with rfl | rfl <;> rfl
    simp [t, State.hartWriteReg, this]

end Sys2Proof.Machine
end

section
/-! SUPPORT. The words of R90 by the number of their sources: their results in the scene buffer. -/

namespace Sys2Proof.Machine

open Sys2Proof.Claim

/-! The words of R90 by the number of their sources. -/

theorem State.word_lane1 {s : State} {ins : Instr} {set : Nat → Bool} {chk pass : Bool} {d a : Sel} {f : Issue → Nat → Word → Word}
    {e : Nat} {x : Val} (hw : AtWord s ins) (h : One s chk a e x) (hs : set e = true) :
    s.word ins (fun i => i.lane1 ins set chk d a pass (f i)) =
      .next (wrote s ins d (acting s) (if pass then passTag a x e else e) (lanesFrom fun l => f s.iss e (x.at l)) x.pois) :=
  State.word_went hw (Issue.lane1_ok h.type hs h.tags h.srcA h.guard)

theorem State.word_lane2 {s : State} {ins : Instr} {set : Nat → Bool} {pass : Bool} {d a b : Sel}
    {f : Issue → Nat → Word → Word → Word} {e : Nat} {x y : Val} (hw : AtWord s ins) (h : Two s a b e x y) (hs : set e = true) :
    s.word ins (fun i => i.lane2 ins set true false d a b pass (f i)) =
      .next (wrote s ins d (acting s) (if pass then passTag a x e else e) (lanesFrom fun l => f s.iss e (x.at l) (y.at l))
        (x.pois ||| y.pois)) :=
  State.word_went hw (Issue.lane2_ok h.type hs (fun _ => h.tags) h.srcA h.srcB h.guard)

theorem State.word_lane2_loose {s : State} {ins : Instr} {set : Nat → Bool} {cnt pass : Bool} {d a b : Sel}
    {f : Issue → Nat → Word → Word → Word} {e : Nat} {x y : Val} (hw : AtWord s ins) (h : TwoLoose s cnt a b e x y) (hs : set e = true) :
    s.word ins (fun i => i.lane2 ins set false cnt d a b pass (f i)) =
      .next (wrote s ins d (acting s) (if pass then passTag a x e else e) (lanesFrom fun l => f s.iss e (x.at l) (y.at l))
        (x.pois ||| y.pois)) :=
  State.word_went hw (Issue.lane2_ok h.type hs (by nofun) h.srcA h.srcB h.guard)

theorem State.word_lane3 {s : State} {ins : Instr} {set : Nat → Bool} {d a b : Sel} {tagD : Nat → Option Nat}
    {f : Issue → Nat → Word → Word → Word → Word} {e : Nat} {x y : Val} (hw : AtWord s ins) (h : Two s a b e x y) (hs : set e = true)
    (hd : ∀ t, tagD e = some t → s.iss.checkTag t d = .ok ()) :
    s.word ins (fun i => i.lane3 ins set true false d a b tagD (f i)) =
      .next (wrote s ins d (acting s) ((tagD e).getD (passTag a x e))
        (lanesFrom fun l => f s.iss e (x.at l) (y.at l) ((s.iss.val d).at l)) (x.pois ||| y.pois ||| (s.iss.val d).pois)) :=
  State.word_went hw (Issue.lane3_ok h.type hs (fun _ => h.tags) hd h.srcA h.srcB h.guard)

/-! Integer arithmetic (R109, R115). -/

theorem sadType_eq (e : Nat) : sadType e = if e = tFX then tFX else if e = tI32 ∨ e = tI16 ∨ e = tI8 then tI32 else tN32 := by
  by_cases h : e = tFX
  · simp [sadType, h]
  · have h : e ≠ 12 := h
    simp [sadType, signedT, h, or_assoc]

theorem foldl_add_eq_sum (g : Nat → Int) (xs : List Nat) (z : Int) : xs.foldl (fun acc k => acc + g k) z = (xs.map g).sum + z := by
  induction xs generalizing z with
  | nil => simp
  | cons x r ih => rw [List.foldl_cons, ih, List.map_cons, List.sum_cons]; omega

/-- Settles O3: the two- and three-source rules of R90, word by word. -/
theorem integerWordsWrite : Obligations.IntegerWordsWrite := by
  unfold Obligations.IntegerWordsWrite
  refine ⟨fun s d a b e x y h he => ?_, fun s d a b e x y h => ⟨fun he hw => ?_, fun he ht hw => ?_⟩,
    fun s d a b e x y h he => ?_⟩
  · simp only [integerWords, List.forall_mem_cons, List.not_mem_nil, false_imp_iff, implies_true, and_true]
    refine ⟨fun hw => ?_, fun hw => ?_, fun hw => ?_, fun hw => ?_, fun hw => ?_, fun hw => ?_⟩
    · exact (exec_add ..).trans (State.word_lane2 hw h he)
    · exact (exec_sub ..).trans (State.word_lane2 hw h he)
    · exact (exec_mul ..).trans (State.word_lane2 hw h he)
    · exact (exec_min ..).trans (State.word_lane2 hw h he)
    · exact (exec_max ..).trans (State.word_lane2 hw h he)
    · exact (exec_absd ..).trans (State.word_lane2 hw h he)
  · exact (exec_mulhi ..).trans (State.word_lane2 hw h he)
  · have ht' (t : Nat) (e' : some e = some t) : s.iss.checkTag t d = .ok () := by cases e'; exact ht
    rw [exec_mad, execMad, State.word_lane3 hw h he ht']
    rfl
  · rw [← sadType_eq]
    intro c ht hw
    have ht' (t : Nat) (e' : some (sadType e) = some t) : s.iss.checkTag t d = .ok () := by cases e'; exact ht
    rw [exec_sad, execSad, State.word_lane3 hw h he ht']
    simp only [foldl_add_eq_sum]
    rfl

/-! The range rule (R68). -/

theorem signedT_iff (e : Nat) : signedT e = true ↔ e = 0 ∨ e = 5 ∨ e = 7 ∨ e = 12 := by
  simp [signedT, or_assoc]

theorem setA_width {e : Nat} (h : setA e = true) : widthOf e = 32 ∨ widthOf e = 16 ∨ widthOf e = 8 := by
  simp only [setA, Bool.or_eq_true, beq_iff_eq] at h
  rcases h with ((((((rfl | rfl) | rfl) | rfl) | rfl) | rfl) | rfl) <;> decide

/-- The integer of an element is the residue of its width that lies in the type's range. -/
theorem elemInt_emod (e : Nat) (v : Int) : elemInt e (v % 2 ^ widthOf e).toNat =
    if signedT e = true ∧ 2 ^ (widthOf e - 1) ≤ v % 2 ^ widthOf e then v % 2 ^ widthOf e - 2 ^ widthOf e else v % 2 ^ widthOf e := by
  have hnn : 0 ≤ v % 2 ^ widthOf e := Int.emod_nonneg _ (by positivity)
  have hle : 2 ^ (widthOf e - 1) ≤ (v % 2 ^ widthOf e).toNat ↔ (2 : Int) ^ (widthOf e - 1) ≤ v % 2 ^ widthOf e := by
    rw [← Int.ofNat_le, Int.toNat_of_nonneg hnn]
    push_cast
    rfl
  simp only [elemInt, intOf, Bool.and_eq_true, decide_eq_true_eq, hle, Int.toNat_of_nonneg hnn]

theorem elemInt_emod_of_range {e : Nat} (h : setA e = true) {v : Int} (hlo : minOf e ≤ v) (hhi : v ≤ maxOf e) :
    elemInt e (v % 2 ^ widthOf e).toNat = v := by
  rw [elemInt_emod]
  unfold minOf at hlo
  unfold maxOf at hhi
  rcases setA_width h with hw | hw | hw <;> rw [hw] at hlo hhi ⊢ <;> by_cases hs : signedT e = true <;>
    simp only [hs, if_true, if_false, true_and, false_and, Bool.false_eq_true] at hlo hhi ⊢ <;> (try split) <;> omega

theorem minOf_le_maxOf {e : Nat} (h : setA e = true) : minOf e ≤ maxOf e := by
  unfold minOf maxOf
  rcases setA_width h with hw | hw | hw <;> rw [hw] <;> split <;> decide

/-- Settles O4: the residue that fitInt takes, of the value itself or of the bound that SAT puts there. -/
theorem rangeRule : Obligations.RangeRule := by
  unfold Obligations.RangeRule
  intro e v he
  have hord := minOf_le_maxOf he
  refine ⟨fun hlo hhi sat => ?_, ?_, fun hlt => ?_, fun hlt => ?_⟩
  · have : (if sat then (if v < minOf e then minOf e else if maxOf e < v then maxOf e else v) else v) = v := by
      rw [if_neg (not_lt.2 hlo), if_neg (not_lt.2 hhi), ite_self]
    simp only [fitInt, this]
    exact elemInt_emod_of_range he hlo hhi
  · simp only [fitInt, Bool.false_eq_true, if_false]
    exact Int.toNat_of_nonneg (Int.emod_nonneg _ (by positivity))
  · simp only [fitInt, if_true, if_pos hlt]
    exact elemInt_emod_of_range he le_rfl hord
  · simp only [fitInt, if_true, if_neg (not_lt.2 (hord.trans hlt.le)), if_pos hlt]
    exact elemInt_emod_of_range he hord le_rfl

/-! Logic words, shifts, bit counts, compares (R109, R110, R113, R114, R121). -/

/-- Settles O5: the rules of R90 without a tag check, and sel by its guard. -/
theorem logicWordsWrite : Obligations.LogicWordsWrite := by
  unfold Obligations.LogicWordsWrite
  refine ⟨fun s d a b e x y h he => ⟨?_, fun hw => ?_⟩, fun s d a b e x y h hw => ?_⟩
  · simp only [logicWords, List.forall_mem_cons, List.not_mem_nil, false_imp_iff, implies_true, and_true]
    refine ⟨fun hw => ?_, fun hw => ?_, fun hw => ?_, fun hw => ?_⟩
    · exact (exec_and ..).trans (State.word_lane2_loose hw h he)
    · exact (exec_or ..).trans (State.word_lane2_loose hw h he)
    · exact (exec_xor ..).trans (State.word_lane2_loose hw h he)
    · exact (exec_andn ..).trans (State.word_lane2_loose hw h he)
  · have hone : One s false a e x := ⟨h.guard, h.type, nofun, h.srcA⟩
    exact (exec_not ..).trans (State.word_lane1 hw hone he)
  · have hb : s.iss.src e b = .ok y := h.srcB
    rw [exec_sel, execSel]
    refine State.word_went hw ?_
    simp only [h.type, h.srcA, hb, Issue.active_ok h.guard, bind, Except.bind]

theorem Issue.funnel_ok {i : Issue} {ins : Instr} {d a b : Sel} {f : Word → Word → Nat → Word} {e : Nat} {x y : Val}
    (he : i.etype a = .ok e) (hs : setW e = true) (ha : i.checkW a = .ok ()) (hd : i.checkW d = .ok ()) (hx : i.src e a = .ok x)
    (hy : i.count b = .ok y) (hg : i.guard.pois &&& i.mask = 0#32) :
    i.funnel ins d a b f = .ok (i.put ins d (i.mask &&& i.guard.val) e
      (lanesFrom fun l => f ((i.val d).at l) (x.at l) ((y.at l).toNat % 32)) (x.pois ||| y.pois ||| (i.val d).pois)) := by
  simp only [Issue.funnel, he, hs, ha, hd, hx, hy, Issue.active_ok hg, Issue.need_true, bind, Except.bind]

/-- The high half of a pair shifted left. -/
theorem funnel_left (z x : Word) {n : Nat} (hn : n < 32) :
    (if n = 0 then z else (z <<< n) ||| (x >>> (32 - n))) = ((z ++ x) <<< n).extractLsb' 32 32 := by
  refine BitVec.eq_of_getLsbD_eq fun i hi => ?_
  have hz := z.isLt
  by_cases h : n = 0
  · subst h
    have h2 : ¬32 + i < 32 := by omega
    simp only [if_true, BitVec.shiftLeft_zero, BitVec.getLsbD_extractLsb', BitVec.getLsbD_append, hi, h2, Nat.add_sub_cancel_left,
      if_false, decide_true, Bool.true_and]
  · simp only [if_neg h, BitVec.getLsbD_or, BitVec.getLsbD_shiftLeft, BitVec.getLsbD_ushiftRight, BitVec.getLsbD_extractLsb',
      BitVec.getLsbD_append, hi]
    by_cases hin : i < n
    · have h1 : ¬(32 + i - n : Nat) < 0 := by omega
      have h2 : 32 + i - n < 32 := by omega
      have h3 : 32 - n + i = 32 + i - n := by omega
      have h4 : ¬32 + i < n := by omega
      have h5 : 32 + i < 64 := by omega
      simp [hin, h2, h3, h4, h5]
    · have h2 : ¬32 + i - n < 32 := by omega
      have h3 : 32 + i - n - 32 = i - n := by omega
      have h4 : ¬32 + i < n := by omega
      have h5 : 32 + i < 64 := by omega
      have h6 : 32 ≤ 32 - n + i := by omega
      simp [hin, h2, h3, h4, h5, BitVec.getLsbD_of_ge _ _ h6]

/-- The low half of a pair shifted right. -/
theorem funnel_right (z x : Word) {n : Nat} (hn : n < 32) :
    (if n = 0 then z else (z >>> n) ||| (x <<< (32 - n))) = ((x ++ z) >>> n).extractLsb' 0 32 := by
  refine BitVec.eq_of_getLsbD_eq fun i hi => ?_
  by_cases h : n = 0
  · subst h
    simp only [if_true, BitVec.ushiftRight_zero, BitVec.getLsbD_extractLsb', BitVec.getLsbD_append, hi, Nat.zero_add, decide_true,
      Bool.true_and]
  · simp only [if_neg h, BitVec.getLsbD_or, BitVec.getLsbD_shiftLeft, BitVec.getLsbD_ushiftRight, BitVec.getLsbD_extractLsb',
      BitVec.getLsbD_append, hi]
    by_cases hin : i < 32 - n
    · have h2 : n + i < 32 := by omega
      simp [hin, h2]
    · have h2 : ¬n + i < 32 := by omega
      have h3 : n + i - 32 = i - (32 - n) := by omega
      have h6 : 32 ≤ n + i := by omega
      simp [hin, h2, h3, BitVec.getLsbD_of_ge _ _ h6]

/-- Settles O6: the shifts by the two-source rule of R90, the funnel shifts bit by bit. -/
theorem shiftWordsWrite : Obligations.ShiftWordsWrite := by
  unfold Obligations.ShiftWordsWrite
  refine ⟨fun s d a b e x y h he => ?_, fun s d a b e x y h he ha hd => ⟨fun hw => ?_, fun hw => ?_⟩⟩
  · simp only [shiftWords, List.forall_mem_cons, List.not_mem_nil, false_imp_iff, implies_true, and_true]
    refine ⟨fun hw => ?_, fun hw => ?_, fun hw => ?_, fun hw => ?_⟩
    · exact (exec_shl ..).trans (State.word_lane2_loose hw h he)
    · exact (exec_shr ..).trans (State.word_lane2_loose hw h he)
    · exact (exec_sar ..).trans (State.word_lane2_loose hw h he)
    · exact (exec_rol ..).trans (State.word_lane2_loose hw h he)
  · rw [exec_fshl, execFshl, State.word_went hw (Issue.funnel_ok h.type he ha hd h.srcA h.srcB h.guard)]
    simp only [funnel_left _ _ (Nat.mod_lt _ (by decide : 0 < 32))]
    rfl
  · rw [exec_fshr, execFshr, State.word_went hw (Issue.funnel_ok h.type he ha hd h.srcA h.srcB h.guard)]
    simp only [funnel_right _ _ (Nat.mod_lt _ (by decide : 0 < 32))]
    rfl

/-- Settles O8: the one-source rule of R90, word by word. -/
theorem bitWordsWrite : Obligations.BitWordsWrite := by
  unfold Obligations.BitWordsWrite
  intro s d a e x h he
  simp only [bitWords, List.forall_mem_cons, List.not_mem_nil, false_imp_iff, implies_true, and_true]
  refine ⟨fun hw => ?_, fun hw => ?_, fun hw => ?_, fun hw => ?_⟩
  · exact (exec_clz ..).trans (State.word_lane1 hw h he)
  · exact (exec_ffs ..).trans (State.word_lane1 hw h he)
  · exact (exec_popc ..).trans (State.word_lane1 hw h he)
  · exact (exec_brev ..).trans (State.word_lane1 hw h he)

/-- A compare's lanes (R113, R121). -/
theorem State.word_compare {s : State} {ins : Instr} {set : Nat → Bool} {d a b : Sel} {f : Issue → Nat → Nat → Nat → Bool} {e : Nat}
    {x y : Val} (hw : AtWord s ins) (h : Two s a b e x y) (hs : set e = true) :
    s.word ins (fun i => i.compare ins set d a b (f i)) =
      .next (wrote s ins d (acting s) e (lanesFrom fun l =>
        if ∀ k < countOf e, f s.iss e (elemAt (x.at l) (widthOf e) k) (elemAt (y.at l) (widthOf e) k) = true then 1#32 else 0#32)
        (x.pois ||| y.pois)) := by
  refine (State.word_lane2 (pass := false) (f := fun i e x y =>
    if (List.range (countOf e)).all fun k => f i e (elemAt x (widthOf e) k) (elemAt y (widthOf e) k) then 1#32 else 0#32) hw h hs).trans ?_
  simp only [List.all_eq_true, List.mem_range, Bool.false_eq_true, if_false]

/-- Settles O10: the compares' rule, word by word. -/
theorem compareWordsWrite : Obligations.CompareWordsWrite := by
  unfold Obligations.CompareWordsWrite
  intro s d a b e x y h
  simp only [compareWords, List.forall_mem_cons, List.not_mem_nil, false_imp_iff, implies_true, and_true]
  refine ⟨fun hs hw => ?_, fun hs hw => ?_, fun hs hw => ?_, fun hs hw => ?_, fun hs hw => ?_, fun hs hw => ?_, fun hs hw => ?_, fun hs hw => ?_⟩
  · exact (exec_cmpeq ..).trans (State.word_compare hw h hs)
  · exact (exec_cmpne ..).trans (State.word_compare hw h hs)
  · exact (exec_cmplt ..).trans (State.word_compare hw h hs)
  · exact (exec_cmple ..).trans (State.word_compare hw h hs)
  · exact (exec_fcmpeq ..).trans (State.word_compare hw h hs)
  · exact (exec_fcmplt ..).trans (State.word_compare hw h hs)
  · exact (exec_fcmple ..).trans (State.word_compare hw h hs)
  · exact (exec_fcmpun ..).trans (State.word_compare hw h hs)

/-! Floating point (R119 to R129). -/

/-- Settles O13: the two- and three-source rules of R90, word by word. -/
theorem floatWordsWrite : Obligations.FloatWordsWrite := by
  unfold Obligations.FloatWordsWrite
  intro s d a b e x y h he
  refine ⟨?_, fun ht hw => ?_⟩
  · simp only [floatWords, List.forall_mem_cons, List.not_mem_nil, false_imp_iff, implies_true, and_true]
    refine ⟨fun hw => ?_, fun hw => ?_, fun hw => ?_, fun hw => ?_, fun hw => ?_⟩
    · exact (exec_fadd ..).trans (State.word_lane2 hw h he)
    · exact (exec_fsub ..).trans (State.word_lane2 hw h he)
    · exact (exec_fmul ..).trans (State.word_lane2 hw h he)
    · exact (exec_fmin ..).trans (State.word_lane2 hw h he)
    · exact (exec_fmax ..).trans (State.word_lane2 hw h he)
  · have ht' (t : Nat) (e' : some e = some t) : s.iss.checkTag t d = .ok () := by cases e'; exact ht
    rw [exec_fma, execFma, State.word_lane3 hw h he ht']
    rfl

/-- Settles O14: the one-source rule of R90, word by word. -/
theorem floatUnaryWordsWrite : Obligations.FloatUnaryWordsWrite := by
  unfold Obligations.FloatUnaryWordsWrite
  refine ⟨fun s d a e x h => ⟨fun he hw => ?_, fun he hw => ?_, fun he hw => ?_, fun he hw => ?_⟩, fun s d a e x h he => ?_⟩
  · exact (exec_fabs ..).trans (State.word_lane1 hw h he)
  · exact (exec_fneg ..).trans (State.word_lane1 hw h he)
  · exact (exec_rnd ..).trans (State.word_lane1 hw h he)
  · exact (exec_frac ..).trans (State.word_lane1 hw h he)
  · simp only [tranWords, List.forall_mem_cons, List.not_mem_nil, false_imp_iff, implies_true, and_true]
    refine ⟨fun hw => ?_, fun hw => ?_, fun hw => ?_, fun hw => ?_, fun hw => ?_, fun hw => ?_, fun hw => ?_, fun hw => ?_⟩
    · exact (exec_rcp ..).trans (State.word_lane1 hw h he)
    · exact (exec_rsqrt ..).trans (State.word_lane1 hw h he)
    · exact (exec_sqrt ..).trans (State.word_lane1 hw h he)
    · exact (exec_exp2 ..).trans (State.word_lane1 hw h he)
    · exact (exec_log2 ..).trans (State.word_lane1 hw h he)
    · exact (exec_sinpi ..).trans (State.word_lane1 hw h he)
    · exact (exec_cospi ..).trans (State.word_lane1 hw h he)
    · exact (exec_tanh ..).trans (State.word_lane1 hw h he)

/-- An effective type that is not K4 comes of a MODE.ET that is not K4 (R46). -/
theorem Issue.modeEt_ne_of_etype {i : Issue} {a : Sel} {e : Nat} (he : i.etype a = .ok e) (h : e ≠ tK4) : modeEt i.mode ≠ tK4 := by
  intro hm
  simp only [Issue.etype, hm] at he
  cases he
  exact h rfl

/-- Settles O15: the source type from a's tag, the class bits, the power of two. -/
theorem conversionWordsWrite : Obligations.ConversionWordsWrite := by
  unfold Obligations.ConversionWordsWrite
  intro s d a b e hg he
  refine ⟨fun t ht hraw hk hek hw => ?_, fun x y hs hc hx hy hw => ?_, fun x y hs hc hb hx hy hw => ?_⟩
  · rw [exec_cvt, execCvt]
    refine State.word_went hw ?_
    have hm := Issue.modeEt_ne_of_etype he hek
    simp [ht, hraw, hk, hek, hm, he, Issue.active_ok hg, bind, Except.bind, Issue.need]
    rfl
  · rw [exec_fclass, execFclass]
    refine State.word_went hw ?_
    simp only [he, hs, hc, hx, hy, Issue.active_ok hg, bind, Except.bind, Issue.need_true, List.all_eq_true, List.mem_range]
    rfl
  · rw [exec_ldexp, execLdexp]
    refine State.word_went hw ?_
    simp only [he, hs, hc, hb, hx, hy, Issue.active_ok hg, bind, Except.bind, Issue.need_true]
    rfl

/-- Settles O16: one sum of the products and d, and the quad's block product. -/
theorem dotWordsWrite : Obligations.DotWordsWrite := by
  unfold Obligations.DotWordsWrite
  intro s d a b e x y h z fm acc
  refine ⟨fun he ht hw => ?_, fun he ht hw => ?_, fun he ht hw => ?_⟩
  · have hs : (e == tBF16 || e == tF16) = true := by simpa using he
    have ht' (t : Nat) (e' : some tF32 = some t) : s.iss.checkTag t d = .ok () := by cases e'; exact ht
    rw [exec_dot2, execDot2, State.word_lane3 hw h hs ht']
    rfl
  · have hs : (setF8 e || e == tI8 || e == tN8) = true := by simpa [or_assoc] using he
    have ht' (t : Nat) (e' : some acc = some t) : s.iss.checkTag t d = .ok () := by cases e'; exact ht
    rw [exec_dot4, execDot4, State.word_lane3 hw h hs ht']
    simp only [foldl_add_eq_sum]
    rfl
  · intro m rd next code scale bad
    subst he
    rw [exec_dotk, execDotk]
    refine State.word_went hw ?_
    simp only [h.type, h.tags, ht, Issue.active_ok h.guard, bind, Except.bind, BEq.rfl, Issue.need_true]
    rfl

end Sys2Proof.Machine
end

section
/-! SUPPORT. Lane masks, shuffles, votes, reductions and predicates (R116, R130 to R136). -/

namespace Sys2Proof.Machine

open Sys2Proof.Claim

/-- The fold that makes a mask, lane by lane: its size and its bits. -/
theorem maskFold_testBit (f : Nat → Bool) (n : Nat) :
    (List.range n).foldl (fun acc l => if f l then acc + 2 ^ l else acc) 0 < 2 ^ n
      ∧ ∀ i < n, ((List.range n).foldl (fun acc l => if f l then acc + 2 ^ l else acc) 0).testBit i = f i := by
  induction n with
  | zero => simp
  | succ n ih =>
    obtain ⟨hlt, hbit⟩ := ih
    rw [List.range_succ, List.foldl_append]
    simp only [List.foldl_cons, List.foldl_nil]
    generalize (List.range n).foldl (fun acc l => if f l then acc + 2 ^ l else acc) 0 = v at hlt hbit
    have hpow : 2 ^ (n + 1) = 2 ^ n + 2 ^ n := by rw [Nat.pow_succ]; omega
    refine ⟨by split <;> omega, fun i hi => ?_⟩
    rcases Nat.lt_succ_iff_lt_or_eq.1 hi with h | rfl
    · split
      · rw [Nat.add_comm, Nat.testBit_two_pow_add_gt h]
        exact hbit i h
      · exact hbit i h
    · split
      · next hf => rw [Nat.add_comm, Nat.testBit_two_pow_add_eq, Nat.testBit_lt_two_pow hlt, hf]; rfl
      · next hf => rw [Nat.testBit_lt_two_pow hlt]; simpa using hf

theorem getLsbD_maskOf (f : Nat → Bool) {l : Nat} (h : l < 32) : (maskOf f).getLsbD l = f l := by
  obtain ⟨hlt, hbit⟩ := maskFold_testBit f 32
  rw [maskOf, BitVec.getLsbD_ofNat, decide_eq_true h, Bool.true_and, hbit l h]

theorem maskOf_congr {f g : Nat → Bool} (h : ∀ l < 32, f l = g l) : maskOf f = maskOf g := by
  refine BitVec.eq_of_getLsbD_eq fun l hl => ?_
  rw [getLsbD_maskOf f hl, getLsbD_maskOf g hl, h l hl]

theorem lanesFrom_congr {f g : Nat → Word} (h : ∀ l < 32, f l = g l) : lanesFrom f = lanesFrom g := by
  simp only [lanesFrom]
  congr 1
  funext i
  exact h i.val i.isLt

theorem maskLanes_maskOf (f : Nat → Bool) : maskLanes (maskOf f) = lanesFrom fun l => if f l then 1#32 else 0#32 :=
  lanesFrom_congr fun l hl => by rw [getLsbD_maskOf f hl]

theorem mem_lanesOf {m : Word} {l : Nat} : l ∈ lanesOf m ↔ l < 32 ∧ m.getLsbD l = true := by
  simp [lanesOf]

theorem lanesOf_eq_nil {m : Word} : lanesOf m = [] ↔ m = 0#32 := by
  constructor
  · intro h
    refine BitVec.eq_of_getLsbD_eq fun l hl => ?_
    have : l ∉ lanesOf m := by rw [h]; exact List.not_mem_nil
    rw [mem_lanesOf] at this
    simpa [hl] using this
  · rintro rfl
    rfl

theorem Issue.count_register {i : Issue} {a : Sel} (hk : kindOf a ≠ .k) (hq : kindOf a ≠ .q) : i.count a = .ok (i.val a) := by
  cases a <;> first | rfl | exact absurd rfl hk | exact absurd rfl hq

/-! Shuffles (R130 to R132). -/

theorem Issue.shuffle_ok {i : Issue} {s : State} {ins : Instr} {d a b : Sel} {withB : Bool} {ok : Nat → Bool} {src : Nat → Nat → Nat}
    {e : Nat} {x y : Val} (he : i.etype a = .ok e) (hx : i.src e a = .ok x) (hy : i.count b = .ok y) (hok : ok (y.at 0).toNat = true)
    (hg : i.guard.pois &&& i.mask = 0#32) :
    i.shuffle s ins d a b withB ok src = .ok (i.put ins d (i.mask &&& i.guard.val) (passTag a x e)
      (lanesFrom fun l => (groupRead x (s.oldOf a x) (i.mask &&& i.guard.val) (src l (y.at l).toNat)).1)
      (maskOf fun l => (groupRead x (s.oldOf a x) (i.mask &&& i.guard.val) (src l (y.at l).toNat)).2 || (withB && y.pois.getLsbD l))) := by
  simp only [Issue.shuffle, he, hx, hy, hok, Issue.active_ok hg, Issue.need_true, bind, Except.bind]

theorem countOk_iff (n : Nat) : countOk n = true ↔ 1 ≤ n ∧ n ≤ 5 := by simp [countOk]

/-- Settles O17: the group-wide shuffles by their common part, the quad's by their read. -/
theorem shuffleWordsWrite : Obligations.ShuffleWordsWrite := by
  unfold Obligations.ShuffleWordsWrite
  intro s d a b e x y h m old n lane quad far out
  have hy : s.iss.count b = .ok y := h.srcB
  refine ⟨fun hw => ?_, fun h1 h3 hw => ?_, fun hw => ?_, fun h1 h5 hw => ?_, fun h1 h5 hw => ?_, fun h1 h5 hw => ?_, fun hw => ?_⟩
  · rw [exec_qshf, execQshf]
    refine State.word_went hw ?_
    simp only [h.type, h.srcA, hy, Issue.active_ok h.guard, bind, Except.bind]
    cases a <;> rfl
  · have hn : (decide (1 ≤ (y.at 0).toNat) && decide ((y.at 0).toNat ≤ 3)) = true := by
      rw [Bool.and_eq_true, decide_eq_true_eq, decide_eq_true_eq]
      exact ⟨h1, h3⟩
    rw [exec_qswp, execQswp]
    refine State.word_went hw ?_
    simp only [h.type, h.srcA, hy, hn, Issue.active_ok h.guard, Issue.need_true, bind, Except.bind]
    simp only [Bool.false_and, Bool.or_false]
    rfl
  · exact (exec_shfi ..).trans (State.word_went hw (Issue.shuffle_ok h.type h.srcA hy rfl h.guard))
  · exact (exec_shfx ..).trans (State.word_went hw (Issue.shuffle_ok h.type h.srcA hy ((countOk_iff _).2 ⟨h1, h5⟩) h.guard))
  · exact (exec_shfu ..).trans (State.word_went hw (Issue.shuffle_ok h.type h.srcA hy ((countOk_iff _).2 ⟨h1, h5⟩) h.guard))
  · exact (exec_shfd ..).trans (State.word_went hw (Issue.shuffle_ok h.type h.srcA hy ((countOk_iff _).2 ⟨h1, h5⟩) h.guard))
  · exact (exec_bcst ..).trans (State.word_went hw (Issue.shuffle_ok h.type h.srcA hy rfl h.guard))

/-! Votes (R134 to R136). -/

/-- What vote reads as a (R134): only a constant has a type. -/
def Issue.voteSource (i : Issue) (a : Sel) : Except Trap Val :=
  match a with
  | .k _ => do i.src (← i.etype a) a
  | _ => .ok (i.val a)

theorem Issue.voteSource_register {i : Issue} {a : Sel} (h : kindOf a ≠ .k) : i.voteSource a = .ok (i.val a) := by
  cases a <;> first | rfl | exact absurd rfl h

theorem Issue.voteSource_constant {i : Issue} {a : Sel} {e : Nat} {w : Val} (h : kindOf a = .k) (he : i.etype a = .ok e)
    (hx : i.src e a = .ok w) : i.voteSource a = .ok w := by
  cases a <;> simp only [kindOf, reduceCtorEq] at h
  simp only [Issue.voteSource, he, hx, bind, Except.bind]

theorem execVote_eq (d a b : Sel) (s : State) : execVote d a b s = s.word (.vote d a b) (fun i => do
    let x ← i.voteSource a
    let y ← i.count b
    i.need (decide ((y.at 0).toNat ≤ 3))
    let m ← i.active
    let r := voteResult (y.at 0).toNat (nonzeroLanes x.lanes &&& m) m
    let p := (x.pois &&& m) != 0#32
    match d with
    | .s n => .ok (i.putUniform n.toNat (if r then 1#32 else 0#32) p)
    | _ => .ok (i.put (.vote d a b) d i.mask tRAW (lanesAll (if r then 1#32 else 0#32)) (allPois p))) := by
  cases a
  case k n =>
    simp only [execVote, Issue.voteSource, bind_assoc] <;> rfl
  all_goals rfl

/-- Settles O19: each word's checks, then its result. -/
theorem voteWordsWrite : Obligations.VoteWordsWrite := by
  unfold Obligations.VoteWordsWrite
  intro s d a b hg
  dsimp only
  refine ⟨fun n hw => ?_, fun w y hx hy hf hw => ?_, fun e x he hc hx hw => ?_, fun n hm hw => ?_, fun n hm hw => ?_, fun hd hw => ?_⟩
  · rw [exec_ballot, execBallot]
    refine State.word_went hw ?_
    simp only [Issue.active_ok hg, bind, Except.bind]
    rfl
  · have hf' : decide ((y.at 0).toNat ≤ 3) = true := decide_eq_true hf
    have ha : s.iss.voteSource a = .ok w := by
      rcases hx with ⟨hk, rfl⟩ | ⟨hk, e, he, hx⟩
      · exact Issue.voteSource_register hk
      · exact Issue.voteSource_constant hk he hx
    refine ⟨fun n hd => ?_, fun hd => ?_⟩
    · subst hd
      rw [exec_vote, execVote_eq]
      refine State.word_went hw ?_
      simp only [ha, hy, hf', Issue.active_ok hg, Issue.need_true, bind, Except.bind]
      rfl
    · rw [exec_vote, execVote_eq]
      refine State.word_went hw ?_
      simp only [ha, hy, hf', Issue.active_ok hg, Issue.need_true, bind, Except.bind]
      cases d <;> first | rfl | exact absurd rfl hd
  · rw [exec_matchLanes, execMatchLanes]
    refine State.word_went hw ?_
    simp only [he, hc, hx, Issue.active_ok hg, bind, Except.bind]
    rfl
  · rw [exec_elect, execElect]
    refine State.word_went hw ?_
    have hm' : s.iss.mask &&& s.iss.guard.val ≠ 0#32 := hm
    simp only [Issue.active_ok hg, bind, Except.bind, if_neg hm']
    rfl
  · rw [exec_elect, execElect]
    refine State.word_went hw ?_
    have hm' : s.iss.mask &&& s.iss.guard.val = 0#32 := hm
    simp only [Issue.active_ok hg, bind, Except.bind, if_pos hm']
  · rw [exec_elect, execElect]
    refine State.word_went hw ?_
    simp only [Issue.active_ok hg, bind, Except.bind, maskLanes_maskOf]
    simp only [Bool.and_eq_true, bne_iff_ne, beq_iff_eq]
    cases d <;> first | rfl | exact absurd rfl hd

/-! Reductions (R131, R133). -/

/-- The fold that joins elements of a lane: its size and its digits. -/
theorem joinFold_digit (w : Nat) (f : Nat → Nat) (n : Nat) :
    (List.range n).foldl (fun acc i => acc + f i % 2 ^ w * 2 ^ (w * i)) 0 < 2 ^ (w * n)
      ∧ ∀ k < n, (List.range n).foldl (fun acc i => acc + f i % 2 ^ w * 2 ^ (w * i)) 0 / 2 ^ (w * k) % 2 ^ w = f k % 2 ^ w := by
  induction n with
  | zero => simp
  | succ n ih =>
    obtain ⟨hlt, hdig⟩ := ih
    rw [List.range_succ, List.foldl_append]
    simp only [List.foldl_cons, List.foldl_nil]
    generalize (List.range n).foldl (fun acc i => acc + f i % 2 ^ w * 2 ^ (w * i)) 0 = v at hlt hdig
    have hb : f n % 2 ^ w < 2 ^ w := Nat.mod_lt _ (by positivity)
    generalize hb' : f n % 2 ^ w = b at hb ⊢
    constructor
    · calc v + b * 2 ^ (w * n) < 2 ^ (w * n) + b * 2 ^ (w * n) := by omega
        _ = (b + 1) * 2 ^ (w * n) := by ring
        _ ≤ 2 ^ w * 2 ^ (w * n) := Nat.mul_le_mul_right _ hb
        _ = 2 ^ (w * (n + 1)) := by rw [Nat.mul_succ, Nat.pow_add]; ring
    · intro k hk
      rcases Nat.lt_succ_iff_lt_or_eq.1 hk with h | rfl
      · have hsplit : 2 ^ (w * n) = 2 ^ (w * k) * (2 ^ w * 2 ^ (w * (n - k - 1))) := by
          rw [← Nat.pow_add, ← Nat.pow_add]
          congr 1
          obtain ⟨j, rfl⟩ : ∃ j, n = k + 1 + j := ⟨n - k - 1, by omega⟩
          rw [show k + 1 + j - k - 1 = j by omega]
          ring
        rw [hsplit, show b * (2 ^ (w * k) * (2 ^ w * 2 ^ (w * (n - k - 1)))) = 2 ^ (w * k) * (2 ^ w * (b * 2 ^ (w * (n - k - 1)))) by ring,
          Nat.add_mul_div_left _ _ (by positivity), Nat.add_mul_mod_self_left]
        exact hdig k h
      · rw [Nat.add_mul_div_right _ _ (by positivity), Nat.div_eq_of_lt hlt, Nat.zero_add, Nat.mod_eq_of_lt hb]
        exact hb'.symm

theorem elemAt_joinElems {w n : Nat} (f : Nat → Nat) (h : w * n ≤ 32) {k : Nat} (hk : k < n) :
    elemAt (joinElems w n f) w k = f k % 2 ^ w := by
  obtain ⟨hlt, hdig⟩ := joinFold_digit w f n
  rw [elemAt, joinElems, BitVec.toNat_ofNat, Nat.mod_eq_of_lt (hlt.trans_le (Nat.pow_le_pow_right (by decide) h)), hdig k hk]

theorem fitElem_lt (mode : Word) (e : Nat) (v : Int) : fitElem mode e v < 2 ^ widthOf e := by
  have h : (0 : Int) < 2 ^ widthOf e := by positivity
  unfold fitElem fitInt
  generalize (if modeSat mode = true then _ else v : Int) = x
  have := Int.emod_lt_of_pos x h
  have := Int.emod_nonneg x h.ne'
  zify
  rw [Int.toNat_of_nonneg this]
  assumption

theorem widthOf_mul_countOf_le (e : Nat) : widthOf e * countOf e ≤ 32 := Nat.mul_div_le 32 (widthOf e)

theorem setF_false_of_setA {e : Nat} (h : setA e = true) : setF e = false := by
  simp only [setA, Bool.or_eq_true, beq_iff_eq] at h
  rcases h with ((((((rfl | rfl) | rfl) | rfl) | rfl) | rfl) | rfl) <;> rfl

theorem elemAt_sumLanes (i : Issue) (e : Nat) (xs : List Word) {k : Nat} (hk : k < countOf e) :
    elemAt (i.sumLanes e xs) (widthOf e) k = fitElem i.mode e ((xs.map fun x => elemInt e (elemAt x (widthOf e) k)).sum) := by
  rw [Issue.sumLanes, elemAt_joinElems _ (widthOf_mul_countOf_le e) hk, Nat.mod_eq_of_lt (fitElem_lt _ _ _), ← List.foldl_map (g := fun a b : Int => a + b),
    ← List.sum_eq_foldl]

theorem Issue.foldLanes_add (i : Issue) (e : Nat) (xs : List Word) : i.foldLanes 0 e xs = i.sumLanes e xs := rfl

/-- A check made only where its condition holds, when it passes there. -/
theorem bind_checked {α : Type} {c : Prop} [Decidable c] {r : Except Trap Unit} {v : Except Trap α} (h : c → r = .ok ()) :
    (if c then r.bind fun _ => v else v) = v := by
  by_cases hc : c
  · rw [if_pos hc, h hc]; rfl
  · rw [if_neg hc]

theorem Issue.foldLanes_taken {i : Issue} {f e : Nat} (hf : 3 ≤ f) (x : Val) (ls : List Nat) :
    (ls.map fun l => i.taken f e (x.at l)) = ls.map x.at :=
  List.map_congr_left fun _ _ => if_neg fun h => absurd h.1 (by omega)

/-- A function with a zero that its fold starts from needs no first lane (R133). -/
theorem foldLanes_zero {op : Word → Word → Word} (h0 : ∀ x, op 0#32 x = x) (xs : List Word) :
    (match xs with | [] => 0#32 | x :: r => r.foldl op x) = xs.foldl op 0#32 := by
  cases xs with
  | nil => rfl
  | cons x r => rw [List.foldl_cons, h0]

/-- Settles O18: the function's checks, then the result; a reduction as a fold over the active lanes. -/
theorem reductionWordsWrite : Obligations.ReductionWordsWrite := by
  unfold Obligations.ReductionWordsWrite
  refine ⟨fun s d a b e x y h => ?_, fun i e x m => ⟨fun he k hk => ?_, fun hm => ?_, ?_, ?_⟩⟩
  · dsimp only
    intro hf hs hc
    have hy : s.iss.count b = .ok y := h.srcB
    have hok : (decide ((y.at 0).toNat ≤ 5) && redSet (y.at 0).toNat e) = true := by rw [decide_eq_true hf, hs]; rfl
    refine ⟨fun n hw => ?_, fun hd hw => ?_, fun hw => ?_, fun hw => ?_⟩
    · rw [exec_redx, execRedx]
      refine State.word_went hw ?_
      simp only [h.type, hy, hok, h.srcA, Issue.active_ok h.guard, Issue.need_true, bind, Except.bind]
      exact bind_checked hc
    · rw [exec_redx, execRedx]
      refine State.word_went hw ?_
      simp only [h.type, hy, hok, h.srcA, Issue.active_ok h.guard, Issue.need_true, bind, Except.bind]
      refine (bind_checked hc).trans ?_
      cases d <;> first | rfl | exact absurd rfl hd
    · rw [exec_scanx, execScanx]
      refine State.word_went hw ?_
      simp only [h.type, hy, hok, h.srcA, Issue.active_ok h.guard, Issue.need_true, bind, Except.bind]
      exact bind_checked hc
    · rw [exec_qred, execQred]
      refine State.word_went hw ?_
      simp only [h.type, hy, hok, h.srcA, Issue.active_ok h.guard, Issue.need_true, bind, Except.bind]
      exact bind_checked hc
  · have hF := setF_false_of_setA he
    rw [Issue.reduce, if_neg (by simp [hF]), Issue.foldLanes_add, elemAt_sumLanes i e _ hk, List.map_map]
    simp only [Function.comp_def, Issue.taken, hF, Bool.false_eq_true, and_false, if_false]
  · rw [Issue.reduce, if_neg (by simp), Issue.foldLanes_taken (by decide)]
    have hne : lanesOf m ≠ [] := fun h => hm (lanesOf_eq_nil.1 h)
    cases hl : lanesOf m with
    | nil => exact absurd hl hne
    | cons l r => rw [List.map_cons, List.foldl_cons, BitVec.allOnes_and]; rfl
  · rw [Issue.reduce, if_neg (by simp), Issue.foldLanes_taken (by decide)]
    exact foldLanes_zero (op := (· ||| ·)) (fun _ => BitVec.zero_or) _
  · rw [Issue.reduce, if_neg (by simp), Issue.foldLanes_taken (by decide)]
    exact foldLanes_zero (op := (· ^^^ ·)) (fun _ => BitVec.zero_xor) _

/-! Predicates (R116, R313, R314). -/

theorem Issue.predLogic_ok {i : Issue} {ins : Instr} {d a b : Sel} {f : Word → Word → Word} (hg : i.guard.pois &&& i.mask = 0#32) :
    i.predLogic ins d a b f = .ok (i.put ins d (i.mask &&& i.guard.val) tRAW
      (maskLanes (f (nonzeroLanes (i.val a).lanes) (nonzeroLanes (i.val b).lanes))) ((i.val a).pois ||| (i.val b).pois)) := by
  simp only [Issue.predLogic, Issue.active_ok hg, bind, Except.bind]

/-- Settles O11: each word's sources, then its result. -/
theorem predicateWordsWrite : Obligations.PredicateWordsWrite := by
  unfold Obligations.PredicateWordsWrite
  refine ⟨fun s d a b hg => ?_, fun s d a hg => ?_⟩ <;> dsimp only
  · refine ⟨fun x hx hw => ?_, fun x hx hw => ?_, fun hw => ?_, fun hw => ?_, fun hw => ?_, fun hw => ?_, fun hw => ?_⟩
    · rw [exec_pset, execPset]
      refine State.word_went hw ?_
      simp only [hx, Issue.active_ok hg, bind, Except.bind]
      rfl
    · rw [exec_pmask, execPmask]
      refine State.word_went hw ?_
      simp only [hx, Issue.active_ok hg, bind, Except.bind, maskLanes_maskOf, decide_eq_true_eq]
      rfl
    · rw [exec_pget, execPget]
      refine State.word_went hw ?_
      simp only [Issue.active_ok hg, bind, Except.bind]
      rfl
    · exact (exec_pand ..).trans (State.word_went hw (Issue.predLogic_ok hg))
    · exact (exec_por ..).trans (State.word_went hw (Issue.predLogic_ok hg))
    · exact (exec_pxor ..).trans (State.word_went hw (Issue.predLogic_ok hg))
    · refine (exec_pnot ..).trans ((State.word_went hw (Issue.predLogic_ok hg)).trans ?_)
      rw [BitVec.or_self]
      rfl
  · refine ⟨fun n hw => ?_, fun n hw => ?_, fun hd hw => ?_, fun n hm hw => ?_⟩
    · rw [exec_ptest, execPtest]
      refine State.word_went hw ?_
      simp only [Issue.active_ok hg, bind, Except.bind]
      rfl
    · rw [exec_ptest, execPtest]
      refine State.word_went hw ?_
      simp only [Issue.active_ok hg, bind, Except.bind]
      rfl
    · rw [exec_pclr, execPclr]
      refine State.word_went hw ?_
      simp only [Issue.active_ok hg, bind, Except.bind]
      cases d <;> first | rfl | exact absurd rfl hd
    · rw [exec_pclr, execPclr]
      refine State.word_went hw ?_
      have hm' : s.iss.mask &&& s.iss.guard.val ≠ 0#32 := hm
      simp only [Issue.active_ok hg, bind, Except.bind, if_neg hm']
      exact congrArg (fun v => Except.ok (s.iss.putUniform n.toNat v false)) (laneAt_lanesAll _ 0 (by decide))

end Sys2Proof.Machine
end

section
/-! SUPPORT. Where results land, moves, commands and final words, and what a poisoned guard stops (R12, R20, R50, R99 to R108). -/

namespace Sys2Proof.Machine

open Sys2Proof.Claim

/-! Where a result lands (R12, R20, R38, R39, R46, R49, R89). -/

theorem pois_merge_getLsbD (old p m : Word) {l : Nat} (h : l < 32) :
    ((old &&& ~~~m) ||| (p &&& m)).getLsbD l = if m.getLsbD l then p.getLsbD l else old.getLsbD l := by
  simp only [BitVec.getLsbD_or, BitVec.getLsbD_and, BitVec.getLsbD_not, h, decide_true, Bool.true_and]
  cases m.getLsbD l <;> simp

theorem VReg.lanes_put (r : VReg) (m : Word) (tag : Nat) (x : Lanes) (p : Word) {l : Nat} (h : l < 32) :
    laneAt (r.put m tag x p).lanes l = if m.getLsbD l then laneAt x l else laneAt r.lanes l :=
  laneAt_mergeLanes m x r.lanes l h

theorem VReg.pois_put (r : VReg) (m : Word) (tag : Nat) (x : Lanes) (p : Word) {l : Nat} (h : l < 32) :
    (r.put m tag x p).pois.getLsbD l = if m.getLsbD l then p.getLsbD l else r.pois.getLsbD l :=
  pois_merge_getLsbD r.pois p m h

theorem VReg.tag_put (r : VReg) (m : Word) (tag : Nat) (x : Lanes) (p : Word) :
    (r.put m tag x p).tag = if m = 0#32 then r.tag else BitVec.ofNat 4 tag := rfl

theorem VReg.full_put (r : VReg) (m : Word) (tag : Nat) (x : Lanes) (p : Word) : (r.put m tag x p).full = r.full := by
  simp only [VReg.put]

/-- A record of the scene that a write replaces at its own place. -/
theorem Vector.getD_setIfInBounds {α : Type} {n : Nat} (v : Vector α n) (a b : Nat) (x z : α) (ha : a < n) :
    ((v.setIfInBounds a x)[b]?).getD z = if a = b then x else (v[b]?).getD z := by
  rw [Vector.getElem?_setIfInBounds]
  by_cases h : a = b
  · subst h; simp [ha]
  · simp [h]

theorem Issue.vmask_put (i : Issue) (ins : Instr) (d : Sel) (m : Word) (tag : Nat) (x : Lanes) (p : Word) (k : BitVec 7) :
    ((i.put ins d m tag x p).vmask[k.toNat]?).getD 0#32 = (i.vmask[k.toNat]?).getD 0#32 ||| (if d = .v k then m else 0#32) := by
  cases d
  case v n =>
    refine (Vector.getD_setIfInBounds _ _ _ _ _ n.isLt).trans ?_
    by_cases h : n = k
    · simp [h]
    · simp [h, BitVec.toNat_inj]
  case s n => simp only [Issue.put]; split <;> simp
  all_goals simp [Issue.put]

theorem Issue.vtagged_put (i : Issue) (ins : Instr) (d : Sel) (m : Word) (tag : Nat) (x : Lanes) (p : Word) (k : BitVec 7) :
    ((i.put ins d m tag x p).vtagged[k.toNat]?).getD false
      = ((i.vtagged[k.toNat]?).getD false || decide (d = .v k ∧ m ≠ 0#32)) := by
  cases d
  case v n =>
    refine (Vector.getD_setIfInBounds _ _ _ _ _ n.isLt).trans ?_
    by_cases h : n = k
    · by_cases hm : m = 0#32 <;> simp [h, hm]
    · simp [h, BitVec.toNat_inj]
  case s n => simp only [Issue.put]; split <;> simp
  all_goals simp [Issue.put]

theorem Issue.swrote_put (i : Issue) (ins : Instr) (d : Sel) (m : Word) (tag : Nat) (x : Lanes) (p : Word) (k : BitVec 5) :
    ((i.put ins d m tag x p).swrote[k.toNat]?).getD false
      = ((i.swrote[k.toNat]?).getD false || decide (d = .s k ∧ m ≠ 0#32)) := by
  cases d
  case s n =>
    by_cases hm : m = 0#32
    · simp [Issue.put, hm]
    · simp only [Issue.put, if_neg hm]
      refine (Vector.getD_setIfInBounds _ _ _ _ _ n.isLt).trans ?_
      by_cases h : n = k
      · simp [h, hm]
      · simp [h, BitVec.toNat_inj]
  all_goals simp [Issue.put]

theorem Issue.pmask_put (i : Issue) (ins : Instr) (d : Sel) (m : Word) (tag : Nat) (x : Lanes) (p : Word) {k : BitVec 3}
    (hk : k ≠ 0#3) :
    ((i.put ins d m tag x p).pmask[k.toNat]?).getD 0#32 = (i.pmask[k.toNat]?).getD 0#32 ||| (if d = .p k then m else 0#32) := by
  cases d
  case p n =>
    by_cases hn : n.toNat = 0
    · have hnk : n ≠ k := fun h => hk (BitVec.eq_of_toNat_eq (h ▸ hn))
      simp [Issue.put, hn, hnk]
    · simp only [Issue.put, if_neg hn]
      refine (Vector.getD_setIfInBounds _ _ _ _ _ n.isLt).trans ?_
      by_cases h : n = k
      · simp [h]
      · simp [h, BitVec.toNat_inj]
  case s n => simp only [Issue.put]; split <;> simp
  all_goals simp [Issue.put]

theorem Issue.vreg_put (i : Issue) (ins : Instr) (d : Sel) (m : Word) (tag : Nat) (x : Lanes) (p : Word) {k : BitVec 7}
    (hk : d ≠ .v k) : (i.put ins d m tag x p).g.vreg k.toNat = i.g.vreg k.toNat := by
  cases d
  case v n => exact Grp.vreg_setV_other _ _ _ _ fun h => hk (congrArg Sel.v (BitVec.eq_of_toNat_eq h.symm))
  case p n => exact Grp.vreg_setP _ _ _ _
  case s n => simp only [Issue.put]; split <;> rfl
  all_goals rfl

theorem Issue.sreg_put (i : Issue) (ins : Instr) (d : Sel) (m : Word) (tag : Nat) (x : Lanes) (p : Word) {k : BitVec 5}
    (hk : d ≠ .s k) : (i.put ins d m tag x p).g.sreg k.toNat = i.g.sreg k.toNat := by
  cases d
  case s n =>
    simp only [Issue.put]
    split
    · rfl
    · exact Grp.sreg_setS_other _ _ _ _ fun h => hk (congrArg Sel.s (BitVec.eq_of_toNat_eq h.symm))
  case p n => exact Grp.sreg_setP _ _ _ _
  all_goals rfl

theorem Issue.preg_put (i : Issue) (ins : Instr) (d : Sel) (m : Word) (tag : Nat) (x : Lanes) (p : Word) {k : BitVec 3}
    (hk : d ≠ .p k) : (i.put ins d m tag x p).g.preg k.toNat = i.g.preg k.toNat := by
  cases d
  case p n => exact Grp.preg_setP_other _ _ _ _ fun h => hk (congrArg Sel.p (BitVec.eq_of_toNat_eq h.symm))
  case s n => simp only [Issue.put]; split <;> rfl
  all_goals rfl

/-- Settles O1: what each kind of destination reads after the write. -/
theorem resultPlaces : Obligations.ResultPlaces := by
  unfold Obligations.ResultPlaces
  refine ⟨fun i ins n m tag x p => ?_, fun i ins m tag x p => ⟨fun n hm => ?_, fun n hm => ?_, fun n hn l hl => ?_, ?_⟩,
    fun i ins n m tag x p => ?_, fun i ins n m tag x p => ?_, fun i ins d m tag x p => ?_, fun i n x p => ?_⟩
  · have hr : (i.put ins (.v n) m tag x p).g.vreg n.toNat = (i.g.vreg n.toNat).put m tag x p := Grp.vreg_setV _ _ _ n.isLt
    dsimp only
    rw [hr]
    exact ⟨fun l hl => VReg.lanes_put _ _ _ _ _ hl, fun l hl => VReg.pois_put _ _ _ _ _ hl, VReg.tag_put .., VReg.full_put ..⟩
  · have hr : (i.put ins (.s n) m tag x p).g.sreg n.toNat
        = { i.g.sreg n.toNat with val := laneAt x (lowLane m), pois := p.getLsbD (lowLane m) } := by
      simp only [Issue.put, if_neg hm]
      exact Grp.sreg_setS _ _ _ n.isLt
    rw [hr]
    exact ⟨rfl, rfl⟩
  · simp only [Issue.put, if_pos hm]
  · have hn0 : n.toNat ≠ 0 := fun h => hn (BitVec.eq_of_toNat_eq h)
    have hr : (i.put ins (.p n) m tag x p).g.preg n.toNat
        = { val := ((i.g.preg n.toNat).val &&& ~~~m) ||| (nonzeroLanes x &&& m),
            pois := ((i.g.preg n.toNat).pois &&& ~~~m) ||| (p &&& m) } := Grp.preg_setP _ _ _ n.isLt hn0
    rw [hr]
    refine ⟨?_, pois_merge_getLsbD _ _ _ hl⟩
    rw [pois_merge_getLsbD _ _ _ hl, nonzeroLanes, getLsbD_maskOf _ hl]
  · simp only [Issue.put, Grp.setP, BitVec.toNat_ofNat, Nat.zero_mod, if_true]
  · have hq : mergeLanes m x (lanesAll 0#32) = lanesFrom fun l => if m.getLsbD l then laneAt x l else 0#32 :=
      lanesFrom_congr fun l hl => by rw [laneAt_lanesAll _ _ hl]
    simp only [Issue.put, hq]
  · have hr : ((i.put ins (.t n) m tag x p).t[n.toNat]?).getD {} = ((i.t[n.toNat]?).getD {}).put m tag x p :=
      (Vector.getD_setIfInBounds _ _ _ _ _ n.isLt).trans (if_pos rfl)
    dsimp only
    rw [hr]
    exact ⟨fun l hl => VReg.lanes_put _ _ _ _ _ hl, fun l hl => VReg.pois_put _ _ _ _ _ hl, VReg.tag_put .., VReg.full_put .., rfl⟩
  · exact ⟨fun k => ⟨Issue.vmask_put .., Issue.vtagged_put ..⟩, fun k => Issue.swrote_put .., fun k hk => Issue.pmask_put _ _ _ _ _ _ _ hk⟩
  · have hr : (i.putUniform n.toNat x p).g.sreg n.toNat = { i.g.sreg n.toNat with val := x, pois := p } := Grp.sreg_setS _ _ _ n.isLt
    dsimp only
    rw [hr]
    exact ⟨rfl, rfl, rfl, (Vector.getD_setIfInBounds _ _ _ _ _ n.isLt).trans (if_pos rfl),
      fun k hk => Grp.sreg_setS_other _ _ _ _ fun h => hk (BitVec.eq_of_toNat_eq h), rfl, rfl, rfl⟩

/-- Settles O2: what the write leaves, by the kind of its destination. -/
theorem resultLeavesRest : Obligations.ResultLeavesRest := by
  unfold Obligations.ResultLeavesRest
  intro i ins d m tag x p
  dsimp only
  refine ⟨fun k hk => Issue.vreg_put _ _ _ _ _ _ _ hk, fun k hk => Issue.sreg_put _ _ _ _ _ _ _ hk, fun k hk => Issue.preg_put _ _ _ _ _ _ _ hk, 
    fun k hk => ?_, ?_, Issue.put_mode .., ?_, Issue.put_mask .., Issue.put_words .., Issue.put_pc .., Issue.put_slot .., fun hq => ?_⟩
  · cases d
    case t n => exact Vector.getElem?_setIfInBounds_ne fun h => hk (congrArg Sel.t (BitVec.eq_of_toNat_eq h))
    case s n => simp only [Issue.put]; split <;> rfl
    all_goals rfl
  · cases d
    case s n => simp only [Issue.put]; split <;> rfl
    case p n => simp only [Issue.put, Grp.setP]; split <;> rfl
    all_goals rfl
  · cases d
    case s n => simp only [Issue.put]; split <;> rfl
    all_goals rfl
  · cases d
    case s n => simp only [Issue.put]; split <;> rfl
    case q n => exact absurd rfl (hq n)
    all_goals rfl

/-! Moves, MODE and special numbers (R44, R99 to R102, R107, R108). -/

theorem Issue.lowHalf_register {d : Sel} (h : kindOf d ≠ .q) (i : Issue) (clk : Nat) : i.lowHalf clk d = i.val d := by
  cases d
  case q n => exact absurd rfl h
  all_goals rfl

theorem lanesAll_eq_lanesFrom (x : Word) : lanesAll x = lanesFrom fun _ => x := by
  simp only [lanesAll, lanesFrom]
  ext i hi
  simp

/-- Settles O12: each word's sources, then its result. -/
theorem moveWordsWrite : Obligations.MoveWordsWrite := by
  unfold Obligations.MoveWordsWrite
  refine ⟨fun s d a b n hg => ?_, fun s => ⟨fun f n hw => ?_, fun a x hx hp hw h24 het hrm => ?_⟩, fun s d n hg hw => ?_⟩
  · dsimp only
    refine ⟨fun hw => ?_, fun hw => ?_, fun hd hw => ?_, fun q hw => ?_, fun e x ha he hx hw => ?_, fun ha hw => ?_, fun hw => ?_,
      fun y hy ht hw => ?_⟩
    · exact (exec_nop ..).trans (State.word_went hw rfl)
    · rw [exec_ldi, execLdi]
      refine State.word_went hw ?_
      simp only [Issue.active_ok hg, bind, Except.bind]
      rfl
    · rw [exec_ldhi, execLdhi]
      refine State.word_went hw ?_
      simp only [Issue.active_ok hg, Issue.lowHalf_register hd, bind, Except.bind]
      rfl
    · rw [exec_ldhi, execLdhi]
      refine ⟨lanesFrom fun l => n ++ ((s.iss.lowHalf s.clk (.q q)).at l).extractLsb' 0 16, (s.iss.lowHalf s.clk (.q q)).pois, 
        fun l hl => ?_, State.word_went hw ?_⟩
      · rw [laneAt_lanesFrom _ _ hl]
        exact BitVec.extractLsb'_append_eq_left
      · simp only [Issue.active_ok hg, bind, Except.bind]
        rfl
    · rw [exec_mov, execMov]
      refine State.word_went hw ?_
      simp only [if_neg ha, he, hx, Issue.active_ok hg, bind, Except.bind]
      rfl
    · rw [exec_mov, execMov]
      refine State.word_went hw ?_
      simp only [if_pos ha, Issue.active_ok hg, bind, Except.bind]
      rfl
    · rw [exec_rdtag, execRdtag]
      refine State.word_went hw ?_
      simp only [Issue.active_ok hg, bind, Except.bind]
      rfl
    · have hok : (decide ((y.at 0).toNat ≤ 12) || (y.at 0).toNat == 15) = true := by
        rw [Bool.or_eq_true, decide_eq_true_eq, beq_iff_eq]
        exact ht
      rw [exec_retag, execRetag]
      refine State.word_went hw ?_
      simp only [hy, hok, Issue.active_ok hg, Issue.need_true, bind, Except.bind]
      rfl
  · exact (exec_modei ..).trans (State.word_went hw rfl)
  · have hok : modeOk (x.at 0) = true := by
      have h24' : bits (x.at 0) 31 24 = 0 := by
        rw [bits, Nat.shiftRight_eq_div_pow, Nat.div_eq_of_lt h24, Nat.zero_mod]
      rw [modeOk, h24', decide_eq_true het, decide_eq_true hrm]
      rfl
    rw [exec_mode, execMode]
    refine State.word_went hw ?_
    simp only [hx, hp, hok, Issue.need_true, bind, Except.bind, ne_eq, not_true_eq_false, if_false]
  · rw [exec_rdsp, execRdsp]
    refine State.word_went hw ?_
    simp only [Issue.active_ok hg, bind, Except.bind]
    refine congrArg (fun x => Except.ok (Issue.put _ _ _ _ _ x _)) ?_
    generalize n.toNat = k
    rcases k with _ | _ | _ | k
    · rfl
    · rfl
    · rfl
    · refine (lanesAll_eq_lanesFrom _).trans (congrArg lanesFrom (funext fun l => ?_))
      by_cases h13 : k = 10
      · subst h13
        exact congrArg (BitVec.ofNat 32) (Nat.div_div_eq_div_mul _ 8 24).symm
      · rcases k with _ | _ | _ | _ | _ | _ | _ | _ | _ | _ | _ | _ | _ | _ | _ | _ | _ | _ | _ | k
        · rfl
        all_goals first | rfl | exact absurd rfl h13

/-! Commands (R225 to R232, R251 to R256, R288 to R295) and final words (R93 to R98, R170 to R175). -/

theorem Issue.descWord_ok {i : Issue} {ins : Instr} {n : BitVec 3} (hg : i.guard.pois &&& i.mask = 0#32) :
    let x (k : Nat) : Val := i.val (.s (BitVec.ofNat 5 (4 * n.toNat + k)))
    i.descWord ins n = .ok (i.capture
      { ins := ins, act := i.mask &&& i.guard.val, desc := [(x 0).at 0, (x 1).at 0, (x 2).at 0, (x 3).at 0]
        cpois := ((x 0).pois != 0#32 || (x 1).pois != 0#32 || (x 2).pois != 0#32 || (x 3).pois != 0#32) }) := by
  simp only [Issue.descWord, Issue.active_ok hg, bind, Except.bind, show List.range 4 = [0, 1, 2, 3] from rfl, List.map_cons,
    List.map_nil, List.any_cons, List.any_nil, Bool.or_false, Bool.or_assoc]

theorem Issue.scalarWord_none {i : Issue} {ins : Instr} (hg : i.guard.pois &&& i.mask = 0#32) :
    i.scalarWord ins [] = .ok (i.capture { ins := ins, act := i.mask &&& i.guard.val }) := by
  simp only [Issue.scalarWord, List.mapM_nil, pure, Except.pure, Issue.active_ok hg, bind, Except.bind, List.map_nil, List.any_nil]

theorem Issue.scalarWord_one {i : Issue} {ins : Instr} {a : Sel} {x : Val} (hx : i.count a = .ok x)
    (hg : i.guard.pois &&& i.mask = 0#32) : i.scalarWord ins [a] = .ok (i.capture
      { ins := ins, act := i.mask &&& i.guard.val, desc := [x.at 0], cpois := x.pois != 0#32 }) := by
  simp only [Issue.scalarWord, List.mapM_cons, List.mapM_nil, hx, pure, Except.pure, Issue.active_ok hg, bind, Except.bind,
    List.map_cons, List.map_nil, List.any_cons, List.any_nil, Bool.or_false]

theorem Issue.scalarWord_two {i : Issue} {ins : Instr} {a b : Sel} {x y : Val} (hx : i.count a = .ok x) (hy : i.count b = .ok y)
    (hg : i.guard.pois &&& i.mask = 0#32) : i.scalarWord ins [a, b] = .ok (i.capture
      { ins := ins, act := i.mask &&& i.guard.val, desc := [x.at 0, y.at 0], cpois := (x.pois != 0#32 || y.pois != 0#32) }) := by
  simp only [Issue.scalarWord, List.mapM_cons, List.mapM_nil, hx, hy, pure, Except.pure, Issue.active_ok hg, bind, Except.bind,
    List.map_cons, List.map_nil, List.any_cons, List.any_nil, Bool.or_false]

/-- Settles O21: the descriptor's four scalars, or the operands in order, at the word. -/
theorem commandWordsCaptured : Obligations.CommandWordsCaptured := by
  unfold Obligations.CommandWordsCaptured
  refine ⟨fun s n hg => ?_, fun s a b x y hg hx hy => ?_⟩
  · simp only [descriptorWords, List.forall_mem_cons, List.not_mem_nil, false_imp_iff, implies_true, and_true]
    refine ⟨fun hw => ?_, fun hw => ?_, fun hw => ?_, fun hw => ?_, fun hw => ?_, fun hw => ?_, fun hw => ?_, fun hw => ?_, fun hw => ?_,
      fun hw => ?_, fun hw => ?_⟩
    · exact (exec_wload ..).trans (State.word_went hw (Issue.descWord_ok hg))
    · exact (exec_stage ..).trans (State.word_went hw (Issue.descWord_ok hg))
    · exact (exec_chain ..).trans (State.word_went hw (Issue.descWord_ok hg))
    · exact (exec_gbind ..).trans (State.word_went hw (Issue.descWord_ok hg))
    · exact (exec_gprog ..).trans (State.word_went hw (Issue.descWord_ok hg))
    · exact (exec_gmark ..).trans (State.word_went hw (Issue.descWord_ok hg))
    · exact (exec_gprop ..).trans (State.word_went hw (Issue.descWord_ok hg))
    · exact (exec_gcoll ..).trans (State.word_went hw (Issue.descWord_ok hg))
    · exact (exec_gclr ..).trans (State.word_went hw (Issue.descWord_ok hg))
    · exact (exec_bexec ..).trans (State.word_went hw (Issue.descWord_ok hg))
    · exact (exec_rowop ..).trans (State.word_went hw (Issue.descWord_ok hg))
  · simp only [plainCommands, List.forall_mem_cons, List.not_mem_nil, false_imp_iff, implies_true, and_true]
    refine ⟨fun src d hw => ?_, fun k hw => ?_, fun g p h h1 h2 hw => ?_, fun h hw => ?_, fun c d => ⟨fun hw => ?_, fun hw => ?_, fun hw => ?_⟩,
      fun q hw => ?_, fun d hw => ?_, fun hw => ?_, fun d hd hw => ?_, fun d hd hw => ?_⟩
    · rw [exec_cpy, execCpy]
      refine State.word_went hw ?_
      simp only [hx, Issue.active_ok hg, bind, Except.bind]
      rfl
    · rw [exec_fence, execFence]
      refine State.word_went hw ?_
      simp only [Issue.active_ok hg, bind, Except.bind]
      rfl
    · have hok : (decide (1 ≤ (x.at 0).toNat) && decide ((x.at 0).toNat ≤ 1024)) = true := by
        rw [Bool.and_eq_true, decide_eq_true_eq, decide_eq_true_eq]
        exact ⟨h1, h2⟩
      rw [exec_barinit, execBarinit]
      refine State.word_went hw ?_
      simp only [hx, hok, Issue.active_ok hg, Issue.need_true, bind, Except.bind]
      rfl
    · exact (exec_hop ..).trans (State.word_went hw (Issue.scalarWord_one hx hg))
    · exact (exec_cmit ..).trans (State.word_went hw (Issue.scalarWord_none hg))
    · exact (exec_cdisc ..).trans (State.word_went hw (Issue.scalarWord_none hg))
    · exact (exec_bpage ..).trans (State.word_went hw (Issue.scalarWord_none hg))
    · exact (exec_qcfg ..).trans (State.word_went hw (Issue.scalarWord_one hx hg))
    · exact (exec_cstat ..).trans (State.word_went hw (Issue.scalarWord_one hx hg))
    · exact (exec_wfree ..).trans (State.word_went hw (Issue.scalarWord_two hx hy hg))
    · rw [exec_gstat, execGstat]
      refine State.word_went hw ?_
      rw [if_neg hd]
      exact Issue.scalarWord_two hx hy hg
    · rw [exec_gstat, execGstat]
      refine State.word_went hw ?_
      rw [if_pos hd]
      exact Issue.scalarWord_one hx hg

theorem Issue.regTarget_ok {i : Issue} {n : BitVec 5} (h4 : (i.g.sreg n.toNat).val.toNat % 4 = 0)
    (hp : (i.g.sreg n.toNat).pois = false) : i.regTarget (.s n) = .ok (i.g.sreg n.toNat).val := by
  have hv : (i.val (.s n)).at 0 = (i.g.sreg n.toNat).val := laneAt_lanesAll _ 0 (by decide)
  have hb : bits ((i.val (.s n)).at 0) 1 0 = 0 := by rw [hv]; exact h4
  have hq : (i.val (.s n)).pois = 0#32 := by
    show allPois _ = _
    rw [hp]
    rfl
  rw [Issue.regTarget, if_neg (not_not.2 hb), if_neg (not_not.2 hq), hv]

/-- Settles O23: each final word's checks, then what it leaves for the trailer. -/
theorem finalWordsComplete : Obligations.FinalWordsComplete := by
  unfold Obligations.FinalWordsComplete
  refine ⟨fun s => ?_, fun s => ⟨fun g p h => ?_, fun d a w k c x hc hx => ?_⟩⟩
  · dsimp only
    refine ⟨fun n h4 hp => ⟨fun hw => ?_, fun hw => ?_⟩, fun hw => ?_, fun n hw => ?_, fun n hw => ?_, fun hw => ?_, fun hh hw => ?_,
      fun hw => ?_, fun c hw => ?_, fun t hw => ?_, fun hh hw => ?_⟩
    · rw [exec_jmpr, execJmpr]
      refine State.word_went hw ?_
      simp only [Issue.regTarget_ok h4 hp, bind, Except.bind]
    · rw [exec_callr, execCallr]
      refine State.word_went hw ?_
      simp only [Issue.regTarget_ok h4 hp, bind, Except.bind]
    · exact (exec_exit ..).trans (State.word_went hw rfl)
    · exact (exec_trap ..).trans (State.word_went hw rfl)
    · exact (exec_brk ..).trans (State.word_went hw rfl)
    · exact (exec_yield ..).trans (State.word_went hw rfl)
    · rw [exec_tret, execTret]
      refine State.word_went hw ?_
      simp only [hh, Issue.need_true, bind, Except.bind]
    · exact (exec_drain ..).trans (State.word_went hw rfl)
    · exact (exec_cwait ..).trans (State.word_went hw rfl)
    · exact (exec_gwait ..).trans (State.word_went hw rfl)
    · rw [exec_tret, execTret]
      refine State.word_trapScene hw ?_
      simp only [hh, Issue.need_false, bind, Except.bind]
      rfl
  · simp only [barrierWords, List.forall_mem_cons, List.not_mem_nil, false_imp_iff, implies_true, and_true]
    refine ⟨fun hw => ?_, fun hw => ?_, fun hw => ?_⟩
    · exact (exec_bara ..).trans (State.word_went hw rfl)
    · exact (exec_barw ..).trans (State.word_went hw rfl)
    · exact (exec_bars ..).trans (State.word_went hw rfl)
  · dsimp only
    refine ⟨fun hw => ?_, fun he hw => ?_, fun he hw => ?_, fun h1 h2 hw => ?_⟩
    · rw [exec_mwne, execMwne]
      refine State.word_went hw ?_
      simp only [hc, hx, bind, Except.bind]
    · rw [exec_mwge, execMwge]
      refine State.word_went hw ?_
      simp only [he, hc, hx, bind, Except.bind, BEq.rfl, Bool.true_or, Issue.need_true, if_true]
    · rw [exec_mwge, execMwge]
      refine State.word_went hw ?_
      have hne : tN32 ≠ tI32 := by decide
      simp only [he, hc, hx, bind, Except.bind, BEq.rfl, Bool.or_true, Issue.need_true, if_neg hne]
    · rw [exec_mwge, execMwge]
      refine State.word_trapScene hw ?_
      simp only [beq_false_of_ne h1, beq_false_of_ne h2, Bool.or_false, Issue.need_false, bind, Except.bind]
      rfl

/-! Poisoned guards (R50): a word's checks before its guard's pass, or trap with a class other than poison. -/

/-- A check that passes, or traps at the word with a class other than poison. -/
def Early {α : Type} (i : Issue) (r : Except Trap α) : Prop := ∀ t, r = .error t → t.idx = i.idx ∧ t.cls ≠ clsPoison

/-- A word that traps at its place: with its guard's poison, or with another class. -/
def Consumed (i : Issue) (r : Except Trap Issue) : Prop :=
  ∃ t, r = .error t ∧ t.idx = i.idx ∧ (t.cls = clsPoison → t = i.trap clsPoison (lowLane (i.guard.pois &&& i.mask)))

@[simp] theorem early_ok {α : Type} {i : Issue} {a : α} : Early i (.ok a) := nofun

@[simp] theorem early_trap {α : Type} (i : Issue) (c d : Nat) : Early (α := α) i (.error (i.trap c d)) ↔ c ≠ clsPoison :=
  ⟨fun h => (h _ rfl).2, fun h t ht => by cases ht; exact ⟨rfl, h⟩⟩

theorem early_ite {α : Type} {i : Issue} {c : Prop} [Decidable c] {r q : Except Trap α} (hr : Early i r) (hq : Early i q) :
    Early i (if c then r else q) := by
  split
  · exact hr
  · exact hq

theorem early_bind {α β : Type} {i : Issue} {r : Except Trap α} {k : α → Except Trap β} (hr : Early i r) (hk : ∀ a, Early i (k a)) :
    Early i (r >>= k) := by
  cases r with
  | error t =>
    intro u hu
    exact hr u (by cases hu; rfl)
  | ok a => exact hk a

@[simp] theorem Issue.etype_early (i : Issue) (a : Sel) : Early i (i.etype a) := by
  unfold Issue.etype
  refine early_ite ?_ (early_ok)
  split
  · exact (early_trap ..).2 (by decide)
  · exact early_ite ((early_trap ..).2 (by decide)) (early_ok)

@[simp] theorem Issue.src_early (i : Issue) (e : Nat) (a : Sel) : Early i (i.src e a) := by
  unfold Issue.src
  split
  · split
    · exact early_ok
    · exact (early_trap ..).2 (by decide)
  · exact (early_trap ..).2 (by decide)
  · exact early_ok

@[simp] theorem Issue.count_early (i : Issue) (a : Sel) : Early i (i.count a) := by
  unfold Issue.count
  split
  · split
    · exact early_ok
    · exact (early_trap ..).2 (by decide)
  · exact (early_trap ..).2 (by decide)
  · exact early_ok

@[simp] theorem Issue.need_early (i : Issue) (ok : Bool) : Early i (i.need ok) :=
  early_ite (early_ok) ((early_trap ..).2 (by decide))

@[simp] theorem Issue.checkTag_early (i : Issue) (e : Nat) (a : Sel) : Early i (i.checkTag e a) := by
  unfold Issue.checkTag
  split
  · exact early_ite (early_ok) ((early_trap ..).2 (by decide))
  · exact early_ok

@[simp] theorem Issue.checkTags_early (i : Issue) (e : Nat) (xs : List Sel) : Early i (i.checkTags e xs) := by
  induction xs with
  | nil => exact early_ok
  | cons x r ih =>
    unfold Issue.checkTags
    split
    · next t h => intro u hu; exact Issue.checkTag_early i e x u (by rw [h]; cases hu; rfl)
    · exact ih

@[simp] theorem Issue.checkW_early (i : Issue) (a : Sel) : Early i (i.checkW a) := by
  unfold Issue.checkW
  split
  · exact early_ite (early_ok) ((early_trap ..).2 (by decide))
  · exact early_ok

@[simp] theorem Issue.dataOf_early (i : Issue) (d : Sel) (n : Nat) : Early i (i.dataOf d n) := by
  unfold Issue.dataOf
  split
  · refine early_ite ((early_trap ..).2 (by decide)) ?_
    split
    · exact early_ok
    · next t h => intro u hu; exact Issue.src_early i _ _ u (by rw [h]; cases hu; rfl)
  · exact early_ok

@[simp] theorem Issue.counts_early (i : Issue) (xs : List Sel) : Early i (xs.mapM i.count) := by
  induction xs with
  | nil => exact early_ok
  | cons x r ih =>
    rw [List.mapM_cons]
    exact early_bind (Issue.count_early i x) fun a => early_bind ih fun b => early_ok

@[simp] theorem early_map {α β : Type} {i : Issue} {r : Except Trap α} {f : α → β} (hr : Early i r) : Early i (r.map f) := by
  cases r with
  | error t =>
    intro u hu
    exact hr u (by cases hu; rfl)
  | ok a => exact early_ok

/-- Checks in a row: the first passes, and the rest is consumed. -/
theorem consumed_bind {α : Type} {i : Issue} {r : Except Trap α} {k : α → Except Trap Issue} (hr : Early i r)
    (hk : ∀ a, Consumed i (k a)) : Consumed i (r >>= k) := by
  cases r with
  | error t => exact ⟨t, rfl, (hr t rfl).1, fun h => absurd h (hr t rfl).2⟩
  | ok a => exact hk a

theorem consumed_active {i : Issue} {k : Word → Except Trap Issue} (h : i.guard.pois &&& i.mask ≠ 0#32) :
    Consumed i (i.active >>= k) := by
  rw [Issue.active_trap h]
  exact ⟨_, rfl, rfl, fun _ => rfl⟩

theorem consumed_ite {i : Issue} {c : Prop} [Decidable c] {r q : Except Trap Issue} (hr : Consumed i r) (hq : Consumed i q) :
    Consumed i (if c then r else q) := by
  split
  · exact hr
  · exact hq

theorem consumed_trap {i : Issue} {c : Nat} (d : Nat) (h : c ≠ clsPoison) : Consumed i (.error (i.trap c d)) :=
  ⟨_, rfl, rfl, fun e => absurd e h⟩

theorem consumed_bind_iff {α : Type} {i : Issue} {r : Except Trap α} {k : α → Except Trap Issue} (hr : Early i r) :
    Consumed i (r >>= k) ↔ ∀ a, r = .ok a → Consumed i (k a) := by
  cases r with
  | error t => exact iff_of_true ⟨t, rfl, (hr t rfl).1, fun h => absurd h (hr t rfl).2⟩ nofun
  | ok a => exact ⟨fun h b hb => by cases hb; exact h, fun h => h a rfl⟩

@[simp] theorem consumed_ite_iff {i : Issue} {c : Prop} [Decidable c] {r q : Except Trap Issue} :
    Consumed i (if c then r else q) ↔ (c → Consumed i r) ∧ (¬c → Consumed i q) := by
  by_cases h : c <;> simp [h]

@[simp] theorem consumed_format (i : Issue) (d : Nat) : Consumed i (.error (i.trap clsFormat d)) := consumed_trap d (by decide)

@[simp] theorem consumed_privilege (i : Issue) (d : Nat) : Consumed i (.error (i.trap clsPrivilege d)) := consumed_trap d (by decide)

@[simp] theorem Issue.voteSource_early (i : Issue) (a : Sel) : Early i (i.voteSource a) := by
  unfold Issue.voteSource
  split
  · exact early_bind (Issue.etype_early _ _) fun e => Issue.src_early _ _ _
  · exact early_ok

/-! The words' common parts. -/

section
variable {i : Issue} (hb : i.guard.pois &&& i.mask ≠ 0#32)
include hb

theorem Issue.lane1_consumed {ins : Instr} {set : Nat → Bool} {chk pass : Bool} {d a : Sel} {f : Nat → Word → Word} :
    Consumed i (i.lane1 ins set chk d a pass f) := by
  simp [Issue.lane1, consumed_bind_iff, consumed_active hb]

theorem Issue.lane2_consumed {ins : Instr} {set : Nat → Bool} {chk cnt pass : Bool} {d a b : Sel} {f : Nat → Word → Word → Word} :
    Consumed i (i.lane2 ins set chk cnt d a b pass f) := by
  simp [Issue.lane2, consumed_bind_iff, consumed_active hb]

theorem Issue.lane3_consumed {ins : Instr} {set : Nat → Bool} {chk cnt : Bool} {d a b : Sel} {tagD : Nat → Option Nat}
    {f : Nat → Word → Word → Word → Word} : Consumed i (i.lane3 ins set chk cnt d a b tagD f) := by
  simp [Issue.lane3, consumed_bind_iff]
  intro e _ _ _
  cases tagD e <;> simp [consumed_bind_iff, consumed_active hb]

theorem Issue.funnel_consumed {ins : Instr} {d a b : Sel} {f : Word → Word → Nat → Word} : Consumed i (i.funnel ins d a b f) := by
  simp [Issue.funnel, consumed_bind_iff, consumed_active hb]

theorem Issue.shuffle_consumed {s : State} {ins : Instr} {d a b : Sel} {withB : Bool} {ok : Nat → Bool} {src : Nat → Nat → Nat} :
    Consumed i (i.shuffle s ins d a b withB ok src) := by
  simp [Issue.shuffle, consumed_bind_iff, consumed_active hb]

theorem Issue.loadWord_consumed {ins : Instr} {d a : Sel} : Consumed i (i.loadWord ins d a) := by
  simp [Issue.loadWord, consumed_bind_iff, consumed_active hb]

theorem Issue.storeWord_consumed {ins : Instr} {d a : Sel} {n : Nat} : Consumed i (i.storeWord ins d a n) := by
  simp [Issue.storeWord, consumed_bind_iff, consumed_active hb]

theorem Issue.atomWord_consumed {ins : Instr} {d a : Sel} {n : Nat} : Consumed i (i.atomWord ins d a n) := by
  simp [Issue.atomWord, consumed_bind_iff]
  cases d <;> simp [consumed_bind_iff, consumed_active hb]

theorem Issue.predLogic_consumed {ins : Instr} {d a b : Sel} {f : Word → Word → Word} : Consumed i (i.predLogic ins d a b f) := by
  simp [Issue.predLogic, consumed_active hb]

theorem Issue.scalarWord_consumed {ins : Instr} {ops : List Sel} : Consumed i (i.scalarWord ins ops) := by
  simp [Issue.scalarWord, consumed_bind_iff, consumed_active hb]

theorem Issue.descWord_consumed {ins : Instr} {n : BitVec 3} : Consumed i (i.descWord ins n) := by
  simp [Issue.descWord, consumed_active hb]

end

/-- The machine after a word that its guard's poison, or an earlier check, stopped. -/
def Refused (s : State) (o : Out) : Prop :=
  ∃ t : Trap, o = .next (s.trapScene t) ∧ t.idx = s.iss.idx
    ∧ (t.cls = 15 → t = { cls := 15, idx := s.iss.idx, detail := lowLane (s.iss.guard.pois &&& s.iss.mask) })

theorem State.word_consumed {s : State} {ins : Instr} {f : Issue → Except Trap Issue} (hw : AtWord s ins) (h : Consumed s.iss (f s.iss)) :
    Refused s (s.word ins f) := by
  obtain ⟨t, ht, hi, hp⟩ := h
  exact ⟨t, State.word_trapScene hw ht, hi, hp⟩

theorem exec_refused {s : State} {i : Instr} (hw : AtWord s i) (hword : isWord i = true) (hu : unguarded i = false)
    (hb : s.iss.guard.pois &&& s.iss.mask ≠ 0#32) : Refused s (exec i s) := by
  cases i
  case fadd | fsub | fmul | fmin | fmax | add | sub | mul | mulhi | min | max | absd | and | or | xor | andn | shl | shr |
      sar | rol | bfx =>
    simp only [exec_fadd, exec_fsub, exec_fmul, exec_fmin, exec_fmax, exec_add, exec_sub, exec_mul, exec_mulhi, exec_min,
      exec_max, exec_absd, exec_and, exec_or, exec_xor, exec_andn, exec_shl, exec_shr, exec_sar, exec_rol, exec_bfx, execFadd,
      execFsub, execFmul, execFmin, execFmax, execAdd, execSub, execMul, execMulhi, execMin, execMax, execAbsd, execAnd,
      execOr, execXor, execAndn, execShl, execShr, execSar, execRol, execBfx]
    refine State.word_consumed hw ?_
    exact Issue.lane2_consumed hb
  case fma | dot2 | dot4 | mad | lut3 | bfi | sad =>
    simp only [exec_fma, exec_dot2, exec_dot4, exec_mad, exec_lut3, exec_bfi, exec_sad, execFma, execDot2, execDot4, execMad,
      execLut3, execBfi, execSad]
    refine State.word_consumed hw ?_
    exact Issue.lane3_consumed hb
  case fcmpeq | fcmplt | fcmple | fcmpun | cmpeq | cmpne | cmplt | cmple =>
    simp only [exec_fcmpeq, exec_fcmplt, exec_fcmple, exec_fcmpun, exec_cmpeq, exec_cmpne, exec_cmplt, exec_cmple, execFcmpeq,
      execFcmplt, execFcmple, execFcmpun, execCmpeq, execCmpne, execCmplt, execCmple, Issue.compare]
    refine State.word_consumed hw ?_
    exact Issue.lane2_consumed hb
  case fabs | fneg | rnd | frac | not | clz | ffs | popc | brev =>
    simp only [exec_fabs, exec_fneg, exec_rnd, exec_frac, exec_not, exec_clz, exec_ffs, exec_popc, exec_brev, execFabs,
      execFneg, execRnd, execFrac, execNot, execClz, execFfs, execPopc, execBrev]
    refine State.word_consumed hw ?_
    exact Issue.lane1_consumed hb
  case rcp | rsqrt | sqrt | exp2 | log2 | sinpi | cospi | tanh =>
    simp only [exec_rcp, exec_rsqrt, exec_sqrt, exec_exp2, exec_log2, exec_sinpi, exec_cospi, exec_tanh, execRcp, execRsqrt,
      execSqrt, execExp2, execLog2, execSinpi, execCospi, execTanh, Issue.tran]
    refine State.word_consumed hw ?_
    exact Issue.lane1_consumed hb
  case fshl | fshr =>
    simp only [exec_fshl, exec_fshr, execFshl, execFshr]
    refine State.word_consumed hw ?_
    exact Issue.funnel_consumed hb
  case shfi | shfx | shfu | shfd | bcst =>
    simp only [exec_shfi, exec_shfx, exec_shfu, exec_shfd, exec_bcst, execShfi, execShfx, execShfu, execShfd, execBcst]
    refine State.word_consumed hw ?_
    exact Issue.shuffle_consumed hb
  case ldb | ldh | ldw | ldq | pfl =>
    simp only [exec_ldb, exec_ldh, exec_ldw, exec_ldq, exec_pfl, execLdb, execLdh, execLdw, execLdq, execPfl]
    refine State.word_consumed hw ?_
    exact Issue.loadWord_consumed hb
  case stb | sth | stw | stq =>
    simp only [exec_stb, exec_sth, exec_stw, exec_stq, execStb, execSth, execStw, execStq]
    refine State.word_consumed hw ?_
    exact Issue.storeWord_consumed hb
  case faa | fmn | fmx | fand | fior | fxor | swp | cas | radd | rmin | rmax | ror =>
    simp only [exec_faa, exec_fmn, exec_fmx, exec_fand, exec_fior, exec_fxor, exec_swp, exec_cas, exec_radd, exec_rmin,
      exec_rmax, exec_ror, execFaa, execFmn, execFmx, execFand, execFior, execFxor, execSwp, execCas, execRadd, execRmin,
      execRmax, execRor]
    refine State.word_consumed hw ?_
    exact Issue.atomWord_consumed hb
  case pand | por | pxor | pnot =>
    simp only [exec_pand, exec_por, exec_pxor, exec_pnot, execPand, execPor, execPxor, execPnot]
    refine State.word_consumed hw ?_
    exact Issue.predLogic_consumed hb
  case hop | cmit | cdisc | qcfg | cstat | wfree | gstat | bpage =>
    simp only [exec_hop, exec_cmit, exec_cdisc, exec_qcfg, exec_cstat, exec_wfree, exec_gstat, exec_bpage, execHop, execCmit,
      execCdisc, execQcfg, execCstat, execWfree, execGstat, execBpage]
    refine State.word_consumed hw ?_
    exact Issue.scalarWord_consumed hb
  case wload | stage | chain | gbind | gprog | gmark | gprop | gcoll | gclr | bexec | rowop =>
    simp only [exec_wload, exec_stage, exec_chain, exec_gbind, exec_gprog, exec_gmark, exec_gprop, exec_gcoll, exec_gclr,
      exec_bexec, exec_rowop, execWload, execStage, execChain, execGbind, execGprog, execGmark, execGprop, execGcoll, execGclr,
      execBexec, execRowop]
    refine State.word_consumed hw ?_
    exact Issue.descWord_consumed hb
  case vote =>
    rw [exec_vote, execVote_eq]
    refine State.word_consumed hw ?_
    simp [consumed_bind_iff, consumed_active hb]
  case rdsys =>
    simp only [exec_rdsys, execRdsys]
    refine State.word_consumed hw ?_
    refine consumed_ite (consumed_trap 0 (by decide)) ?_
    split
    · exact consumed_trap 0 (by decide)
    · exact consumed_active hb
  case ldi | ldhi | rdsp | winld | rdtag | ballot | elect | fence | pget | ptest | pclr =>
    simp only [exec_ldi, exec_ldhi, exec_rdsp, exec_winld, exec_rdtag, exec_ballot, exec_elect, exec_fence, exec_pget,
      exec_ptest, exec_pclr, execLdi, execLdhi, execRdsp, execWinld, execRdtag, execBallot, execElect, execFence, execPget,
      execPtest, execPclr]
    refine State.word_consumed hw ?_
    exact consumed_active hb
  case mov | winsub | retag | cvt | dotk | fclass | ldexp | qshf | qswp | qred | redx | scanx | matchLanes | cpy | barinit |
      pset | pmask | wrsys =>
    simp only [exec_mov, exec_winsub, exec_retag, exec_cvt, exec_dotk, exec_fclass, exec_ldexp, exec_qshf, exec_qswp,
      exec_qred, exec_redx, exec_scanx, exec_matchLanes, exec_cpy, exec_barinit, exec_pset, exec_pmask, exec_wrsys, execMov,
      execWinsub, execRetag, execCvt, execDotk, execFclass, execLdexp, execQshf, execQswp, execQred, execRedx, execScanx,
      execMatchLanes, execCpy, execBarinit, execPset, execPmask, execWrsys]
    refine State.word_consumed hw ?_
    simp [consumed_bind_iff, consumed_active hb]
  all_goals first | exact absurd (show true = false from hu) (by decide) | exact absurd (show false = true from hword) (by decide)

theorem State.word_lane2_poison {s : State} {ins : Instr} {set : Nat → Bool} {chk pass : Bool} {d a b : Sel}
    {f : Issue → Nat → Word → Word → Word} {e : Nat} {x y : Val} (hw : AtWord s ins) (hb : s.iss.guard.pois &&& s.iss.mask ≠ 0#32)
    (he : s.iss.etype a = .ok e) (hs : set e = true) (ht : chk = true → s.iss.checkTags e [a, b] = .ok ()) (hx : s.iss.src e a = .ok x)
    (hy : s.iss.src e b = .ok y) : s.word ins (fun i => i.lane2 ins set chk false d a b pass (f i)) =
      .next (s.trapScene { cls := 15, idx := s.iss.idx, detail := lowLane (s.iss.guard.pois &&& s.iss.mask) }) := by
  refine State.word_trapScene hw ?_
  cases chk
  · simp [Issue.lane2, he, hs, hx, hy, Issue.active_trap hb, bind, Except.bind]
    rfl
  · simp [Issue.lane2, he, hs, hx, hy, Issue.active_trap hb, bind, Except.bind, ht rfl]
    rfl

/-- Settles O34: the words listed by the two-source rule, every governed word by its checks before the guard, every word by the decode
check. -/
theorem badOperandsTrap : Obligations.BadOperandsTrap := by
  unfold Obligations.BadOperandsTrap
  refine ⟨fun s d a b e x y => ?_, fun s i hw hword hu hb => exec_refused hw hword hu hb, fun s i hl hp hword hs he h => ?_⟩
  · intro bad t hb he hx hy hany
    refine ⟨?_, fun hA ht => ?_, fun hF ht => ?_, fun n hw => ?_⟩
    · simp only [logicWords, List.forall_mem_cons, List.not_mem_nil, false_imp_iff, implies_true, and_true]
      refine ⟨fun hw => ?_, fun hw => ?_, fun hw => ?_, fun hw => ?_⟩
      · exact (exec_and ..).trans (State.word_lane2_poison hw hb he hany nofun hx hy)
      · exact (exec_or ..).trans (State.word_lane2_poison hw hb he hany nofun hx hy)
      · exact (exec_xor ..).trans (State.word_lane2_poison hw hb he hany nofun hx hy)
      · exact (exec_andn ..).trans (State.word_lane2_poison hw hb he hany nofun hx hy)
    · simp only [integerWords, List.forall_mem_cons, List.not_mem_nil, false_imp_iff, implies_true, and_true]
      refine ⟨fun hw => ?_, fun hw => ?_, fun hw => ?_, fun hw => ?_, fun hw => ?_, fun hw => ?_⟩
      · exact (exec_add ..).trans (State.word_lane2_poison hw hb he hA (fun _ => ht) hx hy)
      · exact (exec_sub ..).trans (State.word_lane2_poison hw hb he hA (fun _ => ht) hx hy)
      · exact (exec_mul ..).trans (State.word_lane2_poison hw hb he hA (fun _ => ht) hx hy)
      · exact (exec_min ..).trans (State.word_lane2_poison hw hb he hA (fun _ => ht) hx hy)
      · exact (exec_max ..).trans (State.word_lane2_poison hw hb he hA (fun _ => ht) hx hy)
      · exact (exec_absd ..).trans (State.word_lane2_poison hw hb he hA (fun _ => ht) hx hy)
    · simp only [floatWords, List.forall_mem_cons, List.not_mem_nil, false_imp_iff, implies_true, and_true]
      refine ⟨fun hw => ?_, fun hw => ?_, fun hw => ?_, fun hw => ?_, fun hw => ?_⟩
      · exact (exec_fadd ..).trans (State.word_lane2_poison hw hb he hF (fun _ => ht) hx hy)
      · exact (exec_fsub ..).trans (State.word_lane2_poison hw hb he hF (fun _ => ht) hx hy)
      · exact (exec_fmul ..).trans (State.word_lane2_poison hw hb he hF (fun _ => ht) hx hy)
      · exact (exec_fmin ..).trans (State.word_lane2_poison hw hb he hF (fun _ => ht) hx hy)
      · exact (exec_fmax ..).trans (State.word_lane2_poison hw hb he hF (fun _ => ht) hx hy)
    · rw [exec_ldi, execLdi]
      refine State.word_trapScene hw ?_
      rw [Issue.active_trap hb]
      rfl
  · obtain ⟨f, hf⟩ := exec_word s hword hs he
    rw [hf]
    have hno : (legal i && fitsRegs s.iss.g.book.regs i) = false := by
      rcases h with h | h <;> simp [h]
    exact State.word_illegal hl hp hno

end Sys2Proof.Machine
end

section
/-! SUPPORT. The words on windows, hops, bindings and system registers, and access words at "execute" and "Check" (R103 to R106, R140 to R166, R311, R312). -/

namespace Sys2Proof.Machine

open Sys2Proof.Claim

/-! Words performed (R37, R103 to R106, R229, R230). -/

/-- A word that no comparison, ordinal or twin concerns: the state is what the word does. -/
theorem State.performOne_plain {s s2 : State} {i : Issue} {o : SOp} {g : Grp} (h : Performs s i o g) (hb : bears o = false)
    (hp : primaryOnly o = false) (hd : s.doOp g { i with pause := false } o = some s2) :
    ∃ j, s.performOne i o = (s2.servedBanks g, j, true) := by
  obtain ⟨hf, ha, hn, hpt, ht⟩ := h
  have huid : g.uid = i.g.uid := State.grp_uid hf
  have hat : s.atPoint g = false := by simp [State.atPoint, hpt]
  have hah : s.primaryAhead g o = false := by simp [State.primaryAhead, hp]
  have hto : s.takeOrdinal g { i with pause := false } o = some (s, { i with pause := false }) := by simp [State.takeOrdinal, hb]
  have hmi (s2 : State) (j : Issue) : s2.mirror g j o = some s2 := by simp [State.mirror, ht]
  unfold State.performOne
  rw [hf]
  dsimp only
  rw [if_neg ha, if_neg (by simp [hn, hat, hah]), if_neg (by simp [ht]), if_neg (by simp [ht]), hto]
  dsimp only
  rw [huid, hf, Option.getD_some, hp, Bool.and_false, if_neg Bool.false_ne_true, hd, Option.bind_some, hmi]
  simp only [ht, Option.isSome_none, Bool.false_and, Bool.false_eq_true, if_false]
  exact ⟨_, rfl⟩

theorem State.servedBanks_grp (s : State) (g : Grp) (u : Nat) : (s.servedBanks g).grp u = s.grp u := rfl

theorem State.servedBanks_readReg (s : State) (g : Grp) (c n : Nat) : (s.servedBanks g).readReg c n = s.readReg c n := rfl

theorem State.doOp_wrsp {s : State} {g : Grp} {i : Issue} {o : SOp} {a : Sel} {n : BitVec 16} (h : o.ins = .wrsp a n) :
    s.doOp g i o = some (s.doWrsp g i n.toNat (o.dw 0)) := by
  rw [State.doOp, h]

theorem State.doOp_wrsys {s : State} {g : Grp} {i : Issue} {o : SOp} {a : Sel} {n : BitVec 16} (h : o.ins = .wrsys a n) :
    s.doOp g i o = some (s.writeReg g.core n.toNat (o.dw 0)) := by
  rw [State.doOp, h]

/-- The words that change a window, a hop, a binding, a special number or a system register. -/
def setsOwn : Instr → Bool
  | .winld _ _ | .winsub _ _ _ _ | .hop _ _ | .qcfg _ _ | .wrsp _ _ | .wrsys _ _ => true
  | _ => false

theorem bears_setsOwn {o : SOp} (h : setsOwn o.ins = true) : bears o = false := by
  unfold setsOwn at h
  split at h <;> simp_all [bears, memForm]

theorem primaryOnly_setsOwn {o : SOp} (h : setsOwn o.ins = true) : primaryOnly o = false := by
  unfold setsOwn at h
  split at h <;> simp_all [primaryOnly, comparesAt, memForm]

/-- What such a word leaves of its group and of the machine. -/
theorem State.performOne_leaves {s s2 : State} {i : Issue} {o : SOp} {g h : Grp} {p : State → Grp → Prop} (hp : Performs s i o g)
    (hi : setsOwn o.ins = true) (hd : s.doOp g { i with pause := false } o = some s2)
    (hg : s2.grp i.g.uid = some h) (hm : s2.mem = s.mem) (hph : p (s2.servedBanks g) h) :
    ∃ t j h, s.performOne i o = (t, j, true) ∧ t.grp i.g.uid = some h ∧ t.mem = s.mem ∧ p t h := by
  obtain ⟨j, hj⟩ := State.performOne_plain hp (bears_setsOwn hi) (primaryOnly_setsOwn hi) hd
  exact ⟨_, j, h, hj, hg, hm, hph⟩

theorem Grp.hopReg_setH (g : Grp) (n : Nat) (x : BitVec 4) (h : n < 16) : (g.setH n x).hopReg n = x.toNat := by
  simp [Grp.hopReg, Grp.setH, h]

theorem Grp.hopReg_setH_other (g : Grp) (n k : Nat) (x : BitVec 4) (h : k ≠ n) : (g.setH n x).hopReg k = g.hopReg k := by
  simp [Grp.hopReg, Grp.setH, h.symm]

theorem Grp.qbind_setQ (g : Grp) (n : Nat) (x : QBind) (h : n < 16) : (g.setQ n x).qbind n = x := by
  simp [Grp.qbind, Grp.setQ, h]

theorem Grp.qbind_setQ_other (g : Grp) (n k : Nat) (x : QBind) (h : k ≠ n) : (g.setQ n x).qbind k = g.qbind k := by
  simp [Grp.qbind, Grp.setQ, h.symm]

/-- The one bit of a hop's value, found from below (R226). -/
theorem find_two_pow {l : Nat} (hl : l < 16) : (List.range 16).find? (fun j => 2 ^ l == 2 ^ j) = some l := by
  interval_cases l <;> rfl

/-- A change of the one fragment that has a mask, in slot 0. -/
theorem Grp.updFrag_slot0 {g : Grp} {m : Word} {f : Slot → Slot} (hm : g.slot0.mask = m) (hs : g.slot0.st ≠ .empty)
    (h1 : g.slot1.mask ≠ m) (hst : g.stack = []) : g.updFrag m f = { g with slot0 := f g.slot0 } := by
  have h0 : (g.slot0.mask == m && g.slot0.st != .empty) = true := by simp [hm, hs]
  have h1' : (g.slot1.mask == m && g.slot1.st != .empty) = false := by simp [h1]
  simp only [Grp.updFrag, h0, h1', hst, if_true, Bool.false_eq_true, if_false, List.map_nil]

/-! Bindings (R230). -/

theorem State.doQcfg_groups (s : State) (g : Grp) (n : Nat) (kind : QKind) :
    (s.doQcfg g n kind).groups = (s.updGrp g.uid fun x => x.setQ n { kind := kind, lost := false }).groups := by
  simp only [State.doQcfg]
  split <;> rfl

theorem serveQueue_empty {q : Queue} (h : q.entries = []) (n : Nat) (out : List Pending) : serveQueue n q out = (q, out) := by
  cases n with
  | zero => rfl
  | succ n => simp only [serveQueue, h]

theorem State.eng_setEng {s : State} {e : EngBlock} {gang coreIdx : Nat} (hg : e.gang = gang) (hc : e.coreIdx = coreIdx) :
    (s.setEng e).eng gang coreIdx = e := by
  subst hg hc
  simp [State.eng, State.setEng]

theorem State.eng_id (s : State) (gang coreIdx : Nat) :
    (s.eng gang coreIdx).gang = gang ∧ (s.eng gang coreIdx).coreIdx = coreIdx := by
  unfold State.eng
  cases h : s.engs.find? fun e => e.gang == gang && e.coreIdx == coreIdx with
  | none => exact ⟨rfl, rfl⟩
  | some e =>
    have := List.find?_some h
    rw [Bool.and_eq_true, beq_iff_eq, beq_iff_eq] at this
    exact this

/-- A queue of a core's engine block after a change of it and the pops that the change serves (R218). -/
theorem State.queue_updQueue (s : State) (gang coreIdx n : Nat) (f : Queue → Queue) : (s.updQueue gang coreIdx n f).queue gang coreIdx n =
    (serveQueue (f (s.queue gang coreIdx n)).pops.length (f (s.queue gang coreIdx n)) []).1 := by
  obtain ⟨hg, hc⟩ := s.eng_id gang coreIdx
  have he (qs : Tbl Queue) : (s.setEng { s.eng gang coreIdx with queues := qs }).eng gang coreIdx = { s.eng gang coreIdx with queues := qs } :=
    State.eng_setEng hg hc
  exact (congrArg (fun e => tget e.queues n {}) (he _)).trans (tget_tset_same ..)

/-- With no binding left in the block, the queue of the core is empty. -/
theorem State.doQcfg_unbound {s : State} {g : Grp} {n : Nat}
    (h : ∀ y ∈ (s.doQcfg g n .unbound).groups, y.gang = g.gang → y.coreIdx = g.coreIdx → y.place = .ended ∨ (y.qbind n).kind = .unbound) :
    ((s.doQcfg g n .unbound).queue g.gang g.coreIdx n).entries = [] := by
  rw [State.doQcfg_groups] at h
  have hno : ((QKind.unbound != .unbound) || (s.updGrp g.uid fun x => x.setQ n { kind := .unbound, lost := false }).groups.any fun x =>
      x.gang == g.gang && x.coreIdx == g.coreIdx && x.place != .ended && (x.qbind n).kind != .unbound) = false := by
    rw [Bool.or_eq_false_iff]
    refine ⟨rfl, List.any_eq_false.2 fun y hy => ?_⟩
    simp only [Bool.and_eq_true, beq_iff_eq, bne_iff_ne, not_and, not_not, and_imp]
    intro h1 h2 h3
    exact (h y hy h1 h2).resolve_left h3
  simp only [State.doQcfg]
  rw [if_neg (by rw [hno]; exact Bool.false_ne_true), State.queue_updQueue, serveQueue_empty rfl]

/-! System registers (R303, R372, R392). -/

theorem setField_byte2 (x : Word) : setField x 23 16 0 = x &&& 0xFF00_FFFF#32 := by
  have hx : x = x.extractLsb' 24 8 ++ (x.extractLsb' 16 8 ++ x.extractLsb' 0 16) := by
    apply BitVec.eq_of_toNat_eq
    have := x.isLt
    simp only [Laws.toNat_app, Laws.toNat_ext]
    omega
  have hand : x &&& 0xFF00_FFFF#32 = x.extractLsb' 24 8 ++ (0#8 ++ x.extractLsb' 0 16) :=
    calc x &&& 0xFF00_FFFF#32
      _ = (x.extractLsb' 24 8 ++ (x.extractLsb' 16 8 ++ x.extractLsb' 0 16)) &&& (BitVec.allOnes 8 ++ (0#8 ++ BitVec.allOnes 16)) :=
        congrArg (· &&& 0xFF00_FFFF#32) hx
      _ = (x.extractLsb' 24 8 &&& BitVec.allOnes 8) ++ ((x.extractLsb' 16 8 &&& 0#8) ++ (x.extractLsb' 0 16 &&& BitVec.allOnes 16)) :=
        BitVec.and_append.trans (congrArg (_ ++ ·) BitVec.and_append)
      _ = x.extractLsb' 24 8 ++ (0#8 ++ x.extractLsb' 0 16) := by rw [BitVec.and_allOnes, BitVec.and_zero, BitVec.and_allOnes]
  rw [hand]
  apply BitVec.eq_of_toNat_eq
  have := x.isLt
  simp only [setField, bits, Laws.toNat_app, Laws.toNat_ext, BitVec.toNat_ofNat, Nat.shiftRight_eq_div_pow]
  omega

theorem bits_setField_low8 (x : Word) (v : Nat) :
    bits (setField x 7 0 v) 7 0 = v % 2 ^ 8 ∧ bits (setField x 7 0 v) 31 8 = bits x 31 8 := by
  have := x.isLt
  simp only [setField, bits, BitVec.toNat_ofNat, Nat.shiftRight_eq_div_pow]
  omega

/-- The registers of R303 that a write changes alone: the write is read back, and no group and nothing in memory changes. -/
theorem State.writeReg_plain (s : State) (core : Nat) (x : Word) {n : Nat} (hn : n ∈ [0x012, 0x013, 0x018, 0x020, 0x028]) :
    (s.writeReg core n x).groups = s.groups ∧ (s.writeReg core n x).mem = s.mem ∧ (s.writeReg core n x).readReg core n = some x := by
  fin_cases hn
  · exact ⟨rfl, rfl, by simp [State.writeReg, State.readReg]⟩
  · exact ⟨rfl, rfl, by simp [State.writeReg, State.readReg]⟩
  · exact ⟨rfl, rfl, by simp [State.writeReg, State.readReg]⟩
  · exact ⟨rfl, rfl, by simp [State.writeReg, State.readReg]⟩
  · exact ⟨rfl, rfl, by simp [State.writeReg, State.readReg]⟩

theorem State.writeCombtest_groups (s : State) (d : Nat) (x : Word) : (s.writeCombtest d x).groups = s.groups := by
  unfold State.writeCombtest
  split <;> rfl

theorem State.combtest_writeCombtest (s : State) (d : Nat) (x : Word) :
    ((s.writeCombtest d x).die d).combtest = if bits x 1 0 = 3 then x &&& 0xFF00_FFFF#32 else x := by
  unfold State.writeCombtest
  split
  · rw [← setField_byte2]
    exact congrArg DieState.combtest (s.die_updDie d fun y => { y with combtest := setField x 23 16 0 })
  · exact congrArg DieState.combtest (State.die_updDie ..)

/-! Windows cut (R105). -/

/-- The fields of a descriptor put together (R137): each reads back. -/
theorem window_digits {c b m r : Nat} (hc : c < 2 ^ 15) (hb : b < 2 ^ 49) (hm : m < 2 ^ 7) (hr : r < 2 ^ 57) :
    let v := c * 2 ^ 113 + b * 2 ^ 64 + m * 2 ^ 57 + r
    v < 2 ^ 128 ∧ v % 2 ^ 57 = r ∧ v / 2 ^ 64 % 2 ^ 49 = b ∧ v / 2 ^ 113 % 2 ^ 15 = c := by
  norm_num at *
  omega

/-- The descriptor that winsub makes, field by field. -/
theorem Ck.winsub_value (w : BitVec 128) {b base : Nat} (hb : b < 2 ^ 49) :
    let v : BitVec 128 := BitVec.ofNat 128 (w.toNat / 2 ^ 113 * 2 ^ 113 + b * 2 ^ 64 + w.toNat / 2 ^ 57 % 128 * 2 ^ 57 + base % 2 ^ 57)
    (v.extractLsb' 0 57).toNat = base % 2 ^ 57 ∧ (v.extractLsb' 64 49).toNat = b ∧ v.extractLsb' 113 15 = w.extractLsb' 113 15 := by
  have hc : w.toNat / 2 ^ 113 < 2 ^ 15 := Nat.div_lt_of_lt_mul (by rw [← Nat.pow_add]; exact w.isLt)
  obtain ⟨hlt, h1, h2, h3⟩ := window_digits hc hb (Nat.mod_lt (w.toNat / 2 ^ 57) (by decide : 0 < 2 ^ 7)) (Nat.mod_lt base (Nat.two_pow_pos 57))
  generalize w.toNat / 2 ^ 113 * 2 ^ 113 + b * 2 ^ 64 + w.toNat / 2 ^ 57 % 2 ^ 7 * 2 ^ 57 + base % 2 ^ 57 = v at hlt h1 h2 h3
  refine ⟨?_, ?_, BitVec.eq_of_toNat_eq ?_⟩ <;>
    rw [BitVec.extractLsb'_toNat, BitVec.toNat_ofNat, Nat.mod_eq_of_lt hlt, Nat.shiftRight_eq_div_pow]
  · rw [Nat.pow_zero, Nat.div_one, h1]
  · exact h2
  · rw [h3, BitVec.extractLsb'_toNat, Nat.shiftRight_eq_div_pow, Nat.mod_eq_of_lt hc]

/-- Settles O22: the words' checks, what each does at perform, and the descriptor that winsub makes. -/
theorem systemWordsAct : Obligations.SystemWordsAct := by
  unfold Obligations.SystemWordsAct
  refine ⟨fun s a b x y hx hy => ?_, fun s i o g hp => ?_, fun k o src d a b ho => ?_⟩
  · dsimp only
    refine ⟨fun n hn hw => ?_, fun hw => ?_, fun w n hg hw => ?_, fun src d hg hw => ?_, fun d n v hg hs hr hw => ?_, fun n hg hs hw => ?_,
      fun d n hs hw => ?_, fun n hs hw => ?_⟩
    · have hok : (n == 19#16 || (s.iss.g.slot s.iss.slot).handler) = true := by
        rw [Bool.or_eq_true, beq_iff_eq]
        exact hn
      rw [exec_wrsp, execWrsp]
      refine State.word_went hw ?_
      simp only [hok, hx, Issue.need_true, bind, Except.bind]
    · exact (exec_sigck ..).trans (State.word_went hw rfl)
    · rw [exec_winld, execWinld]
      refine State.word_went hw ?_
      simp only [Issue.active_ok hg, bind, Except.bind]
      rfl
    · rw [exec_winsub, execWinsub]
      refine State.word_went hw ?_
      simp only [hx, hy, Issue.active_ok hg, bind, Except.bind]
      rfl
    · rw [exec_rdsys, execRdsys]
      refine State.word_went hw ?_
      simp only [hs, hr, Issue.active_ok hg, bind, Except.bind, Bool.true_eq_false, if_false]
      rfl
    · rw [exec_wrsys, execWrsys]
      refine State.word_went hw ?_
      simp only [hs, hx, Issue.active_ok hg, bind, Except.bind, Bool.true_eq_false, if_false]
      rfl
    · rw [exec_rdsys, execRdsys]
      refine State.word_trapScene hw ?_
      simp only [hs, if_true]
      rfl
    · rw [exec_wrsys, execWrsys]
      refine State.word_trapScene hw ?_
      simp only [hs, if_true]
      rfl
  · have huid : g.uid = i.g.uid := State.grp_uid hp.found
    have hx (f : Grp → Grp) (hf : (f g).uid = g.uid) : (s.updGrp g.uid f).grp i.g.uid = some (f g) := by
      rw [huid]
      exact State.grp_updGrp hp.found (hf.trans huid)
    dsimp only
    refine ⟨fun w n ho => ?_, fun src w a b ho => ?_, fun r a l ho hl hv => ?_, fun q a ho => ?_, fun a ho => ?_, fun a ho => ?_, fun a ho hm hs hm1 hst => ?_,
      fun a n hn ho hc => ?_, fun a ho hc => ?_, fun a ho => ?_⟩
    · refine State.performOne_leaves hp (by rw [ho]; rfl) (by rw [State.doOp, ho]) (hx _ rfl) rfl ?_
      exact ⟨rfl, Grp.window_setW _ _ _ w.isLt, fun k hk => Grp.window_setW_other _ _ _ _ fun h => hk (BitVec.eq_of_toNat_eq h)⟩
    · refine State.performOne_leaves hp (by rw [ho]; rfl) (by rw [State.doOp, ho]) (hx _ rfl) rfl ?_
      exact ⟨rfl, Grp.window_setW _ _ _ w.isLt, fun k hk => Grp.window_setW_other _ _ _ _ fun h => hk (BitVec.eq_of_toNat_eq h)⟩
    · refine State.performOne_leaves hp (by rw [ho]; rfl) (by rw [State.doOp, ho]) (hx _ rfl) rfl ?_
      have hv' : (o.dw 0).toNat = 2 ^ l := hv
      rw [hv', find_two_pow hl]
      refine ⟨rfl, (Grp.hopReg_setH _ _ _ r.isLt).trans ?_, fun k hk => Grp.hopReg_setH_other _ _ _ _ fun h => hk (BitVec.eq_of_toNat_eq h)⟩
      exact Nat.mod_eq_of_lt hl
    · refine State.performOne_leaves hp (by rw [ho]; rfl) (by rw [State.doOp, ho]) (h := g.setQ q.toNat { kind := qcfgKind (o.dw 0), lost := false }) 
        ?_ (State.doQcfg_mem ..) ?_
      · exact (congrArg (List.find? _) (State.doQcfg_groups ..)).trans (hx _ rfl)
      · refine ⟨rfl, Grp.qbind_setQ _ _ _ q.isLt, fun k hk => Grp.qbind_setQ_other _ _ _ _ fun h => hk (BitVec.eq_of_toNat_eq h), fun hu hall => ?_⟩
        have hu' : qcfgKind (o.dw 0) = .unbound := hu
        rw [hu'] at hall ⊢
        exact State.doQcfg_unbound hall
    · exact State.performOne_leaves hp (by rw [ho]; rfl) (State.doOp_wrsp ho) (hx (fun y => { y with trapInfo := o.dw 0 }) rfl) rfl rfl
    · exact State.performOne_leaves hp (by rw [ho]; rfl) (State.doOp_wrsp ho) (hx (fun y => { y with trapPc := o.dw 0 }) rfl) rfl rfl
    · refine State.performOne_leaves hp (by rw [ho]; rfl) (State.doOp_wrsp ho) (hx (fun y => y.updFrag i.mask fun z => { z with mode := o.dw 0 }) rfl) rfl ?_
      exact Grp.updFrag_slot0 hm hs hm1 hst
    · have hn' : n.toNat ∈ [0x012, 0x013, 0x018, 0x020, 0x028] := by fin_cases hn <;> decide
      obtain ⟨hgr, hmem, hrd⟩ := State.writeReg_plain s g.core (o.dw 0) hn'
      exact State.performOne_leaves hp (by rw [ho]; rfl) (State.doOp_wrsys ho) ((congrArg (List.find? _) hgr).trans hp.found) hmem ⟨rfl, hrd⟩
    · refine State.performOne_leaves hp (by rw [ho]; rfl) (State.doOp_wrsys ho)
        ((congrArg (List.find? _) (State.writeCombtest_groups ..)).trans hp.found) (State.writeCombtest_mem ..) ⟨rfl, ?_⟩
      exact congrArg some (State.combtest_writeCombtest ..)
    · refine State.performOne_leaves hp (by rw [ho]; rfl) (State.doOp_wrsys ho) hp.found rfl ⟨rfl, ?_⟩
      have hc : (((s.writeReg g.core 0x010 (o.dw 0)).servedBanks g).core g.core).margin
          = setField (s.core g.core).margin 7 0 (bits (o.dw 0) 7 0) := 
        congrArg CoreState.margin (s.core_updCore g.core fun c => { c with margin := setField c.margin 7 0 (bits (o.dw 0) 7 0) })
      obtain ⟨h1, h2⟩ := bits_setField_low8 (s.core g.core).margin (bits (o.dw 0) 7 0)
      have hb : bits (o.dw 0) 7 0 % 2 ^ 8 = bits (o.dw 0) 7 0 := Nat.mod_mod ..
      exact ⟨(congrArg (bits · 7 0) hc).trans (h1.trans hb), (congrArg (bits · 31 8) hc).trans h2⟩
  · dsimp only
    have hact : k.acting o = k.winsub o src.toNat := by rw [Ck.acting, ho]
    rw [hact]
    unfold Ck.winsub
    dsimp only
    refine ⟨fun hc => ?_, fun hc hl => ?_, fun p hpo => ?_⟩
    · rw [if_pos hc]; rfl
    · rw [hc, if_neg Bool.false_ne_true, if_pos (.inl hl)]; rfl
    · split at hpo
      · cases hpo
      · split at hpo
        · cases hpo
        · next hno =>
          cases hpo
          rw [not_or, not_lt] at hno
          have hlim : winLimit (k.g.window src.toNat) < 2 ^ 49 := BitVec.isLt _
          obtain ⟨h1, h2, h3⟩ := Ck.winsub_value (k.g.window src.toNat) (b := (o.desc.getD 1 0#32).toNat) (base := winBase (k.g.window src.toNat) + (o.desc.getD 0 0#32).toNat)
            (by omega)
          exact ⟨rfl, h1, h2, h3⟩

/-! Access words (R156 to R166): what they leave for "Check". -/

theorem accessLanes_eq (d a : Sel) (m : Word) : accessLanes d a m =
    if (kindOf d = .s ∨ kindOf d = .k) ∧ (kindOf a = .s ∨ kindOf a = .k) ∧ m ≠ 0#32 then BitVec.ofNat 32 (2 ^ lowLane m) else m := by
  simp only [accessLanes, uniformAccess, Bool.and_eq_true, Bool.or_eq_true, beq_iff_eq, bne_iff_ne, and_assoc]

theorem Issue.dataOf_registers {i : Issue} {d : Sel} (h : kindOf d ≠ .k) (n : Nat) : i.dataOf d n =
    .ok ((Sel.run d n).map fun r => (i.val r).lanes, (Sel.run d n).foldl (fun p r => p ||| (i.val r).pois) 0#32) := by
  cases d
  case k n => exact absurd rfl h
  all_goals simp only [Issue.dataOf, List.map_map, List.foldl_map, Function.comp_def]

theorem Issue.src_constant {i : Issue} {e : Nat} {n : BitVec 6} {z : Word} (hz : constLane (modeFtz i.mode) e n.toNat = some z) :
    i.src e (.k n) = .ok { lanes := lanesAll z } := by
  simp only [Issue.src, hz]

theorem Issue.dataOf_constant {i : Issue} {n : BitVec 6} {z : Word} (ht : modeEt i.mode ≠ tTAG)
    (hz : constLane (modeFtz i.mode) (modeEt i.mode) n.toNat = some z) (k : Nat) : i.dataOf (.k n) k = .ok ([lanesAll z], 0#32) := by
  simp only [Issue.dataOf, if_neg ht, Issue.src_constant hz]

theorem Issue.loadWord_ok {i : Issue} {ins : Instr} {d a : Sel} {x : Val} (hx : i.count a = .ok x)
    (hg : i.guard.pois &&& i.mask = 0#32) : i.loadWord ins d a = .ok (i.capture
      { ins := ins, act := accessLanes d a (i.mask &&& i.guard.val), off := x.lanes, opois := x.pois }) := by
  simp only [Issue.loadWord, hx, Issue.active_ok hg, bind, Except.bind]

theorem Issue.storeWord_ok {i : Issue} {ins : Instr} {d a : Sel} {n : Nat} {x : Val} {y : List Lanes × Word} (hx : i.count a = .ok x)
    (hy : i.dataOf d n = .ok y) (hg : i.guard.pois &&& i.mask = 0#32) : i.storeWord ins d a n = .ok (i.capture
      { ins := ins, act := accessLanes d a (i.mask &&& i.guard.val), off := x.lanes, opois := x.pois, data := y.1, dpois := y.2 }) := by
  simp only [Issue.storeWord, hx, hy, Issue.active_ok hg, bind, Except.bind]

theorem Issue.atomType_of_etype {i : Issue} {d : Sel} {e : Nat} (h : i.etype d = .ok e) : i.atomType d = e := by
  unfold Issue.etype at h
  unfold Issue.atomType
  dsimp only at h
  by_cases ht : modeEt i.mode = tTAG
  · rw [if_pos ht] at h ⊢
    cases hv : (i.val d).tag with
    | none => rw [hv] at h; cases h
    | some t =>
      rw [hv] at h
      dsimp only at h
      split at h
      · cases h
      · cases h; rfl
  · rw [if_neg ht] at h ⊢
    cases h
    rfl

theorem Issue.atomWord_registers {i : Issue} {ins : Instr} {d a : Sel} {n e : Nat} {x : Val} (he : i.etype d = .ok e)
    (hE : e = tI32 ∨ e = tN32) (hd : kindOf d ≠ .k) (ht : i.checkTags e (Sel.run d n) = .ok ()) (hx : i.count a = .ok x)
    (hg : i.guard.pois &&& i.mask = 0#32) : i.atomWord ins d a n = .ok (i.capture
      { ins := ins, act := accessLanes d a (i.mask &&& i.guard.val), off := x.lanes, opois := x.pois
        data := (Sel.run d n).map fun r => (i.val r).lanes, dpois := (Sel.run d n).foldl (fun p r => p ||| (i.val r).pois) 0#32
        desc := [BitVec.ofNat 32 e] }) := by
  have hok : (e == tI32 || e == tN32) = true := by simpa using hE
  have hy := Issue.dataOf_registers (i := i) hd n
  simp only [Issue.atomWord, Issue.atomType_of_etype he, hok, ht, hx, Issue.active_ok hg, Issue.need_true, bind, Except.bind]
  cases d
  case k n => exact absurd rfl hd
  all_goals rw [hy]

theorem Issue.atomWord_constant {i : Issue} {ins : Instr} {a : Sel} {n e : Nat} {c : BitVec 6} {x : Val} {z : Word} (he : i.etype (.k c) = .ok e)
    (hE : e = tI32 ∨ e = tN32) (hz : constLane (modeFtz i.mode) e c.toNat = some z) (hx : i.count a = .ok x)
    (hg : i.guard.pois &&& i.mask = 0#32) : i.atomWord ins (.k c) a n = .ok (i.capture
      { ins := ins, act := accessLanes (.k c) a (i.mask &&& i.guard.val), off := x.lanes, opois := x.pois
        data := [lanesAll z], desc := [BitVec.ofNat 32 e] }) := by
  have hok : (e == tI32 || e == tN32) = true := by simpa using hE
  have ht : i.checkTags e (Sel.run (.k c) n) = .ok () := rfl
  simp only [Issue.atomWord, Issue.atomType_of_etype he, hok, ht, hx, Issue.src_constant hz, Issue.active_ok hg, Issue.need_true, bind, Except.bind,
    Except.map]

/-! Addresses checked (R140 to R145). -/

theorem lanesOf_find {m : Word} {p : Nat → Bool} {l : Nat} (hl : m.getLsbD l = true) (hp : p l = true)
    (hlow : ∀ j < l, m.getLsbD j = true → p j = false) : (lanesOf m).find? p = some l := by
  have hl32 : l < 32 := by
    by_contra h
    rw [BitVec.getLsbD_of_ge _ _ (not_lt.1 h)] at hl
    cases hl
  rw [lanesOf, List.find?_filter, List.find?_range_eq_some]
  refine ⟨by simp [hl, hp], List.mem_range.2 hl32, fun j hj => ?_⟩
  cases hm : m.getLsbD j
  · rfl
  · simp [hlow j hj hm]

/-- The lanes below an acting lane, then the lane. -/
theorem lanesOf_split {m : Word} {l : Nat} (hl : m.getLsbD l = true) :
    ∃ pre post, lanesOf m = pre ++ l :: post ∧ ∀ j ∈ pre, j < l ∧ m.getLsbD j = true := by
  have hf := lanesOf_find (p := fun j => decide (l ≤ j)) hl (by simp) fun j hj _ => by simp [hj]
  obtain ⟨_, pre, post, heq, hpre⟩ := List.find?_eq_some_iff_append.1 hf
  refine ⟨pre, post, heq, fun j hj => ⟨by simpa using hpre j hj, ?_⟩⟩
  have : j ∈ lanesOf m := by rw [heq]; exact List.mem_append_left _ hj
  exact (mem_lanesOf.1 this).2

/-- The lowest acting lane of which something holds, in a list that carries a value beside each lane. -/
theorem find_lanes {α : Type} {m : Word} {f : Nat → α} {q : α → Bool} {l : Nat} (hl : m.getLsbD l = true) (hq : q (f l) = true)
    (hlow : ∀ j < l, m.getLsbD j = true → q (f j) = false) : ((lanesOf m).map f).find? q = some (f l) := by
  rw [List.find?_map, lanesOf_find (p := q ∘ f) hl hq hlow]
  rfl

theorem find_lanes_none {α : Type} {m : Word} {f : Nat → α} {q : α → Bool} (h : ∀ l, m.getLsbD l = true → q (f l) = false) :
    ((lanesOf m).map f).find? q = none := by
  rw [List.find?_eq_none]
  intro x hx
  obtain ⟨l, hl, rfl⟩ := List.mem_map.1 hx
  rw [h l (mem_lanesOf.1 hl).2]
  exact Bool.false_ne_true

theorem State.reach_of_reaches {s : State} {g : Grp} {space va : Nat} {t : Target} (h : Reaches s g space va t) (idx lane access : Nat) :
    s.reach g idx lane access space va = .ok t := by
  unfold State.reach
  rcases h with ⟨rfl, rfl⟩ | ⟨rfl, rfl⟩ | ⟨h1, h2, pa, e, ht, rfl⟩
  · rfl
  · rfl
  · split
    · contradiction
    · contradiction
    · rw [ht]

theorem State.reach_of_trap {s : State} {g : Grp} {space va kd st lev : Nat} (h1 : space ≠ 1) (h2 : space ≠ 2)
    (h : s.translate g.core g.part g.system va = .error (.trap kd st lev)) (idx lane access : Nat) :
    let r := faultDwords va kd st access lev
    s.reach g idx lane access space va = .error (.trap { cls := 8, idx := idx, detail := lane, fva := r.1, finfo := r.2 }) := by
  unfold State.reach
  split
  · contradiction
  · contradiction
  · rw [h]; rfl

theorem State.reachAll_ok {s : State} {g : Grp} {space base : Nat} {tgt : Nat → Target} {ls : List (Nat × Nat)}
    (h : ∀ e ∈ ls, Reaches s g space (base + e.2) (tgt e.1)) (idx access : Nat) : s.reachAll g idx access space base ls =
      .ok (ls.map fun e => { lane := e.1, va := base + e.2, tgt := tgt e.1 }) := by
  induction ls with
  | nil => rfl
  | cons e r ih =>
    obtain ⟨l, rel⟩ := e
    rw [State.reachAll, State.reach_of_reaches (h (l, rel) List.mem_cons_self), ih fun e he => h e (List.mem_cons_of_mem _ he)]
    rfl

/-- The first access of a list that fails is the list's failure. -/
theorem State.reachAll_error {s : State} {g : Grp} {space base idx access l rel : Nat} {pre post : List (Nat × Nat)} {e : Stop}
    (hpre : ∀ x ∈ pre, ∃ t, Reaches s g space (base + x.2) t) (he : s.reach g idx l access space (base + rel) = .error e) :
    s.reachAll g idx access space base (pre ++ (l, rel) :: post) = .error e := by
  induction pre with
  | nil => rw [List.nil_append, State.reachAll, he]
  | cons x r ih =>
    obtain ⟨t, ht⟩ := hpre x List.mem_cons_self
    rw [List.cons_append, State.reachAll, State.reach_of_reaches ht, ih fun y hy => hpre y (List.mem_cons_of_mem _ hy)]

theorem Ck.acting_memory {k : Ck} {o : SOp} {w disp size : Nat} {kind : AccKind} (h : memForm o.ins = some (w, disp, size, kind)) :
    k.acting o = k.memory o w disp size kind := by
  unfold Ck.acting
  split <;> first | (rename_i hi; rw [hi] at h; cases h; done) | rw [h]


/-- Check's rules of an access's window, alignment, translation and page rights, one per outcome (R140 to R145). -/
theorem State.checkAccess_window {s : State} {g : Grp} {idx access size l : Nat} {w : BitVec 128} {kind : AccKind} {m : Word} {off : Nat → Nat}
    (hl : m.getLsbD l = true) (hout : winLimit w < off l + size) (hlow : ∀ j < l, m.getLsbD j = true → off j + size ≤ winLimit w) :
    s.checkAccess g idx w kind access size ((lanesOf m).map fun l => (l, off l)) = .error (.trap { cls := 5, idx := idx, detail := l }) := by
  rw [State.checkAccess, find_lanes (q := fun e : Nat × Nat => decide (winLimit w < e.2 + size)) hl (decide_eq_true hout)
    fun j hj hm => decide_eq_false (not_lt.2 (hlow j hj hm))]
  rfl

section
variable {s : State} {g : Grp} {idx access size l : Nat} {w : BitVec 128} {kind : AccKind} {m : Word} {off : Nat → Nat}
  (hin : ∀ l, m.getLsbD l = true → off l + size ≤ winLimit w)
include hin

theorem State.checkAccess_inside : ((lanesOf m).map fun l => (l, off l)).find? (fun e => decide (winLimit w < e.2 + size)) = none :=
  find_lanes_none fun l hl => decide_eq_false (not_lt.2 (hin l hl))

theorem State.checkAccess_align (hl : m.getLsbD l = true) (hout : (winBase w + off l) % size ≠ 0)
    (hlow : ∀ j < l, m.getLsbD j = true → (winBase w + off j) % size = 0) :
    s.checkAccess g idx w kind access size ((lanesOf m).map fun l => (l, off l)) = .error (.trap { cls := 6, idx := idx, detail := l }) := by
  rw [State.checkAccess, State.checkAccess_inside hin]
  dsimp only
  rw [find_lanes (q := fun e : Nat × Nat => (winBase w + e.2) % size != 0) hl (bne_iff_ne.2 hout) fun j hj hm => by simp [hlow j hj hm]]
  rfl

variable (hal : ∀ l, m.getLsbD l = true → (winBase w + off l) % size = 0)
include hal

omit hin in
theorem State.checkAccess_aligned : ((lanesOf m).map fun l => (l, off l)).find? (fun e => (winBase w + e.2) % size != 0) = none :=
  find_lanes_none fun l hl => by simp [hal l hl]

/-- Past the bound and the alignment, an access is its translation, its page's rights and the memory behind it. -/
theorem State.checkAccess_reached : s.checkAccess g idx w kind access size ((lanesOf m).map fun l => (l, off l)) =
    match s.reachAll g idx access (winSpace w) (winBase w) ((lanesOf m).map fun l => (l, off l)) with
    | .error e => .error e
    | .ok accs =>
      match accs.find? fun a => !attrOk kind (winSpace w) a.tgt.cls with
      | some a => .error (.trap { cls := clsAttribute, idx := idx, detail := a.lane })
      | none =>
        match accs.findSome? fun a => s.targetFault a.tgt size with
        | some f => .error (.fault f)
        | none => .ok (accs.map fun a => { a with size := size }) := by
  rw [State.checkAccess, State.checkAccess_inside hin]
  dsimp only
  rw [State.checkAccess_aligned hal] <;> rfl

theorem State.checkAccess_translation {e : Stop} (hl : m.getLsbD l = true) (he : s.reach g idx l access (winSpace w) (winBase w + off l) = .error e)
    (hlow : ∀ j < l, m.getLsbD j = true → ∃ t, Reaches s g (winSpace w) (winBase w + off j) t) :
    s.checkAccess g idx w kind access size ((lanesOf m).map fun l => (l, off l)) = .error e := by
  obtain ⟨pre, post, heq, hpre⟩ := lanesOf_split hl
  rw [State.checkAccess_reached hin hal, heq, List.map_append, List.map_cons, State.reachAll_error _ he]
  intro x hx
  obtain ⟨j, hj, rfl⟩ := List.mem_map.1 hx
  exact hlow j (hpre j hj).1 (hpre j hj).2

variable {tgt : Nat → Target} (hr : ∀ l, m.getLsbD l = true → Reaches s g (winSpace w) (winBase w + off l) (tgt l))
include hr

omit hin hal in
theorem State.checkAccess_reachAll : s.reachAll g idx access (winSpace w) (winBase w) ((lanesOf m).map fun l => (l, off l)) =
    .ok ((lanesOf m).map fun l => { lane := l, va := winBase w + off l, tgt := tgt l }) := by
  rw [State.reachAll_ok (tgt := tgt), List.map_map]
  · rfl
  · intro x hx
    obtain ⟨j, hj, rfl⟩ := List.mem_map.1 hx
    exact hr j (mem_lanesOf.1 hj).2

theorem State.checkAccess_attribute (hl : m.getLsbD l = true) (hno : attrOk kind (winSpace w) (tgt l).cls = false)
    (hlow : ∀ j < l, m.getLsbD j = true → attrOk kind (winSpace w) (tgt j).cls = true) :
    s.checkAccess g idx w kind access size ((lanesOf m).map fun l => (l, off l)) = .error (.trap { cls := 7, idx := idx, detail := l }) := by
  rw [State.checkAccess_reached hin hal, State.checkAccess_reachAll hr]
  dsimp only
  rw [find_lanes (f := fun l => ({ lane := l, va := winBase w + off l, tgt := tgt l } : Acc)) (q := fun a => !attrOk kind (winSpace w) a.tgt.cls) hl
    (by simp [hno]) fun j hj hm => by simp [hlow j hj hm]]
  rfl

theorem State.checkAccess_ok
    (hok : ∀ l, m.getLsbD l = true → attrOk kind (winSpace w) (tgt l).cls = true ∧ s.targetFault (tgt l) size = none) :
    s.checkAccess g idx w kind access size ((lanesOf m).map fun l => (l, off l)) =
      .ok ((lanesOf m).map fun l => { lane := l, va := winBase w + off l, tgt := tgt l, size := size }) := by
  rw [State.checkAccess_reached hin hal, State.checkAccess_reachAll hr]
  dsimp only
  have hf : ((lanesOf m).map fun l => ({ lane := l, va := winBase w + off l, tgt := tgt l } : Acc)).findSome?
      (fun a => s.targetFault a.tgt size) = none := by
    rw [List.findSome?_eq_none_iff]
    intro x hx
    obtain ⟨j, hj, rfl⟩ := List.mem_map.1 hx
    exact (hok j (mem_lanesOf.1 hj).2).2
  rw [find_lanes_none (f := fun l => ({ lane := l, va := winBase w + off l, tgt := tgt l } : Acc)) (q := fun a => !attrOk kind (winSpace w) a.tgt.cls)
    fun l hl => by simp [(hok l hl).1]]
  dsimp only
  rw [hf, List.map_map]
  rfl

end

/-- The offsets in a window that a word's lanes reach (R140). -/
def laneOffset (o : SOp) (disp size l : Nat) : Nat := (laneAt o.off l).toNat + disp * size

theorem Ck.memory_stop {k : Ck} {o : SOp} {w disp size : Nat} {kind : AccKind} {e : Stop} (hb : o.act &&& (o.opois ||| o.dpois) = 0#32)
    (h : k.s.checkAccess k.g o.idx (k.g.window w) kind kind.code size ((lanesOf o.act).map fun l => (l, laneOffset o disp size l)) = .error e) :
    k.memory o w disp size kind = .error e := by
  unfold Ck.memory
  dsimp only
  rw [if_neg (not_not.2 hb)]
  simp only [laneOffset] at h
  simp only [relOf, h]

theorem Ck.memory_go {k : Ck} {o : SOp} {w disp size : Nat} {kind : AccKind} {accs : List Acc} (hb : o.act &&& (o.opois ||| o.dpois) = 0#32)
    (h : k.s.checkAccess k.g o.idx (k.g.window w) kind kind.code size ((lanesOf o.act).map fun l => (l, laneOffset o disp size l)) = .ok accs) :
    k.memory o w disp size kind = .ok ({ o with accs := accs.map fun a =>
      { a with data := BitVec.ofNat 128 ((o.data.zipIdx.map fun x => (laneAt x.1 a.lane).toNat * 2 ^ (32 * x.2)).sum % 2 ^ (8 * size))
               data2 := laneAt (o.data.getD 1 (lanesAll 0#32)) a.lane } }, k) := by
  unfold Ck.memory
  dsimp only
  rw [if_neg (not_not.2 hb)]
  simp only [laneOffset] at h
  simp only [relOf, h]

/-! Translations (R336 to R340). -/

theorem leafSize_of {level span n : Nat} (hs : span < 4) (h : (level = 1 ∧ n = 4096 * 4 ^ span)
    ∨ (level = 2 ∧ span < 3 ∧ n = 0x20_0000 * 4 ^ span) ∨ (level = 3 ∧ span = 0 ∧ n = 0x4000_0000)) : leafSize level span = some n := by
  rcases h with ⟨rfl, rfl⟩ | ⟨rfl, h3, rfl⟩ | ⟨rfl, rfl, rfl⟩
  · interval_cases span <;> rfl
  · interval_cases span <;> rfl
  · rfl

theorem leafSize_none {level span : Nat} (hs : span < 4)
    (h : level = 0 ∨ 3 < level ∨ (level = 2 ∧ span = 3) ∨ (level = 3 ∧ span ≠ 0)) : leafSize level span = none := by
  unfold leafSize
  split <;> first | rfl | omega

/-- A valid entry whose reserved bits are clear is what its leaf bit, SPAN, level and frame make of it (R338, R339). -/
theorem judgeEntry_clean {e : BitVec 64} {stage level : Nat} (hv : e.getLsbD 0 = true)
    (hc : e.extractLsb' 52 12 = 0#12 ∧ e.extractLsb' 9 3 = 0#3 ∧ e.extractLsb' 6 2 = 0#2
      ∧ (stage = 1 → e.getLsbD 8 = false ∧ e.extractLsb' 4 2 = 0#2)) : judgeEntry e stage level =
    if e.getLsbD 1 = false then
      if level ≤ 1 ∨ (e.extractLsb' 2 2).toNat ≠ 0 then .error 2 else .ok (.inl ((e.extractLsb' 12 40).toNat * 4096))
    else
      match leafSize level (e.extractLsb' 2 2).toNat with
      | none => .error 2
      | some n =>
        if (e.extractLsb' 12 40).toNat * 4096 % n ≠ 0 then .error 2
        else .ok (.inr { frame := (e.extractLsb' 12 40).toNat * 4096, size := n, cls := (e.extractLsb' 4 2).toNat
                         sys := e.getLsbD 8, level := level }) := by
  obtain ⟨h1, h2, h3, h4⟩ := hc
  have hs : ¬(stage = 1 ∧ (e.getLsbD 8 = true ∨ e.extractLsb' 4 2 ≠ 0#2)) := by
    rintro ⟨hst, h⟩
    obtain ⟨ha, hb⟩ := h4 hst
    rw [ha] at h
    exact h.elim Bool.false_ne_true fun h => h hb
  unfold judgeEntry
  dsimp only
  rw [if_neg (by simp [hv]), if_neg (by simp [h1, h2, h3]), if_neg hs] <;> rfl

theorem judgeEntry_dirty {e : BitVec 64} {stage : Nat} (level : Nat) (hv : e.getLsbD 0 = true)
    (hc : ¬(e.extractLsb' 52 12 = 0#12 ∧ e.extractLsb' 9 3 = 0#3 ∧ e.extractLsb' 6 2 = 0#2
      ∧ (stage = 1 → e.getLsbD 8 = false ∧ e.extractLsb' 4 2 = 0#2))) : judgeEntry e stage level = .error 2 := by
  unfold judgeEntry
  dsimp only
  rw [if_neg (by simp [hv])]
  by_cases hr : e.extractLsb' 52 12 ≠ 0#12 ∨ e.extractLsb' 9 3 ≠ 0#3 ∨ e.extractLsb' 6 2 ≠ 0#2
  · rw [if_pos hr]
  · rw [if_neg hr, if_pos]
    simp only [not_or, not_not] at hr
    by_contra hn
    refine hc ⟨hr.1, hr.2.1, hr.2.2, fun hst => ?_⟩
    rw [not_and, not_or, not_not, Bool.not_eq_true] at hn
    exact hn hst

/-- Settles O20: the words by their captures, Check's outcomes in their order, then translation by its entries. -/
theorem accessWordsCaptured : Obligations.AccessWordsCaptured := by
  unfold Obligations.AccessWordsCaptured
  refine ⟨fun s d a w k x hg hx => ?_, fun s d a w k x e hg hx he hE => ?_, fun c o w disp size kind hm => ?_, fun s core part va system e hl => ?_,
    fun s part root va h0 => ?_, fun e stage level => ?_⟩
  · dsimp only
    rw [← accessLanes_eq]
    simp only [loadWords, storeWords, List.forall_mem_cons, List.not_mem_nil, false_imp_iff, implies_true, and_true]
    refine ⟨⟨fun hw => ?_, fun hw => ?_, fun hw => ?_, fun hw => ?_⟩, fun t hw => ?_, ⟨fun hd hw => ?_, fun hd hw => ?_, fun hd hw => ?_, fun hd hw => ?_⟩,
      fun n z hd ht hz hw => ?_, fun n z hd ht hz hw => ?_, fun n z hd ht hz hw => ?_, fun n z hd ht hz hw => ?_⟩
    · exact (exec_ldb ..).trans (State.word_went hw (Issue.loadWord_ok hx hg))
    · exact (exec_ldh ..).trans (State.word_went hw (Issue.loadWord_ok hx hg))
    · exact (exec_ldw ..).trans (State.word_went hw (Issue.loadWord_ok hx hg))
    · exact (exec_ldq ..).trans (State.word_went hw (Issue.loadWord_ok hx hg))
    · exact (exec_pfl ..).trans (State.word_went hw (Issue.loadWord_ok hx hg))
    · exact (exec_stb ..).trans (State.word_went hw (Issue.storeWord_ok hx (Issue.dataOf_registers hd 1) hg))
    · exact (exec_sth ..).trans (State.word_went hw (Issue.storeWord_ok hx (Issue.dataOf_registers hd 1) hg))
    · exact (exec_stw ..).trans (State.word_went hw (Issue.storeWord_ok hx (Issue.dataOf_registers hd 1) hg))
    · exact (exec_stq ..).trans (State.word_went hw (Issue.storeWord_ok hx (Issue.dataOf_registers hd 4) hg))
    · subst hd; exact (exec_stb ..).trans (State.word_went hw (Issue.storeWord_ok hx (Issue.dataOf_constant ht hz 1) hg))
    · subst hd; exact (exec_sth ..).trans (State.word_went hw (Issue.storeWord_ok hx (Issue.dataOf_constant ht hz 1) hg))
    · subst hd; exact (exec_stw ..).trans (State.word_went hw (Issue.storeWord_ok hx (Issue.dataOf_constant ht hz 1) hg))
    · subst hd; exact (exec_stq ..).trans (State.word_went hw (Issue.storeWord_ok hx (Issue.dataOf_constant ht hz 4) hg))
  · dsimp only
    rw [← accessLanes_eq]
    simp only [atomicWords, List.forall_mem_cons, List.not_mem_nil, false_imp_iff, implies_true, and_true]
    refine ⟨⟨fun hd ht hw => ?_, fun hd ht hw => ?_, fun hd ht hw => ?_, fun hd ht hw => ?_, fun hd ht hw => ?_, fun hd ht hw => ?_,
      fun hd ht hw => ?_, fun hd ht hw => ?_, fun hd ht hw => ?_, fun hd ht hw => ?_, fun hd ht hw => ?_, fun hd ht hw => ?_⟩,
      fun n z hd hz hw => ?_, fun n z hd hz hw => ?_, fun n z hd hz hw => ?_, fun n z hd hz hw => ?_, fun n z hd hz hw => ?_,
      fun n z hd hz hw => ?_, fun n z hd hz hw => ?_, fun n z hd hz hw => ?_, fun n z hd hz hw => ?_, fun n z hd hz hw => ?_,
      fun n z hd hz hw => ?_, fun n z hd hz hw => ?_⟩
    · exact (exec_faa ..).trans (State.word_went hw (Issue.atomWord_registers he hE hd ht hx hg))
    · exact (exec_fmn ..).trans (State.word_went hw (Issue.atomWord_registers he hE hd ht hx hg))
    · exact (exec_fmx ..).trans (State.word_went hw (Issue.atomWord_registers he hE hd ht hx hg))
    · exact (exec_fand ..).trans (State.word_went hw (Issue.atomWord_registers he hE hd ht hx hg))
    · exact (exec_fior ..).trans (State.word_went hw (Issue.atomWord_registers he hE hd ht hx hg))
    · exact (exec_fxor ..).trans (State.word_went hw (Issue.atomWord_registers he hE hd ht hx hg))
    · exact (exec_swp ..).trans (State.word_went hw (Issue.atomWord_registers he hE hd ht hx hg))
    · exact (exec_cas ..).trans (State.word_went hw (Issue.atomWord_registers he hE hd ht hx hg))
    · exact (exec_radd ..).trans (State.word_went hw (Issue.atomWord_registers he hE hd ht hx hg))
    · exact (exec_rmin ..).trans (State.word_went hw (Issue.atomWord_registers he hE hd ht hx hg))
    · exact (exec_rmax ..).trans (State.word_went hw (Issue.atomWord_registers he hE hd ht hx hg))
    · exact (exec_ror ..).trans (State.word_went hw (Issue.atomWord_registers he hE hd ht hx hg))
    · subst hd; exact (exec_faa ..).trans (State.word_went hw (Issue.atomWord_constant he hE hz hx hg))
    · subst hd; exact (exec_fmn ..).trans (State.word_went hw (Issue.atomWord_constant he hE hz hx hg))
    · subst hd; exact (exec_fmx ..).trans (State.word_went hw (Issue.atomWord_constant he hE hz hx hg))
    · subst hd; exact (exec_fand ..).trans (State.word_went hw (Issue.atomWord_constant he hE hz hx hg))
    · subst hd; exact (exec_fior ..).trans (State.word_went hw (Issue.atomWord_constant he hE hz hx hg))
    · subst hd; exact (exec_fxor ..).trans (State.word_went hw (Issue.atomWord_constant he hE hz hx hg))
    · subst hd; exact (exec_swp ..).trans (State.word_went hw (Issue.atomWord_constant he hE hz hx hg))
    · subst hd; exact (exec_cas ..).trans (State.word_went hw (Issue.atomWord_constant he hE hz hx hg))
    · subst hd; exact (exec_radd ..).trans (State.word_went hw (Issue.atomWord_constant he hE hz hx hg))
    · subst hd; exact (exec_rmin ..).trans (State.word_went hw (Issue.atomWord_constant he hE hz hx hg))
    · subst hd; exact (exec_rmax ..).trans (State.word_went hw (Issue.atomWord_constant he hE hz hx hg))
    · subst hd; exact (exec_ror ..).trans (State.word_went hw (Issue.atomWord_constant he hE hz hx hg))
  · dsimp only
    rw [Ck.acting_memory hm]
    refine ⟨fun hb => if_pos hb, fun l hb hl hout hlow => ?_, fun l hb hin hl hout hlow => ?_, fun l kd st lev hb hin hal hl h1 h2 ht hlow => ?_,
      fun tgt hb hin hal hr => ⟨fun l hl hno hlow => ?_, fun hok => ?_⟩⟩
    · exact Ck.memory_stop hb (State.checkAccess_window hl hout hlow)
    · exact Ck.memory_stop hb (State.checkAccess_align hin hl hout hlow)
    · exact Ck.memory_stop hb (State.checkAccess_translation hin hal hl (State.reach_of_trap h1 h2 ht ..) hlow)
    · exact Ck.memory_stop hb (State.checkAccess_attribute hin hal hr hl hno hlow)
    · refine ⟨_, Ck.memory_go hb (State.checkAccess_ok hin hal hr hok), ?_, fun a ha => ?_⟩
      · rw [List.map_map, List.map_map]
        exact List.map_id _
      · obtain ⟨b, hb, rfl⟩ := List.mem_map.1 ha
        obtain ⟨j, hj, rfl⟩ := List.mem_map.1 hb
        exact ⟨rfl, rfl, rfl⟩
  · rw [State.translate, hl]
    cases hs : e.sys <;> cases system <;> simp [hs]
  · simp only [State.walk, State.walkWith, h0, if_true]
  · dsimp only
    have hspan : (e.extractLsb' 2 2).toNat < 4 := BitVec.isLt _
    refine ⟨fun hv => ?_, fun hv hd => judgeEntry_dirty level hv hd, fun hv hc hl h2 hs => ?_, fun hv hc hl hb => ?_, fun hv hc hl n hn => ?_,
      fun hv hc hl hn => ?_⟩
    · simp only [judgeEntry, hv, if_true]
    · rw [judgeEntry_clean hv hc, if_pos hl, if_neg (by omega)]
    · rw [judgeEntry_clean hv hc, if_pos hl, if_pos hb]
    · rw [judgeEntry_clean hv hc, if_neg (by simp [hl]), leafSize_of hspan hn]
      exact ite_not ..
    · rw [judgeEntry_clean hv hc, if_neg (by simp [hl]), leafSize_none hspan hn]

end Sys2Proof.Machine
end

section
/-! SUPPORT. A scene's start, its errors by pass, and its trailer (R34 to R37, R48). -/

namespace Sys2Proof.Machine

open Sys2Proof.Claim

/-! Scene headers (R33 to R36, R48). -/

theorem length_updFirst {α : Type} (p : α → Bool) (f : α → α) (xs : List α) : (updFirst p f xs).length = xs.length := by
  induction xs with
  | nil => rfl
  | cons x r ih =>
    rw [updFirst]
    split
    · rfl
    · rw [List.length_cons, List.length_cons, ih]

theorem State.touchTlb_groups (s : State) (core part : Nat) (vas : List Nat) : (s.touchTlb core part vas).groups = s.groups := by
  unfold State.touchTlb
  induction vas generalizing s with
  | nil => rfl
  | cons a r ih =>
    rw [List.foldl_cons, ih]
    split <;> rfl

/-- A header whose fragment is ready to issue does what the scene at its PC is judged to be (R33, R34). -/
theorem exec_scene_ready {s : State} {g : Grp} (len : BitVec 5) (hl : s.iss.live = false) (hg : s.grp s.iss.g.uid = some g)
    (hp : g.place = .resident) (hs : (g.slot s.iss.slot).st = .ready) (hh : (g.slot s.iss.slot).hold = .none)
    (hb : (g.slot s.iss.slot).busy = false) :
    let x := g.slot s.iss.slot
    let v : State := State.touchTlb { s with iss := {} } g.core g.part [g.book.code + x.pc.toNat]
    exec (.scene len) s =
      match v.startScene g x len.toNat with
      | .trap t => .next (v.takeTrap g.uid s.iss.slot t x.pc)
      | .fault f => .fault f
      | .waitEmpty => .next (v.updGrp g.uid fun y => y.updSlot s.iss.slot fun z => { z with hold := .emptyReg })
      | .waitFence k =>
        .next (v.updGrp g.uid fun y => y.updSlot s.iss.slot fun z =>
          { z with st := .waiting, wait := .fence, warg := BitVec.ofNat 32 k })
      | .go ws =>
        .next { (v.updGrp g.uid fun y =>
            { y.updSlot s.iss.slot (fun z => { z with busy := true }) with lastSlot1 := s.iss.slot, scenes := y.scenes + 1 }) with
          iss := beginIssue (v.updGrp g.uid fun y =>
            { y.updSlot s.iss.slot (fun z => { z with busy := true }) with lastSlot1 := s.iss.slot, scenes := y.scenes + 1 }) g s.iss.slot ws
          free := v.free + 320 } := by
  have hready : (g.place != .resident || (g.slot s.iss.slot).st != .ready || (g.slot s.iss.slot).hold != .none
      || (g.slot s.iss.slot).busy) = false := by
    rw [hp, hs, hh, hb]; rfl
  dsimp only
  rw [exec_scene, execScene, hl, hg]
  simp only [hready, Bool.false_eq_true, if_false]
  rfl

/-- Settles O24: the header's checks in their order. -/
theorem headerStartsScene : Obligations.HeaderStartsScene := by
  unfold Obligations.HeaderStartsScene
  intro s g len ws body
  dsimp only
  intro hl hg hp hs hh hb h4 hin h1 h24 hf hws hcw hsc
  have hlen : ¬(len.toNat = 0 ∨ 24 < len.toNat) := by omega
  have hpc : ¬((g.slot s.iss.slot).pc.toNat % 4 ≠ 0 ∨ g.book.codeLen ≤ (g.slot s.iss.slot).pc.toNat) := by omega
  have hgo : State.startScene (State.touchTlb { s with iss := {} } g.core g.part [g.book.code + (g.slot s.iss.slot).pc.toNat]) g
      (g.slot s.iss.slot) len.toNat = .go ws := by
    simp only [State.startScene, if_neg hpc, if_neg hlen, hws, hcw, hsc, hf]
  rw [exec_scene_ready len hl hg hp hs hh hb, hgo]
  refine ⟨_, rfl, rfl, rfl, rfl, rfl, rfl, rfl, rfl, rfl, rfl, rfl, rfl, State.touchTlb_mem .., ?_⟩
  exact (length_updFirst ..).trans (congrArg List.length (State.touchTlb_groups ..))

/-! The three passes (R36). -/

section
variable {regs len fits : Nat} {ws : List Word}

theorem framing_header (h : (ws.getD 0 0#32).toNat / 2 ^ 24 ≠ 1 ∨ len = 0 ∨ 24 < len ∨ (ws.headD 0#32).toNat % 2 ^ 19 ≠ 0) :
    framing len fits ws = some 0 := by
  rw [framing, if_pos h]

theorem checkWords_framing {k : Nat} (h : framing len fits ws = some k) : checkWords regs len fits ws = .error { cls := 1, idx := k } := by
  rw [checkWords, h]
  rfl

/-- A header of its own form, 1 to 24 words long (R34). -/
def GoodHeader (len : Nat) (ws : List Word) : Prop :=
  (ws.getD 0 0#32).toNat / 2 ^ 24 = 1 ∧ 1 ≤ len ∧ len ≤ 24 ∧ (ws.headD 0#32).toNat % 2 ^ 19 = 0

theorem framing_good (h : GoodHeader len ws) : framing len fits ws =
    if fits < len + 2 then some fits
    else
      match ((List.range len).map (· + 1)).find? fun i => (ws.getD i 0#32).toNat / 2 ^ 24 == 1 || (ws.getD i 0#32).toNat / 2 ^ 24 == 2 with
      | some i => some i
      | none => if (ws.getD (len + 1) 0#32).toNat / 2 ^ 24 ≠ 2 then some (len + 1) else none := by
  obtain ⟨h1, h2, h3, h4⟩ := h
  rw [framing, if_neg (by simp only [h1, h4]; omega)] <;> rfl

/-- The first framing word inside a body. -/
theorem find_framing {q : Nat → Bool} {k : Nat} (h1 : 1 ≤ k) (hk : k ≤ len) (hq : q k = true) (hlow : ∀ j, 1 ≤ j → j < k → q j = false) :
    ((List.range len).map (· + 1)).find? q = some k := by
  obtain ⟨j, rfl⟩ : ∃ j, k = j + 1 := ⟨k - 1, by omega⟩
  have hf : (List.range len).find? (q ∘ (· + 1)) = some j := by
    rw [List.find?_range_eq_some]
    exact ⟨hq, List.mem_range.2 (by omega), fun i hi => by simp [hlow (i + 1) (by omega) (by omega)]⟩
  rw [List.find?_map, hf]
  rfl

theorem find_framing_none {q : Nat → Bool} (h : ∀ j, 1 ≤ j → j ≤ len → q j = false) : ((List.range len).map (· + 1)).find? q = none := by
  rw [List.find?_eq_none]
  intro x hx
  obtain ⟨j, hj, rfl⟩ := List.mem_map.1 hx
  rw [h (j + 1) (by omega) (List.mem_range.1 hj)]
  exact Bool.false_ne_true

theorem framing_body (h : GoodHeader len ws) (hf : len + 2 ≤ fits)
    (hb : ∀ j, 1 ≤ j → j ≤ len → (ws.getD j 0#32).toNat / 2 ^ 24 ≠ 1 ∧ (ws.getD j 0#32).toNat / 2 ^ 24 ≠ 2) :
    framing len fits ws = if (ws.getD (len + 1) 0#32).toNat / 2 ^ 24 ≠ 2 then some (len + 1) else none := by
  rw [framing_good h, if_neg (by omega), find_framing_none fun j h1 h2 => by simp only [beq_false_of_ne (hb j h1 h2).1, beq_false_of_ne (hb j h1 h2).2, Bool.or_false]]

end

theorem kindOf_eq_t {r : Sel} : kindOf r = .t ↔ ∃ n, r = .t n := by
  cases r <;> simp [kindOf]

/-- Checks 3 and 4 of a word (R36): a covered destination read or written, a temporary read before it is written. -/
theorem coveredAgain_iff {w : Word} {i : Instr} {x : Seen} :
    ((fieldReads w i).any x.covered.contains || (fieldWrites w i).any x.covered.contains) = true
      ↔ ∃ r, (r ∈ fieldReads w i ∨ r ∈ fieldWrites w i) ∧ r ∈ x.covered := by
  simp only [Bool.or_eq_true, List.any_eq_true, List.contains_iff_mem, or_and_right, exists_or]

theorem tempUnwritten_iff {w : Word} {i : Instr} {x : Seen} :
    ((fieldReads w i).any fun r => kindOf r == .t && !x.temps.contains r) = true
      ↔ ∃ n, Sel.t n ∈ fieldReads w i ∧ Sel.t n ∉ x.temps := by
  simp only [List.any_eq_true, Bool.and_eq_true, beq_iff_eq, Bool.not_eq_true', List.contains_eq_mem, decide_eq_false_iff_not, kindOf_eq_t]
  constructor
  · rintro ⟨r, hr, ⟨n, rfl⟩, ht⟩
    exact ⟨n, hr, ht⟩
  · rintro ⟨n, hr, ht⟩
    exact ⟨_, hr, ⟨n, rfl⟩, ht⟩

/-- A word that its place admits is judged by what earlier words covered and wrote, then by its operands. -/
theorem wordFault_placed {regs len idx : Nat} {w : Word} {x : Seen} {i : Instr} (hd : looseDecode w = some i) (hp : isFinal i = true → idx = len) :
    wordFault regs len idx w x =
      if ((fieldReads w i).any x.covered.contains || (fieldWrites w i).any x.covered.contains) = true then some { cls := 1, idx := idx }
      else if ((fieldReads w i).any fun r => kindOf r == .t && !x.temps.contains r) = true then some { cls := 1, idx := idx }
      else
        match decodeWord w with
        | .error _ => some { cls := 3, idx := idx }
        | .ok j => if legal j && fitsRegs regs j then none else some { cls := 3, idx := idx } := by
  rw [wordFault, hd]
  dsimp only
  rw [if_neg fun h => h.2 (hp h.1)] <;> rfl

theorem publishes_iff {body : List Instr} {w : Word} : publishes body w = true ↔
    ((body.filterMap produces).map selByte).length ≤ 3 ∧ [w.extractLsb' 16 8, w.extractLsb' 8 8, w.extractLsb' 0 8]
      = (body.filterMap produces).map selByte ++ List.replicate (3 - ((body.filterMap produces).map selByte).length) 0xFF#8 := by
  rw [publishes, Bool.and_eq_true, decide_eq_true_eq, beq_iff_eq]

/-- Settles O25: framing, then a body word by its six checks, then the publications; a fragment takes what it finds. -/
theorem sceneErrorsTrap : Obligations.SceneErrorsTrap := by
  unfold Obligations.SceneErrorsTrap
  refine ⟨fun regs len fits ws => ?_, fun s g len => ?_⟩
  · dsimp only
    refine ⟨fun h => checkWords_framing (framing_header (.inr h)), fun hg hf => checkWords_framing ?_, fun hg hf k h1 hk hop hlow => checkWords_framing ?_,
      fun hg hf hb ht => checkWords_framing ?_, fun idx w x hd => ?_, fun idx w x i hd hi hne => ?_, fun idx w x i hd hp => ⟨fun ha => ?_, fun ha hu => ?_,
      fun ha hu hj => ?_, fun j ha hu hj hle hfi => ?_⟩, fun x j => ⟨?_, rfl⟩, fun idx x w r t h => ?_, fun idx x w r j h hj => ?_, fun hg hf hb ht => ⟨fun t h => ?_, fun body h => ⟨fun hr => ?_, fun hr => ?_⟩⟩⟩
    · rw [framing_good hg, if_pos hf]
    · rw [framing_good hg, if_neg (by omega), find_framing h1 hk (by simpa using hop) fun j hj hjk => by
        simp only [beq_false_of_ne (hlow j hj hjk).1, beq_false_of_ne (hlow j hj hjk).2, Bool.or_false]]
    · rw [framing_body hg hf hb, if_pos ht]
    · rw [wordFault, hd]; rfl
    · rw [wordFault, hd]
      dsimp only
      rw [if_pos ⟨hi, hne⟩]; rfl
    · rw [wordFault_placed hd hp, if_pos (coveredAgain_iff.2 ha)]
    · rw [wordFault_placed hd hp, if_neg (mt coveredAgain_iff.1 ha), if_pos (tempUnwritten_iff.2 hu)]
    · rw [wordFault_placed hd hp, if_neg (mt coveredAgain_iff.1 ha), if_neg (mt tempUnwritten_iff.1 hu)]
      split
      · rfl
      · next j hj' =>
        have hno : (legal j && fitsRegs regs j) = false := by rcases hj j hj' with h | h <;> simp [h]
        rw [hno]
        rfl
    · rw [wordFault_placed hd hp, if_neg (mt coveredAgain_iff.1 ha), if_neg (mt tempUnwritten_iff.1 hu), hj]
      dsimp only
      rw [hle, hfi]
      rfl
    · unfold Seen.add
      dsimp only
      split <;> simp
    · rw [bodyCheck, h]
    · rw [bodyCheck, h, hj]
      dsimp only
      cases bodyCheck regs len (idx + 1) (x.add j) r <;> rfl
    · rw [checkWords, framing_body hg hf hb, if_neg (not_not.2 ht), h]
    · rw [checkWords, framing_body hg hf hb, if_neg (not_not.2 ht), h]
      dsimp only
      rw [if_pos (publishes_iff.2 hr)]
    · rw [checkWords, framing_body hg hf hb, if_neg (not_not.2 ht), h]
      dsimp only
      rw [if_neg (mt publishes_iff.1 hr)]
      rfl
  · dsimp only
    intro hl hg hp hs hh hb
    refine ⟨fun hin => ?_, fun ws t hin hws hcw => ?_⟩
    · have hpc : (g.slot s.iss.slot).pc.toNat % 4 ≠ 0 ∨ g.book.codeLen ≤ (g.slot s.iss.slot).pc.toNat := by omega
      rw [exec_scene_ready len hl hg hp hs hh hb]
      simp only [State.startScene, if_pos hpc]
      rfl
    · have hpc : ¬((g.slot s.iss.slot).pc.toNat % 4 ≠ 0 ∨ g.book.codeLen ≤ (g.slot s.iss.slot).pc.toNat) := by omega
      rw [exec_scene_ready len hl hg hp hs hh hb]
      simp only [State.startScene, if_neg hpc, hws, hcw]

/-- A group alone on its core, its fragment in issue, with a point of comparison noted though it has no twin. -/
def pointedGroup : Grp :=
  { uid := 1, gang := 2, launch := 3, book := { codeLen := 256, regs := 128 }, slot0 := { mask := BitVec.allOnes 32, st := .ready, busy := true }
    points := [(0, 0)] }

/-- Its scene of one body word at the trailer. -/
def pointedScene : State :=
  { State.reset with
    groups := [pointedGroup]
    iss := { live := true, g := pointedGroup, idx := 2, words := [0x01080000#32, 0x0D000000#32, 0x0200FFFF#32], mask := BitVec.allOnes 32 } }

theorem pointedScene_alone : Alone pointedScene pointedScene.iss pointedGroup := ⟨rfl, rfl, rfl, rfl, rfl, rfl, rfl, rfl, rfl, rfl, rfl⟩

def pcAfter (o : Out) : Option Word :=
  match o with
  | .next t => (t.grp 1).map fun g => g.slot0.pc
  | _ => none

theorem pointedScene_stays : pcAfter (exec (.sceneEnd 0#8 0xFF#8 0xFF#8) pointedScene) = some 0#32 := by
  rw [exec_sceneEnd]
  decide +kernel

/-- Refutes O26: a group that stands at a point of comparison keeps its scene in issue at the trailer (R363), so its fragment
is not at the next header; nothing in the statement says that the group has noted no point. -/
theorem not_sceneEndCommits : ¬ Obligations.SceneEndCommits := by
  unfold Obligations.SceneEndCommits
  rintro ⟨h, -⟩
  obtain ⟨t, ht, -, -, -, -, hg⟩ := h pointedScene pointedGroup 0#8 0xFF#8 0xFF#8 rfl rfl rfl (.inl rfl) rfl rfl pointedScene_alone (fun k hk => by cases hk)
  have hpc := pointedScene_stays
  rw [ht] at hpc
  simp only [pcAfter] at hpc
  rw [show pointedScene.iss.g.uid = 1 from rfl] at hg
  rw [hg] at hpc
  exact absurd hpc (by decide)

end Sys2Proof.Machine
end

section
/-! SUPPORT. Final words at the trailer, scene boundaries, and precise traps (R14 to R18, R94 to R97, R170 to R176, R307 to R310). -/

namespace Sys2Proof.Machine

open Sys2Proof.Claim

/-! The branch that may split (R14, R15, R94). -/

/-- Whether a divergent branch finds lanes on both ways. -/
def Issue.splits (i : Issue) (p : Nat) : Prop := (i.g.preg p).val &&& i.mask ≠ 0#32 ∧ (i.g.preg p).val &&& i.mask ≠ i.mask

theorem Issue.splits_bool {i : Issue} {p : Nat} :
    ((((i.g.preg p).val &&& i.mask) != 0#32 && ((i.g.preg p).val &&& i.mask) != i.mask) = true) ↔ i.splits p := by
  simp [Issue.splits]

theorem execBrc_went {s : State} {p : BitVec 3} {j : BitVec 10} {f : BitVec 11} (hw : AtWord s (.brc p j f))
    (hp : (s.iss.g.preg p.toNat).pois &&& s.iss.mask = 0#32)
    (hh : ¬(s.iss.splits p.toNat ∧ (s.iss.g.slot s.iss.slot).handler = true))
    (hf : ¬(s.iss.splits p.toNat ∧ (s.iss.g.slot (!s.iss.slot)).st ≠ .empty ∧ s.iss.g.stack.length ≥ 64)) :
    execBrc p j f s = .next (went s { s.iss with
      final := .brc p (s.iss.target (f.setWidth 32) 11) (s.iss.addr + 4#32 * j.setWidth 32) }) := by
  refine State.word_went hw ?_
  rw [Issue.branch_ok hp]
  rw [← Issue.splits_bool] at hh hf
  simp only [Except.bind, bind, Issue.need]
  rw [if_pos (by rw [Bool.not_eq_true', Bool.and_eq_false_iff, ← Bool.not_eq_true, ← Bool.not_eq_true]; tauto)]
  simp only
  rw [if_neg (by simpa [and_assoc] using hf)]

/-- R309: a handler never splits. -/
theorem execBrc_handler {s : State} {p : BitVec 3} {j : BitVec 10} {f : BitVec 11} (hw : AtWord s (.brc p j f))
    (hp : (s.iss.g.preg p.toNat).pois &&& s.iss.mask = 0#32) (hs : s.iss.splits p.toNat)
    (hh : (s.iss.g.slot s.iss.slot).handler = true) :
    execBrc p j f s = .next (s.trapScene (s.iss.trap clsIllegalOperand 0)) := by
  refine State.word_trapScene hw ?_
  rw [Issue.branch_ok hp]
  rw [← Issue.splits_bool] at hs
  simp only [Except.bind, bind, Issue.need, hs, hh]
  rfl

/-- R15: a split that would push a 65th fragment traps. -/
theorem execBrc_full {s : State} {p : BitVec 3} {j : BitVec 10} {f : BitVec 11} (hw : AtWord s (.brc p j f))
    (hp : (s.iss.g.preg p.toNat).pois &&& s.iss.mask = 0#32) (hs : s.iss.splits p.toNat)
    (hh : (s.iss.g.slot s.iss.slot).handler = false) (hy : (s.iss.g.slot (!s.iss.slot)).st ≠ .empty) (hl : s.iss.g.stack.length ≥ 64) :
    execBrc p j f s = .next (s.trapScene (s.iss.trap clsSplit 0)) := by
  refine State.word_trapScene hw ?_
  rw [Issue.branch_ok hp]
  rw [← Issue.splits_bool] at hs
  simp only [Except.bind, bind, Issue.need, hs, hh]
  rw [if_pos (by simp), if_pos (by simpa using ⟨hy, hl⟩)]

theorem execBrc_poison {s : State} {p : BitVec 3} {j : BitVec 10} {f : BitVec 11} (hw : AtWord s (.brc p j f))
    (hp : (s.iss.g.preg p.toNat).pois &&& s.iss.mask ≠ 0#32) :
    execBrc p j f s = .next (s.trapScene (s.iss.trap clsPoison (lowLane ((s.iss.g.preg p.toNat).pois &&& s.iss.mask)))) :=
  State.word_trapScene hw (by rw [Issue.branch_trap hp]; rfl)

/-! Scene boundaries (R16 to R18). -/

/-- At a boundary that one stop reaches, nothing more happens. -/
theorem Grp.boundary_of_stopAt {g h : Grp} {b : Bool} (hs : g.stopAt b = h) (h0 : h.slot0.atEnd = false) (h1 : h.slot1.atEnd = false) :
    g.boundary b = h := by
  simp [Grp.boundary, hs, Grp.stops, h0, h1]

theorem Slot.atEnd_of_st {x : Slot} (h : x.st ≠ .ready) : x.atEnd = false := by simp [Slot.atEnd, h]

theorem Slot.atEnd_of_join {x : Slot} (h : x.join = Config.noJoin) : x.atEnd = false := by simp [Slot.atEnd, h]

theorem Slot.atEnd_of_pc {x : Slot} (h : x.pc ≠ x.join) : x.atEnd = false := by simp [Slot.atEnd, h]

/-- Both slots by side. -/
theorem Grp.slots_atEnd {g : Grp} (b : Bool) (hb : (g.slot b).atEnd = false) (ho : (g.slot (!b)).atEnd = false) :
    g.slot0.atEnd = false ∧ g.slot1.atEnd = false := by
  cases b
  · exact ⟨hb, ho⟩
  · exact ⟨ho, hb⟩

/-- R16: a fragment sent to its join stands at its end there. -/
theorem atEnd_of_joins {g : Grp} {b : Bool} {t : Word} (h : Joins g b t) : ((sentTo g b t).slot b).atEnd = true := by
  obtain ⟨hh, hn⟩ := h.plain
  simp [sentTo, Slot.atEnd, Slot.trapHeld, Slot.pends, hh, hn, h.join, h.there]

/-- The fragments that meet at a join as one (R16). -/
def fusedSlot (g : Grp) (b : Bool) (t join : Word) : Slot :=
  { mask := (g.slot b).mask ||| (g.slot (!b)).mask, pc := t, join := join, mode := (g.slot b).mode, st := .ready }

/-- R16: alone at its join a fragment waits there. -/
theorem boundary_waits {g : Grp} {b : Bool} {t : Word} (h : Joins g b t)
    (hy : ¬((g.slot (!b)).st = .atJoin ∧ (g.slot (!b)).join = (g.slot b).join)) :
    (sentTo g b t).boundary b = g.updSlot b fun x => { x with pc := t, st := .atJoin, busy := false } := by
  have hstop : (sentTo g b t).stopAt b = g.updSlot b fun x => { x with pc := t, st := .atJoin, busy := false } := by
    have hold := h.plain.2
    rw [Grp.stopAt, if_pos (atEnd_of_joins h), if_neg (by simpa [sentTo] using hy)]
    cases b <;> simp_all [sentTo, Grp.updSlot, Grp.setSlot, Grp.slot]
  obtain ⟨h0, h1⟩ := Grp.slots_atEnd (g := g.updSlot b fun x => { x with pc := t, st := .atJoin, busy := false }) b
    (Slot.atEnd_of_st (by simp)) (by simpa using h.other)
  exact Grp.boundary_of_stopAt hstop h0 h1

/-- R16, R18: where the other fragment waits at the same join, the two go on as one. -/
theorem stopAt_fuses {g : Grp} {b : Bool} {t : Word} (h : Joins g b t) (hst : (g.slot (!b)).st = .atJoin)
    (hj : (g.slot (!b)).join = (g.slot b).join) :
    (sentTo g b t).stopAt b = Grp.noPartner { g with slot0 := fusedSlot g b t t, slot1 := {} } false := by
  rw [Grp.stopAt, if_pos (atEnd_of_joins h), if_pos (by simpa [sentTo] using ⟨hst, hj⟩), h.there]
  cases b <;> rfl

theorem boundary_fuses_last {g : Grp} {b : Bool} {t : Word} (h : Joins g b t) (hst : (g.slot (!b)).st = .atJoin)
    (hj : (g.slot (!b)).join = (g.slot b).join) (hs : g.stack = []) :
    (sentTo g b t).boundary b = { g with slot0 := fusedSlot g b t Config.noJoin, slot1 := {} } := by
  refine Grp.boundary_of_stopAt ?_ (Slot.atEnd_of_join rfl) rfl
  rw [stopAt_fuses h hst hj]
  simp [Grp.noPartner, hs, Grp.updSlot, Grp.setSlot, Grp.slot, fusedSlot]

theorem boundary_fuses_next {g : Grp} {b : Bool} {t : Word} {top : Slot} {rest : List Slot} (h : Joins g b t)
    (hst : (g.slot (!b)).st = .atJoin) (hj : (g.slot (!b)).join = (g.slot b).join) (hs : g.stack = top :: rest) (htop : top.join ≠ t)
    (he : top.atEnd = false) :
    (sentTo g b t).boundary b = { g with slot0 := fusedSlot g b t top.join, slot1 := top, stack := rest } := by
  refine Grp.boundary_of_stopAt ?_ (Slot.atEnd_of_pc htop.symm) he
  rw [stopAt_fuses h hst hj]
  simp [Grp.noPartner, hs, Grp.updSlot, Grp.setSlot, Grp.slot, fusedSlot]

/-! The trailer's branch, and its split. -/

theorem State.applyFinal_brc_next {s : State} {i : Issue} {b : Bool} {p : BitVec 3} {t j : Word} (h : i.final = .brc p t j)
    (h0 : (i.g.preg p.toNat).val &&& i.mask = 0#32) : s.applyFinal i b = some (s.goTo i.g.uid b i.nextPc) := by
  rw [State.applyFinal, h]
  exact if_pos h0

theorem State.applyFinal_brc_all {s : State} {i : Issue} {b : Bool} {p : BitVec 3} {t j : Word} (h : i.final = .brc p t j)
    (h0 : (i.g.preg p.toNat).val &&& i.mask ≠ 0#32) (h1 : (i.g.preg p.toNat).val &&& i.mask = i.mask) :
    s.applyFinal i b = some (s.goTo i.g.uid b t) := by
  rw [State.applyFinal, h]
  exact (if_neg h0).trans (if_pos h1)

/-- The group whose fragment in slot b a branch has split (R14). -/
def splitOf (g : Grp) (b : Bool) (taken next t j : Word) : Grp :=
  let x := g.slot b
  let y := g.slot (!b)
  { (g.setSlot b { x with mask := x.mask &&& ~~~taken, pc := next, join := j, busy := false }).setSlot (!b)
      { mask := taken, pc := t, join := j, mode := x.mode, st := .ready } with
    stack := if y.st = .empty then g.stack else { y with watched := false, fired := false, due := 0 } :: g.stack }

theorem Grp.split_room {g : Grp} {b : Bool} {taken next t j : Word} (h : (g.slot (!b)).st = .empty ∨ g.stack.length < 64) :
    (g.updSlot b fun x => { x with busy := false }).split b taken next t j = some (splitOf g b taken next t j) := by
  rw [Grp.split, if_neg (by simpa [Decidable.imp_iff_not_or] using h)]
  cases b <;> rfl

theorem splitOf_uid (g : Grp) (b : Bool) (taken next t j : Word) : (splitOf g b taken next t j).uid = g.uid := by cases b <;> rfl

theorem splitOf_boundary {g : Grp} {b : Bool} {taken next t j : Word} (hn : next ≠ j) (ht : t ≠ j) :
    ((splitOf g b taken next t j).boundary b).boundary (!b) = splitOf g b taken next t j := by
  have hb : ((splitOf g b taken next t j).slot b).atEnd = false := Slot.atEnd_of_pc (by cases b <;> simpa [splitOf, Grp.slot, Grp.setSlot] using hn)
  have ho : ((splitOf g b taken next t j).slot (!b)).atEnd = false :=
    Slot.atEnd_of_pc (by cases b <;> simpa [splitOf, Grp.slot, Grp.setSlot] using ht)
  rw [Grp.boundary_eq_self hb ho, Grp.boundary_eq_self ho (by simpa using hb)]

theorem State.applyFinal_brc_splits {s : State} {i : Issue} {g : Grp} {b : Bool} {p : BitVec 3} {t j : Word} (hg : s.grp i.g.uid = some g)
    (h : i.final = .brc p t j) (h0 : (i.g.preg p.toNat).val &&& i.mask ≠ 0#32) (h1 : (i.g.preg p.toNat).val &&& i.mask ≠ i.mask)
    (hn : i.nextPc ≠ j) (ht : t ≠ j) (hroom : (g.slot (!b)).st = .empty ∨ g.stack.length < 64) :
    s.applyFinal i b = some (s.updGrp i.g.uid fun _ => splitOf g b ((i.g.preg p.toNat).val &&& i.mask) i.nextPc t j) := by
  rw [State.applyFinal, h]
  simp only [if_neg h0, if_neg h1, hg, Option.bind_some, Grp.split_room hroom, splitOf_boundary hn ht]

/-! Exit (R17, R18, R96). -/

/-- The fragment in slot b at its end: its slot keeps MODE alone (R206). -/
def goneSlot (g : Grp) (b : Bool) : Slot := { mode := (g.slot b).mode }

theorem Grp.setSlot_uid (g : Grp) (b : Bool) (x : Slot) : (g.setSlot b x).uid = g.uid := by cases b <;> rfl

theorem Grp.endSlot_last {g : Grp} {b : Bool} (hy : (g.slot (!b)).st ≠ .empty) (hs : g.stack = []) :
    g.endSlot b = (g.setSlot b (goneSlot g b)).updSlot (!b) fun y => awake { y with join := Config.noJoin } := by
  cases b <;> simp_all [Grp.endSlot, Grp.noPartner, goneSlot, awake, Grp.slot, Grp.setSlot, Grp.updSlot]

theorem Grp.endSlot_next {g : Grp} {b : Bool} {top : Slot} {rest : List Slot} (hy : (g.slot (!b)).st ≠ .empty)
    (hs : g.stack = top :: rest) :
    g.endSlot b = { (g.updSlot (!b) fun y => awake { y with join := top.join }).setSlot b top with stack := rest } := by
  cases b <;> simp_all [Grp.endSlot, Grp.noPartner, awake, Grp.slot, Grp.setSlot, Grp.updSlot]

theorem Grp.endSlot_alone {g : Grp} {b : Bool} (hy : (g.slot (!b)).st = .empty) : g.endSlot b = g.setSlot b (goneSlot g b) := by
  simp [Grp.endSlot, goneSlot, hy]

theorem awake_join (x : Slot) : (awake x).join = x.join := by unfold awake; split <;> rfl
theorem awake_pc (x : Slot) : (awake x).pc = x.pc := by unfold awake; split <;> rfl
theorem awake_st {x : Slot} (h : x.st ≠ .empty) : (awake x).st ≠ .empty := by
  unfold awake
  split
  · simp
  · exact h

/-- With no sector of the core in its WC buffer a flush leaves the groups. -/
theorem State.wcFlush_groups {s : State} {core : Nat} {p : WcEntry → Bool} (h : (s.core core).wc = []) :
    (s.wcFlush core p).groups = s.groups := by
  simp [State.wcFlush, h]

theorem State.wcFlush_grp {s : State} {core u : Nat} {p : WcEntry → Bool} (h : (s.core core).wc = []) :
    (s.wcFlush core p).grp u = s.grp u := by
  rw [State.grp, State.grp, State.wcFlush_groups h]

/-- The slot emptied, what follows at the boundary, and the group's WC sectors gone. -/
def State.exitBoundary (s : State) (u core : Nat) (b : Bool) : State :=
  (s.updGrp u fun y => (y.endSlot b).boundary (!b)).wcFlushGroup u core

theorem State.exitBoundary_grp {s : State} {u : Nat} {g h : Grp} {b : Bool} (hg : s.grp u = some g) (hw : (s.core g.core).wc = [])
    (he : (g.endSlot b).boundary (!b) = h) (hu : h.uid = u) : (s.exitBoundary u g.core b).grp u = some h := by
  rw [State.exitBoundary, State.wcFlushGroup, State.wcFlush_grp (by simpa using hw), State.grp_updGrp hg (by rw [he, hu]), he]

theorem State.applyFinal_exit {s : State} {i : Issue} {g h : Grp} {b : Bool} (hg : s.grp i.g.uid = some g) (hf : i.final = .exit)
    (hh : (g.slot b).handler = false) (hx : (s.exitBoundary i.g.uid g.core b).grp i.g.uid = some h) :
    s.applyFinal i b = some (if h.over then (s.exitBoundary i.g.uid g.core b).afterEnd i.g.uid else s.exitBoundary i.g.uid g.core b) := by
  rw [State.applyFinal, hf]
  simp only [State.exitSlot, hg]
  rw [State.exitBoundary] at hx
  simp only [hx, hh]
  rfl

theorem State.dropEngine_grp (s : State) (gang coreIdx u : Nat) : (s.dropEngine gang coreIdx false).grp u = s.grp u := rfl
theorem State.unschedule_grp (s : State) (u v core : Nat) : (s.unschedule u core).grp v = s.grp v := rfl
theorem State.grp_updGang (s : State) (k u : Nat) (f : Gang → Gang) : (s.updGang k f).grp u = s.grp u := rfl
theorem State.grp_updLaunch (s : State) (k u : Nat) (f : Launch → Launch) : (s.updLaunch k f).grp u = s.grp u := rfl
theorem State.unwait_grp (s : State) (id u : Nat) : (s.unwait id).grp u = s.grp u := rfl
theorem State.unawait_grp (s : State) (p : LineWait → Bool) (u : Nat) : (s.unawait p).grp u = s.grp u := rfl

theorem State.grp_ite (c : Prop) [Decidable c] (s t : State) (u : Nat) :
    (if c then s else t).grp u = if c then s.grp u else t.grp u := apply_ite (fun s => State.grp s u) c s t

/-- R224: a group's bindings go, and it alone changes. -/
theorem State.unbindAll_grp {s : State} {g h : Grp} (hg : s.grp g.uid = some h) :
    (s.unbindAll g).grp g.uid = some { h with q := Vector.replicate 16 {} } := by
  refine State.grp_updGrp ?_ (show h.uid = g.uid from State.grp_uid hg)
  split <;> exact hg

/-- R96: a group at its end has ended. -/
theorem State.afterEnd_place {s : State} {u : Nat} {g : Grp} (hg : s.grp u = some g) (hw : (s.core g.core).wc = []) :
    ∃ h, (s.afterEnd u).grp u = some h ∧ h.place = .ended := by
  have hu : g.uid = u := State.grp_uid hg
  subst hu
  have hwc (p : WcEntry → Bool) : (s.wcFlush g.core p).grp g.uid = some g := (State.wcFlush_grp hw).trans hg
  refine ⟨{ g with q := Vector.replicate 16 {}, place := .ended }, ?_, rfl⟩
  unfold State.afterEnd
  simp only [hg]
  have hend (v : State) (hv : v.grp g.uid = some g) :
      (((v.unbindAll g).updGrp g.uid fun x => { x with place := .ended }).unschedule g.uid g.core).grp g.uid =
        some { g with q := Vector.replicate 16 {}, place := .ended } := by
    rw [State.unschedule_grp]
    exact State.grp_updGrp (State.unbindAll_grp hv) rfl
  simp only [State.grp_ite, State.grp_updLaunch, State.grp_updGang, State.dropEngine_grp, ite_self]
  exact hend _ (hwc _)

theorem State.wcFlush_core_wc {s : State} {core : Nat} {p : WcEntry → Bool} (h : (s.core core).wc = []) :
    ((s.wcFlush core p).core core).wc = [] := by
  simp [State.wcFlush, h]

theorem State.exitBoundary_core_wc {s : State} {u core : Nat} {b : Bool} (h : (s.core core).wc = []) :
    ((s.exitBoundary u core b).core core).wc = [] :=
  State.wcFlush_core_wc (s := s.updGrp u _) h

/-- R17, R18: a fragment whose partner goes on leaves it as given, at no join of its own. -/
theorem State.exit_leaves {s : State} {i : Issue} {g h : Grp} {b : Bool} (hg : s.grp i.g.uid = some g) (hf : i.final = .exit)
    (hh : (g.slot b).handler = false) (hw : (s.core g.core).wc = []) (he : g.endSlot b = h) (hu : h.uid = g.uid)
    (h0 : (h.slot b).atEnd = false) (h1 : (h.slot (!b)).atEnd = false) (hst : (h.slot (!b)).st ≠ .empty) :
    ∃ r, s.applyFinal i b = some r ∧ r.grp i.g.uid = some h := by
  have hb : (g.endSlot b).boundary (!b) = h := by
    rw [he]
    exact Grp.boundary_eq_self h1 (by simpa using h0)
  have hx := State.exitBoundary_grp hg hw hb (hu.trans (State.grp_uid hg))
  have hover : h.over = false := by cases b <;> simp_all [Grp.over, Grp.slot]
  refine ⟨_, State.applyFinal_exit hg hf hh hx, ?_⟩
  rw [hover]
  exact hx

/-- Settles O29, clause by clause: the word, the trailer's branch, the boundary at a join, and exit. -/
theorem brcSplits : Obligations.BrcSplits := by
  unfold Obligations.BrcSplits
  refine ⟨fun s p j f hw => ?_, fun s i g b p t j hg hf => ?_, fun s i g b t hg hf hj => ?_, fun s i g b hg hf hh hw => ?_⟩
  · have htarget := s.iss.target_eq f (by decide) (by decide)
    have haddr : s.iss.addr = s.iss.pc + 4#32 * BitVec.ofNat 32 s.iss.idx := by rw [Issue.addr, BitVec.ofNat_mul]
    refine ⟨fun hp hh hfull => ?_, fun hp hs hh => ?_, fun hp hs hh hfull => ?_, fun hp => ?_⟩
    · rw [exec_brc, execBrc_went hw hp hh hfull, htarget, haddr]
    · exact execBrc_handler hw hp hs hh
    · exact execBrc_full hw hp hs hh hfull.1 hfull.2
    · exact execBrc_poison hw hp
  · refine ⟨fun h0 hgo => ?_, fun h0 h1 hgo => ?_, fun h0 h1 hn ht hroom => ?_⟩
    · exact ⟨_, State.applyFinal_brc_next hf h0, State.grp_goTo hg hgo⟩
    · exact ⟨_, State.applyFinal_brc_all hf h0 h1, State.grp_goTo hg hgo⟩
    · refine ⟨_, splitOf g b ((i.g.preg p.toNat).val &&& i.mask) i.nextPc t j,
        State.applyFinal_brc_splits hg hf h0 h1 hn ht hroom, rfl,
        State.grp_updGrp hg ((splitOf_uid ..).trans (State.grp_uid hg)), ?_⟩
      cases b <;> exact ⟨rfl, rfl, rfl, rfl, rfl, rfl⟩
  · have hgo (h : Grp) (hb : (sentTo g b t).boundary b = h) (hu : h.uid = g.uid) :
        ∃ r, s.applyFinal i b = some r ∧ r.grp i.g.uid = some h := by
      refine ⟨_, State.applyFinal_jump hf, ?_⟩
      rw [State.goTo, State.grp_updGrp hg (by rw [hb, hu, State.grp_uid hg]), hb]
    refine ⟨fun hy => ?_, fun hst hjoin hs => ?_, fun top rest hst hjoin hs htop he => ?_⟩
    · obtain ⟨r, hr, hh⟩ := hgo _ (boundary_waits hj hy) (Grp.updSlot_uid ..)
      exact ⟨r, _, hr, hh, by simp, by simp, by simp⟩
    · obtain ⟨r, hr, hh⟩ := hgo _ (boundary_fuses_last hj hst hjoin hs) rfl
      exact ⟨r, _, hr, hh, rfl, rfl, hs⟩
    · obtain ⟨r, hr, hh⟩ := hgo _ (boundary_fuses_next hj hst hjoin hs htop he) rfl
      exact ⟨r, _, hr, hh, rfl, rfl, rfl⟩
  · refine ⟨fun hy hs => ?_, fun top rest hy hs he hpc htop => ?_, fun hy hjoin hs => ?_⟩
    · obtain ⟨r, hr, hh⟩ := State.exit_leaves hg hf hh hw (Grp.endSlot_last hy hs) (by cases b <;> rfl)
        (by cases b <;> rfl) (Slot.atEnd_of_join (by cases b <;> simp [awake_join])) (by cases b <;> exact awake_st hy)
      refine ⟨r, _, hr, hh, ?_⟩
      cases b <;> exact ⟨rfl, rfl, hs, rfl, rfl⟩
    · obtain ⟨r, hr, hh⟩ := State.exit_leaves hg hf hh hw (Grp.endSlot_next hy hs) (by cases b <;> rfl)
        (by cases b <;> exact he)
        (Slot.atEnd_of_pc (by cases b <;> simpa [Grp.slot, Grp.updSlot, Grp.setSlot, awake_join, awake_pc] using hpc))
        (by cases b <;> exact awake_st hy)
      refine ⟨r, _, hr, hh, ?_⟩
      cases b <;> exact ⟨rfl, rfl, rfl, rfl, rfl⟩
    · have hb : (g.endSlot b).boundary (!b) = g.setSlot b (goneSlot g b) := by
        rw [Grp.endSlot_alone hy]
        exact Grp.boundary_eq_self (by cases b <;> exact Slot.atEnd_of_join hjoin) (by cases b <;> rfl)
      have hx := State.exitBoundary_grp hg hw hb ((Grp.setSlot_uid ..).trans (State.grp_uid hg))
      have hover : (g.setSlot b (goneSlot g b)).over = true := by
        cases b <;> simp_all [Grp.over, Grp.slot, Grp.setSlot, goneSlot]
      have hcore : (g.setSlot b (goneSlot g b)).core = g.core := by cases b <;> rfl
      obtain ⟨h, hr, hp⟩ := State.afterEnd_place hx (by rw [hcore]; exact State.exitBoundary_core_wc hw)
      refine ⟨_, h, State.applyFinal_exit hg hf hh hx, ?_, hp⟩
      rw [hover]
      exact hr

/-- A group changed by what keeps its name. -/
theorem State.grp_updGrp_named {s : State} {u : Nat} {f : Grp → Grp} {g : Grp} (h : s.grp u = some g) (hf : (f g).uid = g.uid) :
    (s.updGrp u f).grp u = some (f g) := State.grp_updGrp h (hf.trans (State.grp_uid h))

/-! Waits at the trailer of a lone fragment (R170, R172, R174 to R176, R294). -/

/-- A resident group whose fragment is alone, in slot 0 and at no join. -/
structure Lone (g : Grp) : Prop where
  place : g.place = .resident
  cached : g.cached = true
  join : g.slot0.join = Config.noJoin
  other : g.slot1.st = .empty

theorem lone_of_alone {s : State} {i : Issue} {g : Grp} (h : Alone s i g) : Lone g := ⟨h.place, h.cached, h.join, h.other⟩

/-- The fragment in slot 0 at the next header, its scene over. -/
def parkedAt (g : Grp) (next : Word) : Grp := { g with slot0 := { g.slot0 with pc := next, busy := false } }

/-- The fragment in slot 0 waits at the next header. -/
def waitingAt (g : Grp) (next : Word) (k : WaitKind) (f : Slot → Slot) : Grp :=
  { g with slot0 := f { g.slot0 with pc := next, busy := false, st := .waiting, wait := k } }

/-- A slot past its wait (R176). -/
def Slot.pastWait (x : Slot) : Slot :=
  { x with st := .ready, wait := .none, warg := 0#32, waddr := 0#57, wspace := 0#2, watched := false, fired := false, wcmds := [], due := 0 }

/-- The fragment of the group at the next header. -/
def State.park (s : State) (u : Nat) (next : Word) : State := s.updGrp u fun g => g.updSlot false fun x => { x with pc := next, busy := false }

theorem State.park_grp {s : State} {u : Nat} {g : Grp} (hg : s.grp u = some g) (next : Word) :
    (s.park u next).grp u = some (parkedAt g next) := State.grp_updGrp_named hg rfl

theorem State.wait_grp {s : State} {u : Nat} {g : Grp} {next : Word} (hg : s.grp u = some (parkedAt g next)) (k : WaitKind)
    (f : Slot → Slot) : (s.wait u false k f).grp u = some (waitingAt g next k f) :=
  State.grp_updGrp_named hg rfl

/-- A change of a cached group's image is a change of the group. -/
theorem State.updImage_cached {s : State} {u : Nat} {g : Grp} (hg : s.grp u = some g) (hc : g.cached = true) (f : Grp → Grp) :
    s.updImage u f = s.updGrp u f := by
  simp [State.updImage, hg, hc]

/-- R176: a lone fragment's wait ends where it stands. -/
theorem State.endWait_lone {s : State} {u : Nat} {g : Grp} (hg : s.grp u = some g) (h : Lone g) :
    (s.endWait u false).grp u = some { g with slot0 := g.slot0.pastWait } ∧ (s.endWait u false).mem = s.mem := by
  have hb : (g.updSlot false Slot.pastWait).boundary false = { g with slot0 := g.slot0.pastWait } :=
    Grp.boundary_eq_self (Slot.atEnd_of_join h.join) (Slot.atEnd_of_st (by simp [Grp.slot, h.other]))
  have hgrp : (s.updGrp u fun g => (g.updSlot false Slot.pastWait).boundary false).grp u = some { g with slot0 := g.slot0.pastWait } := by
    rw [State.grp_updGrp_named hg (by rw [hb]), hb]
  have hend : s.endWait u false = s.updGrp u fun g => (g.updSlot false Slot.pastWait).boundary false := by
    unfold State.endWait
    simp only [State.updImage_cached hg h.cached]
    change (match (s.updGrp u fun g => (g.updSlot false Slot.pastWait).boundary false).grp u with | none => _ | some g => _) = _
    rw [hgrp]
    simp only [h.place]
    rfl
  exact ⟨by rw [hend, hgrp], by rw [hend]; rfl⟩

theorem Grp.raise_cached {g : Grp} (h : g.cached = true) (t : Nat) : g.raise t = { g with pts := max g.pts t } := by
  simp [Grp.raise, h]

theorem State.raisePts_grp {s : State} {u : Nat} {g : Grp} (hg : s.grp u = some g) (h : g.cached = true) (t : Nat) :
    (s.raisePts u t).grp u = some { g with pts := max g.pts t } := by
  rw [State.raisePts, State.grp_updGrp_named hg rfl, Grp.raise_cached h]

/-- A wait that ends with the group's time past t. -/
theorem State.endWait_raised {s : State} {u : Nat} {g : Grp} (hg : s.grp u = some g) (h : Lone g) (t : Nat) :
    ((s.raisePts u t).endWait u false).grp u = some { g with pts := max g.pts t, slot0 := g.slot0.pastWait }
      ∧ ((s.raisePts u t).endWait u false).mem = s.mem := by
  obtain ⟨hp, hc, hj, ho⟩ := h
  exact State.endWait_lone (State.raisePts_grp hg hc t) ⟨hp, hc, hj, ho⟩

/-! Which condition of a wait holds already (R170, R175, R284). -/

theorem State.wakeSlot_drain {s : State} {u : Nat} {g : Grp} (hg : s.grp u = some g) (hst : g.slot0.st = .waiting)
    (hw : g.slot0.wait = .drain) :
    s.wakeSlot u false = if s.drained g g.slot0.wgen then (s.raisePts u g.cpyTime).endWait u false else s := by
  unfold State.wakeSlot
  simp only [hg, Grp.slot, Bool.false_eq_true, if_false, hst, hw]
  rfl

/-- The commands that a cwait waits for and that its sequencer still holds. -/
def waitsForCmd (x : Slot) (c : ECmd) : Bool := x.wcmds.contains c.id && c.live

theorem State.wakeSlot_cwait {s : State} {u : Nat} {g : Grp} (hg : s.grp u = some g) (hst : g.slot0.st = .waiting)
    (hw : g.slot0.wait = .cwait) :
    s.wakeSlot u false = if s.ecmds.any (waitsForCmd g.slot0) then s else s.endWait u false := by
  unfold State.wakeSlot
  simp only [hg, Grp.slot, Bool.false_eq_true, if_false, hst, hw]
  rfl

theorem State.wakeSlot_gwait {s : State} {u : Nat} {g : Grp} {l : Launch} {ts : TagState} (hg : s.grp u = some g)
    (hl : s.launch g.launch = some l) (hst : g.slot0.st = .waiting) (hw : g.slot0.wait = .gwait)
    (ht : tget l.tags (bits g.slot0.warg 3 0) {} = ts) :
    s.wakeSlot u false =
      if ts.count != 0 || (s.waves.any fun w => w.st == .path && g.committed w g.slot0.wgen) then s
      else (s.raisePts u ts.time).endWait u false := by
  subst ht
  unfold State.wakeSlot
  simp only [hg, Grp.slot, Bool.false_eq_true, if_false, hst, hw, hl]
  rfl

/-- What a final word of a lone fragment leaves: the group as given, and memory as it was. -/
def Gives (s : State) (i : Issue) (h : Grp) : Prop := ∃ r, s.applyFinal i false = some r ∧ r.mem = s.mem ∧ r.grp i.g.uid = some h

theorem State.wcFlush_nil {s : State} {core : Nat} {p : WcEntry → Bool} (h : (s.core core).wc = []) :
    s.wcFlush core p = s.updCore core fun c => { c with wc := c.wc.filter fun e => !p e } := by
  simp [State.wcFlush, h]

/-- A flush of an empty buffer leaves every core's buffer. -/
theorem State.wcFlush_nil_wc {s : State} {core : Nat} {p : WcEntry → Bool} (h : (s.core core).wc = []) (c : Nat) :
    ((s.wcFlush core p).core c).wc = (s.core c).wc := by
  rw [State.wcFlush_nil h]
  by_cases hc : c = core
  · subst hc
    simp [h]
  · rw [State.core_updCore_other _ _ _ _ hc]

theorem Grp.parkedAt_lone {g : Grp} (h : Lone g) (next : Word) : Lone (parkedAt g next) := ⟨h.place, h.cached, h.join, h.other⟩

/-- Whether a drain's condition holds reads the group's name, its stores and the core's buffer. -/
theorem State.drained_congr {s t : State} {g h : Grp} {n : Nat} (hr : t.reqs = s.reqs) (hc : t.cpys = s.cpys)
    (hw : (t.core h.core).wc = (s.core g.core).wc) (hu : h.uid = g.uid) (hh : h.held = g.held) (hun : h.under = g.under)
    (ht : h.twin = g.twin) : t.drained h n = s.drained g n := by
  simp only [State.drained, Grp.has, hr, hc, hw, hu, hh, hun, ht]

/-! Drain (R170). -/

/-- The fragment waiting for its drain, the WC buffer left. -/
def State.drainWait (s : State) (i : Issue) : State :=
  ((s.park i.g.uid i.nextPc).wcFlushGroup i.g.uid i.g.core).wait i.g.uid false .drain fun x =>
    { x with wgen := ((s.park i.g.uid i.nextPc).wcFlushGroup i.g.uid i.g.core).fresh }

theorem State.applyFinal_drain {s : State} {i : Issue} (h : i.final = .drain) :
    s.applyFinal i false = some ((s.drainWait i).wakeSlot i.g.uid false) := by
  rw [State.applyFinal, h]; rfl

theorem State.drainWait_eq {s : State} {i : Issue} (hw : (s.core i.g.core).wc = []) :
    s.drainWait i = ((s.park i.g.uid i.nextPc).wcFlushGroup i.g.uid i.g.core).wait i.g.uid false .drain fun x => { x with wgen := s.fresh } := by
  have hf : ((s.park i.g.uid i.nextPc).wcFlushGroup i.g.uid i.g.core).fresh = s.fresh := by
    rw [State.wcFlushGroup, State.wcFlush_nil (s := s.park i.g.uid i.nextPc) hw]
    rfl
  rw [State.drainWait, hf]

theorem State.drainWait_grp {s : State} {i : Issue} {g : Grp} (hg : s.grp i.g.uid = some g) (hw : (s.core i.g.core).wc = []) :
    (s.drainWait i).grp i.g.uid = some (waitingAt g i.nextPc .drain fun x => { x with wgen := s.fresh }) := by
  rw [State.drainWait_eq hw]
  exact State.wait_grp ((State.wcFlush_grp (s := s.park i.g.uid i.nextPc) hw).trans (State.park_grp hg _)) _ _

theorem State.drainWait_rest {s : State} {i : Issue} (hw : (s.core i.g.core).wc = []) :
    (s.drainWait i).mem = s.mem ∧ (s.drainWait i).reqs = s.reqs ∧ (s.drainWait i).cpys = s.cpys
      ∧ ∀ c, ((s.drainWait i).core c).wc = (s.core c).wc := by
  have hpark : ((s.park i.g.uid i.nextPc).core i.g.core).wc = [] := hw
  have hcore (c : Nat) := State.wcFlush_nil_wc (p := fun e => e.uid == i.g.uid) hpark c
  rw [State.drainWait_eq hw, State.wcFlushGroup, State.wcFlush_nil hpark]
  rw [State.wcFlush_nil hpark] at hcore
  exact ⟨rfl, rfl, rfl, hcore⟩

theorem State.drainWait_drained {s : State} {i : Issue} {g : Grp} (hw : (s.core i.g.core).wc = []) :
    (s.drainWait i).drained (waitingAt g i.nextPc .drain fun x => { x with wgen := s.fresh }) s.fresh = s.drained g s.fresh := by
  obtain ⟨-, hr, hc, hwc⟩ := State.drainWait_rest hw
  exact State.drained_congr hr hc (hwc _) rfl rfl rfl rfl

theorem State.drainWait_wakes {s : State} {i : Issue} {g : Grp} (hg : s.grp i.g.uid = some g) (hw : (s.core i.g.core).wc = []) :
    (s.drainWait i).wakeSlot i.g.uid false =
      if s.drained g s.fresh then ((s.drainWait i).raisePts i.g.uid g.cpyTime).endWait i.g.uid false else s.drainWait i := by
  rw [← State.drainWait_drained hw]
  exact State.wakeSlot_drain (State.drainWait_grp hg hw) rfl rfl

theorem gives_drain_waits {s : State} {i : Issue} {g : Grp} (hg : s.grp i.g.uid = some g) (hf : i.final = .drain)
    (hw : (s.core i.g.core).wc = []) (hd : s.drained g s.fresh = false) :
    Gives s i (waitingAt g i.nextPc .drain fun x => { x with wgen := s.fresh }) := by
  refine ⟨_, State.applyFinal_drain hf, ?_⟩
  rw [State.drainWait_wakes hg hw, if_neg (by simp [hd])]
  exact ⟨(State.drainWait_rest hw).1, State.drainWait_grp hg hw⟩

theorem gives_drain_ends {s : State} {i : Issue} {g : Grp} (hl : Lone g) (hg : s.grp i.g.uid = some g) (hf : i.final = .drain)
    (hw : (s.core i.g.core).wc = []) (hd : s.drained g s.fresh = true) :
    Gives s i { parkedAt g i.nextPc with
      pts := max g.pts g.cpyTime, slot0 := { (parkedAt g i.nextPc).slot0.pastWait with wgen := s.fresh } } := by
  refine ⟨_, State.applyFinal_drain hf, ?_⟩
  rw [State.drainWait_wakes hg hw, if_pos hd]
  obtain ⟨hgrp, hmem⟩ := State.endWait_raised (State.drainWait_grp hg hw) ⟨hl.place, hl.cached, hl.join, hl.other⟩ g.cpyTime
  exact ⟨hmem.trans (State.drainWait_rest hw).1, hgrp⟩

/-! Waits on engine commands and on a tag's waves (R175, R284). -/

/-- The fragment waiting, its record completed by f. -/
def State.waitAt (s : State) (i : Issue) (k : WaitKind) (f : Slot → Slot) : State := (s.park i.g.uid i.nextPc).wait i.g.uid false k f

theorem State.waitAt_grp {s : State} {i : Issue} {g : Grp} (hg : s.grp i.g.uid = some g) (k : WaitKind) (f : Slot → Slot) :
    (s.waitAt i k f).grp i.g.uid = some (waitingAt g i.nextPc k f) := State.wait_grp (State.park_grp hg _) k f

/-- The engine commands before the scene that a cwait on a cue names. -/
def cueCommand (i : Issue) (cue : BitVec 8) (c : ECmd) : Bool :=
  c.uid == i.g.uid && c.live && c.kind != .wfree && c.cue == cue.toNat && decide (c.id < i.mark)

/-- What a cwait leaves in its wait record. -/
def cueRecord (s : State) (i : Issue) (cue : BitVec 8) (x : Slot) : Slot :=
  { x with warg := cue.setWidth 32, wcmds := (s.ecmds.filter (cueCommand i cue)).map (·.id) }

theorem State.applyFinal_cwait {s : State} {i : Issue} {cue : BitVec 8} (h : i.final = .cwait cue) :
    s.applyFinal i false = some ((s.waitAt i .cwait (cueRecord s i cue)).wakeSlot i.g.uid false) := by
  rw [State.applyFinal, h]; rfl

/-- The commands of the record that the sequencer still holds are there as long as the cue has any. -/
theorem cueRecord_any (s : State) (i : Issue) (cue : BitVec 8) (x : Slot) :
    s.ecmds.any (waitsForCmd (cueRecord s i cue x)) = s.ecmds.any (cueCommand i cue) := by
  rw [Bool.eq_iff_iff, List.any_eq_true, List.any_eq_true]
  refine ⟨fun ⟨c, _, hm⟩ => ?_, fun ⟨c, hc, hm⟩ => ⟨c, hc, ?_⟩⟩
  · have hin : c.id ∈ (s.ecmds.filter (cueCommand i cue)).map (·.id) := by
      simp only [waitsForCmd, cueRecord, Bool.and_eq_true, List.contains_iff_mem] at hm
      exact hm.1
    obtain ⟨d, hd, -⟩ := List.mem_map.1 hin
    exact ⟨d, List.mem_filter.1 hd⟩
  · have hlive : c.live = true := by simp only [cueCommand, Bool.and_eq_true] at hm; tauto
    have hin : c.id ∈ (s.ecmds.filter (cueCommand i cue)).map (·.id) := List.mem_map_of_mem (List.mem_filter.2 ⟨hc, hm⟩)
    simp [waitsForCmd, cueRecord, hlive, hin]

theorem State.waitAt_cwait {s : State} {i : Issue} {g : Grp} {cue : BitVec 8} (hg : s.grp i.g.uid = some g) :
    (s.waitAt i .cwait (cueRecord s i cue)).wakeSlot i.g.uid false =
      if s.ecmds.any (cueCommand i cue) then s.waitAt i .cwait (cueRecord s i cue)
      else (s.waitAt i .cwait (cueRecord s i cue)).endWait i.g.uid false := by
  rw [← cueRecord_any s i cue { g.slot0 with pc := i.nextPc, busy := false, st := .waiting, wait := .cwait }]
  exact State.wakeSlot_cwait (State.waitAt_grp (g := g) hg .cwait (cueRecord s i cue)) rfl rfl

theorem gives_cwait_ends {s : State} {i : Issue} {g : Grp} {cue : BitVec 8} (hl : Lone g) (hg : s.grp i.g.uid = some g)
    (hf : i.final = .cwait cue) (h : s.ecmds.any (cueCommand i cue) = false) :
    Gives s i { parkedAt g i.nextPc with slot0 := (parkedAt g i.nextPc).slot0.pastWait } := by
  refine ⟨_, State.applyFinal_cwait hf, ?_⟩
  rw [State.waitAt_cwait hg, if_neg (by simp [h])]
  exact (State.endWait_lone (State.waitAt_grp hg .cwait (cueRecord s i cue)) ⟨hl.place, hl.cached, hl.join, hl.other⟩).symm

theorem gives_cwait_waits {s : State} {i : Issue} {g : Grp} {cue : BitVec 8} (hg : s.grp i.g.uid = some g)
    (hf : i.final = .cwait cue) (h : s.ecmds.any (cueCommand i cue) = true) :
    Gives s i (waitingAt g i.nextPc .cwait (cueRecord s i cue)) := by
  refine ⟨_, State.applyFinal_cwait hf, ?_⟩
  rw [State.waitAt_cwait hg, if_pos h]
  exact ⟨rfl, State.waitAt_grp hg .cwait (cueRecord s i cue)⟩

/-- What a gwait leaves in its wait record. -/
def tagRecord (s : State) (tag : BitVec 4) (x : Slot) : Slot := { x with warg := tag.setWidth 32, wgen := s.fresh }

theorem State.commitKey_primary {s : State} {u : Nat} {g : Grp} (hg : s.grp u = some g) (h : g.under = false) :
    s.commitKey u = s.fresh := by simp [State.commitKey, hg, h]

theorem State.applyFinal_gwait {s : State} {i : Issue} {g : Grp} {tag : BitVec 4} (hg : s.grp i.g.uid = some g) (hu : g.under = false)
    (h : i.final = .gwait tag) : s.applyFinal i false = some ((s.waitAt i .gwait (tagRecord s tag)).wakeSlot i.g.uid false) := by
  have hfinal : s.applyFinal i false = some ((s.waitAt i .gwait fun x =>
      { x with warg := tag.setWidth 32, wgen := s.commitKey i.g.uid }).wakeSlot i.g.uid false) := by
    rw [State.applyFinal, h]; rfl
  rw [hfinal, State.commitKey_primary hg hu]
  rfl

/-- What a gwait waits for: the tag's count, and the group's commands still on their way. -/
def tagOpen (s : State) (i : Issue) (l : Launch) (tag : BitVec 4) : Prop :=
  (tget l.tags tag.toNat {}).count ≠ 0 ∨ ∃ w ∈ s.waves, w.uid = i.g.uid ∧ w.id < s.fresh ∧ w.st = .path

theorem bits_tag (tag : BitVec 4) : bits (tag.setWidth 32) 3 0 = tag.toNat := by
  have := tag.isLt
  simp [bits]
  omega

theorem tagOpen_iff {s : State} {i : Issue} {g : Grp} {l : Launch} {tag : BitVec 4} (hu : g.under = false) (hid : g.uid = i.g.uid) :
    ((tget l.tags tag.toNat {}).count != 0 || (s.waves.any fun w => w.st == .path && g.committed w s.fresh)) = true ↔ tagOpen s i l tag := by
  simp only [tagOpen, Grp.committed, hu, hid, Bool.or_eq_true, bne_iff_ne, List.any_eq_true, Bool.and_eq_true, beq_iff_eq, decide_eq_true_eq,
    Bool.false_eq_true, if_false]
  refine or_congr Iff.rfl (exists_congr fun w => and_congr Iff.rfl ?_)
  tauto

theorem State.waitAt_gwait {s : State} {i : Issue} {g : Grp} {l : Launch} {tag : BitVec 4} (hg : s.grp i.g.uid = some g)
    (hl : s.launch g.launch = some l) :
    (s.waitAt i .gwait (tagRecord s tag)).wakeSlot i.g.uid false =
      if (tget l.tags tag.toNat {}).count != 0 || (s.waves.any fun w => w.st == .path && g.committed w s.fresh) then
        s.waitAt i .gwait (tagRecord s tag)
      else ((s.waitAt i .gwait (tagRecord s tag)).raisePts i.g.uid (tget l.tags tag.toNat {}).time).endWait i.g.uid false := by
  have htag : tget l.tags (bits (tag.setWidth 32) 3 0) {} = tget l.tags tag.toNat {} := by rw [bits_tag]
  exact State.wakeSlot_gwait (State.waitAt_grp hg .gwait (tagRecord s tag)) hl rfl rfl htag

theorem gives_gwait_ends {s : State} {i : Issue} {g : Grp} {l : Launch} {tag : BitVec 4} (hlone : Lone g) (hg : s.grp i.g.uid = some g)
    (hf : i.final = .gwait tag) (hl : s.launch g.launch = some l) (hu : g.under = false) (h : ¬tagOpen s i l tag) :
    Gives s i { parkedAt g i.nextPc with
      pts := max g.pts (tget l.tags tag.toNat {}).time, slot0 := { (parkedAt g i.nextPc).slot0.pastWait with wgen := s.fresh } } := by
  refine ⟨_, State.applyFinal_gwait hg hu hf, ?_⟩
  rw [State.waitAt_gwait hg hl, if_neg (mt (tagOpen_iff hu (State.grp_uid hg)).1 h)]
  exact (State.endWait_raised (State.waitAt_grp hg .gwait (tagRecord s tag)) ⟨hlone.place, hlone.cached, hlone.join, hlone.other⟩ _).symm

theorem gives_gwait_waits {s : State} {i : Issue} {g : Grp} {l : Launch} {tag : BitVec 4} (hg : s.grp i.g.uid = some g)
    (hf : i.final = .gwait tag) (hl : s.launch g.launch = some l) (hu : g.under = false) (h : tagOpen s i l tag) :
    Gives s i (waitingAt g i.nextPc .gwait (tagRecord s tag)) := by
  refine ⟨_, State.applyFinal_gwait hg hu hf, ?_⟩
  rw [State.waitAt_gwait hg hl, if_pos ((tagOpen_iff hu (State.grp_uid hg)).2 h)]
  exact ⟨rfl, State.waitAt_grp hg .gwait (tagRecord s tag)⟩

/-! Barriers at the trailer (R171, R172). -/

theorem State.gang_name {s : State} {k : Nat} {x : Gang} (h : s.gang k = some x) : x.id = k := by
  have := List.find?_some h
  simpa using this

/-- A barrier phase reads the gangs alone. -/
theorem State.barrier_congr {s t : State} {g h : Grp} (hs : t.gangs = s.gangs) (hg : h.gang = g.gang) (hb : h.gangB = g.gangB)
    (gang : Bool) (id phase : Nat) : t.barrier h gang id phase = s.barrier g gang id phase := by
  simp only [State.barrier, State.gang, barKey, hs, hg, hb]

/-- R171: a phase changed reads as changed. -/
theorem State.barrier_updBarrier {s : State} {g : Grp} {k : Gang} (hk : s.gang g.gang = some k) (gang : Bool) (id phase : Nat)
    (f : Barrier → Barrier) : (s.updBarrier g gang id phase f).barrier g gang id phase = f (s.barrier g gang id phase) := by
  have hupd := State.gang_updGang (f := fun k =>
    { k with bars := tset k.bars (barKey g gang id phase) (f (tget k.bars (barKey g gang id phase) {})) }) hk
    (show k.id = g.gang from State.gang_name hk)
  have hold : s.barrier g gang id phase = tget k.bars (barKey g gang id phase) {} := by simp only [State.barrier, hk]
  have hnew : (s.updBarrier g gang id phase f).barrier g gang id phase =
      tget (tset k.bars (barKey g gang id phase) (f (tget k.bars (barKey g gang id phase) {}))) (barKey g gang id phase) {} := by
    unfold State.barrier State.updBarrier
    simp only [hupd]
  rw [hnew, hold, tget_tset_same]

/-- The use of a phase that a group's wait is on: that of its arrival, or the present one. -/
def waitedUse (s : State) (g : Grp) (gang : Bool) (id phase : Nat) : Nat :=
  (tfind g.arr (arrKey gang id phase)).getD (s.barrier g gang id phase).gen

theorem State.applyFinal_barrierWait {s : State} {i : Issue} {gang : Bool} {id phase : Nat} (h : i.final = .barrier false true gang id phase) :
    s.applyFinal i false = some ((s.park i.g.uid i.nextPc).beginBarrier i.g.uid false gang id phase) := by
  rw [State.applyFinal, h]; rfl

/-- What a barrier wait leaves in its record. -/
def barrierRecord (s : State) (g : Grp) (gang : Bool) (id phase : Nat) (x : Slot) : Slot :=
  { x with warg := BitVec.ofNat 32 ((if gang then 32768 else 0) + 16 * phase + id), wgen := waitedUse s g gang id phase }

theorem State.beginBarrier_eq {s : State} {u : Nat} {g : Grp} {gang : Bool} {id phase : Nat} (hg : s.grp u = some g) :
    s.beginBarrier u false gang id phase =
      if waitedUse s g gang id phase < (s.barrier g gang id phase).gen then
        s.releaseWaiter u false gang id phase (tget (s.barrier g gang id phase).released (waitedUse s g gang id phase) 0)
      else s.wait u false .barrier (barrierRecord s g gang id phase) := by
  unfold State.beginBarrier
  simp only [hg]
  rfl

theorem parkedAt_barrier (s : State) (i : Issue) (g : Grp) (gang : Bool) (id phase : Nat) :
    (s.park i.g.uid i.nextPc).barrier (parkedAt g i.nextPc) gang id phase = s.barrier g gang id phase :=
  State.barrier_congr rfl rfl rfl gang id phase

theorem parkedAt_waitedUse (s : State) (i : Issue) (g : Grp) (gang : Bool) (id phase : Nat) :
    waitedUse (s.park i.g.uid i.nextPc) (parkedAt g i.nextPc) gang id phase = waitedUse s g gang id phase := by
  rw [waitedUse, parkedAt_barrier]; rfl

theorem gives_barrier_waits {s : State} {i : Issue} {g : Grp} {gang : Bool} {id phase : Nat} (hg : s.grp i.g.uid = some g)
    (hf : i.final = .barrier false true gang id phase) (h : (s.barrier g gang id phase).gen ≤ waitedUse s g gang id phase) :
    Gives s i (waitingAt g i.nextPc .barrier (barrierRecord s g gang id phase)) := by
  refine ⟨_, State.applyFinal_barrierWait hf, ?_⟩
  have hrec : barrierRecord (s.park i.g.uid i.nextPc) (parkedAt g i.nextPc) gang id phase = barrierRecord s g gang id phase := by
    funext x
    rw [barrierRecord, parkedAt_waitedUse, barrierRecord]
  rw [State.beginBarrier_eq (State.park_grp hg _), parkedAt_barrier, parkedAt_waitedUse, if_neg (by omega), hrec]
  exact ⟨rfl, State.wait_grp (State.park_grp hg _) _ _⟩

theorem gives_barrier_passes {s : State} {i : Issue} {g : Grp} {gang : Bool} {id phase : Nat} (hl : Lone g) (hg : s.grp i.g.uid = some g)
    (hf : i.final = .barrier false true gang id phase) (h : waitedUse s g gang id phase < (s.barrier g gang id phase).gen) :
    Gives s i { parkedAt g i.nextPc with
      pts := max g.pts (tget (s.barrier g gang id phase).released (waitedUse s g gang id phase) 0)
      arr := terase g.arr (arrKey gang id phase), slot0 := (parkedAt g i.nextPc).slot0.pastWait } := by
  refine ⟨_, State.applyFinal_barrierWait hf, ?_⟩
  rw [State.beginBarrier_eq (State.park_grp hg _), parkedAt_barrier, parkedAt_waitedUse, if_pos h, State.releaseWaiter]
  have hraise := Grp.raise_cached (g := parkedAt g i.nextPc) hl.cached
    (tget (s.barrier g gang id phase).released (waitedUse s g gang id phase) 0)
  have hgrp := State.grp_updGrp_named (f := fun x => { x.raise (tget (s.barrier g gang id phase).released (waitedUse s g gang id phase) 0) with
    arr := terase x.arr (arrKey gang id phase) }) (State.park_grp hg i.nextPc) rfl
  rw [hraise] at hgrp
  exact (State.endWait_lone hgrp ⟨hl.place, hl.cached, hl.join, hl.other⟩).symm

/-! Arrivals. -/

/-- No store, atomic or reduction of a group is unacknowledged, no fence of it is open, and no scene is stalled. -/
structure Quiet (s : State) (u : Nat) (g : Grp) : Prop where
  scenes : s.stowed = []
  fence : g.fence = none
  acked : ∀ q ∈ s.reqs, q.placeFor u = none ∨ q.kind = .load ∨ q.acked = true

theorem quiet_reqs {s : State} {u : Nat} {g : Grp} (h : Quiet s u g) :
    (s.reqs.any fun r => (r.placeFor u).isSome && r.kind != .load && !r.acked) = false := by
  rw [List.any_eq_false]
  intro q hq
  rcases h.acked q hq with h | h | h <;> simp [h]

/-- The phase with the group's arrival counted. -/
def State.arrived (s : State) (u : Nat) (g : Grp) (gang : Bool) (id phase : Nat) (f : Barrier → Barrier) : State :=
  (s.updGrp u fun x => { x with arr := tset x.arr (arrKey gang id phase) (s.barrier g gang id phase).gen }).updBarrier g gang id phase f

/-- An arrival's use of its phase ended. -/
def endedUse (b : Barrier) (t : Nat) (c : Barrier) : Barrier :=
  { c with gen := (c.gen + 1) % 2 ^ 48, count := 0, time := 0, released := tset c.released c.gen (max b.time t) }

/-- An arrival counted. -/
def countedUse (b : Barrier) (t : Nat) (c : Barrier) : Barrier := { c with count := b.count + 1, time := max b.time t }

theorem State.arrive_quiet {s : State} {u : Nat} {g : Grp} {gang : Bool} {id phase : Nat} (hg : s.grp u = some g) (h : Quiet s u g) :
    s.arrive u gang id phase =
      let b := s.barrier g gang id phase
      if b.limitOf g gang ≤ b.count + 1 then
        some ((s.arrived u g gang id phase (endedUse b g.pts)).wakeBarrier g gang id phase (max b.time g.pts))
      else some (s.arrived u g gang id phase (countedUse b g.pts)) := by
  have hq := quiet_reqs h
  unfold State.arrive
  simp only [hg, h.scenes, h.fence, hq, List.any_nil, Option.isSome_none, Bool.or_self, Bool.false_eq_true, if_false]
  rfl

theorem State.arrive_refused {s : State} {u : Nat} {g : Grp} {gang : Bool} {id phase : Nat} (hg : s.grp u = some g)
    (h : g.fence.isSome = true ∨ ∃ q ∈ s.reqs, (q.placeFor u).isSome = true ∧ q.kind ≠ .load ∧ q.acked = false) :
    s.arrive u gang id phase = none := by
  unfold State.arrive
  simp only [hg]
  refine if_pos ?_
  rw [Bool.or_eq_true, Bool.or_eq_true]
  rcases h with h | ⟨q, hq, hp, hk, ha⟩
  · exact .inl (.inr h)
  · refine .inr (List.any_eq_true.2 ⟨q, hq, ?_⟩)
    simp [hp, hk, ha]

theorem State.applyFinal_arrive {s t : State} {i : Issue} {gang : Bool} {id phase : Nat} (h : i.final = .barrier true false gang id phase)
    (ha : s.arrive i.g.uid gang id phase = some t) : s.applyFinal i false = some (t.goTo i.g.uid false i.nextPc) := by
  rw [State.applyFinal, h]
  simp only [if_true, ha, Bool.false_eq_true, if_false]
  rfl

theorem State.applyFinal_arrive_refused {s : State} {i : Issue} {w gang : Bool} {id phase : Nat}
    (h : i.final = .barrier true w gang id phase) (ha : s.arrive i.g.uid gang id phase = none) : s.applyFinal i false = none := by
  rw [State.applyFinal, h]
  simp only [if_true, ha]

/-- The groups that a completed phase wakes lie outside the gangs' own state. -/
theorem State.updImage_gangs (s : State) (u : Nat) (f : Grp → Grp) : (s.updImage u f).gangs = s.gangs := by
  unfold State.updImage
  split
  · rfl
  · split
    · rfl
    · exact (State.writeImage_onlyMem _ _).gangs

theorem State.endWait_gangs (s : State) (u : Nat) (b : Bool) : (s.endWait u b).gangs = s.gangs := by
  unfold State.endWait
  simp only
  split
  · exact State.updImage_gangs ..
  · split
    · exact State.updImage_gangs ..
    · exact State.updImage_gangs ..

theorem State.releaseWaiter_gangs (s : State) (u : Nat) (b gang : Bool) (id phase t : Nat) :
    (s.releaseWaiter u b gang id phase t).gangs = s.gangs := State.endWait_gangs ..

theorem foldl_gangs {α : Type} {f : State → α → State} (h : ∀ s x, (f s x).gangs = s.gangs) (xs : List α) (s : State) :
    (xs.foldl f s).gangs = s.gangs := by
  induction xs generalizing s with
  | nil => rfl
  | cons x xs ih => exact (ih _).trans (h s x)

theorem State.wakeBarrier_gangs (s : State) (g : Grp) (gang : Bool) (id phase t : Nat) :
    (s.wakeBarrier g gang id phase t).gangs = s.gangs := by
  unfold State.wakeBarrier
  refine foldl_gangs (fun v x => ?_) _ _
  have hgo (v : State) (b : Bool) (z : Barrier) : (match v.grp x.uid with
      | none => v
      | some y => if waitsOn (y.slot b) gang id phase && decide ((y.slot b).wgen < z.gen) then v.releaseWaiter x.uid b gang id phase t else v).gangs
        = v.gangs := by
    split
    · rfl
    · split
      · exact State.releaseWaiter_gangs ..
      · rfl
  exact (hgo _ true _).trans (hgo v false _)

/-- R172: an arrival that leaves its phase open. -/
theorem arrives_open {s : State} {i : Issue} {g : Grp} {k : Gang} {gang : Bool} {id phase : Nat} (hl : Lone g)
    (hg : s.grp i.g.uid = some g) (hk : s.gang g.gang = some k) (hq : Quiet s i.g.uid g) (hf : i.final = .barrier true false gang id phase)
    (hn : (s.barrier g gang id phase).count + 1 < (s.barrier g gang id phase).limitOf g gang) :
    ∃ r, s.applyFinal i false = some r ∧ r.mem = s.mem
      ∧ r.grp i.g.uid = some (movedTo { g with arr := tset g.arr (arrKey gang id phase) (s.barrier g gang id phase).gen } i.nextPc)
      ∧ r.barrier g gang id phase = countedUse (s.barrier g gang id phase) g.pts (s.barrier g gang id phase) := by
  have ha := State.arrive_quiet (gang := gang) (id := id) (phase := phase) hg hq
  rw [if_neg (by omega)] at ha
  refine ⟨_, State.applyFinal_arrive hf ha, rfl, ?_, ?_⟩
  · have hgrp : (s.arrived i.g.uid g gang id phase (countedUse (s.barrier g gang id phase) g.pts)).grp i.g.uid =
        some { g with arr := tset g.arr (arrKey gang id phase) (s.barrier g gang id phase).gen } := State.grp_updGrp_named hg rfl
    exact State.grp_goTo hgrp ⟨.inl hl.join, Slot.atEnd_of_st (by simp [Grp.slot, hl.other])⟩
  · have hb := State.barrier_updBarrier (s := s.updGrp i.g.uid fun x =>
      { x with arr := tset x.arr (arrKey gang id phase) (s.barrier g gang id phase).gen }) hk gang id phase
      (countedUse (s.barrier g gang id phase) g.pts)
    exact hb

/-- R172: an arrival that completes its phase. -/
theorem arrives_last {s : State} {i : Issue} {g : Grp} {k : Gang} {gang : Bool} {id phase : Nat}
    (hg : s.grp i.g.uid = some g) (hk : s.gang g.gang = some k) (hq : Quiet s i.g.uid g) (hf : i.final = .barrier true false gang id phase)
    (hn : (s.barrier g gang id phase).limitOf g gang ≤ (s.barrier g gang id phase).count + 1) :
    ∃ r, s.applyFinal i false = some r
      ∧ r.barrier g gang id phase = endedUse (s.barrier g gang id phase) g.pts (s.barrier g gang id phase) := by
  have ha := State.arrive_quiet (gang := gang) (id := id) (phase := phase) hg hq
  rw [if_pos hn] at ha
  refine ⟨_, State.applyFinal_arrive hf ha, ?_⟩
  have hb := State.barrier_updBarrier (s := s.updGrp i.g.uid fun x =>
      { x with arr := tset x.arr (arrKey gang id phase) (s.barrier g gang id phase).gen }) hk gang id phase
      (endedUse (s.barrier g gang id phase) g.pts)
  exact (State.barrier_congr (State.wakeBarrier_gangs ..) rfl rfl gang id phase).trans hb

/-! Memory waits (R174), and the theorem. -/

theorem State.mwaitTry_early {s : State} {u : Nat} {b : Bool} (h : s.orderedDone u = false) : s.mwaitTry u b = s := by
  unfold State.mwaitTry
  rw [h]
  rfl

/-- What a memory wait leaves in its record. -/
def memoryRecord (s : State) (i : Issue) (c : Word) (sp : BitVec 2) (x : Slot) : Slot :=
  { x with warg := c, waddr := BitVec.ofNat 57 i.wacc.va, wspace := sp
           wpa := match i.wacc.tgt with | .mem pa _ => pa | .scratch _ _ _ => 0
           watched := false, fired := false, due := s.clk }

/-- The space of the window that a memory wait's word names. -/
def waitSpace (i : Issue) : BitVec 2 :=
  match decodeWord (i.words.getD (i.words.length - 2) 0#32) with
  | .ok (.mwne _ _ w _) | .ok (.mwge _ _ w _) => BitVec.ofNat 2 (winSpace (i.g.window w.toNat))
  | _ => 0#2

theorem State.applyFinal_mwait {s : State} {i : Issue} {k : WaitKind} {c : Word} (h : i.final = .mwait k c) :
    s.applyFinal i false = some ((s.waitAt i k (memoryRecord s i c (waitSpace i))).mwaitTry i.g.uid false) := by
  rw [State.applyFinal, h]; rfl

theorem gives_mwait {s : State} {i : Issue} {g : Grp} {k : WaitKind} {c : Word} (hg : s.grp i.g.uid = some g) (hf : i.final = .mwait k c)
    (h : s.orderedDone i.g.uid = false) : Gives s i (waitingAt g i.nextPc k (memoryRecord s i c (waitSpace i))) := by
  refine ⟨_, State.applyFinal_mwait hf, ?_⟩
  rw [State.mwaitTry_early (s := s.waitAt i k _) h]
  exact ⟨rfl, State.waitAt_grp hg k _⟩

theorem State.applyFinal_trapWord {s : State} {i : Issue} {c : Nat} {n : BitVec 16} (h : i.final = .trapWord c n) :
    s.applyFinal i false = some ((s.park i.g.uid i.nextPc).takeTrap i.g.uid false
      { cls := c, idx := i.words.length - 2, detail := n.toNat } i.nextPc) := by
  rw [State.applyFinal, h]; rfl

/-- Settles O30, a lemma for each final word and outcome. -/
theorem trapWordsAndWaitsApply : Obligations.TrapWordsAndWaitsApply := by
  intro s i g hal
  have hg := hal.found
  have hl := lone_of_alone hal
  dsimp only
  refine ⟨fun c n hf => State.applyFinal_trapWord hf, fun hf hw hd => gives_drain_waits hg hf hw hd,
    fun hf hw hd => gives_drain_ends hl hg hf hw hd,
    fun cue hf => ⟨fun h => gives_cwait_ends hl hg hf h, fun h => gives_cwait_waits hg hf h⟩,
    fun tag l hf hlaunch hu => ⟨fun h => gives_gwait_ends hl hg hf hlaunch hu h, fun h => gives_gwait_waits hg hf hlaunch hu h⟩,
    fun k c hf h => ⟨_, gives_mwait hg hf h⟩, fun gang id phase hid hphase => ⟨fun hf h => gives_barrier_waits hg hf h, fun hf h => gives_barrier_passes hl hg hf h,
      fun k hf hk hq hn => arrives_open hl hg hk ⟨hq.1, hq.2.1, hq.2.2⟩ hf hn,
      fun k hf hk hq hn => arrives_last hg hk ⟨hq.1, hq.2.1, hq.2.2⟩ hf hn,
      fun w hf h => State.applyFinal_arrive_refused hf (State.arrive_refused hg h)⟩⟩

/-! Precise traps (R307, R308), their park (R343) and the handler's return (R310). -/

theorem routed_eq {v : Word} {c : Nat} (hc : c ≠ 15) : routed v c = v.getLsbD c := by
  simp only [routed, clsPoison, bitOf, Bool.and_eq_right_iff_imp]
  simp [hc]

theorem Grp.reportFault_fault (g : Grp) {t : Trap} (h : t.cls = 8) : g.reportFault t = { g with faultVa := t.fva, faultInfo := t.finfo } :=
  if_pos h

theorem Grp.reportFault_plain (g : Grp) {t : Trap} (h : t.cls ≠ 8) : g.reportFault t = g := if_neg h

theorem Grp.reportFault_slot (g : Grp) (t : Trap) (b : Bool) : (g.reportFault t).slot b = g.slot b := by
  unfold Grp.reportFault; split <;> rfl

theorem Grp.reportFault_book (g : Grp) (t : Trap) : (g.reportFault t).book = g.book := by unfold Grp.reportFault; split <;> rfl

/-- The group whose fragment in slot i a trap sends to the handler, with its report. -/
def handledGrp (g : Grp) (i : Bool) (info pc : Word) : Grp := (g.report info pc).enterHandler i

theorem handledGrp_uid (g : Grp) (i : Bool) (info pc : Word) : (handledGrp g i info pc).uid = g.uid := by cases i <;> rfl

theorem State.handlerStep_grp {s : State} {g h : Grp} {i : Bool} {c : Nat} {info pc : Word} (hg : s.grp g.uid = some h)
    (hb : h.book.handler ≠ Config.noJoin) (ho : (h.slot (!i)).handler = false) :
    (s.handlerStep g.uid i c info pc).grp g.uid = some (handledGrp h i info pc) ∧ (s.handlerStep g.uid i c info pc).mem = s.mem := by
  rw [State.handlerStep_enters hg hb ho]
  exact ⟨State.grp_updGrp_named hg (handledGrp_uid h i info pc), rfl⟩

theorem State.takeTrap_enters {s : State} {g : Grp} {i : Bool} {t : Trap} {pc : Word} (hg : s.grp g.uid = some g) (hd : t.dead = false)
    (hc : t.cls ≠ 15) (hh : (g.slot i).handler = false) (ho : (g.slot (!i)).handler = false) (hp : g.parking = false)
    (hr : (s.core g.core).trapvec.getLsbD t.cls = false) (hb : g.book.handler ≠ 0xFFFF_FFFF#32) :
    (s.takeTrap g.uid i t pc).grp g.uid = some (handledGrp (g.reportFault t) i t.word pc) ∧ (s.takeTrap g.uid i t pc).mem = s.mem := by
  have hfault : (s.updGrp g.uid fun x => x.reportFault t).grp g.uid = some (g.reportFault t) :=
    State.grp_updGrp_named hg (Grp.reportFault_uid g t)
  rw [State.takeTrap_handled hg hd hc hh hp ((routed_eq hc).trans hr)]
  exact State.handlerStep_grp hfault (by rw [Grp.reportFault_book]; exact hb) (by rw [Grp.reportFault_slot]; exact ho)

/-- What entering the handler leaves of a group. -/
theorem handledGrp_fields (g : Grp) (i : Bool) (info pc : Word) :
    let h := handledGrp g i info pc
    h.trapInfo = info ∧ h.trapPc = pc ∧ h.savedMode = (g.slot i).mode
      ∧ h.slot i = { g.slot i with handler := true, pc := g.book.handler, mode := 0x0080_0000#32, st := .ready, hold := .none }
      ∧ h.slot (!i) = g.slot (!i) ∧ h.v = g.v ∧ h.s = g.s ∧ h.p = g.p ∧ h.w = g.w ∧ h.stack = g.stack
      ∧ h.faultVa = g.faultVa ∧ h.faultInfo = g.faultInfo := by
  cases i <;> exact ⟨rfl, rfl, rfl, rfl, rfl, rfl, rfl, rfl, rfl, rfl, rfl, rfl⟩

/-- Settles O31, from the handler step of R308. -/
theorem trapEntersHandler : Obligations.TrapEntersHandler := by
  intro s g i t pc hg hd hc hh ho hp hr _ hb
  obtain ⟨hgrp, hmem⟩ := State.takeTrap_enters (pc := pc) hg hd hc hh ho hp hr hb
  refine ⟨_, hgrp, hmem, ?_⟩
  by_cases h8 : t.cls = 8
  · rw [Grp.reportFault_fault g h8]
    obtain ⟨hi, hpc, hm, hs, hn, hv, hsc, hpr, hw, hst, hva, hf⟩ :=
      handledGrp_fields { g with faultVa := t.fva, faultInfo := t.finfo } i t.word pc
    exact ⟨hi, hpc, hm, hs, hn, hv, hsc, hpr, hw, hst, fun _ => ⟨hva, hf⟩, fun h => absurd h8 h⟩
  · rw [Grp.reportFault_plain g h8]
    obtain ⟨hi, hpc, hm, hs, hn, hv, hsc, hpr, hw, hst, hva, hf⟩ := handledGrp_fields g i t.word pc
    exact ⟨hi, hpc, hm, hs, hn, hv, hsc, hpr, hw, hst, fun h => absurd h h8, fun _ => ⟨hva, hf⟩⟩

/-! A routed trap's park. -/

theorem State.atBoundary_iff {s : State} {u : Nat} :
    s.atBoundary u = true ↔ (s.iss.live = false ∨ s.iss.g.uid ≠ u) ∧ ∀ j ∈ s.stowed, j.g.uid ≠ u := by
  simp only [State.atBoundary, Bool.and_eq_true, Bool.not_eq_true', Bool.and_eq_false_iff, beq_eq_false_iff_ne, List.any_eq_false, beq_iff_eq,
    ne_eq]

/-- The group held for its park, with its report. -/
def heldForPark (g : Grp) (i : Bool) (info pc : Word) : Grp :=
  { (g.report info pc).updSlot i fun y => { y with pc := pc, hold := .trapPark } with parking := true, trapSlot := i }

theorem heldForPark_uid (g : Grp) (i : Bool) (info pc : Word) : (heldForPark g i info pc).uid = g.uid := by cases i <;> rfl

theorem Grp.report_reportFault (g : Grp) (t : Trap) (x pc : Word) : (g.report x pc).reportFault t = (g.reportFault t).report x pc := by
  unfold Grp.reportFault; split <;> rfl

/-- The state with the group held for its park. -/
def State.holdForPark (s : State) (u : Nat) (i : Bool) (t : Trap) (info pc : Word) : State :=
  (s.updGrp u fun x => (x.report info pc).reportFault t).updGrp u fun x =>
    { x.updSlot i (fun y => { y with pc := pc, hold := .trapPark }) with parking := true, trapSlot := i }

theorem State.takeTrap_parks {s : State} {g : Grp} {i : Bool} {t : Trap} {pc : Word} (hg : s.grp g.uid = some g) (hd : t.dead = false)
    (hc : t.cls ≠ 15) (hh : (g.slot i).handler = false) (hp : g.parking = false)
    (hr : (s.core g.core).trapvec.getLsbD t.cls = true) :
    s.takeTrap g.uid i t pc = (s.holdForPark g.uid i t t.word pc).settlePark g.uid :=
  State.takeTrap_routed hg hd hc hh hp ((routed_eq hc).trans hr)

theorem State.holdForPark_grp {s : State} {g : Grp} (i : Bool) (t : Trap) (info pc : Word) (hg : s.grp g.uid = some g) :
    (s.holdForPark g.uid i t info pc).grp g.uid = some (heldForPark (g.reportFault t) i info pc) := by
  have hrep := Grp.report_reportFault g t info pc
  have htold : (s.updGrp g.uid fun x => (x.report info pc).reportFault t).grp g.uid = some ((g.reportFault t).report info pc) := by
    rw [State.grp_updGrp_named hg (by rw [hrep, Grp.report_uid, Grp.reportFault_uid]), hrep]
  exact State.grp_updGrp_named htold (by cases i <;> rfl)

/-! What is written through translations does not depend on the groups. -/

/-- A state with other groups. -/
def State.withGroups (s : State) (gs : List Grp) : State := { s with groups := gs }

theorem State.part_withGroups (s : State) (gs : List Grp) (p : Nat) : (s.withGroups gs).part p = s.part p := rfl
theorem State.core_withGroups (s : State) (gs : List Grp) (c : Nat) : (s.withGroups gs).core c = s.core c := rfl
theorem State.die_withGroups (s : State) (gs : List Grp) (d : Nat) : (s.withGroups gs).die d = s.die d := rfl
theorem State.clusterTlb_withGroups (s : State) (gs : List Grp) (c : Nat) : (s.withGroups gs).clusterTlb c = s.clusterTlb c := rfl
theorem State.tomb_withGroups (s : State) (gs : List Grp) (p k : Nat) : (s.withGroups gs).tomb p k = s.tomb p k := rfl
theorem State.paFault_withGroups (s : State) (gs : List Grp) (pa n : Nat) : (s.withGroups gs).paFault pa n = s.paFault pa n := rfl
theorem State.readEntry_withGroups (s : State) (gs : List Grp) (pa stage level : Nat) :
    (s.withGroups gs).readEntry pa stage level = s.readEntry pa stage level := rfl

theorem State.walkFrom_withGroups (s : State) (gs : List Grp) (cs : List PtrEntry) (part : Nat) (root : Word) (stage a : Nat)
    (locate : Nat → Except WalkErr (List PtrEntry × Nat)) (k table : Nat) :
    (s.withGroups gs).walkFrom cs part root stage a locate k table = s.walkFrom cs part root stage a locate k table := by
  induction k generalizing table with
  | zero => rfl
  | succ k ih => simp only [State.walkFrom, ih, State.readEntry_withGroups]

theorem State.walk2_withGroups (s : State) (gs : List Grp) (cs : List PtrEntry) (part : Nat) (root : Word) (ipa : Nat) :
    (s.withGroups gs).walk2 cs part root ipa = s.walk2 cs part root ipa := by
  simp only [State.walk2, State.walkFrom_withGroups]

theorem State.walkWith_withGroups (s : State) (gs : List Grp) (cs : List PtrEntry) (part : Nat) (root : Word) (va : Nat) :
    (s.withGroups gs).walkWith cs part root va = s.walkWith cs part root va := by
  simp only [State.walkWith, State.walkFrom_withGroups, State.walk2_withGroups, State.part_withGroups]

theorem State.translate_withGroups (s : State) (gs : List Grp) (core part : Nat) (system : Bool) (va : Nat) :
    (s.withGroups gs).translate core part system va = s.translate core part system va := by
  simp only [State.translate, State.lookup, State.lookupWith, State.walkWith_withGroups, State.core_withGroups, State.die_withGroups,
    State.clusterTlb_withGroups]

theorem State.writePa_withGroups (s : State) (gs : List Grp) (pa : Nat) (bs : List Byte) :
    (s.withGroups gs).writePa pa bs = (s.writePa pa bs).withGroups gs := by
  unfold State.writePa
  rw [State.die_withGroups]
  split <;> rfl

theorem State.writeLines_withGroups (s : State) (gs : List Grp) (core part va : Nat) (bs : List Byte) :
    (s.withGroups gs).writeLines core part va bs = (s.writeLines core part va bs).withGroups gs := by
  simp only [State.writeLines]
  generalize chunk bs = cs
  induction cs generalizing s with
  | nil => rfl
  | cons c cs ih =>
    simp only [List.foldl_cons, State.translate_withGroups, State.paFault_withGroups, State.writePa_withGroups]
    split
    · split
      · exact ih _
      · exact ih _
    · exact ih _

theorem State.writeImage_withGroups (s : State) (gs : List Grp) (g : Grp) :
    (s.withGroups gs).writeImage g = (s.writeImage g).withGroups gs := by
  simp only [State.writeImage, State.writeLines_withGroups, State.tomb_withGroups]
  split <;> rfl

/-! The park itself (R27, R343). -/

/-- The group parked by its trap, its image still in the register cache. -/
def parkedByTrap (s : State) (g : Grp) : Grp :=
  { g with place := .trapParked, parking := false, ptsAcc := if g.place = .resident then s.clk - g.ptsSince else g.ptsAcc }

/-- The state with the group off its core's schedules. -/
def State.offSchedule (s : State) (u core : Nat) : State :=
  (s.updGrp u fun x =>
    { x with place := .trapParked, parking := false, ptsAcc := if x.place = .resident then s.clk - x.ptsSince else x.ptsAcc }).unschedule u core

/-- A group parked at its boundary: its image in memory, the control cores told. -/
theorem State.settlePark_grp {s : State} {g : Grp} (hg : s.grp g.uid = some g) (hp : g.parking = true) (he : g.place ≠ .ended)
    (hc : g.cached = true) (hb : s.atBoundary g.uid = true) :
    (s.settlePark g.uid).grp g.uid = some { parkedByTrap s g with cached := false }
      ∧ (s.settlePark g.uid).out = .trapInterrupt (dieOfCore g.core) g.part g.imgSlot :: s.out
      ∧ (s.settlePark g.uid).cores = (s.offSchedule g.uid g.core).cores
      ∧ (s.settlePark g.uid).mem = ((s.offSchedule g.uid g.core).writeImage (parkedByTrap s g)).mem := by
  have hoff : (s.offSchedule g.uid g.core).grp g.uid = some (parkedByTrap s g) := by
    rw [State.offSchedule, State.unschedule_grp]
    exact State.grp_updGrp_named hg rfl
  have hmem := State.writeImage_onlyMem (s.offSchedule g.uid g.core) (parkedByTrap s g)
  have hsave : (s.offSchedule g.uid g.core).saveImage g.uid =
      ((s.offSchedule g.uid g.core).writeImage (parkedByTrap s g)).updGrp g.uid fun x => { x with cached := false } := by
    unfold State.saveImage
    rw [hoff]
    exact if_pos hc
  have hpark : s.settlePark g.uid = ((s.offSchedule g.uid g.core).saveImage g.uid).send
      (.trapInterrupt (dieOfCore g.core) g.part g.imgSlot) := State.settlePark_parks hg hp he hb
  rw [hpark, hsave]
  refine ⟨State.grp_updGrp_named ((hmem.grp g.uid).trans hoff) rfl, ?_, hmem.cores, rfl⟩
  exact congrArg _ hmem.out

theorem heldForPark_fields (g : Grp) (i : Bool) (info pc : Word) :
    let h := heldForPark g i info pc
    h.place = g.place ∧ h.cached = g.cached ∧ h.core = g.core ∧ h.part = g.part ∧ h.imgSlot = g.imgSlot ∧ h.parking = true ∧ h.trapSlot = i
      ∧ h.trapInfo = info ∧ h.trapPc = pc ∧ h.slot i = { g.slot i with pc := pc, hold := .trapPark } ∧ h.slot (!i) = g.slot (!i)
      ∧ h.v = g.v ∧ h.s = g.s ∧ h.p = g.p := by
  cases i <;> exact ⟨rfl, rfl, rfl, rfl, rfl, rfl, rfl, rfl, rfl, rfl, rfl, rfl, rfl, rfl⟩

theorem Grp.reportFault_fields (g : Grp) (t : Trap) :
    let h := g.reportFault t
    h.place = g.place ∧ h.cached = g.cached ∧ h.core = g.core ∧ h.part = g.part ∧ h.imgSlot = g.imgSlot ∧ h.v = g.v ∧ h.s = g.s
      ∧ h.p = g.p := by
  simp only [Grp.reportFault]
  split <;> exact ⟨rfl, rfl, rfl, rfl, rfl, rfl, rfl, rfl⟩

theorem Grp.recached {g : Grp} (h : g.cached = true) : ({ ({ g with cached := false } : Grp) with cached := true } : Grp) = g := by
  cases g
  subst h
  rfl

theorem State.offSchedule_eq (s : State) (u core : Nat) :
    s.offSchedule u core = ({ s with cores := (s.offSchedule u core).cores } : State).withGroups (s.offSchedule u core).groups := rfl

theorem State.holdForPark_eq (s : State) (u : Nat) (i : Bool) (t : Trap) (info pc : Word) :
    s.holdForPark u i t info pc = s.withGroups (s.holdForPark u i t info pc).groups := rfl

/-- The image that a park writes is written as from the state before it, with the cores as the park leaves them. -/
theorem State.parkImage_mem (s : State) (gs : List Grp) (u core : Nat) (g : Grp) :
    (((s.withGroups gs).offSchedule u core).writeImage g).mem =
      (({ s with cores := ((s.withGroups gs).offSchedule u core).cores } : State).writeImage g).mem := by
  rw [State.offSchedule_eq, State.writeImage_withGroups]
  have h : ({ s.withGroups gs with cores := ((s.withGroups gs).offSchedule u core).cores } : State) =
      ({ s with cores := ((s.withGroups gs).offSchedule u core).cores } : State).withGroups gs := rfl
  rw [h, State.writeImage_withGroups]
  rfl

theorem parkedByTrap_slot (s : State) (g : Grp) (c i : Bool) :
    ({ parkedByTrap s g with cached := c } : Grp).slot i = g.slot i := by cases i <;> rfl

/-- R27, R308, R343: a routed trap at the boundary of its group. -/
theorem holdForPark_parks {s : State} {g : Grp} {i : Bool} {t : Trap} {info pc : Word} (hg : s.grp g.uid = some g)
    (hpl : g.place = .resident) (hc : g.cached = true) (hb : s.atBoundary g.uid = true) :
    let u := (s.holdForPark g.uid i t info pc).settlePark g.uid
    ∃ h, u.grp g.uid = some h ∧ h.place = .trapParked ∧ h.trapInfo = info ∧ h.trapPc = pc ∧ h.parking = false ∧ h.cached = false
      ∧ h.slot i = { g.slot i with pc := pc, hold := .trapPark } ∧ h.slot (!i) = g.slot (!i) ∧ h.v = g.v ∧ h.s = g.s ∧ h.p = g.p
      ∧ u.out = .trapInterrupt (g.core / 192) g.part g.imgSlot :: s.out
      ∧ u.mem = (State.writeImage { s with cores := u.cores } { h with cached := true }).mem := by
  intro u
  obtain ⟨hp, hca, hco, hpa, him, hpk, -, hi, hpc, hs, hn, hv, hsc, hpr⟩ := heldForPark_fields (g.reportFault t) i info pc
  obtain ⟨rp, rca, rco, rpa, rim, rv, rsc, rpr⟩ := Grp.reportFault_fields g t
  have huid : (heldForPark (g.reportFault t) i info pc).uid = g.uid := (heldForPark_uid ..).trans (Grp.reportFault_uid g t)
  have hheld := State.holdForPark_grp i t info pc hg
  have hcached : (heldForPark (g.reportFault t) i info pc).cached = true := hca.trans (rca.trans hc)
  have hpark := State.settlePark_grp (g := heldForPark (g.reportFault t) i info pc) (s := s.holdForPark g.uid i t info pc)
    (by rw [huid]; exact hheld) hpk (by rw [hp, rp, hpl]; simp) hcached (by rw [huid]; exact hb)
  rw [huid, hco, rco, hpa, rpa, him, rim] at hpark
  obtain ⟨hgrp, hout, hcores, hmem⟩ := hpark
  refine ⟨_, hgrp, rfl, hi, hpc, rfl, rfl, ?_, ?_, hv.trans rv, hsc.trans rsc, hpr.trans rpr, hout, ?_⟩
  · exact (parkedByTrap_slot ..).trans (hs.trans (by rw [Grp.reportFault_slot]))
  · exact (parkedByTrap_slot ..).trans (hn.trans (Grp.reportFault_slot ..))
  · refine hmem.trans ?_
    rw [Grp.recached (g := parkedByTrap (s.holdForPark g.uid i t info pc) (heldForPark (g.reportFault t) i info pc)) hcached]
    have hu : u.cores = ((s.holdForPark g.uid i t info pc).offSchedule g.uid g.core).cores := hcores
    rw [hu, State.holdForPark_eq]
    exact State.parkImage_mem ..

/-- R308: before its boundary the group waits, its fragment held. -/
theorem holdForPark_waits {s : State} {g : Grp} {i : Bool} {t : Trap} {info pc : Word} (hg : s.grp g.uid = some g)
    (hb : s.atBoundary g.uid = false) :
    let u := (s.holdForPark g.uid i t info pc).settlePark g.uid
    ∃ h, u.grp g.uid = some h ∧ h.parking = true ∧ h.place = g.place ∧ h.trapSlot = i ∧ h.trapInfo = info ∧ h.trapPc = pc
      ∧ h.slot i = { g.slot i with pc := pc, hold := .trapPark } ∧ h.slot (!i) = g.slot (!i) ∧ u.mem = s.mem ∧ u.out = s.out := by
  intro u
  have hu : u = s.holdForPark g.uid i t info pc := State.settlePark_waits hb
  obtain ⟨hp, -, -, -, -, hpk, hts, hi, hpc, hs, hn, -, -, -⟩ := heldForPark_fields (g.reportFault t) i info pc
  obtain ⟨rp, -, -, -, -, -, -, -⟩ := Grp.reportFault_fields g t
  rw [hu]
  exact ⟨_, State.holdForPark_grp i t info pc hg, hpk, hp.trans rp, hts, hi, hpc, by rw [hs, Grp.reportFault_slot], by
    rw [hn, Grp.reportFault_slot], rfl, rfl⟩

/-- What a fragment waits for that a trap meets while its group is to park (log 81). -/
def keptTrap (c : Nat) (info : Word) : Hold := if c = 16 ∨ c = 17 then .parkPend info else .handlerRetry

theorem State.keepTrap_grp {s : State} {g : Grp} {i : Bool} {pc : Word} (k : Hold) (hg : s.grp g.uid = some g) :
    let u := s.updGrp g.uid fun x => x.updSlot i fun y => { y with pc := pc, hold := k }
    ∃ h, u.grp g.uid = some h ∧ h.trapInfo = g.trapInfo ∧ h.trapPc = g.trapPc ∧ h.slot i = { g.slot i with pc := pc, hold := k }
      ∧ h.slot (!i) = g.slot (!i) ∧ u.mem = s.mem ∧ u.out = s.out := by
  refine ⟨_, State.grp_updGrp_named hg (Grp.updSlot_uid ..), ?_⟩
  cases i <;> exact ⟨rfl, rfl, rfl, rfl, rfl, rfl⟩

/-- Settles O32: at the boundary, before it, and while another trap of the group is to park it. -/
theorem routedTrapParks : Obligations.RoutedTrapParks := by
  intro s g i t pc hg hd hc hh _ u
  refine ⟨fun hr hp hpl hca hiss hst => ?_, fun hr hp hst => ?_, fun hp => ?_⟩
  · have hu : u = (s.holdForPark g.uid i t t.word pc).settlePark g.uid := State.takeTrap_parks hg hd hc hh hp hr
    rw [hu]
    exact holdForPark_parks hg hpl hca (State.atBoundary_iff.2 ⟨hiss, hst⟩)
  · have hu : u = (s.holdForPark g.uid i t t.word pc).settlePark g.uid := State.takeTrap_parks hg hd hc hh hp hr
    have hb : s.atBoundary g.uid = false := by
      rw [← Bool.not_eq_true, State.atBoundary_iff]
      rintro ⟨-, h⟩
      obtain ⟨j, hj, hid⟩ := hst
      exact h j hj hid
    rw [hu]
    exact holdForPark_waits hg hb
  · have hu : u = s.updGrp g.uid fun x => x.updSlot i fun y => { y with pc := pc, hold := keptTrap t.cls t.word } :=
      State.takeTrap_held hg hd hc hh hp
    rw [hu]
    exact State.keepTrap_grp (keptTrap t.cls t.word) hg

/-! The return (R310). -/

theorem State.releaseHeld_none {s : State} {u : Nat} {g : Grp} {i : Bool} (hg : s.grp u = some g) (h : (g.slot i).hold = .none) :
    s.releaseHeld u i = s := by
  simp [State.releaseHeld, hg, h]

/-- The group whose handler in slot i has returned. -/
def returnedGrp (g : Grp) (i : Bool) : Grp := g.updSlot i fun x => { x with pc := g.trapPc, mode := g.savedMode, handler := false }

/-- Settles O33: the fragment stops nowhere on its return, and the other one holds nothing. -/
theorem handlerReturns : Obligations.HandlerReturns := by
  intro s g i hg hold hend hj
  have hb : (returnedGrp g i).boundary i = returnedGrp g i :=
    Grp.boundary_eq_self (Slot.atEnd_of_join (by simpa [returnedGrp] using hj)) (by simpa [returnedGrp] using hend)
  have h1 : (s.updGrp g.uid fun g => g.updSlot i fun x => { x with pc := g.trapPc, mode := g.savedMode, handler := false }).grp g.uid =
      some (returnedGrp g i) := State.grp_updGrp_named hg (Grp.updSlot_uid ..)
  have h2 := State.grp_updGrp_named (f := fun g => g.boundary i) h1 (by rw [hb])
  rw [hb] at h2
  have hrel : s.returnTrap g.uid i = (s.updGrp g.uid fun g => g.updSlot i fun x =>
      { x with pc := g.trapPc, mode := g.savedMode, handler := false }).updGrp g.uid fun g => g.boundary i :=
    State.releaseHeld_none h2 (by simpa [returnedGrp] using hold)
  rw [hrel]
  refine ⟨_, h2, rfl, ?_⟩
  cases i <;> exact ⟨rfl, rfl, rfl, rfl, rfl, rfl, rfl, rfl⟩

end Sys2Proof.Machine
end

section
/-! SUPPORT. Where results land (R22, R47, R157, R158). -/

namespace Sys2Proof.Machine

open Sys2Proof.Claim

/-- A change of a group whose image is in memory is a change of what that image holds (R22). -/
theorem State.updImage_uncached {s : State} {u : Nat} {g : Grp} (hg : s.grp u = some g) (hc : g.cached = false) (f : Grp → Grp)
    (hf : (f (s.readImage g g.core)).uid = u) : (s.updImage u f).grp u = some (f (s.readImage g g.core)) := by
  have hupd : s.updImage u f = (s.updGrp u fun _ => f (s.readImage g g.core)).writeImage (f (s.readImage g g.core)) := by
    simp [State.updImage, hg, hc]
  rw [hupd, (State.writeImage_onlyMem _ _).grp]
  exact State.grp_updGrp hg hf

/-- A parked group whose image the register cache has pushed out to memory, its program time raised since (R26, R28). -/
def pushedGroup : Grp := { uid := 1, gang := 2, launch := 3, place := .parked, cached := false, ptsLate := 5 }

/-- A load of that group, whose data has come, for no register. -/
def landingLoad : Req := { id := 7, uid := 1, kind := .load, woken := true, dest := .s 0 0 }

def landingState : State := { State.reset with groups := [pushedGroup], reqs := [landingLoad] }

/-- Its result lands in the image as memory holds it, whose program time is the raised one, with no raise left to come. -/
theorem landingState_lands : exec (.deferredResultLands 7) landingState =
    .next ((landingState.updImage 1 fun g => g.landReq landingLoad).dropReq 7) := rfl

theorem State.dropReq_grp (s : State) (r u : Nat) : (s.dropReq r).grp u = s.grp u := rfl

theorem readImage_ptsLate (s : State) (g : Grp) (core : Nat) : (s.readImage g core).ptsLate = 0 := rfl

theorem landingLoad_ptsLate (g : Grp) : (g.landReq landingLoad).ptsLate = g.ptsLate := rfl

/-- Refutes O49: a group that is neither evicted nor parked by a trap can have its image in memory, pushed out of the register cache
(R26); there a result lands in what the image holds, not in the group as it was noted. -/
theorem not_requestEvents : ¬ Obligations.RequestEvents := by
  unfold Obligations.RequestEvents
  intro h
  obtain ⟨-, -, -, h, -⟩ := h landingState 7 landingLoad rfl
  obtain ⟨t, ht, hgrp, -⟩ := h rfl rfl (fun a ha => by cases ha) (by decide) rfl pushedGroup rfl (by decide) (by decide)
  have ht' : (landingState.updImage 1 fun g => g.landReq landingLoad).dropReq 7 = t := by
    injection landingState_lands.symm.trans ht
  have himage : (landingState.updImage 1 fun g => g.landReq landingLoad).grp 1 =
      some ((landingState.readImage pushedGroup pushedGroup.core).landReq landingLoad) :=
    State.updImage_uncached (g := pushedGroup) rfl rfl (fun g => g.landReq landingLoad) rfl
  rw [← ht', State.dropReq_grp] at hgrp
  replace hgrp := himage.symm.trans hgrp
  have hlate := congrArg Grp.ptsLate (Option.some.inj hgrp)
  rw [landingLoad_ptsLate, landingLoad_ptsLate, readImage_ptsLate] at hlate
  exact absurd hlate (by decide)

/-! Where a load's result lands (R47, R157, R158). -/

/-- The register's word of an access, narrow loads sign-extended. -/
def landedWord (ext : Nat) (a : Acc) (j : Nat) : Word :=
  if ext = 8 then (a.res.extractLsb' (32 * j) 8).signExtend 32
  else if ext = 16 then (a.res.extractLsb' (32 * j) 16).signExtend 32 else a.res.extractLsb' (32 * j) 32

/-- The sign extension of a field reads the field's low bits alone. -/
theorem sext_extract (x : BitVec 128) (k n : Nat) (h0 : 0 < n) (hn : n ≤ 32) :
    sext (x.extractLsb' k 32) n = (x.extractLsb' k n).signExtend 32 := by
  have hlow : (x.extractLsb' k 32).toNat % 2 ^ n = ((x.extractLsb' k n).setWidth 32).toNat % 2 ^ n := by
    have hle : 2 ^ n ≤ 2 ^ 32 := Nat.pow_le_pow_right (by decide) hn
    rw [BitVec.toNat_setWidth, Nat.mod_eq_of_lt ((x.extractLsb' k n).isLt.trans_le hle), BitVec.extractLsb'_toNat, BitVec.extractLsb'_toNat,
      Nat.mod_mod_of_dvd _ (Nat.pow_dvd_pow 2 hn), Nat.mod_mod]
  rw [← sext_setWidth _ h0 hn]
  simp only [sext, hlow]

theorem Acc.word_eq (a : Acc) {ext : Nat} (he : ext = 0 ∨ ext = 8 ∨ ext = 16) (j : Nat) : a.word ext j = landedWord ext a j := by
  rcases he with rfl | rfl | rfl
  · simp only [Acc.word, landedWord, if_true, if_neg (show ¬(0 = 8) by decide), if_neg (show ¬(0 = 16) by decide)]
  · simp only [Acc.word, landedWord, if_true, if_neg (show ¬(8 = 0) by decide), sext_extract _ _ 8 (by decide) (by decide)]
  · simp only [Acc.word, landedWord, if_true, if_neg (show ¬(16 = 0) by decide), if_neg (show ¬(16 = 8) by decide),
      sext_extract _ _ 16 (by decide) (by decide)]

theorem Grp.landV_vreg (g : Grp) {n : Nat} (h : n < 128) (m : Word) (tag : BitVec 4) (x : Lanes) (p : Word) :
    (g.landV n m tag x p).vreg n =
      { lanes := mergeLanes m x (g.vreg n).lanes, tag := tag, pois := ((g.vreg n).pois &&& ~~~m) ||| (p &&& m), full := true } :=
  Grp.vreg_setV _ _ _ h

/-- Results landed in consecutive registers, one each, change those alone. -/
theorem landV_range (g : Grp) (n : Nat) (m : Word) (tag : BitVec 4) (x : Nat → Lanes) (p : Word) (k : Nat) :
    let h := (List.range k).foldl (fun g j => g.landV (n + j) m tag (x j) p) g
    (∀ i, i < n ∨ n + k ≤ i → h.vreg i = g.vreg i) ∧ h.s = g.s ∧ h.p = g.p ∧ h.pts = g.pts
      ∧ (n + k ≤ 128 → ∀ j < k, h.vreg (n + j) = (g.landV (n + j) m tag (x j) p).vreg (n + j)) := by
  induction k with
  | zero => exact ⟨fun _ _ => rfl, rfl, rfl, rfl, fun _ j hj => absurd hj (by omega)⟩
  | succ k ih =>
    simp only [List.range_succ, List.foldl_append, List.foldl_cons, List.foldl_nil]
    obtain ⟨hother, hs, hp, hpts, hthere⟩ := ih
    refine ⟨fun i hi => (Grp.vreg_setV_other _ _ _ _ (by omega)).trans (hother i (by omega)), hs, hp, hpts, fun hn j hj => ?_⟩
    rcases Nat.lt_succ_iff_lt_or_eq.1 hj with hj | rfl
    · exact (Grp.vreg_setV_other _ _ _ _ (by omega)).trans (hthere (by omega) j hj)
    · rw [Grp.landV_vreg _ (by omega), Grp.landV_vreg _ (by omega), hother _ (by omega)]

theorem landS_range (g : Grp) (n : Nat) (x : Nat → Word) (p : Bool) (k : Nat) :
    let h := (List.range k).foldl (fun g j => g.landS (n + j) (x j) p) g
    (∀ i, i < n ∨ n + k ≤ i → h.sreg i = g.sreg i) ∧ h.v = g.v ∧ h.p = g.p ∧ h.pts = g.pts
      ∧ (n + k ≤ 32 → ∀ j < k, h.sreg (n + j) = { val := x j, pois := p, full := true }) := by
  induction k with
  | zero => exact ⟨fun _ _ => rfl, rfl, rfl, rfl, fun _ j hj => absurd hj (by omega)⟩
  | succ k ih =>
    simp only [List.range_succ, List.foldl_append, List.foldl_cons, List.foldl_nil]
    obtain ⟨hother, hv, hp, hpts, hthere⟩ := ih
    refine ⟨fun i hi => (Grp.sreg_setS_other _ _ _ _ (by omega)).trans (hother i (by omega)), hv, hp, hpts, fun hn j hj => ?_⟩
    rcases Nat.lt_succ_iff_lt_or_eq.1 hj with hj | rfl
    · exact (Grp.sreg_setS_other _ _ _ _ (by omega)).trans (hthere (by omega) j hj)
    · exact Grp.sreg_setS _ _ _ (by omega)

/-- The access of a lane, none where the lane has none. -/
def Req.accOf (r : Req) (l : Nat) : Acc := (r.accs.find? fun a => a.lane == l).getD {}

theorem Grp.landReq_v {g : Grp} {r : Req} {n k : Nat} (h : r.dest = .v n k) : g.landReq r =
    (List.range k).foldl (fun g j => g.landV (n + j) r.act r.tag (lanesFrom fun l => (r.accOf l).word r.ext j)
      (maskOf fun l => (r.accOf l).rpois)) g := by
  rw [Grp.landReq, h]; rfl

theorem Grp.landReq_s {g : Grp} {r : Req} {n k : Nat} (h : r.dest = .s n k) : g.landReq r =
    (List.range k).foldl (fun g j => g.landS (n + j) ((r.accs.headD {}).word r.ext j) (r.accs.headD {}).rpois) g := by
  rw [Grp.landReq, h]

/-- Settles O50, register by register. -/
theorem loadResultLands : Obligations.LoadResultLands := by
  intro g r n k he
  dsimp only
  refine ⟨fun hn hd => ?_, fun hn hd => ?_⟩
  · obtain ⟨hother, hs, hp, hpts, hthere⟩ := landV_range g n r.act r.tag (fun j => lanesFrom fun l => (r.accOf l).word r.ext j)
      (maskOf fun l => (r.accOf l).rpois) k
    rw [Grp.landReq_v hd]
    refine ⟨fun j hj => ?_, hother, hs, hp, hpts⟩
    rw [hthere hn j hj, Grp.landV_vreg _ (by omega)]
    refine ⟨fun l hl => ?_, fun l hl => ?_, rfl, rfl⟩
    · rw [laneAt_mergeLanes _ _ _ _ hl, laneAt_lanesFrom _ _ hl, Acc.word_eq _ he]
      rfl
    · simp only [BitVec.getLsbD_or, BitVec.getLsbD_and, BitVec.getLsbD_not, getLsbD_maskOf _ hl, hl, decide_true, Bool.true_and, Req.accOf]
      cases r.act.getLsbD l <;> simp
  · obtain ⟨hother, hv, hp, hpts, hthere⟩ := landS_range g n (fun j => (r.accs.headD {}).word r.ext j) (r.accs.headD {}).rpois k
    rw [Grp.landReq_s hd]
    refine ⟨fun j hj => ?_, hother, hv, hp, hpts⟩
    rw [hthere hn j hj, Acc.word_eq _ he]
    rfl

end Sys2Proof.Machine
end

section
/-! SUPPORT. What a step runs, and the combining fabric (log 1; R383 to R392). -/

namespace Sys2Proof.Machine

open Sys2Proof.Claim

/-- A machine that has not booted, with a control core's QUIESCE on its agenda. -/
def unbootedState : State := { State.reset with agenda := [.event (.quiesce 0)] }

/-- Whether an outcome is a state whose partition 0 is quiesced. -/
def quiesced : Out → Bool
  | .next t => (t.part 0).quiesce
  | _ => false

/-- Before boot a step drops what a control core asks for (R405). -/
theorem step_unbootedState : quiesced (step unbootedState) = false := by decide

/-- The event itself quiesces the partition. -/
theorem exec_unbootedState :
    quiesced (unbootedState.settle (exec (.quiesce 0) { unbootedState with clk := unbootedState.clk + 1, agenda := [] })) = true := by
  decide

/-- Refutes O41: an event that is a control core's store is on the agenda of a machine that has not booted: the step drops it (R405). -/
theorem not_stepRunsDecoded : ¬ Obligations.StepRunsDecoded := by
  unfold Obligations.StepRunsDecoded
  intro h
  obtain ⟨-, -, hevent, -⟩ := h.1 unbootedState
  have hstep := congrArg quiesced (hevent (.quiesce 0) [] rfl)
  rw [step_unbootedState, exec_unbootedState] at hstep
  exact absurd hstep (by decide)

/-- A word as what stands above a field, the field and what stands below it, with the field replaced. -/
theorem toNat_setField (x : Word) {hi lo : Nat} (v : Nat) (hlo : lo ≤ hi) (hhi : hi < 32) :
    (setField x hi lo v).toNat =
      (x.toNat / 2 ^ lo / 2 ^ (hi + 1 - lo) * 2 ^ (hi + 1 - lo) + v % 2 ^ (hi + 1 - lo)) * 2 ^ lo + x.toNat % 2 ^ lo := by
  have hx := x.isLt
  have hw : 0 < 2 ^ (hi + 1 - lo) := Nat.two_pow_pos _
  have hv := Nat.mod_lt v hw
  have hsplit : (2 : Nat) ^ 32 = 2 ^ (31 - hi) * 2 ^ (hi + 1 - lo) * 2 ^ lo := by
    rw [← Nat.pow_add, ← Nat.pow_add]
    congr 1
    omega
  have htop : x.toNat / 2 ^ lo / 2 ^ (hi + 1 - lo) < 2 ^ (31 - hi) := by
    rw [Nat.div_div_eq_div_mul, Nat.div_lt_iff_lt_mul (by positivity), Nat.mul_comm (2 ^ lo), ← Nat.mul_assoc, ← hsplit]
    exact hx
  have hmid := Nat.div_add_mod (x.toNat / 2 ^ lo) (2 ^ (hi + 1 - lo))
  have hall := Nat.div_add_mod x.toNat (2 ^ lo)
  have hlow := Nat.mod_lt x.toNat (Nat.two_pow_pos lo)
  rw [setField, BitVec.toNat_ofNat, bits, Nat.shiftRight_eq_div_pow]
  generalize hq : x.toNat / 2 ^ lo = q at *
  generalize hr : x.toNat % 2 ^ lo = r at *
  generalize ha : q / 2 ^ (hi + 1 - lo) = a at *
  generalize hb : q % 2 ^ (hi + 1 - lo) = b at *
  generalize v % 2 ^ (hi + 1 - lo) = c at *
  generalize 2 ^ (hi + 1 - lo) = w at *
  generalize 2 ^ lo = l at *
  have hnew : x.toNat - b * l + c * l = (a * w + c) * l + r := by
    rw [← hall, ← hmid]
    have : l * (w * a + b) + r - b * l = a * w * l + r := by
      rw [Nat.mul_add, Nat.mul_comm b l, Nat.mul_comm w a, Nat.mul_comm l (a * w)]
      omega
    rw [this, Nat.add_mul]
    omega
  rw [hnew, Nat.mod_eq_of_lt]
  have hle : a * w + c + 1 ≤ 2 ^ (31 - hi) * w := by
    calc a * w + c + 1 ≤ a * w + w := by omega
      _ = (a + 1) * w := by rw [Nat.add_mul, Nat.one_mul]
      _ ≤ 2 ^ (31 - hi) * w := Nat.mul_le_mul_right _ htop
  calc (a * w + c) * l + r < (a * w + c) * l + l := by omega
    _ = (a * w + c + 1) * l := by rw [Nat.add_mul (a * w + c) 1, Nat.one_mul]
    _ ≤ 2 ^ (31 - hi) * w * l := Nat.mul_le_mul_right _ hle
    _ = 2 ^ 32 := hsplit.symm

/-- A field that was set. -/
theorem bits_setField (x : Word) {hi lo : Nat} (v : Nat) (hlo : lo ≤ hi) (hhi : hi < 32) :
    bits (setField x hi lo v) hi lo = v % 2 ^ (hi + 1 - lo) := by
  rw [bits, Nat.shiftRight_eq_div_pow, toNat_setField x v hlo hhi, Nat.add_comm, Nat.mul_comm _ (2 ^ lo),
    Nat.add_mul_div_left _ _ (Nat.two_pow_pos lo), Nat.div_eq_of_lt (Nat.mod_lt _ (Nat.two_pow_pos lo)), Nat.zero_add,
    Nat.add_comm, Nat.add_mul_mod_self_right, Nat.mod_mod]

/-- A field above one that was set. -/
theorem bits_setField_above (x : Word) {hi lo top bot : Nat} (v : Nat) (hlo : lo ≤ hi) (hhi : hi < 32) (hb : hi < bot) :
    bits (setField x hi lo v) top bot = bits x top bot := by
  have hw : 0 < 2 ^ (hi + 1 - lo) := Nat.two_pow_pos _
  have hbot : (2 : Nat) ^ bot = 2 ^ lo * (2 ^ (hi + 1 - lo) * 2 ^ (bot - (hi + 1))) := by
    rw [← Nat.pow_add, ← Nat.pow_add]
    congr 1
    omega
  rw [bits, bits, Nat.shiftRight_eq_div_pow, Nat.shiftRight_eq_div_pow, toNat_setField x v hlo hhi, hbot,
    ← Nat.div_div_eq_div_mul, ← Nat.div_div_eq_div_mul, ← Nat.div_div_eq_div_mul, ← Nat.div_div_eq_div_mul]
  congr 2
  rw [Nat.add_comm, Nat.mul_comm _ (2 ^ lo), Nat.add_mul_div_left _ _ (Nat.two_pow_pos lo),
    Nat.div_eq_of_lt (Nat.mod_lt _ (Nat.two_pow_pos lo)), Nat.zero_add, Nat.add_comm, Nat.add_mul_div_right _ _ hw,
    Nat.div_eq_of_lt (Nat.mod_lt _ hw), Nat.zero_add]

/-- A field below one that was set. -/
theorem bits_setField_below (x : Word) {hi lo top bot : Nat} (v : Nat) (hlo : lo ≤ hi) (hhi : hi < 32) (hb : bot ≤ top) (ht : top < lo) :
    bits (setField x hi lo v) top bot = bits x top bot := by
  have hfield (n : Nat) : (n / 2 ^ bot) % 2 ^ (top + 1 - bot) = (n % 2 ^ lo / 2 ^ bot) % 2 ^ (top + 1 - bot) := by
    have hlow : (2 : Nat) ^ lo = 2 ^ bot * (2 ^ (top + 1 - bot) * 2 ^ (lo - (top + 1))) := by
      rw [← Nat.pow_add, ← Nat.pow_add]
      congr 1
      omega
    rw [hlow, Nat.mod_mul_right_div_self, Nat.mod_mul_right_mod]
  rw [bits, bits, Nat.shiftRight_eq_div_pow, Nat.shiftRight_eq_div_pow, hfield, hfield x.toNat, toNat_setField x v hlo hhi,
    Nat.mul_add_mod_self_right, Nat.mod_mod]

/-! Packets at a switch (R383 to R387). -/

theorem State.updPkt_pkts (s : State) (k : Nat) (f : Packet → Packet) : (s.updPkt k f).pkts = updFirst (fun p => p.id == k) f s.pkts := rfl

theorem State.dropPkt_pkts (s : State) (k : Nat) : (s.dropPkt k).pkts = s.pkts.filter fun p => p.id != k := rfl

theorem PktKind.channel_atomic {op : AtomOp} (signed ret : Bool) (hop : op ≠ .cas) : (PktKind.atomic op signed ret).channel = .combine := by
  cases op <;> simp_all [PktKind.channel]

/-- A packet that arrives where nothing is combined, or on the requests channel, waits to be sent as it is. -/
theorem execCombineRequestArrival_uncombined {s : State} {k : Nat} {p : Packet} {h : Hop} {rest : List Hop}
    (hp : s.pkts.find? (fun x => x.id == k) = some p) (hpath : p.path = h :: rest) (hheld : p.held = false) (hready : p.ready = false)
    (hc : s.constReady p = true) (hoff : bitOf (s.die h.die).combwin 8 = true ∨ p.kind.channel = .requests) :
    execCombineRequestArrival k s = .next (s.updPkt k Packet.uncombined) := by
  rw [execCombineRequestArrival]
  simp only [hp, hpath, hheld, hready, hc]
  rw [if_neg (by decide), if_pos (by simpa using hoff)]

/-- One that meets no held packet is held for WIN clocks. -/
theorem execCombineRequestArrival_held {s : State} {k : Nat} {p : Packet} {h : Hop} {rest : List Hop}
    (hp : s.pkts.find? (fun x => x.id == k) = some p) (hpath : p.path = h :: rest) (hheld : p.held = false) (hready : p.ready = false)
    (hc : s.constReady p = true) (hon : bitOf (s.die h.die).combwin 8 = false) (hkind : p.kind.channel ≠ .requests)
    (hnone : ∀ q ∈ s.pkts, q.held = false) :
    execCombineRequestArrival k s = .next (s.updPkt k fun p => { p with held := true, due := s.clk + bits (s.die h.die).combwin 6 0 }) := by
  have hfind (f : Packet → Bool) : s.pkts.find? (fun q => q.held && q.path.head? == some h && q.mergesWith p && f q) = none :=
    List.find?_eq_none.2 fun q hq => by simp [hnone q hq]
  have hfilter : (s.pkts.filter fun q => q.held && q.path.head? == some h) = [] :=
    List.filter_eq_nil_iff.2 fun q hq => by simp [hnone q hq]
  rw [execCombineRequestArrival]
  simp only [hp, hpath, hheld, hready, hc, hfind, hfilter]
  rw [if_neg (by decide), if_neg (by simpa [hon] using hkind), if_pos (by decide)]

/-- Two packets merged: the held one takes the other's operand and constituents (R385). -/
def Packet.mergedWith (q p : Packet) (op : AtomOp) (signed : Bool) : Packet :=
  { q with operand := atomResult op signed q.operand p.operand 0#32, list := q.list ++ p.list, pts := max q.pts p.pts }

/-- One that meets a held packet of its kind merges into it, with a record where values return. -/
theorem execCombineRequestArrival_merges {s : State} {k : Nat} {p q : Packet} {h : Hop} {rest : List Hop} {op : AtomOp} {signed ret : Bool}
    (hp : s.pkts.find? (fun x => x.id == k) = some p) (hpath : p.path = h :: rest) (hheld : p.held = false) (hready : p.ready = false)
    (hc : s.constReady p = true) (hon : bitOf (s.die h.die).combwin 8 = false) (hkind : p.kind = .atomic op signed ret) (hop : op ≠ .cas)
    (hq : s.pkts.find? (fun q => (q.held && q.path.head? == some h) && q.mergesWith p) = some q) (hroom : ret = true → s.recordsAt h < 256) :
    execCombineRequestArrival k s =
      .next (((if ret then s.makeRecord h q p op signed else s).updPkt q.id fun _ => q.mergedWith p op signed).dropPkt k) := by
  have hid : p.id = k := by simpa using List.find?_some hp
  have hchannel : p.kind.channel ≠ .requests := by
    rw [hkind, PktKind.channel_atomic signed ret hop]
    exact nofun
  have hroom' : (!ret || decide (s.recordsAt h < 256)) = true := by
    cases ret with
    | false => rfl
    | true => simpa using hroom rfl
  rw [execCombineRequestArrival]
  simp only [hp, hpath, hheld, hready, hc]
  rw [if_neg (by decide), if_neg (by simpa [hon] using hchannel)]
  simp only [hkind, hroom', Bool.and_true, hq, hid, Packet.mergedWith]

theorem State.makeRecord_pkts (s : State) (h : Hop) (a b : Packet) (op : AtomOp) (signed : Bool) :
    (s.makeRecord h a b op signed).pkts = s.pkts := by
  simp only [State.makeRecord]
  split <;> rfl

/-- A merge's record (R387), at a port whose COMBTEST injects no fault. -/
theorem State.makeRecord_recs (s : State) (h : Hop) (a b : Packet) (op : AtomOp) (signed : Bool)
    (hcount : bits (s.die h.die).combtest 23 16 = 0) :
    (s.makeRecord h a b op signed).recs =
      { id := s.fresh, at_ := h, aId := a.id, bId := b.id, k := a.list.length, n := a.list.length + b.list.length, x := a.operand, op := op,
        signed := signed, due := s.clk + clksOfUs 64, good := 2 } :: s.recs := by
  simp [State.makeRecord, hcount]

/-- What a merge leaves: the merged packet in the held one's place, and the arriving one gone. -/
theorem merged_pkts {s : State} {k : Nat} {p q : Packet} {h : Hop} {op : AtomOp} {signed ret : Bool} (hid : p.id = k)
    (hmem : q ∈ s.pkts) (hmerges : q.mergesWith p = true) :
    let t := ((if ret then s.makeRecord h q p op signed else s).updPkt q.id fun _ => q.mergedWith p op signed).dropPkt k
    t.pkts.find? (fun x => x.id == q.id) = some (q.mergedWith p op signed) ∧ (∀ x ∈ t.pkts, x.id ≠ k) ∧ t.mem = s.mem := by
  intro t
  have hne : q.id ≠ k := by
    rintro hqk
    simp [Packet.mergesWith, hqk, hid] at hmerges
  have hpkts : (if ret then s.makeRecord h q p op signed else s).pkts = s.pkts := by
    split
    · exact State.makeRecord_pkts ..
    · rfl
  have hmem' : (if ret then s.makeRecord h q p op signed else s).mem = s.mem := by split <;> simp
  obtain ⟨x, hx⟩ : ∃ x, s.pkts.find? (fun x => x.id == q.id) = some x :=
    Option.isSome_iff_exists.1 (List.find?_isSome.2 ⟨q, hmem, beq_self_eq_true _⟩)
  have hdrop : (fun y : Packet => decide ((y.id != k) = true ∧ (y.id == q.id) = true)) = fun y => y.id == q.id := by
    funext y
    by_cases hy : y.id = q.id
    · simp [hy, hne]
    · simp [hy]
  refine ⟨?_, fun x hx => by simpa using (List.mem_filter.1 hx).2, ?_⟩
  · show ((updFirst (fun y => y.id == q.id) (fun _ => q.mergedWith p op signed) _).filter fun y => y.id != k).find? _ = _
    rw [hpkts, List.find?_filter, hdrop]
    exact find_updFirst (p := fun y : Packet => y.id == q.id) (by simp [Packet.mergedWith]) hx
  · simp [t, hmem']

/-! What an output port sends (R383, R386). -/

/-- The packet that is sent goes on to its next port, with what it carries. -/
theorem State.sendPacket_find {s : State} {h : Hop} {k : Nat} {p : Packet} (hp : s.pkts.find? (fun x => x.id == k) = some p) :
    ∃ m, (s.sendPacket h p).pkts.find? (fun x => x.id == k) = some m ∧ m.path = p.path.tail ∧ m.held = false ∧ m.ready = false
      ∧ m.passed = 0 ∧ m.operand = p.operand ∧ m.list = p.list := by
  have hid : p.id = k := by simpa using List.find?_some hp
  simp only [State.sendPacket, State.updPkt_pkts, hid]
  generalize ((s.readyAt h).filter fun q => decide (p.kind.channel.number < q.kind.channel.number)).map (·.id) = waits
  have hpass : (s.pkts.map fun q => if waits.contains q.id then { q with passed := q.passed + 1 } else q).find? (fun x => x.id == k) =
      some (if waits.contains p.id then { p with passed := p.passed + 1 } else p) := by
    rw [List.find?_map, show ((fun x : Packet => x.id == k) ∘ fun q => if waits.contains q.id then { q with passed := q.passed + 1 } else q) =
      fun x => x.id == k from funext fun q => by simp only [Function.comp]; split <;> rfl, hp]
    rfl
  refine ⟨_, find_updFirst (p := fun x : Packet => x.id == k) (f := Packet.advance) ?_ hpass, ?_⟩
  · simp only [Packet.advance]
    split <;> simpa using hid
  · split <;> exact ⟨rfl, rfl, rfl, rfl, rfl, rfl⟩

theorem Channel.number_lt (c : Channel) : c.number < 4 := by cases c <;> decide

/-- The packet that a port sends is one that may be sent there. -/
theorem State.sentNext_mem {s : State} {h : Hop} {p : Packet} (hp : s.sentNext h = some p) : p ∈ s.readyAt h := by
  rw [State.sentNext, Option.or_eq_some_iff] at hp
  obtain hp | ⟨-, hp⟩ := hp
  · exact List.mem_of_find?_eq_some hp
  · obtain ⟨c, -, hc⟩ := List.exists_of_findSome?_eq_some hp
    exact List.mem_of_find?_eq_some hc

/-- One that 64 have passed goes before the others. -/
theorem State.sentNext_passed {s : State} {h : Hop} {p : Packet} (hp : s.sentNext h = some p) (hq : ∃ q ∈ s.readyAt h, 64 ≤ q.passed) :
    64 ≤ p.passed := by
  obtain ⟨q, hq, hpassed⟩ := hq
  obtain ⟨x, hx⟩ : ∃ x, (s.readyAt h).find? (fun p => decide (64 ≤ p.passed)) = some x :=
    Option.isSome_iff_exists.1 (List.find?_isSome.2 ⟨q, hq, by simpa using hpassed⟩)
  have hxp : some x = some p := by
    rw [← hp, State.sentNext, hx]
    rfl
  cases hxp
  simpa using List.find?_some hx

/-- Where none has waited that long, the lowest channel is sent first. -/
theorem State.sentNext_channel {s : State} {h : Hop} {p : Packet} (hp : s.sentNext h = some p) (hnone : ∀ q ∈ s.readyAt h, q.passed < 64)
    {q : Packet} (hq : q ∈ s.readyAt h) : p.kind.channel.number ≤ q.kind.channel.number := by
  have hlong : (s.readyAt h).find? (fun p => decide (64 ≤ p.passed)) = none :=
    List.find?_eq_none.2 fun q hq => by simpa using hnone q hq
  rw [State.sentNext, hlong, Option.none_or, List.findSome?_eq_some_iff] at hp
  obtain ⟨before, c, after, hrange, hc, hbefore⟩ := hp
  have hpc : p.kind.channel.number = c := by simpa using List.find?_some hc
  rw [hpc]
  by_contra hlt
  have hmem : q.kind.channel.number ∈ before := by
    have hin : q.kind.channel.number ∈ before ++ c :: after := hrange ▸ List.mem_range.2 (Channel.number_lt _)
    have hsorted : List.Pairwise (· < ·) (before ++ c :: after) := hrange ▸ List.pairwise_lt_range
    obtain ⟨-, hafter, -⟩ := List.pairwise_append.1 hsorted
    rcases List.mem_append.1 hin with hin | hin
    · exact hin
    · rcases List.mem_cons.1 hin with hin | hin
      · omega
      · have := (List.pairwise_cons.1 hafter).1 _ hin
        omega
  have := List.find?_eq_none.1 (hbefore _ hmem) q hq
  simp at this

/-- A fold of steps that keep a part of the state keeps it. -/
theorem foldl_keeps {α β : Type} (g : State → β) {f : State → α → State} (h : ∀ s x, g (f s x) = g s) (s : State) (xs : List α) :
    g (xs.foldl f s) = g s := by
  induction xs generalizing s with
  | nil => rfl
  | cons x r ih => rw [List.foldl_cons, ih, h]

@[simp] theorem State.raisePts_pkts (s : State) (u t : Nat) : (s.raisePts u t).pkts = s.pkts := rfl

@[simp] theorem State.raiseFor_pkts (s : State) (q : Req) (t : Nat) : (s.raiseFor q t).pkts = s.pkts := by
  simp only [State.raiseFor]
  split <;> rfl

@[simp] theorem State.noteTime_pkts (s : State) (part t : Nat) : (s.noteTime part t).pkts = s.pkts := by
  simp only [State.noteTime]
  split <;> rfl

@[simp] theorem State.stampLine_pkts (s : State) (pa part t : Nat) : (s.stampLine pa part t).pkts = s.pkts := by simp [State.stampLine]

@[simp] theorem State.markEarly_pkts (s : State) (core pa part : Nat) : (s.markEarly core pa part).pkts = s.pkts := by
  simp only [State.markEarly]
  split
  · rfl
  · exact State.setLine_pkts ..

@[simp] theorem State.served_pkts (s : State) (key : Nat × Nat) : (s.served key).pkts = s.pkts := rfl

@[simp] theorem State.deliver_pkts (s : State) (c : Constituent) (v : Word) (pois : Bool) : (s.deliver c v pois).pkts = s.pkts := rfl

@[simp] theorem State.writePa_pkts (s : State) (pa : Nat) (bs : List Byte) : (s.writePa pa bs).pkts = s.pkts := by
  simp only [State.writePa]
  split <;> rfl

@[simp] theorem State.writePa_die (s : State) (pa : Nat) (bs : List Byte) (d : Nat) : (s.writePa pa bs).die d = s.die d := by
  simp only [State.writePa]
  split <;> rfl

/-- Clean bytes written outside the zero rows of a working die. -/
theorem State.writePa_mem {s : State} {pa : Nat} (hz : zeroRow pa = false) (hd : (s.die (homeDie pa)).failed = false) (bs : List Byte) :
    (s.writePa pa bs).mem = writeRun s.mem pa bs := by
  rw [State.writePa_of_open hz hd]

/-! A request at its home (R161, R184, R388). -/

theorem execHomeAtomic_acts {s : State} {k : Nat} {p : Packet} {op : AtomOp} {signed ret : Bool}
    (hp : s.pkts.find? (fun x => x.id == k) = some p) (hkind : p.kind = .atomic op signed ret) (hpath : p.path = [])
    (hc : s.constReady p = true) (hfree : s.lineFree (lineOf p.pa) = true) (hd : (s.die (homeDie p.pa)).failed = false)
    (hz : zeroRow p.pa = false) (hop : op ≠ .cas) (hbank : s.bankHolds p.pa true = false) :
    ∃ t, execHomeAtomic k s = .next t
      ∧ t.mem = writeRun s.mem p.pa
          (bytesLE 4 (atomResult op signed (BitVec.ofNat 32 (s.readPaNat p.pa 4)) p.operand 0#32).toNat)
      ∧ t.pkts = s.pkts.filter fun x => x.id != k := by
  have hresult (old y : Word) : atomResult op signed old p.operand y = atomResult op signed old p.operand 0#32 := by
    cases op <;> simp_all [atomResult]
  rw [execHomeAtomic]
  simp only [hp, hkind, hpath, hc, hfree, hbank, hd, hresult]
  rw [if_neg (by decide), if_neg (by decide), if_neg (by decide)]
  simp only [Bool.false_eq_true, if_false]
  generalize hcls : (p.list.head?.bind _).getD Class.coherent = cls
  split
  · refine ⟨_, rfl, ?_, ?_⟩
    · cases cls <;> simp [foldl_mem, State.writePa_mem hz hd, hd]
    · cases cls <;> simp [foldl_keeps State.pkts, State.dropPkt_pkts, hd]
  · refine ⟨_, rfl, ?_, ?_⟩
    · cases cls <;> simp [foldl_mem, State.writePa_mem hz hd, hd]
    · refine (foldl_keeps State.pkts (fun s c => s.deliver_pkts ..) _ _).trans ?_
      cases cls <;> simp [foldl_keeps State.pkts, State.dropPkt_pkts, hd]

/-! Replies, records and logs (R388 to R390, R392). -/

theorem execCombineHoldExpiry_sent {s : State} {k : Nat} {p : Packet} {h : Hop} {rest : List Hop}
    (hp : s.pkts.find? (fun x => x.id == k) = some p) (hpath : p.path = h :: rest) (hsent : (s.sentNext h).map (·.id) = some k) :
    execCombineHoldExpiry k s = .next (s.sendPacket h p) := by
  simp only [execCombineHoldExpiry, hp, hpath, hsent]
  rw [if_pos (beq_self_eq_true _)]

theorem execReplySplit_none {s : State} {k : Nat} {r : Reply} (hr : s.replies.find? (fun x => x.id == k) = some r) (hrec : r.recover = false)
    (hnone : s.recs.find? (fun x => x.aId == r.cur && x.n == r.hi - r.lo + 1) = none) :
    execReplySplit k s = .next { s with replies := (s.replies.filter fun x => x.id != k) ++ [{ r with recover := true }] } := by
  simp only [execReplySplit, hr, hrec, hnone]
  rfl

/-- A reply meets its record: it goes back where the record is not usable, else it is split. -/
theorem execReplySplit_some {s : State} {k : Nat} {r : Reply} {x : Record} (hr : s.replies.find? (fun y => y.id == k) = some r)
    (hrec : r.recover = false) (hx : s.recs.find? (fun x => x.aId == r.cur && x.n == r.hi - r.lo + 1) = some x) :
    let t : State := { s with replies := s.replies.filter fun y => y.id != k, recs := s.recs.filter fun y => y.id != x.id }
    let first : Reply := { r with cur := x.aId, hi := r.lo + x.k - 1 }
    let second : Reply := { r with cur := x.bId, lo := r.lo + x.k, value := atomResult x.op x.signed r.value x.x 0#32 }
    (x.good = 0 → execReplySplit k s = .next { t with replies := t.replies ++ [{ r with recover := true }] })
      ∧ (2 ≤ x.good → execReplySplit k s = .next ((t.sendReply first).sendReply second))
      ∧ (x.good = 1 → execReplySplit k s = .next (((t.updDie x.at_.die fun y =>
          { y with fabstat := setField y.fabstat 23 16 (min (bits y.fabstat 23 16 + 1) 255) }).sendReply first).sendReply second)) := by
  simp only [execReplySplit, hr, hrec, hx]
  refine ⟨fun h => ?_, fun h => ?_, fun h => ?_⟩
  · rw [if_neg (by decide), if_pos h]
  · rw [if_neg (by decide), if_neg (by omega), if_neg (by omega)]
  · rw [if_neg (by decide), if_neg (by omega), if_pos h]

@[simp] theorem State.deliver_die (s : State) (c : Constituent) (v : Word) (pois : Bool) (d : Nat) : (s.deliver c v pois).die d = s.die d :=
  rfl

@[simp] theorem State.deliver_replies (s : State) (c : Constituent) (v : Word) (pois : Bool) : (s.deliver c v pois).replies = s.replies :=
  rfl

/-- A recovery (R389): the home answers from its log, and the die counts it. -/
theorem execRecoverReply_logged {s : State} {k : Nat} {r : Reply} {l : HomeLog} (hr : s.replies.find? (fun x => x.id == k) = some r)
    (hrec : r.recover = true) (hl : s.hlogs.find? (fun x => x.id == r.home) = some l) :
    ∃ t, execRecoverReply k s = .next t ∧ t.replies = (s.replies.filter fun x => x.id != k) ∧ t.mem = s.mem
      ∧ bits (t.die l.die).fabstat 31 24 = min (bits (s.die l.die).fabstat 31 24 + 1) 255 := by
  simp only [execRecoverReply, hr, hrec, hl]
  rw [if_neg (by decide)]
  refine ⟨_, rfl, ?_, ?_, ?_⟩
  · exact foldl_keeps State.replies (fun s c => s.deliver_replies ..) _ _
  · exact foldl_mem (fun s c => s.deliver_mem ..) _ _
  · refine (congrArg (fun d : DieState => bits d.fabstat 31 24) (foldl_keeps (State.die · l.die) (fun s c => s.deliver_die ..) _ _)).trans ?_
    simp only [State.die_updDie]
    refine (bits_setField _ _ (by decide) (by decide)).trans (Nat.mod_eq_of_lt ?_)
    exact Nat.lt_of_le_of_lt (Nat.min_le_right _ _) (by decide)

/-- A record that nothing has matched (R390). -/
theorem execRecordExpiry_due {s : State} {k : Nat} {x : Record} (hx : s.recs.find? (fun y => y.id == k) = some x) (hdue : x.due ≤ s.clk) :
    ∃ t, execRecordExpiry k s = .next t ∧ t.recs = (s.recs.filter fun y => y.id != k)
      ∧ bits (t.die x.at_.die).fabstat 7 0 = min (bits (s.die x.at_.die).fabstat 7 0 + 1) 255 ∧ t.mem = s.mem := by
  simp only [execRecordExpiry, hx]
  rw [if_pos hdue]
  refine ⟨_, rfl, rfl, ?_, rfl⟩
  rw [State.die_updDie]
  refine (bits_setField _ _ (by decide) (by decide)).trans (Nat.mod_eq_of_lt ?_)
  exact Nat.lt_of_le_of_lt (Nat.min_le_right _ _) (by decide)

theorem execHomeLogExpiry_due {s : State} {k : Nat} {l : HomeLog} (hl : s.hlogs.find? (fun x => x.id == k) = some l) (hdue : l.due ≤ s.clk)
    (hnone : ∀ r ∈ s.replies, r.home ≠ k) : execHomeLogExpiry k s = .next { s with hlogs := s.hlogs.filter fun x => x.id != k } := by
  simp only [execHomeLogExpiry, hl]
  have hany : (s.replies.any fun r => r.home == k) = false := List.any_eq_false.2 fun r hr => by simpa using hnone r hr
  rw [if_pos (by simp [hdue, hany])]

/-- A switch that is reset has no record and holds nothing. -/
theorem State.resetSwitch_empties (s : State) (die stage sw : Nat) :
    (∀ r ∈ (s.resetSwitch die stage sw).recs, r ∈ s.recs ∧ ¬(r.at_.die = die ∧ r.at_.stage = stage ∧ r.at_.sw = sw))
      ∧ ∀ p ∈ (s.resetSwitch die stage sw).pkts, p.held = true → ∀ h ∈ p.path.head?, ¬(h.die = die ∧ h.stage = stage ∧ h.sw = sw) := by
  constructor
  · intro r hr
    obtain ⟨hmem, hnot⟩ := List.mem_filter.1 hr
    refine ⟨hmem, ?_⟩
    rintro ⟨rfl, rfl, rfl⟩
    simp at hnot
  · intro p hp hheld h hh
    obtain ⟨q, -, rfl⟩ := List.mem_map.1 hp
    revert hheld hh
    split
    next x rest hpath =>
      split
      · exact nofun
      next hkeep =>
        intro hheld hh
        rw [hpath] at hh
        cases hh
        simpa [hheld] using hkeep
    next hpath =>
      intro _ hh
      rw [hpath] at hh
      exact nomatch hh

/-- Settles O56, a packet, a reply, a record or a log at a time. -/
theorem fabricEvents : Obligations.FabricEvents := by
  unfold Obligations.FabricEvents
  intro s k
  refine ⟨fun p h rest hp hpath hheld hready hc => ⟨?_, ?_, ?_⟩, ?_, ?_, ?_, ?_, ?_, ?_, ?_, ?_, ?_⟩
  · exact execCombineRequestArrival_uncombined hp hpath hheld hready hc
  · exact execCombineRequestArrival_held hp hpath hheld hready hc
  · intro op signed ret q hon hkind hop hq hroom
    have hid : p.id = k := by simpa using List.find?_some hp
    have hmerges : q.mergesWith p = true := by
      have := List.find?_some hq
      exact (Bool.and_eq_true_iff.1 this).2
    obtain ⟨hfind, hgone, hmem⟩ :=
      merged_pkts (s := s) (h := h) (op := op) (signed := signed) (ret := ret) hid (List.mem_of_find?_eq_some hq) hmerges
    refine ⟨_, _, execCombineRequestArrival_merges hp hpath hheld hready hc hon hkind hop hq hroom, hfind, rfl, rfl, rfl, rfl, rfl, hgone, hmem,
      ?_, ?_⟩
    · rintro rfl
      rfl
    · rintro rfl hcount
      exact ⟨_, State.makeRecord_recs s h q p op signed hcount, rfl, rfl, hid, rfl, rfl, rfl, rfl⟩
  · intro p h rest hp hpath hsent
    obtain ⟨m, hm, hpath', hfields⟩ := State.sendPacket_find (h := h) hp
    refine ⟨s.sendPacket h p, m, execCombineHoldExpiry_sent hp hpath hsent, hm, ?_, ?_⟩
    · rw [hpath', hpath]
      rfl
    · obtain ⟨hheld, hready, hpassed, hoperand, hlist⟩ := hfields
      exact ⟨hheld, hready, hpassed, hoperand, hlist, State.sendPacket_mem ..⟩
  · exact fun h p hp => ⟨fun hnone q hq => State.sentNext_channel hp hnone hq, State.sentNext_passed hp, State.sentNext_mem hp⟩
  · intro p op signed ret hp hkind hpath hc hfree hd hz hop hbank
    exact execHomeAtomic_acts hp hkind hpath hc hfree hd hz hop hbank
  · exact fun r hr hrec hnone => execReplySplit_none hr hrec hnone
  · exact fun r x hr hrec hx => execReplySplit_some hr hrec hx
  · exact fun r l hr hrec hl => execRecoverReply_logged hr hrec hl
  · exact fun x hx hdue => execRecordExpiry_due hx hdue
  · exact fun l hl hdue hnone => execHomeLogExpiry_due hl hdue hnone
  · exact fun die stage sw => ⟨_, rfl, State.resetSwitch_mem .., State.resetSwitch_empties s die stage sw⟩

end Sys2Proof.Machine
end

section
/-! SUPPORT. Bytes and times at a home; copies, fences and stalled scenes (R37, R153, R154, R168, R186 to R195). -/

namespace Sys2Proof.Machine

open Sys2Proof.Claim

/-! Bytes and times at a home (R146, R153, R186). -/

theorem zeroRow_line {a b : Nat} (h : lineOf a = lineOf b) : zeroRow a = zeroRow b := by
  simp only [lineOf] at h
  have hlt : a < Config.memBytes ↔ b < Config.memBytes := by
    simp only [show Config.memBytes = 0x60_0000_0000 from rfl]
    omega
  have hrow : rowOf a = rowOf b := by
    simp only [rowOf, show Config.stackBytes = 0xC_0000_0000 from rfl]
    omega
  simp only [zeroRow, hlt, hrow]

theorem homeDie_line {a b : Nat} (h : lineOf a = lineOf b) : homeDie a = homeDie b := by
  simp only [lineOf] at h
  have hlt : a < Config.memBytes ↔ b < Config.memBytes := by
    simp only [show Config.memBytes = 0x60_0000_0000 from rfl]
    omega
  have hstack : stackOf a = stackOf b := by
    simp only [stackOf, show Config.stackBytes = 0xC_0000_0000 from rfl]
    omega
  simp only [homeDie, hlt, hstack]

theorem lineOf_mul (line : Nat) : lineOf (256 * line) = line := by simp only [lineOf]; omega

/-- A line that makes room for another is not that other (R146). -/
theorem State.overflowing_ne {s : State} {pa l : Nat} (h : s.overflowing pa = some l) : l ≠ lineOf pa := by
  simp only [State.overflowing] at h
  split at h
  · obtain ⟨e, he, rfl⟩ := Option.map_eq_some_iff.1 h
    have hmem : e ∈ (s.lines.filter fun e => homeDie (256 * e.1) == homeDie pa &&
        homeSlice s.conf.retired (256 * e.1) == homeSlice s.conf.retired pa).filter fun e => e.1 != lineOf pa := by
      rcases Option.or_eq_some_iff.1 he with he | ⟨-, he⟩
      · exact (List.mem_filter.1 (List.mem_of_getLast? he)).1
      · exact List.mem_of_getLast? he
    simpa using (List.mem_filter.1 hmem).2
  · cases h

theorem State.tfind_evictLine_other (s : State) {l line : Nat} (h : line ≠ l) : tfind (s.evictLine l).lines line = tfind s.lines line := by
  simp only [State.evictLine]
  split
  · rfl
  · exact tfind_terase_other _ _ _ h

@[simp] theorem State.noteTime_lines (s : State) (part t : Nat) : (s.noteTime part t).lines = s.lines := by
  simp only [State.noteTime]
  split <;> rfl

/-- A line's times are those set last. -/
theorem State.tfind_setLine (s : State) (pa : Nat) (t : LineTimes) : tfind (s.setLine pa t).lines (lineOf pa) = some t := by
  simp only [State.setLine]
  split
  next l hl => rw [State.tfind_evictLine_other _ (State.overflowing_ne hl).symm, tfind_tset_same]
  next => exact tfind_tset_same ..

theorem State.tfind_stampLine (s : State) (pa part t : Nat) :
    tfind (s.stampLine pa part t).lines (lineOf pa) = some { s.lineTimes pa part with wts := t, rts := t, part := part } := by
  rw [State.stampLine, State.noteTime_lines, State.tfind_setLine]

theorem State.readPa_congr {s t : State} (h : s.mem = t.mem) (pa n : Nat) : s.readPa pa n = t.readPa pa n := by rw [State.readPa, State.readPa, h]

/-- A byte that no written address is. -/
theorem State.readPa_writePa_other (s : State) {pa a : Nat} (b : Byte) (h : a ≠ pa) : (s.writePa pa [b]).readPa a 1 = s.readPa a 1 := by
  rw [State.writePa]
  split
  · rfl
  · rw [State.readPa_one, State.readPa_one, readByte_writeRun_other _ _ _ _ (by simp; omega)]

/-- The byte that is written, outside the zero rows of a working die. -/
theorem State.readPa_writePa_same (s : State) {pa : Nat} (b : Byte) (hz : zeroRow pa = false) (hd : (s.die (homeDie pa)).failed = false) :
    (s.writePa pa [b]).readPa pa 1 = [b] := by
  rw [State.writePa_of_open hz hd, State.readPa_one, if_neg (by simp [hz])]
  exact congrArg (fun x => [x]) (readByte_writeRun_same s.mem pa [b] 0 Nat.zero_lt_one)

/-- Bytes written one by one (R153). -/
def State.writeBytes (s : State) (bs : List (Nat × Byte × Bool)) : State := bs.foldl (fun s b => s.writePa b.1 [b.2.1]) s

theorem State.readPa_writeMarked (s : State) (bs : List (Nat × Byte × Bool)) (a n : Nat) :
    (s.writeMarked bs).readPa a n = (s.writeBytes bs).readPa a n := rfl

theorem State.readPa_writeBytes_other {bs : List (Nat × Byte × Bool)} {a : Nat} (h : ∀ b ∈ bs, b.1 ≠ a) (s : State) :
    (s.writeBytes bs).readPa a 1 = s.readPa a 1 := by
  induction bs generalizing s with
  | nil => rfl
  | cons b r ih =>
    exact (ih (fun c hc => h c (List.mem_cons_of_mem _ hc)) _).trans (State.readPa_writePa_other s _ (h b List.mem_cons_self).symm)

/-- A byte written, where every byte written to its address is that one. -/
theorem State.readPa_writeBytes_same {bs : List (Nat × Byte × Bool)} {a : Nat} {x : Byte} (hmem : ∃ b ∈ bs, b.1 = a)
    (h : ∀ b ∈ bs, b.1 = a → b.2.1 = x) (hz : zeroRow a = false) (s : State) (hd : (s.die (homeDie a)).failed = false) :
    (s.writeBytes bs).readPa a 1 = [x] := by
  induction bs generalizing s with
  | nil => simp at hmem
  | cons b r ih =>
    by_cases hr : ∃ c ∈ r, c.1 = a
    · exact ih hr (fun c hc => h c (List.mem_cons_of_mem _ hc)) _ (by rw [State.writePa_die]; exact hd)
    · have hb : b.1 = a := by
        obtain ⟨c, hc, rfl⟩ := hmem
        rcases List.mem_cons.1 hc with rfl | hc
        · rfl
        · exact absurd ⟨c, hc, rfl⟩ hr
      have hx : b.2.1 = x := h b List.mem_cons_self hb
      refine (State.readPa_writeBytes_other (fun c hc e => hr ⟨c, hc, e⟩) _).trans ?_
      show (s.writePa b.1 [b.2.1]).readPa a 1 = [x]
      rw [hb, hx]
      exact State.readPa_writePa_same s x hz hd

@[simp] theorem State.served_cpys (s : State) (key : Nat × Nat) : (s.served key).cpys = s.cpys := rfl
@[simp] theorem State.served_lines (s : State) (key : Nat × Nat) : (s.served key).lines = s.lines := rfl

@[simp] theorem State.writePa_lines (s : State) (pa : Nat) (bs : List Byte) : (s.writePa pa bs).lines = s.lines := by
  simp only [State.writePa]
  split <;> rfl

@[simp] theorem State.writePa_cpys (s : State) (pa : Nat) (bs : List Byte) : (s.writePa pa bs).cpys = s.cpys := by
  simp only [State.writePa]
  split <;> rfl

@[simp] theorem State.writeMarked_cpys (s : State) (bs : List (Nat × Byte × Bool)) : (s.writeMarked bs).cpys = s.cpys :=
  foldl_keeps State.cpys (f := fun s (b : Nat × Byte × Bool) => s.writePa b.1 [b.2.1]) (fun s _ => s.writePa_cpys ..) s bs

@[simp] theorem State.noteTime_cpys (s : State) (part t : Nat) : (s.noteTime part t).cpys = s.cpys := by
  simp only [State.noteTime]
  split <;> rfl

@[simp] theorem State.stampLine_cpys (s : State) (pa part t : Nat) : (s.stampLine pa part t).cpys = s.cpys := by simp [State.stampLine]

@[simp] theorem State.noteSectors_cpys (s : State) (part : Nat) (pas : List Nat) : (s.noteSectors part pas).cpys = s.cpys :=
  foldl_keeps State.cpys (fun s k => s.noteDirty_cpys (32 * k) 32 part) s _

@[simp] theorem State.noteSectors_lines (s : State) (part : Nat) (pas : List Nat) : (s.noteSectors part pas).lines = s.lines :=
  foldl_keeps State.lines (fun s k => s.noteDirty_lines (32 * k) 32 part) s _

/-! Copies write their lines (R154, R167, R189). -/

/-- Whether a byte of a copy is still to be written once a line of it has been (R154). -/
def keepsByte (line : Nat) (b : Nat × Target × Byte × Bool) : Bool :=
  match b.2.1 with
  | .mem a cls => !(lineOf a == line && cls != .priv)
  | .scratch _ _ _ => true

/-- A copy that has written a line at a time. -/
def CopyCmd.wrote (c : CopyCmd) (line t : Nat) : CopyCmd :=
  { c with bytes := c.bytes.filter (keepsByte line), owned := c.owned.filter (· != line), time := max c.time t }

/-- The bytes a copy writes in a line. -/
def CopyCmd.lineBytes (c : CopyCmd) (line : Nat) : List (Nat × Byte × Bool) := c.memBytes fun a cls => lineOf a == line && cls != .priv

/-- A line written where its die works and its bank is free. -/
theorem State.copyLine_writes {s : State} {c : CopyCmd} {line : Nat} (hbank : s.bankHolds (256 * line) true = false)
    (hd : (s.die (homeDie (256 * line))).failed = false) :
    let time := max c.pts ((s.lineTimes (256 * line) c.part).rts + 1)
    let t := s.copyLine c line
    t.cpys = updFirst (fun x => x.id == c.id) (fun x => x.wrote line time) s.cpys
      ∧ t.lines = ((s.writeMarked (c.lineBytes line)).stampLine (256 * line) c.part time).lines
      ∧ t.mem = (s.writeMarked (c.lineBytes line)).mem := by
  simp only [State.copyLine]
  rw [if_neg (by simp [hbank]), if_neg (by simp [hd])]
  refine ⟨?_, ?_, ?_⟩
  · simp only [State.served_cpys, State.fireWatches_cpys, State.noteSectors_cpys, State.stampLine_cpys, State.writeMarked_cpys]
    rfl
  · simp only [State.served_lines, State.fireWatches_lines, State.noteSectors_lines]
    rfl
  · simp only [State.served_mem, State.fireWatches_mem, State.noteSectors_mem, State.stampLine_mem]
    rfl

theorem CopyCmd.mem_lineBytes {c : CopyCmd} {line a : Nat} {b : Byte} {p : Bool} :
    (a, b, p) ∈ c.lineBytes line ↔ ∃ off m, (off, .mem a m, b, p) ∈ c.bytes ∧ lineOf a = line ∧ m ≠ .priv := by
  simp only [CopyCmd.lineBytes, CopyCmd.memBytes, List.mem_filterMap]
  constructor
  · rintro ⟨⟨off, t, y, q⟩, hmem, ht⟩
    cases t with
    | scratch k n z => simp at ht
    | mem pa m =>
      simp only [Bool.and_eq_true, beq_iff_eq, bne_iff_ne, ne_eq, Option.ite_none_right_eq_some, Option.some.injEq, Prod.mk.injEq] at ht
      obtain ⟨⟨hline, hm⟩, rfl, rfl, rfl⟩ := ht
      exact ⟨off, m, hmem, hline, hm⟩
  · rintro ⟨off, m, hmem, hline, hm⟩
    exact ⟨_, hmem, by simp [hline, hm]⟩

/-- The bytes of a line that a copy writes, where no two of its bytes have one place (R167). -/
theorem State.copyLine_reads {s : State} {c : CopyCmd} {line : Nat} (hbank : s.bankHolds (256 * line) true = false)
    (hd : (s.die (homeDie (256 * line))).failed = false) :
    ((∀ x ∈ c.bytes, ∀ y ∈ c.bytes, ∀ a m n, x.2.1 = .mem a m → y.2.1 = .mem a n → x = y) →
        ∀ off a m b p, (off, .mem a m, b, p) ∈ c.bytes → lineOf a = line → m ≠ .priv → zeroRow a = false →
          (s.copyLine c line).readPa a 1 = [b])
      ∧ ∀ a, lineOf a ≠ line → (s.copyLine c line).readPa a 1 = s.readPa a 1 := by
  obtain ⟨-, -, hmem⟩ := State.copyLine_writes hbank hd
  refine ⟨fun honce off a m b p hb hline hm hz => ?_, fun a hline => ?_⟩
  · rw [State.readPa_congr hmem, State.readPa_writeMarked]
    refine State.readPa_writeBytes_same ⟨(a, b, p), CopyCmd.mem_lineBytes.2 ⟨off, m, hb, hline, hm⟩, rfl⟩ ?_ hz s ?_
    · rintro ⟨a', b', p'⟩ hb' rfl
      obtain ⟨off', m', hmem', -, -⟩ := CopyCmd.mem_lineBytes.1 hb'
      have := honce _ hb _ hmem' a' m m' rfl rfl
      simp_all
    · rw [homeDie_line (hline.trans (lineOf_mul line).symm)]
      exact hd
  · rw [State.readPa_congr hmem, State.readPa_writeMarked]
    refine State.readPa_writeBytes_other (fun b hb hba => ?_) s
    obtain ⟨off, m, -, hline', -⟩ := CopyCmd.mem_lineBytes.1 hb
    exact hline (hba ▸ hline')

theorem execAgentLineRelease_copy {s : State} {k line : Nat} {c : CopyCmd} (hc : s.cpys.find? (fun x => x.id == k) = some c)
    (hr : c.retranslate = false) (hown : line ∈ c.owned) : execAgentLineRelease k line s = .next (s.copyLine c line) := by
  simp only [execAgentLineRelease, hc, hr]
  rw [if_neg (by decide), if_pos (by simpa using hown)]

/-- A copy with nothing left to write retires (R168). -/
theorem execCopyRetire_done {s : State} {k : Nat} {c : CopyCmd} (hc : s.cpys.find? (fun x => x.id == k) = some c)
    (hr : c.retranslate = false) (hown : c.owned = []) (hbytes : c.bytes = []) : execCopyRetire k s = .next (s.endCopy c) := by
  simp only [execCopyRetire, hc, hr, hown, CopyCmd.memBytes, hbytes]
  rfl

theorem State.grp_updAll {s : State} {u : Nat} {g : Grp} {p : Grp → Bool} {f : Grp → Grp} (hg : s.grp u = some g) (hf : ∀ x, (f x).uid = x.uid) :
    State.grp { s with groups := updAll p f s.groups } u = some (if p g then f g else g) := by
  show (updAll p f s.groups).find? (fun g => g.uid == u) = _
  rw [updAll, List.find?_map, show ((fun x : Grp => x.uid == u) ∘ fun x => if p x then f x else x) = fun x => x.uid == u from ?_,
    show s.groups.find? (fun g => g.uid == u) = some g from hg]
  · rfl
  · funext x
    simp only [Function.comp]
    split
    · rw [hf]
    · rfl

/-- What a copy leaves as it ends (R168, R189, R352). -/
theorem State.endCopy_leaves {s : State} {k : Nat} {c : CopyCmd} (hid : c.id = k) :
    (s.endCopy c).mem = s.mem ∧ (s.endCopy c).cpys = s.cpys.filter (fun x => x.id != k)
      ∧ (∀ u g, s.grp u = some g → g.has c.uid = true →
          ∃ h, (s.endCopy c).grp u = some h ∧ h.cpyTime = max g.cpyTime c.time ∧ h.pts = g.pts)
      ∧ ∀ b, s.tomb c.part c.imgSlot = some b → ∃ d, (s.endCopy c).tomb c.part c.imgSlot = some d ∧ d.outstanding = b.outstanding - 1 := by
  subst hid
  refine ⟨State.endCopy_mem .., rfl, fun u g hg hhas => ?_, fun b hb => ?_⟩
  · have hgrp := State.grp_updAll (s := State.ackSide (State.unwait { s with cpys := s.cpys.filter fun x => x.id != c.id } c.id)
      c.part c.imgSlot c.ord 1) (p := fun g => g.has c.uid) (f := fun g => { g with cpyTime := max g.cpyTime c.time }) hg fun _ => rfl
    rw [if_pos hhas] at hgrp
    exact ⟨_, hgrp, rfl, rfl⟩
  · obtain ⟨hpart, hslot⟩ : b.part = c.part ∧ b.imgSlot = c.imgSlot := by simpa using List.find?_some hb
    exact ⟨_, find_updFirst (p := fun t : Tombstone => t.part == c.part && t.imgSlot == c.imgSlot) (by simp [hpart, hslot]) hb, rfl⟩

/-! Fences, held fragments and stalled scenes (R37, R48, R192 to R195). -/

/-- A group that performs its own fence is in its scope, but for a scope of a die (R193). -/
theorem State.inScope_self {g x : Grp} {scope : Nat} (huid : x.uid = g.uid) (hgang : x.gang = g.gang) (hblock : x.block = g.block)
    (hscope : scope ≠ 3) : State.inScope g scope x = true := by
  match scope with
  | 0 => simpa [State.inScope] using huid
  | 1 => simp [State.inScope, hgang, hblock]
  | 2 => simpa [State.inScope] using hgang
  | 3 => exact absurd rfl hscope
  | n + 4 => rfl

/-- A fragment that waits for its group's fence goes on once that is performed (R192). -/
def State.wakeFence (s : State) (u : Nat) (slot : Bool) : State :=
  match s.grp u with
  | none => s
  | some x => if (x.slot slot).st == .waiting && (x.slot slot).wait == .fence then s.endWait u slot else s

theorem State.wakeFence_idle {s : State} {u : Nat} {slot : Bool} {g : Grp} (hg : s.grp u = some g) (h : (g.slot slot).st ≠ .waiting) :
    s.wakeFence u slot = s := by
  simp only [State.wakeFence, hg]
  exact if_neg (by simp [h])

/-- A fence is performed (R189, R193 to R195). -/
theorem execFencePerform_performs {s : State} {u : Nat} {g : Grp} (hg : s.grp u = some g) (hfence : g.fence.isSome = true)
    (hout : s.effectsOut g = true) (hcached : g.cached = true) (h0 : g.slot0.st ≠ .waiting) (h1 : g.slot1.st ≠ .waiting) :
    let scope := g.fence.getD 0
    ∃ t, execFencePerform u s = .next t ∧ t.mem = s.mem
      ∧ t.grp u = some { g with fence := none, pts := max g.pts g.cpyTime, since := max g.since (s.pairedFence g scope) }
      ∧ ∃ f ∈ t.fences, f.by_ = some u ∧ f.scope = scope ∧ f.key = s.fresh ∧ (u ∈ f.incl ∨ scope = 3) := by
  intro scope
  have huid := State.grp_uid hg
  subst huid
  let past : Grp := { g with fence := none, pts := max g.pts g.cpyTime, since := max g.since (s.pairedFence g scope) }
  let v := s.performFence g scope
  have hgrp : v.grp g.uid = some past := by
    have := State.grp_updGrp_named (f := fun x => { x.raise x.cpyTime with fence := none, since := max x.since (s.pairedFence g scope) }) hg
      (by rw [Grp.raise_cached hcached])
    rw [Grp.raise_cached hcached] at this
    exact this
  have hwake (slot : Bool) : (past.slot slot).st ≠ .waiting := by cases slot <;> assumption
  refine ⟨v, ?_, State.performFence_mem .., hgrp, _, List.mem_cons_self, rfl, rfl, rfl, ?_⟩
  · simp only [execFencePerform, hg]
    rw [if_pos (by simp [hfence, hout])]
    show Host.Outcome.next ((v.wakeFence g.uid false).wakeFence g.uid true) = _
    rw [State.wakeFence_idle hgrp (hwake false), State.wakeFence_idle hgrp (hwake true)]
  · by_cases h3 : scope = 3
    · exact .inr h3
    · refine .inl (List.mem_map.2 ⟨past, List.mem_filter.2 ⟨List.mem_of_find?_eq_some hgrp, State.inScope_self rfl rfl rfl h3⟩, rfl⟩)

/-- A fragment held at its header for a register goes on (R48). -/
theorem execEmptyWaitEnd_ends {s : State} {u : Nat} {slot : Bool} {g : Grp} (hg : s.grp u = some g) (hhold : (g.slot slot).hold = .emptyReg)
    (hgo : ∃ ws, s.startScene g (g.slot slot) (match s.codeWord g (g.slot slot).mask (g.slot slot).pc with
      | .ok w => bits w 23 19 | .error _ => 0) = .go ws) :
    ∃ t h, execEmptyWaitEnd u slot s = .next t ∧ t.grp u = some h ∧ h.slot slot = { g.slot slot with hold := .none }
      ∧ h.slot (!slot) = g.slot (!slot) ∧ t.mem = s.mem := by
  obtain ⟨ws, hgo⟩ := hgo
  refine ⟨_, _, ?_, State.grp_updGrp_named hg (f := fun y => y.updSlot slot fun z => { z with hold := .none }) (Grp.updSlot_uid ..), ?_, ?_, rfl⟩
  · simp only [execEmptyWaitEnd, hg]
    exact if_pos ⟨hhold, fun hwait => nomatch hgo.symm.trans hwait⟩
  · cases slot <;> rfl
  · cases slot <;> rfl

/-- The first of the stalled scenes goes on (R37); where it changes nothing, it does not use its group's image (R26). -/
theorem execStalledPerformResume_first {s : State} {i : Issue} {rest : List Issue} (hs : s.stowed = i :: rest) :
    let v := State.useImage { s with stowed := rest } i.g.uid
    let mine (j : Issue) : Bool := j.g.uid == i.g.uid && j.slot == i.slot
    let placed (t : State) : State := { t with stowed := t.stowed.filter mine ++ t.stowed.filter fun j => !mine j }
    let gives (t : State) : Prop :=
      execStalledPerformResume i.g.uid i.slot s = .next (if placed t = { v with stowed := s.stowed } then s else placed t)
    (i.phase ≠ .check → gives ((v.runPerform i).lateWork v i))
      ∧ (i.phase = .check → ∀ t, v.finishScene i = .next t → gives t)
      ∧ (i.phase = .check → (∀ t, v.finishScene i ≠ .next t) → execStalledPerformResume i.g.uid i.slot s = v.finishScene i) := by
  intro v mine placed gives
  have hfind : s.stowed.find? (fun j => j.g.uid == i.g.uid && j.slot == i.slot) = some i := by
    rw [hs]
    exact List.find?_cons_of_pos (by simp)
  have hbefore : s.stowed.takeWhile (fun j => !(j.g.uid == i.g.uid && j.slot == i.slot)) = [] := by
    rw [hs]
    exact List.takeWhile_cons_of_neg (by simp)
  have hafter : (s.stowed.dropWhile (fun j => !(j.g.uid == i.g.uid && j.slot == i.slot))).drop 1 = rest := by
    rw [hs, List.dropWhile_cons_of_neg (by simp)]
    rfl
  refine ⟨fun hphase => ?_, fun hphase t ht => ?_, fun hphase hstop => ?_⟩
  · simp only [gives, execStalledPerformResume, hfind, hbefore, hafter]
    rw [if_neg hphase]
    rfl
  · simp only [gives, execStalledPerformResume, hfind, hbefore, hafter]
    rw [if_pos hphase]
    show (match v.finishScene i with | .next t => _ | o => o) = _
    rw [ht]
    rfl
  · simp only [execStalledPerformResume, hfind, hbefore, hafter]
    rw [if_pos hphase]
    show (match v.finishScene i with | .next t => _ | o => o) = _
    split
    next t ht => exact absurd ht (hstop t)
    next => rfl

/-- A scene whose first word stalls keeps it (R37). -/
theorem State.runPerform_stalls {v w : State} {i j : Issue} {o : SOp} {r : List SOp} {g : Grp} (hops : i.ops = o :: r)
    (ho : v.performOne i o = (w, j, false)) (hg : w.grp i.g.uid = some g) (hj : j.g = i.g) :
    v.runPerform i = { w with stowed := w.stowed ++ [{ j with ops := o :: r, phase := .perform }] } := by
  have hall : v.performAll i i.ops = (w, j, o :: r) := by
    rw [hops, State.performAll, ho]
  rw [← hj] at hg
  simp only [State.runPerform, hall, hg]
  rfl

theorem State.performAll_goes {v w : State} {i j : Issue} {o : SOp} {r : List SOp} (ho : v.performOne i o = (w, j, true)) :
    v.performAll i (o :: r) = w.performAll j r := by rw [State.performAll, ho]

/-- A scene with no word left ends, unless its final word has to be served later (R37). -/
theorem State.runPerform_done {v : State} {i : Issue} {g : Grp} {slot : Bool} (hops : i.ops = []) (hg : v.grp i.g.uid = some g)
    (hslot : g.whereIs i.mask = some slot) (hpoints : g.points = []) (htwin : g.twin = none) :
    v.runPerform i = match v.endScene i slot with
      | some t => t
      | none => { v with stowed := v.stowed ++ [{ i with ops := [], phase := .perform }] } := by
  have hall : v.performAll i i.ops = (v, i, []) := by rw [hops, State.performAll]
  have hpoint : v.atPoint g = false := by simp [State.atPoint, hpoints]
  simp only [State.runPerform, hall, hg, hslot, hpoint, htwin]
  rfl

/-- Settles O53, a line of a copy, its retirement, a fence, a held fragment and a stalled scene at a time. -/
theorem copyAndFenceEvents : Obligations.CopyAndFenceEvents := by
  unfold Obligations.CopyAndFenceEvents
  refine ⟨fun s k line u c g slot => ⟨fun hc hr => ⟨?_, ?_, ?_, ?_⟩, ?_, ?_, ?_⟩, fun v w i j o r g => ⟨?_, ?_, ?_⟩⟩
  · exact execAgentLineRelease_copy hc hr
  · intro hown hbank hd honce time
    have hid : c.id = k := by simpa using List.find?_some hc
    obtain ⟨hcpys, hlines, -⟩ := State.copyLine_writes (c := c) hbank hd
    obtain ⟨hreads, hothers⟩ := State.copyLine_reads (c := c) hbank hd
    have hstamp := ((s.writeMarked (c.lineBytes line)).tfind_stampLine (256 * line) c.part time)
    rw [lineOf_mul, ← hlines] at hstamp
    refine ⟨s.copyLine c line, c.wrote line time, _, execAgentLineRelease_copy hc hr hown, ?_, ?_, rfl, hstamp, rfl, rfl, ?_, hothers⟩
    · rw [hcpys, hid]
      exact find_updFirst (p := fun x : CopyCmd => x.id == k) (by simpa [CopyCmd.wrote] using hid) hc
    · simp [CopyCmd.wrote]
    · intro off a m b p hb hline hm hz
      refine ⟨hreads honce off a m b p hb hline hm hz, fun y hy hya => ?_⟩
      have hkeep := (List.mem_filter.1 hy).2
      simp [keepsByte, hya, hline, hm] at hkeep
  · exact execCopyRetire_done hc hr
  · intro hown hbytes
    have hid : c.id = k := by simpa using List.find?_some hc
    obtain ⟨hmem, hcpys, hgrp, htomb⟩ := State.endCopy_leaves (s := s) hid
    exact ⟨_, execCopyRetire_done hc hr hown hbytes, hmem, hcpys, hgrp u g, htomb⟩
  · exact execFencePerform_performs
  · exact execEmptyWaitEnd_ends
  · exact fun i rest => execStalledPerformResume_first
  · exact State.runPerform_stalls
  · exact State.performAll_goes
  · intro slot hops hg hslot hpoints htwin
    rw [State.runPerform_done hops hg hslot hpoints htwin]
    exact ⟨fun t ht => by rw [ht], fun hnone => by rw [hnone]⟩

end Sys2Proof.Machine
end

section
/-! SUPPORT. The ends of waits; engine commands and bank units (R30, R212 to R221, R244 to R248). -/

namespace Sys2Proof.Machine

open Sys2Proof.Claim

/-! What a boundary and the end of a wait change (R16 to R18, R30). -/

/-- Two groups that differ in their slots and stacks alone. -/
def Grp.OnlyFrags (g h : Grp) : Prop := h = { g with slot0 := h.slot0, slot1 := h.slot1, stack := h.stack }

theorem Grp.OnlyFrags.refl (g : Grp) : Grp.OnlyFrags g g := rfl

theorem Grp.OnlyFrags.trans {g h k : Grp} (a : Grp.OnlyFrags g h) (b : Grp.OnlyFrags h k) : Grp.OnlyFrags g k := by
  unfold Grp.OnlyFrags at *
  rw [b, a]

theorem Grp.OnlyFrags.uid {g h : Grp} (a : Grp.OnlyFrags g h) : h.uid = g.uid := by rw [a]
theorem Grp.OnlyFrags.gang {g h : Grp} (a : Grp.OnlyFrags g h) : h.gang = g.gang := by rw [a]
theorem Grp.OnlyFrags.cached {g h : Grp} (a : Grp.OnlyFrags g h) : h.cached = g.cached := by rw [a]
theorem Grp.OnlyFrags.place {g h : Grp} (a : Grp.OnlyFrags g h) : h.place = g.place := by rw [a]

theorem Grp.setSlot_onlyFrags (g : Grp) (i : Bool) (x : Slot) : Grp.OnlyFrags g (g.setSlot i x) := by cases i <;> rfl

theorem Grp.updSlot_onlyFrags (g : Grp) (i : Bool) (f : Slot → Slot) : Grp.OnlyFrags g (g.updSlot i f) := Grp.setSlot_onlyFrags ..

theorem Grp.noPartner_onlyFrags (g : Grp) (i : Bool) : Grp.OnlyFrags g (g.noPartner i) := by
  simp only [Grp.noPartner]
  split
  · exact Grp.updSlot_onlyFrags ..
  next top rest _ =>
    exact ((Grp.updSlot_onlyFrags g i _).trans (Grp.setSlot_onlyFrags _ (!i) top)).trans rfl

theorem Grp.stopAt_onlyFrags (g : Grp) (i : Bool) : Grp.OnlyFrags g (g.stopAt i) := by
  simp only [Grp.stopAt]
  split
  · split
    · exact Grp.OnlyFrags.trans (h := { g with slot0 := _, slot1 := {} }) rfl (Grp.noPartner_onlyFrags ..)
    · exact Grp.updSlot_onlyFrags ..
  · exact .refl g

theorem Grp.stops_onlyFrags (n : Nat) (g : Grp) : Grp.OnlyFrags g (g.stops n) := by
  induction n generalizing g with
  | zero => exact .refl g
  | succ n ih =>
    unfold Grp.stops
    split
    · exact ((Grp.stopAt_onlyFrags g false).trans (Grp.stopAt_onlyFrags _ true)).trans (ih _)
    · exact .refl g

theorem Grp.boundary_onlyFrags (g : Grp) (i : Bool) : Grp.OnlyFrags g (g.boundary i) :=
  (Grp.stopAt_onlyFrags g i).trans (Grp.stops_onlyFrags 130 _)

/-- Two states that differ in their groups, cores, memory and its marks alone. -/
def State.OnlyWakes (s t : State) : Prop := t = { s with groups := t.groups, cores := t.cores, mem := t.mem, pois := t.pois }

theorem State.OnlyWakes.refl (s : State) : State.OnlyWakes s s := rfl

theorem State.OnlyWakes.trans {s t u : State} (h : State.OnlyWakes s t) (k : State.OnlyWakes t u) : State.OnlyWakes s u := by
  unfold State.OnlyWakes at *
  rw [k, h]

theorem State.OnlyMem.onlyWakes {s t : State} (h : State.OnlyMem s t) : State.OnlyWakes s t := by
  unfold State.OnlyMem at h
  unfold State.OnlyWakes
  rw [h]

theorem State.updImage_onlyWakes (s : State) (u : Nat) (f : Grp → Grp) : State.OnlyWakes s (s.updImage u f) := by
  simp only [State.updImage]
  split
  · exact .refl s
  · split
    · rfl
    · exact State.OnlyWakes.trans (t := s.updGrp u _) rfl (State.writeImage_onlyMem ..).onlyWakes

theorem State.endWait_onlyWakes (s : State) (u : Nat) (slot : Bool) : State.OnlyWakes s (s.endWait u slot) := by
  simp only [State.endWait]
  split
  · exact State.updImage_onlyWakes ..
  · split
    · exact (State.updImage_onlyWakes ..).trans rfl
    · exact State.updImage_onlyWakes ..

theorem State.raisePts_onlyWakes (s : State) (u t : Nat) : State.OnlyWakes s (s.raisePts u t) := rfl

theorem State.wakeSlot_onlyWakes (s : State) (u : Nat) (slot : Bool) : State.OnlyWakes s (s.wakeSlot u slot) := by
  simp only [State.wakeSlot]
  split
  · exact .refl s
  split
  · exact .refl s
  split
  · split
    · exact .refl s
    · exact State.endWait_onlyWakes ..
  · split
    · exact (State.raisePts_onlyWakes ..).trans (State.endWait_onlyWakes ..)
    · exact .refl s
  · split
    · exact .refl s
    · exact (State.raisePts_onlyWakes ..).trans (State.endWait_onlyWakes ..)
  · exact .refl s

theorem foldl_onlyWakes {α : Type} {f : State → α → State} (h : ∀ s x, State.OnlyWakes s (f s x)) (s : State) (xs : List α) :
    State.OnlyWakes s (xs.foldl f s) := by
  induction xs generalizing s with
  | nil => exact .refl s
  | cons x r ih => exact (h s x).trans (ih _)

theorem State.wakeWaits_onlyWakes (s : State) : State.OnlyWakes s s.wakeWaits :=
  foldl_onlyWakes (fun s u => (State.wakeSlot_onlyWakes s u false).trans (State.wakeSlot_onlyWakes _ u true)) s _

theorem State.OnlyWakes.ecmds {s t : State} (h : State.OnlyWakes s t) : t.ecmds = s.ecmds := by rw [h]
theorem State.OnlyWakes.engs {s t : State} (h : State.OnlyWakes s t) : t.engs = s.engs := by rw [h]
theorem State.OnlyWakes.waves {s t : State} (h : State.OnlyWakes s t) : t.waves = s.waves := by rw [h]
theorem State.OnlyWakes.launches {s t : State} (h : State.OnlyWakes s t) : t.launches = s.launches := by rw [h]
theorem State.OnlyWakes.parts {s t : State} (h : State.OnlyWakes s t) : t.parts = s.parts := by rw [h]
theorem State.OnlyWakes.gangs {s t : State} (h : State.OnlyWakes s t) : t.gangs = s.gangs := by rw [h]

/-! Where every image is in a register cache, the end of a wait writes nothing to memory (R26). -/

theorem grp_cached {s : State} (h : AllCached s) {u : Nat} {g : Grp} (hg : s.grp u = some g) : g.cached = true :=
  h g (List.mem_of_find?_eq_some hg)

theorem mem_updFirst {α : Type} {p : α → Bool} {f : α → α} {xs : List α} {y : α} (h : y ∈ updFirst p f xs) :
    y ∈ xs ∨ ∃ x ∈ xs, p x = true ∧ y = f x := by
  induction xs with
  | nil => exact .inl h
  | cons x r ih =>
    simp only [updFirst] at h
    split at h
    next hp =>
      rcases List.mem_cons.1 h with rfl | h
      · exact .inr ⟨x, List.mem_cons_self, hp, rfl⟩
      · exact .inl (List.mem_cons_of_mem _ h)
    next =>
      rcases List.mem_cons.1 h with rfl | h
      · exact .inl List.mem_cons_self
      · exact (ih h).imp (List.mem_cons_of_mem _) fun ⟨z, hz, e⟩ => ⟨z, List.mem_cons_of_mem _ hz, e⟩

theorem allCached_updGrp {s : State} (h : AllCached s) (u : Nat) {f : Grp → Grp} (hf : ∀ g, (f g).cached = g.cached) :
    AllCached (s.updGrp u f) := by
  intro g hg
  rcases mem_updFirst hg with hg | ⟨x, hx, -, rfl⟩
  · exact h g hg
  · exact (hf x).trans (h x hx)

/-- What a step leaves of memory and of the register caches. -/
structure StaysCached (s t : State) : Prop where
  cached : AllCached t
  mem : t.mem = s.mem

theorem StaysCached.refl {s : State} (h : AllCached s) : StaysCached s s := ⟨h, rfl⟩

theorem StaysCached.trans {s t u : State} (h : StaysCached s t) (k : StaysCached t u) : StaysCached s u := ⟨k.cached, k.mem.trans h.mem⟩

theorem StaysCached.updImage {s : State} (h : AllCached s) (u : Nat) {f : Grp → Grp} (hf : ∀ g, (f g).cached = g.cached) :
    StaysCached s (s.updImage u f) := by
  cases hg : s.grp u with
  | none => exact ⟨by rwa [State.updImage, hg], by rw [State.updImage, hg]⟩
  | some g =>
    rw [State.updImage_cached hg (grp_cached h hg)]
    exact ⟨allCached_updGrp h u hf, rfl⟩

theorem StaysCached.endWait {s : State} (h : AllCached s) (u : Nat) (slot : Bool) : StaysCached s (s.endWait u slot) := by
  simp only [State.endWait]
  have himage := StaysCached.updImage h u (f := fun g => (released g slot).boundary slot) fun g =>
    (Grp.boundary_onlyFrags _ slot).cached.trans (Grp.updSlot_onlyFrags ..).cached
  unfold released at himage
  split
  · exact himage
  · split
    · exact himage.trans ⟨himage.cached, rfl⟩
    · exact himage

theorem StaysCached.raisePts {s : State} (h : AllCached s) (u t : Nat) : StaysCached s (s.raisePts u t) := ⟨allCached_updGrp h u fun _ => rfl, rfl⟩

theorem StaysCached.wakeSlot {s : State} (h : AllCached s) (u : Nat) (slot : Bool) : StaysCached s (s.wakeSlot u slot) := by
  simp only [State.wakeSlot]
  split
  · exact .refl h
  split
  · exact .refl h
  split
  · split
    · exact .refl h
    · exact StaysCached.endWait h ..
  · split
    · exact (StaysCached.raisePts h ..).trans (StaysCached.endWait (StaysCached.raisePts h ..).cached ..)
    · exact .refl h
  · split
    · exact .refl h
    · exact (StaysCached.raisePts h ..).trans (StaysCached.endWait (StaysCached.raisePts h ..).cached ..)
  · exact .refl h

theorem StaysCached.wakeWaits {s : State} (h : AllCached s) : StaysCached s s.wakeWaits := by
  simp only [State.wakeWaits]
  generalize s.groups.map (·.uid) = us
  induction us generalizing s with
  | nil => exact .refl h
  | cons u r ih =>
    have hslot := StaysCached.wakeSlot h u false
    have hslots := hslot.trans (StaysCached.wakeSlot hslot.cached u true)
    exact hslots.trans (ih hslots.cached)

/-! Engine commands (R212, R218 to R221). -/

theorem State.ecmd_id {s : State} {k : Nat} {c : ECmd} (h : s.ecmd k = some c) : c.id = k := by simpa using List.find?_some h

theorem State.ecmd_updECmd {s : State} {k : Nat} {c : ECmd} {f : ECmd → ECmd} (h : s.ecmd k = some c) (hf : (f c).id = c.id) :
    (s.updECmd k f).ecmd k = some (f c) :=
  find_updFirst (p := fun c : ECmd => c.id == k) (by simpa [hf] using State.ecmd_id h) h

theorem State.ecmd_congr {s t : State} (h : s.ecmds = t.ecmds) (k : Nat) : s.ecmd k = t.ecmd k := by rw [State.ecmd, State.ecmd, h]

theorem State.ecmd_wakeWaits (s : State) (k : Nat) : s.wakeWaits.ecmd k = s.ecmd k := State.ecmd_congr (State.wakeWaits_onlyWakes s).ecmds k

/-- A command that retires, and the waits that end by it: memory stays where every image is in a register cache. -/
theorem State.retire_wakes {s v : State} {k : Nat} {c : ECmd} {f : ECmd → ECmd} (hc : s.ecmd k = some c) (hf : (f c).id = c.id)
    (hecmds : v.ecmds = s.ecmds) (hgroups : v.groups = s.groups) (hmem : v.mem = s.mem) :
    (v.updECmd k f).wakeWaits.ecmd k = some (f c) ∧ (AllCached s → (v.updECmd k f).wakeWaits.mem = s.mem) := by
  constructor
  · rw [State.ecmd_wakeWaits]
    exact State.ecmd_updECmd ((State.ecmd_congr hecmds k).trans hc) hf
  · intro h
    have hv : AllCached (v.updECmd k f) := fun g hg => h g (hgroups ▸ hg)
    exact (StaysCached.wakeWaits hv).mem.trans hmem

theorem execSequencerIssue_issues {s : State} {k : Nat} {c : ECmd} (hc : s.ecmd k = some c) (hkind : c.kind ≠ .stage)
    (hcan : s.canIssue c = true) :
    ∃ t, execSequencerIssue k s = .next t ∧ t.ecmd k = some { c with st := .running } ∧ t.mem = s.mem := by
  refine ⟨s.updECmd k fun d => { d with st := .running }, ?_, State.ecmd_updECmd hc rfl, rfl⟩
  simp only [execSequencerIssue, hc, beq_eq_false_iff_ne.2 hkind]
  exact if_pos hcan

theorem execWloadRetire_retires {s : State} {k : Nat} {c : ECmd} (hc : s.ecmd k = some c) (hkind : c.kind = .wload) (hst : c.st = .running) :
    ∃ t d, execWloadRetire k s = .next t ∧ t.ecmd k = some d ∧ d.st = .retired ∧ d.holds = [] ∧ (AllCached s → t.mem = s.mem) := by
  simp only [execWloadRetire, hc, hkind, hst]
  rw [if_neg (by decide)]
  obtain ⟨hecmd, hmem⟩ := State.retire_wakes
    (v := s.writeGranules c fun j => { st := .loaded, i8 := c.i8, pois := c.poisAt.contains j, bytes := c.granuleBytes j })
    (f := fun d => { d with st := .retired, bytes := [], holds := [], pois := !c.poisAt.isEmpty }) hc rfl rfl rfl rfl
  exact ⟨_, _, rfl, hecmd, rfl, rfl, hmem⟩

theorem execWfreeRetire_retires {s : State} {k : Nat} {c : ECmd} (hc : s.ecmd k = some c) (hkind : c.kind = .wfree) (hst : c.st = .running) :
    ∃ t d, execWfreeRetire k s = .next t ∧ t.ecmd k = some d ∧ d.st = .retired ∧ (AllCached s → t.mem = s.mem) := by
  simp only [execWfreeRetire, hc, hkind, hst]
  rw [if_neg (by decide)]
  obtain ⟨hecmd, hmem⟩ := State.retire_wakes (v := s.writeGranules c fun _ => {}) (f := fun d => { d with st := .retired }) hc rfl rfl rfl rfl
  exact ⟨_, _, rfl, hecmd, rfl, hmem⟩

theorem execStageRetire_retires {s : State} {k : Nat} {c : ECmd} (hc : s.ecmd k = some c) (hkind : c.kind = .stage) (hst : c.st = .running)
    (hreh : c.rehearsal = false) (hcomp : c.computed = true) (houts : c.outs = []) :
    ∃ t d, execStageRetire k s = .next t ∧ t.ecmd k = some d ∧ d.st = .retired ∧ (AllCached s → t.mem = s.mem) := by
  simp only [execStageRetire, hc]
  rw [if_pos (by simp [hkind, ECmd.delivers, hst, hreh, hcomp, houts])]
  obtain ⟨hecmd, hmem⟩ := State.retire_wakes (v := s) (f := fun d => { d with st := .retired }) hc rfl rfl rfl rfl
  exact ⟨_, _, rfl, hecmd, rfl, hmem⟩

theorem State.advance_untaken {s : State} {c : ECmd} (h : c.took = false) : s.advance c = s := by simp [State.advance, h]

theorem execRehearsalHeld_holds {s : State} {k : Nat} {c : ECmd} (hc : s.ecmd k = some c) (hkind : c.kind = .stage) (hst : c.st = .running)
    (hreh : c.rehearsal = true) (htook : c.took = false) (hcomp : c.computed = true) :
    ∃ t, execRehearsalHeld k s = .next t ∧ t.ecmd k = some { c with st := .held } ∧ t.mem = s.mem := by
  refine ⟨s.updECmd k fun x => { x with st := .held }, ?_, State.ecmd_updECmd hc rfl, rfl⟩
  simp only [execRehearsalHeld, hc, hkind, hreh, hst, State.advance_untaken htook]
  rw [if_neg (by decide), if_pos hcomp]

theorem execEngineOutputEntry_delivers {s : State} {k : Nat} {c : ECmd} {e : Entry} {r : List Entry} (hc : s.ecmd k = some c)
    (hkind : c.kind = .stage) (hst : c.st = .running) (hreh : c.rehearsal = false) (htook : c.took = false) (houts : c.outs = e :: r)
    (hcan : s.canDeliver c = true) :
    execEngineOutputEntry k s = .next
      ((s.updECmd k fun x => { x with outs := r }).updQueue c.gang c.coreIdx c.outQ fun q => { q with entries := q.entries ++ [e] }) := by
  simp only [execEngineOutputEntry, hc, State.advance_untaken htook, houts]
  rw [if_neg (by simp [hkind, ECmd.delivers, hst, hreh]), if_pos hcan]

/-! Bank units write their rows (R244 to R248). -/

theorem tfind_terase_none {α : Type} {t : Tbl α} {l : Nat} (k : Nat) (h : tfind t l = none) : tfind (terase t k) l = none := by
  by_cases hk : l = k
  · rw [hk, tfind_terase_same]
  · rw [tfind_terase_other _ _ _ hk, h]

theorem State.backInvalidate_lines (s : State) (pa part from_ : Nat) :
    (s.backInvalidate pa part from_).2.lines = terase s.lines (lineOf pa) := by simp [State.backInvalidate]

@[simp] theorem State.noteTime_die (s : State) (part t d : Nat) : (s.noteTime part t).die d = s.die d := by
  simp only [State.noteTime]
  split <;> rfl

@[simp] theorem State.noteTime_bcmds (s : State) (part t : Nat) : (s.noteTime part t).bcmds = s.bcmds := by
  simp only [State.noteTime]
  split <;> rfl

@[simp] theorem State.stampLine_bcmds (s : State) (pa part t : Nat) : (s.stampLine pa part t).bcmds = s.bcmds := by simp [State.stampLine]

theorem State.backInvalidate_die (s : State) (pa part from_ d : Nat) : (s.backInvalidate pa part from_).2.die d = s.die d :=
  State.noteTime_die ..

theorem State.backInvalidate_bcmds (s : State) (pa part from_ : Nat) : (s.backInvalidate pa part from_).2.bcmds = s.bcmds :=
  State.noteTime_bcmds ..

/-- Lines dropped at their homes one by one, and the largest of the times (R247). -/
def dropLines (part from_ : Nat) (x : Nat × State) (ls : List Nat) : Nat × State :=
  ls.foldl (fun x l => (max x.1 (x.2.backInvalidate (256 * l) part from_).1, (x.2.backInvalidate (256 * l) part from_).2)) x

/-- The lines dropped are gone, and memory, dies and bank commands stay. -/
structure Dropped (s t : State) (ls : List Nat) : Prop where
  mem : t.mem = s.mem
  die : ∀ d, t.die d = s.die d
  bcmds : t.bcmds = s.bcmds
  gone : ∀ l, (l ∈ ls ∨ tfind s.lines l = none) → tfind t.lines l = none

theorem dropLines_dropped (part from_ : Nat) (x : Nat × State) (ls : List Nat) : Dropped x.2 (dropLines part from_ x ls).2 ls := by
  induction ls generalizing x with
  | nil => exact ⟨rfl, fun _ => rfl, rfl, fun l h => h.resolve_left List.not_mem_nil⟩
  | cons k r ih =>
    obtain ⟨hmem, hdie, hbcmds, hgone⟩ :=
      ih (max x.1 (x.2.backInvalidate (256 * k) part from_).1, (x.2.backInvalidate (256 * k) part from_).2)
    refine ⟨hmem.trans (State.backInvalidate_mem ..), fun d => (hdie d).trans (State.backInvalidate_die ..),
      hbcmds.trans (State.backInvalidate_bcmds ..), fun l hl => hgone l ?_⟩
    have hlines := State.backInvalidate_lines x.2 (256 * k) part from_
    rw [lineOf_mul] at hlines
    show l ∈ r ∨ tfind (x.2.backInvalidate (256 * k) part from_).2.lines l = none
    rw [hlines]
    rcases hl with hl | hl
    · rcases List.mem_cons.1 hl with rfl | hl
      · exact .inr (tfind_terase_same ..)
      · exact .inl hl
    · exact .inr (tfind_terase_none k hl)

@[simp] theorem State.writePa_bcmds (s : State) (pa : Nat) (bs : List Byte) : (s.writePa pa bs).bcmds = s.bcmds := by
  simp only [State.writePa]
  split <;> rfl

theorem State.writeMarked_lines (s : State) (bs : List (Nat × Byte × Bool)) : (s.writeMarked bs).lines = s.lines :=
  foldl_keeps State.lines (f := fun s (b : Nat × Byte × Bool) => s.writePa b.1 [b.2.1]) (fun s _ => s.writePa_lines ..) s bs

theorem State.writeMarked_bcmds (s : State) (bs : List (Nat × Byte × Bool)) : (s.writeMarked bs).bcmds = s.bcmds :=
  foldl_keeps State.bcmds (f := fun s (b : Nat × Byte × Bool) => s.writePa b.1 [b.2.1]) (fun s _ => s.writePa_bcmds ..) s bs

/-- A bank unit at work on a line (R174, R244). -/
def State.unitWorks (s : State) (l : Nat) : State := (s.fireWatches (.mem (256 * l) .bank) 256).bankWorks (256 * l)

theorem State.unitWrite_eq (s : State) (part from_ : Nat) (bs : List (Nat × Byte × Bool)) :
    (s.unitWrite part from_ bs).2 =
      ((bs.map fun b => lineOf b.1).eraseDups).foldl State.unitWorks ((dropLines part from_ (0, s) (bs.map fun b => lineOf b.1).eraseDups).2.writeMarked bs) := rfl

/-- What a bank unit's write leaves: its bytes, the copies of their lines gone at their homes, and no bank command changed. -/
theorem State.unitWrite_writes (s : State) (part from_ : Nat) (bs : List (Nat × Byte × Bool)) :
    let t := (s.unitWrite part from_ bs).2
    t.bcmds = s.bcmds ∧ (∀ b ∈ bs, tfind t.lines (lineOf b.1) = none)
      ∧ ((∀ b ∈ bs, zeroRow b.1 = false ∧ (s.die (homeDie b.1)).failed = false) → (∀ x ∈ bs, ∀ y ∈ bs, x.1 = y.1 → x = y) →
          ∀ b ∈ bs, t.readPa b.1 1 = [b.2.1])
      ∧ ∀ a, (∀ b ∈ bs, b.1 ≠ a) → t.readPa a 1 = s.readPa a 1 := by
  intro t
  obtain ⟨hmem, hdie, hbcmds, hgone⟩ := dropLines_dropped part from_ (0, s) (bs.map fun b => lineOf b.1).eraseDups
  have hread (a : Nat) : t.readPa a 1 = ((dropLines part from_ (0, s) (bs.map fun b => lineOf b.1).eraseDups).2.writeBytes bs).readPa a 1 := by
    rw [← State.readPa_writeMarked]
    exact State.readPa_congr (foldl_mem (f := State.unitWorks) (fun s l => by simp [State.unitWorks]) _ _) a 1
  refine ⟨?_, fun b hb => ?_, fun hok honce b hb => ?_, fun a ha => ?_⟩
  · rw [show t = _ from State.unitWrite_eq ..]
    exact (foldl_keeps State.bcmds (f := State.unitWorks) (fun _ _ => rfl) _ _).trans ((State.writeMarked_bcmds ..).trans hbcmds)
  · have hlines : t.lines = (dropLines part from_ (0, s) (bs.map fun b => lineOf b.1).eraseDups).2.lines := by
      rw [show t = _ from State.unitWrite_eq ..]
      exact (foldl_keeps State.lines (f := State.unitWorks) (fun _ _ => rfl) _ _).trans (State.writeMarked_lines ..)
    rw [hlines]
    exact hgone _ (.inl (List.mem_eraseDups.2 (List.mem_map.2 ⟨b, hb, rfl⟩)))
  · obtain ⟨hz, hd⟩ := hok b hb
    rw [hread]
    refine State.readPa_writeBytes_same ⟨b, hb, rfl⟩ (fun c hc hcb => by rw [honce c hc b hb hcb]) hz _ ?_
    rw [hdie]
    exact hd
  · rw [hread, State.readPa_writeBytes_other ha]
    exact State.readPa_congr hmem a 1

theorem State.updBank_readPa (s : State) (k : Nat) (f : BankCmd → BankCmd) (a n : Nat) : (s.updBank k f).readPa a n = s.readPa a n := rfl

/-- A bank command that has written the row at an offset, clean, by a time. -/
def BankCmd.wroteRow (c : BankCmd) (off t : Nat) : BankCmd :=
  { c with todo := c.todo.filter (· != off), time := max c.time t, poisoned := c.poisoned || false }

/-- A row of a bank command that is free to be written (R247). -/
theorem State.bankLine_writes {s : State} {c : BankCmd} {line off pa : Nat} {rest : List Nat} {bs : List (Nat × Byte × Bool)}
    (htodo : c.todo = off :: rest) (hpa : s.bankPa c.part c.tab c.z off = .ok pa) (hline : lineOf pa / 4 = line / 4)
    (hbs : s.bankBytes c off = .ok bs) (hfree : ∀ b ∈ bs, s.unitFree (lineOf b.1) = true ∧ lineOf b.1 ∉ s.hostLines)
    (hclean : ∀ b ∈ bs, b.2.2 = false) :
    s.bankLine c line = (s.unitWrite c.part 0 bs).2.updBank c.id fun b => b.wroteRow off (s.unitWrite c.part 0 bs).1 := by
  have hlines {l : Nat} (hl : l ∈ (bs.map fun b => lineOf b.1).eraseDups) : ∃ b ∈ bs, lineOf b.1 = l :=
    List.mem_map.1 (List.mem_eraseDups.1 hl)
  have hfind : c.todo.find? (fun off => match s.bankPa c.part c.tab c.z off with
      | .ok pa => lineOf pa / 4 == line / 4 | .error _ => false) = some off := by
    rw [htodo]
    exact List.find?_cons_of_pos (by simp [hpa, hline])
  have hhost : (bs.map fun b => lineOf b.1).eraseDups.find? (fun l => s.hostLines.contains l) = none := by
    refine List.find?_eq_none.2 fun l hl => ?_
    obtain ⟨b, hb, rfl⟩ := hlines hl
    simpa using (hfree b hb).2
  have hall : ((bs.map fun b => lineOf b.1).eraseDups.all s.unitFree) = true := by
    refine List.all_eq_true.2 fun l hl => ?_
    obtain ⟨b, hb, rfl⟩ := hlines hl
    exact (hfree b hb).1
  have hbad : bs.find? (fun b => b.2.2) = none := List.find?_eq_none.2 fun b hb => by simp [hclean b hb]
  rw [State.bankLine]
  split
  next hnone =>
    have := hfind.symm.trans hnone
    simp at this
  next o ho =>
    obtain rfl : off = o := Option.some.inj (hfind.symm.trans ho)
    simp only [hbs, hhost, hall, hbad]
    rfl

theorem execBankRowWrite_bank {s : State} {k line : Nat} {c : BankCmd} (hc : s.bcmds.find? (fun b => b.id == k) = some c) :
    execBankRowWrite k line s = .next (s.bankLine c line) := by simp only [execBankRowWrite, hc]

@[simp] theorem State.served_bcmds (s : State) (key : Nat × Nat) : (s.served key).bcmds = s.bcmds := rfl

/-- The done value of a bank command added at its home (R248). -/
theorem execBankCommandComplete_adds {s : State} {k : Nat} {c : BankCmd} (hc : s.bcmds.find? (fun b => b.id == k) = some c)
    (htodo : c.todo = []) (hfree : s.lineFree (lineOf c.donePa) = true) (hbank : s.bankHolds c.donePa true = false)
    (hd : (s.die (homeDie c.donePa)).failed = false) (hz : zeroRow c.donePa = false) :
    let v := 1 + (if c.poisoned then 65536 else 0) + (if c.stopped then 16777216 else 0)
    ∃ t, execBankCommandComplete k s = .next t
      ∧ t.mem = writeRun s.mem c.donePa (bytesLE 4 ((s.readPaNat c.donePa 4 + v) % 2 ^ 32))
      ∧ t.bcmds = s.bcmds.filter fun b => b.id != k := by
  intro v
  simp only [execBankCommandComplete, hc, htodo, hfree, hbank, hd]
  rw [if_neg (by decide), if_neg (by decide), if_neg (by decide)]
  have hwrite : (s.writePa c.donePa (bytesLE 4 (BitVec.ofNat 32 (s.readPaNat c.donePa 4 + v)).toNat)).mem =
      writeRun s.mem c.donePa (bytesLE 4 ((s.readPaNat c.donePa 4 + v) % 2 ^ 32)) := by
    rw [State.writePa_mem hz hd, BitVec.toNat_ofNat]
  refine ⟨_, rfl, ?_, ?_⟩
  · split <;> split <;> simp <;> exact hwrite
  · split <;> split <;> simp

theorem State.handBack_frees (s : State) (bank : Nat) : (tget (s.handBack bank).banks bank {}).compute = false ∧ (s.handBack bank).mem = s.mem := by
  refine ⟨?_, rfl⟩
  rw [State.handBack, tget_tset_same]

/-- Settles O54, a command of an engine and of a bank unit at a time. -/
theorem engineAndBankEvents : Obligations.EngineAndBankEvents := by
  unfold Obligations.EngineAndBankEvents
  refine ⟨fun s k c hc => ⟨?_, ?_, ?_, ?_, ?_, ?_⟩, fun s k line bank c => ⟨fun hc => ⟨?_, ?_, ?_⟩, fun hcompute => ⟨?_, ?_⟩⟩⟩
  · exact execSequencerIssue_issues hc
  · exact execWloadRetire_retires hc
  · exact execWfreeRetire_retires hc
  · exact execStageRetire_retires hc
  · exact execRehearsalHeld_holds hc
  · exact fun hkind hst hreh htook e r houts hcan => execEngineOutputEntry_delivers hc hkind hst hreh htook houts hcan
  · exact execBankRowWrite_bank hc
  · intro off rest pa bs htodo hpa hline hbs hfree hok honce
    have hid : c.id = k := by simpa using List.find?_some hc
    obtain ⟨hbcmds, hlines, hread, hothers⟩ := s.unitWrite_writes c.part 0 bs
    have hrow := State.bankLine_writes htodo hpa hline hbs hfree fun b hb => (hok b hb).1
    refine ⟨_, c.wroteRow off (s.unitWrite c.part 0 bs).1, (execBankRowWrite_bank hc).trans (congrArg _ hrow), ?_, rfl, rfl, Bool.or_false _, fun b hb => ⟨?_, hlines b hb⟩, hothers⟩
    · rw [hid, State.updBank, hbcmds]
      exact find_updFirst (p := fun b : BankCmd => b.id == k) (f := fun b => b.wroteRow off _) (beq_iff_eq.2 hid) hc
    · exact hread (fun b hb => (hok b hb).2) honce b hb
  · exact execBankCommandComplete_adds hc
  · obtain ⟨hfree, hmem⟩ := s.handBack_frees bank
    exact ⟨_, if_pos hcompute, hfree, hmem⟩
  · intro hwaits hdue
    obtain ⟨hfree, hmem⟩ := s.handBack_frees bank
    exact ⟨_, if_pos (by simp only [hcompute, List.isEmpty_eq_false_iff.2 hwaits]; exact decide_eq_true hdue), hfree, hmem⟩

end Sys2Proof.Machine
end

section
/-! SUPPORT. HEALTH, windows of late transitions, lost dies and imprecise errors (R350, R351, R366 to R379, R393). -/

namespace Sys2Proof.Machine

open Sys2Proof.Claim

/-! HEALTH words and the interrupts that follow them (R379 to R381). -/

theorem getLsbD_setBit_same (x : Word) {i : Nat} (b : Bool) (hi : i < 32) : (setBit x i b).getLsbD i = b := by
  cases b <;> simp [setBit, hi]

theorem getLsbD_setBit_other (x : Word) {i j : Nat} (b : Bool) (h : j ≠ i) : (setBit x i b).getLsbD j = x.getLsbD j := by
  have hbit : (1#32 <<< i).getLsbD j = false := by
    rw [BitVec.getLsbD_shiftLeft]
    by_cases hj : j < i
    · simp [hj]
    · have : j - i ≠ 0 := by omega
      simp [BitVec.getLsbD_one, this]
  cases b with
  | true => simp [setBit, hbit]
  | false =>
    by_cases hj : j < 32
    · have hmask : (~~~(1#32 <<< i)).getLsbD j = true := by rw [BitVec.getLsbD_not, hbit, decide_eq_true hj]; rfl
      rw [setBit, if_neg Bool.false_ne_true, BitVec.getLsbD_and, hmask, Bool.and_true]
    · rw [BitVec.getLsbD_of_ge _ _ (Nat.not_lt.1 hj), BitVec.getLsbD_of_ge _ _ (Nat.not_lt.1 hj)]

/-- A field below a bit that was set or cleared. -/
theorem bits_setBit_above (x : Word) {i hi : Nat} (lo : Nat) (b : Bool) (h : hi < i) : bits (setBit x i b) hi lo = bits x hi lo := by
  have hext : (setBit x i b).extractLsb' lo (hi + 1 - lo) = x.extractLsb' lo (hi + 1 - lo) := by
    ext k hk
    rw [BitVec.getElem_extractLsb', BitVec.getElem_extractLsb']
    exact getLsbD_setBit_other x b (by omega)
  exact congrArg BitVec.toNat hext

theorem State.die_healthEvent (s : State) (d : Nat) (f : Word → Word) :
    (s.healthEvent d f).die d =
      { s.die d with health := if replaceDue (f (s.die d).health) then setBit (f (s.die d).health) 31 true else f (s.die d).health } :=
  State.die_updDie ..

theorem State.die_healthEvent_other (s : State) {d n : Nat} (f : Word → Word) (h : n ≠ d) : (s.healthEvent d f).die n = s.die n :=
  State.die_updDie_other _ _ _ _ h

/-- A field of HEALTH below REPLACE after a change of the register. -/
theorem State.bits_healthEvent (s : State) (d : Nat) (f : Word → Word) {hi : Nat} (lo : Nat) (h : hi < 31) :
    bits ((s.healthEvent d f).die d).health hi lo = bits (f (s.die d).health) hi lo := by
  rw [State.die_healthEvent]
  dsimp only
  split
  · exact bits_setBit_above _ _ _ h
  · rfl

theorem State.bit_healthEvent (s : State) (d : Nat) (f : Word → Word) {i : Nat} (h : i < 31) :
    bitOf ((s.healthEvent d f).die d).health i = bitOf (f (s.die d).health) i := by
  rw [State.die_healthEvent]
  dsimp only
  split
  · exact getLsbD_setBit_other _ _ (by omega)
  · rfl

/-- Interrupts are all that an alarm sends (R381). -/
theorem State.alarm_onlyOut (s old : State) (part : Option Nat) : s.alarm old part = { s with out := (s.alarm old part).out } := by
  simp only [State.alarm]
  generalize List.range 8 = ps
  generalize hf : (fun (t : State) (p : Nat) => _) = f
  have hstep (t : State) (p : Nat) : f t p = { t with out := (f t p).out } := by
    rw [← hf]
    dsimp only
    split <;> rfl
  clear hf
  suffices ∀ t : State, ps.foldl f t = { t with out := (ps.foldl f t).out } from this s
  induction ps with
  | nil => exact fun _ => rfl
  | cons p r ih =>
    intro t
    rw [List.foldl_cons, ih (f t p), hstep t p]

theorem State.die_alarm (s old : State) (part : Option Nat) (d : Nat) : (s.alarm old part).die d = s.die d := by rw [State.alarm_onlyOut]; rfl
theorem State.groups_alarm (s old : State) (part : Option Nat) : (s.alarm old part).groups = s.groups := by rw [State.alarm_onlyOut]
theorem State.gangs_alarm (s old : State) (part : Option Nat) : (s.alarm old part).gangs = s.gangs := by rw [State.alarm_onlyOut]
theorem State.waves_alarm (s old : State) (part : Option Nat) : (s.alarm old part).waves = s.waves := by rw [State.alarm_onlyOut]
theorem State.flash_alarm (s old : State) (part : Option Nat) : (s.alarm old part).flash = s.flash := by rw [State.alarm_onlyOut]
theorem State.copies_alarm (s old : State) (part : Option Nat) : (s.alarm old part).copies = s.copies := by rw [State.alarm_onlyOut]

/-! Margin events (R368 to R375). -/

/-- WINCNT of the window in which a clock falls (R374). -/
theorem CoreState.rollWindow_count (c : CoreState) (clk : Nat) :
    let w := bits c.ltewin 19 0 * 1900
    bits (c.rollWindow clk).ltecnt 15 0 = (if 0 < w ∧ c.winStart + w ≤ clk then 0 else bits c.ltecnt 15 0)
      ∧ bits (c.rollWindow clk).ltecnt 31 16 = bits c.ltecnt 31 16 ∧ (c.rollWindow clk).margin = c.margin
      ∧ (c.rollWindow clk).quar = c.quar ∧ (c.rollWindow clk).ltelim = c.ltelim := by
  intro w
  by_cases hw : 0 < w ∧ c.winStart + w ≤ clk
  · have hroll : c.rollWindow clk = c.newWindow (c.winStart + (clk - c.winStart) / w * w) := if_pos hw
    rw [hroll, if_pos hw]
    exact ⟨bits_setField _ _ (by decide) (by decide), bits_setField_above _ _ (by decide) (by decide) (by decide), rfl, rfl, rfl⟩
  · have hroll : c.rollWindow clk = c := if_neg hw
    rw [hroll, if_neg hw]
    exact ⟨rfl, rfl, rfl, rfl, rfl⟩

/-- A core with one more late transition counted (R374). -/
def CoreState.counted (c : CoreState) (clk : Nat) : CoreState :=
  let r := c.rollWindow clk
  { r with ltecnt := setField r.ltecnt 15 0 (min (bits r.ltecnt 15 0 + 1) 65535) }

theorem CoreState.counted_count (c : CoreState) (clk : Nat) :
    let w := bits c.ltewin 19 0 * 1900
    let before := if 0 < w ∧ c.winStart + w ≤ clk then 0 else bits c.ltecnt 15 0
    bits (c.counted clk).ltecnt 15 0 = min (before + 1) 65535 ∧ bits (c.counted clk).ltecnt 31 16 = bits c.ltecnt 31 16
      ∧ (c.counted clk).margin = c.margin ∧ (c.counted clk).quar = c.quar ∧ (c.counted clk).ltelim = c.ltelim := by
  intro w before
  obtain ⟨hcount, hupper, hmargin, hquar, hlim⟩ := c.rollWindow_count clk
  refine ⟨?_, ?_, hmargin, hquar, hlim⟩
  · refine (bits_setField _ _ (by decide) (by decide)).trans ?_
    rw [hcount]
    exact Nat.mod_eq_of_lt (Nat.lt_of_le_of_lt (Nat.min_le_right _ _) (by decide))
  · exact (bits_setField_above _ _ (by decide) (by decide) (by decide)).trans hupper

theorem updCore_updCore (s : State) (k : Nat) (f g : CoreState → CoreState) : ((s.updCore k f).updCore k g).core k = g (f (s.core k)) := by
  rw [State.core_updCore, State.core_updCore]

/-- A late transition that keeps the count within LIMIT is counted and no more. -/
theorem State.countLte_within {s : State} {core : Nat}
    (h : bits ((s.core core).counted s.clk).ltecnt 15 0 ≤ bits (s.core core).ltelim 15 0) :
    (s.countLte core).core core = (s.core core).counted s.clk ∧ (s.countLte core).mem = s.mem ∧ (s.countLte core).groups = s.groups
      ∧ (s.countLte core).out = s.out := by
  have hcore := updCore_updCore s core (fun c => c.rollWindow s.clk)
    fun c => { c with ltecnt := setField c.ltecnt 15 0 (min (bits c.ltecnt 15 0 + 1) 65535) }
  have hlim := ((s.core core).counted_count s.clk).2.2.2.2
  simp only [State.countLte]
  rw [hcore]
  rw [if_pos (by rw [← hlim] at h; exact h)]
  exact ⟨hcore, rfl, rfl, rfl⟩

/-- One past LIMIT, with STEP above 0, takes STEP down by one and begins a window. -/
def CoreState.stepped (c : CoreState) (clk : Nat) : CoreState :=
  { (c.newWindow clk) with
    margin := setField c.margin 7 0 (bits c.margin 7 0 - 1)
    ltecnt := setField (setField c.ltecnt 15 0 0) 31 16 (min (bits c.ltecnt 31 16 + 1) 65535) }

theorem State.countLte_steps {s : State} {core : Nat}
    (h : bits (s.core core).ltelim 15 0 < bits ((s.core core).counted s.clk).ltecnt 15 0) (hstep : 0 < bits (s.core core).margin 7 0) :
    ∃ e : BitVec 64,
      (s.countLte core).core core = ((s.core core).counted s.clk).stepped s.clk ∧ (s.countLte core).mem = s.mem
      ∧ (s.countLte core).die (dieOfCore core) =
        { s.die (dieOfCore core) with log := tset (s.die (dieOfCore core)).log ((s.die (dieOfCore core)).logCount.toNat % 64) e,
                                      logCount := (s.die (dieOfCore core)).logCount + 1#32 } := by
  have hcore := updCore_updCore s core (fun c => c.rollWindow s.clk)
    fun c => { c with ltecnt := setField c.ltecnt 15 0 (min (bits c.ltecnt 15 0 + 1) 65535) }
  obtain ⟨-, -, hmargin, -, hlim⟩ := (s.core core).counted_count s.clk
  simp only [State.countLte]
  rw [hcore]
  rw [if_neg (by rw [← hlim] at h; exact Nat.not_le.2 h), if_pos (by rw [← hmargin] at hstep; exact hstep)]
  refine ⟨_, ?_, rfl, State.die_updDie ..⟩
  rw [State.logMargin, State.updDie_core, State.core_updCore, hcore]
  rfl

/-! Dies that fail (R366, R379, R393). -/

/-- A neighbour of a lost die notes DIELOST, unless it is lost itself. -/
def State.noteLost (s : State) (n : Nat) : State := if (s.die n).failed then s else s.healthEvent n fun h => setBit h 26 true

theorem State.noteLost_onlyDies (s : State) (n : Nat) : s.noteLost n = { s with dies := (s.noteLost n).dies } := by
  simp only [State.noteLost]
  split <;> rfl

theorem State.failed_noteLost (s : State) (n d : Nat) : ((s.noteLost n).die d).failed = (s.die d).failed := by
  simp only [State.noteLost]
  split
  · rfl
  · by_cases hd : d = n
    · rw [hd, State.die_healthEvent]
    · rw [State.die_healthEvent_other _ _ hd]

theorem State.lostBit_noteLost (s : State) (n : Nat) (h : (s.die n).failed = false) : bitOf ((s.noteLost n).die n).health 26 = true := by
  rw [State.noteLost, if_neg (by simp [h]), State.bit_healthEvent _ _ _ (by decide)]
  exact getLsbD_setBit_same _ _ (by decide)

theorem State.lostBit_noteLost_keeps (s : State) (n d : Nat) (h : bitOf (s.die d).health 26 = true) :
    bitOf ((s.noteLost n).die d).health 26 = true := by
  by_cases hd : d = n
  · rw [hd]
    by_cases hf : (s.die n).failed = true
    · rw [State.noteLost, if_pos hf, ← hd]
      exact h
    · exact State.lostBit_noteLost s n (by simpa using hf)
  · simp only [State.noteLost]
    split
    · exact h
    · rw [State.die_healthEvent_other _ _ hd]
      exact h

/-- The die marked as failed, before its neighbours note it. -/
def State.markFailed (s : State) (d : Nat) : State :=
  { s.updDie d fun x => { x with failed := true } with copies := s.copies.filter fun c => homeDie (256 * c.line) != d }

theorem State.markLost_eq (s : State) (d : Nat) : s.markLost d = ((s.markFailed d).noteLost (d ^^^ 1)).noteLost (d ^^^ 2) := rfl

theorem State.failed_markFailed (s : State) (d n : Nat) : ((s.markFailed d).die n).failed = ((s.die n).failed || n == d) := by
  show ((s.updDie d fun x => { x with failed := true }).die n).failed = _
  by_cases hn : n = d
  · rw [hn, State.die_updDie]
    simp
  · rw [State.die_updDie_other _ _ _ _ hn]
    simp [hn]

theorem State.failed_markLost (s : State) (d n : Nat) : ((s.markLost d).die n).failed = ((s.die n).failed || n == d) := by
  rw [State.markLost_eq, State.failed_noteLost, State.failed_noteLost, State.failed_markFailed]

theorem State.markLost_keeps (s : State) (d : Nat) :
    (s.markLost d).copies = (s.copies.filter fun c => homeDie (256 * c.line) != d) ∧ (s.markLost d).groups = s.groups
      ∧ (s.markLost d).gangs = s.gangs ∧ (s.markLost d).waves = s.waves := by
  rw [State.markLost_eq, State.noteLost_onlyDies, State.noteLost_onlyDies]
  exact ⟨rfl, rfl, rfl, rfl⟩

/-- The neighbours that work have DIELOST (R379). -/
theorem State.near_markLost (s : State) {d n : Nat} (hn : n ∈ [d ^^^ 1, d ^^^ 2]) (hne : n ≠ d) (hf : (s.die n).failed = false) :
    bitOf ((s.markLost d).die n).health 26 = true := by
  have hfailed : ((s.markFailed d).die n).failed = false := by rw [State.failed_markFailed]; simp [hf, hne]
  rw [State.markLost_eq]
  rcases List.mem_cons.1 hn with rfl | hn
  · exact State.lostBit_noteLost_keeps _ _ _ (State.lostBit_noteLost _ _ hfailed)
  · obtain rfl : n = d ^^^ 2 := by simpa using hn
    refine State.lostBit_noteLost _ _ ?_
    rw [State.failed_noteLost]
    exact hfailed

/-- With no fragment that waits nothing is woken (R30). -/
theorem State.wakeWaits_idle {s : State} (h : ∀ g ∈ s.groups, g.slot0.st ≠ .waiting ∧ g.slot1.st ≠ .waiting) : s.wakeWaits = s := by
  have hslot (u : Nat) (slot : Bool) : s.wakeSlot u slot = s := by
    simp only [State.wakeSlot]
    split
    · rfl
    next g hg =>
      obtain ⟨h0, h1⟩ := h g (List.mem_of_find?_eq_some hg)
      exact if_pos (by cases slot <;> simpa [Grp.slot])
  simp only [State.wakeWaits]
  induction s.groups.map (·.uid) with
  | nil => rfl
  | cons u r ih => rw [List.foldl_cons, hslot u false, hslot u true, ih]

/-- The loss of a die on which nothing is at work (R366). -/
theorem State.afterLoss_idle {s : State} {d : Nat} (hw : ∀ w ∈ s.waves, w.ctrl / 8 ≠ d) (hk : ∀ k ∈ s.gangs, k.place = .ended)
    (hg : ∀ g ∈ s.groups, g.slot0.st ≠ .waiting ∧ g.slot1.st ≠ .waiting) : s.afterLoss d = s := by
  have hwaves (f : Wave → Bool) : s.waves.filter (fun w => w.ctrl / 8 == d && f w) = [] :=
    List.filter_eq_nil_iff.2 fun w hmem => by simp [hw w hmem]
  have hgangs (f : Gang → Bool) : (s.gangs.filter fun g => !g.under && g.place != .ended && f g) = [] :=
    List.filter_eq_nil_iff.2 fun k hmem => by simp [hk k hmem]
  simp only [State.afterLoss, Bool.and_assoc]
  rw [hwaves, List.foldl_nil, State.wakeWaits_idle hg]
  simp only [← Bool.and_assoc]
  rw [hgangs]
  rfl

/-- A die that fails bare is lost and takes no other with it (R366, R393). -/
theorem State.loseDie_bare {s : State} {die : Nat} (h : Bare s die) : s.loseDie die = (s.markLost die).alarm s none := by
  obtain ⟨-, hgroups, hgangs, hwaves⟩ := s.markLost_keeps die
  have hnew : [die].filter (fun d => !(s.die d).failed) = [die] := by simp [h.works]
  rw [State.loseDie, h.joined, State.loseDiesSince, hnew]
  refine State.afterLoss_idle ?_ ?_ ?_
  · rw [State.waves_alarm]
    exact hwaves ▸ h.waves
  · rw [State.gangs_alarm]
    exact hgangs ▸ h.gangs
  · rw [State.groups_alarm]
    exact hgroups ▸ h.slots

theorem xor_ne {d n : Nat} (hd : d < 4) (hn : n ∈ [d ^^^ 1, d ^^^ 2]) : n ≠ d := by
  have hor : n = d ^^^ 1 ∨ n = d ^^^ 2 := by simpa using hn
  rcases hor with rfl | rfl <;> interval_cases d <;> decide

theorem State.loseDie_lost {s : State} {die : Nat} (hlt : die < 4) (h : Bare s die) : Lost s (s.loseDie die) die := by
  obtain ⟨hcopies, hgroups, hgangs, -⟩ := s.markLost_keeps die
  rw [State.loseDie_bare h]
  refine ⟨?_, ?_, fun n hn hf => ?_, ?_, ?_, ?_⟩
  · rw [State.die_alarm, State.failed_markLost]
    simp
  · rw [State.copies_alarm, hcopies]
  · rw [State.die_alarm]
    exact State.near_markLost s hn (xor_ne hlt hn) hf
  · rw [State.alarm_mem, State.markLost_mem]
  · rw [State.groups_alarm, hgroups]
  · rw [State.gangs_alarm, hgangs]

/-- Two dies that are left, each between two that are lost, do not reach each other: the one with the higher number is cut off (R393). -/
theorem State.cutOff_pair {s : State} {die : Nat} (hlt : die < 4) (h : ∀ d < 4, (s.die d).failed = true ↔ d = die ∨ d = die ^^^ 3) :
    s.cutOff = [max (die ^^^ 1) (die ^^^ 2)] := by
  have hval (d : Nat) (hd : d < 4) : (s.die d).failed = decide (d = die ∨ d = die ^^^ 3) := by
    rw [Bool.eq_iff_iff, h d hd, decide_eq_true_iff]
  have h0 := hval 0 (by decide)
  have h1 := hval 1 (by decide)
  have h2 := hval 2 (by decide)
  have h3 := hval 3 (by decide)
  interval_cases die <;>
    simp [State.cutOff, State.reachable, List.range, List.range.loop, h0, h1, h2, h3, List.eraseDups, List.eraseDupsBy, List.eraseDupsBy.loop]

theorem far_die {die : Nat} (h : die < 4) :
    die ≠ die ^^^ 3 ∧ max (die ^^^ 1) (die ^^^ 2) < 4 ∧ max (die ^^^ 1) (die ^^^ 2) ≠ die ^^^ 3 := by
  interval_cases die <;> decide

theorem lost_but_near {die d : Nat} (h : die < 4) (hd : d < 4) :
    (decide (d = die ^^^ 3) || d == die || d == max (die ^^^ 1) (die ^^^ 2)) = true ↔ d ≠ min (die ^^^ 1) (die ^^^ 2) := by
  interval_cases die <;> interval_cases d <;> decide

/-- The loss of a die whose opposite die is lost, with nothing at work on the package: one neighbour is left (R393). -/
theorem State.loseDie_pair {s : State} {die : Nat} (hlt : die < 4) (hgangs : s.gangs = []) (hgroups : s.groups = []) (hwaves : s.waves = [])
    (hopp : ∀ d < 4, (s.die d).failed = true ↔ d = die ^^^ 3) :
    (s.loseDie die).mem = s.mem ∧ ∀ d < 4, ((s.loseDie die).die d).failed = true ↔ d ≠ min (die ^^^ 1) (die ^^^ 2) := by
  have hfailed (d : Nat) (hd : d < 4) : (s.die d).failed = decide (d = die ^^^ 3) := by
    rw [Bool.eq_iff_iff, hopp d hd, decide_eq_true_iff]
  have hcut : (s.markLost die).cutOff = [max (die ^^^ 1) (die ^^^ 2)] := by
    refine State.cutOff_pair hlt fun d hd => ?_
    rw [State.failed_markLost, hfailed d hd]
    simp [or_comm]
  obtain ⟨hdie, hlt', hfar⟩ := far_die hlt
  have hnew : [die, max (die ^^^ 1) (die ^^^ 2)].filter (fun d => !(s.die d).failed) = [die, max (die ^^^ 1) (die ^^^ 2)] := by
    simp [hfailed _ hlt, hfailed _ hlt', hdie, hfar]
  obtain ⟨-, hgroups1, hgangs1, hwaves1⟩ := (s.markLost die).markLost_keeps (max (die ^^^ 1) (die ^^^ 2))
  obtain ⟨-, hgroups0, hgangs0, hwaves0⟩ := s.markLost_keeps die
  have hidle {v : State} (d : Nat) (hg : v.groups = []) (hk : v.gangs = []) (hw : v.waves = []) : v.afterLoss d = v :=
    State.afterLoss_idle (by simp [hw]) (by simp [hk]) (by simp [hg])
  have hlose : s.loseDie die = ((s.markLost die).markLost (max (die ^^^ 1) (die ^^^ 2))).alarm s none := by
    have hg := (State.groups_alarm _ s none).trans (hgroups1.trans (hgroups0.trans hgroups))
    have hk := (State.gangs_alarm _ s none).trans (hgangs1.trans (hgangs0.trans hgangs))
    have hw := (State.waves_alarm _ s none).trans (hwaves1.trans (hwaves0.trans hwaves))
    rw [State.loseDie, hcut, State.loseDiesSince]
    simp only [hnew, List.foldl_cons, List.foldl_nil]
    rw [hidle die hg hk hw, hidle _ hg hk hw]
  rw [hlose]
  refine ⟨by rw [State.alarm_mem, State.markLost_mem, State.markLost_mem], fun d hd => ?_⟩
  rw [State.die_alarm, State.failed_markLost, State.failed_markLost, hfailed d hd]
  exact lost_but_near hlt hd

/-! Imprecise errors and their records (R350 to R352). -/

theorem State.errorRecord_dropped {s : State} {part : Nat} (launchId kind group block pc pa : Nat)
    (h : bits (s.part part).errctl 4 0 = 0
      ∨ 2 ^ bits (s.part part).errctl 4 0 ≤ (BitVec.ofNat 32 (s.part part).errcount - (s.part part).errhead).toNat) :
    s.errorRecord part launchId kind group block pc pa =
      s.updPart part fun p => { p with errdrop := if p.errdrop = BitVec.allOnes 32 then p.errdrop else p.errdrop + 1#32 } := if_pos h

/-- Where a partition's next error record goes (R351). -/
def State.errorRing (s : State) (part : Nat) : Nat :=
  let p := s.part part
  p.errlo.toNat + bits p.errhi 15 0 * 2 ^ 32 + 32 * (p.errcount % 2 ^ bits p.errctl 4 0)

theorem State.homeStore_mem {s : State} {pa : Nat} (part pts : Nat) (bs : List Byte) (bank : Bool) (hz : zeroRow pa = false)
    (hd : (s.die (homeDie pa)).failed = false) : (s.homeStore part pts pa bs bank).2.mem = writeRun s.mem pa bs := by
  simp only [State.homeStore]
  split <;> simp [State.writePa_mem hz hd]

theorem State.agentStore_acts {s : State} {part pts pa : Nat} {bs : List Byte} {bank : Bool} (hfree : s.lineFree (lineOf pa) = true)
    (hbank : s.bankHolds pa true = false) (hstalls : ∀ x ∈ s.stalls, x.part ≠ part) :
    s.agentStore part pts pa bs bank = s.homeStore part pts pa bs bank := by
  have hany : (s.stalls.any fun x => x.part == part) = false := List.any_eq_false.2 fun x hx => by simpa using hstalls x hx
  rw [State.agentStore, if_neg (by simp [hfree, hbank, hany])]

theorem State.noteTime_onlyParts (s : State) (part t : Nat) : s.noteTime part t = { s with parts := (s.noteTime part t).parts } := by
  simp only [State.noteTime]
  split <;> rfl

@[simp] theorem State.noteTime_out (s : State) (part t : Nat) : (s.noteTime part t).out = s.out := by rw [State.noteTime_onlyParts]
@[simp] theorem State.noteTime_launches (s : State) (part t : Nat) : (s.noteTime part t).launches = s.launches := by
  rw [State.noteTime_onlyParts]

@[simp] theorem State.writePa_out (s : State) (pa : Nat) (bs : List Byte) : (s.writePa pa bs).out = s.out := (State.writePa_onlyMem ..).out

@[simp] theorem State.writePa_launches (s : State) (pa : Nat) (bs : List Byte) : (s.writePa pa bs).launches = s.launches := by
  rw [State.writePa_onlyMem s pa bs]

theorem State.homeStore_out (s : State) (part pts pa : Nat) (bs : List Byte) (bank : Bool) :
    (s.homeStore part pts pa bs bank).2.out = s.out := by
  simp only [State.homeStore]
  split <;> simp [State.stampLine]

theorem State.homeStore_launches (s : State) (part pts pa : Nat) (bs : List Byte) (bank : Bool) :
    (s.homeStore part pts pa bs bank).2.launches = s.launches := by
  simp only [State.homeStore]
  split <;> simp [State.stampLine]

/-- A record stored in a partition's ring (R351). -/
theorem State.errorRecord_stored {s : State} {part : Nat} (launchId kind group block pc pa : Nat)
    (hring : bits (s.part part).errctl 4 0 ≠ 0)
    (hused : (BitVec.ofNat 32 (s.part part).errcount - (s.part part).errhead).toNat < 2 ^ bits (s.part part).errctl 4 0)
    (hfree : s.lineFree (lineOf (s.errorRing part)) = true) (hbank : s.bankHolds (s.errorRing part) true = false)
    (hstalls : ∀ x ∈ s.stalls, x.part ≠ part) (hd : (s.die (homeDie (s.errorRing part))).failed = false)
    (hz : zeroRow (s.errorRing part) = false) :
    let t := s.errorRecord part launchId kind group block pc pa
    (t.part part).errcount = (s.part part).errcount + 1
      ∧ t.mem = writeRun s.mem (s.errorRing part)
          (errorBytes launchId kind group block pc pa (((s.part part).errcount / 2 ^ bits (s.part part).errctl 4 0 + 1) % 2))
      ∧ t.out = .interrupt (bits (s.part part).errctl 11 8) (bits (s.part part).errctl 22 12) :: s.out
      ∧ t.launches = s.launches := by
  simp only [State.errorRecord]
  rw [if_neg (by omega)]
  rw [← State.errorRing.eq_1 s part, State.agentStore_acts hfree hbank hstalls]
  refine ⟨?_, ?_, ?_, ?_⟩
  · rw [State.send_part, State.part_updPart]
  · rw [State.send_mem, State.updPart_mem, State.homeStore_mem _ _ _ _ hz hd]
  · rw [State.send_out, State.updPart_out, State.homeStore_out]
  · rw [State.send_launches, State.updPart_launches, State.homeStore_launches]

/-! Imprecise errors of a named agent (R350, R352). -/

theorem execImpreciseError_named {s : State} {kind : ErrKind} {part k : Nat} {ord : BitVec 8} {pa : Nat} {b : Tombstone}
    (hkind : kind ≠ .writeback) (hpart : part < 8) (hb : s.tomb part k = some b) :
    execImpreciseError kind (8 * k + part) ord pa s = .next (s.imprecise kind part k ord pa) := by
  have hslot : (8 * k + part) % 8 = part ∧ (8 * k + part) / 8 = k := by omega
  simp only [execImpreciseError, hslot.1, hslot.2, hb]
  exact if_neg hkind

/-- The sector of an imprecise error is poisoned, but for HOMELOST (R350). -/
def State.poisonedBy (s : State) (kind : ErrKind) (pa : Nat) : State :=
  if kind = .homelost then s else { s with pois := markPois s.pois (sectorOf pa) }

theorem State.poisonedBy_onlyPois (s : State) (kind : ErrKind) (pa : Nat) :
    s.poisonedBy kind pa = { s with pois := (s.poisonedBy kind pa).pois } := by
  simp only [State.poisonedBy]
  split <;> rfl

/-- The state in which an imprecise error's record is made: FCOUNT of the launch has risen (R350, R352). -/
def State.faulted (s : State) (kind : ErrKind) (pa : Nat) (b : Tombstone) : State :=
  (s.poisonedBy kind pa).updLaunch b.launch fun l => { l with fcount := satAdd l.fcount 1 65535 }

theorem State.imprecise_named {s : State} {kind : ErrKind} {part k : Nat} {ord : BitVec 8} {pa : Nat} {b : Tombstone}
    (hb : s.tomb part k = some b) :
    s.imprecise kind part k ord pa = (s.faulted kind pa b).errorRecord part b.launchId.toNat (errKindCode kind) b.groupNo b.block
      (tget b.scenes ord.toNat 0#32).toNat (pa / 32 * 32) := by
  have htomb : (s.poisonedBy kind pa).tomb part k = some b := by
    rw [State.poisonedBy_onlyPois]
    exact hb
  rw [State.imprecise]
  simp only [← State.poisonedBy.eq_1 s kind pa, htomb]
  rfl

theorem State.faulted_keeps (s : State) (kind : ErrKind) (pa : Nat) (b : Tombstone) :
    (s.faulted kind pa b).mem = s.mem ∧ (s.faulted kind pa b).parts = s.parts ∧ (s.faulted kind pa b).stalls = s.stalls
      ∧ (s.faulted kind pa b).dies = s.dies ∧ (s.faulted kind pa b).out = s.out
      ∧ (∀ line, (s.faulted kind pa b).lineFree line = s.lineFree line)
      ∧ (∀ a w, (s.faulted kind pa b).bankHolds a w = s.bankHolds a w)
      ∧ (s.faulted kind pa b).pois = (s.poisonedBy kind pa).pois := by
  rw [State.faulted, State.poisonedBy_onlyPois]
  exact ⟨rfl, rfl, rfl, rfl, rfl, fun _ => rfl, fun _ _ => rfl, rfl⟩

theorem State.faulted_launch {s : State} {l : Launch} (kind : ErrKind) (pa : Nat) {b : Tombstone} (h : s.launch b.launch = some l) :
    (s.faulted kind pa b).launch b.launch = some { l with fcount := satAdd l.fcount 1 65535 } := by
  have hid : l.id = b.launch := by simpa using List.find?_some h
  have hl : (s.poisonedBy kind pa).launch b.launch = some l := by
    rw [State.poisonedBy_onlyPois]
    exact h
  exact State.launch_updLaunch hl hid

theorem State.poisonedBy_pois {s : State} {kind : ErrKind} {pa : Nat} (hk : kind ≠ .homelost) :
    rangePois (s.poisonedBy kind pa).pois pa 1 = true := by
  have hmem : sectorOf pa ∈ markPois s.pois (sectorOf pa) := by
    simp only [markPois]
    split
    · simpa using ‹s.pois.contains (sectorOf pa) = true›
    · exact List.mem_cons_self
  rw [State.poisonedBy, if_neg hk, rangePois, List.any_eq_true]
  exact ⟨_, hmem, by simp [sectorOf]⟩

/-- An error with no room for its record poisons its sector and is counted in ERRDROP (R351). -/
theorem State.imprecise_dropped {s : State} {kind : ErrKind} {part k : Nat} {ord : BitVec 8} {pa : Nat} {b : Tombstone}
    (hb : s.tomb part k = some b)
    (h : bits (s.part part).errctl 4 0 = 0
      ∨ 2 ^ bits (s.part part).errctl 4 0 ≤ (BitVec.ofNat 32 (s.part part).errcount - (s.part part).errhead).toNat) :
    let t := s.imprecise kind part k ord pa
    t.mem = s.mem
      ∧ (t.part part).errdrop =
          (if (s.part part).errdrop = BitVec.allOnes 32 then (s.part part).errdrop else (s.part part).errdrop + 1#32)
      ∧ (t.part part).errcount = (s.part part).errcount ∧ (kind ≠ .homelost → zeroRow pa = false → t.paPois pa 1 = true) := by
  obtain ⟨hmem, hparts, -, -, -, -, -, hpois⟩ := s.faulted_keeps kind pa b
  have hpart : (s.faulted kind pa b).part part = s.part part := by simp only [State.part, hparts]
  rw [State.imprecise_named hb, State.errorRecord_dropped]
  · refine ⟨?_, ?_, ?_, fun hk hz => ?_⟩
    · rw [State.updPart_mem, hmem]
    · rw [State.part_updPart, hpart]
    · rw [State.part_updPart, hpart]
    · rw [State.paPois, State.updPart_pois, hpois, State.poisonedBy_pois hk, hz]
      rfl
  · rw [hpart]
    exact h

/-- An error with room in its partition's ring has its record stored there (R350, R351). -/
theorem State.imprecise_stored {s : State} {kind : ErrKind} {part k : Nat} {ord : BitVec 8} {pa : Nat} {b : Tombstone}
    (hb : s.tomb part k = some b) (hring : bits (s.part part).errctl 4 0 ≠ 0)
    (hused : (BitVec.ofNat 32 (s.part part).errcount - (s.part part).errhead).toNat < 2 ^ bits (s.part part).errctl 4 0)
    (hfree : s.lineFree (lineOf (s.errorRing part)) = true) (hbank : s.bankHolds (s.errorRing part) true = false)
    (hstalls : ∀ x ∈ s.stalls, x.part ≠ part) (hd : (s.die (homeDie (s.errorRing part))).failed = false)
    (hz : zeroRow (s.errorRing part) = false) :
    let t := s.imprecise kind part k ord pa
    (t.part part).errcount = (s.part part).errcount + 1
      ∧ t.mem = writeRun s.mem (s.errorRing part)
          (errorBytes b.launchId.toNat (errKindCode kind) b.groupNo b.block (tget b.scenes ord.toNat 0#32).toNat (pa / 32 * 32)
            (((s.part part).errcount / 2 ^ bits (s.part part).errctl 4 0 + 1) % 2))
      ∧ t.out = .interrupt (bits (s.part part).errctl 11 8) (bits (s.part part).errctl 22 12) :: s.out
      ∧ ∀ l, s.launch b.launch = some l → ∃ m, t.launch b.launch = some m ∧ m.fcount = min (l.fcount + 1) 65535 := by
  obtain ⟨hmem, hparts, hst, hdies, hout, hlf, hbh, -⟩ := s.faulted_keeps kind pa b
  have hpart : (s.faulted kind pa b).part part = s.part part := by simp only [State.part, hparts]
  have hdie (d : Nat) : (s.faulted kind pa b).die d = s.die d := by simp only [State.die, hdies]
  have hplace : (s.faulted kind pa b).errorRing part = s.errorRing part := by simp only [State.errorRing, hpart]
  have hrec := State.errorRecord_stored (s := s.faulted kind pa b) (part := part) b.launchId.toNat (errKindCode kind) b.groupNo b.block
    (tget b.scenes ord.toNat 0#32).toNat (pa / 32 * 32) (by rw [hpart]; exact hring) (by rw [hpart]; exact hused)
    (by rw [hplace, hlf]; exact hfree) (by rw [hplace, hbh]; exact hbank) (by rw [hst]; exact hstalls)
    (by rw [hplace, hdie]; exact hd) (by rw [hplace]; exact hz)
  rw [hpart, hplace, hmem, hout] at hrec
  obtain ⟨hcount, hbytes, hsent, hlaunches⟩ := hrec
  rw [State.imprecise_named hb]
  refine ⟨hcount, hbytes, hsent, fun l hl => ⟨{ l with fcount := satAdd l.fcount 1 65535 }, ?_, rfl⟩⟩
  rw [State.launch, hlaunches]
  exact State.faulted_launch kind pa hl

/-! Windows of late transitions, slice errors and link failures (R374, R379, R393). -/

theorem execLteWindowExpiry_ends {s : State} {core : Nat}
    (h : (s.core core).winStart + bits (s.core core).ltewin 19 0 * 1900 ≤ s.clk) :
    ∃ t, exec (.lteWindowExpiry core) s = .next t ∧ bits (t.core core).ltecnt 15 0 = 0
      ∧ (t.core core).winStart = (s.core core).winStart + bits (s.core core).ltewin 19 0 * 1900 ∧ t.mem = s.mem := by
  refine ⟨_, if_pos h, ?_, ?_, rfl⟩
  · rw [State.core_updCore]
    exact bits_setField _ _ (by decide) (by decide)
  · rw [State.core_updCore]
    rfl

/-- The state in which a slice's error is counted (R379). -/
def State.sliceCounted (s : State) (die slice : Nat) (errs : List Nat) : State :=
  s.updDie die fun x => { x with sliceErrs := tset x.sliceErrs slice errs }

/-- A slice to be retired is listed in the flash's record (R379). -/
def State.sliceListed (s : State) (die slice : Nat) : State :=
  let s := s.updDie die fun x => { x with retiring := slice :: x.retiring }
  { s with flash := { s.flash with
      record := { s.flash.record with retired := (s.flash.record.retired ++ [(die, slice)]).eraseDups } } }

/-- RSLICES of a HEALTH word rises by one, to at most 31. -/
def rslicesUp (h : Word) : Word := setField h 12 8 (min (bits h 12 8 + 1) 31)

theorem bits_rslicesUp (h : Word) : bits (rslicesUp h) 12 8 = min (bits h 12 8 + 1) 31 :=
  (bits_setField _ _ (by decide) (by decide)).trans (Nat.mod_eq_of_lt (Nat.lt_of_le_of_lt (Nat.min_le_right _ _) (by decide)))

theorem execSliceErrorThreshold_eq (s : State) (die slice : Nat) :
    let errs := s.clk :: (tget (s.die die).sliceErrs slice []).filter fun t => decide (s.clk < t + 6840000000000)
    execSliceErrorThreshold die slice s =
      .next (if 16 < errs.length ∧ (s.die die).retiring.contains slice = false then
        (((s.sliceCounted die slice errs).sliceListed die slice).healthEvent die rslicesUp).alarm
          ((s.sliceCounted die slice errs).sliceListed die slice) none
        else s.sliceCounted die slice errs) := by
  intro errs
  by_cases h : 16 < errs.length ∧ (s.die die).retiring.contains slice = false
  · rw [if_pos h]
    exact if_pos h
  · rw [if_neg h]
    exact if_neg h

theorem execSliceErrorThreshold_counts (s : State) (die slice : Nat) :
    let errs := s.clk :: (tget (s.die die).sliceErrs slice []).filter fun t => decide (s.clk < t + 6840000000000)
    ∃ t, exec (.sliceErrorThreshold die slice) s = .next t ∧ t.mem = s.mem ∧ t.groups = s.groups
      ∧ tget (t.die die).sliceErrs slice [] = errs
      ∧ (errs.length ≤ 16 → (t.die die).health = (s.die die).health ∧ (t.die die).retiring = (s.die die).retiring)
      ∧ (16 < errs.length → slice ∈ (t.die die).retiring)
      ∧ (16 < errs.length → slice ∉ (s.die die).retiring →
          bits (t.die die).health 12 8 = min (bits (s.die die).health 12 8 + 1) 31 ∧ (die, slice) ∈ t.flash.record.retired) := by
  intro errs
  refine ⟨_, execSliceErrorThreshold_eq s die slice, ?_⟩
  have hcounted : (s.sliceCounted die slice errs).die die = { s.die die with sliceErrs := tset (s.die die).sliceErrs slice errs } :=
    State.die_updDie ..
  by_cases hdue : 16 < errs.length ∧ (s.die die).retiring.contains slice = false
  · have hlisted : ((s.sliceCounted die slice errs).sliceListed die slice).die die =
        { s.die die with sliceErrs := tset (s.die die).sliceErrs slice errs, retiring := slice :: (s.die die).retiring } :=
      (State.die_updDie (s.sliceCounted die slice errs) die fun x => { x with retiring := slice :: x.retiring }).trans (by rw [hcounted])
    rw [if_pos hdue]
    refine ⟨State.alarm_mem _ _ _, State.groups_alarm _ _ _, ?_,
      fun hle => absurd hdue.1 (Nat.not_lt.2 hle), fun _ => ?_, fun _ _ => ⟨?_, ?_⟩⟩
    · rw [State.die_alarm, State.die_healthEvent, hlisted]
      exact tget_tset_same ..
    · rw [State.die_alarm, State.die_healthEvent, hlisted]
      exact List.mem_cons_self
    · rw [State.die_alarm, State.bits_healthEvent _ _ _ _ (by decide), hlisted]
      exact bits_rslicesUp _
    · rw [State.flash_alarm]
      exact List.mem_eraseDups.2 (List.mem_append_right _ List.mem_cons_self)
  · rw [if_neg hdue]
    have hthere (h : 16 < errs.length) : slice ∈ (s.die die).retiring := by simpa [h] using hdue
    refine ⟨rfl, rfl, ?_, fun _ => ?_, fun h => ?_, fun h hnot => absurd (hthere h) hnot⟩
    · rw [hcounted]
      exact tget_tset_same ..
    · rw [hcounted]
      exact ⟨rfl, rfl⟩
    · rw [hcounted]
      exact hthere h

/-- LINKDEG of a HEALTH word rises by one, to at most 8. -/
def linkdegUp (h : Word) : Word := setField h 24 21 (min (bits h 24 21 + 1) 8)

theorem execDieLinkFailure_half {s : State} {die port : Nat} (hhalf : port ∉ (s.die die).linksHalf)
    (hfailed : port ∉ (s.die die).linksFailed) :
    ∃ t, exec (.dieLinkFailure die port false) s = .next t ∧ port ∈ (t.die die).linksHalf ∧ t.mem = s.mem
      ∧ bits (t.die die).health 24 21 = min (bits (s.die die).health 24 21 + 1) 8 := by
  have hnone : ¬((s.die die).linksHalf.contains port = true ∨ (s.die die).linksFailed.contains port = true) := by
    simp [hhalf, hfailed]
  have hexec : exec (.dieLinkFailure die port false) s =
      .next (((s.updDie die fun x => { x with linksHalf := port :: x.linksHalf }).healthEvent die linkdegUp).alarm s none) := if_neg hnone
  refine ⟨_, hexec, ?_, State.alarm_mem _ _ _, ?_⟩
  · rw [State.die_alarm, State.die_healthEvent, State.die_updDie]
    exact List.mem_cons_self
  · rw [State.die_alarm, State.bits_healthEvent _ _ _ _ (by decide), State.die_updDie]
    exact (bits_setField _ _ (by decide) (by decide)).trans
      (Nat.mod_eq_of_lt (Nat.lt_of_le_of_lt (Nat.min_le_right _ _) (by decide)))

theorem Lost.send {s t : State} {die : Nat} (h : Lost s t die) (r : Output) : Lost s (t.send r) die :=
  ⟨h.failed, h.copies, h.near, h.mem, h.groups, h.gangs⟩

/-- A late transition in a core's window, within LIMIT and past it (R374). -/
theorem execLateTransition_counts (s : State) (core : Nat) :
    let c := s.core core
    let w := bits c.ltewin 19 0 * 1900
    let before := if 0 < w ∧ c.winStart + w ≤ s.clk then 0 else bits c.ltecnt 15 0
    let n := min (before + 1) 65535
    (n ≤ bits c.ltelim 15 0 →
      ∃ t, exec (.lateTransitionEvent core) s = .next t ∧ bits (t.core core).ltecnt 15 0 = n
        ∧ bits (t.core core).ltecnt 31 16 = bits c.ltecnt 31 16 ∧ (t.core core).margin = c.margin
        ∧ (t.core core).quar = c.quar ∧ t.mem = s.mem ∧ t.groups = s.groups ∧ t.out = s.out)
      ∧ (bits c.ltelim 15 0 < n → 0 < bits c.margin 7 0 →
        ∃ t, exec (.lateTransitionEvent core) s = .next t ∧ bits (t.core core).ltecnt 15 0 = 0 ∧ (t.core core).winStart = s.clk
          ∧ bits (t.core core).ltecnt 31 16 = min (bits c.ltecnt 31 16 + 1) 65535
          ∧ bits (t.core core).margin 7 0 = bits c.margin 7 0 - 1 ∧ (t.core core).quar = c.quar ∧ t.mem = s.mem
          ∧ (t.die (core / 192)).logCount = (s.die (core / 192)).logCount + 1#32) := by
  intro c w before n
  obtain ⟨hcount, hupper, hmargin, hquar, -⟩ := c.counted_count s.clk
  have hn : bits (c.counted s.clk).ltecnt 15 0 = n := hcount
  refine ⟨fun hle => ?_, fun hlt hstep => ?_⟩
  · obtain ⟨hcore, hmem, hgroups, hout⟩ := State.countLte_within (s := s) (core := core) (hn.symm ▸ hle)
    exact ⟨_, rfl, by rw [hcore]; exact hn, by rw [hcore]; exact hupper, by rw [hcore]; exact hmargin, by rw [hcore]; exact hquar,
      hmem, hgroups, hout⟩
  · obtain ⟨e, hcore, hmem, hdie⟩ := State.countLte_steps (s := s) (core := core) (hn.symm ▸ hlt) hstep
    refine ⟨_, rfl, ?_, ?_, ?_, ?_, ?_, hmem, ?_⟩
    · rw [hcore]
      refine (bits_setField_below _ _ (by decide) (by decide) (by decide) (by decide)).trans ?_
      exact bits_setField _ _ (by decide) (by decide)
    · rw [hcore]
      rfl
    · rw [hcore]
      refine (bits_setField _ _ (by decide) (by decide)).trans ?_
      rw [hupper]
      exact Nat.mod_eq_of_lt (Nat.lt_of_le_of_lt (Nat.min_le_right _ _) (by decide))
    · rw [hcore]
      refine (bits_setField _ _ (by decide) (by decide)).trans ?_
      rw [hmargin]
      refine Nat.mod_eq_of_lt (Nat.lt_of_le_of_lt (Nat.sub_le _ _) ?_)
      exact BitVec.isLt (BitVec.extractLsb' 0 8 c.margin)
    · rw [hcore]
      exact hquar
    · show (((s.countLte core)).die (dieOfCore core)).logCount = _
      rw [hdie]
      rfl

/-- Settles O48: a clause per event, from the rules of the margin window, of HEALTH, of lost dies and of error records. -/
theorem marginAndFailureEvents : Obligations.MarginAndFailureEvents := by
  unfold Obligations.MarginAndFailureEvents
  refine ⟨fun s core die slice => ⟨rfl, rfl, execLteWindowExpiry_ends, execSliceErrorThreshold_counts s die slice,
    ⟨_, rfl, ?_, rfl, rfl⟩, ⟨_, rfl, ?_, rfl⟩, rfl, rfl, fun hlt hbare => ?_, fun hlt hgangs hgroups hwaves hopp => ?_,
    fun port => execDieLinkFailure_half, fun kind part k ord pa b => execImpreciseError_named,
    fun kind part k ord pa b hkind hpart hb => ⟨fun hfull => ?_, fun hring hused hfree hbank hstalls hd hz => ?_⟩⟩,
    fun s core _ => execLateTransition_counts s core⟩
  · show ((s.updDie die fun x => { x with gated := true }).die die).gated = true
    rw [State.die_updDie]
  · show ((s.updDie die fun x => { x with gated := false }).die die).gated = false
    rw [State.die_updDie]
  · have hlost := State.loseDie_lost hlt hbare
    exact ⟨⟨_, rfl, hlost⟩, _, _, rfl, Lost.send hlost _, rfl⟩
  · exact ⟨_, rfl, State.loseDie_pair hlt hgangs hgroups hwaves hopp⟩
  · exact ⟨_, execImpreciseError_named hkind hpart hb, State.imprecise_dropped hb hfull⟩
  · exact ⟨_, execImpreciseError_named hkind hpart hb,
      State.imprecise_stored hb hring hused hfree hbank hstalls hd (hz 0 (by decide))⟩

end Sys2Proof.Machine
end

section
/-! SUPPORT. Loads and stores where they act (R145 to R150, R182, R183). -/

namespace Sys2Proof.Machine

open Sys2Proof.Claim

/-! Loads and stores where they act (R145 to R150, R182, R183). -/

/-- Two states that differ in lease copies alone. -/
theorem State.fillCopy_onlyCopies (s : State) (c : Copy) : s.fillCopy c = { s with copies := (s.fillCopy c).copies } := by
  simp only [State.fillCopy]
  split <;> rfl

@[simp] theorem State.fillCopy_lines (s : State) (c : Copy) : (s.fillCopy c).lines = s.lines := by rw [State.fillCopy_onlyCopies]
@[simp] theorem State.fillCopy_reqs (s : State) (c : Copy) : (s.fillCopy c).reqs = s.reqs := by rw [State.fillCopy_onlyCopies]
@[simp] theorem State.fillCopy_groups (s : State) (c : Copy) : (s.fillCopy c).groups = s.groups := by rw [State.fillCopy_onlyCopies]

@[simp] theorem State.noteTime_reqs (s : State) (part t : Nat) : (s.noteTime part t).reqs = s.reqs := by rw [State.noteTime_onlyParts]
@[simp] theorem State.noteTime_groups (s : State) (part t : Nat) : (s.noteTime part t).groups = s.groups := by
  rw [State.noteTime_onlyParts]

/-- Held data: a group without an understudy reads back none (R360). -/
theorem State.heldSeen_lone {g : Grp} (s : State) (before : Nat) (h : g.twin = none) : s.heldSeen g before = [] := by
  rw [State.heldSeen, h]
  rfl

theorem State.withHeld_lone {g : Grp} (s : State) (before pa : Nat) (bs : List Byte) (h : g.twin = none) :
    s.withHeld g before pa bs = bs := by
  rw [State.withHeld, State.heldSeen_lone s before h]
  rfl

theorem State.heldClean_lone {g : Grp} (s : State) (before pa : Nat) (h : g.twin = none) : s.heldClean g before pa = false := by
  rw [State.heldClean, State.heldSeen_lone s before h]
  rfl

theorem State.req_updReq {s : State} {r : Nat} {q : Req} {f : Req → Req} (h : s.req r = some q) (hf : (f q).id = q.id) :
    (s.updReq r f).req r = some (f q) := by
  have hid : q.id = r := by simpa using List.find?_some h
  exact find_updFirst (by simp [hf, hid]) h

/-- An access of a request done with a value. -/
def Acc.ends (v : BitVec 128) (pois : Bool) (a : Acc) : Acc := { a with done := true, res := v, rpois := pois }

theorem Req.setAcc_get {q : Req} {i : Nat} {a : Acc} (f : Acc → Acc) (h : q.accs[i]? = some a) : (q.setAcc i f).accs[i]? = some (f a) := by
  simp [Req.setAcc, List.getElem?_map, List.getElem?_zipIdx, h]

/-- A load's access that has its value: the request holds it and the group is the one the load left. -/
theorem State.loadEnds {t : State} {r i : Nat} {q : Req} {a : Acc} (v : BitVec 128) (pois : Bool) (hq : t.req r = some q)
    (ha : q.accs[i]? = some a) :
    let e := ((t.updReq r fun q => q.setAcc i (Acc.ends v pois)).served (r, i)).unawait fun w => w == .load r i
    e.mem = t.mem ∧ e.lines = t.lines ∧ (∀ u, e.grp u = t.grp u)
      ∧ ∃ p, e.req r = some p ∧ p.accs[i]? = some { a with done := true, res := v, rpois := pois } :=
  ⟨rfl, rfl, fun _ => rfl, _, State.req_updReq (f := fun q => q.setAcc i (Acc.ends v pois)) hq rfl, Req.setAcc_get _ ha⟩

/-- What a load that hits a copy leaves (R146, R182). -/
theorem State.loadHit_leaves {s : State} {g : Grp} (c : Copy) (l1 : Bool) (pa n : Nat) (hg : s.grp g.uid = some g) :
    (s.loadHit g c l1 pa n).1 = (c.serve pa n).1 ∧ (s.loadHit g c l1 pa n).2.1 = (c.serve pa n).2
      ∧ (s.loadHit g c l1 pa n).2.2.mem = s.mem ∧ (s.loadHit g c l1 pa n).2.2.lines = s.lines
      ∧ (s.loadHit g c l1 pa n).2.2.reqs = s.reqs
      ∧ ∃ h, (s.loadHit g c l1 pa n).2.2.grp g.uid = some h
        ∧ h.pts = if c.owner.isNone && !c.readShared then max g.pts c.w else g.pts := by
  have hfill {v : State} (hv : v.mem = s.mem ∧ v.lines = s.lines ∧ v.reqs = s.reqs ∧ v.groups = s.groups) :
      let t := if c.owner.isNone && !c.readShared then v.raisePts g.uid c.w else v
      t.mem = s.mem ∧ t.lines = s.lines ∧ t.reqs = s.reqs
        ∧ ∃ h, t.grp g.uid = some h ∧ h.pts = if c.owner.isNone && !c.readShared then max g.pts c.w else g.pts := by
    obtain ⟨hmem, hlines, hreqs, hgroups⟩ := hv
    have hvg : v.grp g.uid = some g := by
      rw [State.grp, hgroups]
      exact hg
    by_cases hc : (c.owner.isNone && !c.readShared) = true
    · simp only [hc, if_true]
      exact ⟨hmem, hlines, hreqs, _, State.grp_updGrp_named hvg rfl, rfl⟩
    · simp only [hc]
      exact ⟨hmem, hlines, hreqs, g, hvg, rfl⟩
  refine ⟨rfl, rfl, hfill ?_⟩
  split
  · exact ⟨rfl, rfl, rfl, rfl⟩
  · exact ⟨State.fillCopy_mem _ _, State.fillCopy_lines _ _, State.fillCopy_reqs _ _, State.fillCopy_groups _ _⟩

/-- A load of a group that hits a copy it may use (R146, R182). -/
theorem execHomeLoad_hit {s : State} {r i : Nat} {q : Req} {a : Acc} {g : Grp} {pa : Nat} {cls : Machine.Class} {c : Copy} {l1 : Bool}
    (hq : s.req r = some q) (ha : q.accs[i]? = some a) (hg : s.grp q.uid = some g) (htgt : a.tgt = .mem pa cls) (hdone : a.done = false)
    (hmay : s.mayAct q i = true) (hkind : q.kind = .load) (hpre : q.pre = none) (hpol : q.policy = .normal) (htwin : g.twin = none)
    (hhit : s.hit g pa a.size cls = some (c, l1)) :
    execHomeLoad r i s = .next ((((s.loadHit g c l1 pa a.size).2.2.updReq r fun q => q.setAcc i
      (Acc.ends (BitVec.ofNat 128 (ofBytesLE (c.serve pa a.size).1)) (c.serve pa a.size).2)).served (r, i)).unawait fun w => w == .load r i) := by
  simp only [execHomeLoad, hq, ha, hg, htgt, hkind, hdone, hmay, hpre, hpol, hhit]
  simp only [State.loadHit, State.withHeld_lone _ _ _ _ htwin, State.heldClean_lone _ _ _ htwin, Bool.not_false, Bool.and_true]
  rfl

/-- A state with the same memory, lines, requests and groups. -/
structure SameAt (s t : State) : Prop where
  mem : t.mem = s.mem
  lines : t.lines = s.lines
  reqs : t.reqs = s.reqs
  groups : t.groups = s.groups

theorem SameAt.refl (s : State) : SameAt s s := ⟨rfl, rfl, rfl, rfl⟩

theorem SameAt.trans {s t u : State} (h : SameAt s t) (k : SameAt t u) : SameAt s u :=
  ⟨k.mem.trans h.mem, k.lines.trans h.lines, k.reqs.trans h.reqs, k.groups.trans h.groups⟩

theorem SameAt.fillCopy (s : State) (c : Copy) : SameAt s (s.fillCopy c) :=
  ⟨State.fillCopy_mem _ _, State.fillCopy_lines _ _, State.fillCopy_reqs _ _, State.fillCopy_groups _ _⟩

theorem SameAt.grp {s t : State} (h : SameAt s t) (u : Nat) : t.grp u = s.grp u := by rw [State.grp, State.grp, h.groups]

theorem SameAt.req {s t : State} (h : SameAt s t) (r : Nat) : t.req r = s.req r := by rw [State.req, State.req, h.reqs]

theorem SameAt.fillIf {s v : State} {b : Bool} {c : Copy} (h : SameAt s v) : SameAt s (if b = true then v.fillCopy c else v) := by
  split
  · exact h.trans (SameAt.fillCopy ..)
  · exact h

theorem State.loadHome_value (s : State) (g : Grp) (pa n m : Nat) (cls : Machine.Class) (policy : Policy) (l1 : Bool) :
    (s.loadHome g pa n m cls policy l1).1 = s.readPa pa n ∧ (s.loadHome g pa n m cls policy l1).2.1 = s.paPois pa n := by
  cases policy <;> cases cls <;> exact ⟨rfl, rfl⟩

/-- A line of one partition's own, or read-shared, takes no time (R147). -/
theorem State.loadHome_untimed {s : State} {g : Grp} {pa n m : Nat} {cls : Machine.Class} {l1 : Bool} (h : cls = .priv ∨ cls = .readShared) :
    SameAt s (s.loadHome g pa n m cls .normal l1).2.2 := by
  rcases h with rfl | rfl
  · exact SameAt.fillIf (SameAt.fillIf (SameAt.refl _))
  · exact SameAt.fillIf (SameAt.fillIf (SameAt.refl _))

/-- A coherent or bank line at its home (R182): its lease grows to the request's time and L, and the group's time passes its wts. -/
theorem State.loadHome_leased {s : State} {g : Grp} {pa n m : Nat} {cls : Machine.Class} {l1 : Bool} (hcls : cls = .coherent ∨ cls = .bank) :
    let w := if g.pts ≤ max (s.lineTimes pa g.part).rts (m + s.leaseLen pa) then m else g.pts
    SameAt ((s.homeLoad pa g.part w).2.sawLine g.uid (lineOf pa) (s.homeLoad pa g.part w).1.wts)
      (s.loadHome g pa n m cls .normal l1).2.2 := by
  rcases hcls with rfl | rfl
  · exact SameAt.fillIf (SameAt.fillIf (SameAt.refl _))
  · exact SameAt.fillIf (SameAt.fillIf (SameAt.refl _))

theorem State.markEarly_keeps (s : State) (core pa part : Nat) :
    (s.markEarly core pa part).mem = s.mem ∧ (s.markEarly core pa part).reqs = s.reqs ∧ (s.markEarly core pa part).groups = s.groups := by
  simp only [State.markEarly]
  split
  · exact ⟨rfl, rfl, rfl⟩
  · exact ⟨State.setLine_mem .., State.setLine_reqs .., State.setLine_groups ..⟩

/-- A line's lease and its reader's time after a load at the home (R182). -/
theorem State.homeLoad_leaves {s : State} {u : Nat} {g : Grp} (hg : s.grp u = some g) (pa part w : Nat) :
    let t := (s.homeLoad pa part w).2.sawLine u (lineOf pa) (s.homeLoad pa part w).1.wts
    t.mem = s.mem ∧ t.reqs = s.reqs
      ∧ (∃ h, t.grp u = some h ∧ h.pts = max g.pts (s.lineTimes pa part).wts)
      ∧ ∃ x, tfind t.lines (lineOf pa) = some x ∧ x.wts = (s.lineTimes pa part).wts
        ∧ x.rts = max (s.lineTimes pa part).rts (w + bits (s.die (homeDie pa)).lease 7 0) := by
  have hlines : tfind (s.homeLoad pa part w).2.lines (lineOf pa) = some (s.homeLoad pa part w).1 := by
    rw [State.homeLoad]
    simp only
    rw [State.noteTime_lines, State.tfind_setLine]
  have hkept : (s.homeLoad pa part w).2.reqs = s.reqs ∧ (s.homeLoad pa part w).2.groups = s.groups := by simp [State.homeLoad]
  have hgrp : (s.homeLoad pa part w).2.grp u = some g := by
    rw [State.grp, hkept.2]
    exact hg
  refine ⟨State.homeLoad_mem .., hkept.1, ⟨_, State.grp_updGrp_named hgrp rfl, rfl⟩, _, hlines, rfl, rfl⟩

/-- Every load at the home leaves memory and the requests, and the group there. -/
theorem State.loadHome_leaves {s : State} {g : Grp} (hg : s.grp g.uid = some g) (pa n m : Nat) (cls : Machine.Class) (policy : Policy) (l1 : Bool) :
    let t := (s.loadHome g pa n m cls policy l1).2.2
    t.mem = s.mem ∧ t.reqs = s.reqs ∧ ∃ h, t.grp g.uid = some h := by
  have hsame {v : State} (h : SameAt s v) : v.mem = s.mem ∧ v.reqs = s.reqs ∧ ∃ h, v.grp g.uid = some h :=
    ⟨h.mem, h.reqs, g, (h.grp _).trans hg⟩
  have htimed (hcls : cls = .coherent ∨ cls = .bank) :
      let t := (s.loadHome g pa n m cls .normal l1).2.2
      t.mem = s.mem ∧ t.reqs = s.reqs ∧ ∃ h, t.grp g.uid = some h := by
    have hleased := State.loadHome_leased (s := s) (g := g) (pa := pa) (n := n) (m := m) (l1 := l1) hcls
    obtain ⟨hmem, hreqs, ⟨h, hh, -⟩, -⟩ := State.homeLoad_leaves hg pa g.part
      (if g.pts ≤ max (s.lineTimes pa g.part).rts (m + s.leaseLen pa) then m else g.pts)
    exact ⟨hleased.mem.trans hmem, hleased.reqs.trans hreqs, h, (hleased.grp _).trans hh⟩
  cases policy with
  | nt =>
    obtain ⟨hmem, hreqs, hgroups⟩ := s.markEarly_keeps g.core pa g.part
    have hgrp : (s.markEarly g.core pa g.part).grp g.uid = some g := by rw [State.grp, hgroups]; exact hg
    exact ⟨hmem, hreqs, g, hgrp⟩
  | wc => exact hsame (SameAt.refl s)
  | normal =>
    cases cls with
    | priv => exact hsame (State.loadHome_untimed (.inl rfl))
    | readShared => exact hsame (State.loadHome_untimed (.inr rfl))
    | coherent => exact htimed (.inl rfl)
    | bank => exact htimed (.inr rfl)

/-- A load that finds no copy takes its bytes at the home, once its request has been sent (R145, R150, R182). -/
theorem execHomeLoad_home {s : State} {r i : Nat} {q : Req} {a : Acc} {g : Grp} {pa m : Nat} {cls : Machine.Class}
    (hq : s.req r = some q) (ha : q.accs[i]? = some a) (hg : s.grp q.uid = some g) (htgt : a.tgt = .mem pa cls) (hdone : a.done = false)
    (hmay : s.mayAct q i = true) (hkind : q.kind = .load) (hpre : q.pre = none) (htwin : g.twin = none)
    (hfar : q.policy ≠ .normal ∨ s.hit g pa a.size cls = none) (howned : s.owned (lineOf pa) = false)
    (hbank : s.bankHolds pa false = false) (hsent : tfind q.sent (lineOf pa) = some m) :
    execHomeLoad r i s = .next ((((s.loadHome g pa a.size m cls q.policy true).2.2.updReq r fun q => q.setAcc i
      (Acc.ends (BitVec.ofNat 128 (s.readPaNat pa a.size)) (s.paPois pa a.size))).served (r, i)).unawait fun w => w == .load r i) := by
  have hnear : (if q.policy = .normal then s.hit g pa a.size cls else none) = none := by
    rcases hfar with h | h
    · exact if_neg h
    · rw [h]
      exact ite_self _
  obtain ⟨hval, hpois⟩ := s.loadHome_value g pa a.size m cls q.policy true
  simp only [execHomeLoad, hq, ha, hg, htgt, hkind, hdone, hmay, hpre, hnear, howned, hbank, hsent]
  simp only [State.withHeld_lone _ _ _ _ htwin, State.heldClean_lone _ _ _ htwin, Bool.not_false, Bool.and_true]
  rw [hval, hpois]
  rfl

/-! A store's lane at its home (R147, R149, R183). -/

/-- A word of a store where its sector's line is free to be written. -/
def State.sectorMarks (s : State) (q : Req) (a : Acc) (pa : Nat) (cls : Machine.Class) : State :=
  let s : State := s.writePa a.pa (bytesLE a.size a.data.toNat)
  let s : State := if (List.range 32).all fun i => [a].any fun a => decide (a.pa ≤ pa + i) && decide (pa + i < a.pa + a.size) then
    { s with pois := clearPois s.pois pa 32 } else s
  if cls = .bank then s else s.noteDirty pa 32 q.part

theorem State.sectorMarks_keeps (s : State) (q : Req) (a : Acc) (pa : Nat) (cls : Machine.Class) :
    let t := s.sectorMarks q a pa cls
    t.mem = (s.writePa a.pa (bytesLE a.size a.data.toNat)).mem ∧ t.reqs = s.reqs ∧ t.groups = s.groups
      ∧ t.lines = s.lines := by
  have hw : (s.writePa a.pa (bytesLE a.size a.data.toNat)).reqs = s.reqs ∧ (s.writePa a.pa (bytesLE a.size a.data.toNat)).groups = s.groups
      ∧ (s.writePa a.pa (bytesLE a.size a.data.toNat)).lines = s.lines := by
    simp only [State.writePa]
    split <;> exact ⟨rfl, rfl, rfl⟩
  simp only [State.sectorMarks]
  split <;> split <;> exact ⟨rfl, hw⟩

@[simp] theorem State.stampLine_reqs (s : State) (pa part t : Nat) : (s.stampLine pa part t).reqs = s.reqs := by simp [State.stampLine]
@[simp] theorem State.stampLine_groups (s : State) (pa part t : Nat) : (s.stampLine pa part t).groups = s.groups := by
  simp [State.stampLine]

/-- The groups' times after a store of theirs (R183, R362). -/
theorem State.raiseFor_leaves {s : State} {q : Req} {g : Grp} (hg : s.grp q.uid = some g) (t : Nat) :
    (s.raiseFor q t).mem = s.mem ∧ (s.raiseFor q t).reqs = s.reqs ∧ (s.raiseFor q t).lines = s.lines
      ∧ ∃ h, (s.raiseFor q t).grp q.uid = some h ∧ h.pts = max g.pts t := by
  have hown := State.grp_updGrp_named (f := fun g => g.raise t) hg rfl
  rw [State.raiseFor]
  cases q.twin with
  | none => exact ⟨rfl, rfl, rfl, _, hown, rfl⟩
  | some x =>
    refine ⟨rfl, rfl, rfl, ?_⟩
    by_cases hx : x.1 = q.uid
    · refine ⟨(g.raise t).raise t, ?_, ?_⟩
      · show ((s.raisePts q.uid t).updGrp x.1 fun g => g.raise t).grp q.uid = _
        rw [hx]
        exact State.grp_updGrp_named hown rfl
      · show max (max g.pts t) t = max g.pts t
        rw [Nat.max_assoc, Nat.max_self]
    · refine ⟨g.raise t, ?_, rfl⟩
      exact (State.grp_updGrp_other (f := fun g => g.raise t) (Ne.symm hx) fun _ h => h).trans hown

/-- A write that fires watches leaves every group's time. -/
theorem State.fireWatches_leaves {s : State} {u : Nat} {g : Grp} (hg : s.grp u = some g) (t : Target) (n : Nat) :
    ∃ h, (s.fireWatches t n).grp u = some h ∧ h.pts = g.pts := by
  refine ⟨{ g with slot0 := g.slot0.touched fun x => Target.overlap t n (watchTarget g x) 4,
                   slot1 := g.slot1.touched fun x => Target.overlap t n (watchTarget g x) 4 }, ?_, rfl⟩
  · show (List.map _ s.groups).find? _ = _
    rw [List.find?_map]
    show Option.map _ (s.groups.find? fun x => x.uid == u) = _
    rw [show s.groups.find? (fun x => x.uid == u) = some g from hg]
    rfl

/-- A store to a line outside coherence leaves its groups' copies of it with the home's content (R147). -/
def State.privCopies (s : State) (q : Req) (pa : Nat) : State :=
  let fresh (c : Copy) : Copy := { s.freshCopy c.site pa 1 c.w c.r c.owner false with sectors := c.sectors }
  { s with copies := updAll (fun c => c.line == lineOf pa && (c.owner.bind q.placeFor).isSome) fresh s.copies }

/-- What a store does with the times and the copies of its sector's line (R147, R183). -/
def State.sectorTimed (s : State) (q : Req) (pa : Nat) (cls : Machine.Class) (t : Nat) : State :=
  if cls = .priv then
    let s : State := s.privCopies q pa
    if q.policy = .nt then s.markEarly q.core pa q.part else s
  else if q.policy = .normal then ((s.stampLine pa q.part t).raiseFor q t).refreshCopies q.core pa t
  else (s.dropCopies pa).markEarly q.core pa q.part

/-- An early mark leaves the groups there. -/
theorem State.markEarly_leaves {s v : State} {u : Nat} {g : Grp} (hv : v.mem = s.mem ∧ v.reqs = s.reqs ∧ v.groups = s.groups)
    (hg : s.grp u = some g) (core pa part : Nat) :
    (v.markEarly core pa part).mem = s.mem ∧ (v.markEarly core pa part).reqs = s.reqs ∧ (v.markEarly core pa part).grp u = some g := by
  obtain ⟨hmem, hreqs, hgroups⟩ := v.markEarly_keeps core pa part
  refine ⟨hmem.trans hv.1, hreqs.trans hv.2.1, ?_⟩
  rw [State.grp, hgroups, hv.2.2]
  exact hg

theorem State.sectorTimed_leaves {s : State} {q : Req} {g : Grp} (hg : s.grp q.uid = some g) (pa : Nat) (cls : Machine.Class) (time : Nat) :
    let t := s.sectorTimed q pa cls time
    t.mem = s.mem ∧ t.reqs = s.reqs
      ∧ ∃ h, t.grp q.uid = some h
        ∧ (q.policy = .normal → cls ≠ .priv →
            h.pts = max g.pts time ∧ ∃ x, tfind t.lines (lineOf pa) = some x ∧ x.wts = time ∧ x.rts = time) := by
  simp only [State.sectorTimed]
  by_cases hcls : cls = .priv
  · rw [if_pos hcls]
    split
    · obtain ⟨hmem, hreqs, hgrp⟩ := State.markEarly_leaves (s := s) (v := s.privCopies q pa) ⟨rfl, rfl, rfl⟩ hg q.core pa q.part
      exact ⟨hmem, hreqs, g, hgrp, fun _ h => absurd hcls h⟩
    · exact ⟨rfl, rfl, g, hg, fun _ h => absurd hcls h⟩
  · rw [if_neg hcls]
    by_cases hpol : q.policy = .normal
    · rw [if_pos hpol]
      have hstamp : (s.stampLine pa q.part time).grp q.uid = some g := by
        rw [State.grp, State.stampLine_groups]
        exact hg
      obtain ⟨hmem, hreqs, hlines, h, hh, hpts⟩ := State.raiseFor_leaves hstamp time
      refine ⟨hmem.trans (State.stampLine_mem ..), hreqs.trans (State.stampLine_reqs ..), h, hh,
        fun _ _ => ⟨hpts, { s.lineTimes pa q.part with wts := time, rts := time, part := q.part }, ?_, rfl, rfl⟩⟩
      exact (congrArg (fun ls => tfind ls (lineOf pa)) hlines).trans (s.tfind_stampLine pa q.part time)
    · rw [if_neg hpol]
      obtain ⟨hmem, hreqs, hgrp⟩ := State.markEarly_leaves (s := s) (v := s.dropCopies pa) ⟨rfl, rfl, rfl⟩ hg q.core pa q.part
      exact ⟨hmem, hreqs, g, hgrp, fun h => absurd h hpol⟩

/-- One lane of a store in its sector, where the die works. -/
theorem State.storeSector_lane {s : State} {q : Req} {g : Grp} {a : Acc} {pa : Nat} {cls : Machine.Class}
    (hg : s.grp q.uid = some g) (htgt : a.tgt = .mem pa cls) (hz : zeroRow pa = false) (hd : (s.die (homeDie pa)).failed = false) :
    let t := s.storeSector q g [a] (pa / 32) cls
    t.mem = writeRun s.mem pa (bytesLE a.size a.data.toNat) ∧ t.reqs = s.reqs
      ∧ ∃ h, t.grp q.uid = some h
        ∧ (q.policy = .normal → cls ≠ .priv →
            let time := max g.pts ((s.lineTimes (32 * (pa / 32)) q.part).rts + 1)
            h.pts = time ∧ ∃ x, tfind t.lines (lineOf pa) = some x ∧ x.wts = time ∧ x.rts = time) := by
  have hline : lineOf (32 * (pa / 32)) = lineOf pa := by
    simp only [lineOf]
    omega
  have hpa : a.pa = pa := by rw [Acc.pa, htgt]
  have hworks : ¬(s.die (homeDie (32 * (pa / 32)))).failed = true := by rw [homeDie_line hline, hd]; exact Bool.false_ne_true
  have heq : s.storeSector q g [a] (pa / 32) cls =
      ((s.sectorMarks q a (32 * (pa / 32)) cls).sectorTimed q (32 * (pa / 32)) cls (s.writeTime (32 * (pa / 32)) q.part g.pts)).fireWatches
        a.tgt a.size := if_neg hworks
  obtain ⟨hmem, hreqs, hgroups, -⟩ := s.sectorMarks_keeps q a (32 * (pa / 32)) cls
  rw [hpa, State.writePa_mem hz hd] at hmem
  have hgrp : (s.sectorMarks q a (32 * (pa / 32)) cls).grp q.uid = some g := by rw [State.grp, hgroups]; exact hg
  obtain ⟨hmem', hreqs', h, hh, htimed⟩ :=
    State.sectorTimed_leaves hgrp (32 * (pa / 32)) cls (s.writeTime (32 * (pa / 32)) q.part g.pts)
  obtain ⟨k, hk, hpts⟩ := State.fireWatches_leaves hh a.tgt a.size
  intro t
  refine ⟨(congrArg State.mem heq).trans (hmem'.trans hmem), (congrArg State.reqs heq).trans (hreqs'.trans hreqs), k,
    (congrArg (fun v => State.grp v q.uid) heq).trans hk, fun hpol hcls => ?_⟩
  obtain ⟨hh', x, hx, hwts, hrts⟩ := htimed hpol hcls
  refine ⟨?_, x, ?_, hwts, hrts⟩
  · rw [hpts, hh', State.writeTime]
    omega
  · rw [hline] at hx
    exact (congrArg (fun v => tfind (State.lines v) (lineOf pa)) heq).trans hx

/-- Whether a lane of a store is still to act in a sector. -/
def Acc.leftIn (sec : Nat) (a : Acc) : Bool := !a.done && (match a.tgt with | .mem b _ => b / 32 == sec | .scratch _ _ _ => false)

/-- The waits for a line that a store's lanes in a sector end. -/
def Req.endsWait (q : Req) (r sec : Nat) (w : LineWait) : Bool :=
  match w with
  | .store t j => t == r && (match q.accs[j]? with | some b => b.leftIn sec | none => true)
  | _ => false

/-- A store's access at its home, the only one of its word (R147, R149). -/
theorem execHomeStore_acts {s : State} {r i : Nat} {q : Req} {a : Acc} {g : Grp} {pa : Nat} {cls : Machine.Class}
    (hq : s.req r = some q) (ha : q.accs[i]? = some a) (hg : s.grp q.uid = some g) (htgt : a.tgt = .mem pa cls) (hdone : a.done = false)
    (hmay : s.mayAct q i = true) (howned : s.owned (lineOf pa) = false) (hkind : q.kind = .store) (hpol : q.policy ≠ .wc)
    (hheld : s.lineHeld (lineOf pa) = false) (haccs : q.accs = [a]) (hbank : s.bankHolds pa true = false) :
    execHomeStore r i s = .next ((((s.storeSector q g [a] (pa / 32) cls).updReq r fun q => q.doneIn (pa / 32)).served (r, i)).unawait
      (q.endsWait r (pa / 32))) := by
  have hfree : s.lineFree (lineOf pa) = true := by simp [State.lineFree, howned, hheld]
  have hthis : q.accs.filter (Acc.leftIn (pa / 32)) = [a] := by simp [haccs, Acc.leftIn, hdone, htgt]
  rw [← hthis]
  simp only [execHomeStore, hq, ha, hg, htgt, hkind, hdone, hmay, hpol, hfree, hbank]
  rfl

/-- A store's lanes that have acted in a sector: the request notes them, and no access of it there waits. -/
theorem State.storeEnds {t : State} {r : Nat} {q : Req} (sec : Nat) (key : Nat × Nat) (gone : LineWait → Bool) (hq : t.req r = some q) :
    let e := ((t.updReq r fun q => q.doneIn sec).served key).unawait gone
    e.mem = t.mem ∧ e.lines = t.lines ∧ (∀ u, e.grp u = t.grp u) ∧ e.req r = some (q.doneIn sec) :=
  ⟨rfl, rfl, fun _ => rfl, State.req_updReq (f := fun q => q.doneIn sec) hq rfl⟩

/-- Settles O51: a load from a copy, a load at the home, and a store's lane at the home. -/
theorem homeAccessEvents : Obligations.HomeAccessEvents := by
  unfold Obligations.HomeAccessEvents
  intro s r i q a g pa cls hq ha hg htgt hdone hmay
  have huid : g.uid = q.uid := State.grp_uid hg
  have hgu : s.grp g.uid = some g := huid.symm ▸ hg
  refine ⟨fun hkind hpre hpol htwin c l1 hhit => ?_, fun howned hd hkind hpre hfar hbank htwin m hsent => ?_,
    fun howned hd hkind hpol hheld haccs hin hsize hz hbank => ?_⟩
  · obtain ⟨-, -, hmem, hlines, hreqs, h, hh, hpts⟩ := State.loadHit_leaves c l1 pa a.size hgu
    have hqt : (s.loadHit g c l1 pa a.size).2.2.req r = some q := by rw [State.req, hreqs]; exact hq
    obtain ⟨hmem', hlines', hgrp', p, hp, hacc⟩ := State.loadEnds (r := r) (BitVec.ofNat 128 (ofBytesLE (c.serve pa a.size).1))
      (c.serve pa a.size).2 hqt ha
    exact ⟨_, p, h, execHomeLoad_hit hq ha hg htgt hdone hmay hkind hpre hpol htwin hhit, hmem'.trans hmem, hlines'.trans hlines, hp, hacc,
      (hgrp' _).trans (huid ▸ hh), hpts⟩
  · obtain ⟨hmem, hreqs, h, hh⟩ := State.loadHome_leaves hgu pa a.size m cls q.policy true
    have hqt : (s.loadHome g pa a.size m cls q.policy true).2.2.req r = some q := by rw [State.req, hreqs]; exact hq
    obtain ⟨hmem', hlines', hgrp', p, hp, hacc⟩ := State.loadEnds (r := r) (BitVec.ofNat 128 (s.readPaNat pa a.size)) (s.paPois pa a.size) hqt ha
    refine ⟨_, p, h, execHomeLoad_home hq ha hg htgt hdone hmay hkind hpre htwin hfar howned hbank hsent, hmem'.trans hmem, hp, hacc,
      (hgrp' _).trans (huid ▸ hh), fun hpol hcls => ?_, fun hpol hcls hle => ?_⟩
    · rw [hpol] at hh
      have hsame := State.loadHome_untimed (s := s) (g := g) (pa := pa) (n := a.size) (m := m) (l1 := true) hcls
      refine ⟨Option.some.inj (hh.symm.trans ((hsame.grp _).trans hgu)), hlines'.trans ?_⟩
      rw [hpol]
      exact hsame.lines
    · rw [hpol] at hh hlines'
      have hsame := State.loadHome_leased (s := s) (g := g) (pa := pa) (n := a.size) (m := m) (l1 := true) hcls
      have hw : (if g.pts ≤ max (s.lineTimes pa g.part).rts (m + s.leaseLen pa) then m else g.pts) = m := if_pos (by omega)
      obtain ⟨-, -, ⟨k, hk, hpts⟩, x, hx, hwts, hrts⟩ := State.homeLoad_leaves hgu pa g.part m
      simp only [hw] at hsame
      obtain rfl : h = k := Option.some.inj (hh.symm.trans ((hsame.grp _).trans hk))
      refine ⟨hpts, x, ?_, hwts, hrts⟩
      rw [hpol, hlines', hsame.lines]
      exact hx
  · obtain ⟨hmem, hreqs, h, hh, htimed⟩ := State.storeSector_lane hg htgt hz hd
    have hexec := execHomeStore_acts hq ha hg htgt hdone hmay howned hkind hpol hheld haccs hbank
    have hqt : (s.storeSector q g [a] (pa / 32) cls).req r = some q := by rw [State.req, hreqs]; exact hq
    have hends : q.doneIn (pa / 32) = { q with accs := [{ a with done := true }] } := by
      simp only [Req.doneIn, haccs, List.map_cons, List.map_nil, htgt, if_true]
    obtain ⟨hmem', hlines', hgrp', hreq'⟩ := State.storeEnds (pa / 32) (r, i) (q.endsWait r (pa / 32)) hqt
    refine ⟨_, h, hexec, hmem'.trans hmem, hreq'.trans (congrArg some hends), (hgrp' _).trans hh, fun hnormal hcls => ?_⟩
    rw [hlines']
    exact htimed hnormal hcls

end Sys2Proof.Machine
end

section
/-! SUPPORT. A fence left to the primary; control-core stores of registers and shootdowns (R304 to R306, R344, R345, R362, R372 to R380, R392, R414). -/

namespace Sys2Proof.Machine

open Sys2Proof.Claim

/-! A fence of an understudy that its primary is to perform (R362). -/

/-- An understudy, without a twin, at a fence that was captured with an access to memory. -/
def underGroup : Grp := { uid := 1, under := true }

def underState : State := { State.reset with groups := [underGroup], iss := { live := true, g := underGroup } }

def fenceOp : SOp := { ins := .fence 5#3, act := BitVec.allOnes 32, accs := [{}] }

theorem underState_performs : Performs underState underState.iss fenceOp underGroup :=
  ⟨rfl, by show BitVec.allOnes 32 ≠ 0#32; decide, rfl, rfl, rfl⟩

/-- The model leaves such a word to the primary: the group has no fence open after it. -/
theorem underState_skips : ((underState.performOne underState.iss fenceOp).1.grp 1).map (·.fence) = some none := by
  decide +kernel

/-- Refutes O52: a fence with an access to memory counts as a word that the primary performs for both copies, so that an understudy, even one
without a twin, opens no fence at it (R362). -/
theorem not_orderingEvents : ¬ Obligations.OrderingEvents := by
  unfold Obligations.OrderingEvents
  intro h
  obtain ⟨-, -, -, -, -, -, -, -, -, hfence, -⟩ := h underState
  obtain ⟨t, j, ht, -, hgrp, -⟩ := hfence underState.iss fenceOp underGroup 5#3 underState_performs rfl (by decide)
  have hskip := underState_skips
  rw [ht] at hskip
  have hopen : (t.grp 1).map (·.fence) = some (some 5) := congrArg (Option.map (·.fence)) hgrp
  exact absurd (hskip.symm.trans hopen) (by decide)

/-! Control-core stores of registers (R304 to R306, R372 to R380, R392, R414). -/

theorem State.writeUnit_plain {s : State} {part off : Nat} {x : Word} (h : off ∉ [0x14, 0x18, 0x2C, 0x48, 0x6C, 0x70, 0x74, 0x78]) :
    s.writeUnit part off x = s.setPart part ((s.part part).writePlain off x) := by
  simp only [List.mem_cons, List.not_mem_nil, or_false, not_or] at h
  obtain ⟨h1, h2, h3, h4, h5, h6, h7, h8⟩ := h
  exact State.writeUnit.eq_9 s part off x h1 h2 h3 h4 h5 h6 h7 h8

theorem State.writeUnit_graphctl {s : State} {part r : Nat} {x : Word} (h : r < 4) :
    s.writeUnit part (0x6C + 4 * r) x = s.writeGraphctl part r x := by
  interval_cases r <;> rfl

theorem State.combtestStore_of {s : State} {die mode : Nat} {x : Word} (h : bits x 1 0 = mode) :
    s.combtestStore die mode x = s.hartWriteReg (die * 192) 0x021 x := if_pos h

theorem registerStores (s : State) (core die part r n off : Nat) (x : Word) :
    exec (.partidWrite core x) s = .next (s.hartWriteReg core 0x002 x)
      ∧ exec (.ptrootWrite core x) s = .next (s.hartWriteReg core 0x003 x)
      ∧ exec (.marginWrite core x) s = .next (s.hartWriteReg core 0x010 x)
      ∧ exec (.ltelimWrite core x) s = .next (s.hartWriteReg core 0x012 x)
      ∧ exec (.ltewinWrite core x) s = .next (s.hartWriteReg core 0x013 x)
      ∧ exec (.quarWrite core x) s = .next (s.hartWriteReg core 0x014 x)
      ∧ exec (.healthWrite die x) s = .next (s.hartWriteReg (die * 192) 0x030 x)
      ∧ exec (.registerWrite (.core core n) x) s = .next (s.hartWriteReg core n x)
      ∧ exec (.registerWrite (.die die n) x) s = .next (s.hartWriteReg (die * 192) n x)
      ∧ (off ∉ [0x14, 0x18, 0x2C, 0x48, 0x6C, 0x70, 0x74, 0x78] →
          exec (.registerWrite (.unit part off) x) s = .next (s.setPart part ((s.part part).writePlain off x)))
      ∧ (r < 4 → exec (.registerWrite (.unit part (0x6C + 4 * r)) x) s = .next (s.writeGraphctl part r x))
      ∧ exec (.graphctlWrite part r x) s = .next (s.writeGraphctl part r x)
      ∧ exec (.shootdownGo part x) s = .next (s.doShootdown part x)
      ∧ (bits x 1 0 = 0 → exec (.combtestDisarm die x) s = .next (s.hartWriteReg (die * 192) 0x021 x))
      ∧ (bits x 1 0 = 1 → exec (.combtestCorruptCopy die x) s = .next (s.hartWriteReg (die * 192) 0x021 x))
      ∧ (bits x 1 0 = 2 → exec (.combtestLoseRecord die x) s = .next (s.hartWriteReg (die * 192) 0x021 x))
      ∧ (bits x 1 0 = 3 → exec (.combtestResetSwitch die x) s = .next (s.hartWriteReg (die * 192) 0x021 x)) := by
  refine ⟨rfl, rfl, rfl, rfl, rfl, rfl, rfl, rfl, rfl, fun h => ?_, fun h => ?_, rfl, rfl, fun h => ?_, fun h => ?_, fun h => ?_, fun h => ?_⟩
  · exact congrArg _ (State.writeUnit_plain h)
  · exact congrArg _ (State.writeUnit_graphctl h)
  · exact congrArg _ (State.combtestStore_of h)
  · exact congrArg _ (State.combtestStore_of h)
  · exact congrArg _ (State.combtestStore_of h)
  · exact congrArg _ (State.combtestStore_of h)

/-- MARGIN: STEP alone changes, up to MAX (R372). -/
theorem execMarginWrite_steps (s : State) (core : Nat) (x : Word) :
    (bits x 7 0 ≤ bits (s.core core).margin 15 8 → ∃ t, exec (.marginWrite core x) s = .next t ∧ t.mem = s.mem
        ∧ bits (t.core core).margin 7 0 = bits x 7 0 ∧ bits (t.core core).margin 31 8 = bits (s.core core).margin 31 8
        ∧ (t.core core).quar = (s.core core).quar ∧ (t.core core).ltecnt = (s.core core).ltecnt)
      ∧ (bits (s.core core).margin 15 8 < bits x 7 0 → exec (.marginWrite core x) s = .next s) := by
  refine ⟨fun h => ?_, fun h => ?_⟩
  · have hok : regValueOk (s.marginMax core) 0x010 x = true := decide_eq_true h
    refine ⟨s.writeReg core 0x010 x, congrArg Host.Outcome.next (State.hartWriteReg_eq_writeReg rfl hok (by simp)), rfl, ?_⟩
    have hcore : (s.writeReg core 0x010 x).core core = { s.core core with margin := setField (s.core core).margin 7 0 (bits x 7 0) } :=
      State.core_updCore ..
    rw [hcore]
    refine ⟨(bits_setField _ _ (by decide) (by decide)).trans (Nat.mod_eq_of_lt ?_), ?_, rfl, rfl⟩
    · exact BitVec.isLt (BitVec.extractLsb' 0 8 x)
    · exact bits_setField_above _ _ (by decide) (by decide) (by decide)
  · have hok : regValueOk (s.marginMax core) 0x010 x = false := decide_eq_false (Nat.not_le.2 h)
    show Host.Outcome.next (s.hartWriteReg core 0x010 x) = _
    rw [State.hartWriteReg, hok, Bool.and_false]
    rfl

/-- R379, R380: whether a cause of REPLACE comes to hold. -/
theorem newlyReplaces_iff (old x : Word) : ((replaceCauses old).zip (replaceCauses x)).contains (false, true) = true ↔ newlyReplaces old x := by
  constructor
  · intro h
    simp only [replaceCauses, List.zip_cons_cons, List.zip_nil_left, List.contains_eq_mem, List.mem_cons, Prod.mk.injEq, decide_eq_true_eq,
      List.not_mem_nil, or_false] at h
    rcases h with ⟨ho, hn⟩ | ⟨ho, hn⟩ | ⟨ho, hn⟩ | ⟨ho, hn⟩ | ⟨ho, hn⟩ | ⟨ho, hn⟩ | ⟨ho, hn⟩
    · exact ⟨0, by decide, by simpa [replaces] using ho.symm, by simpa [replaces] using hn.symm⟩
    · exact ⟨1, by decide, by simpa [replaces] using ho.symm, by simpa [replaces] using hn.symm⟩
    · exact ⟨2, by decide, by simpa [replaces] using ho.symm, by simpa [replaces] using hn.symm⟩
    · exact ⟨3, by decide, by simpa [replaces] using ho.symm, by simpa [replaces] using hn.symm⟩
    · exact ⟨4, by decide, by simpa [replaces] using ho.symm, by simpa [replaces] using hn.symm⟩
    · exact ⟨5, by decide, by simpa [replaces] using ho.symm, by simpa [replaces] using hn.symm⟩
    · exact ⟨6, by decide, by simpa [replaces] using ho.symm, by simpa [replaces] using hn.symm⟩
  · rintro ⟨k, hk, hold, hnew⟩
    have hmem : (false, true) ∈ (replaceCauses old).zip (replaceCauses x) := by
      have hlen : k < ((replaceCauses old).zip (replaceCauses x)).length := hk
      refine List.mem_of_getElem (i := k) (h := hlen) ?_
      interval_cases k <;> simp_all [replaceCauses, replaces]
    simpa using hmem

/-- HEALTH: the register takes the value, with REPLACE set where a cause comes to hold (R379, R380). -/
theorem execHealthWrite_takes {s : State} {die : Nat} {x : Word} (hok : bits x 30 27 = 0) :
    ∃ t, exec (.healthWrite die x) s = .next t ∧ t.mem = s.mem
      ∧ (newlyReplaces (s.die die).health x → (t.die die).health = setBit x 31 true)
      ∧ (¬newlyReplaces (s.die die).health x → (t.die die).health = x) := by
  have hlegal : regValueOk (s.marginMax (die * 192)) 0x030 x = true := beq_iff_eq.2 hok
  have hdie : dieOfCore (die * 192) = die := Nat.mul_div_cancel die (by decide)
  have hhealth : ((s.writeReg (die * 192) 0x030 x).die die).health = healthWritten (s.die die).health x := by
    simp only [State.writeReg, hdie, State.die_alarm, State.setHealth, State.die_updDie]
  refine ⟨s.writeReg (die * 192) 0x030 x, congrArg Host.Outcome.next (State.hartWriteReg_eq_writeReg rfl hlegal (by simp)),
    State.alarm_mem _ _ _, fun h => ?_, fun h => ?_⟩
  · rw [hhealth, healthWritten, if_pos ((newlyReplaces_iff _ _).2 h)]
  · rw [hhealth, healthWritten, if_neg (mt (newlyReplaces_iff _ _).1 h)]

theorem State.quarWrite_legal {s : State} {core : Nat} {x : Word} (hx : bits x 31 3 = 0) :
    s.hartWriteReg core 0x014 x = s.writeReg core 0x014 x :=
  State.hartWriteReg_eq_writeReg rfl (beq_iff_eq.2 hx) (by simp)

/-- QUAR where the core is quarantined, or not, before and after (R376). -/
theorem execQuarWrite_stays {s : State} {core : Nat} {x : Word} (hx : bits x 31 3 = 0) (h : bitOf x 0 = bitOf (s.core core).quar 0) :
    ∃ t, exec (.quarWrite core x) s = .next t ∧ (t.core core).quar = (if bitOf x 0 then x else 0#32) ∧ t.dies = s.dies
      ∧ t.mem = s.mem ∧ t.gangs = s.gangs := by
  have hw : s.writeReg core 0x014 x = s.updCore core fun c => { c with quar := if bitOf x 0 then x else 0#32 } := by
    simp only [State.writeReg, ← h]
    cases bitOf x 0 <;> rfl
  refine ⟨_, congrArg Host.Outcome.next ((State.quarWrite_legal hx).trans hw), ?_, rfl, rfl, rfl⟩
  rw [State.core_updCore]

/-- QUAR that releases a core: QCORES falls by one (R376, R379). -/
theorem execQuarWrite_releases {s : State} {core : Nat} {x : Word} (hx : bits x 31 3 = 0) (hnow : bitOf x 0 = false)
    (hwas : bitOf (s.core core).quar 0 = true) :
    ∃ t, exec (.quarWrite core x) s = .next t ∧ (t.core core).quar = 0#32
      ∧ bits (t.die (core / 192)).health 7 0 = bits (s.die (core / 192)).health 7 0 - 1 ∧ t.mem = s.mem ∧ t.gangs = s.gangs := by
  let v : State := s.updCore core fun c => { c with quar := 0#32 }
  have hw : s.writeReg core 0x014 x =
      (v.healthEvent (dieOfCore core) fun h => setField h 7 0 (bits h 7 0 - 1)).alarm v (v.corePart core) := by
    simp only [State.writeReg, hnow, hwas]
    rfl
  refine ⟨_, congrArg Host.Outcome.next ((State.quarWrite_legal hx).trans hw), ?_, ?_, ?_, ?_⟩
  · rw [State.alarm_onlyOut]
    show (v.core core).quar = _
    rw [State.core_updCore]
  · rw [State.die_alarm]
    refine (State.bits_healthEvent v (core / 192) _ _ (by decide)).trans ?_
    refine (bits_setField _ _ (by decide) (by decide)).trans (Nat.mod_eq_of_lt (Nat.lt_of_le_of_lt (Nat.sub_le _ _) ?_))
    exact BitVec.isLt (BitVec.extractLsb' 0 8 _)
  · rw [State.alarm_mem]
    rfl
  · rw [State.gangs_alarm]
    rfl

/-- With every launch complete none is checked again (R377). -/
theorem State.recheck_complete {s : State} (part : Nat) (h : ∀ l ∈ s.launches, l.complete = true) : s.recheck part = s := by
  have hnone : (s.launches.filter fun l => l.part == part && !l.complete && !l.ending && !s.fits part l.book) = [] :=
    List.filter_eq_nil_iff.2 fun l hl => by simp [h l hl]
  rw [State.recheck, hnone]
  rfl

/-- A quarantine of a core with no gang, and no launch open (R376, R377, R379). -/
theorem State.quarantine_idle {s : State} {core : Nat} (hgangs : ∀ k ∈ s.gangs, core ∈ k.cores → k.place = .ended)
    (hlaunches : ∀ l ∈ s.launches, l.complete = true) :
    s.quarantine core =
      (s.healthEvent (dieOfCore core) fun h => setField h 7 0 (min (bits h 7 0 + 1) 192)).alarm s (s.corePart core) := by
  have hnone : s.gangs.filter (fun g => g.cores.contains core && g.place != .ended) = [] :=
    List.filter_eq_nil_iff.2 fun k hk => by
      by_cases hc : core ∈ k.cores
      · simp [hgangs k hk hc]
      · simp [hc]
  simp only [State.quarantine]
  rw [State.gangs_alarm]
  simp only [show (s.healthEvent (dieOfCore core) fun h => setField h 7 0 (min (bits h 7 0 + 1) 192)).gangs = s.gangs from rfl, hnone,
    List.map_nil, List.foldl_nil]
  split
  · refine State.recheck_complete _ fun l hl => hlaunches l ?_
    rw [State.alarm_onlyOut] at hl
    exact hl
  · rfl

/-- The word of a margin-log entry without its time (R378). -/
theorem logEntry_low (ns m kind n : Nat) (hm : m < 256) (hk : kind < 16) (hn : n < 256) :
    (BitVec.ofNat 64 (ns % 2 ^ 40 * 2 ^ 24 + m * 4096 + kind * 256 + n)).toNat % 2 ^ 24 = m * 4096 + kind * 256 + n := by
  rw [BitVec.toNat_ofNat]
  omega

/-- QUAR that quarantines a core with no gang on it and no launch open: QCORES rises, and the margin log takes an entry (R376 to R379). -/
theorem execQuarWrite_takes {s : State} {core : Nat} {x : Word} (hx : bits x 31 3 = 0) (hnow : bitOf x 0 = true)
    (hwas : bitOf (s.core core).quar 0 = false) (hgangs : ∀ k ∈ s.gangs, core ∈ k.cores → k.place = .ended)
    (hlaunches : ∀ l ∈ s.launches, l.complete = true) :
    let d := core / 192
    ∃ t, exec (.quarWrite core x) s = .next t ∧ (t.core core).quar = x ∧ t.mem = s.mem ∧ t.gangs = s.gangs
      ∧ bits (t.die d).health 7 0 = min (bits (s.die d).health 7 0 + 1) 192
      ∧ (t.die d).logCount = (s.die d).logCount + 1#32
      ∧ let e := tget (t.die d).log ((s.die d).logCount.toNat % 64) 0#64
        e.toNat % 2 ^ 24 = bits (s.core core).margin 7 0 * 4096 + 3 * 256 + core % 192 := by
  intro d
  let v : State := (s.updCore core fun c => { c with quar := x }).logMargin core 3
  have hw : s.writeReg core 0x014 x = (v.healthEvent d fun h => setField h 7 0 (min (bits h 7 0 + 1) 192)).alarm v (v.corePart core) := by
    have hq : s.writeReg core 0x014 x = v.quarantine core := by
      simp only [State.writeReg, hnow, hwas]
      rfl
    exact hq.trans (State.quarantine_idle hgangs hlaunches)
  have hcore : (s.updCore core fun c => { c with quar := x }).core core = { s.core core with quar := x } := State.core_updCore ..
  have hdie : v.die d = { s.die d with
      log := tset (s.die d).log ((s.die d).logCount.toNat % 64)
        (BitVec.ofNat 64 (nsOfClk s.clk % 2 ^ 40 * 2 ^ 24 + bits (s.core core).margin 7 0 * 4096 + 3 * 256 + core % 192))
      logCount := (s.die d).logCount + 1#32 } := by
    refine (State.die_updDie ..).trans ?_
    rw [hcore]
    rfl
  refine ⟨_, congrArg Host.Outcome.next ((State.quarWrite_legal hx).trans hw), ?_, ?_, ?_, ?_, ?_, ?_⟩
  · rw [State.alarm_onlyOut]
    show ((s.updCore core fun c => { c with quar := x }).core core).quar = x
    rw [hcore]
  · rw [State.alarm_mem]
    rfl
  · rw [State.gangs_alarm]
    rfl
  · rw [State.die_alarm]
    refine (State.bits_healthEvent v d _ _ (by decide)).trans ?_
    refine (bits_setField _ _ (by decide) (by decide)).trans ((Nat.mod_eq_of_lt ?_).trans ?_)
    · exact Nat.lt_of_le_of_lt (Nat.min_le_right _ _) (by decide)
    · rw [hdie]
  · rw [State.die_alarm, State.die_healthEvent, hdie]
  · rw [State.die_alarm, State.die_healthEvent, hdie]
    simp only [tget_tset_same]
    exact logEntry_low _ _ _ _ (BitVec.isLt (BitVec.extractLsb' 0 8 (s.core core).margin)) (by decide)
      (Nat.lt_trans (Nat.mod_lt _ (by decide)) (by decide))

/-! COMBTEST, the shootdown's GO and the graph controllers (R344, R345, R392, R414). -/

theorem State.combtest_legal {s : State} {die : Nat} {x : Word} (h1 : bits x 31 24 = 0) (h2 : bits x 15 14 = 0)
    (h3 : bits x 7 2 = 0) (h4 : bits x 13 12 ≠ 3) : s.hartWriteReg (die * 192) 0x021 x = s.writeCombtest die x := by
  have hok : regValueOk (s.marginMax (die * 192)) 0x021 x = true := by simp [regValueOk, h1, h2, h3, h4]
  have hdie : dieOfCore (die * 192) = die := Nat.mul_div_cancel die (by decide)
  rw [State.hartWriteReg_eq_writeReg rfl hok (by simp)]
  show s.writeCombtest (dieOfCore (die * 192)) x = _
  rw [hdie]

/-- COMBTEST: modes 0 to 2 are noted, and mode 3 resets its switch (R392). -/
theorem combtestStores {s : State} {die : Nat} {x : Word} (h1 : bits x 31 24 = 0) (h2 : bits x 15 14 = 0) (h3 : bits x 7 2 = 0)
    (h4 : bits x 13 12 ≠ 3) :
    (bits x 1 0 ≠ 3 → ∃ t, s.hartWriteReg (die * 192) 0x021 x = t ∧ (t.die die).combtest = x ∧ t.recs = s.recs ∧ t.pkts = s.pkts
        ∧ t.mem = s.mem)
      ∧ (bits x 1 0 = 3 → ∃ t, exec (.combtestResetSwitch die x) s = .next t
        ∧ (t.die die).combtest = x &&& 0xFF00_FFFF#32 ∧ t.mem = s.mem
        ∧ t.recs = s.recs.filter fun r => !(r.at_.die == die && r.at_.stage == bits x 13 12 && r.at_.sw == bits x 11 8)) := by
  refine ⟨fun hmode => ⟨_, State.combtest_legal h1 h2 h3 h4, ?_, ?_, ?_, State.writeCombtest_mem ..⟩,
    fun hmode => ⟨s.writeCombtest die x, ?_, ?_, State.writeCombtest_mem .., ?_⟩⟩
  · rw [State.combtest_writeCombtest, if_neg hmode]
  · rw [State.writeCombtest, if_neg hmode]
    rfl
  · rw [State.writeCombtest, if_neg hmode]
    rfl
  · exact congrArg Host.Outcome.next ((State.combtestStore_of hmode).trans (State.combtest_legal h1 h2 h3 h4))
  · rw [State.combtest_writeCombtest, if_pos hmode]
  · rw [State.writeCombtest, if_pos hmode]
    rfl

/-- A graph controller's register is written where no wave of the partition is queued or runs (R414). -/
theorem State.writeGraphctl_sets {s : State} {part r : Nat} {x : Word} (hr : r < 4) (hzero : ∀ k < 4, bits x (8 * k + 7) (8 * k + 5) = 0)
    (hidle : ∀ w ∈ s.waves, ¬(w.part = part ∧ w.kind ≠ .gbind ∧ (w.st = .queued ∨ w.st = .running))) :
    (s.writeGraphctl part r x).mem = s.mem
      ∧ ∀ k < 4, ((((s.writeGraphctl part r x).part part).graphctl)[4 * r + k]?) = some (BitVec.ofNat 5 (bits x (8 * k + 4) (8 * k))) := by
  have hz : ((List.range 4).all fun k => bits x (8 * k + 7) (8 * k + 5) == 0) = true :=
    List.all_eq_true.2 fun k hk => by simpa using hzero k (List.mem_range.1 hk)
  have hbusy (g : Nat) : (s.waves.any fun w =>
      w.part == part && w.graph == g && w.kind != .gbind && (w.st == .queued || w.st == .running)) = false :=
    List.any_eq_false.2 fun w hw => by
      have h := hidle w hw
      simp only [Bool.and_eq_true, beq_iff_eq, bne_iff_ne, Bool.or_eq_true]
      exact fun hb => h ⟨hb.1.1.1, hb.1.2, hb.2⟩
  have hclash (f : Nat → Bool) : ((List.range 4).any fun k => (s.waves.any fun w =>
      w.part == part && w.graph == 4 * r + k && w.kind != .gbind && (w.st == .queued || w.st == .running)) && f k) = false := by
    simp [hbusy]
  simp only [State.writeGraphctl]
  rw [if_pos ⟨hr, hz, hclash _⟩]
  refine ⟨rfl, fun k hk => ?_⟩
  show (((s.setPart part _).part part).graphctl[4 * r + k]?) = _
  rw [State.part_setPart]
  have hlt : 4 * r + k < 16 := by omega
  rw [Vector.getElem?_eq_getElem hlt, Vector.getElem_ofFn]
  have hdiv : (4 * r + k) / 4 = r ∧ (4 * r + k) % 4 = k := by omega
  simp only [hdiv, if_true]

/-- The range of a shootdown that is asked for (R344). -/
def sdStart (p : PartState) : Nat := bits p.sdvalo 31 12 * 4096 + bits p.sdvahi 24 0 * 2 ^ 32

theorem State.doShootdown_starts {s : State} {part : Nat} {x : Word} (hbusy : (s.part part).sd.busy = false)
    (h : bits x 7 6 = 0 ∧ bits x 30 10 = 0 ∧ 12 ≤ bits x 5 0 ∧ bits x 5 0 ≤ 57 ∧ sdStart (s.part part) % 2 ^ bits x 5 0 = 0) :
    s.doShootdown part x = (s.startShootdown part (sdStart (s.part part)) (2 ^ bits x 5 0) (bitOf x 8) (bitOf x 9)).updPart part fun p =>
      { p with sdctl := x &&& 0x7FFF_FFFF#32 } := by
  obtain ⟨h1, h2, h3, h4, h5⟩ := h
  refine if_neg ?_
  show ¬((s.part part).sd.busy = true ∨ (bits x 7 6 == 0 && bits x 30 10 == 0 && decide (12 ≤ bits x 5 0) && decide (bits x 5 0 ≤ 57)
    && sdStart (s.part part) % 2 ^ bits x 5 0 == 0) = false)
  simp [hbusy, h1, h2, h3, h4, h5]

theorem State.doShootdown_drops {s : State} {part : Nat} {x : Word} (h : (s.part part).sd.busy = true
      ∨ ¬(bits x 7 6 = 0 ∧ bits x 30 10 = 0 ∧ 12 ≤ bits x 5 0 ∧ bits x 5 0 ≤ 57 ∧ sdStart (s.part part) % 2 ^ bits x 5 0 = 0)) :
    s.doShootdown part x = s := by
  refine if_pos ?_
  show (s.part part).sd.busy = true ∨ (bits x 7 6 == 0 && bits x 30 10 == 0 && decide (12 ≤ bits x 5 0) && decide (bits x 5 0 ≤ 57)
    && sdStart (s.part part) % 2 ^ bits x 5 0 == 0) = false
  refine h.imp id fun hbad => Bool.eq_false_iff.2 fun hok => hbad ?_
  simpa [and_assoc] using hok

/-! Shootdowns (R344, R345). -/

/-- A table changed entry by entry, where the default does not change. -/
theorem tget_map {α : Type} (t : Tbl α) (k : Nat) (d : α) (f : α → α) (hd : f d = d) :
    tget (t.map fun e => (e.1, f e.2)) k d = f (tget t k d) := by
  induction t with
  | nil => exact hd.symm
  | cons e r ih =>
    obtain ⟨j, x⟩ := e
    rw [List.map_cons, tget, tget]
    split
    · rfl
    · exact ih

theorem State.dropTlbs_tlb (s : State) (part c : Nat) (hit : TlbEntry → Bool) (ptr : PtrEntry → Bool) :
    ((s.dropTlbs part hit ptr).core c).tlb = (s.core c).tlb.filter fun e => !(e.part == part && hit e) :=
  congrArg CoreState.tlb (tget_map s.cores c {} (fun x => { x with tlb := x.tlb.filter fun e => !(e.part == part && hit e) }) rfl)

/-- A memory waiter in the range of a shootdown reads again (R345). -/
theorem Shootdown.wakes_eq (d : Shootdown) (y : Slot) :
    d.wakes y = if y.st = .waiting ∧ (y.wait = .mwne ∨ y.wait = .mwgeS ∨ y.wait = .mwgeU) ∧ y.wspace = 0#2
        ∧ (d.all = true ∨ d.stage2 = true ∨ (y.waddr.toNat < d.lo + d.len ∧ d.lo < y.waddr.toNat + 4)) then
      { y with fired := y.watched, due := 0 } else y := by
  have hiff : (y.mwaits && y.wspace == 0#2 && (d.stage2 || d.meets y.waddr.toNat 4)) = true ↔
      y.st = .waiting ∧ (y.wait = .mwne ∨ y.wait = .mwgeS ∨ y.wait = .mwgeU) ∧ y.wspace = 0#2
        ∧ (d.all = true ∨ d.stage2 = true ∨ (y.waddr.toNat < d.lo + d.len ∧ d.lo < y.waddr.toNat + 4)) := by
    simp only [Slot.mwaits, Shootdown.meets, Bool.and_eq_true, Bool.or_eq_true, beq_iff_eq, decide_eq_true_eq]
    tauto
  by_cases h : (y.mwaits && y.wspace == 0#2 && (d.stage2 || d.meets y.waddr.toNat 4)) = true
  · rw [if_pos (hiff.1 h)]
    exact if_pos h
  · rw [if_neg (mt hiff.2 h)]
    exact if_neg h

theorem Shootdown.meets_iff (d : Shootdown) (a n : Nat) : d.meets a n = true ↔ d.all = true ∨ (a < d.lo + d.len ∧ d.lo < a + n) := by
  simp [Shootdown.meets]

/-- The shootdown that a GO begins. -/
def newShootdown (s : State) (start len : Nat) (st2 all : Bool) : Shootdown :=
  { busy := true, lo := start, len := len, stage2 := st2, all := all, mark := s.fresh, at_ := s.fresh }

/-- What the start of a shootdown leaves: the waiters told, the record, and the translations that it does not meet (R345). -/
theorem State.startShootdown_leaves (s : State) (part start len : Nat) (st2 all : Bool) :
    let t := s.startShootdown part start len st2 all
    let d := newShootdown s start len st2 all
    t.groups = updAll (fun g => g.part == part && g.cached)
        (fun g => { g with slot0 := d.wakes g.slot0, slot1 := d.wakes g.slot1, stack := g.stack.map d.wakes }) s.groups
      ∧ (t.part part).sd = d
      ∧ ∀ c, (t.core c).tlb = (s.core c).tlb.filter fun e =>
          !(e.part == part && if st2 then d.meets e.ipa e.size else d.meets e.va e.size) := by
  refine ⟨rfl, ?_, fun c => State.dropTlbs_tlb s part c (fun e =>
    if st2 then (newShootdown s start len st2 all).meets e.ipa e.size else (newShootdown s start len st2 all).meets e.va e.size) fun _ => true⟩
  exact congrArg PartState.sd (State.part_updPart ..)

/-- A legal GO where no shootdown is under way (R344, R345). -/
theorem execShootdownGo_starts {s : State} {part : Nat} {x : Word} (hbusy : (s.part part).sd.busy = false)
    (h : bits x 7 6 = 0 ∧ bits x 30 10 = 0 ∧ 12 ≤ bits x 5 0 ∧ bits x 5 0 ≤ 57 ∧ sdStart (s.part part) % 2 ^ bits x 5 0 = 0) :
    let start := sdStart (s.part part)
    let len := 2 ^ bits x 5 0
    let meets (e : TlbEntry) : Prop :=
      bitOf x 9 = true ∨ (let a := if bitOf x 8 then e.ipa else e.va; a < start + len ∧ start < a + e.size)
    let woken (y : Slot) : Slot :=
      if y.st = .waiting ∧ (y.wait = .mwne ∨ y.wait = .mwgeS ∨ y.wait = .mwgeU) ∧ y.wspace = 0#2
          ∧ (bitOf x 9 = true ∨ bitOf x 8 = true ∨ (y.waddr.toNat < start + len ∧ start < y.waddr.toNat + 4)) then
        { y with fired := y.watched, due := 0 }
      else y
    ∃ t, exec (.shootdownGo part x) s = .next t ∧ t.mem = s.mem
      ∧ t.groups = s.groups.map (fun g => if g.part = part ∧ g.cached = true then
          { g with slot0 := woken g.slot0, slot1 := woken g.slot1, stack := g.stack.map woken } else g)
      ∧ (t.part part).sd = { busy := true, lo := start, len := len, stage2 := bitOf x 8, all := bitOf x 9, mark := s.fresh, at_ := s.fresh }
      ∧ ∀ c e, e ∈ (t.core c).tlb ↔ e ∈ (s.core c).tlb ∧ ¬(e.part = part ∧ meets e) := by
  intro start len meets woken
  obtain ⟨hgroups, hsd, htlb⟩ := s.startShootdown_leaves part start len (bitOf x 8) (bitOf x 9)
  have hwoken : (newShootdown s start len (bitOf x 8) (bitOf x 9)).wakes = woken := funext fun y => Shootdown.wakes_eq ..
  refine ⟨_, congrArg Host.Outcome.next (State.doShootdown_starts hbusy h), ?_, ?_, ?_, fun c e => ?_⟩
  · rw [State.updPart_mem, State.startShootdown_mem]
  · rw [State.updPart_groups, hgroups, hwoken, updAll]
    refine List.map_congr_left fun g _ => ?_
    by_cases hg : g.part = part ∧ g.cached = true
    · rw [if_pos hg, if_pos (by simp [hg])]
    · rw [if_neg hg, if_neg (by simpa using hg)]
  · rw [State.part_updPart]
    exact hsd
  · show e ∈ ((s.startShootdown part start len (bitOf x 8) (bitOf x 9)).core c).tlb ↔ _
    rw [htlb c, List.mem_filter]
    refine and_congr_right fun _ => ?_
    have hmeets : (if bitOf x 8 = true then (newShootdown s start len (bitOf x 8) (bitOf x 9)).meets e.ipa e.size
        else (newShootdown s start len (bitOf x 8) (bitOf x 9)).meets e.va e.size) = true ↔ meets e := by
      have ha : (if bitOf x 8 = true then (newShootdown s start len (bitOf x 8) (bitOf x 9)).meets e.ipa e.size
          else (newShootdown s start len (bitOf x 8) (bitOf x 9)).meets e.va e.size) =
          (newShootdown s start len (bitOf x 8) (bitOf x 9)).meets (if bitOf x 8 then e.ipa else e.va) e.size := by
        split <;> rfl
      rw [ha]
      exact Shootdown.meets_iff ..
    rw [Bool.not_eq_true', Bool.eq_false_iff, ne_eq, Bool.and_eq_true, beq_iff_eq, hmeets]

/-- Settles O46: each store, then what the registers with effects of their own set off. -/
theorem registerEvents : Obligations.RegisterEvents := by
  unfold Obligations.RegisterEvents
  refine ⟨registerStores, fun s core die part r x => ⟨(execMarginWrite_steps s core x).1, (execMarginWrite_steps s core x).2,
    fun _ hok => execHealthWrite_takes hok, fun _ hx => ⟨fun hnow hwas => ?_, fun hnow hwas => ?_, fun hnow hwas => execQuarWrite_releases hx hnow hwas,
      fun hnow hwas hgangs hlaunches => execQuarWrite_takes hx hnow hwas hgangs hlaunches⟩,
    fun _ h1 h2 h3 h4 => combtestStores h1 h2 h3 h4,
    ⟨fun h => congrArg Host.Outcome.next (State.doShootdown_drops h), fun hbusy h => execShootdownGo_starts hbusy h⟩,
    fun hr hzero hidle => ⟨_, rfl, State.writeGraphctl_sets hr hzero hidle⟩⟩⟩
  · obtain ⟨t, ht, hquar, hrest⟩ := execQuarWrite_stays (core := core) hx (hnow.trans hwas.symm)
    rw [if_pos hnow] at hquar
    exact ⟨t, ht, hquar, hrest⟩
  · obtain ⟨t, ht, hquar, hrest⟩ := execQuarWrite_stays (core := core) hx (hnow.trans hwas.symm)
    rw [if_neg (by simp [hnow])] at hquar
    exact ⟨t, ht, hquar, hrest⟩

end Sys2Proof.Machine
end

section
/-! SUPPORT. What system software asks of a partition, and the ends of a trap park (R330 to R332, R344, R345, R351, R364). -/

namespace Sys2Proof.Machine

open Sys2Proof.Claim

/-! What system software asks of a partition (R330, R332, R351, R364). -/

/-- QUIESCE of a partition with no placed gang sets QUIESCE alone (R330). -/
theorem State.doQuiesce_idle {s : State} {part : Nat} (h : ∀ k ∈ s.gangs, k.part = part → k.place ≠ .placed) :
    s.doQuiesce part = s.updPart part fun p => { p with quiesce := true } := by
  have hnone : (s.gangs.filter fun k => k.part == part && k.place == .placed) = [] :=
    List.filter_eq_nil_iff.2 fun k hk hc => by
      rw [Bool.and_eq_true, beq_iff_eq, beq_iff_eq] at hc
      exact h k hk hc.1 hc.2
  show ((s.gangs.filter fun k => k.part == part && k.place == .placed).map (·.id)).foldl State.askEvict _ = _
  rw [hnone]
  rfl

/-- The waits of a machine without groups: there are none. -/
theorem State.endWaits_empty {s : State} (part : Nat) (h : s.groups = []) : s.endWaits part = s := by
  simp only [State.endWaits, h, List.filter_nil, List.map_nil, List.foldl_nil]

/-- The work of a machine without groups, waves, copies and bank commands is its engine commands' alone. -/
theorem State.cancelWork_empty {s : State} (part : Nat) (hg : s.groups = []) (hw : s.waves = []) (hc : s.cpys = []) (hb : s.bcmds = []) :
    (s.cancelWork part).mem = s.mem ∧ (s.cancelWork part).parts = s.parts ∧ (s.cancelWork part).cores = s.cores := by
  have hwaves (ids : List Nat) : (s.dropCmds ids).waves = [] := hw
  have hcpys (ids : List Nat) : (s.dropCmds ids).cpys = [] := hc
  have hbcmds (ids : List Nat) : (s.dropCmds ids).bcmds = [] := hb
  simp only [State.cancelWork, hg, hwaves, hcpys, hbcmds, List.filter_nil, List.map_nil, List.foldl_nil]
  exact ⟨rfl, rfl, rfl⟩

/-- A core whose root is dead and whose translations are gone (R364). -/
def CoreState.rootless (c : CoreState) : CoreState := { c with ptroot := 0#32, tlb := [] }

/-- The cores with dead roots, one after another. -/
def State.rootless (s : State) (cs : List Nat) : State := 
  cs.foldl (fun s c => s.updCore c fun x => { x with ptroot := 0#32, tlb := [] }) s

theorem State.rootless_cons (s : State) (c : Nat) (cs : List Nat) :
    s.rootless (c :: cs) = (s.updCore c CoreState.rootless).rootless cs := rfl

/-- What clearing the roots of cores leaves: everything but the cores. -/
theorem State.rootless_leaves (s : State) (cs : List Nat) :
    (s.rootless cs).mem = s.mem ∧ (s.rootless cs).groups = s.groups ∧ (s.rootless cs).waves = s.waves ∧ (s.rootless cs).cpys = s.cpys
      ∧ (s.rootless cs).bcmds = s.bcmds := by
  induction cs generalizing s with
  | nil => exact ⟨rfl, rfl, rfl, rfl, rfl⟩
  | cons c cs ih => exact ih (s.updCore c CoreState.rootless)

/-- A rootless core stays so. -/
theorem State.core_rootless_stays {s : State} {c : Nat} (cs : List Nat) (h : (s.core c).ptroot = 0#32 ∧ (s.core c).tlb = []) :
    ((s.rootless cs).core c).ptroot = 0#32 ∧ ((s.rootless cs).core c).tlb = [] := by
  induction cs generalizing s with
  | nil => exact h
  | cons d cs ih =>
    rw [State.rootless_cons]
    refine ih ?_
    by_cases hcd : c = d
    · subst hcd
      rw [State.core_updCore]
      exact ⟨rfl, rfl⟩
    · rwa [State.core_updCore_other _ _ _ _ hcd]

/-- Each core of the list has lost its root and its translations. -/
theorem State.core_rootless {s : State} {c : Nat} {cs : List Nat} (hc : c ∈ cs) :
    ((s.rootless cs).core c).ptroot = 0#32 ∧ ((s.rootless cs).core c).tlb = [] := by
  induction cs generalizing s with
  | nil => exact absurd hc List.not_mem_nil
  | cons d cs ih =>
    rw [State.rootless_cons]
    rcases List.mem_cons.1 hc with rfl | hc
    · refine State.core_rootless_stays cs ?_
      rw [State.core_updCore]
      exact ⟨rfl, rfl⟩
    · exact ih hc

theorem State.dropTlbs_ptroot (s : State) (part c : Nat) (hit : TlbEntry → Bool) (ptr : PtrEntry → Bool) :
    ((s.dropTlbs part hit ptr).core c).ptroot = (s.core c).ptroot :=
  (congrArg CoreState.ptroot (tget_map s.cores c {} (fun x => { x with tlb := x.tlb.filter fun e => !(e.part == part && hit e) }) rfl) :)

/-- A shootdown changes no root. -/
theorem State.startShootdown_ptroot (s : State) (part start len c : Nat) (st2 all : Bool) :
    ((s.startShootdown part start len st2 all).core c).ptroot = (s.core c).ptroot :=
  State.dropTlbs_ptroot s part c (fun e =>
    if st2 then (newShootdown s start len st2 all).meets e.ipa e.size else (newShootdown s start len st2 all).meets e.va e.size) fun _ => true

theorem State.startShootdown_bcmds (s : State) (part start len : Nat) (st2 all : Bool) :
    (s.startShootdown part start len st2 all).bcmds = s.bcmds := rfl

/-- A teardown up to its shootdown: dead roots, TORN and TDOWN (R364). -/
def State.tornRoots (s : State) (part : Nat) : State :=
  let s : State := (s.partCores part).foldl (fun s c => s.updCore c fun x => { x with ptroot := 0#32, tlb := [] }) s
  (s.startShootdown part 0 0 false true).updPart part fun p => { p with torn := true, tdown := true }

/-- A teardown's shootdown begun after its cores have lost their roots. -/
def State.tornStart (s : State) (part : Nat) : State := (s.rootless (s.partCores part)).startShootdown part 0 0 false true

theorem State.tornRoots_eq (s : State) (part : Nat) :
    s.tornRoots part = (s.tornStart part).updPart part fun p => { p with torn := true, tdown := true } := rfl

theorem State.tornRoots_leaves (s : State) (part : Nat) :
    let t := s.tornRoots part
    t.mem = s.mem ∧ (t.part part).torn = true ∧ (t.part part).tdown = true ∧ (t.part part).sd.busy = true
      ∧ ∀ c ∈ s.partCores part, (t.core c).ptroot = 0#32 ∧ (t.core c).tlb = [] := by
  obtain ⟨hmem, _⟩ := s.rootless_leaves (s.partCores part)
  obtain ⟨_, hsd, htlb⟩ := (s.rootless (s.partCores part)).startShootdown_leaves part 0 0 false true
  have hcore (c : Nat) : (s.tornRoots part).core c = (s.tornStart part).core c := by
    rw [State.tornRoots_eq, State.core, State.updPart_cores, State.core]
  intro t
  have hpart : t.part part = { (s.tornStart part).part part with torn := true, tdown := true } := by
    rw [show t = _ from State.tornRoots_eq s part, State.part_updPart]
  rw [hpart]
  refine ⟨?_, rfl, rfl, ?_, fun c hc => ?_⟩
  · rw [show t = _ from State.tornRoots_eq s part, State.updPart_mem, State.tornStart, State.startShootdown_mem, hmem]
  · show ((s.tornStart part).part part).sd.busy = true
    rw [State.tornStart, hsd]
    rfl
  · obtain ⟨hroot, hnone⟩ := State.core_rootless (s := s) hc
    rw [show t.core c = _ from hcore c, State.tornStart]
    refine ⟨(State.startShootdown_ptroot ..).trans hroot, (htlb c).trans ?_⟩
    rw [hnone]
    rfl

/-- A launch ended by a teardown (R364). -/
def Launch.tornDown (l : Launch) : Launch := { l with ending := true, status := 6, ranges := [], again := [], waiting := false }

/-- The open launches of a partition ended (R364). -/
def State.endLaunches (s : State) (part : Nat) : State :=
  { s with launches := updAll (fun l => l.part == part && !l.complete) Launch.tornDown s.launches }

theorem State.endLaunches_launches (s : State) (part : Nat) :
    (s.endLaunches part).launches = updAll (fun l => l.part == part && !l.complete) Launch.tornDown s.launches := rfl

theorem State.endLaunches_leaves (s : State) (part : Nat) :
    (s.endLaunches part).mem = s.mem ∧ (∀ p, (s.endLaunches part).part p = s.part p) ∧ ∀ c, (s.endLaunches part).core c = s.core c :=
  ⟨rfl, fun _ => rfl, fun _ => rfl⟩

theorem State.teardownPart_eq (s : State) (part : Nat) :
    s.teardownPart part = (((s.tornRoots part).endWaits part).cancelWork part).endLaunches part := by
  rfl

/-- No open launch of the partition has work left among those torn down. -/
theorem Launch.tornDown_of_mem {part : Nat} {ls : List Launch} {l : Launch}
    (hl : l ∈ updAll (fun l => l.part == part && !l.complete) Launch.tornDown ls) (hp : l.part = part) (ho : l.complete = false) :
    l.ending = true ∧ l.status = 6 ∧ l.ranges = [] ∧ l.again = [] ∧ l.waiting = false := by
  obtain ⟨x, _, hx⟩ := List.mem_map.1 hl
  by_cases hc : (x.part == part && !x.complete) = true
  · rw [if_pos hc] at hx
    rw [← hx]
    exact ⟨rfl, rfl, rfl, rfl, rfl⟩
  · rw [if_neg hc] at hx
    subst hx
    exact absurd (by simp [hp, ho]) hc

/-- After a teardown no open launch of the partition has work left (R364). -/
theorem State.teardownPart_launches (s : State) (part : Nat) {l : Launch} (hl : l ∈ (s.teardownPart part).launches)
    (hp : l.part = part) (ho : l.complete = false) :
    l.ending = true ∧ l.status = 6 ∧ l.ranges = [] ∧ l.again = [] ∧ l.waiting = false := by
  rw [State.teardownPart_eq, State.endLaunches_launches] at hl
  exact Launch.tornDown_of_mem hl hp ho

/-- A teardown of a machine where nothing runs sets the bits, and its cores lose their roots and translations (R364). -/
theorem State.teardownPart_empty {s : State} (part : Nat) (hg : s.groups = []) (hw : s.waves = []) (hc : s.cpys = []) (hb : s.bcmds = []) :
    let t := s.teardownPart part
    (t.part part).torn = true ∧ (t.part part).tdown = true ∧ (t.part part).sd.busy = true ∧ t.mem = s.mem
      ∧ ∀ c, c ∈ s.partCores part → (t.core c).ptroot = 0#32 ∧ (t.core c).tlb = [] := by
  obtain ⟨_, hgroups, hwaves, hcpys, hbcmds⟩ := s.rootless_leaves (s.partCores part)
  have tg : (s.tornRoots part).groups = [] := by
    show updAll _ _ (s.rootless (s.partCores part)).groups = []
    rw [hgroups, hg]
    rfl
  have tw : (s.tornRoots part).waves = [] := by
    show updAll _ _ (s.rootless (s.partCores part)).waves = []
    rw [hwaves, hw]
    rfl
  have tc : (s.tornRoots part).cpys = [] := by
    show updAll _ _ (s.rootless (s.partCores part)).cpys = []
    rw [hcpys, hc]
    rfl
  have tb : (s.tornRoots part).bcmds = [] := by
    rw [State.tornRoots_eq, State.updPart_bcmds, State.tornStart, State.startShootdown_bcmds, hbcmds, hb]
  obtain ⟨kmem, kparts, kcores⟩ := State.cancelWork_empty part tg tw tc tb
  obtain ⟨hmem, htorn, htdown, hbusy, hroots⟩ := s.tornRoots_leaves part
  have hwork : s.teardownPart part = ((s.tornRoots part).cancelWork part).endLaunches part := by
    rw [State.teardownPart_eq, State.endWaits_empty part tg]
  obtain ⟨emem, epart, ecore⟩ := ((s.tornRoots part).cancelWork part).endLaunches_leaves part
  have hpart : ((s.tornRoots part).cancelWork part).part part = (s.tornRoots part).part part := by rw [State.part, kparts, State.part]
  have hcore (c : Nat) : ((s.tornRoots part).cancelWork part).core c = (s.tornRoots part).core c := by
    rw [State.core, kcores, State.core]
  rw [hwork]
  dsimp only
  rw [epart, hpart, emem, kmem]
  refine ⟨htorn, htdown, hbusy, hmem, fun c hc => ?_⟩
  rw [ecore, hcore]
  exact hroots c hc

/-- CLEAR clears TORN, and TDOWN where the teardown is done (R351). -/
theorem State.clearTeardown_part (s : State) (part : Nat) :
    (s.clearTeardown part).part part
      = { s.part part with torn := false, tdown := (s.part part).tdown && !s.tdone part } := State.part_updPart ..

/-- The copies that a settled shootdown leaves (R345). -/
theorem State.mem_dropShared {s : State} {part : Nat} {c : Copy} (h : c ∈ (s.dropShared part).copies) :
    c ∈ s.copies ∧ ¬(c.readShared = true ∧ c.part = part) := by
  obtain ⟨hc, hk⟩ := List.mem_filter.1 h
  refine ⟨hc, fun hn => ?_⟩
  rw [hn.1, hn.2, beq_self_eq_true] at hk
  exact absurd hk (by decide)

/-! A group that leaves its trap park (R26, R327, R331). -/

/-- The size of what a filter keeps grows by no more than the element that the first of a kind became. -/
theorem sum_filter_updFirst_le {α : Type} (p q : α → Bool) (n : α → Nat) (y : α) (xs : List α) :
    (((updFirst p (fun _ => y) xs).filter q).map n).sum ≤ ((xs.filter q).map n).sum + n y := by
  induction xs with
  | nil => exact Nat.zero_le _
  | cons x r ih =>
    by_cases hp : p x = true
    · rw [updFirst, if_pos hp]
      by_cases hy : q y = true <;> by_cases hx : q x = true <;> simp [hy, hx] <;> omega
    · rw [updFirst, if_neg hp]
      by_cases hx : q x = true
      · simpa [List.filter_cons, hx, Nat.add_assoc] using ih
      · simpa [List.filter_cons, hx] using ih

/-- A change of the first of a kind that a filter and a size do not see leaves the list they give. -/
theorem map_filter_updFirst {α β : Type} {p q : α → Bool} {n : α → β} {f : α → α} {xs : List α}
    (hf : ∀ x, xs.find? p = some x → q (f x) = q x ∧ n (f x) = n x) :
    ((updFirst p f xs).filter q).map n = (xs.filter q).map n := by
  induction xs with
  | nil => rfl
  | cons x r ih =>
    by_cases hp : p x = true
    · obtain ⟨hq, hn⟩ := hf x (List.find?_cons_of_pos hp)
      rw [updFirst, if_pos hp, List.filter_cons, List.filter_cons, hq]
      by_cases hx : q x = true <;> simp [hx, hn]
    · rw [updFirst, if_neg hp, List.filter_cons, List.filter_cons]
      have hr := ih fun y hy => hf y ((List.find?_cons_of_neg hp).trans hy)
      by_cases hx : q x = true <;> simp [hx, hr]

/-- A change of a group that keeps its core and its place keeps the residents of every core. -/
theorem State.residents_updGrp {s : State} {u core : Nat} {f : Grp → Grp}
    (hf : ∀ x, s.grp u = some x → (f x).core = x.core ∧ (f x).place = x.place) : (s.updGrp u f).residents core = s.residents core := by
  have hlen := congrArg List.length (map_filter_updFirst (p := fun x => x.uid == u) (q := fun x => x.core == core && x.place == .resident)
    (n := fun _ => ()) (f := f) (xs := s.groups) fun x hx => ⟨by rw [(hf x hx).1, (hf x hx).2], rfl⟩)
  rwa [List.length_map, List.length_map] at hlen

/-- The first of a kind replaced by itself. -/
theorem updFirst_self {α : Type} {p : α → Bool} {xs : List α} {x : α} (h : xs.find? p = some x) : updFirst p (fun _ => x) xs = xs := by
  induction xs with
  | nil => rfl
  | cons y r ih =>
    by_cases hp : p y = true
    · rw [List.find?_cons_of_pos hp, Option.some.injEq] at h
      rw [updFirst, if_pos hp, h]
    · rw [List.find?_cons_of_neg hp] at h
      rw [updFirst, if_neg hp, ih h]

/-- A group with its image read and its lines in the register cache (R26, R28). -/
def fetched (s : State) (g : Grp) : Grp := { unparked s g with cached := true }

/-- What a group read from its image keeps: what no byte holds (R25, R28). -/
theorem fetched_keeps (s : State) (g : Grp) :
    (fetched s g).uid = g.uid ∧ (fetched s g).core = g.core ∧ (fetched s g).place = g.place ∧ (fetched s g).book = g.book
      ∧ (fetched s g).trapSlot = g.trapSlot ∧ (fetched s g).gang = g.gang := by
  unfold fetched unparked
  cases g.cached <;> exact ⟨rfl, rfl, rfl, rfl, rfl, rfl⟩

/-- The image lines of a group fetched: the group is as its image holds it. -/
theorem State.fetchImage_eq {s : State} {u : Nat} {g : Grp} (hg : s.grp u = some g) :
    s.fetchImage u = s.updGrp u fun _ => fetched s g := by
  rw [State.fetchImage, hg]
  dsimp only
  cases hc : g.cached
  · rw [if_neg Bool.false_ne_true]
    simp only [fetched, unparked, hc]
    rfl
  · rw [if_pos rfl]
    have hself : fetched s g = g := by
      simp only [fetched, unparked, hc, if_true]
      rw [← hc]
    rw [hself, State.updGrp, updFirst_self hg]

theorem State.grp_fetchImage {s : State} {u : Nat} {g : Grp} (hg : s.grp u = some g) : (s.fetchImage u).grp u = some (fetched s g) := by
  rw [State.fetchImage_eq hg]
  exact State.grp_updGrp_named hg (fetched_keeps s g).1

/-- The lines in use on a core grow by no more than the group fetched (R26). -/
theorem State.cachedOn_fetchImage {s : State} {u : Nat} {g : Grp} (hg : s.grp u = some g) (core : Nat) :
    (((s.fetchImage u).cachedOn core).map Grp.lines).sum ≤ ((s.cachedOn core).map Grp.lines).sum + g.lines := by
  have hlines : (fetched s g).lines = g.lines := by rw [Grp.lines, (fetched_keeps s g).2.2.2.1, Grp.lines]
  rw [State.fetchImage_eq hg, ← hlines]
  exact sum_filter_updFirst_le ..

theorem State.residents_fetchImage {s : State} {u : Nat} {g : Grp} (hg : s.grp u = some g) (core : Nat) :
    (s.fetchImage u).residents core = s.residents core := by
  obtain ⟨_, hcore, hplace, _⟩ := fetched_keeps s g
  rw [State.fetchImage_eq hg]
  refine State.residents_updGrp fun x hx => ?_
  obtain rfl : g = x := Option.some.inj (hg.symm.trans hx)
  exact ⟨hcore, hplace⟩

/-- No line leaves while those in use fit (R26). -/
theorem State.pushLines_fits {s : State} {core : Nat} (u n : Nat) (h : ((s.cachedOn core).map Grp.lines).sum ≤ Config.regLines) :
    s.pushLines u core (n + 1) = s := by
  rw [State.pushLines]
  exact if_pos h

/-- A group whose image lines are in use at a clock (R26). -/
def Grp.usedAt (g : Grp) (t : Nat) : Grp := { g with used := t }

/-- A group whose lines are in its core's cache brought in again: it is used now, and nothing leaves. -/
theorem State.useImage_cached {s : State} {u : Nat} {g : Grp} (hg : s.grp u = some g) (hc : g.cached = true)
    (hroom : ((s.cachedOn g.core).map Grp.lines).sum ≤ Config.regLines) :
    s.useImage u = s.updGrp u fun x => x.usedAt s.clk := by
  have hfetch : s.fetchImage u = s := by
    rw [State.fetchImage, hg]
    exact if_pos hc
  have hlines : ((s.updGrp u fun x => x.usedAt s.clk).cachedOn g.core).map Grp.lines = (s.cachedOn g.core).map Grp.lines :=
    map_filter_updFirst (f := fun x : Grp => x.usedAt s.clk) fun x _ => ⟨rfl, rfl⟩
  rw [State.useImage, hg]
  dsimp only
  rw [hfetch]
  show (s.updGrp u fun x => x.usedAt s.clk).pushLines u g.core 64 = _
  exact State.pushLines_fits u 63 (by rw [hlines]; exact hroom)

/-- A group that has left its park, issue-resident on its core. -/
def restored (s : State) (g : Grp) : Grp :=
  let x := fetched s g
  { x with used := s.clk, place := .resident, ptsSince := s.clk - x.ptsAcc, ptsAcc := 0 }

theorem State.makeResident_grp {s : State} {u : Nat} {g : Grp} (hg : s.grp u = some g) :
    (s.makeResident u).grp u = some { g with place := .resident, ptsSince := s.clk - g.ptsAcc, ptsAcc := 0 } := by
  rw [State.makeResident, hg]
  exact State.grp_updGrp_named (f := fun x => { x with place := .resident, ptsSince := s.clk - x.ptsAcc, ptsAcc := 0 }) hg rfl

/-- A group that leaves its trap park with its gang on its cores and room there is resident as its image holds it (R327, R331). -/
theorem State.unpark_parked {s : State} {part slot : Nat} {g : Grp} {k : Gang} (h : Parked s part slot g k) :
    (s.unpark g.uid).grp g.uid = some (restored s g) ∧ (s.unpark g.uid).mem = s.mem := by
  obtain ⟨_, hg, hk, hplaced, hfree, hroom⟩ := h
  obtain ⟨huid, hcore, hplace, _⟩ := fetched_keeps s g
  have hf := State.grp_fetchImage hg
  have huse : (s.fetchImage g.uid).useImage g.uid = (s.fetchImage g.uid).updGrp g.uid fun x => x.usedAt s.clk := by
    have hclk : (s.fetchImage g.uid).clk = s.clk := by rw [State.fetchImage_eq hg, State.updGrp_clk]
    rw [← hclk]
    exact State.useImage_cached hf rfl (by rw [hcore]; exact (State.cachedOn_fetchImage hg g.core).trans hroom)
  have hres : ((s.fetchImage g.uid).updGrp g.uid fun x => x.usedAt s.clk).residents g.core < 32 := by
    rw [State.residents_updGrp (f := fun x => x.usedAt s.clk) fun x _ => ⟨rfl, rfl⟩, State.residents_fetchImage hg]
    exact hfree
  have hun : s.unpark g.uid = ((s.fetchImage g.uid).updGrp g.uid fun x => x.usedAt s.clk).makeResident g.uid := by
    rw [State.unpark, hg]
    dsimp only
    rw [hk]
    dsimp only
    rw [if_pos (Or.inl hplaced), huse, if_pos hres]
  rw [hun]
  refine ⟨?_, by rw [State.makeResident_mem, State.updGrp_mem, State.fetchImage_mem]⟩
  have hclk : ((s.fetchImage g.uid).updGrp g.uid fun x => x.usedAt s.clk).clk = s.clk := by
    rw [State.updGrp_clk, State.fetchImage_eq hg, State.updGrp_clk]
  rw [State.makeResident_grp (State.grp_updGrp_named (f := fun x => x.usedAt s.clk) hf rfl), hclk]
  rfl

/-! The three ends of a trap park (R331). -/

/-- A fragment that nothing holds is not released. -/
theorem State.releaseHeld_free {s : State} {u : Nat} {g : Grp} {b : Bool} (hg : s.grp u = some g) (hh : (g.slot b).hold = .none) :
    s.releaseHeld u b = s := by
  rw [State.releaseHeld, hg]
  dsimp only
  rw [hh]

/-- The image of a group on its core is not written again. -/
theorem State.flushImage_resident {s : State} {u : Nat} {g : Grp} (hg : s.grp u = some g) (hp : g.place = .resident) :
    s.flushImage u = s := by
  rw [State.flushImage, hg]
  exact if_neg (by rw [hp]; decide)

/-- A group whose trapped fragment goes on at TRAPPC (R331). -/
def Grp.retried (x : Grp) : Grp :=
  if x.trapDeep then x.updDeep fun y => { y with pc := x.trapPc, hold := .none }
  else (x.updSlot x.trapSlot fun y => { y with pc := x.trapPc, hold := .none }).boundary x.trapSlot

theorem State.parkRetry_eq {s : State} {part slot : Nat} {g : Grp} (h : s.trapParked part slot = some g) :
    s.parkRetry part slot = (((s.unpark g.uid).updGrp g.uid Grp.retried).releaseHeld g.uid (!g.trapSlot)).flushImage g.uid := by
  rw [State.parkRetry, h]
  rfl

theorem State.parkDeliver_eq {s : State} {part slot : Nat} {g : Grp} (h : s.trapParked part slot = some g) :
    s.parkDeliver part slot =
      (let v := (s.unpark g.uid).deliverTrap g.uid
       (if v.handles g.uid g.trapSlot then v else v.releaseHeld g.uid (!g.trapSlot)).flushImage g.uid) := by
  rw [State.parkDeliver, h]

theorem State.parkKill_eq {s : State} {part slot : Nat} {g : Grp} (h : s.trapParked part slot = some g) :
    s.parkKill part slot = State.killGang (s.updLaunch g.launch fun l => if l.status = 0 then { l with status := 7 } else l) g.gang := by
  rw [State.parkKill, h]

/-- A PARK write that names no group parked by a trap is dropped. -/
theorem State.park_none {s : State} {part slot : Nat} (h : s.trapParked part slot = none) :
    s.parkRetry part slot = s ∧ s.parkDeliver part slot = s ∧ s.parkKill part slot = s := by
  refine ⟨?_, ?_, ?_⟩
  · rw [State.parkRetry, h]
  · rw [State.parkDeliver, h]
  · rw [State.parkKill, h]

/-- A store of QUIESCE to the launch unit's control register (R330). -/
theorem State.writeUnit_quiesce {s : State} {part : Nat} (h : (s.part part).quiesce = false) : s.writeUnit part 0x18 1#32 = s.doQuiesce part := by
  have hbits : bits 1#32 31 2 = 0 ∧ bitOf 1#32 0 = true ∧ bitOf 1#32 1 = false := by decide
  simp only [State.writeUnit, hbits, h, if_true, Bool.false_eq_true, if_false]

section
variable {s : State} {part slot : Nat} {g : Grp} {k : Gang}

theorem restored_trapSlot (s : State) (g : Grp) : (restored s g).trapSlot = g.trapSlot := (fetched_keeps s g).2.2.2.2.1

theorem restored_uid (s : State) (g : Grp) : (restored s g).uid = g.uid := (fetched_keeps s g).1

/-- What a group that has left its park has of its image. -/
theorem restored_image (s : State) (g : Grp) :
    (∀ b, (restored s g).slot b = (unparked s g).slot b) ∧ (restored s g).stack = (unparked s g).stack
      ∧ (restored s g).trapPc = (unparked s g).trapPc ∧ (restored s g).trapInfo = (unparked s g).trapInfo
      ∧ (restored s g).book = (unparked s g).book := ⟨fun _ => rfl, rfl, rfl, rfl, rfl⟩

/-- A fragment that waits in its slot for the end of the park does not stand on the stack. -/
theorem restored_shallow (hhold : ((unparked s g).slot g.trapSlot).hold = .trapPark) : (restored s g).trapDeep = false := by
  rw [Grp.trapDeep, restored_trapSlot, (restored_image s g).1, hhold]
  rfl

theorem restored_deep (hhold : ((unparked s g).slot g.trapSlot).hold ≠ .trapPark) (hstack : ∃ y ∈ (unparked s g).stack, y.hold = .trapPark) :
    (restored s g).trapDeep = true := by
  rw [Grp.trapDeep, restored_trapSlot, (restored_image s g).1, (restored_image s g).2.1, Bool.and_eq_true, List.any_eq_true]
  obtain ⟨y, hy, hyh⟩ := hstack
  exact ⟨bne_iff_ne.2 hhold, y, hy, beq_iff_eq.2 hyh⟩

/-- A resident group whose other fragment nothing holds is as its end of the park leaves it. -/
theorem State.park_finish {v : State} {u : Nat} {h : Grp} {b : Bool} (hg : v.grp u = some h) (hp : h.place = .resident)
    (hb : (h.slot b).hold = .none) : (v.releaseHeld u b).flushImage u = v := by
  rw [State.releaseHeld_free hg hb, State.flushImage_resident hg hp]

/-- A retry where the trapped fragment is in its slot (R331). -/
theorem State.parkRetry_shallow (hp : Parked s part slot g k) (hhold : ((unparked s g).slot g.trapSlot).hold = .trapPark)
    (hfree : ((unparked s g).slot (!g.trapSlot)).hold = .none) (hgo : GoesOn (unparked s g) g.trapSlot (unparked s g).trapPc) :
    (s.parkRetry part slot).mem = s.mem ∧ (s.parkRetry part slot).grp g.uid
      = some ((restored s g).updSlot g.trapSlot fun y => { y with pc := (unparked s g).trapPc, hold := .none }) := by
  obtain ⟨hun, hmem⟩ := State.unpark_parked hp
  have hret : (restored s g).retried = (restored s g).updSlot g.trapSlot fun y => { y with pc := (unparked s g).trapPc, hold := .none } := by
    rw [Grp.retried, restored_shallow hhold, if_neg Bool.false_ne_true, restored_trapSlot]
    refine Grp.boundary_eq_self ?_ ?_
    · rw [Grp.slot_updSlot]
      rcases hgo.away with hj | hj | hj
      · simp [Slot.atEnd, (restored_image s g).1, hj]
      · simp [Slot.atEnd, (restored_image s g).1, (restored_image s g).2.2.1, hj]
      · simp [Slot.atEnd, (restored_image s g).1, hj]
    · rw [Grp.slot_updSlot_other]
      exact hgo.other
  have hgrp : ((s.unpark g.uid).updGrp g.uid Grp.retried).grp g.uid = some (restored s g).retried :=
    State.grp_updGrp_named hun (by rw [hret, Grp.updSlot_uid])
  rw [State.parkRetry_eq hp.found]
  rw [hret] at hgrp
  rw [State.park_finish hgrp (Grp.updSlot_place ..) (by rw [Grp.slot_updSlot_other]; exact hfree)]
  exact ⟨hmem, hgrp⟩

/-- Delivery where the trapped fragment is in its slot and no handler runs in the other (R308, R331). -/
theorem State.parkDeliver_shallow (hp : Parked s part slot g k) (hhold : ((unparked s g).slot g.trapSlot).hold = .trapPark)
    (hother : ((unparked s g).slot (!g.trapSlot)).handler = false) (hbook : (unparked s g).book.handler ≠ Config.noJoin) :
    (s.parkDeliver part slot).mem = s.mem ∧ (s.parkDeliver part slot).grp g.uid
      = some (handledGrp (restored s g) g.trapSlot (unparked s g).trapInfo (unparked s g).trapPc) := by
  obtain ⟨hun, hmem⟩ := State.unpark_parked hp
  have hdel : (s.unpark g.uid).deliverTrap g.uid = (s.unpark g.uid).handlerStep g.uid g.trapSlot (bits (restored s g).trapInfo 31 26)
      (restored s g).trapInfo (restored s g).trapPc := by
    rw [State.deliverTrap, hun]
    dsimp only
    rw [restored_shallow hhold, Bool.false_and, if_neg Bool.false_ne_true, restored_trapSlot]
  obtain ⟨hgrp, hstep⟩ := State.handlerStep_grp (i := g.trapSlot) (c := bits (restored s g).trapInfo 31 26) (info := (restored s g).trapInfo)
    (pc := (restored s g).trapPc) hun hbook hother
  have hfields := handledGrp_fields (restored s g) g.trapSlot (restored s g).trapInfo (restored s g).trapPc
  have hhandles : ((s.unpark g.uid).deliverTrap g.uid).handles g.uid g.trapSlot = true := by
    rw [State.handles, hdel, hgrp, Option.any_some, hfields.2.2.2.1]
  have hplace : (handledGrp (restored s g) g.trapSlot (restored s g).trapInfo (restored s g).trapPc).place = .resident := by
    unfold handledGrp Grp.enterHandler
    exact Grp.updSlot_place ..
  rw [State.parkDeliver_eq hp.found]
  dsimp only
  rw [if_pos hhandles, hdel, State.flushImage_resident hgrp hplace]
  exact ⟨hstep.trans hmem, hgrp⟩

/-- A group whose trapped fragment on the stack goes on at TRAPPC, or takes its trap there. -/
def Grp.deepHeld (x : Grp) (hold : Hold) : Grp := x.updDeep fun y => { y with pc := x.trapPc, hold := hold }

/-- A trapped fragment on the stack that an end of the park reaches: the group is resident, and its slots are as its image holds them. -/
theorem State.park_deep {v : State} {f : Grp → Grp} {hold : Hold} (hun : (s.unpark g.uid).grp g.uid = some (restored s g))
    (hv : v = (s.unpark g.uid).updGrp g.uid f) (hf : f (restored s g) = (restored s g).deepHeld hold) :
    v.grp g.uid = some ((restored s g).deepHeld hold) := by
  rw [hv, ← hf]
  exact State.grp_updGrp_named hun (by rw [hf]; rfl)

/-- A retry where the trapped fragment stands on the stack (R14, R331). -/
theorem State.parkRetry_deep (hp : Parked s part slot g k) (hhold : ((unparked s g).slot g.trapSlot).hold ≠ .trapPark)
    (hstack : ∃ y ∈ (unparked s g).stack, y.hold = .trapPark) (hfree : ((unparked s g).slot (!g.trapSlot)).hold = .none) :
    (s.parkRetry part slot).mem = s.mem ∧ (s.parkRetry part slot).grp g.uid = some ((restored s g).deepHeld .none) := by
  obtain ⟨hun, hmem⟩ := State.unpark_parked hp
  have hgrp : ((s.unpark g.uid).updGrp g.uid Grp.retried).grp g.uid = some ((restored s g).deepHeld .none) :=
    State.park_deep hun rfl (by rw [Grp.retried, if_pos (restored_deep hhold hstack), Grp.deepHeld])
  rw [State.parkRetry_eq hp.found, State.park_finish hgrp rfl hfree]
  exact ⟨hmem, hgrp⟩

/-- Delivery where the trapped fragment stands on the stack: it takes the trap when it is back in a slot (R308, R331). -/
theorem State.parkDeliver_deep (hp : Parked s part slot g k) (hhold : ((unparked s g).slot g.trapSlot).hold ≠ .trapPark)
    (hstack : ∃ y ∈ (unparked s g).stack, y.hold = .trapPark) (hfree : ((unparked s g).slot (!g.trapSlot)).hold = .none)
    (hbook : (unparked s g).book.handler ≠ Config.noJoin) :
    (s.parkDeliver part slot).mem = s.mem
      ∧ (s.parkDeliver part slot).grp g.uid = some ((restored s g).deepHeld (.handlerPend (unparked s g).trapInfo)) := by
  obtain ⟨hun, hmem⟩ := State.unpark_parked hp
  have hdel : (s.unpark g.uid).deliverTrap g.uid = (s.unpark g.uid).updGrp g.uid fun x => x.deepHeld (.handlerPend x.trapInfo) := by
    rw [State.deliverTrap, hun]
    dsimp only
    rw [restored_deep hhold hstack, Bool.true_and]
    exact if_pos (bne_iff_ne.2 hbook)
  have hgrp : ((s.unpark g.uid).deliverTrap g.uid).grp g.uid = some ((restored s g).deepHeld (.handlerPend (unparked s g).trapInfo)) :=
    State.park_deep hun hdel rfl
  rw [State.parkDeliver_eq hp.found]
  dsimp only
  split
  · rw [State.flushImage_resident hgrp rfl]
    exact ⟨by rw [hdel, State.updGrp_mem, hmem], hgrp⟩
  · rw [State.park_finish hgrp rfl hfree]
    exact ⟨by rw [hdel, State.updGrp_mem, hmem], hgrp⟩

/-- The stack of a group whose trapped fragment stands on it. -/
theorem deepHeld_stack (x : Grp) (hold : Hold) :
    (x.deepHeld hold).stack = x.stack.map fun y => if y.hold = .trapPark then { y with pc := x.trapPc, hold := hold } else y := by
  show x.stack.map (fun y => if (y.hold == .trapPark) = true then _ else y) = _
  simp only [beq_iff_eq]

end

/-- Settles O47, clause by clause: QUIESCE and CLEAR by their definitions, the teardown of an empty machine through its dead roots, and the
ends of a park through the group that its image gives. -/
theorem partitionEvents : Obligations.PartitionEvents := by
  intro s part slot g
  refine ⟨rfl, rfl, fun h => ⟨_, congrArg Host.Outcome.next (State.doQuiesce_idle h), ?_, rfl, rfl, rfl, rfl⟩, fun h => congrArg Host.Outcome.next (if_pos h),
    fun h => congrArg Host.Outcome.next (if_neg (ne_true_of_eq_false h)), rfl, ⟨_, rfl, fun l hl hp ho => State.teardownPart_launches s part hl hp ho⟩,
    fun hg hw hc hb => ⟨_, rfl, State.teardownPart_empty part hg hw hc hb⟩, ⟨_, rfl, ?_, fun h => ?_, rfl, rfl⟩,
    fun h => ⟨_, if_pos h, ?_, rfl, fun c hc => State.mem_dropShared hc⟩, fun h => if_neg (ne_true_of_eq_false h), ?_, ?_, ?_, ?_, ?_, ?_, ?_, ?_, ?_⟩
  · rw [State.part_updPart]
  · rw [State.clearTeardown_part]
  · rw [State.clearTeardown_part, h]
    exact Bool.and_false _
  · rw [State.part_updPart]
  · intro k hp x hhold hfree hgo
    obtain ⟨hmem, hgrp⟩ := State.parkRetry_shallow hp hhold hfree hgo
    exact ⟨_, _, rfl, hmem, hgrp, Grp.updSlot_place .., by cases g.trapSlot <;> rfl, Grp.slot_updSlot .., Grp.slot_updSlot_other ..,
      Grp.updSlot_s .., Grp.updSlot_v .., Grp.updSlot_p .., Grp.updSlot_stack ..⟩
  · intro k hp x hhold hother hbook
    obtain ⟨hmem, hgrp⟩ := State.parkDeliver_shallow hp hhold hother hbook
    obtain ⟨hinfo, hpc, hmode, hslot, hslot', hv, hs, hpr, _⟩ := handledGrp_fields (restored s g) g.trapSlot x.trapInfo x.trapPc
    exact ⟨_, _, rfl, hmem, hgrp, by unfold handledGrp Grp.enterHandler; exact Grp.updSlot_place .., hslot, hslot', hmode, hinfo, hpc, hs, hv, hpr⟩
  · intro k hp x deep hhold hstack hfree
    refine ⟨?_, fun hbook => ?_⟩
    · obtain ⟨hmem, hgrp⟩ := State.parkRetry_deep hp hhold hstack hfree
      exact ⟨_, _, rfl, hmem, hgrp, rfl, rfl, rfl, deepHeld_stack ..⟩
    · obtain ⟨hmem, hgrp⟩ := State.parkDeliver_deep hp hhold hstack hfree hbook
      exact ⟨_, _, rfl, hmem, hgrp, rfl, rfl, rfl, deepHeld_stack ..⟩
  · exact fun h => congrArg Host.Outcome.next (State.parkDeliver_eq h)
  · exact fun h => congrArg Host.Outcome.next (State.parkKill_eq h)
  · intro h
    obtain ⟨hr, hd, hk⟩ := State.park_none h
    exact ⟨congrArg Host.Outcome.next hr, congrArg Host.Outcome.next hd, congrArg Host.Outcome.next hk⟩
  · exact fun h => congrArg Host.Outcome.next (State.writeUnit_quiesce h)
  · exact fun x hx => congrArg Host.Outcome.next (if_pos hx)
  · rfl

end Sys2Proof.Machine
end

section
/-! SUPPORT. Waves: bindings, arrivals, starts, rounds, messages, weight and collections (R261 to R289). -/

namespace Sys2Proof.Machine

open Sys2Proof.Claim

/-! Waves and what their updates leave (R261 to R289). -/

theorem State.wave_id {s : State} {k : Nat} {w : Wave} (h : s.wave k = some w) : w.id = k := by simpa using List.find?_some h

theorem State.wave_updWave {s : State} {k : Nat} {w : Wave} {f : Wave → Wave} (h : s.wave k = some w) (hf : (f w).id = w.id) :
    (s.updWave k f).wave k = some (f w) :=
  find_updFirst (by rw [beq_iff_eq, hf, State.wave_id h]) h

theorem State.updRec_waves (s : State) (w : Wave) (f : WaveRec → WaveRec) : (s.updRec w f).waves = s.waves := rfl

theorem State.updRec_wave (s : State) (w : Wave) (f : WaveRec → WaveRec) (k : Nat) : (s.updRec w f).wave k = s.wave k := rfl

theorem State.updLaunch_wave (s : State) (j : Nat) (f : Launch → Launch) (k : Nat) : (s.updLaunch j f).wave k = s.wave k := rfl

theorem State.updRec_marks (s : State) (w : Wave) (f : WaveRec → WaveRec) (pa : Nat) : (s.updRec w f).marks pa = s.marks pa := rfl

/-- A wave filtered out is found no more. -/
theorem State.wave_filtered (s : State) (k : Nat) : ({ s with waves := s.waves.filter fun x => x.id != k } : State).wave k = none :=
  List.find?_eq_none.2 fun x hx h => by
    have hne := (List.mem_filter.1 hx).2
    rw [beq_iff_eq.1 h] at hne
    exact absurd hne (by simp)

/-- An end of waits changes no wave, no launch and no partition. -/
theorem State.wakeWaits_wave (s : State) (k : Nat) : s.wakeWaits.wave k = s.wave k := by rw [State.wave, s.wakeWaits_onlyWakes.waves, State.wave]

theorem State.wakeWaits_part (s : State) (p : Nat) : s.wakeWaits.part p = s.part p := by rw [State.part, s.wakeWaits_onlyWakes.parts, State.part]

theorem State.wakeWaits_launch (s : State) (k : Nat) : s.wakeWaits.launch k = s.launch k := by
  rw [State.launch, s.wakeWaits_onlyWakes.launches, State.launch]

/-! A binding, and a command that arrives (R261 to R263). -/

/-- What a gbind makes of its graph's binding. -/
def PartState.bound (p : PartState) (w : Wave) : PartState :=
  { p with graphs := match w.bind with | some g => tset p.graphs w.graph g | none => terase p.graphs w.graph }

theorem PartState.bound_graphs (p : PartState) (w : Wave) : tfind (p.bound w).graphs w.graph = w.bind := by
  unfold PartState.bound
  cases w.bind with
  | none => exact tfind_terase_same ..
  | some g => exact tfind_tset_same ..

/-- A binding applied and its command gone (R261). -/
def State.bindGraph (s : State) (w : Wave) : State :=
  let t : State := (s.updPart w.part fun p => p.bound w).ackSide w.part w.imgSlot w.ord 1
  { t with waves := t.waves.filter fun x => x.id != w.id }

theorem State.bindGraph_leaves (s : State) (w : Wave) :
    (s.bindGraph w).mem = s.mem ∧ (s.bindGraph w).groups = s.groups ∧ (s.bindGraph w).part w.part = (s.part w.part).bound w := by
  refine ⟨by simp [State.bindGraph], rfl, ?_⟩
  show ((s.updPart w.part fun p => p.bound w).part w.part) = _
  rw [State.part_updPart]

theorem execGbindApply_eq {s : State} {k : Nat} {w : Wave} (hw : s.wave k = some w) (hk : w.kind = .gbind) (hst : w.st = .path)
    (hb : s.behind w = false) (hd : (s.die (w.ctrl / 8)).failed = false) : execGbindApply k s = .next (s.bindGraph w).wakeWaits := by
  have hcond : ¬(w.kind != .gbind || w.st != .path || s.behind w || (s.die (w.ctrl / 8)).failed) = true := by simp [hk, hst, hb, hd]
  rw [execGbindApply, hw]
  dsimp only
  rw [if_neg hcond, State.bindGraph, State.wave_id hw]
  rfl

/-- A gbind acts at its controller: its graph is bound as it says (R261). -/
theorem execGbindApply_binds {s : State} {k : Nat} {w : Wave} (hw : s.wave k = some w) (hk : w.kind = .gbind) (hst : w.st = .path)
    (hb : s.behind w = false) (hd : (s.die (w.ctrl / 8)).failed = false) :
    ∃ t, execGbindApply k s = .next t ∧ (AllCached s → t.mem = s.mem) ∧ tfind (t.part w.part).graphs w.graph = w.bind := by
  obtain ⟨hmem, hgroups, hpart⟩ := s.bindGraph_leaves w
  refine ⟨_, execGbindApply_eq hw hk hst hb hd, fun h => ?_, ?_⟩
  · exact (StaysCached.wakeWaits (fun g hg => h g (hgroups ▸ hg))).mem.trans hmem
  · rw [State.wakeWaits_part, hpart, PartState.bound_graphs]

/-- A wave at its controller with the binding that stands there (R262). -/
def Wave.arrived (x : Wave) (bind : Option Graph) (seq : Nat) : Wave := { x with st := .queued, bind := bind, nograph := bind.isNone, seq := seq }

/-- A launch whose tag counts one command more, with the record of it (R263, R285). -/
def Launch.counted (l : Launch) (tag : Nat) (r : WaveRec) : Launch :=
  { l with tags := tset l.tags tag { tget l.tags tag {} with count := (tget l.tags tag {}).count + 1, record := r } }

/-- A command at its controller, counted at its tag. -/
def State.waveArrived (s : State) (k : Nat) (w : Wave) (r : WaveRec) : State :=
  (({ s with fresh := s.fresh + 1 } : State).updWave k fun x => x.arrived (tfind (s.part w.part).graphs w.graph) s.fresh).updLaunch w.launch
    fun l => l.counted w.tag r

theorem State.waveArrived_leaves (s : State) (k : Nat) (w : Wave) (r : WaveRec) :
    (s.waveArrived k w r).mem = s.mem ∧ (s.waveArrived k w r).groups = s.groups := ⟨rfl, rfl⟩

theorem execWaveArrival_eq {s : State} {k : Nat} {w : Wave} (hw : s.wave k = some w) (hk : w.kind ≠ .gbind) (hst : w.st = .path)
    (hb : s.behind w = false) (hd : (s.die (w.ctrl / 8)).failed = false)
    (hq : (s.waves.filter fun x => x.ctrl == w.ctrl && x.st == .queued).length < 16) :
    ∃ r, execWaveArrival k s = .next (s.waveArrived k w r).wakeWaits := by
  have hcond : ¬(w.kind == .gbind || w.st != .path || s.behind w || (s.die (w.ctrl / 8)).failed
      || decide (16 ≤ (s.waves.filter fun x => x.ctrl == w.ctrl && x.st == .queued).length)) = true := by
    simp [hk, hst, hb, hd]
    exact hq
  refine ⟨{ command := w.kind.code, graph := w.graph, st := 1, wave := k, nograph := (tfind (s.part w.part).graphs w.graph).isNone }, ?_⟩
  rw [execWaveArrival, hw]
  dsimp only
  rw [if_neg hcond]
  rfl

/-- A command that arrives is queued with the binding that stands (R262). -/
theorem execWaveArrival_queues {s : State} {k : Nat} {w : Wave} (hw : s.wave k = some w) (hk : w.kind ≠ .gbind) (hst : w.st = .path)
    (hb : s.behind w = false) (hd : (s.die (w.ctrl / 8)).failed = false)
    (hq : (s.waves.filter fun x => x.ctrl == w.ctrl && x.st == .queued).length < 16) :
    ∃ t, execWaveArrival k s = .next t ∧ (AllCached s → t.mem = s.mem)
      ∧ ∃ x, t.wave k = some x ∧ x.st = .queued ∧ x.bind = tfind (s.part w.part).graphs w.graph := by
  obtain ⟨r, heq⟩ := execWaveArrival_eq hw hk hst hb hd hq
  obtain ⟨hmem, hgroups⟩ := s.waveArrived_leaves k w r
  refine ⟨_, heq, fun h => (StaysCached.wakeWaits fun g hg => h g (hgroups ▸ hg)).mem.trans hmem, w.arrived (tfind (s.part w.part).graphs w.graph) s.fresh, ?_, rfl, rfl⟩
  rw [State.wakeWaits_wave, State.waveArrived, State.updLaunch_wave]
  exact State.wave_updWave (s := { s with fresh := s.fresh + 1 }) (f := fun x => x.arrived (tfind (s.part w.part).graphs w.graph) s.fresh) hw rfl

/-! A wave that starts, and its rounds (R262, R270, R273, R280). -/

/-- A wave that runs from now on (R273). -/
def Wave.runFrom (x : Wave) (now t0 : Nat) : Wave := { x with st := .running, start := now, time := max x.time t0 }

/-- A gprop before its first round (R270). -/
def Wave.firstRound (x : Wave) : Wave := { x with go := true, round := 1, chainOf := [] }

/-- The time after the waves of its graph ordered before it (R280). -/
def State.graphTime (s : State) (w : Wave) : Nat := tget (s.part w.part).waveTimes w.graph 0 + 1

/-- A queued wave set running (R262). -/
def State.begun (s : State) (w : Wave) : State :=
  (s.updWave w.id fun x => x.runFrom s.clk (s.graphTime w)).updRec w fun r => { r with st := 2 }

theorem State.begun_leaves {s : State} {k : Nat} {w : Wave} (hw : s.wave k = some w) :
    (s.begun w).wave k = some (w.runFrom s.clk (s.graphTime w)) ∧ (s.begun w).mem = s.mem := by
  refine ⟨?_, by simp [State.begun]⟩
  rw [State.begun, State.updRec_wave, State.wave_id hw]
  exact State.wave_updWave (f := fun x => x.runFrom s.clk (s.graphTime w)) hw rfl

section
variable {s : State} {k : Nat} {w : Wave}

/-- A queued wave with no rival and a free place passes the guards of its start. -/
theorem waveStart_passes (hst : w.st = .queued) (hfree : (s.waves.filter fun x => x.ctrl == w.ctrl && x.st == .running).length < 4) :
    ¬(w.st == .running && w.go) = true ∧ ¬(w.st != .queued) = true
      ∧ ¬(decide (4 ≤ (s.waves.filter fun x => x.ctrl == w.ctrl && x.st == .running).length)
        || !([] : List Wave).all fun e => w.chains e && e.st == .running) = true := by
  refine ⟨by simp [hst], by simp [hst], ?_⟩
  rw [List.all_nil, Bool.not_true, Bool.or_false, decide_eq_true_eq]
  exact Nat.not_le.2 hfree

/-- A wave of an unbound graph ends at once (R262). -/
theorem execWaveStart_unbound (hw : s.wave k = some w) (hst : w.st = .queued) (hno : w.nograph = true)
    (hfree : (s.waves.filter fun x => x.ctrl == w.ctrl && x.st == .running).length < 4) (hr : s.rivals w = []) :
    execWaveStart k s = .next (s.endWave k) := by
  obtain ⟨hrun, hq, hplace⟩ := waveStart_passes (s := s) hst hfree
  rw [execWaveStart, hw]
  dsimp only
  rw [if_neg hrun, if_neg hq, hr, List.filter_nil, if_neg hplace, if_pos hno]

/-- A gprop of a bound graph starts with its first round (R270). -/
theorem execWaveStart_gprop (hw : s.wave k = some w) (hst : w.st = .queued) (hno : w.nograph = false)
    (hfree : (s.waves.filter fun x => x.ctrl == w.ctrl && x.st == .running).length < 4) (hr : s.rivals w = []) (hk : w.kind = .gprop) :
    execWaveStart k s = .next (((s.begun w).updWave k Wave.firstRound).tryRound (w.runFrom s.clk (s.graphTime w)).firstRound) := by
  obtain ⟨hrun, hq, hplace⟩ := waveStart_passes (s := s) hst hfree
  have hx : ((s.begun w).updWave k Wave.firstRound).wave k = some (w.runFrom s.clk (s.graphTime w)).firstRound :=
    State.wave_updWave (State.begun_leaves hw).1 rfl
  have hbegun : (((s.updWave k fun x => x.runFrom s.clk (s.graphTime w)).updRec w fun r => { r with st := 2 }).updWave k Wave.firstRound).wave k
      = some (w.runFrom s.clk (s.graphTime w)).firstRound := by
    rw [State.begun, State.wave_id hw] at hx
    exact hx
  rw [execWaveStart, hw]
  dsimp only
  rw [if_neg hrun, if_neg hq, hr, List.filter_nil, if_neg hplace, if_neg (ne_true_of_eq_false hno), hk, State.begun, State.wave_id hw]
  show (match (((s.updWave k fun x => x.runFrom s.clk (s.graphTime w)).updRec w fun r => { r with st := 2 }).updWave k Wave.firstRound).wave k with
    | some x => _
    | none => _) = _
  rw [hbegun]
  rfl

/-- The nodes that a wave of another kind than gprop walks: a collection those with its mark, at most its capacity (R273, R277). -/
def State.walked (s : State) (w : Wave) (all : List (Nat × Nat)) : List Nat :=
  if w.kind = .gcoll then ((all.filter fun x => bitOf (s.marks x.2) w.sel).map (·.1)).take w.cap else all.map (·.1)

/-- A wave with its nodes and the weight issued for them (R273). -/
def Wave.withNodes (x : Wave) (ns : List Nat) (units : Tbl Nat) : Wave := { x with entries := ns, issued := Config.weightUnit, units := units }

/-- A wave of another kind starts with the nodes it walks. -/
theorem execWaveStart_walks (hw : s.wave k = some w) (hst : w.st = .queued) (hno : w.nograph = false)
    (hfree : (s.waves.filter fun x => x.ctrl == w.ctrl && x.st == .running).length < 4) (hr : s.rivals w = []) (hk : w.kind ≠ .gprop)
    {all : List (Nat × Nat)} (hall : s.nodePas w (List.range w.nodes) = .ok all) :
    ∃ f, execWaveStart k s = .next (((s.begun w).updWave k fun x =>
      x.withNodes (s.walked w all) (shares Config.weightUnit (s.waveBanks w))).updRec w f) := by
  obtain ⟨hrun, hq, hplace⟩ := waveStart_passes (s := s) hst hfree
  refine ⟨fun r => if w.kind = .gcoll then
    { r with collected := ((all.filter fun x => bitOf (s.marks x.2) w.sel).map (·.1)).length % 2 ^ 40
             ovf := decide (w.cap < ((all.filter fun x => bitOf (s.marks x.2) w.sel).map (·.1)).length) } else r, ?_⟩
  rw [execWaveStart, hw]
  dsimp only
  rw [if_neg hrun, if_neg hq, hr, List.filter_nil, if_neg hplace, if_neg (ne_true_of_eq_false hno), hall, State.begun, State.wave_id hw]
  split
  · next h => exact absurd h hk
  · rfl

/-- A wave whose page list is stale waits (R250). -/
theorem execWaveStart_stale (hw : s.wave k = some w) (hst : w.st = .queued) (hno : w.nograph = false)
    (hfree : (s.waves.filter fun x => x.ctrl == w.ctrl && x.st == .running).length < 4) (hr : s.rivals w = []) (hk : w.kind ≠ .gprop)
    (hstale : s.nodePas w (List.range w.nodes) = .error .stale) : execWaveStart k s = .next s := by
  obtain ⟨hrun, hq, hplace⟩ := waveStart_passes (s := s) hst hfree
  rw [execWaveStart, hw]
  dsimp only
  rw [if_neg hrun, if_neg hq, hr, List.filter_nil, if_neg hplace, if_neg (ne_true_of_eq_false hno), hstale]
  split
  · next h => exact absurd h hk
  · rfl

/-- What a wave that starts with its nodes has (R273, R277). -/
theorem execWaveStart_walking (hw : s.wave k = some w) (hst : w.st = .queued) (hno : w.nograph = false)
    (hfree : (s.waves.filter fun x => x.ctrl == w.ctrl && x.st == .running).length < 4) (hr : s.rivals w = []) (hk : w.kind ≠ .gprop)
    {all : List (Nat × Nat)} (hall : s.nodePas w (List.range w.nodes) = .ok all) :
    ∃ t x, execWaveStart k s = .next t ∧ t.wave k = some x ∧ x.st = .running ∧ x.start = s.clk ∧ x.time = max w.time (s.graphTime w)
      ∧ x.entries = s.walked w all ∧ x.issued = 2 ^ 63 ∧ t.mem = s.mem := by
  obtain ⟨f, heq⟩ := execWaveStart_walks hw hst hno hfree hr hk hall
  obtain ⟨hbegun, hmem⟩ := State.begun_leaves hw
  refine ⟨_, (w.runFrom s.clk (s.graphTime w)).withNodes (s.walked w all) (shares Config.weightUnit (s.waveBanks w)), heq, ?_, rfl, rfl, rfl, rfl, rfl, ?_⟩
  · rw [State.updRec_wave]
    exact State.wave_updWave (f := fun x => x.withNodes (s.walked w all) (shares Config.weightUnit (s.waveBanks w))) hbegun rfl
  · rw [State.updRec_mem, State.updWave_mem, hmem]

/-- What a gprop that starts has (R270). -/
theorem execWaveStart_propagating (hw : s.wave k = some w) (hst : w.st = .queued) (hno : w.nograph = false)
    (hfree : (s.waves.filter fun x => x.ctrl == w.ctrl && x.st == .running).length < 4) (hr : s.rivals w = []) (hk : w.kind = .gprop) :
    ∃ (t : State) (x : Wave), execWaveStart k s = .next (t.tryRound x) ∧ t.wave k = some x ∧ x.st = .running ∧ x.start = s.clk
      ∧ x.time = max w.time (s.graphTime w) ∧ x.go = true ∧ x.round = 1 ∧ x.chainOf = [] ∧ x.entries = w.entries ∧ t.mem = s.mem := by
  obtain ⟨hbegun, hmem⟩ := State.begun_leaves hw
  exact ⟨_, _, execWaveStart_gprop hw hst hno hfree hr hk, State.wave_updWave hbegun rfl, rfl, rfl, rfl, rfl, rfl, rfl, rfl,
    (State.updWave_mem ..).trans hmem⟩

/-- A running gprop whose round is to begin and that follows no wave begins it. -/
theorem execWaveStart_round (hw : s.wave k = some w) (hst : w.st = .running) (hgo : w.go = true) (hc : w.chainOf = []) :
    execWaveStart k s = .next (s.tryRound w) := by
  have hrun : (w.st == .running && w.go) = true := by simp [hst, hgo]
  rw [execWaveStart, hw]
  dsimp only
  rw [if_pos hrun, hc, List.any_nil, if_neg Bool.false_ne_true, List.isEmpty_nil, if_pos rfl]

/-- A round begins with its nodes (R270, R273). -/
theorem State.tryRound_begins (hw : s.wave k = some w) {ns : List (Nat × Nat)} (hn : s.roundNodes w = .ok ns) :
    ∃ x, (s.tryRound w).wave k = some x ∧ x.go = false ∧ x.entries = ns.map (·.1) ∧ x.frontier = [] ∧ x.issued = w.issued + 2 ^ 63
      ∧ x.round = w.round ∧ (s.tryRound w).mem = s.mem := by
  have heq : s.tryRound w = s.beginRound w (ns.map (·.1)) := by rw [State.tryRound, hn]
  have hwave := State.wave_updWave (f := fun x => { x with go := false, frontier := [], rescanBanks := [], entries := ns.map (·.1),
                                                           issued := x.issued + Config.weightUnit,
                                                           units := shares Config.weightUnit (s.waveBanks w) }) hw rfl
  rw [heq, State.beginRound, State.wave_id hw]
  exact ⟨_, hwave, rfl, rfl, rfl, rfl, rfl, State.updWave_mem ..⟩

/-! Messages, weight and the end of a wave (R263, R268, R274, R284, R285). -/

/-- A launch whose tag counts one command fewer (R263). -/
def Launch.finished (l : Launch) (tag time : Nat) : Launch :=
  { l with tags := tset l.tags tag { tget l.tags tag {} with count := (tget l.tags tag {}).count - 1, time := max (tget l.tags tag {}).time time } }

/-- A launch with a wave's record changed where its tag still shows it (R285). -/
def Launch.recorded (l : Launch) (w : Wave) (f : WaveRec → WaveRec) : Launch :=
  if (tget l.tags w.tag {}).record.wave = w.id then
    { l with tags := tset l.tags w.tag { tget l.tags w.tag {} with record := f (tget l.tags w.tag {}).record } } else l

theorem State.updRec_eq (s : State) (w : Wave) (f : WaveRec → WaveRec) : s.updRec w f = s.updLaunch w.launch fun l => l.recorded w f := rfl

/-- A wave without lines of its own is ended: its record, its tag and its graph's time (R263, R284, R285). -/
def State.waveClosed (s : State) (w : Wave) : State :=
  ((((s.updRec w fun r => { r with st := 3, ns := s.waveNs w }).ackSide w.part w.imgSlot w.ord 1).updLaunch w.launch fun l =>
    l.finished w.tag (s.waveTime w)).noteWave w)

theorem State.endWave_eq (hw : s.wave k = some w) (ho : w.owned = []) :
    s.endWave k = State.wakeWaits { s.waveClosed w with waves := (s.waveClosed w).waves.filter fun x => x.id != k } := by
  have hfree : s.freeLines w = s := by rw [State.freeLines, ho]; rfl
  rw [State.endWave, hw]
  dsimp only
  rw [hfree]
  rfl

theorem State.waveClosed_leaves (s : State) (w : Wave) : (s.waveClosed w).mem = s.mem ∧ (s.waveClosed w).groups = s.groups
    ∧ (s.waveClosed w).launches = updFirst (fun l => l.id == w.launch) (fun l => l.finished w.tag (s.waveTime w))
        (updFirst (fun l => l.id == w.launch) (fun l => l.recorded w fun r => { r with st := 3, ns := s.waveNs w }) s.launches) :=
  ⟨by simp [State.waveClosed, State.noteWave], rfl, rfl⟩

end

section
variable {s : State} {k : Nat} {w : Wave}

theorem Launch.finished_recorded (l : Launch) (w : Wave) (f : WaveRec → WaveRec) (time : Nat) :
    let m := (l.recorded w f).finished w.tag time
    m.id = l.id ∧ (tget m.tags w.tag {}).count = (tget l.tags w.tag {}).count - 1
      ∧ ((tget l.tags w.tag {}).record.wave = w.id → (tget m.tags w.tag {}).record = f (tget l.tags w.tag {}).record) := by
  by_cases h : (tget l.tags w.tag {}).record.wave = w.id
  · have hrec : l.recorded w f = { l with tags := tset l.tags w.tag { tget l.tags w.tag {} with record := f (tget l.tags w.tag {}).record } } :=
      if_pos h
    rw [hrec]
    simp [Launch.finished]
  · have hrec : l.recorded w f = l := if_neg h
    rw [hrec]
    simp [Launch.finished, h]

/-- A wave's end: it is gone, its record is ended and its tag counts one command fewer (R263, R284). -/
theorem State.endWave_ends (hw : s.wave k = some w) (hc : AllCached s) (ho : w.owned = []) :
    (s.endWave k).wave k = none ∧ (s.endWave k).mem = s.mem
      ∧ ∀ l, s.launch w.launch = some l → ∃ m, (s.endWave k).launch w.launch = some m
        ∧ (tget m.tags w.tag {}).count = (tget l.tags w.tag {}).count - 1
        ∧ ((tget l.tags w.tag {}).record.wave = k → (tget m.tags w.tag {}).record.st = 3) := by
  obtain ⟨hmem, hgroups, hlaunches⟩ := s.waveClosed_leaves w
  rw [State.endWave_eq hw ho]
  refine ⟨?_, ?_, fun l hl => ?_⟩
  · rw [State.wakeWaits_wave, State.wave_filtered]
  · exact (StaysCached.wakeWaits (s := { s.waveClosed w with waves := (s.waveClosed w).waves.filter fun x => x.id != k })
      fun g hg => hc g (hgroups ▸ hg)).mem.trans hmem
  · obtain ⟨hid, hcount, hrecord⟩ := Launch.finished_recorded l w (fun r => { r with st := 3, ns := s.waveNs w }) (s.waveTime w)
    have hlid : l.id = w.launch := by simpa using List.find?_some hl
    refine ⟨(l.recorded w fun r => { r with st := 3, ns := s.waveNs w }).finished w.tag (s.waveTime w), ?_, hcount, fun h => ?_⟩
    · rw [State.wakeWaits_launch]
      show (s.waveClosed w).launches.find? _ = _
      rw [hlaunches]
      have hrec : (l.recorded w fun r => { r with st := 3, ns := s.waveNs w }).id = w.launch := hid.trans hlid
      exact find_updFirst (f := fun l : Launch => l.finished w.tag (s.waveTime w)) (by rw [beq_iff_eq]; exact hid.trans hlid)
        (find_updFirst (by rw [beq_iff_eq]; exact hrec) hl)
    · rw [hrecord (h.trans (State.wave_id hw).symm)]

end

/-! A value combined into a node (R268, R271, R272). -/

theorem State.backInvalidate_waves (s : State) (pa part from_ : Nat) : (s.backInvalidate pa part from_).2.waves = s.waves := by
  unfold State.backInvalidate
  dsimp only
  rw [State.noteTime_onlyParts]

theorem dropLines_waves (part from_ : Nat) (x : Nat × State) (ls : List Nat) : (dropLines part from_ x ls).2.waves = x.2.waves := by
  induction ls generalizing x with
  | nil => rfl
  | cons l r ih => exact (ih _).trans (State.backInvalidate_waves ..)

@[simp] theorem State.writePa_waves (s : State) (pa : Nat) (bs : List Byte) : (s.writePa pa bs).waves = s.waves := by
  simp only [State.writePa]
  split <;> rfl

theorem State.writeMarked_waves (s : State) (bs : List (Nat × Byte × Bool)) : (s.writeMarked bs).waves = s.waves :=
  foldl_keeps State.waves (f := fun s (b : Nat × Byte × Bool) => s.writePa b.1 [b.2.1]) (fun s _ => s.writePa_waves ..) s bs

/-- A bank unit's write changes no wave. -/
theorem State.unitWrite_waves (s : State) (part from_ : Nat) (bs : List (Nat × Byte × Bool)) : (s.unitWrite part from_ bs).2.waves = s.waves := by
  rw [State.unitWrite_eq]
  exact (foldl_keeps State.waves (f := State.unitWorks) (fun _ _ => rfl) _ _).trans ((State.writeMarked_waves ..).trans (dropLines_waves ..))

/-- No wave is chained to wave k. -/
def Unchained (k : Nat) (s : State) : Prop := ∀ x ∈ s.waves, k ∉ x.chainOf

theorem Unchained.updWave {k j : Nat} {s : State} {f : Wave → Wave} (h : Unchained k s) (hf : ∀ x, (f x).chainOf = x.chainOf) :
    Unchained k (s.updWave j f) := by
  intro x hx
  rcases mem_updFirst hx with hx | ⟨y, hy, _, rfl⟩
  · exact h x hx
  · rw [hf]
    exact h y hy

theorem Unchained.of_waves {k : Nat} {s t : State} (h : Unchained k s) (hw : t.waves = s.waves) : Unchained k t := fun x hx => h x (hw ▸ hx)

theorem Unchained.noteChange {k : Nat} {s : State} (h : Unchained k s) (w : Wave) (n pa : Nat) : Unchained k (s.noteChange w n pa) := by
  simp only [State.noteChange]
  split
  · exact h
  · split
    · exact h
    · split
      · exact h
      · split
        · exact Unchained.updWave (s := s.updRec w fun r => { r with changed := (r.changed + 1) % 2 ^ 64 }) h fun _ => rfl
        · exact Unchained.updWave (s := s.updRec w fun r => { r with changed := (r.changed + 1) % 2 ^ 64 }) h fun _ => rfl

theorem Unchained.waveWrite {k : Nat} {s : State} (h : Unchained k s) (w : Wave) (bs : List (Nat × Byte × Bool)) :
    Unchained k (s.waveWrite w bs) := by
  simp only [State.waveWrite]
  exact Unchained.updWave (h.of_waves (State.unitWrite_waves ..)) fun _ => rfl

/-- Poison marks change no wave and no memory. -/
theorem State.poisonTarget_bank (s : State) (pa : Nat) :
    (s.poisonTarget (.mem pa .bank)).waves = s.waves ∧ (s.poisonTarget (.mem pa .bank)).mem = s.mem := by
  unfold State.poisonTarget
  dsimp only
  split <;> exact ⟨rfl, rfl⟩

/-- The poison marks that a combined value leaves where it changes nothing. -/
def State.poisonSlot (s : State) (w : Wave) (pa : Nat) (p : Word) : State :=
  (List.range 16).foldl (fun s e => if p.getLsbD e then s.poisonTarget (.mem (pa + (0x40 + 64 * w.dst + 4 * e)) .bank) else s) s

theorem State.poisonSlot_leaves (s : State) (w : Wave) (pa : Nat) (p : Word) :
    (s.poisonSlot w pa p).waves = s.waves ∧ (s.poisonSlot w pa p).mem = s.mem := by
  have hone (s : State) (e : Nat) :
      (if p.getLsbD e then s.poisonTarget (.mem (pa + (0x40 + 64 * w.dst + 4 * e)) .bank) else s).waves = s.waves
        ∧ (if p.getLsbD e then s.poisonTarget (.mem (pa + (0x40 + 64 * w.dst + 4 * e)) .bank) else s).mem = s.mem := by
    split
    · exact State.poisonTarget_bank ..
    · exact ⟨rfl, rfl⟩
  exact ⟨foldl_keeps State.waves (fun s e => (hone s e).1) s _, foldl_keeps State.mem (fun s e => (hone s e).2) s _⟩

/-- The record of a sum that saturated (R271, R285). -/
def State.satMarked (s : State) (w : Wave) (pa : Nat) (v : List Int) : State :=
  if w.comb = 5 && (List.zipWith satSum (s.nodeVal w pa w.dst).1 v).any (·.2) then s.updRec w fun r => { r with sat := true } else s

theorem State.satMarked_waves (s : State) (w : Wave) (pa : Nat) (v : List Int) : (s.satMarked w pa v).waves = s.waves := by
  unfold State.satMarked
  split <;> rfl

/-- A value combined into a slot: nothing, or the new value written. -/
theorem State.take_slot {s : State} {w : Wave} (n pa : Nat) (v : List Int) (p : Word) (hs : w.slotKind = true) (h4 : w.comb ≠ 4) :
    let new := if w.comb = 5 then (List.zipWith satSum (s.nodeVal w pa w.dst).1 v).map (·.1) else combineVals w.comb (s.nodeVal w pa w.dst).1 v
    s.take w n pa v p = if new = (s.nodeVal w pa w.dst).1 then ((s.satMarked w pa v).poisonSlot w pa p, false)
      else (((s.satMarked w pa v).waveWrite w (slotBytesAt pa w.dst new fun e => p.getLsbD e || (s.nodeVal w pa w.dst).2.getLsbD e)).noteChange w n pa, true) := by
  intro new
  unfold State.take
  dsimp only
  rw [if_pos hs, if_neg h4]
  rfl

section
variable {s : State} {w : Wave} {n pa : Nat} {v : List Int} {p : Word}

/-- A node's bit after a value is combined into it (R268). -/
def bitNow (s : State) (w : Wave) (pa : Nat) (v : List Int) : Bool :=
  if w.comb = 1 then bitOf (s.marks pa) w.dst && v.headD 0 != 0 else bitOf (s.marks pa) w.dst || v.headD 0 != 0

/-- A bit that stays as it was: nothing is written but a poison mark. -/
theorem State.take_bit_same (hs : w.slotKind = false) (h : bitNow s w pa v = bitOf (s.marks pa) w.dst) :
    (s.take w n pa v p).2 = false ∧ (s.take w n pa v p).1.mem = s.mem ∧ (s.take w n pa v p).1.waves = s.waves := by
  have heq : s.take w n pa v p
      = ((if w.comb = 4 then s else if p.getLsbD 0 then s.poisonTarget (.mem (pa + 12) .bank) else s), false) := by
    unfold State.take
    dsimp only
    rw [if_neg (ne_true_of_eq_false hs)]
    exact if_pos h
  rw [heq]
  refine ⟨rfl, ?_, ?_⟩ <;> dsimp only <;> split
  · rfl
  · split
    · exact (State.poisonTarget_bank ..).2
    · rfl
  · rfl
  · split
    · exact (State.poisonTarget_bank ..).1
    · rfl

/-- A bit that changes is written. -/
theorem State.take_bit_change (hs : w.slotKind = false) (h : bitNow s w pa v ≠ bitOf (s.marks pa) w.dst) :
    s.take w n pa v p =
      ((s.waveWrite w (markedWord (pa + 12) (setBit (s.marks pa) w.dst (bitNow s w pa v)) (p.getLsbD 0))).noteChange w n pa, true) := by
  unfold State.take
  dsimp only
  rw [if_neg (ne_true_of_eq_false hs)]
  exact if_neg h

/-- Four bytes of physical memory are four bytes read one by one. -/
theorem State.readPa_four (s : State) (a : Nat) :
    s.readPa a 4 = s.readPa (a + 0) 1 ++ (s.readPa (a + 1) 1 ++ (s.readPa (a + 2) 1 ++ s.readPa (a + 3) 1)) := rfl

/-- A word that its unit writes is the word its node has. -/
theorem State.readPaNat_unitWrite {a : Nat} {x : Word} {q : Bool} (part from_ : Nat)
    (ho : ∀ i < 4, zeroRow (a + i) = false ∧ (s.die (homeDie (a + i))).failed = false) :
    (s.unitWrite part from_ (markedWord a x q)).2.readPaNat a 4 = x.toNat := by
  have hbytes : markedWord a x q = [(a + 0, x.extractLsb' 0 8, q), (a + 1, x.extractLsb' 8 8, q), (a + 2, x.extractLsb' 16 8, q),
      (a + 3, x.extractLsb' 24 8, q)] := by rw [markedWord, bytesLE_four]; rfl
  obtain ⟨_, _, hread, _⟩ := s.unitWrite_writes part from_ (markedWord a x q)
  have hopen : ∀ b ∈ markedWord a x q, zeroRow b.1 = false ∧ (s.die (homeDie b.1)).failed = false := by
    rw [hbytes]
    simp only [List.mem_cons, List.not_mem_nil, or_false, forall_eq_or_imp, forall_eq]
    exact ⟨ho 0 (by decide), ho 1 (by decide), ho 2 (by decide), ho 3 (by decide)⟩
  have honce : ∀ b ∈ markedWord a x q, ∀ c ∈ markedWord a x q, b.1 = c.1 → b = c := by
    rw [hbytes]
    simp only [List.mem_cons, List.not_mem_nil, or_false, forall_eq_or_imp, forall_eq]
    simp
  have h := hread hopen honce
  rw [hbytes] at h
  simp only [List.mem_cons, List.not_mem_nil, or_false, forall_eq_or_imp, forall_eq] at h
  obtain ⟨h0, h1, h2, h3⟩ := h
  rw [State.readPaNat, State.readPa_four, hbytes, h0, h1, h2, h3]
  exact ofBytesLE_bytes x

/-- The marks of a node whose bit has changed (R268). -/
theorem State.take_marks (hs : w.slotKind = false) (h : bitNow s w pa v ≠ bitOf (s.marks pa) w.dst)
    (ho : ∀ i < 4, zeroRow (pa + 12 + i) = false ∧ (s.die (homeDie (pa + 12 + i))).failed = false) :
    (s.take w n pa v p).2 = true ∧ (s.take w n pa v p).1.marks pa = setBit (s.marks pa) w.dst (bitNow s w pa v) := by
  rw [State.take_bit_change hs h]
  refine ⟨rfl, ?_⟩
  have hmem : ((s.waveWrite w (markedWord (pa + 12) (setBit (s.marks pa) w.dst (bitNow s w pa v)) (p.getLsbD 0))).noteChange w n pa).mem
      = (s.unitWrite w.part (((s.wave w.id).getD w).time) (markedWord (pa + 12) (setBit (s.marks pa) w.dst (bitNow s w pa v)) (p.getLsbD 0))).2.mem := by
    rw [State.noteChange_mem, State.waveWrite, State.updWave_mem]
  dsimp only
  rw [State.marks, State.nodeWord, State.readPaNat, State.readPa_congr hmem, ← State.readPaNat]
  rw [show pa + 0x0C = pa + 12 from rfl, State.readPaNat_unitWrite _ _ ho, BitVec.ofNat_toNat, BitVec.setWidth_eq]

/-- A slot that keeps its value (R271). -/
theorem State.take_slot_same (hs : w.slotKind = true) (h4 : w.comb ≠ 4) (h5 : w.comb ≠ 5)
    (h : combineVals w.comb (s.nodeVal w pa w.dst).1 v = (s.nodeVal w pa w.dst).1) :
    (s.take w n pa v p).2 = false ∧ (s.take w n pa v p).1.mem = s.mem ∧ (s.take w n pa v p).1.waves = s.waves := by
  have hsat : s.satMarked w pa v = s := if_neg (by simp [h5])
  have heq : s.take w n pa v p = (s.poisonSlot w pa p, false) := by
    rw [State.take_slot n pa v p hs h4, if_neg h5, if_pos h, hsat]
  rw [heq]
  exact ⟨rfl, (s.poisonSlot_leaves w pa p).2, (s.poisonSlot_leaves w pa p).1⟩

/-- A slot that takes a new value (R271). -/
theorem State.take_slot_change (hs : w.slotKind = true) (h4 : w.comb ≠ 4) (h5 : w.comb ≠ 5)
    (h : combineVals w.comb (s.nodeVal w pa w.dst).1 v ≠ (s.nodeVal w pa w.dst).1) : (s.take w n pa v p).2 = true := by
  rw [State.take_slot n pa v p hs h4, if_neg h5, if_neg h]

/-- A slot that only a first visit sets (R272). -/
theorem State.take_visit (hs : w.slotKind = true) (h4 : w.comb = 4) :
    (s.take w n pa v p).2 = true ↔ bitOf (s.marks pa) w.visit = false := by
  unfold State.take
  dsimp only
  rw [if_pos hs, if_pos h4]
  split
  · next h => simp [h]
  · next h => simp [h]

end

/-- No value combined chains a wave to another. -/
theorem Unchained.take {k : Nat} {s : State} (h : Unchained k s) (w : Wave) (n pa : Nat) (v : List Int) (p : Word) :
    Unchained k (s.take w n pa v p).1 := by
  cases hs : w.slotKind
  · by_cases hbit : bitNow s w pa v = bitOf (s.marks pa) w.dst
    · exact h.of_waves (State.take_bit_same hs hbit).2.2
    · rw [State.take_bit_change hs hbit]
      exact Unchained.noteChange (Unchained.waveWrite h _ _) _ _ _
  · by_cases h4 : w.comb = 4
    · unfold State.take
      dsimp only
      rw [if_pos hs, if_pos h4]
      split
      · exact h
      · exact Unchained.noteChange (Unchained.waveWrite h _ _) _ _ _
    · have hsat : Unchained k (s.satMarked w pa v) := h.of_waves (State.satMarked_waves ..)
      rw [State.take_slot n pa v p hs h4]
      by_cases hnew : (if w.comb = 5 then (List.zipWith satSum (s.nodeVal w pa w.dst).1 v).map (·.1)
          else combineVals w.comb (s.nodeVal w pa w.dst).1 v) = (s.nodeVal w pa w.dst).1
      · rw [if_pos hnew]
        exact hsat.of_waves (State.poisonSlot_leaves ..).1
      · rw [if_neg hnew]
        exact Unchained.noteChange (Unchained.waveWrite hsat _ _) _ _ _

/-! Messages, weight, collections and snoops (R247, R268 to R278). -/

theorem State.dropPkt_waves (s : State) (i : Nat) : (s.dropPkt i).waves = s.waves := rfl

theorem Unchained.chainedTo {k : Nat} {s : State} (h : Unchained k s) : s.chainedTo k = [] :=
  List.filter_eq_nil_iff.2 fun x hx hc => by
    simp only [Bool.and_eq_true, List.contains_iff_mem] at hc
    exact h x hx hc.2

/-- A changed node of a wave that no other is chained to feeds none (R282). -/
theorem State.fed_unchained {k : Nat} {r : State × Bool} (h : Unchained k r.1) (pa : Nat) : State.fed r k pa = .ok r.1 := by
  unfold State.fed
  split
  · cases r.1.waves.length with
    | zero => rfl
    | succ n =>
      rw [State.feed, h.chainedTo]
      rfl
  · rfl

section
variable {s : State} {k : Nat} {w : Wave}

/-- A wave that a message has reached (R268). -/
def Wave.reached (x : Wave) (m : Marker) (pa : Nat) : Wave :=
  { x with msgs := x.msgs.filter (fun y => y.id != m.id), units := tset x.units (bankOf pa) (tget x.units (bankOf pa) 0 + m.weight) }

/-- A message that arrives is combined into its node (R268, R270). -/
theorem execMarkerMessage_combines (hw : s.wave k = some w) {m : Marker} {pa : Nat} (hm : w.msgs.find? (fun x => x.id == m.id) = some m)
    (hp : ∀ p ∈ s.pkts, p.id ≠ m.id) (he : w.entries = []) (hpa : s.nodePa w m.target = .ok pa) (hb : s.waveBlocked w [lineOf pa] = none)
    (hh : w.hop ≠ 0) (hc : Unchained k s) :
    execMarkerMessage k m.id s
      = .next (((s.updWave k fun x => x.reached m pa).dropPkt m.id).take w m.target pa m.value m.pois).1 := by
  have hgo : ¬(!w.entries.isEmpty || s.pkts.any fun p => p.id == m.id && !p.path.isEmpty) = true := by
    rw [he, List.isEmpty_nil, Bool.not_true, Bool.false_or, List.any_eq_true]
    rintro ⟨p, hmem, hid⟩
    rw [Bool.and_eq_true, beq_iff_eq] at hid
    exact hp p hmem hid.1
  have hupd : Unchained k (s.updWave k fun x => x.reached m pa) := Unchained.updWave hc fun _ => rfl
  have hgot : Unchained k ((s.updWave k fun x => x.reached m pa).dropPkt m.id) := hupd.of_waves (State.dropPkt_waves ..)
  have hun : Unchained k (((s.updWave k fun x => x.reached m pa).dropPkt m.id).take w m.target pa m.value m.pois).1 :=
    Unchained.take hgot w m.target pa m.value m.pois
  have hfed := State.fed_unchained hun pa
  have hhop : ¬((((s.updWave k fun x => x.reached m pa).dropPkt m.id).take w m.target pa m.value m.pois).2 && w.hop == 0) = true := by
    simp [hh]
  unfold Wave.reached at hfed hhop ⊢
  rw [execMarkerMessage, hw]
  dsimp only
  rw [hm]
  dsimp only
  rw [if_neg hgo, hpa]
  dsimp only
  rw [hb]
  dsimp only
  rw [hfed]
  dsimp only
  rw [if_neg hhop]

/-- Wave k has issued a weight. -/
def Issued (k n : Nat) (s : State) : Prop := ∃ x, s.wave k = some x ∧ x.issued = n

theorem Issued.updWave {n j : Nat} {f : Wave → Wave} (h : Issued k n s) (hf : ∀ x, (f x).id = x.id ∧ (f x).issued = x.issued) :
    Issued k n (s.updWave j f) := by
  obtain ⟨x, hx, rfl⟩ := h
  by_cases hj : k = j
  · subst hj
    exact ⟨f x, State.wave_updWave hx (hf x).1, (hf x).2⟩
  · refine ⟨x, ?_, rfl⟩
    rw [← hx]
    refine find_updFirst_other (fun y hy => ?_) fun y hy => ?_
    · rw [beq_iff_eq] at hy
      rw [beq_eq_false_iff_ne, hy]
      exact Ne.symm hj
    · rw [beq_iff_eq] at hy
      rw [beq_eq_false_iff_ne, (hf y).1, hy]
      exact Ne.symm hj

/-- Messages that leave a unit keep what is issued (R274). -/
theorem Issued.post {n : Nat} (h : Issued k n s) (w : Wave) (bank each extra : Nat) (xs : List Marker) :
    Issued k n (s.post w bank each extra xs) := by
  induction xs generalizing s extra with
  | nil => exact h
  | cons m r ih =>
    rw [State.post]
    have hmsgs : Issued k n ((s.takeKey.2).updWave w.id fun x => { x with msgs := x.msgs ++ [{ m with id := s.takeKey.1, weight := each + extra }] }) :=
      Issued.updWave (s := s.takeKey.2) h fun _ => ⟨rfl, rfl⟩
    refine ih ?_ 0
    split
    · exact hmsgs
    · dsimp only
      split <;> exact hmsgs

/-- A unit's messages sent, or kept for a loan, keep what is issued. -/
theorem Issued.dispatch {n : Nat} (h : Issued k n s) (bank : Nat) (ms : List Marker) : Issued k n (s.dispatch k bank ms) := by
  obtain ⟨x, hx, hn⟩ := h
  rw [State.dispatch, hx]
  dsimp only
  split
  · exact ⟨x, hx, hn⟩
  · split
    · exact Issued.updWave ⟨x, hx, hn⟩ fun _ => ⟨rfl, rfl⟩
    · refine Issued.post ?_ x bank _ _ _
      exact Issued.updWave (f := fun x => { x with units := terase x.units bank, outbox := terase x.outbox bank }) ⟨x, hx, hn⟩ fun _ => ⟨rfl, rfl⟩

/-- A wave with a loan for a unit (R274). -/
def Wave.lent (x : Wave) (bank : Nat) : Wave :=
  { x with issued := x.issued + Config.weightUnit, units := tset x.units bank (tget x.units bank 0 + Config.weightUnit) }

/-- A unit short of weight gets a loan (R274). -/
theorem execWeightLoan_lends (hw : s.wave k = some w) {bank : Nat} (ho : tget w.outbox bank [] ≠ [])
    (hu : tget w.units bank 0 < (tget w.outbox bank []).length) :
    ∃ t x, execWeightLoan k bank s = .next t ∧ t.wave k = some x ∧ x.issued = w.issued + 2 ^ 63 ∧ t.mem = s.mem := by
  have heq : execWeightLoan k bank s
      = .next (((s.updWave k fun x => x.lent bank).updRec w fun r => { r with loans := (r.loans + 1) % 2 ^ 32 }).dispatch k bank []) := by
    rw [execWeightLoan, hw]
    dsimp only
    rw [if_neg (mt List.length_eq_zero_iff.1 ho), if_neg (Nat.not_le.2 hu)]
    rfl
  have hissued : Issued k (w.issued + 2 ^ 63) ((s.updWave k fun x => x.lent bank).updRec w fun r => { r with loans := (r.loans + 1) % 2 ^ 32 }) :=
    ⟨w.lent bank, by rw [State.updRec_wave]; exact State.wave_updWave (f := fun x => x.lent bank) hw rfl, rfl⟩
  obtain ⟨x, hx, hn⟩ := hissued.dispatch bank []
  exact ⟨_, x, heq, hx, hn, by rw [State.dispatch_mem, State.updRec_mem, State.updWave_mem]⟩

/-- The packet in which a unit's weight goes back (R274, R383). -/
def State.weightPkt (s : State) (k : Nat) (w : Wave) (bank n : Nat) : Packet :=
  { id := s.fresh, part := w.part, kind := .weight k (w.ctrl / 8) n,
    path := s.ctrlPath (w.ctrl / 8) (bank / 512 / 2) (stackPort (bank / 512 % 2)) }

/-- A wave with no weight left at a unit. -/
def Wave.spent (x : Wave) (bank : Nat) : Wave := { x with units := terase x.units bank }

/-- A unit's weight on its way back. -/
def State.weightSent (s : State) (k : Nat) (w : Wave) (bank n : Nat) : State :=
  let t : State := ({ s with fresh := s.fresh + 1 } : State).updWave k fun x => x.spent bank
  { t with pkts := s.pkts ++ [s.weightPkt k w bank n] }

/-- A unit without work returns its weight in a packet (R274, R383). -/
theorem execWeightReturn_sends (hw : s.wave k = some w) {bank n : Nat} (hn : tfind w.units bank = some n) (hb : s.weightBack k = none)
    (hst : w.st = .running) (hgo : w.go = false) (hbusy : s.unitBusy w bank = false) :
    ∃ t x p, execWeightReturn k bank s = .next t ∧ t.pkts = s.pkts ++ [p] ∧ p.kind = .weight k (w.ctrl / 8) n ∧ p.held = false
      ∧ t.wave k = some x ∧ x.returned = w.returned ∧ tfind x.units bank = none ∧ t.mem = s.mem := by
  have hcond : ¬(w.st != .running || w.go || s.unitBusy w bank) = true := by simp [hst, hgo, hbusy]
  have hx : (s.weightSent k w bank n).wave k = some (w.spent bank) :=
    State.wave_updWave (s := { s with fresh := s.fresh + 1 }) (f := fun x => x.spent bank) hw rfl
  have heq : execWeightReturn k bank s = .next (s.weightSent k w bank n) := by
    rw [execWeightReturn, hw]
    dsimp only
    rw [hb]
    dsimp only
    rw [hn]
    dsimp only
    rw [if_neg hcond]
    rfl
  exact ⟨s.weightSent k w bank n, w.spent bank, s.weightPkt k w bank n, heq, rfl, rfl, rfl, hx, rfl, tfind_terase_same .., rfl⟩

/-- Weight that has come back is counted at its controller (R274). -/
theorem execWeightReturn_counts (hw : s.wave k = some w) {bank n : Nat} {p : Packet} (hb : s.weightBack k = some (p, n)) :
    execWeightReturn k bank s = .next ((s.dropPkt p.id).countReturn w n) := by
  rw [execWeightReturn, hw]
  dsimp only
  rw [hb]

/-- A wave whose controller has counted weight back. -/
def Wave.back (x : Wave) (n : Nat) : Wave := { x with returned := n }

theorem State.dropPkt_wave (s : State) (i j : Nat) : (s.dropPkt i).wave j = s.wave j := rfl

/-- Weight that does not make up all that was issued is counted alone (R274). -/
theorem State.countReturn_part {n : Nat} (h : w.returned + n ≠ w.issued) (hid : w.id = k) :
    s.countReturn w n = s.updWave k fun x => x.back (w.returned + n) := by
  rw [State.countReturn]
  dsimp only
  rw [if_neg (fun hc => h hc.1), hid]
  rfl

theorem execWeightReturn_part (hw : s.wave k = some w) {bank n : Nat} {p : Packet} (hb : s.weightBack k = some (p, n))
    (h : w.returned + n ≠ w.issued) :
    ∃ t x, execWeightReturn k bank s = .next t ∧ t.wave k = some x ∧ x.returned = w.returned + n
      ∧ t.pkts = s.pkts.filter (fun x => x.id != p.id) ∧ t.mem = s.mem := by
  have heq : execWeightReturn k bank s = .next ((s.dropPkt p.id).updWave k fun x => x.back (w.returned + n)) := by
    rw [execWeightReturn_counts hw hb, State.countReturn_part h (State.wave_id hw)]
  exact ⟨_, w.back (w.returned + n), heq, State.wave_updWave (s := s.dropPkt p.id) (f := fun x => x.back (w.returned + n)) hw rfl, rfl, rfl, rfl⟩

/-- No unit waits for a loan. -/
theorem outbox_empty (ho : ∀ o ∈ w.outbox, o.2 = []) : w.outbox.all (fun o => o.2.isEmpty) = true :=
  List.all_eq_true.2 fun o h => by rw [ho o h]; rfl

/-- A gprop's next round, to begin. -/
def Wave.nextRound (x : Wave) : Wave := { x with round := x.round + 1, go := true }

/-- All weight back within the hop limit: the next round is to begin (R270, R274). -/
theorem execWeightReturn_round (hw : s.wave k = some w) {bank n : Nat} {p : Packet} (hb : s.weightBack k = some (p, n))
    (h : w.returned + n = w.issued) (ho : ∀ o ∈ w.outbox, o.2 = []) (hk : w.kind = .gprop) (hh : w.hop ≠ 0) (hr : w.round < w.hop) :
    ∃ t x, execWeightReturn k bank s = .next t ∧ t.wave k = some x ∧ x.round = w.round + 1 ∧ x.go = true ∧ t.mem = s.mem := by
  have heq : execWeightReturn k bank s = .next ((((s.dropPkt p.id).updWave k fun x => x.back (w.returned + n)).updRec w
      fun r => { r with rounds := r.rounds + 1 }).updWave k Wave.nextRound) := by
    rw [execWeightReturn_counts hw hb, State.countReturn]
    dsimp only
    rw [if_pos ⟨h, outbox_empty ho⟩, if_pos ⟨hk, hh⟩, if_pos hr, State.wave_id hw]
    rfl
  have hback : (((s.dropPkt p.id).updWave k fun x => x.back (w.returned + n)).updRec w fun r => { r with rounds := r.rounds + 1 }).wave k
      = some (w.back (w.returned + n)) := by
    rw [State.updRec_wave]
    exact State.wave_updWave (s := s.dropPkt p.id) (f := fun x => x.back (w.returned + n)) hw rfl
  exact ⟨_, (w.back (w.returned + n)).nextRound, heq, State.wave_updWave hback rfl, rfl, rfl,
    by rw [State.updWave_mem, State.updRec_mem, State.updWave_mem, State.dropPkt_mem]⟩

/-- All weight back of a wave without rounds: it ends (R274). -/
theorem execWeightReturn_ends (hw : s.wave k = some w) {bank n : Nat} {p : Packet} (hb : s.weightBack k = some (p, n))
    (h : w.returned + n = w.issued) (ho : ∀ o ∈ w.outbox, o.2 = []) (hk : w.kind ≠ .gprop ∨ w.hop = 0) :
    execWeightReturn k bank s = .next (((s.dropPkt p.id).updWave k fun x => { x with returned := w.returned + n }).endWave k) := by
  rw [execWeightReturn_counts hw hb, State.countReturn]
  dsimp only
  rw [if_pos ⟨h, outbox_empty ho⟩, if_neg (fun hc => hk.elim (· hc.1) hc.2), State.wave_id hw]

/-- A wave whose collection goes on with the entries left. -/
def Wave.collected (x : Wave) (rest : List Nat) (last : Bool) : Wave := { x with entries := rest, lastPush := last }

theorem State.updQueue_wave (s : State) (gang coreIdx n : Nat) (f : Queue → Queue) (j : Nat) :
    (s.updQueue gang coreIdx n f).wave j = s.wave j := rfl

/-- A collection's nodes pushed 32 at a time (R278). -/
theorem execCollectPush_pushes (hw : s.wave k = some w) {q : Nat} (hk : w.kind = .gcoll) (hst : w.st = .running) (hq : w.queue = some q)
    (hl : w.lastPush = false) (he : w.emit1 = false) (hlost : w.qlost = false) (hroom : (s.queue w.gang w.coreIdx q).entries.length < 64) :
    ∃ t x, execCollectPush k s = .next t ∧ t.wave k = some x ∧ x.entries = w.entries.drop 32
      ∧ x.lastPush = decide (w.entries.length < 32) ∧ t.mem = s.mem := by
  have hgo : ¬(w.kind != .gcoll || w.st != .running) = true := by simp [hk, hst]
  have hlast : decide ((w.entries.take 32).length < 32) = decide (w.entries.length < 32) := by
    rw [List.length_take]
    exact decide_eq_decide.2 (by omega)
  have heq : ∃ f, execCollectPush k s = .next ((s.updWave k fun x =>
      x.collected (w.entries.drop 32) (decide (w.entries.length < 32))).updQueue w.gang w.coreIdx q f) := by
    refine ⟨fun y => { y with entries := y.entries ++ [{ lanes := lanesFrom fun l =>
      if l < (w.entries.take 32).length then BitVec.ofNat 32 ((w.entries.take 32).getD l 0) else BitVec.allOnes 32 }] }, ?_⟩
    rw [execCollectPush, hw]
    dsimp only
    rw [if_neg hgo, hq]
    dsimp only
    rw [if_neg (ne_true_of_eq_false hl), if_neg (ne_true_of_eq_false hlost), if_neg (Nat.not_le.2 hroom), if_neg (ne_true_of_eq_false he), hlast]
    rfl
  obtain ⟨f, heq⟩ := heq
  refine ⟨_, w.collected (w.entries.drop 32) (decide (w.entries.length < 32)), heq, ?_, rfl, rfl, by rw [State.updQueue_mem, State.updWave_mem]⟩
  rw [State.updQueue_wave]
  exact State.wave_updWave (f := fun x => x.collected (w.entries.drop 32) (decide (w.entries.length < 32))) hw rfl

/-- A lost queue discards what a collection has left (R278). -/
theorem execCollectPush_lost (hw : s.wave k = some w) {q : Nat} (hk : w.kind = .gcoll) (hst : w.st = .running) (hq : w.queue = some q)
    (hl : w.lastPush = false) (hlost : w.qlost = true) :
    ∃ t x, execCollectPush k s = .next t ∧ t.wave k = some x ∧ x.entries = [] ∧ x.lastPush = true ∧ t.engs = s.engs ∧ t.mem = s.mem := by
  have hgo : ¬(w.kind != .gcoll || w.st != .running) = true := by simp [hk, hst]
  have heq : execCollectPush k s = .next (s.updWave k fun x => x.collected [] true) := by
    rw [execCollectPush, hw]
    dsimp only
    rw [if_neg hgo, hq]
    dsimp only
    rw [if_neg (ne_true_of_eq_false hl), if_pos hlost]
    rfl
  exact ⟨_, w.collected [] true, heq, State.wave_updWave (f := fun x => x.collected [] true) hw rfl, rfl, rfl, rfl, rfl⟩

/-- A host that was asked for a line gives it up (R247). -/
theorem execBisnpResponse_forgets (hw : s.wave k = some w) {line : Nat} (hl : line ∈ w.snooped) :
    ∃ t, execBisnpResponse k line s = .next t ∧ line ∉ t.hostLines ∧ t.mem = s.mem := by
  have hasked : ((s.bcmds.any fun b => b.id == k && b.snooped.contains line)
      || s.waves.any fun w => w.id == k && w.snooped.contains line) = true := by
    refine Bool.or_eq_true_iff.2 (.inr (List.any_eq_true.2 ⟨w, List.mem_of_find?_eq_some hw, ?_⟩))
    rw [State.wave_id hw, beq_self_eq_true, Bool.true_and, List.contains_iff_mem]
    exact hl
  refine ⟨_, if_pos hasked, fun h => ?_, rfl⟩
  have hne := (List.mem_filter.1 h).2
  simp at hne

end

/-- Settles O55, clause by clause. -/
theorem waveEvents : Obligations.WaveEvents := by
  refine ⟨fun s k bank w hw => ⟨execGbindApply_binds hw, execWaveArrival_queues hw, fun hst hno hfree hr => execWaveStart_unbound hw hst hno hfree hr,
    fun hst hno hfree hr => ⟨fun all hk hall => ?_, execWaveStart_stale hw hst hno hfree hr, execWaveStart_propagating hw hst hno hfree hr⟩,
    execWaveStart_round hw, fun ns hn => State.tryRound_begins hw hn, State.endWave_ends hw, ?_, execWeightLoan_lends hw,
    fun n hn hb hst hgo hbusy => execWeightReturn_sends hw hn hb hst hgo hbusy,
    fun p n hb => ⟨execWeightReturn_part hw hb, execWeightReturn_round hw hb, execWeightReturn_ends hw hb⟩,
    fun q => execCollectPush_pushes hw, fun q => execCollectPush_lost hw, fun line => execBisnpResponse_forgets hw⟩,
    fun s w n pa v p => ⟨State.take_bit_same, State.take_marks, State.take_slot_same, State.take_slot_change, State.take_visit⟩⟩
  · exact execWaveStart_walking hw hst hno hfree hr hk hall
  · exact fun m pa hm hp he hpa hb hh hc => execMarkerMessage_combines hw hm hp he hpa hb hh hc

end Sys2Proof.Machine
end

section
/-! SUPPORT. Launches: release, placement, stealing, completion and signals (R10, R11, R316 to R335). -/

namespace Sys2Proof.Machine

open Sys2Proof.Claim

/-! What the launch unit's own stores and reads leave (R181, R188, R333). -/

/-- Launches, the groups' launches and times, and the partitions' lost records and rings are as before. -/
structure AgentKeeps (s t : State) : Prop where
  launches : t.launches = s.launches
  times : t.groups.map (fun g => (g.launch, g.pts)) = s.groups.map fun g => (g.launch, g.pts)
  parts : ∀ p, (t.part p).cblost = (s.part p).cblost ∧ (t.part p).rings = (s.part p).rings

theorem AgentKeeps.refl (s : State) : AgentKeeps s s := ⟨rfl, rfl, fun _ => ⟨rfl, rfl⟩⟩

theorem AgentKeeps.trans {s t u : State} (h : AgentKeeps s t) (k : AgentKeeps t u) : AgentKeeps s u :=
  ⟨k.launches.trans h.launches, k.times.trans h.times, fun p => ⟨(k.parts p).1.trans (h.parts p).1, (k.parts p).2.trans (h.parts p).2⟩⟩

theorem AgentKeeps.ite {s t u : State} {c : Prop} [Decidable c] (ht : AgentKeeps s t) (hu : AgentKeeps s u) : AgentKeeps s (if c then t else u) := by
  split
  · exact ht
  · exact hu

theorem AgentKeeps.noteTime (s : State) (part t : Nat) : AgentKeeps s (s.noteTime part t) := by
  unfold State.noteTime
  refine AgentKeeps.ite (.refl s) ⟨rfl, rfl, fun p => ?_⟩
  by_cases hp : p = part
  · subst hp
    rw [State.part_updPart]
    exact ⟨rfl, rfl⟩
  · rw [State.part_updPart_other _ _ _ _ hp]
    exact ⟨rfl, rfl⟩

theorem AgentKeeps.evictLine (s : State) (line : Nat) : AgentKeeps s (s.evictLine line) := by
  unfold State.evictLine
  split <;> exact ⟨rfl, rfl, fun _ => ⟨rfl, rfl⟩⟩

theorem AgentKeeps.of_eq {s t : State} (hl : t.launches = s.launches) (hg : t.groups = s.groups) (hp : t.parts = s.parts) : AgentKeeps s t :=
  ⟨hl, by rw [hg], fun p => by rw [State.part, hp, State.part]; exact ⟨rfl, rfl⟩⟩

theorem AgentKeeps.setLine (s : State) (pa : Nat) (x : LineTimes) : AgentKeeps s (s.setLine pa x) := by
  unfold State.setLine
  dsimp only
  have hlines : AgentKeeps s { s with lines := tset s.lines (lineOf pa) x } := .of_eq rfl rfl rfl
  split
  · exact hlines.trans (AgentKeeps.evictLine ..)
  · exact hlines

theorem AgentKeeps.writePa (s : State) (pa : Nat) (bs : List Byte) : AgentKeeps s (s.writePa pa bs) := by
  unfold State.writePa
  exact AgentKeeps.ite (.refl s) ⟨rfl, rfl, fun _ => ⟨rfl, rfl⟩⟩

theorem AgentKeeps.noteDirty (s : State) (pa n part : Nat) : AgentKeeps s (s.noteDirty pa n part) := ⟨rfl, rfl, fun _ => ⟨rfl, rfl⟩⟩

theorem AgentKeeps.fireWatches (s : State) (t : Target) (n : Nat) : AgentKeeps s (s.fireWatches t n) :=
  ⟨rfl, List.map_map .., fun _ => ⟨rfl, rfl⟩⟩

theorem AgentKeeps.homeStore (s : State) (part pts pa : Nat) (bs : List Byte) (bank : Bool) :
    AgentKeeps s (s.homeStore part pts pa bs bank).2 := by
  have hstamp : AgentKeeps s ((s.writePa pa bs).stampLine pa part (s.writeTime pa part pts)) :=
    (AgentKeeps.writePa ..).trans ((AgentKeeps.setLine ..).trans (AgentKeeps.noteTime ..))
  unfold State.homeStore
  exact (AgentKeeps.ite hstamp (hstamp.trans (AgentKeeps.noteDirty ..))).trans (AgentKeeps.fireWatches ..)

theorem AgentKeeps.agentStore (s : State) (part pts pa : Nat) (bs : List Byte) (bank : Bool) :
    AgentKeeps s (s.agentStore part pts pa bs bank).2 := by
  unfold State.agentStore
  split
  · exact ⟨rfl, rfl, fun _ => ⟨rfl, rfl⟩⟩
  · exact AgentKeeps.homeStore ..

theorem AgentKeeps.agentWrite (s : State) (part pts va : Nat) (ws : List Word) : AgentKeeps s (s.agentWrite part pts va ws).2 := by
  induction ws generalizing s pts va with
  | nil => exact .refl s
  | cons w r ih =>
    simp only [State.agentWrite]
    cases s.agentXlate part va with
    | none => exact ih ..
    | some x => exact (AgentKeeps.agentStore ..).trans (ih ..)

theorem AgentKeeps.homeLoad (s : State) (pa part pts : Nat) : AgentKeeps s (s.homeLoad pa part pts).2 :=
  (AgentKeeps.setLine ..).trans (AgentKeeps.noteTime ..)

theorem AgentKeeps.agentMark (s : State) (part pts va n : Nat) : AgentKeeps s (s.agentMark part pts va n).2 := by
  unfold State.agentMark
  generalize List.range _ = ks
  suffices h : ∀ x : Nat × State, AgentKeeps s x.2 → AgentKeeps s (ks.foldl _ x).2 from h (pts, s) (.refl s)
  intro x hx
  induction ks generalizing x with
  | nil => exact hx
  | cons k r ih =>
    refine ih _ ?_
    dsimp only
    split
    · split
      · exact hx.trans (AgentKeeps.homeLoad ..)
      · exact hx
    · exact hx

/-- The final program time of a launch is its groups' (R181, R320). -/
theorem AgentKeeps.finalPts {s t : State} (h : AgentKeeps s t) (l : Launch) : t.finalPts l = s.finalPts l := by
  have hfold (gs : List Grp) (m : Nat) : (gs.filter fun g => g.launch == l.id).foldl (fun m g => max m g.pts) m
      = ((gs.map fun g => (g.launch, g.pts)).filter fun x => x.1 == l.id).foldl (fun m x => max m x.2) m := by
    rw [List.filter_map, List.foldl_map]
    rfl
  rw [State.finalPts, State.finalPts, hfold, hfold, h.times]

/-! A launch released, and a launch completed (R320, R333 to R335). -/

section
variable {s : State} {k : Nat} {l : Launch}

theorem State.launch_id (hl : s.launch k = some l) : l.id = k := by simpa using List.find?_some hl

theorem State.launch_updLaunch_named {f : Launch → Launch} (hl : s.launch k = some l) (hf : (f l).id = l.id) :
    (s.updLaunch k f).launch k = some (f l) :=
  find_updFirst (by rw [beq_iff_eq, hf, State.launch_id hl]) hl

/-- A launch whose predecessors let it go is released (R320). -/
theorem execPredecessorRelease_releases (hl : s.launch k = some l) (hw : l.waiting = true)
    (h : s.predsOpen l.part l.book = false ∨ (s.predResult l.part l.book).1 = true) :
    execPredecessorRelease k s = .next (s.startLaunch l) := by
  have hr : s.released l = true := by
    rw [State.released, hw]
    rcases h with h | h <;> simp [h]
  rw [execPredecessorRelease, hl]
  exact if_pos hr

/-- A launch ended by a failed predecessor (R320). -/
def Launch.predFailed (x : Launch) : Launch := { x with waiting := false, ending := true, status := 3 }

/-- A launch whose gangs are dealt (R323). -/
def Launch.dealt (x : Launch) (predPts now : Nat) (ranges : List Range) : Launch :=
  { x with waiting := false, predPts := predPts, lastPlaced := now, dealtAt := now, ranges := ranges }

theorem State.startLaunch_failed (hl : s.launch k = some l) (h : (s.predResult l.part l.book).1 = true) :
    (s.startLaunch l).launch k = some l.predFailed := by
  have heq : s.startLaunch l = s.updLaunch k fun x => x.predFailed := by
    rw [State.startLaunch, State.launch_id hl]
    simp only [h, if_true]
    rfl
  rw [heq]
  exact State.launch_updLaunch_named hl rfl

theorem State.startLaunch_dealt (hl : s.launch k = some l) (h : (s.predResult l.part l.book).1 = false) :
    (s.startLaunch l).launch k
      = some (l.dealt (s.predResult l.part l.book).2 s.clk (dealRanges (s.partClusters l.part) l.book.gangs)) := by
  have heq : s.startLaunch l = s.updLaunch k fun x =>
      x.dealt (s.predResult l.part l.book).2 s.clk (dealRanges (s.partClusters l.part) l.book.gangs) := by
    rw [State.startLaunch, State.launch_id hl]
    simp only [h, Bool.false_eq_true, if_false]
    rfl
  rw [heq]
  exact State.launch_updLaunch_named (f := fun x => x.dealt (s.predResult l.part l.book).2 s.clk (dealRanges (s.partClusters l.part) l.book.gangs)) hl rfl

/-- A launch ready for its completion record completes (R333). -/
theorem execLaunchCompletion_completes (hl : s.launch k = some l) (h1 : l.complete = false) (h2 : l.held = false) (h3 : s.launchOver l = true)
    (h4 : s.launchQuiet l.id = true) (h5 : s.recordFree l = true) : execLaunchCompletion k s = .next (s.completeLaunch l) := by
  rw [execLaunchCompletion, hl]
  exact if_pos ⟨h1, h2, h3, h4, h5⟩

/-- A held record is written (R334). -/
theorem execCallboardHoldRelease_completes (hl : s.launch k = some l) (h1 : l.complete = false) (h2 : l.held = true)
    (h3 : s.recordFree l = true) : execCallboardHoldRelease k s = .next (s.completeLaunch l) := by
  rw [execCallboardHoldRelease, hl]
  exact if_pos ⟨h2, h1, h3⟩

/-- A launch that is complete. -/
def Launch.done (x : Launch) : Launch := { x with complete := true, held := false }

/-- What a completed launch leaves in its partition: its result, kept unless it is a duplicate (R320). -/
def PartState.finished (p : PartState) (l : Launch) (q : QueueState) (final : Nat) : PartState :=
  { p with queues := tset p.queues l.queue q
           completed := if l.dup then p.completed
             else (l.book.launchId, l.status, final) :: p.completed.filter fun e => e.1 != l.book.launchId }

/-- A launch finishes over what its stores leave (R317, R333). -/
theorem State.finishLaunch_eq (s : State) (l : Launch) (t : Nat) : ∃ v q, AgentKeeps s v ∧
    s.finishLaunch l t = (v.updPart l.part fun p => p.finished l q (s.finalPts l)).updLaunch l.id Launch.done := by
  unfold State.finishLaunch
  dsimp only
  split
  · exact ⟨_, _, (AgentKeeps.agentStore ..).trans (AgentKeeps.agentWrite ..), rfl⟩
  · exact ⟨_, _, AgentKeeps.agentWrite .., rfl⟩

/-- A launch that finishes is complete, its result is kept, and the lost records and rings are as before. -/
theorem State.finishLaunch_leaves (hl : s.launch k = some l) (t : Nat) :
    (s.finishLaunch l t).launch k = some l.done
      ∧ (l.dup = false → (l.book.launchId, l.status, s.finalPts l) ∈ ((s.finishLaunch l t).part l.part).completed)
      ∧ ((s.finishLaunch l t).part l.part).cblost = (s.part l.part).cblost
      ∧ ((s.finishLaunch l t).part l.part).rings = (s.part l.part).rings := by
  obtain ⟨v, q, hv, heq⟩ := s.finishLaunch_eq l t
  have hpart : ((v.updPart l.part fun p => p.finished l q (s.finalPts l)).updLaunch l.id Launch.done).part l.part
      = (v.part l.part).finished l q (s.finalPts l) := by
    show (v.updPart l.part fun p => p.finished l q (s.finalPts l)).part l.part = _
    rw [State.part_updPart]
  rw [heq, hpart]
  refine ⟨?_, fun hd => ?_, (hv.parts l.part).1, (hv.parts l.part).2⟩
  · rw [State.launch_id hl]
    refine State.launch_updLaunch_named ?_ rfl
    show v.launches.find? _ = _
    rw [hv.launches]
    exact hl
  · rw [PartState.finished, hd]
    exact List.mem_cons_self

end

section
variable {s : State} {k : Nat} {l : Launch}

/-- A partition with a ring's state set. -/
def PartState.ringSet (p : PartState) (ring : Nat) (r : RingState) : PartState := { p with rings := tset p.rings ring r }

/-- A ring's records all signalled (R334). -/
def PartState.signalled (p : PartState) (ring : Nat) : PartState := p.ringSet ring { tget p.rings ring {} with unsignalled := 0 }

/-- What a completion record leaves before its launch finishes: launches and final times as before, no record lost, and one record more in
its ring (R333, R334). -/
structure Recorded (s t : State) (l : Launch) : Prop where
  launches : t.launches = s.launches
  final : t.finalPts l = s.finalPts l
  cblost : (t.part l.part).cblost = (s.part l.part).cblost
  count : (tget (t.part l.part).rings l.book.ring {}).count = (tget (s.part l.part).rings l.book.ring {}).count + 1

theorem Recorded.of_keeps {v : State} (h : AgentKeeps s v) {r : RingState}
    (hr : r.count = (tget (s.part l.part).rings l.book.ring {}).count + 1) :
    Recorded s (v.updPart l.part fun p => p.ringSet l.book.ring r) l := by
  refine ⟨h.launches, h.finalPts l, ?_, ?_⟩
  · rw [State.part_updPart]
    exact (h.parts l.part).1
  · rw [State.part_updPart, PartState.ringSet, tget_tset_same]
    exact hr

/-- The interrupt of a ring changes no count (R334). -/
theorem Recorded.ringInterrupt {t : State} (h : Recorded s t l) : Recorded s (t.ringInterrupt l.part l.book.ring) l := by
  have hpart : (t.ringInterrupt l.part l.book.ring).part l.part = (t.part l.part).signalled l.book.ring := by
    show (t.updPart l.part fun p => p.signalled l.book.ring).part l.part = _
    rw [State.part_updPart]
  refine ⟨h.launches, h.final, ?_, ?_⟩
  · rw [hpart]
    exact h.cblost
  · rw [hpart, PartState.signalled, PartState.ringSet, tget_tset_same]
    exact h.count

theorem State.writeRecord_recorded (s : State) (l : Launch) : Recorded s (s.writeRecord l).2 l := by
  unfold State.writeRecord
  dsimp only
  have hkeeps := (AgentKeeps.agentMark s l.part (s.launchTime l + 1) (s.ringDesc l.part l.book.ring).headVa 4).trans
    (AgentKeeps.agentWrite (s.agentMark l.part (s.launchTime l + 1) (s.ringDesc l.part l.book.ring).headVa 4).2 l.part
      (s.agentMark l.part (s.launchTime l + 1) (s.ringDesc l.part l.book.ring).headVa 4).1
      ((s.ringDesc l.part l.book.ring).base + 32 * ((tget (s.part l.part).rings l.book.ring {}).count % 2 ^ (s.ringDesc l.part l.book.ring).log2n))
      (s.recordWords l (tget (s.part l.part).rings l.book.ring {}).count (2 ^ (s.ringDesc l.part l.book.ring).log2n)))
  split
  · exact Recorded.ringInterrupt (Recorded.of_keeps hkeeps rfl)
  · exact Recorded.of_keeps hkeeps rfl

/-- A launch whose record waits for room in its ring (R334). -/
theorem State.completeLaunch_held (hv : (s.ringDesc l.part l.book.ring).valid = true) (hf : s.ringFull l.part l.book.ring = true) :
    s.completeLaunch l = s.updLaunch l.id fun x => { x with held := true } := by
  rw [State.completeLaunch, if_neg (by rw [hv]; decide), if_pos hf]

theorem State.completeLaunch_lost (hv : (s.ringDesc l.part l.book.ring).valid = false) :
    s.completeLaunch l = (s.countLost l.part).finishLaunch l (s.launchTime l + 1) := by
  rw [State.completeLaunch, if_pos hv]

theorem State.completeLaunch_recorded (hv : (s.ringDesc l.part l.book.ring).valid = true) (hf : s.ringFull l.part l.book.ring = false) :
    s.completeLaunch l = (s.writeRecord l).2.finishLaunch l (s.writeRecord l).1 := by
  rw [State.completeLaunch, if_neg (by rw [hv]; decide), if_neg (by rw [hf]; decide)]

theorem State.countLost_part (s : State) (p : Nat) : (s.countLost p).part p =
    { s.part p with cblost := if (s.part p).cblost = BitVec.allOnes 32 then (s.part p).cblost else (s.part p).cblost + 1#32 } :=
  State.part_updPart ..

/-- A launch completed: it is complete, and its result is kept (R320, R333, R335). -/
theorem State.completeLaunch_done (hl : s.launch k = some l)
    (h : (s.ringDesc l.part l.book.ring).valid = false ∨ s.ringFull l.part l.book.ring = false) :
    ∃ m, (s.completeLaunch l).launch k = some m ∧ m.complete = true ∧ m.held = false ∧ m.status = l.status
      ∧ (l.dup = false → (l.book.launchId, l.status, s.finalPts l) ∈ ((s.completeLaunch l).part l.part).completed) := by
  cases hv : (s.ringDesc l.part l.book.ring).valid
  · obtain ⟨hdone, hkept, _⟩ := State.finishLaunch_leaves (s := s.countLost l.part) hl (s.launchTime l + 1)
    rw [State.completeLaunch_lost hv]
    exact ⟨_, hdone, rfl, rfl, rfl, hkept⟩
  · have hf : s.ringFull l.part l.book.ring = false := h.resolve_left (by rw [hv]; decide)
    have hrec := s.writeRecord_recorded l
    have hl' : (s.writeRecord l).2.launch k = some l := by
      rw [State.launch, hrec.launches]
      exact hl
    obtain ⟨hdone, hkept, _⟩ := State.finishLaunch_leaves hl' (s.writeRecord l).1
    rw [State.completeLaunch_recorded hv hf]
    rw [hrec.final] at hkept
    exact ⟨_, hdone, rfl, rfl, rfl, hkept⟩

/-- A record with no ring to take it is counted as lost, up to the counter's end (R335). -/
theorem State.completeLaunch_cblost (hl : s.launch k = some l) (hv : (s.ringDesc l.part l.book.ring).valid = false) :
    ((s.completeLaunch l).part l.part).cblost
      = if (s.part l.part).cblost = BitVec.allOnes 32 then (s.part l.part).cblost else (s.part l.part).cblost + 1#32 := by
  obtain ⟨_, _, hcb, _⟩ := State.finishLaunch_leaves (s := s.countLost l.part) hl (s.launchTime l + 1)
  rw [State.completeLaunch_lost hv, hcb, State.countLost_part]

/-- A record written is one more in its ring, and none is lost (R334). -/
theorem State.completeLaunch_count (hl : s.launch k = some l) (hv : (s.ringDesc l.part l.book.ring).valid = true)
    (hf : s.ringFull l.part l.book.ring = false) :
    (tget ((s.completeLaunch l).part l.part).rings l.book.ring {}).count = (tget (s.part l.part).rings l.book.ring {}).count + 1
      ∧ ((s.completeLaunch l).part l.part).cblost = (s.part l.part).cblost := by
  have hrec := s.writeRecord_recorded l
  have hl' : (s.writeRecord l).2.launch k = some l := by
    rw [State.launch, hrec.launches]
    exact hl
  obtain ⟨_, _, hcb, hrings⟩ := State.finishLaunch_leaves hl' (s.writeRecord l).1
  rw [State.completeLaunch_recorded hv hf, hcb, hrings]
  exact ⟨hrec.count, hrec.cblost⟩

/-! Placement, stealing, eviction for progress, and signals (R322 to R324, R330, R334). -/

/-- A dispatcher places the next gang of a launch (R322). -/
theorem execGangPlacement_places {cluster core no att pts : Nat} {offs slots : List Nat} (hl : s.launch k = some l)
    (hn : l.nextGang cluster = some (no, att, pts)) (he : l.ending = false) (hw : l.waiting = false) (hq : (s.part l.part).quiesce = false)
    (ht : (s.part l.part).torn = false) (hc : cluster ∈ s.partClusters l.part) (ho : s.outranked cluster l = false)
    (hu : l.book.understudied no = false) (hr : s.roomAt cluster l.book core = true) (hi : s.newImages l.part l.book 1 = some (offs, slots))
    (hk : att = 0 ∨ s.killSettled k no = true) :
    execGangPlacement cluster k core s = .next ((s.updLaunch k fun x => x.takeGang cluster s.clk).placeGang l no att
      (if att = 0 then pts else max pts (s.replayPts l.id no)) core false (offs.getD 0 0) slots).2 := by
  have hserves : s.serves cluster l = true := by
    simp [State.serves, he, hw, hq, ht, ho, hc]
  have hgo : ¬(s.serves cluster l = false ∨ (att ≠ 0 ∧ s.killSettled k no = false)) := by
    rintro (h | ⟨h0, h⟩)
    · rw [hserves] at h
      exact Bool.noConfusion h
    · rcases hk with hk | hk
      · exact h0 hk
      · rw [hk] at h
        exact Bool.noConfusion h
  rw [execGangPlacement, hl]
  dsimp only
  rw [hn]
  dsimp only
  rw [if_neg hgo, hu, hr]
  simp only [Bool.false_eq_true, if_false, hi]

/-- A range with its upper part stolen (R323). -/
def Range.cut (v r : Range) : Range := if r = v then { r with hi := r.hi - v.stolen } else r

/-- A dispatcher without work takes the upper half of its victim's (R323). -/
theorem execGangSteal_steals {cluster : Nat} {v : Range} (hl : s.launch k = some l) (hv : l.stealVictim cluster = some v)
    (he : ∀ r ∈ l.ranges, r.cluster ≠ cluster ∨ r.hi ≤ r.lo) (ha : l.again = []) (hs : s.serves cluster l = true)
    (hf : s.freePlace cluster l (v.hi - v.stolen) = true) :
    ∃ t m, execGangSteal cluster k v.cluster s = .next t ∧ t.launch k = some m ∧ t.mem = s.mem
      ∧ { cluster := cluster, lo := v.hi - v.stolen, hi := v.hi : Range } ∈ m.ranges := by
  have hempty : (l.ranges.all fun r => r.cluster != cluster || decide (r.hi ≤ r.lo)) = true :=
    List.all_eq_true.2 fun r hr => by
      rw [Bool.or_eq_true, bne_iff_ne, decide_eq_true_eq]
      exact he r hr
  have heq : execGangSteal cluster k v.cluster s = .next (s.updLaunch k fun x =>
      { x with ranges := { cluster := cluster, lo := v.hi - v.stolen, hi := v.hi } :: (x.ranges.map v.cut).filter fun r => r.cluster != cluster }) := by
    rw [execGangSteal, hl]
    dsimp only
    rw [hv]
    exact if_pos ⟨rfl, hempty, by rw [ha]; rfl, hs, hf⟩
  exact ⟨_, _, heq, State.launch_updLaunch_named hl rfl, rfl, List.mem_cons_self⟩

/-- A ring whose oldest record has waited long enough interrupts (R334). -/
theorem execCallboardAgeTrigger_interrupts {part ring : Nat} (hv : (s.ringDesc part ring).valid = true) (ha : (s.ringDesc part ring).age ≠ 0)
    (hu : 0 < (tget (s.part part).rings ring {}).unsignalled)
    (ho : (tget (s.part part).rings ring {}).oldest + (s.ringDesc part ring).age * 1900 ≤ s.clk) :
    execCallboardAgeTrigger part ring s = .next (s.ringInterrupt part ring) := if_pos ⟨hv, ha, hu, ho⟩

/-- The gang that has waited longest. -/
def longestWaiting (gs : List Gang) : Option Gang :=
  gs.foldl (fun b g => match b with
    | none => some g
    | some x => if g.waitSince < x.waitSince then some g else b) none

/-- Among copies of one gang it is that gang. -/
theorem longestWaiting_copies {g : Gang} {gs : List Gang} (hne : gs ≠ []) (h : ∀ x ∈ gs, x = g) : longestWaiting gs = some g := by
  have hstay (r : List Gang) (hr : ∀ x ∈ r, x = g) : r.foldl (fun b g => match b with
      | none => some g
      | some x => if g.waitSince < x.waitSince then some g else b) (some g) = some g := by
    induction r with
    | nil => rfl
    | cons x r ih =>
      obtain rfl := hr x List.mem_cons_self
      rw [List.foldl_cons]
      dsimp only
      rw [if_neg (Nat.lt_irrefl _)]
      exact ih fun y hy => hr y (List.mem_cons_of_mem _ hy)
  cases gs with
  | nil => exact absurd rfl hne
  | cons x r =>
    obtain rfl := h x List.mem_cons_self
    exact hstay r fun y hy => h y (List.mem_cons_of_mem _ hy)

/-- A launch whose only gang waits and that cannot place another loses it for progress (R330). -/
theorem execProgressEviction_evicts {cluster : Nat} {g : Gang} (hl : s.launch k = some l) (hg : g ∈ s.gangs) (hgl : g.launch = k)
    (hp : g.place = .placed) (hw : s.gangWaits g = true) (hone : ∀ h ∈ s.gangs, h.launch = k → h = g)
    (hr : l.ranges = [{ cluster := cluster, lo := 0, hi := 1 }]) (hfit : ∀ c ∈ s.partClusters l.part, s.fitsBut [] c l.book = false)
    (hlast : l.lastPlaced + 50 * 1900 ≤ s.clk) :
    execProgressEviction k s = .next ((s.updLaunch k fun x => { x with owed := true }).askEvict g.id) := by
  have hpick : longestWaiting (s.gangs.filter fun g => g.launch == k && g.place == .placed && s.gangWaits g) = some g := by
    refine longestWaiting_copies (List.ne_nil_of_mem (List.mem_filter.2 ⟨hg, ?_⟩)) fun x hx => ?_
    · simp [hgl, hp, hw]
    · obtain ⟨hx, hc⟩ := List.mem_filter.1 hx
      simp only [Bool.and_eq_true, beq_iff_eq] at hc
      exact hone x hx hc.1.1
  have hmoving : (s.gangs.any fun g => g.launch == k && g.place == .evicting) = false :=
    List.any_eq_false.2 fun x hx hc => by
      simp only [Bool.and_eq_true, beq_iff_eq] at hc
      rw [hone x hx hc.1, hp] at hc
      exact absurd hc.2 (by decide)
  have hfits (f : Nat → Bool) : ((s.partClusters l.part).any fun c => s.fitsBut [] c l.book && f c) = false :=
    List.any_eq_false.2 fun c hc h => by
      rw [hfit c hc, Bool.false_and] at h
      exact Bool.noConfusion h
  have hunplaced : (l.ranges.any fun r => decide (r.lo < r.hi)) = true := by rw [hr]; rfl
  have hlast' : decide (l.lastPlaced + clksOfUs 50 ≤ s.clk) = true := decide_eq_true hlast
  rw [execProgressEviction, hl]
  dsimp only
  show (match longestWaiting (s.gangs.filter fun g => g.launch == k && g.place == .placed && s.gangWaits g) with
    | some g => _
    | none => _) = _
  rw [hpick]
  dsimp only
  rw [hfits, hmoving, hunplaced, hlast']
  simp

end

/-! A gang placed (R11, R26, R322, R324, R327). -/

/-- A group as its placement leaves it: what has changed is when its image was used, its place and its time as a resident. -/
structure Settled (x y : Grp) : Prop where
  same : y = { x with used := y.used, place := y.place, ptsSince := y.ptsSince, ptsAcc := y.ptsAcc }
  place : y.place = x.place ∨ y.place = .resident

theorem Settled.refl (x : Grp) : Settled x x := ⟨rfl, .inl rfl⟩

theorem Settled.trans {x y z : Grp} (h : Settled x y) (k : Settled y z) : Settled x z := by
  obtain ⟨hs, hp⟩ := h
  obtain ⟨ks, kp⟩ := k
  refine ⟨?_, ?_⟩
  · rw [hs] at ks
    exact ks
  · rcases kp with kp | kp
    · rw [kp]
      exact hp
    · exact .inr kp

/-- What placing groups keeps: memory, gangs, room in every register cache, and every group that is there, settled. -/
structure Settling (b t : State) : Prop where
  mem : t.mem = b.mem
  gangs : t.gangs = b.gangs
  room : ∀ c, ((t.cachedOn c).map Grp.lines).sum ≤ Config.regLines
  grps : ∀ u x, b.grp u = some x → ∃ y, t.grp u = some y ∧ Settled x y

/-- A change that settles a group keeps that. -/
theorem Settling.updGrp {b t : State} (h : Settling b t) {u : Nat} {y : Grp} {f : Grp → Grp} (hy : t.grp u = some y)
    (hu : ∀ g, (f g).uid = g.uid) (hf : Settled y (f y)) (hp : y.place ≠ .ended) : Settling b (t.updGrp u f) := by
  have hsame := hf.same
  refine ⟨h.mem, h.gangs, fun c => ?_, fun v x hx => ?_⟩
  · have hkeep : ((t.updGrp u f).cachedOn c).map Grp.lines = (t.cachedOn c).map Grp.lines := by
      refine map_filter_updFirst fun x hx => ?_
      obtain rfl : y = x := Option.some.inj (hy.symm.trans hx)
      have hplace : ((f y).place != .ended) = (y.place != .ended) := by
        rcases hf.place with hq | hq
        · rw [hq]
        · rw [hq, bne_iff_ne.2 hp]
          rfl
      rw [hplace, hsame]
      exact ⟨rfl, rfl⟩
    rw [hkeep]
    exact h.room c
  · obtain ⟨z, hz, hxz⟩ := h.grps v x hx
    by_cases hv : v = u
    · subst hv
      obtain rfl : y = z := Option.some.inj (hy.symm.trans hz)
      exact ⟨f y, State.grp_updGrp_named hy (hu y), hxz.trans hf⟩
    · exact ⟨z, (State.grp_updGrp_other hv fun g hg => (hu g).trans hg).trans hz, hxz⟩

theorem Settling.updCore {b t : State} (h : Settling b t) (c : Nat) (f : CoreState → CoreState) : Settling b (t.updCore c f) :=
  ⟨h.mem, h.gangs, h.room, h.grps⟩

/-- A group set down on its core (R326, R327). -/
def State.settleGroup (t : State) (g : Grp) : State :=
  let s : State := t.useImage g.uid
  if s.residents g.core < 32 then s.makeResident g.uid
  else s.updCore g.core fun c => { c with readyParked := c.readyParked ++ [g.uid] }

/-- A group that becomes resident. -/
def Grp.residentAt (x : Grp) (now : Nat) : Grp := { x with place := .resident, ptsSince := now - x.ptsAcc, ptsAcc := 0 }

theorem State.makeResident_eq {s : State} {u : Nat} {g : Grp} (hg : s.grp u = some g) :
    s.makeResident u = (s.updGrp u fun x => x.residentAt s.clk).schedule u g.core := by
  rw [State.makeResident, hg]
  rfl

theorem Settling.settleGroup {b t : State} (h : Settling b t) {g : Grp} (hg : b.grp g.uid = some g) (hc : g.cached = true)
    (hp : g.place = .parked) : Settling b (t.settleGroup g) := by
  obtain ⟨y, hy, hgy⟩ := h.grps _ _ hg
  have hsame := hgy.same
  have hyc : y.cached = true := by rw [hsame]; exact hc
  have hycore : y.core = g.core := by rw [hsame]
  have hyp : y.place ≠ .ended := by
    rcases hgy.place with hq | hq
    · rw [hq, hp]
      decide
    · rw [hq]
      decide
  have huse : t.useImage g.uid = t.updGrp g.uid fun x => x.usedAt t.clk := State.useImage_cached hy hyc (h.room _)
  have hused : Settling b (t.updGrp g.uid fun x => x.usedAt t.clk) := h.updGrp hy (fun _ => rfl) ⟨rfl, .inl rfl⟩ hyp
  have hy' : (t.updGrp g.uid fun x => x.usedAt t.clk).grp g.uid = some (y.usedAt t.clk) :=
    State.grp_updGrp_named (f := fun x => x.usedAt t.clk) hy rfl
  unfold State.settleGroup
  rw [huse]
  dsimp only
  split
  · rw [State.makeResident_eq hy']
    exact (hused.updGrp (f := fun x => x.residentAt (t.updGrp g.uid fun x => x.usedAt t.clk).clk) hy' (fun _ => rfl) ⟨rfl, .inr rfl⟩ hyp).updCore _ _
  · exact hused.updCore _ _

theorem Settling.settleGroups {b t : State} (h : Settling b t) (gs : List Grp)
    (hgs : ∀ g ∈ gs, b.grp g.uid = some g ∧ g.cached = true ∧ g.place = .parked) : Settling b (gs.foldl State.settleGroup t) := by
  induction gs generalizing t with
  | nil => exact h
  | cons g r ih =>
    obtain ⟨hg, hc, hp⟩ := hgs g List.mem_cons_self
    exact ih (h.settleGroup hg hc hp) fun x hx => hgs x (List.mem_cons_of_mem _ hx)

section
variable (s : State) (l : Launch) (no att start core img : Nat) (slots : List Nat)

/-- Group i of a gang placed now (R322, R324). -/
def placedGroup (i : Nat) : Grp :=
  freshGroup l s.fresh no (no * l.book.bpg + i / l.book.groups) (i % l.book.groups)
    (core + (i / l.book.groups * l.book.coresPerBlock + i % l.book.groups / 32))
    (i / l.book.groups * l.book.coresPerBlock + i % l.book.groups / 32) (s.fresh + 1 + i) ((s.core core).ctxbase.toNat * 65536)
    (slots.getD i 0) start false

/-- The groups of a gang placed now. -/
def placedGroups : List Grp := (List.range (l.book.bpg * l.book.groups)).map (placedGroup s l no start core slots)

/-- The gang placed now. -/
def placedGang : Gang :=
  { id := s.fresh, launch := l.id, part := l.part, gangNo := no, priority := l.book.priority,
    cores := (List.range l.book.gangCores).map (core + ·), placedAt := s.clk, waitSince := s.clk,
    imgBase := (s.core core).ctxbase.toNat * 65536, imgSlot := img, under := false, attempts := att }

/-- The machine with a gang and its groups, before they are set down on their cores. -/
def State.withGang : State :=
  { s with
    fresh := s.fresh + 1 + l.book.bpg * l.book.groups
    groups := s.groups ++ placedGroups s l no start core slots
    gangs := s.gangs ++ [placedGang s l no att core img]
    tombs := ((placedGroups s l no start core slots).map fun g =>
      { imgSlot := g.imgSlot, part := l.part, launch := l.id, launchId := l.book.launchId, block := g.block, groupNo := g.groupNo,
        va := g.imageVa + 0x7800 : Tombstone }) ++ s.tombs.filter fun t => !(t.part == l.part && slots.contains t.imgSlot)
    engs := s.engs ++ (List.range l.book.gangCores).map fun i => ({ gang := s.fresh, coreIdx := i } : EngBlock) }

theorem State.placeGang_eq : (s.placeGang l no att start core false img slots).2
    = (placedGroups s l no start core slots).foldl State.settleGroup (s.withGang l no att start core img slots) := rfl

variable {s l no att start core img slots}

theorem placedGroup_uid (i : Nat) : (placedGroup s l no start core slots i).uid = s.fresh + 1 + i := rfl

/-- A placed group is found by its name, where names below the next fresh one are all that are taken. -/
theorem State.withGang_grp (hu : ∀ g ∈ s.groups, g.uid < s.fresh) {i : Nat} (hi : i < l.book.bpg * l.book.groups) :
    (s.withGang l no att start core img slots).grp (s.fresh + 1 + i) = some (placedGroup s l no start core slots i) := by
  show (s.groups ++ placedGroups s l no start core slots).find? _ = _
  have hold : s.groups.find? (fun g => g.uid == s.fresh + 1 + i) = none := List.find?_eq_none.2 fun g hg h => by
    have := hu g hg
    rw [beq_iff_eq] at h
    omega
  have hidx : (List.range (l.book.bpg * l.book.groups)).find? ((fun g : Grp => g.uid == s.fresh + 1 + i) ∘ placedGroup s l no start core slots) = some i := by
    rw [List.find?_range_eq_some]
    refine ⟨beq_self_eq_true _, List.mem_range.2 hi, fun j hj => ?_⟩
    rw [Function.comp_apply, placedGroup_uid, Bool.not_eq_true', beq_eq_false_iff_ne]
    omega
  rw [List.find?_append, hold, Option.none_or, placedGroups, List.find?_map, hidx]
  rfl

/-- A placed gang is found by its key. -/
theorem State.withGang_gang (hk : ∀ x ∈ s.gangs, x.id ≠ s.fresh) :
    (s.withGang l no att start core img slots).gang s.fresh = some (placedGang s l no att core img) := by
  show (s.gangs ++ [placedGang s l no att core img]).find? _ = _
  have hold : s.gangs.find? (fun x => x.id == s.fresh) = none := List.find?_eq_none.2 fun x hx h => hk x hx (beq_iff_eq.1 h)
  rw [List.find?_append, hold, Option.none_or]
  exact List.find?_cons_of_pos (beq_self_eq_true s.fresh)

theorem placedGroup_lines (i : Nat) : (placedGroup s l no start core slots i).lines = 13 + ceilDiv l.book.regs 2 := rfl

/-- The register caches have room for the placed groups too (R26). -/
theorem State.withGang_room (c : Nat)
    (hroom : ((s.cachedOn c).map Grp.lines).sum + l.book.bpg * l.book.groups * (13 + ceilDiv l.book.regs 2) ≤ Config.regLines) :
    (((s.withGang l no att start core img slots).cachedOn c).map Grp.lines).sum ≤ Config.regLines := by
  have hsplit : (s.withGang l no att start core img slots).cachedOn c
      = s.cachedOn c ++ (placedGroups s l no start core slots).filter fun g => g.core == c && g.cached && g.place != .ended :=
    List.filter_append ..
  have hlen : ((placedGroups s l no start core slots).filter fun g => g.core == c && g.cached && g.place != .ended).length
      ≤ l.book.bpg * l.book.groups := by
    refine (List.length_filter_le ..).trans (le_of_eq ?_)
    rw [placedGroups, List.length_map, List.length_range]
  have hsum := List.sum_le_card_nsmul
    (((placedGroups s l no start core slots).filter fun g => g.core == c && g.cached && g.place != .ended).map Grp.lines)
    (13 + ceilDiv l.book.regs 2) fun x hx => by
      obtain ⟨g, hg, rfl⟩ := List.mem_map.1 hx
      obtain ⟨i, _, rfl⟩ := List.mem_map.1 (List.mem_of_mem_filter hg)
      exact le_of_eq (placedGroup_lines i)
  rw [List.length_map, smul_eq_mul] at hsum
  rw [hsplit, List.map_append, List.sum_append]
  have hmul := Nat.mul_le_mul_right (13 + ceilDiv l.book.regs 2) hlen
  omega

/-- A placed gang's groups are set down with nothing pushed out. -/
theorem State.placeGang_settling (hu : ∀ g ∈ s.groups, g.uid < s.fresh)
    (hroom : ∀ c, ((s.cachedOn c).map Grp.lines).sum + l.book.bpg * l.book.groups * (13 + ceilDiv l.book.regs 2) ≤ Config.regLines) :
    Settling (s.withGang l no att start core img slots) (s.placeGang l no att start core false img slots).2 := by
  rw [State.placeGang_eq]
  refine Settling.settleGroups ⟨rfl, rfl, fun c => State.withGang_room c (hroom c), fun u x hx => ⟨x, hx, .refl x⟩⟩ _ fun g hg => ?_
  obtain ⟨i, hi, rfl⟩ := List.mem_map.1 hg
  exact ⟨State.withGang_grp hu (List.mem_range.1 hi), rfl, rfl⟩

/-- A gang placed: its record, and its groups each at its entry (R11, R322, R324). -/
theorem State.placeGang_places (hu : ∀ g ∈ s.groups, g.uid < s.fresh) (hk : ∀ x ∈ s.gangs, x.id ≠ s.fresh)
    (hroom : ∀ c, ((s.cachedOn c).map Grp.lines).sum + l.book.bpg * l.book.groups * (13 + ceilDiv l.book.regs 2) ≤ Config.regLines) :
    let t := (s.placeGang l no att start core false img slots).2
    t.mem = s.mem
      ∧ (∃ x, t.gang s.fresh = some x ∧ x.launch = l.id ∧ x.gangNo = no ∧ x.attempts = att ∧ x.place = .placed
        ∧ x.cores = (List.range l.book.gangCores).map (core + ·) ∧ x.priority = l.book.priority)
      ∧ ∀ i < l.book.bpg * l.book.groups, ∃ x, t.grp (s.fresh + 1 + i) = some x ∧ x.gang = s.fresh ∧ x.block = no * l.book.bpg + i / l.book.groups
        ∧ x.groupNo = i % l.book.groups ∧ x.pts = start ∧ x.book = l.book ∧ x.system = l.system
        ∧ x.core = core + i / l.book.groups * l.book.coresPerBlock + i % l.book.groups / 32
        ∧ x.slot0 = { mask := startedMask l.book (i % l.book.groups), pc := l.book.entry, st := .ready }
        ∧ x.slot1 = {} ∧ x.stack = [] ∧ x.window 0 = l.win0 ∧ (x.place = .resident ∨ x.place = .parked) := by
  have hset := State.placeGang_settling (no := no) (att := att) (start := start) (core := core) (img := img) (slots := slots) hu hroom
  intro t
  refine ⟨hset.mem, ⟨placedGang s l no att core img, ?_, rfl, rfl, rfl, rfl, rfl, rfl⟩, fun i hi => ?_⟩
  · show t.gangs.find? _ = _
    rw [show t.gangs = _ from hset.gangs]
    exact State.withGang_gang hk
  · obtain ⟨y, hy, hsame, hplace⟩ := hset.grps _ _ (State.withGang_grp (s := s) (no := no) hu hi)
    refine ⟨y, hy, ?_⟩
    have hwin : (placedGroup s l no start core slots i).window 0 = l.win0 := by
      simp [placedGroup, freshGroup, Grp.window]
    rw [hsame]
    exact ⟨rfl, rfl, rfl, rfl, rfl, rfl, (Nat.add_assoc ..).symm, rfl, rfl, rfl, hwin, hplace.symm⟩

end

/-- Settles O57, clause by clause. -/
theorem launchEvents : Obligations.LaunchEvents := by
  intro s k cluster core l hl
  refine ⟨execPredecessorRelease_releases hl, fun hw h => ?_, fun hw h ho => ?_, fun no att pts offs slots hn he hw hq ht hc ho hu hr hi hk => ?_,
    fun no att start img slots hu hk hroom => ?_, fun v hv he ha hs hf => execGangSteal_steals hl hv he ha hs hf,
    execLaunchCompletion_completes hl, execCallboardHoldRelease_completes hl,
    ⟨State.completeLaunch_held, State.completeLaunch_done hl, State.completeLaunch_cblost hl, State.completeLaunch_count hl⟩,
    fun g hg hgl hp hw hone hr ha hfit hlast => execProgressEviction_evicts hl hg hgl hp hw hone hr hfit hlast,
    fun part ring hv ha hu ho => execCallboardAgeTrigger_interrupts hv ha hu ho⟩
  · exact ⟨_, _, execPredecessorRelease_releases hl hw (.inr h), State.startLaunch_failed hl h, rfl, rfl, rfl, rfl⟩
  · exact ⟨_, _, execPredecessorRelease_releases hl hw (.inl ho), State.startLaunch_dealt hl h, rfl, rfl, rfl, rfl, rfl, rfl⟩
  · exact execGangPlacement_places hl hn he hw hq ht hc ho hu hr hi hk
  · exact State.placeGang_places hu hk hroom

end Sys2Proof.Machine
end

section
/-! SUPPORT. Gangs and groups: pre-emption, resumption, clusters cleared, queues' records, and two copies compared (R27, R28, R317 to R328, R361). -/

namespace Sys2Proof.Machine

open Sys2Proof.Claim

/-! Gangs asked to leave, gangs that resume, parked groups, and clusters cleared (R27, R28, R325, R327). -/

/-- The element found of a list is found, changed or not, once all of a kind have changed. -/
theorem find_updAll {α : Type} {p q : α → Bool} {f : α → α} {xs : List α} {x : α} (h : xs.find? p = some x) (hf : ∀ y, p (f y) = p y) :
    (updAll q f xs).find? p = some (if q x then f x else x) := by
  have hp : (p ∘ fun y => if q y then f y else y) = p := by
    funext y
    by_cases hq : q y = true
    · simp [hq, hf]
    · simp [hq]
  rw [updAll, List.find?_map, hp, h]
  rfl

section
variable {s : State} {k : Nat} {g : Gang}

theorem State.gang_id (hg : s.gang k = some g) : g.id = k := by simpa using List.find?_some hg

/-- A gang without a twin whose pre-emption is asked for (R27). -/
def State.asked (s : State) (k : Nat) : State :=
  { s with
    gangs := updAll (fun g => [k].contains g.id && g.place == .placed) (fun g => { g with place := .evicting }) s.gangs
    groups := updAll (fun g => [k].contains g.gang && g.place != .ended) (fun g => { g with preempt := true }) s.groups }

theorem State.askEvict_single (hg : s.gang k = some g) (ht : g.twin = none) : s.askEvict k = (s.asked k).settleGang k := by
  rw [State.askEvict, hg]
  dsimp only
  rw [ht]
  rfl

theorem State.asked_gang (hg : s.gang k = some g) (hp : g.place = .placed) : (s.asked k).gang k = some { g with place := .evicting } := by
  have hc : ([k].contains g.id && g.place == .placed) = true := by simp [State.gang_id hg, hp]
  have h := find_updAll (q := fun g => [k].contains g.id && g.place == .placed) (f := fun g => { g with place := .evicting }) hg fun _ => rfl
  rw [if_pos hc] at h
  exact h

/-- The groups of a gang whose pre-emption is asked for stop at their next boundary (R27). -/
theorem State.asked_groups {x : Grp} (hx : x ∈ (s.asked k).groups) (hk : x.gang = k) (hp : x.place ≠ .ended) : x.preempt = true := by
  obtain ⟨y, _, rfl⟩ := List.mem_map.1 hx
  by_cases hc : ([k].contains y.gang && y.place != .ended) = true
  · rw [if_pos hc]
  · rw [if_neg hc] at hk hp
    exact absurd (by simp [hk, hp]) hc

theorem State.asked_grp_other {u : Nat} {x : Grp} (hx : s.grp u = some x) (hk : x.gang ≠ k) : (s.asked k).grp u = some x := by
  have h := State.grp_updAll (p := fun g => [k].contains g.gang && g.place != .ended) (f := fun g => { g with preempt := true }) hx fun _ => rfl
  have hc : ¬([k].contains x.gang && x.place != .ended) = true := by simp [hk]
  rw [if_neg hc] at h
  exact h

/-- A gang of which a group is inside a scene waits to leave (R27). -/
theorem State.settleGang_inside {t : State} {m : Gang} (hm : t.gang k = some m)
    (hx : ∃ x ∈ t.groups, x.gang = k ∧ x.place ≠ .ended ∧ t.atBoundary x.uid = false) : t.settleGang k = t := by
  obtain ⟨x, hmem, hk, hp, hb⟩ := hx
  have hall : ¬((t.groups.filter fun g => (k :: m.twin.toList).contains g.gang && g.place != .ended).all fun g =>
      t.atBoundary g.uid && !t.behindTwin g) = true := by
    intro h
    have hx := List.all_eq_true.1 h x (List.mem_filter.2 ⟨hmem, by simp [hk, hp]⟩)
    rw [hb, Bool.false_and] at hx
    exact Bool.noConfusion hx
  rw [State.settleGang, hm]
  exact if_neg fun h => hall h.2.1

/-- A gang asked to leave while a group of it is inside a scene. -/
theorem State.askEvict_inside (hg : s.gang k = some g) (hp : g.place = .placed) (ht : g.twin = none)
    (hx : ∃ x ∈ s.groups, x.gang = k ∧ x.place ≠ .ended ∧ s.atBoundary x.uid = false) : s.askEvict k = s.asked k := by
  rw [State.askEvict_single hg ht]
  refine State.settleGang_inside (State.asked_gang hg hp) ?_
  obtain ⟨x, hmem, hk, hpl, hb⟩ := hx
  have hc : ([k].contains x.gang && x.place != .ended) = true := by simp [hk, hpl]
  exact ⟨{ x with preempt := true }, List.mem_map.2 ⟨x, hmem, if_pos hc⟩, hk, hpl, hb⟩

/-- A parked gang resumes where there is room and nothing comes before it (R28, R323). -/
theorem execGroupResume_resumes {core : Nat} {l : Launch} (hg : s.gang k = some g) (hl : s.launch g.launch = some l) (hw : s.wantsPlace g = true)
    (hq : (s.part g.part).quiesce = false) (ht : g.twin = none) (hc : clusterOfCore core ∈ s.partClusters g.part)
    (hh : s.higherWaits g.part (clusterOfCore core) g.priority = false) (ho : s.clearedForOther g.part (clusterOfCore core) l.id = false)
    (hp : s.parkedTurn (clusterOfCore core) l = false) (hr : s.roomAt (clusterOfCore core) l.book core = true) :
    execGroupResume k core s = .next (s.resumeGang k core) := by
  have hturn : (l.clearing.contains (clusterOfCore core) || (!s.higherWaits g.part (clusterOfCore core) g.priority
      && !s.clearedForOther g.part (clusterOfCore core) l.id && !s.parkedTurn (clusterOfCore core) l)) = true := by simp [hh, ho, hp]
  rw [execGroupResume, hg]
  dsimp only
  rw [hl]
  dsimp only
  rw [if_pos ⟨hw, .inl hq, List.contains_iff_mem.2 hc, hturn⟩, if_pos hr, ht]

/-- The first ready parked group of a core becomes resident where there is a place (R327). -/
theorem execParkedGroupReady_resident {u : Nat} {x : Grp} (hx : s.grp u = some x) (hp : x.place = .parked)
    (hr : (s.core x.core).readyParked.head? = some u) (hres : s.residents x.core < 32) :
    ∃ t y, execParkedGroupReady u s = .next t ∧ t.grp u = some y ∧ y.place = .resident ∧ y.v = x.v ∧ y.slot0 = x.slot0
      ∧ y.slot1 = x.slot1 ∧ t.mem = s.mem := by
  have heq : execParkedGroupReady u s = .next ((s.updCore x.core fun c => { c with readyParked := c.readyParked.filter (· != u) }).makeResident u) := by
    rw [execParkedGroupReady, hx]
    exact if_pos ⟨hp, hr, hres⟩
  have hgrp : (s.updCore x.core fun c => { c with readyParked := c.readyParked.filter (· != u) }).grp u = some x := hx
  exact ⟨_, _, heq, State.makeResident_grp hgrp, rfl, rfl, rfl, rfl, State.makeResident_mem ..⟩

/-- A launch that takes its next gang from a cluster has work there. -/
theorem Launch.workAt_isSome {l : Launch} {cluster : Nat} (h : (l.nextGang cluster).isSome = true) : (l.workAt cluster).isSome = true := by
  obtain ⟨x, hx⟩ := Option.isSome_iff_exists.1 h
  rw [Launch.workAt, hx]
  rfl

/-- Whether a window of one core holds no gang of a higher priority and is not quarantined (R325). -/
def State.cleanAt (s : State) (l : Launch) (c : Nat) : Bool :=
  !(s.gangs.any fun g => g.place == .placed && decide (l.book.priority < g.priority) && g.cores.any ((List.range 1).map (c + ·)).contains)
    && ((List.range 1).map (c + ·)).all fun x => !s.quarantined x

/-- The lowest window of a cluster is cleared for a launch of gangs of one core (R325). -/
theorem execClusterClear_clears {cluster : Nat} {l : Launch} (hl : s.launch k = some l) (he : l.ending = false) (h1 : l.book.gangCores = 1)
    (hn : (l.nextGang cluster).isSome = true) (hf : s.fitsBut [] cluster l.book = false)
    (hprio : ∀ x ∈ s.gangs, x.place = .placed → x.priority ≤ l.book.priority) (hq : s.quarantined (8 * cluster) = false)
    (hfree : ∃ i < 8, s.coreGangs [] (8 * cluster + i) = [] ∧ s.quarantined (8 * cluster + i) = false)
    (ht : tget l.turns cluster l.dealtAt + 50 * 1900 ≤ s.clk) (hc : cluster ∉ l.clearing)
    (ho : s.clearedForOther l.part cluster l.id = false) (hh : s.higherWaits l.part cluster l.book.priority = false) :
    execClusterClear cluster k (8 * cluster) s = .next
      (((s.gangs.filter fun x => x.place == .placed && x.cores.any ((List.range 1).map (8 * cluster + ·)).contains).map (·.id)).foldl
        State.askEvict (s.updLaunch k fun x => { x with clearing := cluster :: x.clearing })) := by
  have hnone : (s.gangs.any fun g => g.place == .placed && decide (l.book.priority < g.priority)
      && g.cores.any ((List.range 1).map (8 * cluster + ·)).contains) = false :=
    List.any_eq_false.2 fun x hx h => by
      simp only [Bool.and_eq_true, beq_iff_eq, decide_eq_true_eq] at h
      exact absurd h.1.2 (Nat.not_lt.2 (hprio x hx h.1.1))
  have hwin : (((List.range 1).map (8 * cluster + ·)).all fun x => !s.quarantined x) = true := by simp [hq]
  have hclean : s.cleanAt l (8 * cluster) = true := by rw [State.cleanAt, hnone, hwin]; rfl
  have hfind : (8 * cluster :: (List.range 7).map fun i => 8 * cluster + (i + 1)).find? (s.cleanAt l) = some (8 * cluster) :=
    List.find?_cons_of_pos hclean
  have hplaces : 1 ≤ ((List.range 8).filter fun i => (s.coreGangs [] (8 * cluster + i)).isEmpty && !s.quarantined (8 * cluster + i)).length := by
    obtain ⟨i, hi, hempty, hqi⟩ := hfree
    exact List.length_pos_of_mem (List.mem_filter.2 ⟨List.mem_range.2 hi, by simp [hempty, hqi]⟩)
  have hwork : ((l.workAt cluster).isSome || s.gangs.any fun g => g.launch == k && s.wantsPlace g) = true := by
    rw [Launch.workAt_isSome hn]
    rfl
  have hclear : l.clearing.contains cluster = false := by simpa using hc
  rw [execClusterClear, hl]
  dsimp only
  rw [h1]
  show (match (8 * cluster :: (List.range 7).map fun i => 8 * cluster + (i + 1)).find? (s.cleanAt l) with
    | some c => _
    | none => _) = _
  rw [hfind]
  dsimp only
  rw [if_pos ⟨rfl, he, hwork, hf, hplaces, ht, hclear, ho, hh⟩]
  rfl

end

/-! What an eviction leaves of the gangs and of each group (R27). -/

/-- A group that is still the same one, of the same gang. -/
structure SameGrp (y x : Grp) : Prop where
  uid : x.uid = y.uid
  gang : x.gang = y.gang

/-- A group where it was: its place and its image's are as before. -/
structure Unmoved (y x : Grp) : Prop extends SameGrp y x where
  place : x.place = y.place
  cached : x.cached = y.cached

theorem Unmoved.refl (y : Grp) : Unmoved y y := ⟨⟨rfl, rfl⟩, rfl, rfl⟩

theorem Unmoved.trans {z y x : Grp} (h : Unmoved z y) (k : Unmoved y x) : Unmoved z x :=
  ⟨⟨k.uid.trans h.uid, k.gang.trans h.gang⟩, k.place.trans h.place, k.cached.trans h.cached⟩

theorem forall₂_comp {α : Type} {R S T : α → α → Prop} (h : ∀ a b c, R a b → S b c → T a c) {xs ys zs : List α}
    (hr : List.Forall₂ R xs ys) (hs : List.Forall₂ S ys zs) : List.Forall₂ T xs zs := by
  induction hr generalizing zs with
  | nil =>
    cases hs
    exact .nil
  | cons hab _ ih =>
    cases hs with
    | cons hbc hr => exact .cons (h _ _ _ hab hbc) (ih hr)

theorem forall₂_self {α : Type} {R : α → α → Prop} (h : ∀ a, R a a) (xs : List α) : List.Forall₂ R xs xs :=
  List.forall₂_same.2 fun a _ => h a

/-- The gangs are as before, and each group has become another as a relation says. -/
structure Became (R : Grp → Grp → Prop) (s t : State) : Prop where
  gangs : t.gangs = s.gangs
  groups : List.Forall₂ R s.groups t.groups

theorem Became.comp {R S T : Grp → Grp → Prop} {s t u : State} (h : Became R s t) (k : Became S t u)
    (hT : ∀ a b c, R a b → S b c → T a c) : Became T s u :=
  ⟨k.gangs.trans h.gangs, forall₂_comp hT h.groups k.groups⟩

/-- Every group is where it was. -/
abbrev StayPut (s t : State) : Prop := Became Unmoved s t

theorem StayPut.of_eq {s t : State} (hk : t.gangs = s.gangs) (hg : t.groups = s.groups) : StayPut s t :=
  ⟨hk, by rw [hg]; exact forall₂_self Unmoved.refl _⟩

theorem StayPut.trans {s t u : State} (h : StayPut s t) (k : StayPut t u) : StayPut s u := h.comp k fun _ _ _ => Unmoved.trans

theorem StayPut.map {s t : State} {f : Grp → Grp} (hk : t.gangs = s.gangs) (hg : t.groups = s.groups.map f) (hf : ∀ g, Unmoved g (f g)) :
    StayPut s t := by
  refine ⟨hk, ?_⟩
  rw [hg, List.forall₂_map_right_iff]
  exact forall₂_self hf _

theorem forall₂_updFirst {α : Type} {R : α → α → Prop} {p : α → Bool} {f : α → α} (xs : List α) (hr : ∀ a, R a a)
    (hf : ∀ a, xs.find? p = some a → R a (f a)) : List.Forall₂ R xs (updFirst p f xs) := by
  induction xs with
  | nil => exact .nil
  | cons a r ih =>
    by_cases hp : p a = true
    · rw [updFirst, if_pos hp]
      exact .cons (hf a (List.find?_cons_of_pos hp)) (forall₂_self hr r)
    · rw [updFirst, if_neg hp]
      exact .cons (hr a) (ih fun b hb => hf b ((List.find?_cons_of_neg hp).trans hb))

theorem StayPut.updGrp {s : State} {u : Nat} {f : Grp → Grp} (hf : ∀ g, s.grp u = some g → Unmoved g (f g)) : StayPut s (s.updGrp u f) :=
  ⟨rfl, forall₂_updFirst _ Unmoved.refl hf⟩

theorem StayPut.foldl {α : Type} {f : State → α → State} (h : ∀ s x, StayPut s (f s x)) (s : State) (xs : List α) : StayPut s (xs.foldl f s) := by
  induction xs generalizing s with
  | nil => exact .of_eq rfl rfl
  | cons x r ih => exact (h s x).trans (ih _)

theorem StayPut.onlyMem {s t : State} (h : State.OnlyMem s t) : StayPut s t := .of_eq h.gangs h.groups

/-! Stores at their homes, error records and WC sectors (R148, R190, R350). -/

theorem StayPut.noteTime (s : State) (part t : Nat) : StayPut s (s.noteTime part t) :=
  .of_eq (by rw [State.noteTime_onlyParts]) (by rw [State.noteTime_onlyParts])

theorem StayPut.evictLine (s : State) (line : Nat) : StayPut s (s.evictLine line) := by
  unfold State.evictLine
  split <;> exact .of_eq rfl rfl

theorem StayPut.setLine (s : State) (pa : Nat) (x : LineTimes) : StayPut s (s.setLine pa x) := by
  unfold State.setLine
  dsimp only
  have hlines : StayPut s { s with lines := tset s.lines (lineOf pa) x } := .of_eq rfl rfl
  split
  · exact hlines.trans (StayPut.evictLine ..)
  · exact hlines

theorem StayPut.writePa (s : State) (pa : Nat) (bs : List Byte) : StayPut s (s.writePa pa bs) := by
  unfold State.writePa
  split <;> exact .of_eq rfl rfl

theorem StayPut.fireWatches (s : State) (t : Target) (n : Nat) : StayPut s (s.fireWatches t n) :=
  StayPut.map (f := fun g => { g with slot0 := g.slot0.touched (fun x => Target.overlap t n (watchTarget g x) 4)
                                      slot1 := g.slot1.touched (fun x => Target.overlap t n (watchTarget g x) 4) }) rfl rfl
    fun _ => ⟨⟨rfl, rfl⟩, rfl, rfl⟩

theorem StayPut.noteDirty (s : State) (pa n part : Nat) : StayPut s (s.noteDirty pa n part) := .of_eq rfl rfl

theorem StayPut.homeStore (s : State) (part pts pa : Nat) (bs : List Byte) (bank : Bool) : StayPut s (s.homeStore part pts pa bs bank).2 := by
  have hstamp : StayPut s ((s.writePa pa bs).stampLine pa part (s.writeTime pa part pts)) :=
    (StayPut.writePa ..).trans ((StayPut.setLine ..).trans (StayPut.noteTime ..))
  unfold State.homeStore
  dsimp only
  split
  · exact hstamp.trans (StayPut.fireWatches ..)
  · exact (hstamp.trans (StayPut.noteDirty ..)).trans (StayPut.fireWatches ..)

theorem StayPut.agentStore (s : State) (part pts pa : Nat) (bs : List Byte) (bank : Bool) : StayPut s (s.agentStore part pts pa bs bank).2 := by
  unfold State.agentStore
  split
  · exact .of_eq rfl rfl
  · exact StayPut.homeStore ..

theorem StayPut.errorRecord (s : State) (part launchId kind group block pc pa : Nat) :
    StayPut s (s.errorRecord part launchId kind group block pc pa) := by
  unfold State.errorRecord
  dsimp only
  split
  · exact .of_eq rfl rfl
  · exact (StayPut.agentStore ..).trans (.of_eq rfl rfl)

theorem StayPut.imprecise (s : State) (kind : ErrKind) (part slot : Nat) (ord : BitVec 8) (pa : Nat) :
    StayPut s (s.imprecise kind part slot ord pa) := by
  have hmark : StayPut s (if kind = .homelost then s else { s with pois := markPois s.pois (sectorOf pa) }) := by
    split <;> exact .of_eq rfl rfl
  unfold State.imprecise
  dsimp only
  split
  · exact hmark.trans (StayPut.errorRecord ..)
  · refine (hmark.trans ?_).trans (StayPut.errorRecord ..)
    exact .of_eq rfl rfl

/-- The accesses that a step has done and the lines they waited for move no group. -/
theorem StayPut.withReqs {s t : State} (h : StayPut s t) (rs : List Req) (ws : List LineWait) : StayPut s { t with reqs := rs, lineWaits := ws } :=
  ⟨h.gangs, h.groups⟩

/-- The bytes of a WC sector written at their home. -/
theorem StayPut.wcBytes (s : State) (e : WcEntry) (part : Nat) :
    StayPut s (let t : State := (List.range 32).foldl (fun s i =>
        if e.mask.getLsbD i then s.writePa (e.sector * 32 + i) [e.data.extractLsb' (8 * i) 8] else s) s
      let t : State := if e.mask = BitVec.allOnes 32 then { t with pois := clearPois t.pois (e.sector * 32) 32 } else t
      let t : State := t.dropCopies (e.sector * 32)
      (if e.bank then t else t.noteDirty (e.sector * 32) 32 part).fireWatches (.mem (e.sector * 32) .coherent) 32) := by
  have hbyte (t : State) (i : Nat) : StayPut t (if e.mask.getLsbD i then t.writePa (e.sector * 32 + i) [e.data.extractLsb' (8 * i) 8] else t) := by
    split
    · exact StayPut.writePa ..
    · exact .of_eq rfl rfl
  have hbytes := StayPut.foldl hbyte s (List.range 32)
  have hpois (t : State) (h : StayPut s t) :
      StayPut s (if e.mask = BitVec.allOnes 32 then { t with pois := clearPois t.pois (e.sector * 32) 32 } else t) := by
    split
    · exact h.trans (.of_eq rfl rfl)
    · exact h
  have hdirty (t : State) (h : StayPut s t) : StayPut s (if e.bank then t else t.noteDirty (e.sector * 32) 32 part) := by
    split
    · exact h
    · exact h.trans (StayPut.noteDirty ..)
  have hdrop (t : State) (h : StayPut s t) : StayPut s (t.dropCopies (e.sector * 32)) := h.trans (.of_eq rfl rfl)
  exact (hdirty _ (hdrop _ (hpois _ hbytes))).trans (StayPut.fireWatches _ _ _)

theorem StayPut.wcWrite (s : State) (e : WcEntry) (part : Nat) : StayPut s (s.wcWrite e part) := by
  unfold State.wcWrite
  refine StayPut.withReqs ?_ _ _
  by_cases hf : (s.die (homeDie (e.sector * 32))).failed = true
  · rw [if_pos hf]
    exact StayPut.foldl (f := fun s (r : Req) => s.imprecise .homelost r.part r.imgSlot r.ord (e.sector * 32))
      (fun t r => StayPut.imprecise ..) s _
  · rw [if_neg hf]
    exact StayPut.wcBytes s e part

theorem StayPut.wcLeave (s : State) (core : Nat) (e : WcEntry) : StayPut s (s.wcLeave core e) := by
  unfold State.wcLeave
  split
  · dsimp only
    split
    · unfold State.await
      split <;> exact .of_eq rfl rfl
    · exact .of_eq rfl rfl
  · exact StayPut.wcWrite ..

theorem StayPut.wcFlush (s : State) (core : Nat) (p : WcEntry → Bool) : StayPut s (s.wcFlush core p) := by
  unfold State.wcFlush
  have hcore : StayPut s (s.updCore core fun c => { c with wc := c.wc.filter fun e => !p e }) := .of_eq rfl rfl
  exact hcore.trans (StayPut.foldl (f := fun s e => s.wcLeave core e) (fun t e => StayPut.wcLeave t core e) _ _)

/-! Eviction (R27). -/

/-- A group whose fragments watch nothing any more (R174). -/
def Grp.unwatched (g : Grp) : Grp :=
  { g with slot0 := { g.slot0 with watched := false, due := 0 }, slot1 := { g.slot1 with watched := false, due := 0 } }

/-- A group that leaves its core is where it was. -/
theorem StayPut.leaveCore (s : State) (u core : Nat) : StayPut s (s.leaveCore u core) := by
  have hfree (t : State) : StayPut t ((({ t with copies := t.copies.filter fun c => c.owner != some u } : State).unwait u).unawait fun w => w.readsOf u) :=
    .of_eq rfl rfl
  have hlose (t : State) : StayPut t (t.updGrp u Grp.unwatched) := StayPut.updGrp fun _ _ => ⟨⟨rfl, rfl⟩, rfl, rfl⟩
  have hout (t : State) : StayPut t (t.unschedule u core) := .of_eq rfl rfl
  unfold State.leaveCore
  exact (((StayPut.wcFlush s core fun e => e.uid == u).trans (hfree _)).trans (hlose _)).trans (hout _)

/-- The group of a name changed as a relation says, and every other where it was. -/
structure MovedAt (u : Nat) (P : Grp → Prop) (y x : Grp) : Prop extends SameGrp y x where
  here : y.uid = u → P x
  other : y.uid ≠ u → x.place = y.place ∧ x.cached = y.cached

/-- Names are kept where each group has become another of its name. -/
theorem Became.uids {R : Grp → Grp → Prop} {s t : State} (h : Became R s t) (hR : ∀ y x, R y x → SameGrp y x) :
    t.groups.map (·.uid) = s.groups.map (·.uid) := by
  have hgroups := h.groups
  generalize s.groups = ys, t.groups = xs at hgroups
  induction hgroups with
  | nil => rfl
  | cons hyx _ ih => rw [List.map_cons, List.map_cons, ih, (hR _ _ hyx).uid]

/-- Where names are distinct, a change of the first group of a name is a change of the groups of that name. -/
theorem forall₂_updFirst_uid {u : Nat} {f : Grp → Grp} (gs : List Grp) (hn : (gs.map (·.uid)).Nodup) :
    List.Forall₂ (fun y x => (y.uid = u → x = f y) ∧ (y.uid ≠ u → x = y)) gs (updFirst (fun g => g.uid == u) f gs) := by
  induction gs with
  | nil => exact .nil
  | cons g r ih =>
    rw [List.map_cons, List.nodup_cons] at hn
    by_cases hu : g.uid = u
    · rw [updFirst, if_pos (beq_iff_eq.2 hu)]
      refine .cons ⟨fun _ => rfl, fun h => absurd hu h⟩ (List.forall₂_same.2 fun y hy => ⟨fun h => ?_, fun _ => rfl⟩)
      exact absurd (List.mem_map.2 ⟨y, hy, h.trans hu.symm⟩) hn.1
    · rw [updFirst, if_neg (by rwa [beq_iff_eq])]
      exact .cons ⟨fun h => absurd h hu, fun _ => rfl⟩ (ih hn.2)

/-- Where names are distinct, each group is found by its name. -/
theorem grp_of_mem {s : State} {g : Grp} (hn : (s.groups.map (·.uid)).Nodup) (hg : g ∈ s.groups) : s.grp g.uid = some g := by
  rw [State.grp]
  generalize s.groups = gs at hn hg
  induction gs with
  | nil => exact absurd hg List.not_mem_nil
  | cons x r ih =>
    rw [List.map_cons, List.nodup_cons] at hn
    rcases List.mem_cons.1 hg with rfl | hr
    · exact List.find?_cons_of_pos (beq_self_eq_true _)
    · have hne : x.uid ≠ g.uid := fun h => hn.1 (List.mem_map.2 ⟨g, hr, h.symm⟩)
      rw [List.find?_cons_of_neg (by rwa [beq_iff_eq]), ih hn.2 hr]

/-- A change of a group by its name, where names are distinct. -/
theorem Became.updGrp {s : State} {u : Nat} {f : Grp → Grp} {P : Grp → Prop} (hn : (s.groups.map (·.uid)).Nodup)
    (hf : ∀ g, s.grp u = some g → SameGrp g (f g) ∧ P (f g)) : Became (MovedAt u P) s (s.updGrp u f) := by
  refine ⟨rfl, List.Forall₂.imp (fun y x h => ?_)
    ((List.forall₂_and_left (p := fun y => y ∈ s.groups) s.groups _).2 ⟨fun y hy => hy, forall₂_updFirst_uid s.groups hn⟩)⟩
  obtain ⟨hy, hhere, hother⟩ := h
  by_cases hu : y.uid = u
  · obtain ⟨hsame, hP⟩ := hf y (hu ▸ grp_of_mem hn hy)
    rw [hhere hu]
    exact ⟨hsame, fun _ => hP, fun h => absurd hu h⟩
  · rw [hother hu]
    exact ⟨⟨rfl, rfl⟩, fun h => absurd h hu, fun _ => ⟨rfl, rfl⟩⟩

/-- A change of one group, then a step in which every group stays where it is. -/
theorem MovedAt.stay {u : Nat} {P : Grp → Prop} (hP : ∀ y x, P y → Unmoved y x → P x) {z y x : Grp} (h : MovedAt u P z y) (k : Unmoved y x) :
    MovedAt u P z x :=
  ⟨⟨k.uid.trans h.uid, k.gang.trans h.gang⟩, fun hu => hP y x (h.here hu) k, fun hu =>
    ⟨k.place.trans (h.other hu).1, k.cached.trans (h.other hu).2⟩⟩

/-- A group that an eviction has taken off its core, its image in the register cache still. -/
def OffCore (x : Grp) : Prop := (x.place = .evicted ∨ x.place = .trapParked) ∧ x.cached = true

/-- A group whose image is in memory. -/
def InMemory (x : Grp) : Prop := (x.place = .evicted ∨ x.place = .trapParked) ∧ x.cached = false

/-- The group of a name, its image in the register cache. -/
theorem Became.fetchImage {s : State} {u : Nat} (hn : (s.groups.map (·.uid)).Nodup) :
    Became (MovedAt u fun x => x.cached = true) s (s.fetchImage u) := by
  cases hg : s.grp u with
  | none =>
    rw [State.fetchImage, hg]
    refine ⟨rfl, List.forall₂_same.2 fun y hy => ⟨⟨rfl, rfl⟩, fun hu => ?_, fun _ => ⟨rfl, rfl⟩⟩⟩
    rw [← hu, grp_of_mem hn hy] at hg
    exact absurd hg (by simp)
  | some g =>
    rw [State.fetchImage_eq hg]
    refine Became.updGrp hn fun x hx => ?_
    obtain rfl : g = x := Option.some.inj (hg.symm.trans hx)
    obtain ⟨huid, _, _, _, _, hgang⟩ := fetched_keeps s g
    exact ⟨⟨huid, hgang⟩, rfl⟩

/-! A gang evicted: every group's image is in memory (R25, R27). -/

/-- The group of a name changed by a function, every other as it was. -/
structure ChangedAt (u : Nat) (f : Grp → Grp) (y x : Grp) : Prop where
  here : y.uid = u → x = f y
  other : y.uid ≠ u → x = y

theorem Became.changedAt {s : State} {u : Nat} {f : Grp → Grp} (hn : (s.groups.map (·.uid)).Nodup) : Became (ChangedAt u f) s (s.updGrp u f) :=
  ⟨rfl, (forall₂_updFirst_uid s.groups hn).imp fun _ _ h => ⟨h.1, h.2⟩⟩

/-- A group taken off its core (R27, R190). -/
def Grp.offCore (x : Grp) (now : Nat) : Grp :=
  { x with place := if x.place = .trapParked then .trapParked else .evicted, preempt := false, evCmp := false
           ptsAcc := if x.place = .resident then now - x.ptsSince else x.ptsAcc }

theorem offCore_place (x : Grp) (now : Nat) : (x.offCore now).place = .evicted ∨ (x.offCore now).place = .trapParked := by
  unfold Grp.offCore
  dsimp only
  split
  · exact .inr rfl
  · exact .inl rfl

theorem Became.evictGroup {s : State} (u core : Nat) (hn : (s.groups.map (·.uid)).Nodup) : Became (MovedAt u OffCore) s (s.evictGroup u core) := by
  have hcached : Became (MovedAt u fun x => x.cached = true) s ((s.fetchImage u).leaveCore u core) :=
    (Became.fetchImage hn).comp (StayPut.leaveCore ..) fun _ _ _ => MovedAt.stay fun _ _ hy k => k.cached.trans hy
  have hn' : (((s.fetchImage u).leaveCore u core).groups.map (·.uid)).Nodup := by
    rw [hcached.uids fun _ _ h => h.toSameGrp]
    exact hn
  have hoff : Became (MovedAt u OffCore) s (((s.fetchImage u).leaveCore u core).updGrp u fun x =>
      x.offCore ((s.fetchImage u).leaveCore u core).clk) := by
    refine hcached.comp (Became.changedAt hn') fun z y x h k => ?_
    by_cases hu : y.uid = u
    · have hx := k.here hu
      rw [hx]
      exact ⟨⟨h.uid, h.gang⟩, fun hz => ⟨offCore_place .., h.here hz⟩, fun hz => absurd (h.uid.symm.trans hu) hz⟩
    · rw [k.other hu]
      exact ⟨⟨h.uid, h.gang⟩, fun hz => absurd (h.uid.trans hz) hu, h.other⟩
  exact hoff

/-- The groups of some names are off their cores, every other is where it was. -/
structure EvictedIn (us : List Nat) (y x : Grp) : Prop extends SameGrp y x where
  here : y.uid ∈ us → OffCore x
  other : y.uid ∉ us → x.place = y.place ∧ x.cached = y.cached

theorem Became.evictGroups {s : State} (gs : List Grp) (hn : (s.groups.map (·.uid)).Nodup) :
    Became (EvictedIn (gs.map (·.uid))) s (gs.foldl (fun s g => s.evictGroup g.uid g.core) s) := by
  induction gs generalizing s with
  | nil => exact ⟨rfl, forall₂_self (fun _ => ⟨⟨rfl, rfl⟩, fun h => absurd h List.not_mem_nil, fun _ => ⟨rfl, rfl⟩⟩) _⟩
  | cons g r ih =>
    have hfirst := Became.evictGroup g.uid g.core hn
    have hn' : ((s.evictGroup g.uid g.core).groups.map (·.uid)).Nodup := by
      rw [hfirst.uids fun _ _ h => h.toSameGrp]
      exact hn
    refine hfirst.comp (ih hn') fun z y x h k => ⟨⟨k.uid.trans h.uid, k.gang.trans h.gang⟩, fun hz => ?_, fun hz => ?_⟩
    · by_cases hy : y.uid ∈ r.map (·.uid)
      · exact k.here hy
      · have hzg : z.uid = g.uid := (List.mem_cons.1 hz).resolve_right (h.uid ▸ hy)
        obtain ⟨hp, hc⟩ := k.other hy
        obtain ⟨hplace, hcached⟩ := h.here hzg
        exact ⟨by rw [hp]; exact hplace, hc.trans hcached⟩
    · obtain ⟨hzg, hzr⟩ : z.uid ≠ g.uid ∧ z.uid ∉ r.map (·.uid) := by
        rw [List.map_cons, List.mem_cons, not_or] at hz
        exact hz
      obtain ⟨hp, hc⟩ := k.other (h.uid ▸ hzr)
      obtain ⟨hp', hc'⟩ := h.other hzg
      exact ⟨hp.trans hp', hc.trans hc'⟩

/-- The images of the groups of some names have left the register caches, every other is as it was. -/
structure SavedIn (us : List Nat) (y x : Grp) : Prop extends SameGrp y x where
  place : x.place = y.place
  here : y.uid ∈ us → x.cached = false
  other : y.uid ∉ us → x.cached = y.cached

theorem Became.saveImage {s : State} (u : Nat) (hn : (s.groups.map (·.uid)).Nodup) : Became (SavedIn [u]) s (s.saveImage u) := by
  have hself (h : ∀ y ∈ s.groups, y.uid = u → y.cached = false) : Became (SavedIn [u]) s s :=
    ⟨rfl, List.forall₂_same.2 fun y hy => ⟨⟨rfl, rfl⟩, rfl, fun hu => h y hy (List.mem_singleton.1 hu), fun _ => rfl⟩⟩
  cases hg : s.grp u with
  | none =>
    rw [State.saveImage, hg]
    refine hself fun y hy hu => ?_
    rw [← hu, grp_of_mem hn hy] at hg
    exact absurd hg (by simp)
  | some g =>
    cases hc : g.cached
    · have heq : s.saveImage u = s := by
        rw [State.saveImage, hg]
        exact if_neg (ne_true_of_eq_false hc)
      rw [heq]
      refine hself fun y hy hu => ?_
      rw [← hu, grp_of_mem hn hy, Option.some.injEq] at hg
      rw [hg, hc]
    · rw [State.saveImage_cached hg hc]
      have hmem := s.writeImage_onlyMem g
      have hn' : ((s.writeImage g).groups.map (·.uid)).Nodup := by
        rw [hmem.groups]
        exact hn
      refine (StayPut.onlyMem hmem).comp (Became.changedAt hn') fun z y x h k => ?_
      by_cases hu : y.uid = u
      · rw [k.here hu]
        refine ⟨⟨h.uid, h.gang⟩, h.place, fun _ => rfl, fun hz => absurd ?_ hz⟩
        exact List.mem_singleton.2 (h.uid.symm.trans hu)
      · rw [k.other hu]
        exact ⟨⟨h.uid, h.gang⟩, h.place, fun hz => absurd (h.uid.trans (List.mem_singleton.1 hz)) hu, fun _ => h.cached⟩

theorem Became.saveImages {s : State} (gs : List Grp) (hn : (s.groups.map (·.uid)).Nodup) :
    Became (SavedIn (gs.map (·.uid))) s (gs.foldl (fun s g => s.saveImage g.uid) s) := by
  induction gs generalizing s with
  | nil => exact ⟨rfl, forall₂_self (fun _ => ⟨⟨rfl, rfl⟩, rfl, fun h => absurd h List.not_mem_nil, fun _ => rfl⟩) _⟩
  | cons g r ih =>
    have hfirst := Became.saveImage g.uid hn
    have hn' : ((s.saveImage g.uid).groups.map (·.uid)).Nodup := by
      rw [hfirst.uids fun _ _ h => h.toSameGrp]
      exact hn
    refine hfirst.comp (ih hn') fun z y x h k => ⟨⟨k.uid.trans h.uid, k.gang.trans h.gang⟩, k.place.trans h.place, fun hz => ?_, fun hz => ?_⟩
    · by_cases hy : y.uid ∈ r.map (·.uid)
      · exact k.here hy
      · have hzg : z.uid = g.uid := (List.mem_cons.1 hz).resolve_right (h.uid ▸ hy)
        exact (k.other hy).trans (h.here (List.mem_singleton.2 hzg))
    · obtain ⟨hzg, hzr⟩ : z.uid ≠ g.uid ∧ z.uid ∉ r.map (·.uid) := by
        rw [List.map_cons, List.mem_cons, not_or] at hz
        exact hz
      exact (k.other (h.uid ▸ hzr)).trans (h.other fun hm => hzg (List.mem_singleton.1 hm))

/-- A group whose queue bindings are lost (R223). -/
def Grp.bindingsLost (g : Grp) : Grp := { g with q := g.q.map fun b => if b.kind = .unbound then b else { b with lost := true } }

/-- Engine state dropped moves no group (R223). -/
theorem StayPut.dropEngine (s : State) (gang i : Nat) (b : Bool) : StayPut s (s.dropEngine gang i b) := by
  have hlose (t : State) : StayPut t { t with groups := updAll (fun g => g.gang == gang && g.coreIdx == i) Grp.bindingsLost t.groups } := by
    refine StayPut.map rfl rfl fun g => ?_
    dsimp only
    split <;> exact ⟨⟨rfl, rfl⟩, rfl, rfl⟩
  cases b
  · exact .of_eq rfl rfl
  · refine StayPut.trans ?_ (hlose _)
    exact .of_eq rfl rfl

/-- A wait that ends moves no group (R30, R176). -/
theorem StayPut.updImage (s : State) (u : Nat) {f : Grp → Grp} (hf : ∀ g, Unmoved g (f g)) : StayPut s (s.updImage u f) := by
  unfold State.updImage
  split
  · exact .of_eq rfl rfl
  · next g hg =>
    split
    · exact StayPut.updGrp fun _ _ => hf _
    · refine StayPut.trans (StayPut.updGrp fun x hx => ?_) (StayPut.onlyMem (State.writeImage_onlyMem ..))
      obtain rfl : g = x := Option.some.inj (hg.symm.trans hx)
      have hread : Unmoved g (s.readImage g g.core) := ⟨⟨rfl, rfl⟩, rfl, rfl⟩
      exact hread.trans (hf _)

theorem Unmoved.of_onlyFrags {g h : Grp} (k : Grp.OnlyFrags g h) : Unmoved g h := ⟨⟨k.uid, k.gang⟩, k.place, k.cached⟩

theorem StayPut.endWait (s : State) (u : Nat) (slot : Bool) : StayPut s (s.endWait u slot) := by
  have himage : StayPut s (s.updImage u fun g => (released g slot).boundary slot) :=
    StayPut.updImage s u fun g => Unmoved.of_onlyFrags ((Grp.updSlot_onlyFrags ..).trans (Grp.boundary_onlyFrags _ slot))
  unfold released at himage
  unfold State.endWait
  dsimp only
  split
  · exact himage
  · split
    · exact himage.trans (.of_eq rfl rfl)
    · exact himage

theorem StayPut.raisePts (s : State) (u t : Nat) : StayPut s (s.raisePts u t) := StayPut.updGrp fun _ _ => ⟨⟨rfl, rfl⟩, rfl, rfl⟩

theorem StayPut.wakeSlot (s : State) (u : Nat) (slot : Bool) : StayPut s (s.wakeSlot u slot) := by
  unfold State.wakeSlot
  dsimp only
  split
  · exact .of_eq rfl rfl
  split
  · exact .of_eq rfl rfl
  split
  · split
    · exact .of_eq rfl rfl
    · exact StayPut.endWait ..
  · split
    · exact (StayPut.raisePts ..).trans (StayPut.endWait ..)
    · exact .of_eq rfl rfl
  · split
    · exact .of_eq rfl rfl
    · exact (StayPut.raisePts ..).trans (StayPut.endWait ..)
  · exact .of_eq rfl rfl

theorem StayPut.wakeWaits (s : State) : StayPut s s.wakeWaits := by
  unfold State.wakeWaits
  exact StayPut.foldl (f := fun s u => (s.wakeSlot u false).wakeSlot u true) (fun t u => (StayPut.wakeSlot ..).trans (StayPut.wakeSlot ..)) s _

theorem forall₂_mem_right {α : Type} {R : α → α → Prop} {ys xs : List α} (h : List.Forall₂ R ys xs) {x : α} (hx : x ∈ xs) :
    ∃ y ∈ ys, R y x := by
  induction h with
  | nil => exact absurd hx List.not_mem_nil
  | cons hr _ ih =>
    rcases List.mem_cons.1 hx with rfl | hx
    · exact ⟨_, List.mem_cons_self, hr⟩
    · obtain ⟨y, hy, hyx⟩ := ih hx
      exact ⟨y, List.mem_cons_of_mem _ hy, hyx⟩

section
variable {s : State} {k : Nat} {g : Gang}

/-- A gang that has left its cores (R27). -/
def Gang.offCores (x : Gang) : Gang := { x with place := .parked, cores := [] }

theorem StayPut.writeGangImage (s : State) (g : Gang) (core : Nat) : StayPut s (s.writeGangImage g core) := by
  unfold State.writeGangImage
  split
  · exact StayPut.onlyMem ((State.writeLines_onlyMem ..).trans (State.writeLines_onlyMem ..))
  · exact .of_eq rfl rfl

/-- A gang evicted is parked without cores, and every group of it that has not ended has its image in memory (R27). -/
theorem State.evictGang_leaves (hg : s.gang k = some g) (hn : (s.groups.map (·.uid)).Nodup) :
    (s.evictGang k).gang k = some g.offCores
      ∧ ∀ x ∈ (s.evictGang k).groups, x.gang = k → x.place ≠ .ended → InMemory x := by
  let gs := (s.gangGroups k).filter fun x => x.place != .ended
  let s₁ := gs.foldl (fun s x => s.evictGroup x.uid x.core) s
  let s₂ := (List.range g.cores.length).foldl (fun s i => s.dropEngine k i true) s₁
  let s₃ := gs.foldl (fun s x => s.saveImage x.uid) s₂
  let s₄ := s₃.writeGangImage g (g.cores.headD 0)
  have heq : s.evictGang k = (s₄.updGang k Gang.offCores).wakeWaits := by
    rw [State.evictGang, hg]
    rfl
  have h₁ : Became (EvictedIn (gs.map (·.uid))) s s₁ := Became.evictGroups gs hn
  have h₂ : Became (EvictedIn (gs.map (·.uid))) s s₂ := h₁.comp (StayPut.foldl (f := fun s i => s.dropEngine k i true)
    (fun t i => StayPut.dropEngine t k i true) s₁ _) fun z y x h u =>
      ⟨⟨u.uid.trans h.uid, u.gang.trans h.gang⟩,
        fun hz => ⟨by rw [u.place]; exact (h.here hz).1, u.cached.trans (h.here hz).2⟩,
        fun hz => ⟨u.place.trans (h.other hz).1, u.cached.trans (h.other hz).2⟩⟩
  have hn₂ : (s₂.groups.map (·.uid)).Nodup := by
    rw [h₂.uids fun _ _ h => h.toSameGrp]
    exact hn
  have h₃ : Became (fun y x => SameGrp y x ∧ (y.uid ∈ gs.map (·.uid) → InMemory x) ∧ (y.uid ∉ gs.map (·.uid) → x.place = y.place)) s s₃ :=
    h₂.comp (Became.saveImages gs hn₂) fun z y x h u =>
      ⟨⟨u.uid.trans h.uid, u.gang.trans h.gang⟩,
        fun hz => ⟨by rw [u.place]; exact (h.here hz).1, u.here (h.uid.symm ▸ hz)⟩, fun hz => u.place.trans (h.other hz).1⟩
  have h₄ : StayPut s₃ s₄ := StayPut.writeGangImage ..
  have hwake : StayPut (s₄.updGang k Gang.offCores) (s.evictGang k) := by
    rw [heq]
    exact StayPut.wakeWaits _
  have hgroups : List.Forall₂ (fun y x => SameGrp y x ∧ (y.uid ∈ gs.map (·.uid) → InMemory x) ∧ (y.uid ∉ gs.map (·.uid) → x.place = y.place))
      s.groups (s.evictGang k).groups := by
    have hw : List.Forall₂ Unmoved s₄.groups (s.evictGang k).groups := hwake.groups
    have h₃₄ : List.Forall₂ Unmoved s₃.groups (s.evictGang k).groups :=
      forall₂_comp (R := Unmoved) (S := Unmoved) (T := Unmoved) (fun _ _ _ h u => Unmoved.trans h u) h₄.groups hw
    exact forall₂_comp (fun z y x h u => ⟨⟨u.uid.trans h.1.uid, u.gang.trans h.1.gang⟩,
      fun hz => ⟨by rw [u.place]; exact (h.2.1 hz).1, u.cached.trans (h.2.1 hz).2⟩, fun hz => u.place.trans (h.2.2 hz)⟩) h₃.groups h₃₄
  refine ⟨?_, fun x hx hk hp => ?_⟩
  · have hgangs : s₄.gang k = some g := by
      rw [State.gang, h₄.gangs, h₃.gangs]
      exact hg
    rw [State.gang, hwake.gangs]
    have hup := State.gang_updGang (f := Gang.offCores) hgangs (show g.id = k from State.gang_id hg)
    rwa [State.gang] at hup
  · obtain ⟨y, hy, hsame, hhere, hother⟩ := forall₂_mem_right hgroups hx
    refine hhere (by_contra fun hno => hno ?_)
    have hplace : y.place ≠ .ended := hother hno ▸ hp
    refine List.mem_map.2 ⟨y, List.mem_filter.2 ⟨List.mem_filter.2 ⟨hy, ?_⟩, bne_iff_ne.2 hplace⟩, rfl⟩
    exact beq_iff_eq.2 (hsame.gang.symm.trans hk)

end

/-! What translations, images and agents read depends on: memory, translation caches and roots (R319, R336 to R341). -/

/-- Two states of one memory, one record of configuration, and partitions that differ in their launch queues alone. -/
structure SameMaps (s t : State) : Prop where
  mem : t.mem = s.mem
  pois : t.pois = s.pois
  conf : t.conf = s.conf
  cores : t.cores = s.cores
  dies : t.dies = s.dies
  parts : ∀ p, { t.part p with queues := [] } = { s.part p with queues := [] }

namespace SameMaps

theorem refl (s : State) : SameMaps s s := ⟨rfl, rfl, rfl, rfl, rfl, fun _ => rfl⟩

section
variable {s t : State} (h : SameMaps s t)
include h

theorem trans {u : State} (k : SameMaps t u) : SameMaps s u :=
  ⟨k.mem.trans h.mem, k.pois.trans h.pois, k.conf.trans h.conf, k.cores.trans h.cores, k.dies.trans h.dies,
    fun p => (k.parts p).trans (h.parts p)⟩

/-- A field of a partition that does not look at its launch queues. -/
theorem field {α : Type} (f : PartState → α) (hf : ∀ p, f { p with queues := [] } = f p) (p : Nat) : f (t.part p) = f (s.part p) := by
  rw [← hf (t.part p), h.parts p, hf]

theorem core (c : Nat) : t.core c = s.core c := by rw [State.core, h.cores, State.core]
theorem die (d : Nat) : t.die d = s.die d := by rw [State.die, h.dies, State.die]
theorem s1root (p : Nat) : (t.part p).s1root = (s.part p).s1root := h.field PartState.s1root (fun _ => rfl) p
theorem agentRoot (p : Nat) : (t.part p).agentRoot = (s.part p).agentRoot := h.field PartState.agentRoot (fun _ => rfl) p

theorem paFault (pa n : Nat) : t.paFault pa n = s.paFault pa n := by rw [State.paFault, h.conf, State.paFault]
theorem paPois (pa n : Nat) : t.paPois pa n = s.paPois pa n := by rw [State.paPois, h.pois, h.die, State.paPois]
theorem readPa (pa n : Nat) : t.readPa pa n = s.readPa pa n := by rw [State.readPa, h.mem, State.readPa]
theorem readPaNat (pa n : Nat) : t.readPaNat pa n = s.readPaNat pa n := by rw [State.readPaNat, h.readPa, State.readPaNat]

theorem readEntry (pa stage level : Nat) : t.readEntry pa stage level = s.readEntry pa stage level := by
  simp only [State.readEntry, h.paFault, h.paPois, h.readPaNat]

theorem walkFrom (cs : List PtrEntry) (part : Nat) (root : Word) (stage a : Nat)
    (locate : Nat → Except WalkErr (List PtrEntry × Nat)) (k table : Nat) :
    t.walkFrom cs part root stage a locate k table = s.walkFrom cs part root stage a locate k table := by
  induction k generalizing table with
  | zero => rfl
  | succ k ih => simp only [State.walkFrom, ih, h.readEntry]

theorem walk2 (cs : List PtrEntry) (part : Nat) (root : Word) (ipa : Nat) : t.walk2 cs part root ipa = s.walk2 cs part root ipa := by
  simp only [State.walk2, h.walkFrom]

theorem walkWith (cs : List PtrEntry) (part : Nat) (root : Word) (va : Nat) : t.walkWith cs part root va = s.walkWith cs part root va := by
  simp only [State.walkWith, h.walkFrom, h.walk2, h.s1root]

theorem clusterTlb (core : Nat) : t.clusterTlb core = s.clusterTlb core := by rw [State.clusterTlb, h.die, State.clusterTlb]

theorem translate (core part : Nat) (system : Bool) (va : Nat) : t.translate core part system va = s.translate core part system va := by
  simp only [State.translate, State.lookup, State.lookupWith, h.walkWith, h.core, h.die, h.clusterTlb]

/-! A group's image (R28). -/

theorem readLines (core part va : Nat) (own : List Byte) : t.readLines core part va own = s.readLines core part va own := by
  simp only [State.readLines, h.translate, h.paFault, h.readPa]

theorem codeAt (g : Grp) (core : Nat) (off : Word) : t.codeAt g core off = s.codeAt g core off := by
  simp only [State.codeAt, h.translate, h.paFault, h.readPaNat]

theorem pendInfo (g : Grp) (core : Nat) (pc : Word) : t.pendInfo g core pc = s.pendInfo g core pc := by
  simp only [State.pendInfo, h.codeAt]

theorem readImage (g : Grp) (core : Nat) : t.readImage g core = s.readImage g core := by
  simp only [State.readImage, h.readLines, h.pendInfo]

/-! What an agent reads (R181, R319). -/

theorem agentXlate (part va : Nat) : t.agentXlate part va = s.agentXlate part va := by
  simp only [State.agentXlate, State.walk, h.walkWith, h.agentRoot, h.paFault]

theorem agentRead (part va n : Nat) : t.agentRead part va n = s.agentRead part va n := by
  simp only [State.agentRead, h.agentXlate, h.paPois, h.readPa]

theorem ringDesc (part ring : Nat) : t.ringDesc part ring = s.ringDesc part ring := by
  have hlo := h.field PartState.cbtablo (fun _ => rfl) part
  have hhi := h.field PartState.cbtabhi (fun _ => rfl) part
  simp only [State.ringDesc, hlo, hhi, h.readPa]

theorem partClusters (part : Nat) : t.partClusters part = s.partClusters part := by
  simp only [State.partClusters, h.core]

theorem fitting (part k : Nat) : t.fitting part k = s.fitting part k := by
  simp only [State.fitting, State.quarantined, h.partClusters, h.core, h.die]

theorem fits (part : Nat) (b : Book) : t.fits part b = s.fits part b := by
  rw [State.fits, h.fitting, State.fits]

end

end SameMaps

/-! A gang asked to leave with every group at a boundary leaves at once (R27). -/

section
variable {s : State} {k : Nat} {g : Gang}

theorem State.asked_uids : (s.asked k).groups.map (·.uid) = s.groups.map (·.uid) := by
  rw [State.asked, updAll, List.map_map]
  refine List.map_congr_left fun x _ => ?_
  simp only [Function.comp]
  split <;> rfl

/-- A group of a gang whose pre-emption was asked for was one before, at the same boundary with the same points. -/
theorem State.asked_mem {x : Grp} (hx : x ∈ (s.asked k).groups) :
    ∃ y ∈ s.groups, x.uid = y.uid ∧ x.gang = y.gang ∧ x.place = y.place ∧ x.twin = y.twin ∧ x.points = y.points := by
  obtain ⟨y, hy, rfl⟩ := List.mem_map.1 hx
  refine ⟨y, hy, ?_⟩
  dsimp only
  split <;> exact ⟨rfl, rfl, rfl, rfl, rfl⟩

/-- A gang without a twin, being evicted, whose groups stand at boundaries with nothing left to compare leaves (R27, R204). -/
theorem State.settleGang_leaves {t : State} {m : Gang} (hm : t.gang k = some m) (hp : m.place = .evicting) (ht : m.twin = none)
    (hx : ∀ x ∈ t.groups, x.gang = k → x.place ≠ .ended → t.atBoundary x.uid = true ∧ x.twin = none ∧ x.points = [])
    (hs : t.scratchBusy [k] = false) : t.settleGang k = t.evictGang k := by
  have hgs : ∀ x ∈ t.groups.filter fun g => [k].contains g.gang && g.place != .ended,
      t.atBoundary x.uid = true ∧ x.twin = none ∧ x.points = [] := fun x hxs => by
    obtain ⟨hmem, hc⟩ := List.mem_filter.1 hxs
    simp only [Bool.and_eq_true, bne_iff_ne, List.contains_iff_mem, List.mem_singleton] at hc
    exact hx x hmem hc.1 hc.2
  have hready : ((t.groups.filter fun g => [k].contains g.gang && g.place != .ended).all fun g => t.atBoundary g.uid && !t.behindTwin g) = true :=
    List.all_eq_true.2 fun x hxs => by
      obtain ⟨hb, htwin, _⟩ := hgs x hxs
      simp [hb, State.behindTwin, htwin]
  have hdone : ((t.groups.filter fun g => [k].contains g.gang && g.place != .ended).all fun g =>
      g.points.isEmpty && (g.evCmp || g.twin.isNone || g.mism)) = true :=
    List.all_eq_true.2 fun x hxs => by
      obtain ⟨_, htwin, hpts⟩ := hgs x hxs
      simp [htwin, hpts]
  rw [State.settleGang, hm]
  dsimp only
  rw [ht]
  show (if m.place = .evicting ∧ (t.groups.filter fun g => [k].contains g.gang && g.place != .ended).all _ = true ∧ t.scratchBusy [k] = false
    then _ else t) = _
  rw [if_pos ⟨hp, hready, hs⟩]
  exact if_pos hdone

/-- A pre-emption of a gang at its boundaries: parked without cores, every group's image in memory. -/
theorem State.askEvict_leaves (hg : s.gang k = some g) (hp : g.place = .placed) (ht : g.twin = none) (hn : (s.groups.map (·.uid)).Nodup)
    (hx : ∀ x ∈ s.groups, x.gang = k → x.place ≠ .ended → s.atBoundary x.uid = true ∧ x.twin = none ∧ x.points = [])
    (hs : s.scratchBusy [k] = false) :
    (s.askEvict k).gang k = some (Gang.offCores { g with place := .evicting })
      ∧ ∀ x ∈ (s.askEvict k).groups, x.gang = k → x.place ≠ .ended → InMemory x := by
  have hasked := State.asked_gang hg hp
  have hleaves : s.askEvict k = (s.asked k).evictGang k := by
    rw [State.askEvict_single hg ht]
    refine State.settleGang_leaves hasked rfl ht (fun x hxs hk hpl => ?_) hs
    obtain ⟨y, hy, huid, hgang, hplace, htwin, hpts⟩ := State.asked_mem hxs
    obtain ⟨hb, hyt, hyp⟩ := hx y hy (hgang.symm.trans hk) (hplace ▸ hpl)
    exact ⟨by rw [huid]; exact hb, htwin.trans hyt, hpts.trans hyp⟩
  rw [hleaves]
  exact State.evictGang_leaves hasked (by rw [State.asked_uids]; exact hn)

end

/-! A parked gang of one group resumes as its image holds it (R28). -/

/-- A group with other arrival records. -/
def Grp.withArr (g : Grp) (a : Tbl Nat) : Grp := { g with arr := a }

/-- Everything but launches, gangs, engines and groups' arrival records is as before. -/
structure Reloading (s t : State) : Prop where
  eq : ∃ ls gs es xs, t = { s with launches := ls, gangs := gs, engs := es, groups := xs }
  groups : List.Forall₂ (fun y x => ∃ a, x = y.withArr a) s.groups t.groups

theorem Reloading.of_eq {s t : State} (heq : ∃ ls gs es, t = { s with launches := ls, gangs := gs, engs := es }) : Reloading s t := by
  obtain ⟨ls, gs, es, rfl⟩ := heq
  exact ⟨⟨ls, gs, es, s.groups, rfl⟩, forall₂_self (fun y => ⟨y.arr, rfl⟩) _⟩

theorem Reloading.trans {s t u : State} (h : Reloading s t) (k : Reloading t u) : Reloading s u := by
  obtain ⟨⟨ls, gs, es, xs, rfl⟩, hg⟩ := h
  obtain ⟨⟨ls', gs', es', xs', rfl⟩, hg'⟩ := k
  refine ⟨⟨ls', gs', es', xs', rfl⟩, forall₂_comp (fun z y x hzy hyx => ?_) hg hg'⟩
  obtain ⟨a, rfl⟩ := hzy
  obtain ⟨b, rfl⟩ := hyx
  exact ⟨b, rfl⟩

theorem Reloading.foldl {α : Type} {f : State → α → State} (h : ∀ s x, Reloading s (f s x)) (s : State) (xs : List α) :
    Reloading s (xs.foldl f s) := by
  induction xs generalizing s with
  | nil => exact .of_eq ⟨_, _, _, rfl⟩
  | cons x r ih => exact (h s x).trans (ih _)

theorem Reloading.arr (s : State) (u : Nat) (f : Grp → Tbl Nat) : Reloading s (s.updGrp u fun g => g.withArr (f g)) :=
  ⟨⟨s.launches, s.gangs, s.engs, _, rfl⟩, forall₂_updFirst _ (fun y => ⟨y.arr, rfl⟩) fun y _ => ⟨f y, rfl⟩⟩

theorem Reloading.readGangImage (s : State) (g : Gang) (core : Nat) : Reloading s (s.readGangImage g core) := by
  unfold State.readGangImage
  split
  · exact (Reloading.foldl (f := fun s (r : (Nat × Nat × Nat) × Nat) =>
        s.updGrp r.1.1 fun g => g.withArr (if r.2 / 2 ^ 63 = 1 then tset g.arr r.1.2.1 (r.2 % 2 ^ 48) else terase g.arr r.1.2.1))
      (fun t r => Reloading.arr t r.1.1 fun g => if r.2 / 2 ^ 63 = 1 then tset g.arr r.1.2.1 (r.2 % 2 ^ 48) else terase g.arr r.1.2.1) s _).trans
      (.of_eq ⟨_, _, _, rfl⟩)
  · exact .of_eq ⟨_, _, _, rfl⟩

section
variable {s t : State} (h : Reloading s t)
include h

theorem Reloading.sameMaps : SameMaps s t := by
  obtain ⟨ls, gs, es, xs, rfl⟩ := h.eq
  exact ⟨rfl, rfl, rfl, rfl, rfl, fun _ => rfl⟩

theorem Reloading.clk : t.clk = s.clk := by
  obtain ⟨ls, gs, es, xs, rfl⟩ := h.eq
  rfl

/-- Lists found by anything but the arrival records are lists of the same groups. -/
theorem Reloading.filter {p : Grp → Bool} (hp : ∀ y a, p (y.withArr a) = p y) :
    List.Forall₂ (fun y x => ∃ a, x = y.withArr a) (s.groups.filter p) (t.groups.filter p) := by
  have hg := h.groups
  generalize s.groups = ys, t.groups = xs at hg
  induction hg with
  | nil => exact .nil
  | @cons y _ _ _ hyx _ ih =>
    obtain ⟨a, rfl⟩ := hyx
    by_cases hy : p y = true
    · rw [List.filter_cons_of_pos hy, List.filter_cons_of_pos ((hp y a).trans hy)]
      exact .cons ⟨a, rfl⟩ ih
    · rw [List.filter_cons_of_neg hy, List.filter_cons_of_neg (by rwa [hp])]
      exact ih

theorem Reloading.find {u : Nat} {x : Grp} (hx : s.grp u = some x) : ∃ a, t.grp u = some (x.withArr a) := by
  have hg := h.groups
  rw [State.grp] at hx ⊢
  generalize s.groups = ys, t.groups = xs at hg hx
  induction hg with
  | nil => exact absurd hx (by simp)
  | @cons y _ _ _ hyx _ ih =>
    obtain ⟨a, rfl⟩ := hyx
    by_cases hu : (y.uid == u) = true
    · rw [List.find?_cons_of_pos (p := fun g : Grp => g.uid == u) hu] at hx
      exact ⟨a, (List.find?_cons_of_pos (p := fun g : Grp => g.uid == u) (a := y.withArr a) hu).trans (by rw [Option.some.inj hx])⟩
    · rw [List.find?_cons_of_neg (p := fun g : Grp => g.uid == u) hu] at hx
      obtain ⟨b, hb⟩ := ih hx
      exact ⟨b, (List.find?_cons_of_neg (p := fun g : Grp => g.uid == u) (a := y.withArr a) hu).trans hb⟩

theorem Reloading.residents (core : Nat) : t.residents core = s.residents core :=
  (h.filter fun _ _ => rfl).length_eq.symm

theorem Reloading.lines (core : Nat) : ((t.cachedOn core).map Grp.lines) = (s.cachedOn core).map Grp.lines := by
  have hf : List.Forall₂ (fun y x => ∃ a, x = y.withArr a) (s.cachedOn core) (t.cachedOn core) := h.filter fun _ _ => rfl
  generalize s.cachedOn core = ys, t.cachedOn core = xs at hf
  induction hf with
  | nil => rfl
  | cons hyx _ ih =>
    obtain ⟨a, rfl⟩ := hyx
    rw [List.map_cons, List.map_cons, ih]
    rfl

end

/-! A parked gang of one group on its new cores (R28, R204). -/

theorem length_filter_updFirst_le {α : Type} (p q : α → Bool) {y : α} (hy : q y = false) (xs : List α) :
    ((updFirst p (fun _ => y) xs).filter q).length ≤ (xs.filter q).length := by
  induction xs with
  | nil => exact Nat.le_refl _
  | cons x r ih =>
    by_cases hp : p x = true
    · rw [updFirst, if_pos hp, List.filter_cons_of_neg (ne_true_of_eq_false hy)]
      exact ((List.sublist_cons_self x r).filter q).length_le
    · rw [updFirst, if_neg hp]
      by_cases hq : q x = true
      · rw [List.filter_cons_of_pos hq, List.filter_cons_of_pos hq, List.length_cons, List.length_cons]
        exact Nat.succ_le_succ ih
      · rw [List.filter_cons_of_neg hq, List.filter_cons_of_neg hq]
        exact ih

/-- The first of a kind replaced, then changed. -/
theorem updFirst_replaced {α : Type} {p : α → Bool} {y : α} (hy : p y = true) (f : α → α) (xs : List α) :
    updFirst p f (updFirst p (fun _ => y) xs) = updFirst p (fun _ => f y) xs := by
  induction xs with
  | nil => rfl
  | cons x r ih =>
    by_cases hp : p x = true
    · rw [updFirst, if_pos hp, updFirst, if_pos hy, updFirst, if_pos hp]
    · rw [updFirst, if_neg hp, updFirst, if_neg hp, updFirst, if_neg hp, ih]

/-- A gang on its new cores from a first one (R28). -/
def Gang.onCores (g : Gang) (n core t : Nat) : Gang := { g with place := .placed, cores := (List.range n).map (core + ·), placedAt := t }

/-- A group as its image holds it, on a core, before it is issue-resident (R28). -/
def reloaded (s : State) (x : Grp) (core : Nat) : Grp :=
  let h := s.readImage x core
  let again := s.rewatch { h with core := core }
  { h with core := core, place := .parked, cached := true, slot0 := again h.slot0, slot1 := again h.slot1, stack := h.stack.map again }

theorem rewatch_keeps (s : State) (g : Grp) (x : Slot) :
    (s.rewatch g x).mask = x.mask ∧ (s.rewatch g x).pc = x.pc ∧ (s.rewatch g x).st = x.st := by
  unfold State.rewatch
  split
  · split <;> exact ⟨rfl, rfl, rfl⟩
  · exact ⟨rfl, rfl, rfl⟩

theorem readImage_withArr (s : State) (x : Grp) (a : Tbl Nat) (core : Nat) : s.readImage (x.withArr a) core = (s.readImage x core).withArr a := rfl

section
variable {s : State}

theorem grp_uid {u : Nat} {z : Grp} (hz : s.grp u = some z) : z.uid = u := by simpa using List.find?_some hz

/-- A gang after a change of one gang that moves none is where it was. -/
theorem State.gang_updGang_where {k j : Nat} {m : Gang} {f : Gang → Gang} (hf : ∀ y, (f y).id = y.id ∧ (f y).place = y.place ∧ (f y).cores = y.cores)
    (hm : s.gang k = some m) : ∃ x, (s.updGang j f).gang k = some x ∧ x.place = m.place ∧ x.cores = m.cores := by
  by_cases hk : k = j
  · subst hk
    exact ⟨f m, State.gang_updGang hm ((hf m).1.trans (State.gang_id hm)), (hf m).2⟩
  · refine ⟨m, ?_, rfl, rfl⟩
    have hne (y : Gang) (hy : (y.id == j) = true) : (y.id == k) = false :=
      beq_eq_false_iff_ne.2 fun h => hk (h.symm.trans (beq_iff_eq.1 hy))
    rw [State.gang, State.updGang, find_updFirst_other hne fun y hy => by rw [(hf y).1]; exact hne y hy]
    exact hm

/-- A group reloaded where its core's register cache has room (R26, R28). -/
theorem State.reload_evicted {x z : Grp} {c : Nat} (hz : s.grp x.uid = some z) (hp : x.place = .evicted)
    (hroom : ((s.cachedOn c).map Grp.lines).sum + x.lines ≤ Config.regLines) :
    s.reload x c = s.updGrp x.uid fun _ => (reloaded s x c).usedAt s.clk := by
  have hin : (s.updGrp x.uid fun _ => reloaded s x c).grp x.uid = some (reloaded s x c) :=
    State.grp_updGrp_named (f := fun _ => reloaded s x c) hz (grp_uid hz).symm
  have hfits : (((s.updGrp x.uid fun _ => reloaded s x c).cachedOn c).map Grp.lines).sum ≤ Config.regLines :=
    (sum_filter_updFirst_le (fun g => g.uid == x.uid) (fun g => g.core == c && g.cached && g.place != .ended) Grp.lines (reloaded s x c)
      s.groups).trans hroom
  have huse := State.useImage_cached hin rfl hfits
  have htwice : (s.updGrp x.uid fun _ => reloaded s x c).updGrp x.uid (fun y => y.usedAt s.clk)
      = s.updGrp x.uid fun _ => (reloaded s x c).usedAt s.clk := by
    rw [State.updGrp, State.updGrp, State.updGrp]
    dsimp only
    rw [updFirst_replaced (p := fun g : Grp => g.uid == x.uid) (y := reloaded s x c) (beq_self_eq_true _)]
  rw [State.reload, if_neg (by rw [hp]; decide)]
  exact huse.trans htwice

/-- A gang whose image has been read is on the cores it was on. -/
theorem State.readGangImage_gang {k core : Nat} {g m : Gang} (hm : s.gang k = some m) :
    ∃ x, (s.readGangImage g core).gang k = some x ∧ x.place = m.place ∧ x.cores = m.cores := by
  unfold State.readGangImage
  split
  · refine State.gang_updGang_where (fun y => ⟨rfl, rfl, rfl⟩) ?_
    rw [State.gang, foldl_keeps (g := State.gangs)]
    · exact hm
    · exact fun _ _ => rfl
  · exact ⟨m, hm, rfl, rfl⟩

/-- Engines of a gang's cores, empty again (R223). -/
def State.freshEngs (s : State) (k n : Nat) : State := (List.range n).foldl (fun s i => s.setEng { gang := k, coreIdx := i }) s

/-- The state in which a gang's image is read, on its way back (R28). -/
def State.resuming (s : State) (k core : Nat) (l : Launch) : State :=
  ((s.updLaunch l.id fun x => x.placedAt (clusterOfCore core) s.clk).updGang k fun g => g.onCores l.book.gangCores core s.clk).freshEngs k l.book.gangCores

theorem State.freshEngs_eq (s : State) (k n : Nat) : s.freshEngs k n = { s with engs := (s.freshEngs k n).engs } := by
  unfold State.freshEngs
  generalize List.range n = is
  induction is generalizing s with
  | nil => rfl
  | cons i r ih =>
    rw [List.foldl_cons, ih]
    rfl

theorem Reloading.resuming (s : State) (k core : Nat) (l : Launch) : Reloading s (s.resuming k core l) :=
  .of_eq ⟨_, _, _, State.freshEngs_eq ..⟩

theorem State.resuming_gang {k core : Nat} {g : Gang} (l : Launch) (hg : s.gang k = some g) :
    (s.resuming k core l).gang k = some (g.onCores l.book.gangCores core s.clk) := by
  rw [State.resuming, State.freshEngs_eq]
  exact State.gang_updGang (f := fun g => g.onCores l.book.gangCores core s.clk) (s := s.updLaunch l.id _) hg (show g.id = k from State.gang_id hg)

/-- A group that waits its turn on its core is made resident where a place is free, whichever of the two ways it is asked. -/
def State.settleEither (s : State) (x : Grp) (core : Nat) : State :=
  if x.allWait then (if s.residents core < 32 then s.makeResident x.uid else s)
  else if s.residents core < 32 then s.makeResident x.uid
  else s.updCore core fun y => { y with readyParked := y.readyParked ++ [x.uid] }

theorem State.settleEither_fits {x : Grp} {core : Nat} (h : s.residents core < 32) : s.settleEither x core = s.makeResident x.uid := by
  rw [State.settleEither, if_pos h, if_pos h, ite_self]

/-- A resumed gang's groups: their registers from their images, then those that do not wait at home first (R28, R327). -/
def State.settleResumed (s : State) (gs : List Grp) (core : Nat) : State :=
  let ready := gs.filter fun g => g.place != .trapParked && !g.allWait
  let waits := gs.filter fun g => g.place != .trapParked && g.allWait
  let t : State := gs.foldl (fun s g => s.reload g (core + g.coreIdx)) s
  let t : State := ready.foldl (fun s g =>
    let c := core + g.coreIdx
    if s.residents c < 32 then s.makeResident g.uid
    else s.updCore c fun x => { x with readyParked := x.readyParked ++ [g.uid] }) t
  waits.foldl (fun s g => if s.residents (core + g.coreIdx) < 32 then s.makeResident g.uid else s) t

theorem State.resumeGang_eq {k core : Nat} {g : Gang} {l : Launch} (hg : s.gang k = some g) (hl : s.launch g.launch = some l) :
    s.resumeGang k core = State.settleResumed ((s.resuming k core l).readGangImage g core)
      ((((s.resuming k core l).readGangImage g core).gangGroups k).filter fun g => g.place != .ended) core := by
  rw [State.resumeGang, hg]
  dsimp only
  rw [hl]
  rfl

theorem State.settleResumed_single {x : Grp} (core : Nat) (hp : x.place = .evicted) :
    s.settleResumed [x] core = (s.reload x (core + x.coreIdx)).settleEither x (core + x.coreIdx) := by
  cases hw : x.allWait
  · simp [State.settleResumed, hp, hw, State.settleEither]
  · simp [State.settleResumed, hp, hw, State.settleEither]

/-- A group reloaded on a core with a place is resident there. -/
theorem State.reload_resident {x z : Grp} {c : Nat} (hz : s.grp x.uid = some z) (hp : x.place = .evicted) (hres : s.residents c < 32)
    (hroom : ((s.cachedOn c).map Grp.lines).sum + x.lines ≤ Config.regLines) :
    ((s.reload x c).settleEither x c).grp x.uid = some (((reloaded s x c).usedAt s.clk).residentAt s.clk)
      ∧ ((s.reload x c).settleEither x c).mem = s.mem ∧ ((s.reload x c).settleEither x c).gangs = s.gangs := by
  have hreload := State.reload_evicted hz hp hroom
  have hin : (s.reload x c).grp x.uid = some ((reloaded s x c).usedAt s.clk) := by
    rw [hreload]
    exact State.grp_updGrp_named (f := fun _ => (reloaded s x c).usedAt s.clk) hz (grp_uid hz).symm
  have hfree : (s.reload x c).residents c < 32 := by
    rw [hreload]
    exact Nat.lt_of_le_of_lt (length_filter_updFirst_le (fun g : Grp => g.uid == x.uid) (fun g => g.core == c && g.place == .resident)
      (y := (reloaded s x c).usedAt s.clk) (Bool.and_false _) s.groups) hres
  have hclk : (s.reload x c).clk = s.clk := by rw [hreload]; rfl
  have hmem : (s.reload x c).mem = s.mem := by rw [hreload]; rfl
  have hgangs : (s.reload x c).gangs = s.gangs := by rw [hreload]; rfl
  rw [State.settleEither_fits hfree]
  refine ⟨?_, (State.makeResident_mem ..).trans hmem, ?_⟩
  · rw [State.makeResident_grp hin, hclk]
    rfl
  · rw [State.makeResident_eq hin]
    exact hgangs

/-- A parked gang of one group resumes: on its new cores, its group resident as its image holds it (R28). -/
theorem State.resumeGang_single {k core : Nat} {g : Gang} {l : Launch} {x : Grp} (hg : s.gang k = some g) (hl : s.launch g.launch = some l)
    (hone : s.gangGroups k = [x]) (hx : s.grp x.uid = some x) (hp : x.place = .evicted) (hres : s.residents (core + x.coreIdx) < 32)
    (hroom : ((s.cachedOn (core + x.coreIdx)).map Grp.lines).sum + x.lines ≤ Config.regLines) :
    (s.resumeGang k core).mem = s.mem
      ∧ (∃ m, (s.resumeGang k core).gang k = some m ∧ m.place = .placed ∧ m.cores = (List.range l.book.gangCores).map (core + ·))
      ∧ ∃ t a, SameMaps s t ∧
        (s.resumeGang k core).grp x.uid = some (((reloaded t (x.withArr a) (core + x.coreIdx)).usedAt t.clk).residentAt t.clk) := by
  let t := (s.resuming k core l).readGangImage g core
  have ht : Reloading s t := (Reloading.resuming s k core l).trans (Reloading.readGangImage ..)
  obtain ⟨m, hm, hplace, hcores⟩ := State.readGangImage_gang (core := core) (g := g) (State.resuming_gang (core := core) l hg)
  obtain ⟨b, hb⟩ := ht.find hx
  have hgroups : List.Forall₂ (fun y x => ∃ a, x = y.withArr a) (s.gangGroups k) (t.gangGroups k) := ht.filter fun _ _ => rfl
  rw [hone] at hgroups
  obtain ⟨_, _, ⟨a, rfl⟩, hnil, heq⟩ := List.forall₂_cons_left_iff.1 hgroups
  obtain rfl := List.forall₂_nil_left_iff.1 hnil
  have hsettle : s.resumeGang k core = (t.reload (x.withArr a) (core + x.coreIdx)).settleEither (x.withArr a) (core + x.coreIdx) := by
    have hlive : [x.withArr a].filter (fun g => g.place != .ended) = [x.withArr a] :=
      List.filter_eq_self.2 fun y hy => by
        rw [List.mem_singleton.1 hy]
        exact bne_iff_ne.2 (by rw [show (x.withArr a).place = x.place from rfl, hp]; decide)
    rw [State.resumeGang_eq hg hl]
    show State.settleResumed t _ core = _
    rw [heq, hlive]
    exact State.settleResumed_single (x := x.withArr a) core hp
  have hres' : t.residents (core + x.coreIdx) < 32 := by rw [ht.residents]; exact hres
  have hroom' : ((t.cachedOn (core + x.coreIdx)).map Grp.lines).sum + (x.withArr a).lines ≤ Config.regLines := by rw [ht.lines]; exact hroom
  obtain ⟨hgrp, hmem, hgangs⟩ := State.reload_resident (s := t) (x := x.withArr a) hb hp hres' hroom'
  rw [hsettle]
  refine ⟨hmem.trans ht.sameMaps.mem, ⟨m, ?_, hplace, hcores⟩, t, a, ht.sameMaps, hgrp⟩
  rw [State.gang, hgangs]
  exact hm

end

/-! What a resumed group holds (R28), and the records that a launch unit takes (R317 to R321). -/

section
variable {s t : State}

/-- A group reloaded holds the registers and times of its image, its fragments where they stood. -/
theorem reloaded_image (h : SameMaps s t) (x : Grp) (a : Tbl Nat) (c : Nat) :
    (reloaded t (x.withArr a) c).v = (s.readImage x c).v ∧ (reloaded t (x.withArr a) c).s = (s.readImage x c).s
      ∧ (reloaded t (x.withArr a) c).p = (s.readImage x c).p ∧ (reloaded t (x.withArr a) c).w = (s.readImage x c).w
      ∧ (reloaded t (x.withArr a) c).q = (s.readImage x c).q ∧ (reloaded t (x.withArr a) c).pts = (s.readImage x c).pts := by
  have himg : t.readImage (x.withArr a) c = (s.readImage x c).withArr a := by rw [h.readImage, readImage_withArr]
  unfold reloaded
  rw [himg]
  exact ⟨rfl, rfl, rfl, rfl, rfl, rfl⟩

theorem reloaded_slot0 (h : SameMaps s t) (x : Grp) (a : Tbl Nat) (c : Nat) :
    (reloaded t (x.withArr a) c).slot0.mask = (s.readImage x c).slot0.mask ∧ (reloaded t (x.withArr a) c).slot0.pc = (s.readImage x c).slot0.pc
      ∧ (reloaded t (x.withArr a) c).slot0.st = (s.readImage x c).slot0.st := by
  have himg : t.readImage (x.withArr a) c = (s.readImage x c).withArr a := by rw [h.readImage, readImage_withArr]
  unfold reloaded
  rw [himg]
  exact rewatch_keeps t _ (s.readImage x c).slot0

theorem reloaded_slot1 (h : SameMaps s t) (x : Grp) (a : Tbl Nat) (c : Nat) :
    (reloaded t (x.withArr a) c).slot1.mask = (s.readImage x c).slot1.mask ∧ (reloaded t (x.withArr a) c).slot1.pc = (s.readImage x c).slot1.pc := by
  have himg : t.readImage (x.withArr a) c = (s.readImage x c).withArr a := by rw [h.readImage, readImage_withArr]
  obtain ⟨hm, hp, _⟩ := rewatch_keeps t { (s.readImage x c).withArr a with core := c } (s.readImage x c).slot1
  unfold reloaded
  rw [himg]
  exact ⟨hm, hp⟩

end

/-- What a launch unit's reads change: the lines' times. -/
structure Marked (s t : State) : Prop where
  launches : t.launches = s.launches
  mem : t.mem = s.mem
  queues : ∀ p, (t.part p).queues = (s.part p).queues

namespace Marked

theorem of_eq {s t : State} (hl : t.launches = s.launches) (hm : t.mem = s.mem) (hp : t.parts = s.parts) : Marked s t :=
  ⟨hl, hm, fun p => by rw [State.part, hp, State.part]⟩

theorem refl (s : State) : Marked s s := .of_eq rfl rfl rfl

theorem trans {s t u : State} (h : Marked s t) (k : Marked t u) : Marked s u :=
  ⟨k.launches.trans h.launches, k.mem.trans h.mem, fun p => (k.queues p).trans (h.queues p)⟩

theorem noteTime (s : State) (part n : Nat) : Marked s (s.noteTime part n) := by
  unfold State.noteTime
  split
  · exact .refl s
  · refine ⟨rfl, rfl, fun p => ?_⟩
    by_cases hp : p = part
    · rw [hp, State.part_updPart]
    · rw [State.part_updPart_other _ _ _ _ hp]

theorem setLine (s : State) (pa : Nat) (x : LineTimes) : Marked s (s.setLine pa x) := by
  have hevict (u : State) (l : Nat) : Marked u (u.evictLine l) := by
    unfold State.evictLine
    split <;> exact .of_eq rfl rfl rfl
  have hlines : Marked s { s with lines := tset s.lines (lineOf pa) x } := .of_eq rfl rfl rfl
  unfold State.setLine
  dsimp only
  split
  · exact hlines.trans (hevict _ _)
  · exact hlines

theorem agentMark (s : State) (part pts va n : Nat) : Marked s (s.agentMark part pts va n).2 := by
  unfold State.agentMark
  generalize List.range ((va + n - 1) / 256 - va / 256 + 1) = ks
  suffices h : ∀ x : Nat × State, Marked s x.2 → Marked s (ks.foldl _ x).2 from h (pts, s) (.refl s)
  induction ks with
  | nil => exact fun x hx => hx
  | cons k r ih =>
    intro x hx
    refine ih _ ?_
    dsimp only
    split
    · split
      · exact hx.trans ((setLine ..).trans (noteTime ..))
      · exact hx
    · exact hx

end Marked

/-! A queue's next record is taken (R317 to R321). -/

section
variable {s : State}

/-- A launch record that passes the checks (R318, R319). -/
theorem State.readLaunch_valid {base : Launch} {va maxpri : Nat} {fb bs wb : List Byte} (h4 : s.agentRead base.part va 4 = some fb)
    (hf : fieldAt fb 0 1 = 1) (h256 : s.agentRead base.part va 256 = some bs)
    (hw : s.agentRead base.part (bookOf bs).wintab 16 = some wb) (hz : bookZeros bs = true) (hok : (bookOf bs).ok maxpri = true)
    (hring : (bookOf bs).ring < 16) (hvalid : (s.ringDesc base.part (bookOf bs).ring).valid = true)
    (hdup : s.idOpen base.part (bookOf bs).launchId = false) (hfits : s.fits base.part (bookOf bs) = true) :
    s.readLaunch base va maxpri = { base with book := bookOf bs, win0 := BitVec.ofNat 128 (ofBytesLE wb), waiting := true } := by
  have hkind : ¬((s.agentRead base.part va 4).isSome = true ∧ fieldAt ((s.agentRead base.part va 4).getD []) 0 1 ≠ 1) := by
    rw [h4]
    exact fun h => h.2 hf
  have hwin : s.firstWindow base.part (some bs) = some wb := hw
  rw [State.readLaunch]
  dsimp only
  rw [if_neg hkind, h256, hwin]
  dsimp only [Option.getD_some]
  have hchecks : (bookZeros bs && (bookOf bs).ok maxpri && (decide ((bookOf bs).ring < 16) && (s.ringDesc base.part (bookOf bs).ring).valid)
      && !s.idOpen base.part (bookOf bs).launchId && s.fits base.part (bookOf bs)) = true := by
    simp only [hz, hok, hvalid, hdup, hfits, decide_eq_true hring, Bool.and_true, Bool.not_false]
  exact if_pos hchecks

/-- A launch that is released is the same launch (R320). -/
theorem State.startLaunch_launch {l m : Launch} (hm : s.launch l.id = some m) :
    ∃ x, (s.startLaunch l).launch l.id = some x ∧ x.book = m.book ∧ x.part = m.part ∧ x.queue = m.queue ∧ x.index = m.index
      ∧ x.system = m.system ∧ x.win0 = m.win0 := by
  unfold State.startLaunch
  dsimp only
  generalize hf : (fun x : Launch => if (s.predResult l.part l.book).1 = true then { x with waiting := false, ending := true, status := 3 } else
    { x with waiting := false, predPts := (s.predResult l.part l.book).2, lastPlaced := s.clk, dealtAt := s.clk,
             ranges := dealRanges (s.partClusters l.part) l.book.gangs }) = f
  have hkeep (x : Launch) : (f x).id = x.id ∧ (f x).book = x.book ∧ (f x).part = x.part ∧ (f x).queue = x.queue ∧ (f x).index = x.index
      ∧ (f x).system = x.system ∧ (f x).win0 = x.win0 := by
    rw [← hf]
    dsimp only
    split <;> exact ⟨rfl, rfl, rfl, rfl, rfl, rfl, rfl⟩
  obtain ⟨hid, hkeeps⟩ := hkeep m
  exact ⟨f m, State.launch_updLaunch_named hm hid, hkeeps⟩

/-- The launch of a record joins the others, the reads of its record in their place in the logical order (R181, R320). -/
def State.joinLaunch (s : State) (part tailVa va : Nat) (l : Launch) : Out :=
  let x := s.agentMark part 0 tailVa 4
  let x := x.2.agentMark part x.1 va 256
  let x := if l.waiting then x.2.agentMark part x.1 l.book.wintab 16 else x
  let l : Launch := { l with tl := x.1 }
  let s : State := { x.2 with launches := x.2.launches ++ [l] }
  if s.released l then .next (s.startLaunch l) else .next s

/-- The times that the reads of a record leave. -/
def State.recordMark (s : State) (part tailVa va : Nat) (l : Launch) : Nat × State :=
  let x := s.agentMark part 0 tailVa 4
  let x := x.2.agentMark part x.1 va 256
  if l.waiting then x.2.agentMark part x.1 l.book.wintab 16 else x

theorem Marked.recordMark (s : State) (part tailVa va : Nat) (l : Launch) : Marked s (s.recordMark part tailVa va l).2 := by
  unfold State.recordMark
  dsimp only
  split
  · exact (Marked.agentMark ..).trans ((Marked.agentMark ..).trans (Marked.agentMark ..))
  · exact (Marked.agentMark ..).trans (Marked.agentMark ..)

theorem State.joinLaunch_joins (part tailVa va : Nat) {l : Launch} (hnew : ∀ x ∈ s.launches, x.id ≠ l.id) :
    ∃ t m, s.joinLaunch part tailVa va l = .next t ∧ t.mem = s.mem ∧ t.launch l.id = some m ∧ m.book = l.book ∧ m.part = l.part
      ∧ m.queue = l.queue ∧ m.index = l.index ∧ m.system = l.system ∧ m.win0 = l.win0 ∧ ∀ p, (t.part p).queues = (s.part p).queues := by
  have hmark := Marked.recordMark s part tailVa va l
  let x := s.recordMark part tailVa va l
  let l' : Launch := { l with tl := x.1 }
  let t : State := { x.2 with launches := x.2.launches ++ [l'] }
  have heq : s.joinLaunch part tailVa va l = if t.released l' then .next (t.startLaunch l') else .next t := rfl
  have hfind : t.launch l.id = some l' := by
    have hnone : x.2.launches.find? (fun y => y.id == l.id) = none :=
      List.find?_eq_none.2 fun y hy => by
        rw [hmark.launches] at hy
        simpa using hnew y hy
    show (x.2.launches ++ [l']).find? (fun y => y.id == l.id) = _
    rw [List.find?_append, hnone]
    exact List.find?_cons_of_pos (p := fun y : Launch => y.id == l.id) (beq_self_eq_true _)
  rw [heq]
  split
  · obtain ⟨m, hm, hbook, hpart, hqueue, hindex, hsys, hwin⟩ := State.startLaunch_launch (s := t) (l := l') hfind
    exact ⟨_, m, rfl, hmark.mem, hm, hbook, hpart, hqueue, hindex, hsys, hwin, hmark.queues⟩
  · exact ⟨t, l', rfl, hmark.mem, hfind, rfl, rfl, rfl, rfl, rfl, rfl, hmark.queues⟩

/-- A launch queue's next record is spent, its key with it (R317). -/
def State.takeRecord (s : State) (part queue : Nat) (q : QueueState) : State :=
  State.updPart { s with fresh := s.fresh + 1 } part fun p => { p with queues := tset p.queues queue { q with next := q.next + 1#32 } }

/-- A slot's line that waits for no bank is read there. -/
def State.slotServed (s : State) (part va : Nat) : State :=
  match s.agentXlate part va with
  | some (pa, _) => s.served (0, 2 * lineOf pa + 1)
  | none => s

theorem State.slotServed_eq (s : State) (part va : Nat) : s.slotServed part va = { s with banks := (s.slotServed part va).banks } := by
  unfold State.slotServed
  split <;> rfl

theorem SameMaps.takeRecord (s : State) (part queue : Nat) (q : QueueState) : SameMaps s (s.takeRecord part queue q) := by
  refine ⟨rfl, rfl, rfl, rfl, rfl, fun p => ?_⟩
  unfold State.takeRecord
  by_cases hp : p = part
  · rw [hp, State.part_updPart]
    rfl
  · rw [State.part_updPart_other _ _ _ _ hp]
    rfl

theorem SameMaps.slotServed (s : State) (part va : Nat) : SameMaps s (s.slotServed part va) := by
  rw [State.slotServed_eq]
  exact ⟨rfl, rfl, rfl, rfl, rfl, fun _ => rfl⟩

end

section
variable {s : State} {part queue : Nat} {tb fb bs wb : List Byte}

/-- The launch of the next record of a queue, as the unit begins it (R317). -/
def nextLaunch (key part queue : Nat) (q : QueueState) (d : QueueDesc) : Launch :=
  { id := key, part := part, queue := queue, index := q.next, system := d.level }

/-- A record taken: its index spent, its launch read and joined to the others (R317). -/
def State.takeNext (s : State) (part queue va : Nat) (q : QueueState) (d : QueueDesc) : Out :=
  (s.takeRecord part queue q).joinLaunch part d.tailVa va ((s.takeRecord part queue q).readLaunch (nextLaunch s.fresh part queue q d) va d.maxpri)

/-- A launch unit's look at the slot of a queue's next index (R317). -/
def State.watchSlot (s : State) (part queue va : Nat) (q : QueueState) (d : QueueDesc) (tb : List Byte) : Out :=
  let empty : Bool := match s.agentRead part va 4 with | some fb => fieldAt fb 0 1 == 0 | none => false
  if fieldAt tb 0 4 = q.next.toNat ∨ empty = true then .next s
  else if (s.slotHeld part va).isSome then .next (s.demand ((s.slotHeld part va).getD 0) (0, 2 * lineOf ((s.slotHeld part va).getD 0) + 1) false)
  else (s.slotServed part va).takeNext part queue va q d

/-- The address of a queue's slot of an index (R317). -/
def QueueDesc.slotVa (d : QueueDesc) (q : QueueState) : Nat := d.base + 256 * (q.next.toNat % d.n)

theorem execLaunchWatchFire_eq (d : QueueDesc) (q : QueueState) (hd : s.queueDesc part queue = d)
    (hq : tget (s.part part).queues queue {} = q) :
    execLaunchWatchFire part queue s =
      if (s.part part).torn = true ∨ d.serves = false ∨ (s.die d.die).failed = true then .next s
      else match s.agentRead part d.tailVa 4 with
        | none => .next s
        | some tb => s.watchSlot part queue (d.slotVa q) q d tb := by
  unfold execLaunchWatchFire
  rw [hd]
  subst hq
  rfl

/-- The slot of a record that is there and waits for no bank: it is taken. -/
theorem State.watchSlot_takes {q : QueueState} {d : QueueDesc} {va : Nat} (hfirst : s.agentRead part va 4 = some fb)
    (hne : fieldAt tb 0 4 ≠ q.next.toNat) (hkind : fieldAt fb 0 1 = 1) (hheld : s.slotHeld part va = none) :
    s.watchSlot part queue va q d tb = (s.slotServed part va).takeNext part queue va q d := by
  have hsome : ¬(fieldAt tb 0 4 = q.next.toNat ∨ (fieldAt fb 0 1 == 0) = true) := by
    rw [hkind]
    exact fun h => h.elim hne (by decide)
  rw [State.watchSlot, hfirst]
  dsimp only
  rw [if_neg hsome, hheld]
  exact if_neg Bool.false_ne_true

theorem execLaunchWatchFire_takes {q : QueueState} {d : QueueDesc} (hd : s.queueDesc part queue = d)
    (hq : tget (s.part part).queues queue {} = q) (htorn : (s.part part).torn = false) (hserves : d.serves = true)
    (hdie : (s.die d.die).failed = false) (htail : s.agentRead part d.tailVa 4 = some tb)
    (hfirst : s.agentRead part (d.slotVa q) 4 = some fb) (hne : fieldAt tb 0 4 ≠ q.next.toNat) (hkind : fieldAt fb 0 1 = 1)
    (hheld : s.slotHeld part (d.slotVa q) = none) :
    execLaunchWatchFire part queue s = (s.slotServed part (d.slotVa q)).takeNext part queue (d.slotVa q) q d := by
  have hgo : ¬((s.part part).torn = true ∨ d.serves = false ∨ (s.die d.die).failed = true) := by
    rw [htorn, hserves, hdie]
    decide
  rw [execLaunchWatchFire_eq d q hd hq, if_neg hgo, htail]
  exact State.watchSlot_takes hfirst hne hkind hheld

/-- The launch of a record that passes the checks is new, and its queue's next index one higher (R317 to R320). -/
theorem State.takeNext_valid {va : Nat} {q : QueueState} {d : QueueDesc} {u : State} (hmaps : SameMaps u (s.takeRecord part queue q))
    (hfb : u.agentRead part va 4 = some fb) (hkind : fieldAt fb 0 1 = 1) (hbs : u.agentRead part va 256 = some bs)
    (hwb : u.agentRead part (bookOf bs).wintab 16 = some wb) (hz : bookZeros bs = true) (hok : (bookOf bs).ok d.maxpri = true)
    (hring : (bookOf bs).ring < 16) (hvalid : (u.ringDesc part (bookOf bs).ring).valid = true)
    (hdup : ∀ x ∈ s.launches, x.part = part → x.complete = false → x.dup = false → x.book.launchId ≠ (bookOf bs).launchId)
    (hfits : u.fits part (bookOf bs) = true) (hnew : ∀ x ∈ s.launches, x.id ≠ s.fresh) :
    ∃ t m, s.takeNext part queue va q d = .next t ∧ t.mem = s.mem ∧ t.launch s.fresh = some m ∧ m.book = bookOf bs
      ∧ m.part = part ∧ m.queue = queue ∧ m.index = q.next ∧ m.system = d.level ∧ m.win0 = BitVec.ofNat 128 (ofBytesLE wb)
      ∧ (tget (t.part part).queues queue {}).next = q.next + 1#32 := by
  have hopen : (s.takeRecord part queue q).idOpen part (bookOf bs).launchId = false :=
    List.any_eq_false.2 fun x hx h => by
      simp only [Bool.and_eq_true, beq_iff_eq, Bool.not_eq_true'] at h
      obtain ⟨⟨⟨hp, hc⟩, hd⟩, hid⟩ := h
      exact hdup x hx hp hc hd hid
  have hread := State.readLaunch_valid (s := s.takeRecord part queue q) (base := nextLaunch s.fresh part queue q d) (va := va) (maxpri := d.maxpri)
    ((hmaps.agentRead ..).trans hfb) hkind ((hmaps.agentRead ..).trans hbs) ((hmaps.agentRead ..).trans hwb) hz hok hring
    ((congrArg RingDesc.valid (hmaps.ringDesc ..)).trans hvalid) hopen ((hmaps.fits ..).trans hfits)
  obtain ⟨t, m, heq, hmem, hm, hbook, hpart, hqueue, hindex, hsys, hwin, hqueues⟩ :=
    State.joinLaunch_joins (s := s.takeRecord part queue q) part d.tailVa va
      (l := { nextLaunch s.fresh part queue q d with book := bookOf bs, win0 := BitVec.ofNat 128 (ofBytesLE wb), waiting := true }) hnew
  refine ⟨t, m, ?_, hmem, hm, hbook, hpart, hqueue, hindex, hsys, hwin, ?_⟩
  · rw [State.takeNext, hread]
    exact heq
  · rw [hqueues, State.takeRecord, State.part_updPart]
    dsimp only
    rw [tget_tset_same]

end

section
variable {s : State} {part queue : Nat} {tb fb bs wb : List Byte}

theorem SameMaps.symm {t : State} (h : SameMaps s t) : SameMaps t s :=
  ⟨h.mem.symm, h.pois.symm, h.conf.symm, h.cores.symm, h.dies.symm, fun p => (h.parts p).symm⟩

/-- A queue's next record, if it passes the checks, becomes a launch (R317 to R321). -/
theorem execLaunchWatchFire_valid {q : QueueState} {d : QueueDesc} (hd : s.queueDesc part queue = d)
    (hq : tget (s.part part).queues queue {} = q) (htorn : (s.part part).torn = false) (hserves : d.serves = true)
    (hdie : (s.die d.die).failed = false) (htail : s.agentRead part d.tailVa 4 = some tb)
    (hfirst : s.agentRead part (d.slotVa q) 4 = some fb) (hne : fieldAt tb 0 4 ≠ q.next.toNat) (hkind : fieldAt fb 0 1 = 1)
    (hheld : s.slotHeld part (d.slotVa q) = none) (hbs : (s.takeRecord part queue q).agentRead part (d.slotVa q) 256 = some bs)
    (hwb : (s.takeRecord part queue q).agentRead part (bookOf bs).wintab 16 = some wb) (hz : bookZeros bs = true)
    (hok : (bookOf bs).ok d.maxpri = true) (hring : (bookOf bs).ring < 16)
    (hvalid : ((s.takeRecord part queue q).ringDesc part (bookOf bs).ring).valid = true)
    (hdup : ∀ x ∈ s.launches, x.part = part → x.complete = false → x.dup = false → x.book.launchId ≠ (bookOf bs).launchId)
    (hfits : (s.takeRecord part queue q).fits part (bookOf bs) = true) (hnew : ∀ x ∈ s.launches, x.id ≠ s.fresh) :
    ∃ t m, execLaunchWatchFire part queue s = .next t ∧ t.mem = s.mem ∧ t.launch s.fresh = some m ∧ m.book = bookOf bs
      ∧ m.part = part ∧ m.queue = queue ∧ m.index = q.next ∧ m.system = d.level ∧ m.win0 = BitVec.ofNat 128 (ofBytesLE wb)
      ∧ (tget (t.part part).queues queue {}).next = q.next + 1#32 := by
  have htaken := SameMaps.takeRecord s part queue q
  have hserved := SameMaps.slotServed s part (d.slotVa q)
  have hlaunches : (s.slotServed part (d.slotVa q)).launches = s.launches := by rw [State.slotServed_eq]
  have hfresh : (s.slotServed part (d.slotVa q)).fresh = s.fresh := by rw [State.slotServed_eq]
  have hmaps : SameMaps (s.takeRecord part queue q) ((s.slotServed part (d.slotVa q)).takeRecord part queue q) :=
    htaken.symm.trans (hserved.trans (SameMaps.takeRecord ..))
  have htakes := State.takeNext_valid (s := s.slotServed part (d.slotVa q)) (d := d) hmaps ((htaken.agentRead ..).trans hfirst) hkind hbs hwb hz hok
    hring hvalid (by rw [hlaunches]; exact hdup) hfits (by rw [hlaunches, hfresh]; exact hnew)
  rw [execLaunchWatchFire_takes hd hq htorn hserves hdie htail hfirst hne hkind hheld]
  rwa [hserved.mem, hfresh] at htakes

end

/-! Both copies of an understudied group at a point (R361, R363). -/

section
variable {s : State}

theorem State.discardHeld_launches (s : State) (u : Nat) : (s.discardHeld u).launches = s.launches := by
  unfold State.discardHeld
  split
  · rfl
  · split
    · rfl
    · show State.launches (List.foldl _ s _) = _
      refine foldl_keeps (g := State.launches) (fun u w => ?_) s _
      rfl

theorem State.sendAtomics_groups (s : State) (r : Req) : (s.sendAtomics r).groups = s.groups := by
  unfold State.sendAtomics
  dsimp only
  refine foldl_keeps (g := State.groups) (fun u h => ?_) s _
  rfl

theorem State.releaseHeldStores_groups (s : State) (g t : Grp) (n : Nat) : (s.releaseHeldStores g t n).groups = s.groups := by
  unfold State.releaseHeldStores
  refine foldl_keeps (g := State.groups) (fun u w => ?_) s _
  dsimp only
  split
  · rfl
  · split
    · exact State.sendAtomics_groups ..
    · rfl

/-- A copy whose first point has been compared: the stores before it are no longer held (R361). -/
def Grp.passPoint (x : Grp) : Grp :=
  match x.points with
  | [] => x
  | p :: r => { x with held := x.held.drop p.2, points := r.map fun q => (q.1, q.2 - p.2), lax := x.lax.drop 1 }

/-- A copy that differs from the other (R363). -/
def Grp.differs (x : Grp) : Grp := { x with mism := true }

/-- Both copies marked as different, and counted in their launch's record. -/
def State.mismatched (s : State) (g t : Grp) : State :=
  (((((s.discardHeld g.uid).discardHeld t.uid).updGrp g.uid Grp.differs).updGrp t.uid Grp.differs)).updLaunch g.launch fun l =>
    { l with mismatch := satAdd l.mismatch 1 65535 }

/-- Both copies past the point they have reached, the primary's stores before it on their way. -/
def State.matched (s : State) (g t : Grp) (n : Nat) : State :=
  ((s.releaseHeldStores g t n).updGrp g.uid Grp.passPoint).updGrp t.uid Grp.passPoint

theorem execUnderstudyCompare_eq {g t : Grp} {a b : BitVec 64} {n m : Nat} {r q : List (BitVec 64 × Nat)} (hg : s.grp g.uid = some g)
    (ht : g.twin = some t.uid) (hs : s.grp t.uid = some t) (hu : g.under = false) (hp : g.points = (a, n) :: r) (hq : t.points = (b, m) :: q) :
    execUnderstudyCompare g.uid s = if a = b then .next ((s.matched g t n).settleGang g.gang) else .next ((s.mismatched g t).gangFate g.gang 0) := by
  have htwin : g.twin.bind s.grp = some t := by rw [ht]; exact hs
  unfold execUnderstudyCompare
  rw [hg]
  dsimp only
  rw [htwin]
  dsimp only
  rw [hu, hp, hq]
  rfl

theorem State.mismatched_mem (s : State) (g t : Grp) : (s.mismatched g t).mem = s.mem :=
  (State.discardHeld_mem ..).trans (State.discardHeld_mem ..)

theorem State.mismatched_launch {g t : Grp} {l : Launch} (hl : s.launch g.launch = some l) :
    ∃ x, (s.mismatched g t).launch g.launch = some x ∧ x.mismatch = min (l.mismatch + 1) 65535 := by
  have hin : ((((s.discardHeld g.uid).discardHeld t.uid).updGrp g.uid Grp.differs).updGrp t.uid Grp.differs).launch g.launch = some l := by
    have hl' : (((((s.discardHeld g.uid).discardHeld t.uid).updGrp g.uid Grp.differs).updGrp t.uid Grp.differs)).launches = s.launches :=
      (State.discardHeld_launches ..).trans (State.discardHeld_launches ..)
    rw [State.launch, hl']
    exact hl
  exact ⟨_, State.launch_updLaunch_named (f := fun l => { l with mismatch := satAdd l.mismatch 1 65535 }) hin rfl, rfl⟩

theorem State.matched_grp {g t x : Grp} {a : BitVec 64} {n : Nat} {r : List (BitVec 64 × Nat)} (hg : s.grp g.uid = some g) (ht : t.uid ≠ g.uid)
    (hp : g.points = (a, n) :: r) (hx : (s.matched g t n).grp g.uid = some x) :
    x.held = g.held.drop n ∧ x.points = r.map fun p => (p.1, p.2 - n) := by
  have hin : (s.releaseHeldStores g t n).grp g.uid = some g := by
    rw [State.grp, State.releaseHeldStores_groups]
    exact hg
  have hpass : g.passPoint = { g with held := g.held.drop n, points := r.map fun p => (p.1, p.2 - n), lax := g.lax.drop 1 } := by
    rw [Grp.passPoint, hp]
  have hown : ((s.releaseHeldStores g t n).updGrp g.uid Grp.passPoint).grp g.uid = some g.passPoint :=
    State.grp_updGrp_named hin (by rw [hpass])
  have huid (y : Grp) : y.passPoint.uid = y.uid := by
    unfold Grp.passPoint
    split <;> rfl
  have hne (y : Grp) (hy : (y.uid == t.uid) = true) : (y.uid == g.uid) = false :=
    beq_eq_false_iff_ne.2 fun h => ht ((beq_iff_eq.1 hy).symm.trans h)
  have hfinal : (s.matched g t n).grp g.uid = some g.passPoint := by
    rw [State.matched, State.grp, State.updGrp, find_updFirst_other hne fun y hy => by rw [huid]; exact hne y hy]
    exact hown
  rw [hfinal, hpass] at hx
  rw [← Option.some.inj hx]
  exact ⟨rfl, rfl⟩

end

/-- Settles O58: a gang asked to leave either waits for a scene in issue or has every image written; what resumes, is cleared or is taken
from a queue meets the conditions of its event, and the two copies of an understudied group agree or differ. -/
theorem gangEvents : Obligations.GangEvents := by
  unfold Obligations.GangEvents
  refine ⟨fun s k core u g l => ⟨rfl, ?_, ?_, ?_, ?_, ?_, ?_, ?_⟩, ?_⟩
  · intro hg hp ht hx
    refine ⟨s.asked k, ?_, State.asked_gang hg hp, rfl, fun x hxm hk hpl => State.asked_groups hxm hk hpl,
      fun v x hv hne => State.asked_grp_other hv hne⟩
    show Host.Outcome.next (s.askEvict k) = _
    rw [State.askEvict_inside hg hp ht hx]
  · intro hg hp ht hn hx hs
    obtain ⟨hgang, hgroups⟩ := State.askEvict_leaves hg hp ht hn hx hs
    exact ⟨s.askEvict k, _, rfl, hgang, rfl, rfl, hgroups⟩
  · intro hg hl hw hq ht hc hh ho hp hr
    exact execGroupResume_resumes hg hl hw hq ht hc hh ho hp hr
  · intro x hg hl hone hx hp hk hcached
    dsimp only
    intro hres hroom
    obtain ⟨hmem, hgang, t, a, hmaps, hgrp⟩ := State.resumeGang_single hg hl hone hx hp hres hroom
    obtain ⟨hv, hs, hpr, hw, hq, hpts⟩ := reloaded_image hmaps x a (core + x.coreIdx)
    obtain ⟨hm0, hpc0, hst0⟩ := reloaded_slot0 hmaps x a (core + x.coreIdx)
    obtain ⟨hm1, hpc1⟩ := reloaded_slot1 hmaps x a (core + x.coreIdx)
    exact ⟨hmem, hgang, _, hgrp, rfl, rfl, rfl, hv, hs, hpr, hw, hq, hm0, hpc0, hst0, hm1, hpc1, hpts⟩
  · intro x hx hp hr hres
    exact execParkedGroupReady_resident hx hp hr hres
  · intro cluster hl he h1 hn hf hprio hq hfree ht hc ho hh
    exact execClusterClear_clears hl he h1 hn hf hprio hq hfree ht hc ho hh
  · intro part queue tb fb bs wb htorn
    dsimp only
    intro hserves hdie htail hfirst hne hkind hheld hbs hwb hz hok hring hvalid hdup hfits hnew
    exact execLaunchWatchFire_valid rfl rfl htorn hserves hdie htail hfirst hne hkind hheld hbs hwb hz hok hring hvalid hdup hfits hnew
  · intro s g t a b n m r q hg ht hne hs hu hp hq
    have heq := execUnderstudyCompare_eq hg ht hs hu hp hq
    refine ⟨fun hab => ⟨s.mismatched g t, ?_, State.mismatched_mem .., fun l hl => State.mismatched_launch hl⟩,
      fun hab => ⟨s.matched g t n, ?_, fun x hx => State.matched_grp hg hne hp hx⟩⟩
    · exact heq.trans (if_neg hab)
    · exact heq.trans (if_pos hab)

end Sys2Proof.Machine
end

section
/-! SUPPORT. The ports: packets, a device's accesses, management and boot (R188, R397 to R406). -/

namespace Sys2Proof.Machine

open Sys2Proof.Claim

/-! What a quarantine leaves of boot: a group's end, a pre-emption and a launch's end touch no die (R376, R405). -/

/-- What boot reads and writes: whether the package has booted, its record, its flash, its dies. -/
def State.rig (s : State) : Bool × ConfigRecord × Flash × Tbl DieState := (s.booted, s.conf, s.flash, s.dies)

theorem State.OnlyMem.rig {s t : State} (h : State.OnlyMem s t) : t.rig = s.rig := by
  rw [State.OnlyMem] at h
  rw [h]
  rfl

theorem State.OnlyWakes.rig {s t : State} (h : State.OnlyWakes s t) : t.rig = s.rig := by
  rw [State.OnlyWakes] at h
  rw [h]
  rfl

section
variable (s : State)

@[simp] theorem State.setCore_rig (c : Nat) (x : CoreState) : (s.setCore c x).rig = s.rig := rfl
@[simp] theorem State.updCore_rig (c : Nat) (f : CoreState → CoreState) : (s.updCore c f).rig = s.rig := rfl
@[simp] theorem State.updPart_rig (p : Nat) (f : PartState → PartState) : (s.updPart p f).rig = s.rig := rfl
@[simp] theorem State.updGrp_rig (u : Nat) (f : Grp → Grp) : (s.updGrp u f).rig = s.rig := rfl
@[simp] theorem State.updGang_rig (k : Nat) (f : Gang → Gang) : (s.updGang k f).rig = s.rig := rfl
@[simp] theorem State.updLaunch_rig (k : Nat) (f : Launch → Launch) : (s.updLaunch k f).rig = s.rig := rfl
@[simp] theorem State.updTomb_rig (p k : Nat) (f : Tombstone → Tombstone) : (s.updTomb p k f).rig = s.rig := rfl
@[simp] theorem State.send_rig (o : Output) : (s.send o).rig = s.rig := rfl
@[simp] theorem State.noteDirty_rig (pa n p : Nat) : (s.noteDirty pa n p).rig = s.rig := rfl
@[simp] theorem State.ackSide_rig (p k : Nat) (o : BitVec 8) (n : Nat) : (s.ackSide p k o n).rig = s.rig := rfl
@[simp] theorem State.fireWatches_rig (t : Target) (n : Nat) : (s.fireWatches t n).rig = s.rig := rfl
@[simp] theorem State.dropCopies_rig (pa : Nat) : (s.dropCopies pa).rig = s.rig := rfl
@[simp] theorem State.unawait_rig (p : LineWait → Bool) : (s.unawait p).rig = s.rig := rfl
@[simp] theorem State.unwait_rig (u : Nat) : (s.unwait u).rig = s.rig := rfl
@[simp] theorem State.setEng_rig (e : EngBlock) : (s.setEng e).rig = s.rig := rfl
@[simp] theorem State.dropCmds_rig (ids : List Nat) : (s.dropCmds ids).rig = s.rig := rfl
@[simp] theorem State.forgive_rig (k c : Nat) (qs : List Nat) : (s.forgive k c qs).rig = s.rig := rfl
@[simp] theorem State.unschedule_rig (u core : Nat) : (s.unschedule u core).rig = s.rig := rfl

@[simp] theorem State.writePa_rig (pa : Nat) (bs : List Byte) : (s.writePa pa bs).rig = s.rig := (State.writePa_onlyMem ..).rig
@[simp] theorem State.writeImage_rig (g : Grp) : (s.writeImage g).rig = s.rig := (State.writeImage_onlyMem ..).rig
@[simp] theorem State.wakeWaits_rig : s.wakeWaits.rig = s.rig := (State.wakeWaits_onlyWakes s).rig

@[simp] theorem State.await_rig (w : LineWait) : (s.await w).rig = s.rig := by
  unfold State.await
  split <;> rfl

@[simp] theorem State.noteTime_rig (part t : Nat) : (s.noteTime part t).rig = s.rig := by
  unfold State.noteTime
  split <;> rfl

@[simp] theorem State.evictLine_rig (line : Nat) : (s.evictLine line).rig = s.rig := by
  unfold State.evictLine
  split <;> rfl

@[simp] theorem State.setLine_rig (pa : Nat) (t : LineTimes) : (s.setLine pa t).rig = s.rig := by
  unfold State.setLine
  dsimp only
  split
  · rw [State.evictLine_rig]
    rfl
  · rfl

@[simp] theorem State.stampLine_rig (pa part t : Nat) : (s.stampLine pa part t).rig = s.rig :=
  (State.noteTime_rig ..).trans (State.setLine_rig ..)

@[simp] theorem State.homeStore_rig (part pts pa : Nat) (bs : List Byte) (bank : Bool) : (s.homeStore part pts pa bs bank).2.rig = s.rig := by
  unfold State.homeStore
  dsimp only
  split <;> simp

@[simp] theorem State.agentStore_rig (part pts pa : Nat) (bs : List Byte) (bank : Bool) : (s.agentStore part pts pa bs bank).2.rig = s.rig := by
  unfold State.agentStore
  split
  · rfl
  · exact State.homeStore_rig ..

@[simp] theorem State.errorRecord_rig (part launchId kind group block pc pa : Nat) :
    (s.errorRecord part launchId kind group block pc pa).rig = s.rig := by
  unfold State.errorRecord
  dsimp only
  split
  · rfl
  · simp

@[simp] theorem State.imprecise_rig (kind : ErrKind) (part slot : Nat) (ord : BitVec 8) (pa : Nat) :
    (s.imprecise kind part slot ord pa).rig = s.rig := by
  have hmark : (if kind = .homelost then s else { s with pois := markPois s.pois (sectorOf pa) }).rig = s.rig := by
    split <;> rfl
  unfold State.imprecise
  dsimp only
  split
  · rw [State.errorRecord_rig, hmark]
  · rw [State.errorRecord_rig]
    exact hmark

@[simp] theorem State.wcWrite_rig (e : WcEntry) (part : Nat) : (s.wcWrite e part).rig = s.rig := by
  have hreqs (t : State) (rs : List Req) (ws : List LineWait) : ({ t with reqs := rs, lineWaits := ws } : State).rig = t.rig := rfl
  have hbyte (t : State) (i : Nat) :
      (if e.mask.getLsbD i then t.writePa (e.sector * 32 + i) [e.data.extractLsb' (8 * i) 8] else t).rig = t.rig := by
    split <;> simp
  have hpois (t : State) : (if e.mask = BitVec.allOnes 32 then { t with pois := clearPois t.pois (e.sector * 32) 32 } else t).rig = t.rig := by
    split <;> rfl
  have hdirty (t : State) : (if e.bank then t else t.noteDirty (e.sector * 32) 32 part).rig = t.rig := by
    split <;> rfl
  unfold State.wcWrite
  rw [hreqs]
  split
  · exact foldl_keeps (f := fun s (r : Req) => s.imprecise .homelost r.part r.imgSlot r.ord (e.sector * 32)) State.rig (fun _ _ => by simp) s _
  · dsimp only
    rw [State.fireWatches_rig, hdirty, State.dropCopies_rig, hpois]
    exact foldl_keeps State.rig hbyte s _

@[simp] theorem State.wcLeave_rig (core : Nat) (e : WcEntry) : (s.wcLeave core e).rig = s.rig := by
  unfold State.wcLeave
  split
  · dsimp only
    split
    · rw [State.updCore_rig, State.await_rig]
    · rfl
  · exact State.wcWrite_rig ..

@[simp] theorem State.wcFlush_rig (core : Nat) (p : WcEntry → Bool) : (s.wcFlush core p).rig = s.rig := by
  unfold State.wcFlush
  exact (foldl_keeps (f := fun s e => s.wcLeave core e) State.rig (fun _ _ => by simp) _ _).trans rfl

@[simp] theorem State.wcFlushGroup_rig (u core : Nat) : (s.wcFlushGroup u core).rig = s.rig := State.wcFlush_rig ..

/-! A gang that leaves (R27). -/

@[simp] theorem State.fetchImage_rig (u : Nat) : (s.fetchImage u).rig = s.rig := by
  unfold State.fetchImage
  split
  · split <;> rfl
  · rfl

@[simp] theorem State.saveImage_rig (u : Nat) : (s.saveImage u).rig = s.rig := by
  unfold State.saveImage
  split
  · split
    · rw [State.updGrp_rig, State.writeImage_rig]
    · rfl
  · rfl

@[simp] theorem State.leaveCore_rig (u core : Nat) : (s.leaveCore u core).rig = s.rig := by
  unfold State.leaveCore
  rw [State.unschedule_rig, State.updGrp_rig, State.unawait_rig, State.unwait_rig]
  exact State.wcFlushGroup_rig ..

@[simp] theorem State.evictGroup_rig (u core : Nat) : (s.evictGroup u core).rig = s.rig := by
  unfold State.evictGroup
  simp

@[simp] theorem State.dropEngine_rig (k c : Nat) (b : Bool) : (s.dropEngine k c b).rig = s.rig := by
  cases b <;> rfl

@[simp] theorem State.writeGangImage_rig (g : Gang) (core : Nat) : (s.writeGangImage g core).rig = s.rig := by
  unfold State.writeGangImage
  split
  · exact ((State.writeLines_onlyMem ..).trans (State.writeLines_onlyMem ..)).rig
  · rfl

@[simp] theorem State.evictGang_rig (k : Nat) : (s.evictGang k).rig = s.rig := by
  unfold State.evictGang
  split
  · rfl
  · simp [foldl_keeps State.rig]

@[simp] theorem State.settleGang_rig (k : Nat) : (s.settleGang k).rig = s.rig := by
  unfold State.settleGang
  split
  · rfl
  · dsimp only
    split
    · split
      · exact foldl_keeps State.rig (fun s k => State.evictGang_rig s k) s _
      · rfl
    · rfl

@[simp] theorem State.askEvict_rig (k : Nat) : (s.askEvict k).rig = s.rig := by
  unfold State.askEvict
  split
  · rfl
  · rw [State.settleGang_rig]
    rfl

/-! Groups and launches that end (R96, R349, R355). -/

@[simp] theorem State.discardHeld_rig (u : Nat) : (s.discardHeld u).rig = s.rig := by
  unfold State.discardHeld
  split
  · rfl
  · dsimp only
    rw [State.updGrp_rig]
    split
    · rfl
    · refine foldl_keeps State.rig (fun t w => ?_) s _
      rfl

@[simp] theorem State.unbindAll_rig (g : Grp) : (s.unbindAll g).rig = s.rig := by
  unfold State.unbindAll
  dsimp only
  rw [State.updGrp_rig]
  split <;> rfl

/-- A group that has ended, off its core and without bindings (R96, R224). -/
def State.leftByEnd (u : Nat) (g : Grp) : State :=
  let t : State := s.wcFlushGroup u g.core
  let t : State := (({ t with copies := t.copies.filter fun c => c.owner != some u } : State).unwait u).unawait fun w => w.readsOf u
  (((t.unbindAll g).updGrp u fun x => { x with place := .ended }).unschedule u g.core).updLaunch g.launch
    fun l => { l with finalPts := max l.finalPts g.pts }

/-- A block's engine state after the end of a group (R224). -/
def State.engineAfterEnd (g : Grp) (live : List Grp) : State :=
  if live.any fun x => x.coreIdx == g.coreIdx then s else s.dropEngine g.gang g.coreIdx false

/-- A gang's blocks that have run, after the end of a group. -/
def State.blockAfterEnd (g : Grp) (live : List Grp) : State :=
  if live.any fun x => x.block == g.block then s
  else s.updGang g.gang fun k => { k with ran := if k.killed then k.ran else k.ran + 1 }

/-- A gang and its launch after the end of a group (R333). -/
def State.gangAfterEnd (g : Grp) (live : List Grp) : State :=
  if live.isEmpty then
    let ran := ((s.gang g.gang).map (·.ran)).getD 0
    let s : State := s.updGang g.gang fun k => { k with place := .ended }
    s.updLaunch g.launch fun l => if g.under then l else { l with endedGangs := l.endedGangs + 1, blocks := l.blocks + ran }
  else s

/-- The groups of a gang that have not ended. -/
def State.liveGroups (k : Nat) : List Grp := (s.gangGroups k).filter fun x => x.place != .ended

theorem State.afterEnd_eq {u : Nat} {g : Grp} (hg : s.grp u = some g) :
    s.afterEnd u = (((s.leftByEnd u g).engineAfterEnd g ((s.leftByEnd u g).liveGroups g.gang)).blockAfterEnd g
      ((s.leftByEnd u g).liveGroups g.gang)).gangAfterEnd g ((s.leftByEnd u g).liveGroups g.gang) := by
  rw [State.afterEnd, hg]
  rfl

@[simp] theorem State.leftByEnd_rig (u : Nat) (g : Grp) : (s.leftByEnd u g).rig = s.rig := by
  have hcopies (t : State) (cs : List Copy) : ({ t with copies := cs } : State).rig = t.rig := rfl
  unfold State.leftByEnd
  dsimp only
  rw [State.updLaunch_rig, State.unschedule_rig, State.updGrp_rig, State.unbindAll_rig, State.unawait_rig, State.unwait_rig, hcopies,
    State.wcFlushGroup_rig]

@[simp] theorem State.engineAfterEnd_rig (g : Grp) (live : List Grp) : (s.engineAfterEnd g live).rig = s.rig := by
  unfold State.engineAfterEnd
  split <;> simp

@[simp] theorem State.blockAfterEnd_rig (g : Grp) (live : List Grp) : (s.blockAfterEnd g live).rig = s.rig := by
  unfold State.blockAfterEnd
  split <;> simp

@[simp] theorem State.gangAfterEnd_rig (g : Grp) (live : List Grp) : (s.gangAfterEnd g live).rig = s.rig := by
  unfold State.gangAfterEnd
  split <;> simp

@[simp] theorem State.afterEnd_rig (u : Nat) : (s.afterEnd u).rig = s.rig := by
  cases hg : s.grp u with
  | none => rw [State.afterEnd, hg]
  | some g =>
    rw [State.afterEnd_eq s hg]
    simp

@[simp] theorem State.killGroup_rig (u : Nat) : (s.killGroup u).rig = s.rig := by
  unfold State.killGroup
  simp

@[simp] theorem State.killGang_rig (k : Nat) : (s.killGang k).rig = s.rig := by
  have hiss (t : State) (c : Bool) : (if c then { t with iss := {} } else t).rig = t.rig := by split <;> rfl
  have hstow (t : State) (is : List Issue) : ({ t with stowed := is } : State).rig = t.rig := rfl
  unfold State.killGang
  split
  · rfl
  · dsimp only
    rw [foldl_keeps (f := State.killGroup) State.rig State.killGroup_rig,
      foldl_keeps (f := fun s k => s.updGang k fun x => { x with killed := true }) State.rig (fun _ _ => rfl), hstow, hiss]

@[simp] theorem State.endLaunch_rig (l status fclass : Nat) : (s.endLaunch l status fclass).rig = s.rig := by
  unfold State.endLaunch
  rw [foldl_keeps (f := State.killGang) State.rig State.killGang_rig]
  rfl

@[simp] theorem State.recheck_rig (part : Nat) : (s.recheck part).rig = s.rig := by
  unfold State.recheck
  exact foldl_keeps State.rig (fun _ _ => by simp) s _

end

/-! Boot (R405): what each die's boot ROM leaves. -/

/-- A state as far as boot goes: as another but for whether some dies have passed. -/
structure Booting (p : Nat → Bool) (s t : State) : Prop where
  booted : t.booted = s.booted
  conf : t.conf = s.conf
  flash : t.flash = s.flash
  passed : ∀ d, (t.die d).passed = ((s.die d).passed || p d)
  released : ∀ d, (t.die d).released = (s.die d).released

namespace Booting

theorem of_rig {s t : State} (h : t.rig = s.rig) : Booting (fun _ => false) s t := by
  simp only [State.rig, Prod.mk.injEq] at h
  obtain ⟨hb, hc, hf, hd⟩ := h
  refine ⟨hb, hc, hf, fun d => ?_, fun d => ?_⟩
  · rw [State.die, hd, State.die, Bool.or_false]
  · rw [State.die, hd, State.die]

theorem trans {p q : Nat → Bool} {s t u : State} (h : Booting p s t) (k : Booting q t u) : Booting (fun d => p d || q d) s u :=
  ⟨k.booted.trans h.booted, k.conf.trans h.conf, k.flash.trans h.flash,
    fun d => by rw [k.passed, h.passed, Bool.or_assoc], fun d => (k.released d).trans (h.released d)⟩

/-- Nothing but what boot does not look at, then again. -/
theorem still {s t u : State} (h : Booting (fun _ => false) s t) (k : Booting (fun _ => false) t u) : Booting (fun _ => false) s u := h.trans k

theorem foldl {α : Type} {f : State → α → State} (h : ∀ s x, Booting (fun _ => false) s (f s x)) (s : State) (xs : List α) :
    Booting (fun _ => false) s (xs.foldl f s) := by
  induction xs generalizing s with
  | nil => exact of_rig rfl
  | cons x r ih => exact (h s x).still (ih _)

theorem healthEvent (s : State) (d : Nat) (f : Word → Word) : Booting (fun _ => false) s (s.healthEvent d f) := by
  have hdie (h : Word) (e : Nat) : ((s.setHealth d h).die e).passed = (s.die e).passed ∧ ((s.setHealth d h).die e).released = (s.die e).released := by
    unfold State.setHealth
    by_cases he : e = d
    · rw [he, State.die_updDie]
      exact ⟨rfl, rfl⟩
    · rw [State.die_updDie_other _ _ _ _ he]
      exact ⟨rfl, rfl⟩
  exact ⟨rfl, rfl, rfl, fun e => by rw [Bool.or_false]; exact (hdie _ e).1, fun e => (hdie _ e).2⟩

theorem alarm (s old : State) (part : Option Nat) : Booting (fun _ => false) s (s.alarm old part) := by
  refine of_rig ?_
  unfold State.alarm
  refine foldl_keeps State.rig (fun t p => ?_) s _
  dsimp only
  split <;> rfl

theorem quarantine (s : State) (core : Nat) : Booting (fun _ => false) s (s.quarantine core) := by
  have hevicts (t : State) (ks : List Nat) : Booting (fun _ => false) t (ks.foldl State.askEvict t) :=
    foldl (fun _ _ => of_rig (State.askEvict_rig ..)) t ks
  have hrecheck (t : State) : Booting (fun _ => false) t (match t.corePart core with | some p => t.recheck p | none => t) := by
    split
    · exact of_rig (State.recheck_rig ..)
    · exact of_rig rfl
  unfold State.quarantine
  exact ((healthEvent ..).still (alarm ..)).still ((hevicts _ _).still (hrecheck _))

end Booting

/-- A die whose boot ROM has checked it: the record is applied there, and it has passed (R405). -/
theorem State.applyRecord_booting (s : State) (r : ConfigRecord) (die : Nat) : Booting (· == die) s (s.applyRecord r die) := by
  have hcores (t : State) (cs : List CoreRecord) :
      Booting (fun _ => false) t (cs.foldl (fun s c => s.updCore c.core (loadRecord c)) t) :=
    .foldl (f := fun s c => s.updCore c.core (loadRecord c)) (fun _ _ => .of_rig rfl) t cs
  have hslices (t : State) (xs : List (Nat × Nat)) : Booting (fun _ => false) t (xs.foldl (fun s x =>
      (s.healthEvent x.1 fun h => setField h 12 8 (min (bits h 12 8 + 1) 31)).alarm s none) t) :=
    .foldl (fun _ _ => (Booting.healthEvent ..).still (Booting.alarm ..)) t xs
  have hquar (t : State) (cs : List Nat) : Booting (fun _ => false) t (cs.foldl (fun s c =>
      (s.updCore c fun x => { x with quar := 5#32 }).quarantine c) t) :=
    .foldl (f := fun s c => (s.updCore c fun x => { x with quar := 5#32 }).quarantine c)
      (fun _ _ => (Booting.of_rig (State.updCore_rig ..)).still (Booting.quarantine ..)) t cs
  have hpass (t : State) : Booting (· == die) t (t.updDie die fun x => { x with passed := true }) := by
    refine ⟨rfl, rfl, rfl, fun d => ?_, fun d => ?_⟩
    · by_cases hd : d = die
      · rw [hd, State.die_updDie, beq_self_eq_true, Bool.or_true]
      · rw [State.die_updDie_other _ _ _ _ hd, beq_eq_false_iff_ne.2 hd, Bool.or_false]
    · by_cases hd : d = die
      · rw [hd, State.die_updDie]
      · rw [State.die_updDie_other _ _ _ _ hd]
  unfold State.applyRecord
  exact (((hcores _ _).still (hslices _ _)).still (hquar _ _)).trans (hpass _)

/-- The dies whose boot ROMs have checked the flash (R405). -/
theorem State.applyRecords_booting (s : State) (ds : List Nat) :
    Booting (fun d => ds.contains d) s (ds.foldl (fun s d => s.applyRecord s.flash.record d) s) := by
  induction ds generalizing s with
  | nil => exact .of_rig rfl
  | cons x r ih =>
    have h := (s.applyRecord_booting s.flash.record x).trans (ih _)
    exact ⟨h.booted, h.conf, h.flash, fun d => by rw [List.foldl_cons, h.passed, List.contains_cons], h.released⟩

/-- The dies' boot ROMs have checked the flash. -/
def State.checked (s : State) : State :=
  ((List.range 4).filter fun d => flashPasses s.flash d && !(s.die d).passed).foldl (fun s d => s.applyRecord s.flash.record d) s

/-- Every die's control cores released, the record in effect (R403, R405). -/
def State.allReleased (s : State) : State :=
  { ((List.range 4).foldl (fun s d => s.updDie d fun x => { x with released := true }) s) with booted := true, conf := s.flash.record }

theorem execPowerOnBoot_eq (s : State) :
    execPowerOnBoot s = if s.booted then .next s
      else if (List.range 4).all fun d => (s.checked.die d).passed then .next s.checked.allReleased else .next s.checked := rfl

theorem State.checked_passed (s : State) {d : Nat} (hd : d < 4) : (s.checked.die d).passed = ((s.die d).passed || flashPasses s.flash d) := by
  rw [State.checked, (State.applyRecords_booting ..).passed]
  have hc : ((List.range 4).filter fun d => flashPasses s.flash d && !(s.die d).passed).contains d
      = (flashPasses s.flash d && !(s.die d).passed) := by
    rw [Bool.eq_iff_iff, List.contains_iff_mem, List.mem_filter]
    exact and_iff_right (List.mem_range.2 hd)
  rw [hc]
  cases (s.die d).passed <;> cases flashPasses s.flash d <;> rfl

theorem State.allReleased_die (s : State) {d : Nat} (hd : d < 4) :
    (s.allReleased.die d).passed = (s.die d).passed ∧ (s.allReleased.die d).released = true := by
  have hfold (xs : List Nat) (t : State) : ((xs.foldl (fun s d => s.updDie d fun x => { x with released := true }) t).die d).passed = (t.die d).passed
      ∧ (((t.die d).released = true ∨ d ∈ xs) → ((xs.foldl (fun s d => s.updDie d fun x => { x with released := true }) t).die d).released = true) := by
    induction xs generalizing t with
    | nil => exact ⟨rfl, fun h => h.resolve_right List.not_mem_nil⟩
    | cons x r ih =>
      obtain ⟨hp, hr⟩ := ih (t.updDie x fun x => { x with released := true })
      by_cases hx : d = x
      · rw [← hx] at hp hr
        rw [List.foldl_cons, ← hx]
        rw [State.die_updDie] at hp hr
        exact ⟨hp, fun _ => hr (.inl rfl)⟩
      · rw [State.die_updDie_other _ _ _ _ hx] at hp hr
        exact ⟨hp, fun h => hr (h.imp_right fun hm => (List.mem_cons.1 hm).resolve_left hx)⟩
  obtain ⟨hp, hr⟩ := hfold (List.range 4) s
  exact ⟨hp, hr (.inr (List.mem_range.2 hd))⟩

/-- Boot (R405). -/
theorem execPowerOnBoot_boots (s : State) : ∃ t, execPowerOnBoot s = .next t ∧
    (s.booted = true → t = s)
    ∧ (s.booted = false → ∀ d < 4, (t.die d).passed = ((s.die d).passed || flashPasses s.flash d))
    ∧ (s.booted = false → (∀ d < 4, ((s.die d).passed || flashPasses s.flash d) = true) →
        t.booted = true ∧ t.conf = s.flash.record ∧ ∀ d < 4, (t.die d).released = true)
    ∧ (s.booted = false → (∃ d < 4, ((s.die d).passed || flashPasses s.flash d) = false) →
        t.booted = false ∧ t.conf = s.conf ∧ ∀ d < 4, (t.die d).released = (s.die d).released) := by
  rw [execPowerOnBoot_eq]
  cases hb : s.booted
  · rw [if_neg Bool.false_ne_true]
    have hchecked := State.applyRecords_booting s ((List.range 4).filter fun d => flashPasses s.flash d && !(s.die d).passed)
    have hall : ((List.range 4).all fun d => (s.checked.die d).passed) = true ↔ ∀ d < 4, ((s.die d).passed || flashPasses s.flash d) = true := by
      rw [List.all_eq_true]
      exact ⟨fun h d hd => by rw [← s.checked_passed hd]; exact h d (List.mem_range.2 hd),
        fun h d hd => by rw [s.checked_passed (List.mem_range.1 hd)]; exact h d (List.mem_range.1 hd)⟩
    by_cases hpass : ((List.range 4).all fun d => (s.checked.die d).passed) = true
    · rw [if_pos hpass]
      refine ⟨_, rfl, fun h => Bool.noConfusion h, fun _ d hd => ?_, fun _ _ => ⟨rfl, congrArg Flash.record hchecked.flash, fun d hd => ?_⟩, fun _ h => ?_⟩
      · rw [(State.allReleased_die _ hd).1, s.checked_passed hd]
      · exact (State.allReleased_die _ hd).2
      · obtain ⟨d, hd, hno⟩ := h
        rw [hall.1 hpass d hd] at hno
        exact Bool.noConfusion hno
    · rw [if_neg hpass]
      exact ⟨_, rfl, fun h => Bool.noConfusion h, fun _ d hd => s.checked_passed hd, fun _ h => absurd (hall.2 h) hpass,
        fun _ _ => ⟨hchecked.booted.trans hb, hchecked.conf, fun d _ => hchecked.released d⟩⟩
  · rw [if_pos rfl]
    exact ⟨s, rfl, fun _ => rfl, fun h => Bool.noConfusion h, fun h => Bool.noConfusion h, fun h => Bool.noConfusion h⟩

/-! Bytes written in a run and read back (R5). -/

theorem bytesLE_succ (n v : Nat) : bytesLE (n + 1) v = BitVec.ofNat 8 v :: bytesLE n (v >>> 8) := by
  rw [bytesLE, List.range_succ_eq_map, List.map_cons, List.map_map, bytesLE]
  refine congrArg₂ List.cons (by simp) (List.map_congr_left fun i _ => ?_)
  simp only [Function.comp, ← Nat.shiftRight_add, Nat.mul_succ, Nat.add_comm]

theorem ofBytesLE_bytesLE (n v : Nat) : ofBytesLE (bytesLE n v) = v % 256 ^ n := by
  induction n generalizing v with
  | zero => rw [Nat.pow_zero, Nat.mod_one]; rfl
  | succ n ih =>
    have hcons : ofBytesLE (BitVec.ofNat 8 v :: bytesLE n (v >>> 8)) = (BitVec.ofNat 8 v).toNat + 256 * ofBytesLE (bytesLE n (v >>> 8)) := rfl
    have hsplit := Nat.mod_mul (x := v) (a := 256) (b := 256 ^ n)
    rw [bytesLE_succ, hcons, ih, BitVec.toNat_ofNat, Nat.shiftRight_eq_div_pow, show 256 ^ (n + 1) = 256 * 256 ^ n from Nat.pow_succ']
    exact hsplit.symm

theorem length_bytesLE (n v : Nat) : (bytesLE n v).length = n := by rw [bytesLE, List.length_map, List.length_range]

section
variable {s t : State}

/-- A run that has been written is read, outside the zero rows. -/
theorem State.readPa_run {m : Memory} {a n : Nat} {bs : List Byte} (hm : t.mem = writeRun m a bs) (hn : bs.length = n)
    (hz : ∀ i < n, zeroRow (a + i) = false) : t.readPa a n = bs := by
  subst hn
  refine List.ext_getElem (by rw [State.readPa, List.length_map, List.length_range]) fun i h₁ h₂ => ?_
  have hz' := hz i h₂
  simp only [State.readPa, List.getElem_map, List.getElem_range, hz', hm]
  exact (if_neg Bool.false_ne_true).trans (readByte_writeRun_same m a bs i h₂)

/-- A run that has been written elsewhere leaves what is read. -/
theorem State.readPa_run_other {b : Nat} {bs : List Byte} (hm : t.mem = writeRun s.mem b bs) {a n : Nat}
    (h : a + n ≤ b ∨ b + bs.length ≤ a) : t.readPa a n = s.readPa a n := by
  rw [State.readPa, State.readPa, hm]
  refine List.map_congr_left fun i hi => ?_
  have hin := List.mem_range.1 hi
  rw [readByte_writeRun_other _ _ _ _ (by omega)]

theorem State.readPaNat_run {m : Memory} {a n v : Nat} (hm : t.mem = writeRun m a (bytesLE n v)) (hz : ∀ i < n, zeroRow (a + i) = false) :
    t.readPaNat a n = v % 256 ^ n := by
  rw [State.readPaNat, State.readPa_run hm (length_bytesLE n v) hz, ofBytesLE_bytesLE]

/-! Stores of an agent at their homes, one after another (R188). -/

theorem State.die_of_rig (h : t.rig = s.rig) (d : Nat) : t.die d = s.die d := by
  simp only [State.rig, Prod.mk.injEq] at h
  rw [State.die, h.2.2.2, State.die]

theorem State.homeStores_cons (part pts pa : Nat) (bs : List Byte) (r : List (Nat × List Byte)) (bank : Nat → Bool) :
    s.homeStores part pts ((pa, bs) :: r) bank =
      State.homeStores (s.homeStore part pts pa bs (bank pa || s.bankPage pa)).2 part (s.homeStore part pts pa bs (bank pa || s.bankPage pa)).1 r bank := rfl

theorem State.homeStores_rig (part pts : Nat) (xs : List (Nat × List Byte)) (bank : Nat → Bool) : (s.homeStores part pts xs bank).2.rig = s.rig := by
  induction xs generalizing s pts with
  | nil => rfl
  | cons x r ih =>
    obtain ⟨pa, bs⟩ := x
    rw [State.homeStores_cons, ih, State.homeStore_rig]

theorem State.homeStores_out (part pts : Nat) (xs : List (Nat × List Byte)) (bank : Nat → Bool) : (s.homeStores part pts xs bank).2.out = s.out := by
  induction xs generalizing s pts with
  | nil => rfl
  | cons x r ih =>
    obtain ⟨pa, bs⟩ := x
    rw [State.homeStores_cons, ih, State.homeStore_out]

theorem State.homeStores_one_mem {pa : Nat} {bs : List Byte} (part pts : Nat) (bank : Nat → Bool) (hz : zeroRow pa = false)
    (hd : (s.die (homeDie pa)).failed = false) : (s.homeStores part pts [(pa, bs)] bank).2.mem = writeRun s.mem pa bs :=
  State.homeStore_mem _ _ _ _ hz hd

theorem State.homeStores_two_mem {pa pb : Nat} {bs cs : List Byte} (part pts : Nat) (bank : Nat → Bool) (hz : zeroRow pa = false)
    (hd : (s.die (homeDie pa)).failed = false) (hy : zeroRow pb = false) (he : (s.die (homeDie pb)).failed = false) :
    (s.homeStores part pts [(pa, bs), (pb, cs)] bank).2.mem = writeRun (writeRun s.mem pa bs) pb cs := by
  rw [State.homeStores_cons, State.homeStores_one_mem _ _ _ hy (by rw [State.die_of_rig (State.homeStore_rig ..)]; exact he),
    State.homeStore_mem _ _ _ _ hz hd]

/-! What a packet's service leaves (R397 to R401). -/

section
variable {p : NetPacket} {a : Nat} {q : QueuePair}

theorem State.packetDone_out (psns msgs n : Nat) : (s.packetDone p a q psns msgs n).out = s.out := State.homeStores_out ..

theorem State.nakPacket_mem (invalid : Bool) (hz : zeroRow a = false) (hd : (s.die (homeDie a)).failed = false) :
    (s.nakPacket p a invalid).mem = writeRun s.mem a (bytesLE 4 (s.readPaNat a 4 / 16 * 16 + 4)) :=
  State.homeStores_one_mem (s := s) p.part 0 (fun _ => false) hz hd

theorem State.nakPacket_out (invalid : Bool) :
    (s.nakPacket p a invalid).out = .nak (s.queuePair a).head p.part p.qpn p.psn invalid :: s.out :=
  congrArg (List.cons _) (State.homeStores_out ..)

/-- An access that waits at its home comes back after the machine's own next move (log 52). -/
theorem State.waitOutside_waits (m : Move) (reads writes : List Nat) :
    (s.waitOutside m reads writes).mem = s.mem ∧ (s.waitOutside m reads writes).out = s.out
      ∧ (s.waitOutside m reads writes).agenda = .own :: m :: s.agenda := by
  have hask {β : Type} (g : State → β) (hg : ∀ t pa key w, g (State.demand t pa key w) = g t) (w : Bool) (t : State) (pas : List Nat) :
      g (pas.foldl (fun (s : State) pa => if s.bankHolds pa w then s.demand pa (0, 2 * lineOf pa) w else s) t) = g t := by
    refine foldl_keeps g (fun u pa => ?_) t pas
    split
    · exact hg ..
    · rfl
  have hdemand {β : Type} (g : State → β) (hg : ∀ t bs, g { t with banks := bs } = g t) (t : State) (pa : Nat) (key : Nat × Nat) (w : Bool) :
      g (t.demand pa key w) = g t := by
    unfold State.demand
    dsimp only
    split
    · rfl
    · exact hg ..
  have hkeep {β : Type} (g : State → β) (hg : ∀ t bs, g { t with banks := bs } = g t) :
      g (writes.foldl (fun (s : State) pa => if s.bankHolds pa true then s.demand pa (0, 2 * lineOf pa) true else s)
        (reads.foldl (fun (s : State) pa => if s.bankHolds pa false then s.demand pa (0, 2 * lineOf pa) false else s) s)) = g s :=
    (hask g (hdemand g hg) true _ writes).trans (hask g (hdemand g hg) false s reads)
  exact ⟨hkeep State.mem fun _ _ => rfl, hkeep State.out fun _ _ => rfl, congrArg (fun x => Move.own :: m :: x) (hkeep State.agenda fun _ _ => rfl)⟩

theorem State.nak_free (invalid : Bool) (h : s.writeWaits [a] = false) : s.nak p a invalid = .next (s.servedOutside.nakPacket p a invalid) := by
  rw [State.nak, h]
  rfl

/-! Writes (R397 to R400). -/

theorem execRdmaWrite_drop (hop : p.op = .writeOnly) (h : s.seePacket p = .drop) : execRdmaWrite p s = .next s := by
  simp only [execRdmaWrite, hop, h]

theorem execRdmaWrite_again (hop : p.op = .writeOnly) (h : s.seePacket p = .again a q) :
    execRdmaWrite p s = .next (s.send (.ack q.head p.part p.qpn p.psn q.msn)) := by
  simp only [execRdmaWrite, hop, h]

theorem execRdmaWrite_expected {pas : List Nat} (hop : p.op = .writeOnly) (h : s.seePacket p = .expected a q) (hp : s.packetPas p q = some pas) :
    execRdmaWrite p s =
      if s.writeWaits ([a + 8, a + 12] ++ pas) then .next (s.waitOutside (.packet p) [] ([a + 8, a + 12] ++ pas))
      else
        let x := s.servedOutside.storeRuns p.part (tget (s.part p.part).qpTimes p.qpn 0 + 1) (pas.zip p.data) (s.netBank p)
        .next ((x.2.packetDone p a q 1 1 x.1).send (.ack q.head p.part p.qpn p.psn ((q.msn + 1) % 2 ^ 24))) := by
  simp only [execRdmaWrite, hop, h, hp]
  rfl

/-! Reads (R397 to R401). -/

theorem execRdmaRead_again {pas : List Nat} (hop : p.op = .readRequest) (h : s.seePacket p = .again a q) (hp : s.packetPas p q = some pas)
    (hr : s.readWaits pas = false) :
    execRdmaRead p s = .next (s.servedOutside.send (.readResponse q.head p.part p.qpn p.psn
      (pas.map fun pa => (s.readPa pa 1).headD 0#8) (pas.any fun pa => s.paPois pa 1))) := by
  simp only [execRdmaRead, hop, h, hp, hr]
  rfl

theorem execRdmaRead_expected {pas : List Nat} (hop : p.op = .readRequest) (h : s.seePacket p = .expected a q) (hp : s.packetPas p q = some pas)
    (hr : s.readWaits pas = false) (hw : s.writeWaits [a + 8, a + 12] = false) :
    execRdmaRead p s = .next ((s.servedOutside.packetDone p a q (readPackets q p.len) 1 0).send (.readResponse q.head p.part p.qpn p.psn
      (pas.map fun pa => (s.readPa pa 1).headD 0#8) (pas.any fun pa => s.paPois pa 1))) := by
  have hwait : s.writeWaits (entryWords a) = false := hw
  simp only [execRdmaRead, hop, h, hp, hr, hwait]
  rfl

theorem execRdmaRead_refused (hop : p.op = .readRequest) (h : s.seePacket p = .expected a q ∨ s.seePacket p = .again a q)
    (hp : s.packetPas p q = none) (hw : s.writeWaits [a] = false) : execRdmaRead p s = .next (s.servedOutside.nakPacket p a false) := by
  rcases h with h | h
  · simp only [execRdmaRead, hop, h, hp]
    exact State.nak_free _ hw
  · simp only [execRdmaRead, hop, h, hp]
    exact State.nak_free _ hw

theorem execRdmaRead_drop (hop : p.op = .readRequest) (h : s.seePacket p = .drop) : execRdmaRead p s = .next s := by
  simp only [execRdmaRead, hop, h]

theorem execRdmaRead_wrong (hop : p.op = .readRequest) (h : s.seePacket p = .wrongPsn a) (hw : s.writeWaits [a] = false) :
    execRdmaRead p s = .next (s.servedOutside.nakPacket p a false) := by
  simp only [execRdmaRead, hop, h]
  exact State.nak_free _ hw

theorem execInvalidRequest_refused (h : s.seePacket p = .invalid a) (hw : s.writeWaits [a] = false) :
    execInvalidRequest p s = .next (s.servedOutside.nakPacket p a true) := by
  simp only [execInvalidRequest, h]
  exact State.nak_free _ hw

/-! FETCH_ADD (R397 to R402). -/

/-- The 8 bytes of an atomic added to at their home (R401). -/
def State.fetchAdded (s : State) (p : NetPacket) (pa : Nat) : Nat × State :=
  s.servedOutside.homeStores p.part (tget (s.part p.part).qpTimes p.qpn 0 + 1)
    [(pa, bytesLE 8 (BitVec.ofNat 64 (s.readPaNat pa 8) + p.add).toNat)] (s.netBank p)

theorem execAtomicFetchAdd_expected {pa : Nat} {rest : List Nat} (hop : p.op = .fetchAdd) (h : s.seePacket p = .expected a q)
    (hp : s.packetPas p q = some (pa :: rest)) (hw : s.writeWaits ([a + 8, a + 12] ++ pa :: rest) = false) :
    execAtomicFetchAdd p s = .next (((s.fetchAdded p pa).2.packetDone p a q 1 1 (s.fetchAdded p pa).1).send
      (.atomicResponse q.head p.part p.qpn p.psn (BitVec.ofNat 64 (s.readPaNat pa 8)) (s.paPois pa 8))) := by
  have hwait : s.writeWaits (entryWords a ++ pa :: rest) = false := hw
  simp only [execAtomicFetchAdd, hop, h, hp, hwait]
  rfl

/-- What memory holds once an atomic is served: the sum, and the pair's EPSN and MSN moved on. -/
theorem State.fetchAdded_mem {pa : Nat} (hz : ∀ i < 8, zeroRow (pa + i) = false ∧ zeroRow (a + 8 + i) = false)
    (hd : (s.die (homeDie pa)).failed = false) (h8 : (s.die (homeDie (a + 8))).failed = false) (h12 : (s.die (homeDie (a + 12))).failed = false) :
    ((s.fetchAdded p pa).2.packetDone p a q 1 1 (s.fetchAdded p pa).1).mem =
      writeRun (writeRun (writeRun s.mem pa (bytesLE 8 (BitVec.ofNat 64 (s.readPaNat pa 8) + p.add).toNat))
        (a + 8) (bytesLE 4 ((q.epsn + 1) % 2 ^ 24))) (a + 12) (bytesLE 4 ((q.msn + 1) % 2 ^ 24)) := by
  have hrig : (s.fetchAdded p pa).2.rig = s.rig := State.homeStores_rig ..
  have hfirst : (s.fetchAdded p pa).2.mem = writeRun s.mem pa (bytesLE 8 (BitVec.ofNat 64 (s.readPaNat pa 8) + p.add).toNat) :=
    State.homeStores_one_mem (s := s.servedOutside) _ _ _ (hz 0 (by decide)).1 hd
  have hdone := State.homeStores_two_mem (s := (s.fetchAdded p pa).2) (pa := a + 8) (pb := a + 12) (bs := bytesLE 4 ((q.epsn + 1) % 2 ^ 24))
    (cs := bytesLE 4 ((q.msn + 1) % 2 ^ 24)) p.part (s.fetchAdded p pa).1 (fun _ => false) (hz 0 (by decide)).2
    (by rw [State.die_of_rig hrig]; exact h8) (hz 4 (by decide)).2 (by rw [State.die_of_rig hrig]; exact h12)
  rw [hfirst] at hdone
  exact hdone

theorem State.fetchAdded_reads {pa : Nat} (hz : ∀ i < 8, zeroRow (pa + i) = false ∧ zeroRow (a + 8 + i) = false)
    (hd : (s.die (homeDie pa)).failed = false) (h8 : (s.die (homeDie (a + 8))).failed = false) (h12 : (s.die (homeDie (a + 12))).failed = false)
    (hapart : pa + 8 ≤ a + 8 ∨ a + 16 ≤ pa) {t : State} (ht : t.mem = ((s.fetchAdded p pa).2.packetDone p a q 1 1 (s.fetchAdded p pa).1).mem) :
    t.readPaNat pa 8 = (s.readPaNat pa 8 + p.add.toNat) % 2 ^ 64 ∧ t.readPaNat (a + 8) 4 = (q.epsn + 1) % 2 ^ 24
      ∧ t.readPaNat (a + 12) 4 = (q.msn + 1) % 2 ^ 24 := by
  have hmem := ht.trans (State.fetchAdded_mem hz hd h8 h12)
  let m₁ := writeRun s.mem pa (bytesLE 8 (BitVec.ofNat 64 (s.readPaNat pa 8) + p.add).toNat)
  let m₂ := writeRun m₁ (a + 8) (bytesLE 4 ((q.epsn + 1) % 2 ^ 24))
  have hlen (v : Nat) : (bytesLE 4 v).length = 4 := length_bytesLE 4 v
  refine ⟨?_, ?_, ?_⟩
  · have h₂ := State.readPa_run_other (s := { s with mem := m₂ }) hmem (a := pa) (n := 8) (by rw [hlen]; omega)
    have h₁ := State.readPa_run_other (s := { s with mem := m₁ }) (t := { s with mem := m₂ }) rfl (a := pa) (n := 8) (by rw [hlen]; omega)
    have h₀ := State.readPaNat_run (t := { s with mem := m₁ }) (n := 8) rfl fun i hi => (hz i hi).1
    rw [State.readPaNat, h₂, h₁, ← State.readPaNat, h₀, BitVec.toNat_add, BitVec.toNat_ofNat, Nat.mod_add_mod]
    exact Nat.mod_eq_of_lt (Nat.mod_lt _ (by decide))
  · have h₂ := State.readPa_run_other (s := { s with mem := m₂ }) hmem (a := a + 8) (n := 4) (by rw [hlen]; omega)
    have h₁ := State.readPaNat_run (t := { s with mem := m₂ }) (n := 4) rfl fun i hi => (hz i (by omega)).2
    rw [State.readPaNat, h₂, ← State.readPaNat, h₁]
    exact Nat.mod_eq_of_lt (by omega)
  · have h₁ := State.readPaNat_run (n := 4) hmem fun i hi => by
      have h := (hz (4 + i) (by omega)).2
      rwa [show a + 8 + (4 + i) = a + 12 + i by omega] at h
    rw [h₁]
    exact Nat.mod_eq_of_lt (by omega)

end

end

/-! Accesses of a device (R403, R405). -/

section
variable {s : State}

theorem execDeviceDma_unbooted (d : DmaRequest) (hb : s.booted = false) : execDeviceDma d s = .next s := by
  unfold execDeviceDma
  rw [hb]
  rfl

/-- The lines that a host caches as it reads (R247). -/
def State.hostReads (s : State) (pa n : Nat) : State :=
  if s.conf.endpoint then { s.servedOutside with hostLines := (s.hostLines ++ linesOf pa n).eraseDups } else s.servedOutside

theorem execDeviceDma_read {pa n : Nat} (hb : s.booted = true) (hf : s.paFault pa n = none)
    (hr : s.readWaits ((List.range n).map (pa + ·)) = false) :
    execDeviceDma (.read pa n) s = .next ((s.hostReads pa n).send (.dmaData ((List.range n).map fun i => (s.readPa (pa + i) 1).headD 0#8)
      ((List.range n).any fun i => s.paPois (pa + i) 1))) := by
  simp only [execDeviceDma, hb, hf, hr]
  rfl

theorem State.hostReads_keeps (s : State) (pa n : Nat) : (s.hostReads pa n).mem = s.mem ∧ (s.hostReads pa n).out = s.out := by
  unfold State.hostReads
  split <;> exact ⟨rfl, rfl⟩

theorem execDeviceDma_write {pa : Nat} {data : List Byte} (hb : s.booted = true) (hf : s.paFault pa data.length = none)
    (hw : s.writeWaits ((List.range data.length).map (pa + ·)) = false) :
    execDeviceDma (.write pa data) s = .next (s.servedOutside.deviceStores (sectorRuns (((List.range data.length).map (pa + ·)).zip data))) := by
  simp only [execDeviceDma, hb, hf, hw]
  rfl

theorem execDeviceDma_nowhere {pa n : Nat} (hb : s.booted = true) (hf : s.paFault pa n = some (.noMemory pa)) :
    execDeviceDma (.read pa n) s = .fault (.noMemory pa) := by
  simp only [execDeviceDma, hb, hf]
  rfl

end

/-- Settles O59: each request of the network by what the receive engine makes of it, a device's accesses where no line or bank keeps them
waiting, management, and boot. -/
theorem portEvents : Obligations.PortEvents := by
  unfold Obligations.PortEvents
  intro s p a q
  refine ⟨execRdmaWrite_drop, execRdmaWrite_again, fun pas hop hsee hpas => ⟨fun hw => ?_, fun hw => ?_⟩, fun pas hop hsee hpas hr => ?_,
    fun pas hop hsee hpas hr hw => execRdmaRead_expected hop hsee hpas hr hw, execRdmaRead_refused, execRdmaRead_drop, execRdmaRead_wrong,
    fun pa rest hop hsee hpas hw => ⟨?_, fun hz hd h8 h12 hapart => ?_⟩, execInvalidRequest_refused,
    fun invalid hz hd => ⟨State.nakPacket_mem invalid hz hd, State.nakPacket_out invalid⟩, fun d hb => execDeviceDma_unbooted d hb,
    fun pa n hb hf hr hend => ?_, fun pa data hb hf hw => execDeviceDma_write hb hf hw, fun pa n hb hf => execDeviceDma_nowhere hb hf,
    fun die => ⟨_, _, _, rfl, rfl, rfl⟩, fun f => rfl, rfl, execPowerOnBoot_boots s⟩
  · exact (execRdmaWrite_expected hop hsee hpas).trans (if_neg (ne_true_of_eq_false hw))
  · obtain ⟨hmem, hout, hagenda⟩ := s.waitOutside_waits (.packet p) [] ([a + 8, a + 12] ++ pas)
    exact ⟨_, (execRdmaWrite_expected hop hsee hpas).trans (if_pos hw), hmem, hout, hagenda⟩
  · exact ⟨_, execRdmaRead_again hop hsee hpas hr, rfl, rfl⟩
  · exact ⟨_, execAtomicFetchAdd_expected hop hsee hpas hw, _, rfl⟩
  · exact ⟨_, execAtomicFetchAdd_expected hop hsee hpas hw, State.fetchAdded_reads hz hd h8 h12 hapart rfl⟩
  · obtain ⟨hmem, hout⟩ := s.hostReads_keeps pa n
    exact ⟨_, execDeviceDma_read hb hf hr, hmem, congrArg (List.cons _) hout⟩

end Sys2Proof.Machine
end

section
/-! SUPPORT. What every step keeps of the groups' shape, and the operations that leave the groups (R14 to R18, R411). -/

namespace Sys2Proof.Machine

open Sys2Proof.Claim

/-! What every step keeps of the groups (R14, R16 to R18, R411): their names are distinct and below the next key, and each group that
is watched (of the names of W) has its shape while the register cache holds it. -/

/-- While the register cache holds it, the group has the shape of R411: an image in memory is system software's to keep (R25, R26). -/
def Shaped (x : Grp) : Prop := x.cached = true → Paired x

/-- The names that are watched, each below a key. -/
structure Watch where
  names : Nat → Prop
  key : Nat
  lt : ∀ v, names v → v < key

/-- Distinct names below n, which has reached the key of W, and shape for the groups of W. -/
structure FineOn (W : Watch) (gs : List Grp) (n : Nat) : Prop where
  distinct : (gs.map (·.uid)).Nodup
  below : ∀ x ∈ gs, x.uid < n
  early : W.key ≤ n
  shaped : ∀ x ∈ gs, W.names x.uid → Shaped x

/-- What every step keeps: of the state's groups, beside its next key. -/
def Fine (W : Watch) (s : State) : Prop := FineOn W s.groups s.fresh

@[simp] theorem fineOn_iff {W : Watch} {s : State} : FineOn W s.groups s.fresh ↔ Fine W s := Iff.rfl

/-- What is fine is a matter of the groups and the next key alone. -/
@[simp] theorem fine_mk {W : Watch} (clk agenda iss stowed groups gangs launches tombs cores dies parts mem pois dirty lines mts
    copies reqs cpys engs ecmds status fences stalls lineWaits plists bcmds banks waves pkts recs replies hlogs harts flash conf booted
    hostLines out turn evs evTurn evLast fresh free) :
    Fine W (State.mk clk agenda iss stowed groups gangs launches tombs cores dies parts mem pois dirty lines mts copies reqs cpys engs
          ecmds status fences stalls lineWaits plists bcmds banks waves pkts recs replies hlogs harts flash conf booted hostLines out turn evs
          evTurn evLast fresh free) ↔
      FineOn W groups fresh := Iff.rfl

theorem shaped_of_uncached {x : Grp} (h : x.cached = false) : Shaped x := fun c => absurd (h.symm.trans c) nofun

/-- A change of a group that keeps its name and, if it has it, its shape. -/
def Keeps (f : Grp → Grp) : Prop := ∀ x, (f x).uid = x.uid ∧ (Shaped x → Shaped (f x))

theorem Keeps.uid {f : Grp → Grp} (h : Keeps f) (x : Grp) : (f x).uid = x.uid := (h x).1

theorem Keeps.shaped {f : Grp → Grp} (h : Keeps f) {x : Grp} (hx : Shaped x) : Shaped (f x) := (h x).2 hx

/-- A change that leaves the place of the image and keeps the shape. -/
theorem Keeps.of_paired {f : Grp → Grp} (hu : ∀ x, (f x).uid = x.uid) (hc : ∀ x, (f x).cached = x.cached)
    (hp : ∀ x, Paired x → Paired (f x)) : Keeps f :=
  fun x => ⟨hu x, fun hx h => hp x (hx ((hc x).symm.trans h))⟩

/-- A change that takes the image out of the register cache. -/
theorem Keeps.of_uncached {f : Grp → Grp} (hu : ∀ x, (f x).uid = x.uid) (hc : ∀ x, (f x).cached = false) : Keeps f :=
  fun x => ⟨hu x, fun _ => shaped_of_uncached (hc x)⟩

theorem Keeps.comp {f h : Grp → Grp} (hf : Keeps f) (hh : Keeps h) : Keeps fun x => f (h x) :=
  fun x => ⟨(hf.uid _).trans (hh.uid x), fun hx => hf.shaped (hh.shaped hx)⟩

theorem Keeps.ite {c : Grp → Prop} [DecidablePred c] {f h : Grp → Grp} (hf : Keeps f) (hh : Keeps h) :
    Keeps fun x => if c x then f x else h x := by
  intro x
  dsimp only
  split
  · exact hf x
  · exact hh x

/-- A change of the groups, each to one of the same name that has its shape if it had it. -/
theorem FineOn.forall₂ {W : Watch} {gs hs : List Grp} {n : Nat} (h : FineOn W gs n)
    (hr : List.Forall₂ (fun x y => y.uid = x.uid ∧ (W.names x.uid → Shaped x → Shaped y)) gs hs) : FineOn W hs n := by
  have hu : hs.map (·.uid) = gs.map (·.uid) := by
    clear h
    induction hr with
    | nil => rfl
    | cons hxy _ ih => simp [hxy.1, ih]
  refine ⟨hu ▸ h.distinct, fun y hy => ?_, h.early, fun y hy hw => ?_⟩
  · obtain ⟨x, hx, he⟩ := List.mem_map.1 (hu ▸ List.mem_map_of_mem (f := Grp.uid) hy)
    exact he ▸ h.below x hx
  · obtain ⟨x, hx, hxu, hs⟩ := forall₂_mem_right hr hy
    exact hs (hxu ▸ hw) (h.shaped x hx (hxu ▸ hw))

/-- The outcome of a step from groups in order has its groups in order. -/
theorem FineOn.later {W : Watch} {gs : List Grp} {n m : Nat} (h : FineOn W gs n) (hm : n ≤ m) : FineOn W gs m :=
  ⟨h.distinct, fun x hx => Nat.lt_of_lt_of_le (h.below x hx) hm, h.early.trans hm, h.shaped⟩

theorem FineOn.map {W : Watch} {gs : List Grp} {n : Nat} {f : Grp → Grp} (h : FineOn W gs n)
    (hf : ∀ x ∈ gs, (f x).uid = x.uid ∧ (W.names x.uid → Shaped x → Shaped (f x))) : FineOn W (gs.map f) n :=
  h.forall₂ (List.forall₂_map_right_iff.2 (List.forall₂_same.2 hf))

theorem FineOn.updAll {W : Watch} {gs : List Grp} {n : Nat} {p : Grp → Bool} {f : Grp → Grp} (h : FineOn W gs n) (hf : Keeps f) :
    FineOn W (updAll p f gs) n := by
  refine h.map fun x _ => ?_
  split
  · exact ⟨hf.uid x, fun _ => hf.shaped⟩
  · exact ⟨rfl, fun _ => id⟩

theorem FineOn.updFirst {W : Watch} {gs : List Grp} {n : Nat} {p : Grp → Bool} {f : Grp → Grp} (h : FineOn W gs n)
    (hf : ∀ x, gs.find? p = some x → (f x).uid = x.uid ∧ (W.names x.uid → Shaped x → Shaped (f x))) : FineOn W (updFirst p f gs) n :=
  h.forall₂ (forall₂_updFirst gs (fun _ => ⟨rfl, fun _ => id⟩) hf)

/-- A group with the same name, place of the image, stack, and fragments in the same slots with the same joins. -/
structure Alike (x y : Grp) : Prop where
  uid : y.uid = x.uid
  cached : y.cached = x.cached
  stack : y.stack = x.stack
  join0 : y.slot0.join = x.slot0.join
  join1 : y.slot1.join = x.slot1.join
  empty0 : y.slot0.st = .empty ↔ x.slot0.st = .empty
  empty1 : y.slot1.st = .empty ↔ x.slot1.st = .empty

theorem Alike.shaped {x y : Grp} (h : Alike x y) : Shaped y ↔ Shaped x := by
  simp only [Shaped, Paired, ne_eq, h.cached, h.join0, h.join1, h.empty0, h.empty1, h.stack]

@[simp] theorem alike_iff {x y : Grp} : Alike x y ↔ y.uid = x.uid ∧ y.cached = x.cached ∧ y.stack = x.stack ∧
    y.slot0.join = x.slot0.join ∧ y.slot1.join = x.slot1.join ∧ (y.slot0.st = .empty ↔ x.slot0.st = .empty) ∧
    (y.slot1.st = .empty ↔ x.slot1.st = .empty) :=
  ⟨fun ⟨a, b, c, d, e, f, g⟩ => ⟨a, b, c, d, e, f, g⟩, fun ⟨a, b, c, d, e, f, g⟩ => ⟨a, b, c, d, e, f, g⟩⟩

theorem alike_refl (x : Grp) : Alike x x := by simp

@[simp] theorem alike_ite {c : Prop} [Decidable c] {x y z : Grp} : Alike x (if c then y else z) ↔ (c → Alike x y) ∧ (¬c → Alike x z) := by
  split <;> simp only [*, true_imp_iff, not_true, not_false_iff, false_imp_iff, true_and, and_true]

theorem fineOn_alike {W : Watch} {gs hs : List Grp} {n : Nat} (hr : List.Forall₂ Alike gs hs) : FineOn W hs n ↔ FineOn W gs n := by
  refine ⟨fun h => h.forall₂ (hr.flip.imp fun y x a => ?_), fun h => h.forall₂ (hr.imp fun x y a => ?_)⟩
  · exact ⟨a.uid.symm, fun _ => a.shaped.1⟩
  · exact ⟨a.uid, fun _ => a.shaped.2⟩

section
variable {W : Watch} {s : State}

/-- A change of one group that leaves its fragments, its stack, its name and the place of its image. -/
@[simp] theorem fine_updGrp {v : Nat} {f : Grp → Grp} (h : ∀ x, Alike x (f x)) : Fine W (s.updGrp v f) ↔ Fine W s :=
  fineOn_alike (forall₂_updFirst s.groups alike_refl fun x _ => h x)

@[simp] theorem fineOn_map_alike {f : Grp → Grp} (h : ∀ x, Alike x (f x)) {gs : List Grp} {n : Nat} :
    FineOn W (gs.map f) n ↔ FineOn W gs n :=
  fineOn_alike (List.forall₂_map_right_iff.2 (List.forall₂_same.2 fun x _ => h x))

@[simp] theorem fineOn_updAll_alike {p : Grp → Bool} {f : Grp → Grp} (h : ∀ x, Alike x (f x)) {gs : List Grp} {n : Nat} :
    FineOn W (updAll p f gs) n ↔ FineOn W gs n := by
  refine fineOn_map_alike fun x => ?_
  split
  · exact h x
  · exact alike_refl x

theorem Fine.of_eq {t : State} (h : Fine W s) (hg : t.groups = s.groups) (hf : t.fresh = s.fresh) : Fine W t := by
  unfold Fine
  rw [hg, hf]
  exact h

theorem Fine.later {t : State} (h : Fine W s) (hg : t.groups = s.groups) (hf : s.fresh ≤ t.fresh) : Fine W t := by
  unfold Fine
  rw [hg]
  exact FineOn.later h hf

theorem Fine.updGrp_where {v : Nat} {f : Grp → Grp} (h : Fine W s)
    (hf : ∀ x, s.grp v = some x → (f x).uid = x.uid ∧ (W.names x.uid → Shaped x → Shaped (f x))) : Fine W (s.updGrp v f) :=
  FineOn.updFirst h hf

theorem Fine.updGrp {v : Nat} {f : Grp → Grp} (h : Fine W s) (hf : Keeps f) : Fine W (s.updGrp v f) :=
  h.updGrp_where fun x _ => ⟨hf.uid x, fun _ => hf.shaped⟩

theorem Fine.updGrps {f : Grp → Grp} (h : Fine W s) (hf : Keeps f) : Fine W { s with groups := s.groups.map f } :=
  FineOn.map h fun x _ => ⟨hf.uid x, fun _ => hf.shaped⟩

/-- A group that has a watched name has its shape. -/
theorem Fine.grp {v : Nat} {x : Grp} (h : Fine W s) (hx : s.grp v = some x) (hw : W.names v) : Shaped x :=
  FineOn.shaped h x (List.mem_of_find?_eq_some hx) (grp_uid hx ▸ hw)

/-- The names of W but those of a list. -/
def Watch.without (W : Watch) (us : List Nat) : Watch := ⟨fun v => W.names v ∧ v ∉ us, W.key, fun v hv => W.lt v hv.1⟩

theorem Fine.without (h : Fine W s) (us : List Nat) : Fine (W.without us) s :=
  ⟨h.distinct, h.below, h.early, fun x hx hw => h.shaped x hx hw.1⟩

/-- Groups left out of the watch for a while are watched again once their images are in memory. -/
theorem Fine.of_without {us : List Nat} (h : Fine (W.without us) s) (hu : ∀ x ∈ s.groups, x.uid ∈ us → x.cached = false) : Fine W s := by
  refine ⟨h.distinct, h.below, h.early, fun x hx hw => ?_⟩
  by_cases hm : x.uid ∈ us
  · exact shaped_of_uncached (hu x hx hm)
  · exact FineOn.shaped h x hx ⟨hw, hm⟩

@[simp] theorem fine_ite {c : Prop} [Decidable c] {t : State} :
    Fine W (if c then s else t) ↔ (c → Fine W s) ∧ (¬c → Fine W t) := by
  split <;> simp [*]

@[simp] theorem imp_either {b : Bool} {p : Prop} : (b = true → p) ∧ (b = false → p) ↔ p := by
  cases b <;> simp

theorem foldl_fine {α : Type} {f : State → α → State} (h : ∀ s x, Fine W s → Fine W (f s x)) (hs : Fine W s) (xs : List α) :
    Fine W (xs.foldl f s) := by
  induction xs generalizing s with
  | nil => exact hs
  | cons x r ih => exact ih (h s x hs)

theorem foldlM_fine {α β : Type} {f : State → α → Except β State} {t : State} (h : ∀ s x t, Fine W s → f s x = .ok t → Fine W t)
    {xs : List α} (hs : Fine W s) (e : xs.foldlM f s = .ok t) : Fine W t := by
  induction xs generalizing s with
  | nil => cases e; exact hs
  | cons x r ih =>
    simp only [List.foldlM_cons, bind, Except.bind] at e
    split at e
    · cases e
    · next y hy => exact ih (h s x y hs hy) e

theorem foldl_fine_mem {α : Type} {f : State → α → State} {xs : List α} (h : ∀ s, ∀ x ∈ xs, Fine W s → Fine W (f s x))
    (hs : Fine W s) : Fine W (xs.foldl f s) := by
  induction xs generalizing s with
  | nil => exact hs
  | cons x r ih => exact ih (fun s y hy => h s y (List.mem_cons_of_mem x hy)) (h s x List.mem_cons_self hs)

@[simp] theorem foldl_fine_iff {α : Type} {f : State → α → State} (h : ∀ s x, Fine W (f s x) ↔ Fine W s) (xs : List α) :
    Fine W (xs.foldl f s) ↔ Fine W s := by
  induction xs generalizing s with
  | nil => rfl
  | cons x r ih => exact ih.trans (h s x)

end

/-- A write performed at a word a fragment watches leaves the fragment where it is. -/
@[simp] theorem Slot.touched_join (x : Slot) (hit : Slot → Bool) : (x.touched hit).join = x.join := by
  unfold Slot.touched
  split <;> rfl

@[simp] theorem Slot.touched_st (x : Slot) (hit : Slot → Bool) : (x.touched hit).st = x.st := by
  unfold Slot.touched
  split <;> rfl

/-- A group's program time raised. -/
theorem alike_raise (x : Grp) (t : Nat) : Alike x (x.raise t) := ⟨rfl, rfl, rfl, rfl, rfl, .rfl, .rfl⟩

/-! Changes of a group that keep its shape. -/

theorem keeps_of_alike {f : Grp → Grp} (h : ∀ x, Alike x (f x)) : Keeps f := fun x => ⟨(h x).uid, (h x).shaped.2⟩

/-- A change of the fragments alone that keeps the shape of every group. -/
theorem Keeps.of_onlyFrags {f : Grp → Grp} (h : ∀ x, Grp.OnlyFrags x (f x)) (hp : ∀ x, Paired x → Paired (f x)) : Keeps f :=
  .of_paired (fun x => (h x).uid) (fun x => (h x).cached) hp

/-- A change of the fragment in a slot that leaves its join and empties no slot. -/
theorem keeps_updSlot {i : Bool} {h : Grp → Slot → Slot} (hj : ∀ x y, (h x y).join = y.join)
    (he : ∀ x y, (h x y).st = .empty → y.st = .empty) : Keeps fun x => x.updSlot i (h x) :=
  .of_onlyFrags (fun x => Grp.updSlot_onlyFrags x i _) fun x hx => Grp.updSlot_paired hx (hj x _) (he x _)

theorem keeps_boundary (i : Bool) : Keeps fun x => x.boundary i :=
  .of_onlyFrags (fun x => Grp.boundary_onlyFrags x i) fun _ => Grp.boundary_paired

theorem Grp.endSlot_onlyFrags (g : Grp) (i : Bool) : Grp.OnlyFrags g (g.endSlot i) := by
  simp only [Grp.endSlot]
  split
  · exact Grp.setSlot_onlyFrags ..
  · exact (Grp.setSlot_onlyFrags ..).trans (Grp.noPartner_onlyFrags ..)

theorem keeps_endSlot (i : Bool) : Keeps fun x => x.endSlot i :=
  .of_onlyFrags (fun x => Grp.endSlot_onlyFrags x i) fun _ => Grp.endSlot_paired

/-- A change of the fragment in a slot, and the boundary it is at then. -/
theorem keeps_arrive {i : Bool} {h : Grp → Slot → Slot} (hj : ∀ x y, (h x y).join = y.join)
    (he : ∀ x y, (h x y).st = .empty → y.st = .empty) : Keeps fun x => (x.updSlot i (h x)).boundary i :=
  (keeps_boundary i).comp (keeps_updSlot hj he)

/-- A change of every fragment, in the slots and on the stack. -/
theorem keeps_mapFrags {h : Slot → Slot} (hj : ∀ y, (h y).join = y.join) (he : ∀ y, (h y).st = .empty → y.st = .empty) :
    Keeps fun x => { x with slot0 := h x.slot0, slot1 := h x.slot1, stack := x.stack.map h } :=
  .of_onlyFrags (fun _ => rfl) fun _ hx => Grp.mapFrags_paired hx hj he

/-- A group whose fragments are those of one in shape, each changed. -/
theorem Paired.of_map {x y : Grp} {h : Slot → Slot} (hx : Paired x) (hj : ∀ z, (h z).join = z.join)
    (he : ∀ z, (h z).st = .empty → z.st = .empty) (h0 : y.slot0 = h x.slot0) (h1 : y.slot1 = h x.slot1)
    (hs : y.stack = x.stack.map h) : Paired y := by
  have := Grp.mapFrags_paired hx hj he
  simpa only [Paired, h0, h1, hs] using this

theorem keeps_updFrag {m : Word} {h : Slot → Slot} (hj : ∀ y, (h y).join = y.join) (he : ∀ y, (h y).st = .empty → y.st = .empty) :
    Keeps fun x => x.updFrag m h :=
  .of_onlyFrags (fun _ => rfl) fun _ hx => Grp.updFrag_paired hx hj he

/-- A change of the trapped fragments of the stack. -/
theorem keeps_updDeep {h : Grp → Slot → Slot} (he : ∀ x y, (h x y).st = .empty → y.st = .empty) : Keeps fun x => x.updDeep (h x) := by
  refine .of_onlyFrags (fun _ => rfl) fun x ⟨a, b, c, d, e⟩ => ⟨a, fun h0 => ?_, fun h1 => ?_, fun y hy => ?_, ?_⟩
  · exact ⟨List.map_eq_nil_iff.2 (b h0).1, (b h0).2⟩
  · exact ⟨List.map_eq_nil_iff.2 (c h1).1, (c h1).2⟩
  · obtain ⟨z, hz, rfl⟩ := List.mem_map.1 hy
    split
    · exact fun hn => d z hz (he x z hn)
    · exact d z hz
  · exact (List.length_map ..).symm ▸ e

/-- The entry of a handler (R308). -/
theorem keeps_enterHandler (i : Bool) : Keeps fun x => x.enterHandler i :=
  Keeps.comp (f := fun x => x.updSlot i fun y =>
      { y with handler := true, pc := x.book.handler, mode := Config.modeReset, st := .ready, hold := .none })
    (h := fun x => { x with savedMode := (x.slot i).mode })
    (keeps_updSlot (h := fun x y => { y with handler := true, pc := x.book.handler, mode := Config.modeReset, st := .ready, hold := .none })
      (fun _ _ => rfl) fun _ _ h => absurd h nofun)
    (keeps_of_alike fun x => by simp)

/-! What moves images in and out of the register cache keeps the groups fine (R26, R27). -/

section
variable {W : Watch} {s : State}

theorem Fine.onlyMem {t : State} (h : Fine W s) (ht : State.OnlyMem s t) : Fine W t :=
  h.of_eq ht.groups (by rw [ht])

@[simp] theorem State.writePa_fine (s : State) (pa : Nat) (bs : List Byte) : Fine W (s.writePa pa bs) ↔ Fine W s := by
  unfold State.writePa
  split <;> simp

@[simp] theorem State.writeLines_fine (s : State) (core part va : Nat) (bs : List Byte) : Fine W (s.writeLines core part va bs) ↔ Fine W s := by
  unfold State.writeLines
  refine foldl_fine_iff (fun s x => ?_) _
  split <;> simp

@[simp] theorem State.writeImage_fine (s : State) (g : Grp) : Fine W (s.writeImage g) ↔ Fine W s := by
  unfold State.writeImage
  dsimp only
  split <;> simp

/-- A group whose image leaves the register cache is no longer held to its shape. -/
theorem keeps_uncached : Keeps fun x => { x with cached := false } := .of_uncached (fun _ => rfl) fun _ => rfl

theorem Fine.saveImage (h : Fine W s) (v : Nat) : Fine W (s.saveImage v) := by
  unfold State.saveImage
  split
  · split
    · exact Fine.updGrp (by simpa using h) keeps_uncached
    · exact h
  · exact h

theorem Fine.pushLines (h : Fine W s) (v core n : Nat) : Fine W (s.pushLines v core n) := by
  induction n generalizing s with
  | zero => exact h
  | succ n ih =>
    unfold State.pushLines
    dsimp only
    split
    · exact h
    · split
      · exact h
      · exact ih (h.saveImage _)

theorem readImage_cached (s : State) (g : Grp) (core : Nat) : (s.readImage g core).cached = g.cached := rfl

/-- An image fetched into the register cache may hold anything: the group is not watched, or its image is there already. -/
theorem Fine.fetchImage (h : Fine W s) {v : Nat} (hv : W.names v → ∀ x, s.grp v = some x → x.cached = true) : Fine W (s.fetchImage v) := by
  unfold State.fetchImage
  split
  · next g hg =>
    split
    · exact h
    · next hc =>
      refine h.updGrp_where fun x hx => ?_
      obtain rfl := Option.some.inj (hg.symm.trans hx)
      exact ⟨rfl, fun hw => absurd (hv (grp_uid hg ▸ hw) g hg) hc⟩
  · exact h

theorem Fine.useImage (h : Fine W s) {v : Nat} (hv : W.names v → ∀ x, s.grp v = some x → x.cached = true) : Fine W (s.useImage v) := by
  unfold State.useImage
  split
  · exact h
  · exact ((h.fetchImage hv).updGrp (keeps_of_alike fun x => by simp)).pushLines ..

/-- A change that reaches a group's image wherever that is. -/
theorem Fine.updImage (h : Fine W s) {v : Nat} {f : Grp → Grp} (hf : Keeps f) : Fine W (s.updImage v f) := by
  unfold State.updImage
  split
  · exact h
  · next g hg =>
    split
    · exact h.updGrp hf
    · next hc =>
      dsimp only
      rw [State.writeImage_fine]
      refine h.updGrp_where fun x hx => ?_
      obtain rfl := Option.some.inj (hg.symm.trans hx)
      exact ⟨hf.uid _, fun _ _ => hf.shaped (shaped_of_uncached (by simpa [readImage_cached] using hc))⟩

end

/-! The operations that leave every group's name, image place and fragments as they are. -/

section
variable {W : Watch}

@[simp] theorem State.setCore_fine (s : State) (c : Nat) (x : CoreState) : Fine W (s.setCore c x) ↔ Fine W s := Iff.rfl

@[simp] theorem State.updCore_fine (s : State) (c : Nat) (f : CoreState → CoreState) : Fine W (s.updCore c f) ↔ Fine W s := Iff.rfl

@[simp] theorem State.setDie_fine (s : State) (d : Nat) (x : DieState) : Fine W (s.setDie d x) ↔ Fine W s := Iff.rfl

@[simp] theorem State.updDie_fine (s : State) (d : Nat) (f : DieState → DieState) : Fine W (s.updDie d f) ↔ Fine W s := Iff.rfl

@[simp] theorem State.setPart_fine (s : State) (p : Nat) (x : PartState) : Fine W (s.setPart p x) ↔ Fine W s := Iff.rfl

@[simp] theorem State.updPart_fine (s : State) (p : Nat) (f : PartState → PartState) : Fine W (s.updPart p f) ↔ Fine W s := Iff.rfl

@[simp] theorem State.updGang_fine (s : State) (k : Nat) (f : Gang → Gang) : Fine W (s.updGang k f) ↔ Fine W s := Iff.rfl

@[simp] theorem State.updLaunch_fine (s : State) (k : Nat) (f : Launch → Launch) : Fine W (s.updLaunch k f) ↔ Fine W s := Iff.rfl

@[simp] theorem State.updTomb_fine (s : State) (p k : Nat) (f : Tombstone → Tombstone) : Fine W (s.updTomb p k f) ↔ Fine W s := Iff.rfl

@[simp] theorem State.send_fine (s : State) (o : Output) : Fine W (s.send o) ↔ Fine W s := Iff.rfl

@[simp] theorem State.setScratch_fine (s : State) (k c : Nat) (m : Memory) : Fine W (s.setScratch k c m) ↔ Fine W s := Iff.rfl

@[simp] theorem State.noteDirty_fine (s : State) (pa n p : Nat) : Fine W (s.noteDirty pa n p) ↔ Fine W s := Iff.rfl

@[simp] theorem State.ackSide_fine (s : State) (p k : Nat) (o : BitVec 8) (n : Nat) : Fine W (s.ackSide p k o n) ↔ Fine W s := Iff.rfl

@[simp] theorem State.addSide_fine (s : State) (p k : Nat) (o : BitVec 8) (pc : Word) (n : Nat) : Fine W (s.addSide p k o pc n) ↔ Fine W s
    := Iff.rfl

@[simp] theorem State.evictLine_fine (s : State) (line : Nat) : Fine W (s.evictLine line) ↔ Fine W s := by
  unfold State.evictLine
  split <;> simp

@[simp] theorem State.setLine_fine (s : State) (pa : Nat) (t : LineTimes) : Fine W (s.setLine pa t) ↔ Fine W s := by
  unfold State.setLine
  dsimp only
  repeat' split
  all_goals simp

@[simp] theorem State.fireWatches_fine (s : State) (t : Target) (n : Nat) : Fine W (s.fireWatches t n) ↔ Fine W s := by
  unfold State.fireWatches
  simp

@[simp] theorem State.putCopy_fine (s : State) (c : Copy) : Fine W (s.putCopy c) ↔ Fine W s := Iff.rfl

@[simp] theorem State.dropCopies_fine (s : State) (pa : Nat) : Fine W (s.dropCopies pa) ↔ Fine W s := Iff.rfl

@[simp] theorem State.refreshCopies_fine (s : State) (core pa t : Nat) : Fine W (s.refreshCopies core pa t) ↔ Fine W s := Iff.rfl

@[simp] theorem State.await_fine (s : State) (w : LineWait) : Fine W (s.await w) ↔ Fine W s := by
  unfold State.await
  simp

@[simp] theorem State.unawait_fine (s : State) (p : LineWait → Bool) : Fine W (s.unawait p) ↔ Fine W s := Iff.rfl

@[simp] theorem State.writeTarget_fine (s : State) (t : Target) (bs : List Byte) : Fine W (s.writeTarget t bs) ↔ Fine W s := by
  unfold State.writeTarget
  split <;> simp

@[simp] theorem State.poisonTarget_fine (s : State) (t : Target) : Fine W (s.poisonTarget t) ↔ Fine W s := by
  unfold State.poisonTarget
  split <;> simp

@[simp] theorem State.noteTime_fine (s : State) (part : Nat) (t : Nat) : Fine W (s.noteTime part t) ↔ Fine W s := by
  unfold State.noteTime
  split <;> simp

@[simp] theorem State.homeLoad_fine (s : State) (pa : Nat) (part : Nat) (pts : Nat) : Fine W (s.homeLoad pa part pts).2 ↔ Fine W s := by
  unfold State.homeLoad
  simp

@[simp] theorem State.stampLine_fine (s : State) (pa : Nat) (part : Nat) (t : Nat) : Fine W (s.stampLine pa part t) ↔ Fine W s := by
  unfold State.stampLine
  simp

@[simp] theorem State.markEarly_fine (s : State) (core : Nat) (pa : Nat) (part : Nat) : Fine W (s.markEarly core pa part) ↔ Fine W s := by
  unfold State.markEarly
  simp

@[simp] theorem State.backInvalidate_fine (s : State) (pa : Nat) (part : Nat) (from_ : Nat) : Fine W (s.backInvalidate pa part from_).2 ↔
    Fine W s := by
  unfold State.backInvalidate
  simp

@[simp] theorem State.noteSectors_fine (s : State) (part : Nat) (pas : List Nat) : Fine W (s.noteSectors part pas) ↔ Fine W s := by
  unfold State.noteSectors
  simp

@[simp] theorem State.homeStore_fine (s : State) (part : Nat) (pts : Nat) (pa : Nat) (bs : List Byte) (bank : Bool) : Fine W (s.homeStore
    part pts pa bs bank).2 ↔ Fine W s := by
  unfold State.homeStore
  simp

@[simp] theorem State.demand_fine (s : State) (pa : Nat) (key : Nat × Nat) (write : Bool) : Fine W (s.demand pa key write) ↔ Fine W s :=
    by
  unfold State.demand
  dsimp only
  repeat' split
  all_goals simp

@[simp] theorem State.served_fine (s : State) (key : Nat × Nat) : Fine W (s.served key) ↔ Fine W s := Iff.rfl

@[simp] theorem State.unwait_fine (s : State) (id : Nat) : Fine W (s.unwait id) ↔ Fine W s := Iff.rfl

@[simp] theorem State.agentStore_fine (s : State) (part pts pa : Nat) (bs : List Byte) (bank : Bool) : Fine W (s.agentStore part pts pa bs
    bank).2 ↔ Fine W s := by
  unfold State.agentStore
  split <;> simp

@[simp] theorem State.serveStall_fine (s : State) : Fine W (s.serveStall) ↔ Fine W s := by
  unfold State.serveStall
  split <;> simp

@[simp] theorem State.homeStores_fine (s : State) (part pts : Nat) (xs : List (Nat × List Byte)) (bank : Nat → Bool) :
    Fine W (s.homeStores part pts xs bank).2 ↔ Fine W s := by
  induction xs generalizing s pts with
  | nil => exact Iff.rfl
  | cons x r ih => exact (ih ..).trans (State.homeStore_fine ..)

@[simp] theorem State.errorRecord_fine (s : State) (part : Nat) (launchId : Nat) (kind : Nat) (group : Nat) (block : Nat) (pc : Nat) (pa :
    Nat) : Fine W (s.errorRecord part launchId kind group block pc pa) ↔ Fine W s := by
  unfold State.errorRecord
  dsimp only
  repeat' split
  all_goals simp

@[simp] theorem State.imprecise_fine (s : State) (kind : ErrKind) (part : Nat) (slot : Nat) (ord : BitVec 8) (pa : Nat) : Fine W
    (s.imprecise kind part slot ord pa) ↔ Fine W s := by
  unfold State.imprecise
  dsimp only
  repeat' split
  all_goals simp

@[simp] theorem State.bareError_fine (s : State) (kind : ErrKind) (part : Nat) (slot : Nat) (ord : BitVec 8) : Fine W (s.bareError kind
    part slot ord) ↔ Fine W s := by
  unfold State.bareError
  split <;> simp

@[simp] theorem State.fillTlb_fine (s : State) (core : Nat) (ps : List PtrEntry) (e : TlbEntry) : Fine W (s.fillTlb core ps e) ↔ Fine W s
    := Iff.rfl

@[simp] theorem State.touchTlb_fine (s : State) (core part : Nat) (vas : List Nat) :
    Fine W (s.touchTlb core part vas) ↔ Fine W s := by
  refine foldl_fine_iff (fun s x => ?_) vas
  split <;> simp

@[simp] theorem State.writeGangImage_fine (s : State) (k : Gang) (core : Nat) : Fine W (s.writeGangImage k core) ↔ Fine W s := by
  unfold State.writeGangImage
  split <;> simp

@[simp] theorem State.readGangImage_fine (s : State) (k : Gang) (core : Nat) : Fine W (s.readGangImage k core) ↔ Fine W s := by
  unfold State.readGangImage
  split <;> simp

@[simp] theorem State.wcWrite_fine (s : State) (e : WcEntry) (part : Nat) : Fine W (s.wcWrite e part) ↔ Fine W s := by
  simp [State.wcWrite]

@[simp] theorem State.wcLeave_fine (s : State) (core : Nat) (e : WcEntry) : Fine W (s.wcLeave core e) ↔ Fine W s := by
  unfold State.wcLeave
  dsimp only
  repeat' split
  all_goals simp

@[simp] theorem State.wcFlush_fine (s : State) (core : Nat) (p : WcEntry → Bool) : Fine W (s.wcFlush core p) ↔ Fine W s := by
  unfold State.wcFlush
  simp

@[simp] theorem State.wcFlushGroup_fine (s : State) (u : Nat) (core : Nat) : Fine W (s.wcFlushGroup u core) ↔ Fine W s := by
  unfold State.wcFlushGroup
  simp

@[simp] theorem State.dropCmds_fine (s : State) (ids : List Nat) : Fine W (s.dropCmds ids) ↔ Fine W s := Iff.rfl

@[simp] theorem State.setEng_fine (s : State) (e : EngBlock) : Fine W (s.setEng e) ↔ Fine W s := Iff.rfl

@[simp] theorem State.dropEngine_fine (s : State) (gang coreIdx : Nat) (preempted : Bool) :
    Fine W (s.dropEngine gang coreIdx preempted) ↔ Fine W s := by
  unfold State.dropEngine
  dsimp only
  split <;> simp

@[simp] theorem State.forgive_fine (s : State) (gang : Nat) (coreIdx : Nat) (qs : List Nat) : Fine W (s.forgive gang coreIdx qs) ↔ Fine W
    s := Iff.rfl

@[simp] theorem State.unbindAll_fine (s : State) (g : Grp) : Fine W (s.unbindAll g) ↔ Fine W s := by
  unfold State.unbindAll
  dsimp only
  repeat' split
  all_goals simp

@[simp] theorem State.unschedule_fine (s : State) (u : Nat) (core : Nat) : Fine W (s.unschedule u core) ↔ Fine W s := Iff.rfl

@[simp] theorem State.afterEnd_fine (s : State) (u : Nat) : Fine W (s.afterEnd u) ↔ Fine W s := by
  unfold State.afterEnd
  dsimp only
  repeat' split
  all_goals simp

@[simp] theorem State.discardHeld_fine (s : State) (u : Nat) : Fine W (s.discardHeld u) ↔ Fine W s := by
  unfold State.discardHeld
  split <;> simp

@[simp] theorem State.staleLists_fine (s : State) (part : Nat) (hit : PageList → Bool) : Fine W (s.staleLists part hit) ↔ Fine W s :=
    Iff.rfl

@[simp] theorem State.dropTlbs_fine (s : State) (part : Nat) (hit : TlbEntry → Bool) (ptr : PtrEntry → Bool) : Fine W (s.dropTlbs part hit
    ptr) ↔ Fine W s := Iff.rfl

@[simp] theorem State.dropShared_fine (s : State) (part : Nat) : Fine W (s.dropShared part) ↔ Fine W s := Iff.rfl

@[simp] theorem State.freeLines_fine (s : State) (w : Wave) : Fine W (s.freeLines w) ↔ Fine W s := by
  refine foldl_fine_iff (fun s x => ?_) _
  exact State.stampLine_fine s ..

@[simp] theorem State.noteWave_fine (s : State) (w : Wave) : Fine W (s.noteWave w) ↔ Fine W s := Iff.rfl

@[simp] theorem State.abortWave_fine (s : State) (w : Wave) : Fine W (s.abortWave w) ↔ Fine W s := by
  unfold State.abortWave
  simp

@[simp] theorem State.stopBank_fine (s : State) (c : BankCmd) : Fine W (s.stopBank c) ↔ Fine W s := by
  unfold State.stopBank
  simp

@[simp] theorem State.cancelWork_fine (s : State) (part : Nat) : Fine W (s.cancelWork part) ↔ Fine W s := by
  unfold State.cancelWork
  simp

@[simp] theorem State.schedule_fine (s : State) (u : Nat) (core : Nat) : Fine W (s.schedule u core) ↔ Fine W s := Iff.rfl

@[simp] theorem State.makeResident_fine (s : State) (u : Nat) : Fine W (s.makeResident u) ↔ Fine W s := by
  unfold State.makeResident
  split <;> simp

@[simp] theorem State.leaveResident_fine (s : State) (u : Nat) (core : Nat) : Fine W (s.leaveResident u core) ↔ Fine W s := by
  unfold State.leaveResident
  simp

@[simp] theorem State.leaveCore_fine (s : State) (u : Nat) (core : Nat) : Fine W (s.leaveCore u core) ↔ Fine W s := by
  unfold State.leaveCore
  simp

@[simp] theorem State.raisePts_fine (s : State) (u t : Nat) : Fine W (s.raisePts u t) ↔ Fine W s :=
  fine_updGrp fun x => alike_raise x t

@[simp] theorem State.setHealth_fine (s : State) (d : Nat) (h : Word) : Fine W (s.setHealth d h) ↔ Fine W s := Iff.rfl

@[simp] theorem State.healthEvent_fine (s : State) (d : Nat) (f : Word → Word) : Fine W (s.healthEvent d f) ↔ Fine W s := Iff.rfl

@[simp] theorem State.alarm_fine (s old : State) (part : Option Nat) : Fine W (s.alarm old part) ↔ Fine W s := by
  refine foldl_fine_iff (fun s x => ?_) _
  dsimp only
  split <;> simp

@[simp] theorem State.logMargin_fine (s : State) (core : Nat) (kind : Nat) : Fine W (s.logMargin core kind) ↔ Fine W s := Iff.rfl

@[simp] theorem State.resetSwitch_fine (s : State) (d : Nat) (stage : Nat) (sw : Nat) : Fine W (s.resetSwitch d stage sw) ↔ Fine W s :=
    Iff.rfl

@[simp] theorem State.writeCombtest_fine (s : State) (d : Nat) (x : Word) : Fine W (s.writeCombtest d x) ↔ Fine W s := by
  unfold State.writeCombtest
  simp

@[simp] theorem State.noteRoot_fine (s : State) (core : Nat) : Fine W (s.noteRoot core) ↔ Fine W s := by
  unfold State.noteRoot
  dsimp only
  repeat' split
  all_goals simp

@[simp] theorem State.writeGraphctl_fine (s : State) (part : Nat) (r : Nat) (x : Word) : Fine W (s.writeGraphctl part r x) ↔ Fine W s :=
    by
  unfold State.writeGraphctl
  dsimp only
  repeat' split
  all_goals simp

@[simp] theorem State.clearTeardown_fine (s : State) (part : Nat) : Fine W (s.clearTeardown part) ↔ Fine W s := Iff.rfl

@[simp] theorem State.markLost_fine (s : State) (d : Nat) : Fine W (s.markLost d) ↔ Fine W s := by
  refine (foldl_fine_iff (fun s x => ?_) _).trans (by simp)
  split <;> simp

@[simp] theorem State.agentMark_fine (s : State) (part pts va n : Nat) :
    Fine W (s.agentMark part pts va n).2 ↔ Fine W s := by
  unfold State.agentMark
  generalize List.range _ = ks
  induction ks generalizing s pts with
  | nil => exact Iff.rfl
  | cons k r ih =>
    rw [List.foldl_cons]
    split
    · split
      · exact (ih ..).trans (State.homeLoad_fine ..)
      · exact ih ..
    · exact ih ..

@[simp] theorem State.agentWrite_fine (s : State) (part pts va : Nat) (xs : List Word) :
    Fine W (s.agentWrite part pts va xs).2 ↔ Fine W s := by
  induction xs generalizing s pts va with
  | nil => exact Iff.rfl
  | cons w r ih =>
    unfold State.agentWrite
    refine (ih ..).trans ?_
    split <;> simp

@[simp] theorem State.ringInterrupt_fine (s : State) (part : Nat) (ring : Nat) : Fine W (s.ringInterrupt part ring) ↔ Fine W s := Iff.rfl

@[simp] theorem State.fillCopy_fine (s : State) (c : Copy) : Fine W (s.fillCopy c) ↔ Fine W s := by
  unfold State.fillCopy
  split <;> simp

@[simp] theorem State.sawLine_fine (s : State) (u line w : Nat) : Fine W (s.sawLine u line w) ↔ Fine W s :=
  fine_updGrp fun _ => ⟨rfl, rfl, rfl, rfl, rfl, .rfl, .rfl⟩

@[simp] theorem State.loadHome_fine (s : State) (g : Grp) (pa : Nat) (n : Nat) (reqPts : Nat) (cls : Class) (policy : Policy) (l1 : Bool)
    : Fine W (s.loadHome g pa n reqPts cls policy l1).2.2 ↔ Fine W s := by
  unfold State.loadHome
  dsimp only
  repeat' split
  all_goals simp

@[simp] theorem State.loadHit_fine (s : State) (g : Grp) (c : Copy) (inL1 : Bool) (pa : Nat) (n : Nat) : Fine W (s.loadHit g c inL1 pa
    n).2.2 ↔ Fine W s := by
  unfold State.loadHit
  dsimp only
  repeat' split
  all_goals simp

@[simp] theorem State.loadNow_fine (s : State) (g : Grp) (pa : Nat) (n : Nat) (cls : Class) : Fine W (s.loadNow g pa n cls).2.2 ↔ Fine W s
    := by
  unfold State.loadNow
  split <;> simp

@[simp] theorem State.agentLoads_fine (s : State) (u : Nat) (part : Nat) (ps : List (Nat × Nat × Target)) : Fine W (s.agentLoads u part
    ps) ↔ Fine W s := by
  unfold State.agentLoads
  simp

@[simp] theorem State.raiseFor_fine (s : State) (q : Req) (t : Nat) : Fine W (s.raiseFor q t) ↔ Fine W s := by
  unfold State.raiseFor
  split <;> simp

@[simp] theorem State.beganWait_fine (s : State) (u : Nat) : Fine W (s.beganWait u) ↔ Fine W s := by
  unfold State.beganWait
  dsimp only
  repeat' split
  all_goals simp

@[simp] theorem State.updWave_fine (s : State) (id : Nat) (f : Wave → Wave) : Fine W (s.updWave id f) ↔ Fine W s := Iff.rfl

@[simp] theorem State.updRec_fine (s : State) (w : Wave) (f : WaveRec → WaveRec) : Fine W (s.updRec w f) ↔ Fine W s := Iff.rfl

@[simp] theorem State.updPkt_fine (s : State) (id : Nat) (f : Packet → Packet) : Fine W (s.updPkt id f) ↔ Fine W s := Iff.rfl

@[simp] theorem State.dropPkt_fine (s : State) (id : Nat) : Fine W (s.dropPkt id) ↔ Fine W s := Iff.rfl

@[simp] theorem State.sendPacket_fine (s : State) (h : Hop) (p : Packet) : Fine W (s.sendPacket h p) ↔ Fine W s := Iff.rfl

@[simp] theorem State.deliver_fine (s : State) (c : Constituent) (v : Word) (pois : Bool) : Fine W (s.deliver c v pois) ↔ Fine W s :=
    Iff.rfl

@[simp] theorem State.updQueue_fine (s : State) (gang : Nat) (coreIdx : Nat) (n : Nat) (f : Queue → Queue) : Fine W (s.updQueue gang
    coreIdx n f) ↔ Fine W s := Iff.rfl

@[simp] theorem State.storeScratch_fine (s : State) (accs : List Acc) : Fine W (s.storeScratch accs) ↔ Fine W s := by
  unfold State.storeScratch
  simp

@[simp] theorem State.wcPut_fine (s : State) (g : Grp) (req : Nat) (a : Acc) (n : Nat) : Fine W (s.wcPut g req a n) ↔ Fine W s := by
  unfold State.wcPut
  dsimp only
  repeat' split
  all_goals simp

@[simp] theorem State.atomScratch_fine (s : State) (op : AtomOp) (signed : Bool) (xs : List Acc) :
    Fine W (s.atomScratch op signed xs).2 ↔ Fine W s := by
  induction xs generalizing s with
  | nil => exact Iff.rfl
  | cons a r ih => exact (ih _).trans (by simp)

@[simp] theorem State.prefetchLine_fine (s : State) (g : Grp) (pa : Nat) (cls : Class) (l1 : Bool) : Fine W (s.prefetchLine g pa cls l1) ↔
    Fine W s := by
  unfold State.prefetchLine
  dsimp only
  repeat' split
  all_goals simp

@[simp] theorem State.noteCopied_fine (s : State) (g : Grp) (lines : List Nat) : Fine W (s.noteCopied g lines) ↔ Fine W s := by
  unfold State.noteCopied
  split <;> simp

@[simp] theorem State.askBanks_fine (s : State) (g : Grp) (o : SOp) : Fine W (s.askBanks g o) ↔ Fine W s := by
  unfold State.askBanks
  simp

@[simp] theorem State.servedBanks_fine (s : State) (g : Grp) : Fine W (s.servedBanks g) ↔ Fine W s := Iff.rfl

@[simp] theorem State.updBarrier_fine (s : State) (g : Grp) (gang : Bool) (id : Nat) (phase : Nat) (f : Barrier → Barrier) : Fine W
    (s.updBarrier g gang id phase f) ↔ Fine W s := Iff.rfl

@[simp] theorem State.updECmd_fine (s : State) (id : Nat) (f : ECmd → ECmd) : Fine W (s.updECmd id f) ↔ Fine W s := Iff.rfl

@[simp] theorem State.fill_fine (s : State) (gang : Nat) (coreIdx : Nat) (n : Nat) : Fine W (s.fill gang coreIdx n) ↔ Fine W s := by
  unfold State.fill
  simp

@[simp] theorem State.runStages_fine (s : State) (c : ECmd) : Fine W (s.runStages c) ↔ Fine W s := by
  unfold State.runStages
  simp

@[simp] theorem State.markGranules_fine (s : State) (gang : Nat) (coreIdx : Nat) (first : Nat) (count : Nat) (f : Granule → Granule) :
    Fine W (s.markGranules gang coreIdx first count f) ↔ Fine W s := Iff.rfl

@[simp] theorem State.setPageList_fine (s : State) (p : PageList) : Fine W (s.setPageList p) ↔ Fine W s := Iff.rfl

@[simp] theorem State.doBpage_fine (s : State) (g : Grp) (i : Issue) (o : SOp) : Fine W (s.doBpage g i o) ↔ Fine W s := Iff.rfl

@[simp] theorem State.askCompare_fine (s : State) (g : Grp) : Fine W (s.askCompare g) ↔ Fine W s := by
  unfold State.askCompare
  simp

@[simp] theorem State.startLaunch_fine (s : State) (l : Launch) : Fine W (s.startLaunch l) ↔ Fine W s := Iff.rfl

@[simp] theorem State.finishLaunch_fine (s : State) (l : Launch) (t : Nat) : Fine W (s.finishLaunch l t) ↔ Fine W s := by
  unfold State.finishLaunch
  dsimp only
  repeat' split
  all_goals simp

@[simp] theorem State.countLost_fine (s : State) (part : Nat) : Fine W (s.countLost part) ↔ Fine W s := Iff.rfl

@[simp] theorem State.writeRecord_fine (s : State) (l : Launch) : Fine W (s.writeRecord l).2 ↔ Fine W s := by
  unfold State.writeRecord
  dsimp only
  repeat' split
  all_goals simp

@[simp] theorem State.completeLaunch_fine (s : State) (l : Launch) : Fine W (s.completeLaunch l) ↔ Fine W s := by
  unfold State.completeLaunch
  split <;> simp

@[simp] theorem State.endedWork_fine (s : State) (g : Grp) : Fine W (s.endedWork g) ↔ Fine W s := by
  unfold State.endedWork
  dsimp only
  repeat' split
  all_goals simp

@[simp] theorem State.askTables_fine (s : State) (i : Issue) : Fine W (s.askTables i) ↔ Fine W s := by
  unfold State.askTables
  dsimp only
  repeat' split
  all_goals simp

@[simp] theorem State.servedTables_fine (s : State) (i : Issue) : Fine W (s.servedTables i) ↔ Fine W s := by
  unfold State.servedTables
  simp

@[simp] theorem State.lateWork_fine (s old : State) (i : Issue) : Fine W (s.lateWork old i) ↔ Fine W s := by
  unfold State.lateWork
  simp

@[simp] theorem State.updReq_fine (s : State) (id : Nat) (f : Req → Req) : Fine W (s.updReq id f) ↔ Fine W s := Iff.rfl

@[simp] theorem State.dropReq_fine (s : State) (id : Nat) : Fine W (s.dropReq id) ↔ Fine W s := Iff.rfl

@[simp] theorem State.sendLine_fine (s : State) (core : Nat) (line : Nat) (due : Nat) : Fine W (s.sendLine core line due) ↔ Fine W s :=
    Iff.rfl

@[simp] theorem State.endPrefetch_fine (s : State) (r : Nat) : Fine W (s.endPrefetch r) ↔ Fine W s := by
  unfold State.endPrefetch
  repeat' split
  all_goals simp

@[simp] theorem State.storeSector_fine (s : State) (q : Req) (g : Grp) (accs : List Acc) (sec : Nat) (cls : Class) : Fine W (s.storeSector
    q g accs sec cls) ↔ Fine W s := by
  unfold State.storeSector
  dsimp only
  repeat' split
  all_goals simp

@[simp] theorem State.writeMarked_fine (s : State) (bs : List (Nat × Byte × Bool)) : Fine W (s.writeMarked bs) ↔ Fine W s := by
  unfold State.writeMarked
  simp

@[simp] theorem State.writeMarkedScratch_fine (s : State) (k c : Nat) (bs : List (Nat × Byte × Bool)) :
    Fine W (s.writeMarkedScratch k c bs) ↔ Fine W s := by
  refine (foldl_fine_iff (fun s x => ?_) _).trans (foldl_fine_iff (fun s x => ?_) _)
  · dsimp only
    split
    · simp
    · split <;> simp
  · simp

@[simp] theorem State.endCopy_fine (s : State) (c : CopyCmd) : Fine W (s.endCopy c) ↔ Fine W s := by
  simp [State.endCopy]

@[simp] theorem State.moveCopy_fine (s : State) (c : CopyCmd) : Fine W (s.moveCopy c) ↔ Fine W s := by
  unfold State.moveCopy
  dsimp only
  repeat' split
  all_goals simp

@[simp] theorem State.copyLine_fine (s : State) (c : CopyCmd) (line : Nat) : Fine W (s.copyLine c line) ↔ Fine W s := by
  unfold State.copyLine
  simp

@[simp] theorem State.writeGranules_fine (s : State) (c : ECmd) (f : Nat → Granule) : Fine W (s.writeGranules c f) ↔ Fine W s := Iff.rfl

@[simp] theorem State.advance_fine (s : State) (c : ECmd) : Fine W (s.advance c) ↔ Fine W s := by
  unfold State.advance
  split <;> simp

@[simp] theorem State.bankWorks_fine (s : State) (pa : Nat) : Fine W (s.bankWorks pa) ↔ Fine W s := Iff.rfl

@[simp] theorem State.unitWrite_fine (s : State) (part from_ : Nat) (bs : List (Nat × Byte × Bool)) :
    Fine W (s.unitWrite part from_ bs).2 ↔ Fine W s := by
  have drop (ls : List Nat) (x : Nat × State) : Fine W (ls.foldl (fun x l =>
      ((max x.1 (x.2.backInvalidate (256 * l) part from_).1, (x.2.backInvalidate (256 * l) part from_).2) : Nat × State)) x).2 ↔ Fine W x.2 := by
    induction ls generalizing x with
    | nil => exact Iff.rfl
    | cons l r ih => exact (ih _).trans (State.backInvalidate_fine ..)
  refine (foldl_fine_iff (fun s l => by simp) _).trans ?_
  rw [State.writeMarked_fine]
  exact drop ..

@[simp] theorem State.updBank_fine (s : State) (id : Nat) (f : BankCmd → BankCmd) : Fine W (s.updBank id f) ↔ Fine W s := Iff.rfl

@[simp] theorem State.bankLine_fine (s : State) (c : BankCmd) (line : Nat) : Fine W (s.bankLine c line) ↔ Fine W s := by
  unfold State.bankLine
  dsimp only
  repeat' split
  all_goals simp

@[simp] theorem State.handBack_fine (s : State) (bank : Nat) : Fine W (s.handBack bank) ↔ Fine W s := Iff.rfl

@[simp] theorem State.waveWrite_fine (s : State) (w : Wave) (bs : List (Nat × Byte × Bool)) : Fine W (s.waveWrite w bs) ↔ Fine W s := by
  unfold State.waveWrite
  simp

@[simp] theorem State.noteChange_fine (s : State) (w : Wave) (n : Nat) (pa : Nat) : Fine W (s.noteChange w n pa) ↔ Fine W s := by
  unfold State.noteChange
  dsimp only
  repeat' split
  all_goals simp

@[simp] theorem State.take_fine (s : State) (w : Wave) (n pa : Nat) (v : List Int) (p : Word) :
    Fine W (s.take w n pa v p).1 ↔ Fine W s := by
  unfold State.take
  dsimp only
  repeat' split
  all_goals simp

@[simp] theorem State.flagMalformed_fine (s : State) (w : Wave) (n : Nat) (pa : Nat) : Fine W (s.flagMalformed w n pa) ↔ Fine W s := by
  unfold State.flagMalformed
  split <;> simp

@[simp] theorem State.beginRound_fine (s : State) (w : Wave) (ns : List Nat) : Fine W (s.beginRound w ns) ↔ Fine W s := Iff.rfl

@[simp] theorem State.writeEntry_fine (s : State) (w : Wave) (bs : List (Nat × Byte × Bool)) :
    Fine W (s.writeEntry w bs) ↔ Fine W s := by
  refine foldl_fine_iff (fun s b => ?_) _
  split
  · exact Iff.rfl
  · dsimp only
    split <;> split <;> simp
  · simp

@[simp] theorem State.waitOutside_fine (s : State) (m : Move) (reads writes : List Nat) :
    Fine W (s.waitOutside m reads writes) ↔ Fine W s := by
  have ask (w : Bool) (s : State) (pa : Nat) :
      Fine W (if s.bankHolds pa w then s.demand pa (0, 2 * lineOf pa) w else s) ↔ Fine W s := by split <;> simp
  exact (foldl_fine_iff (ask true) _).trans (foldl_fine_iff (ask false) _)

@[simp] theorem State.servedOutside_fine (s : State) : Fine W (s.servedOutside) ↔ Fine W s := Iff.rfl

@[simp] theorem State.nakPacket_fine (s : State) (p : NetPacket) (a : Nat) (invalid : Bool) : Fine W (s.nakPacket p a invalid) ↔ Fine W s
    := by
  unfold State.nakPacket
  simp

@[simp] theorem State.packetDone_fine (s : State) (p : NetPacket) (a : Nat) (q : QueuePair) (psns : Nat) (msgs : Nat) (t : Nat) : Fine W
    (s.packetDone p a q psns msgs t) ↔ Fine W s := by
  unfold State.packetDone
  simp

@[simp] theorem State.storeRuns_fine (s : State) (part pts : Nat) (bs : List (Nat × Byte)) (bank : Nat → Bool) : Fine W (s.storeRuns part
    pts bs bank).2 ↔ Fine W s := by
  unfold State.storeRuns
  simp

@[simp] theorem State.deviceStores_fine (s : State) (xs : List (Nat × List Byte)) :
    Fine W (s.deviceStores xs) ↔ Fine W s := by
  induction xs generalizing s with
  | nil => exact Iff.rfl
  | cons x r ih => exact (ih _).trans (State.homeStores_fine ..)

@[simp] theorem State.hartLoads_fine (s : State) (part t : Nat) (xs : List Nat) :
    Fine W (s.hartLoads part t xs).2 ↔ Fine W s := by
  induction xs generalizing s t with
  | nil => exact Iff.rfl
  | cons l r ih => exact (ih ..).trans (State.homeLoad_fine ..)

@[simp] theorem State.copyError_fine (s : State) (site : Nat) (line : Nat) (sector : Nat) : Fine W (s.copyError site line sector) ↔ Fine W
    s := Iff.rfl

end

end Sys2Proof.Machine
end

section
/-! SUPPORT. Traps, parks, evictions, system software, words performed and the trailer keep the groups' shape. -/

namespace Sys2Proof.Machine

open Sys2Proof.Claim

/-! Ends of groups, traps and what settles between scenes (R96, R27, R307 to R310, R349, R355). -/

section
variable {W : Watch} {s : State}

/-- A group all of whose fragments end has its shape (R355). -/
theorem keeps_ended : Keeps fun x => { x with slot0 := {}, slot1 := {}, stack := [], fence := none } :=
  fun _ => ⟨rfl, fun _ _ => ⟨fun h => absurd rfl h, fun _ => ⟨rfl, rfl, rfl⟩, fun _ => ⟨rfl, rfl, rfl⟩,
    fun _ hx => absurd hx List.not_mem_nil, Nat.zero_le _⟩⟩

theorem Fine.killGroup (h : Fine W s) (u : Nat) : Fine W (s.killGroup u) :=
  (State.afterEnd_fine ..).2 (((State.discardHeld_fine ..).2 h).updGrp keeps_ended)

theorem Fine.killGang (h : Fine W s) (k : Nat) : Fine W (s.killGang k) := by
  unfold State.killGang
  split
  · exact h
  · refine foldl_fine (fun s u hs => hs.killGroup u) ((foldl_fine_iff (fun s k => State.updGang_fine ..) _).2 ?_) _
    refine Fine.of_eq (s := if _ then { s with iss := {} } else s) ?_ rfl rfl
    simp [h]

theorem Fine.endLaunch (h : Fine W s) (l status fclass : Nat) : Fine W (s.endLaunch l status fclass) :=
  foldl_fine (fun _ k hs => hs.killGang k) (by simpa using h) _

/-- A shootdown spends a key and makes memory waiters read again (R345). -/
theorem Shootdown.wakes_join (d : Shootdown) (x : Slot) : (d.wakes x).join = x.join := by
  unfold Shootdown.wakes
  split <;> rfl

theorem Shootdown.wakes_st (d : Shootdown) (x : Slot) : (d.wakes x).st = x.st := by
  unfold Shootdown.wakes
  split <;> rfl

theorem keeps_wakes (d : Shootdown) :
    Keeps fun x => { x with slot0 := d.wakes x.slot0, slot1 := d.wakes x.slot1, stack := x.stack.map d.wakes } :=
  keeps_mapFrags (Shootdown.wakes_join d) fun y hy => (Shootdown.wakes_st d y).symm.trans hy

theorem Fine.startShootdown (h : Fine W s) (part start len : Nat) (st2 all : Bool) : Fine W (s.startShootdown part start len st2 all) := by
  unfold State.startShootdown
  dsimp only
  rw [State.updPart_fine, fine_mk]
  refine FineOn.later (FineOn.updAll (gs := State.groups _) (n := State.fresh _) ?_ (keeps_wakes _)) (Nat.le_succ _)
  rw [fineOn_iff, State.dropShared_fine, State.staleLists_fine, State.dropTlbs_fine]
  exact h

theorem Fine.doShootdown (h : Fine W s) (part : Nat) (x : Word) : Fine W (s.doShootdown part x) := by
  unfold State.doShootdown
  dsimp only
  split
  · exact h
  · exact (State.updPart_fine ..).2 (h.startShootdown ..)

/-- A fragment whose wait or trap park a teardown ends (R364). -/
def Slot.freed (x : Slot) : Slot :=
  if x.st = .waiting then { x with st := .ready, wait := .none, warg := 0#32, waddr := 0#57, wspace := 0#2, watched := false }
  else { x with hold := .none }

theorem Slot.freed_join (x : Slot) : x.freed.join = x.join := by
  unfold Slot.freed
  split <;> rfl

theorem Slot.freed_nonempty (x : Slot) (h : x.freed.st = .empty) : x.st = .empty := by
  unfold Slot.freed at h
  split at h
  · exact absurd h nofun
  · exact h

theorem Fine.endWaits (h : Fine W s) (part : Nat) : Fine W (s.endWaits part) := by
  unfold State.endWaits
  dsimp only
  refine (foldl_fine_iff (fun s g => by split <;> simp) _).2 (foldl_fine (fun s u hs => ?_) h _)
  rw [State.unawait_fine, State.unwait_fine]
  exact hs.updImage (.of_paired (fun _ => rfl) (fun _ => rfl) fun x hx =>
    Paired.of_map hx Slot.freed_join Slot.freed_nonempty rfl rfl rfl)

theorem Fine.teardownPart (h : Fine W s) (part : Nat) : Fine W (s.teardownPart part) := by
  unfold State.teardownPart
  dsimp only
  rw [fine_mk, fineOn_iff, State.cancelWork_fine]
  refine Fine.endWaits ((State.updPart_fine ..).2 (Fine.startShootdown ?_ ..)) part
  exact foldl_fine (fun s c hs => by simpa using hs) h _

theorem Fine.gangFate (h : Fine W s) (k fclass : Nat) : Fine W (s.gangFate k fclass) := by
  unfold State.gangFate
  split
  · exact h
  split
  · exact h
  next l _ =>
  have hl : Fine W (if fclass = 0 then s else s.updLaunch l.id fun x => { x with fclass := if x.fclass = 0 then fclass else x.fclass }) := by
    simp [h]
  dsimp only
  split
  · exact hl.teardownPart _
  · split
    · exact hl.endLaunch ..
    · exact (State.updLaunch_fine ..).2 (hl.killGang k)

/-- What a trap writes of itself (R307, R342). -/
theorem keeps_report (info pc : Word) : Keeps fun x => x.report info pc := keeps_of_alike fun _ => ⟨rfl, rfl, rfl, rfl, rfl, .rfl, .rfl⟩

theorem keeps_reportFault (t : Trap) : Keeps fun x => x.reportFault t := by
  refine keeps_of_alike fun x => ?_
  unfold Grp.reportFault
  split
  · exact ⟨rfl, rfl, rfl, rfl, rfl, .rfl, .rfl⟩
  · exact alike_refl x

theorem Fine.handlerStep (h : Fine W s) (u : Nat) (i : Bool) (c : Nat) (info pc : Word) : Fine W (s.handlerStep u i c info pc) := by
  unfold State.handlerStep
  split
  · exact h
  · split
    · exact (h.updGrp (keeps_report info pc)).endLaunch ..
    · split
      · exact h.updGrp (keeps_updSlot (fun _ _ => rfl) fun _ _ => id)
      · exact h.updGrp ((keeps_enterHandler i).comp (keeps_report info pc))

theorem Fine.settlePark (h : Fine W s) (u : Nat) : Fine W (s.settlePark u) := by
  unfold State.settlePark
  split
  · exact h
  · dsimp only
    split
    · rw [State.send_fine]
      refine Fine.saveImage ((State.unschedule_fine ..).2 (h.updGrp (keeps_of_alike fun x => by simp))) u
    · exact h

theorem Fine.settleParks (h : Fine W s) : Fine W s.settleParks := foldl_fine (fun _ u hs => hs.settlePark u) h _

theorem Fine.takeTrap (h : Fine W s) (u : Nat) (i : Bool) (t : Trap) (pc : Word) : Fine W (s.takeTrap u i t pc) := by
  unfold State.takeTrap
  split
  · exact h
  next g _ =>
  have told : Fine W (s.updGrp u fun x => (x.report t.word pc).reportFault t) :=
    h.updGrp ((keeps_reportFault t).comp (keeps_report t.word pc))
  dsimp only
  split
  · exact h.updGrp (keeps_updSlot (fun _ _ => rfl) fun _ _ => id)
  split
  · exact ((State.updGang_fine ..).2 told).killGroup u
  split
  · split
    · exact told.gangFate ..
    · exact told.endLaunch ..
  split
  · exact told.gangFate ..
  split
  · refine (told.updGrp ?_).settlePark u
    exact (keeps_of_alike fun x => by simp).comp (f := fun x => { x with parking := true, trapSlot := i })
      (keeps_updSlot (i := i) (h := fun _ y => { y with pc := pc, hold := .trapPark }) (fun _ _ => rfl) fun _ _ => id)
  · exact (h.updGrp (keeps_reportFault t)).handlerStep ..

theorem Fine.releaseHeld (h : Fine W s) (u : Nat) (i : Bool) : Fine W (s.releaseHeld u i) := by
  have freed : Fine W (s.updGrp u fun g => g.updSlot i fun y => { y with hold := .none }) :=
    h.updGrp (keeps_updSlot (fun _ _ => rfl) fun _ _ => id)
  unfold State.releaseHeld
  split
  · exact h
  · dsimp only
    split
    · exact freed
    · exact freed.handlerStep ..
    · exact freed.takeTrap ..
    · exact h

theorem Fine.returnTrap (h : Fine W s) (u : Nat) (i : Bool) : Fine W (s.returnTrap u i) :=
  Fine.releaseHeld ((h.updGrp (keeps_updSlot (h := fun g x => { x with pc := g.trapPc, mode := g.savedMode, handler := false })
    (fun _ _ => rfl) fun _ _ => id)).updGrp (keeps_boundary i)) u (!i)

theorem Fine.endWait (h : Fine W s) (u : Nat) (slot : Bool) : Fine W (s.endWait u slot) := by
  unfold State.endWait
  have hw := h.updImage (v := u) (keeps_arrive (i := slot) (h := fun _ x =>
    { x with st := .ready, wait := .none, warg := 0#32, waddr := 0#57, wspace := 0#2, watched := false, fired := false,
             wcmds := [], due := 0 }) (fun _ _ => rfl) fun _ _ hn => absurd hn nofun)
  dsimp only
  split
  · exact hw
  · split
    · exact (State.updCore_fine ..).2 hw
    · exact hw

theorem Fine.wakeSlot (h : Fine W s) (u : Nat) (slot : Bool) : Fine W (s.wakeSlot u slot) := by
  unfold State.wakeSlot
  split
  · exact h
  dsimp only
  split
  · exact h
  split
  · split
    · exact h
    · exact h.endWait ..
  · split
    · exact Fine.endWait ((State.raisePts_fine ..).2 h) ..
    · exact h
  · split
    · exact h
    · exact Fine.endWait ((State.raisePts_fine ..).2 h) ..
  · exact h

theorem Fine.wakeWaits (h : Fine W s) : Fine W s.wakeWaits :=
  foldl_fine (fun _ u hs => (hs.wakeSlot u false).wakeSlot u true) h _

end

/-! Gangs that leave their cores, and what asks them to (R27, R204, R328, R330, R377). -/

section
variable {W : Watch} {s : State}

/-- The images of the groups with these names are in memory. -/
def Stored (us : List Nat) (s : State) : Prop := ∀ x ∈ s.groups, x.uid ∈ us → x.cached = false

theorem Stored.saveImage {us : List Nat} (h : Fine W s) (hs : Stored us s) (u : Nat) : Stored (u :: us) (s.saveImage u) := by
  have other {x : Grp} (hx : x ∈ s.groups) (hu : x.uid ∈ u :: us) (hn : x.uid = u → x.cached = false) : x.cached = false :=
    (List.mem_cons.1 hu).elim hn (hs x hx)
  intro x hx hu
  unfold State.saveImage at hx
  split at hx
  · next g hg =>
    split at hx
    · have hg' : ((s.writeImage g).updGrp u fun x => { x with cached := false }).groups =
          updFirst (fun g => g.uid == u) (fun x => { x with cached := false }) s.groups := by
        rw [State.updGrp_groups, (State.writeImage_onlyMem s g).groups]
      obtain ⟨y, hy, he, hne⟩ := forall₂_mem_right (forall₂_updFirst_uid s.groups h.distinct) (hg' ▸ hx)
      by_cases hyu : y.uid = u
      · rw [he hyu]
      · cases hne hyu
        exact other hy hu fun e => absurd e hyu
    · next hc =>
      refine other hx hu fun e => ?_
      cases (grp_of_mem h.distinct hx).symm.trans (e ▸ hg)
      simpa using hc
  · next hg => exact other hx hu fun e => by simp [← e, grp_of_mem h.distinct hx] at hg

theorem stored_saveImages {us : List Nat} (h : Fine W s) (hs : Stored us s) (gs : List Grp) :
    Stored (gs.map (·.uid) ++ us) (gs.foldl (fun s g => s.saveImage g.uid) s) := by
  induction gs generalizing s us with
  | nil => exact hs
  | cons g r ih =>
    intro x hx hu
    refine ih (h.saveImage g.uid) (hs.saveImage h g.uid) x hx ?_
    simp only [List.map_cons, List.cons_append, List.mem_cons, List.mem_append] at hu ⊢
    tauto

theorem Fine.evictGroup (h : Fine W s) {u : Nat} (hu : ¬W.names u) (core : Nat) : Fine W (s.evictGroup u core) := by
  refine Fine.updGrp ((State.leaveCore_fine ..).2 (h.fetchImage fun hw => absurd hw hu)) (keeps_of_alike fun x => ?_)
  exact ⟨rfl, rfl, rfl, rfl, rfl, .rfl, .rfl⟩

/-- A gang's images may pass through the register cache as it leaves; at the end they are all in memory (R27, R28). -/
theorem Fine.evictGang (h : Fine W s) (k : Nat) : Fine W (s.evictGang k) := by
  unfold State.evictGang
  split
  · exact h
  next gang _ =>
  dsimp only
  generalize (s.gangGroups k).filter _ = gs
  have hout : Fine (W.without (gs.map (·.uid))) (gs.foldl (fun s g => s.evictGroup g.uid g.core) s) :=
    foldl_fine_mem (fun s g hg hs => hs.evictGroup (fun hw => hw.2 (List.mem_map_of_mem hg)) g.core) (h.without _)
  have hdrop := (foldl_fine_iff (fun s i => State.dropEngine_fine s k i true) (List.range gang.cores.length)).2 hout
  have hsave : Fine W (gs.foldl (fun s g => s.saveImage g.uid)
      ((List.range gang.cores.length).foldl (fun s i => s.dropEngine k i true) (gs.foldl (fun s g => s.evictGroup g.uid g.core) s))) := by
    refine (foldl_fine (fun s g hs => hs.saveImage g.uid) hdrop gs).of_without fun x hx hu => ?_
    exact stored_saveImages hdrop (us := []) (fun _ _ => nofun) gs x hx (List.mem_append_left _ hu)
  exact Fine.wakeWaits ((State.updGang_fine ..).2 ((State.writeGangImage_fine ..).2 hsave))

theorem Fine.settleGang (h : Fine W s) (k : Nat) : Fine W (s.settleGang k) := by
  unfold State.settleGang
  split
  · exact h
  · dsimp only
    split
    · split
      · exact foldl_fine (fun s k hs => hs.evictGang k) h _
      · simpa using h
    · exact h

theorem Fine.settleGangs (h : Fine W s) : Fine W s.settleGangs := foldl_fine (fun _ k hs => hs.settleGang k) h _

theorem Fine.askEvict (h : Fine W s) (k : Nat) : Fine W (s.askEvict k) := by
  unfold State.askEvict
  split
  · exact h
  · exact Fine.settleGang (by simpa using h) k

theorem Fine.recheck (h : Fine W s) (part : Nat) : Fine W (s.recheck part) := foldl_fine (fun _ l hs => hs.endLaunch l 1 0) h _

theorem Fine.quarantine (h : Fine W s) (core : Nat) : Fine W (s.quarantine core) := by
  unfold State.quarantine
  have ha (xs : List Nat) (t : State) (ht : Fine W t) : Fine W (xs.foldl State.askEvict t) := foldl_fine (fun _ k hs => hs.askEvict k) ht xs
  dsimp only
  split
  · exact (ha _ _ (by simpa using h)).recheck _
  · exact ha _ _ (by simpa using h)

theorem Fine.countLte (h : Fine W s) (core : Nat) : Fine W (s.countLte core) := by
  unfold State.countLte
  dsimp only
  split
  · simpa using h
  · split
    · simpa using h
    · split
      · exact Fine.quarantine (by simpa using h) core
      · simpa using h

theorem Fine.writeReg (h : Fine W s) (core n : Nat) (x : Word) : Fine W (s.writeReg core n x) := by
  unfold State.writeReg
  dsimp only
  split
  case h_9 =>
    split
    · exact Fine.quarantine (by simpa using h) core
    · split
      · simpa using h
      · simpa using h
  all_goals simpa using h

theorem Fine.hartWriteReg (h : Fine W s) (core n : Nat) (x : Word) : Fine W (s.hartWriteReg core n x) := by
  unfold State.hartWriteReg
  split
  · exact h.writeReg ..
  · exact h

theorem Fine.combtestStore (h : Fine W s) (die mode : Nat) (value : Word) : Fine W (s.combtestStore die mode value) := by
  unfold State.combtestStore
  split
  · exact h.hartWriteReg ..
  · exact h

theorem Fine.makeRoom (h : Fine W s) (cluster : Nat) (b : Book) (below : Nat) : Fine W (s.makeRoom cluster b below) := by
  unfold State.makeRoom
  split
  · exact h
  · exact foldl_fine (fun _ k hs => hs.askEvict k) h _

theorem Fine.afterLoss (h : Fine W s) (d : Nat) : Fine W (s.afterLoss d) :=
  foldl_fine (fun _ k hs => hs.gangFate k 0) (Fine.wakeWaits ((foldl_fine_iff State.abortWave_fine _).2 h)) _

theorem Fine.loseDiesSince (h : Fine W s) (old : State) (ds : List Nat) : Fine W (s.loseDiesSince old ds) :=
  foldl_fine (fun _ d hs => hs.afterLoss d) ((State.alarm_fine ..).2 ((foldl_fine_iff State.markLost_fine _).2 h)) _

theorem Fine.loseDie (h : Fine W s) (d : Nat) : Fine W (s.loseDie d) := h.loseDiesSince s _

theorem Fine.trapIssue (h : Fine W s) (i : Issue) (t : Trap) : Fine W (s.trapIssue i t) :=
  ((h.updGrp (keeps_updSlot (h := fun _ x => { x with busy := false }) (fun _ _ => rfl) fun _ _ => id)).takeTrap ..).settleGang _

theorem Fine.trapScene (h : Fine W s) (t : Trap) : Fine W (s.trapScene t) := Fine.trapIssue (s := { s with iss := {} }) h s.iss t

end

/-! The launch unit's registers and the ends of a trap park (R330 to R332, R344, R351). -/

/-- The watched groups' images are in the register cache. -/
def Held (W : Watch) (s : State) : Prop := ∀ v, W.names v → ∀ x, s.grp v = some x → x.cached = true

section
variable {W : Watch} {s : State}

theorem Held.of_groups {t : State} (h : Held W s) (e : t.groups = s.groups) : Held W t := by
  intro v hv x hx
  rw [State.grp, e] at hx
  exact h v hv x hx

theorem Fine.doQuiesce (h : Fine W s) (part : Nat) : Fine W (s.doQuiesce part) :=
  foldl_fine (fun _ k hs => hs.askEvict k) ((State.updPart_fine ..).2 h) _

theorem Fine.doRebase (h : Fine W s) (part : Nat) : Fine W (s.doRebase part) := by
  unfold State.doRebase
  dsimp only
  rw [fine_mk]
  have timeless (x : Grp) : Alike x { x with pts := 0, cpyTime := 0 } := ⟨rfl, rfl, rfl, rfl, rfl, .rfl, .rfl⟩
  exact (fineOn_updAll_alike timeless).2 (foldl_fine (fun s u hs => hs.updImage (keeps_of_alike timeless)) h _)

theorem Fine.askRebase (h : Fine W s) (part : Nat) : Fine W (s.askRebase part) := by
  unfold State.askRebase
  split
  · exact h.doRebase part
  · exact h

/-- A group that leaves its trap park takes its image again; a watched one holds it already. -/
theorem Fine.unpark (h : Fine W s) (hh : Held W s) (u : Nat) : Fine W (s.unpark u) := by
  unfold State.unpark
  split
  · exact h
  next g hg =>
  split
  · exact h
  have hf : Fine W (s.fetchImage u) := h.fetchImage (hh u)
  dsimp only
  split
  · have hu : Fine W ((s.fetchImage u).useImage u) := hf.useImage fun hw x hx => by
      have he : s.fetchImage u = s := by simp [State.fetchImage, hg, hh u hw g hg]
      rw [he] at hx
      exact hh u hw x hx
    split
    · exact (State.makeResident_fine ..).2 hu
    · exact (State.updCore_fine ..).2 ((fine_updGrp fun x => by simp).2 hu)
  · exact (fine_updGrp fun x => by simp).2 hf

theorem Fine.flushImage (h : Fine W s) (u : Nat) : Fine W (s.flushImage u) := by
  unfold State.flushImage
  split
  · split
    · exact h.saveImage u
    · exact h
  · exact h

theorem Fine.deliverTrap (h : Fine W s) (u : Nat) : Fine W (s.deliverTrap u) := by
  unfold State.deliverTrap
  split
  · exact h
  · split
    · exact h.updGrp (keeps_updDeep fun _ _ => id)
    · exact h.handlerStep ..

/-- The fragment that a trap parked goes on at TRAPPC, in its slot or on the stack (R331). -/
theorem keeps_retry : Keeps fun x =>
    if x.trapDeep then x.updDeep fun y => { y with pc := x.trapPc, hold := .none }
    else (x.updSlot x.trapSlot fun y => { y with pc := x.trapPc, hold := .none }).boundary x.trapSlot := by
  have slot (i : Bool) : Keeps fun x => (x.updSlot i fun y => { y with pc := x.trapPc, hold := .none }).boundary i :=
    keeps_arrive (h := fun x y => { y with pc := x.trapPc, hold := .none }) (fun _ _ => rfl) fun _ _ => id
  exact Keeps.ite (c := fun x => x.trapDeep = true) (keeps_updDeep fun _ _ => id) fun x => slot x.trapSlot x

theorem Fine.parkRetry (h : Fine W s) (hh : Held W s) (part slot : Nat) : Fine W (s.parkRetry part slot) := by
  unfold State.parkRetry
  split
  · exact h
  · exact (((h.unpark hh _).updGrp keeps_retry).releaseHeld ..).flushImage _

theorem Fine.parkDeliver (h : Fine W s) (hh : Held W s) (part slot : Nat) : Fine W (s.parkDeliver part slot) := by
  unfold State.parkDeliver
  split
  · exact h
  next g _ =>
  have hd : Fine W ((s.unpark g.uid).deliverTrap g.uid) := (h.unpark hh _).deliverTrap _
  refine Fine.flushImage ?_ _
  split
  · exact hd
  · exact hd.releaseHeld ..

theorem Fine.parkKill (h : Fine W s) (part slot : Nat) : Fine W (s.parkKill part slot) := by
  unfold State.parkKill
  split
  · exact h
  · exact ((State.updLaunch_fine ..).2 h).killGang _

theorem Fine.writeUnit (h : Fine W s) (hh : Held W s) (part off : Nat) (x : Word) : Fine W (s.writeUnit part off x) := by
  unfold State.writeUnit
  split
  · split
    · exact h.parkRetry hh ..
    · exact h.parkDeliver hh ..
    · exact h.parkKill ..
    · exact h
  · split
    · have hq : Fine W (if bitOf x 0 then (if (s.part part).quiesce then s else s.doQuiesce part)
          else s.updPart part fun p => { p with quiesce := false }) := by
        simp [h, Fine.doQuiesce]
      dsimp only
      split
      · exact hq.askRebase part
      · exact hq
    · exact h
  · split
    · exact h.doShootdown ..
    · exact (State.updPart_fine ..).2 h
  · split
    · have ht : Fine W (if bitOf x 0 then s.teardownPart part else s) := by simp [h, Fine.teardownPart]
      dsimp only
      split
      · exact (State.clearTeardown_fine ..).2 ht
      · exact ht
    · exact h
  case h_9 => exact (State.updPart_fine ..).2 h
  all_goals exact (State.writeGraphctl_fine ..).2 h

theorem Fine.blockStore (h : Fine W s) (hh : Held W s) {die off : Nat} {x : Word} {t : State} (e : s.blockStore die off x = some t) :
    Fine W t := by
  unfold State.blockStore at e
  split at e
  case h_1 => exact Option.some.inj e ▸ h.hartWriteReg ..
  case h_2 => exact Option.some.inj e ▸ h.hartWriteReg ..
  case h_3 => exact Option.some.inj e ▸ h.writeUnit hh ..
  case h_7 => cases e
  all_goals exact Option.some.inj e ▸ h

end

/-! What a scene's words do at "perform" (R37): keys are spent, waits begin and end, no fragment loses its place. -/

section
variable {W : Watch} {s : State}

/-- Keys spent. -/
theorem Fine.spend (h : Fine W s) (k : Nat) : FineOn W s.groups (s.fresh + k) := FineOn.later h (Nat.le_add_right ..)

theorem Fine.takeKey (h : Fine W s) : Fine W s.takeKey.2 := h.spend 1

theorem Fine.sendAtomics (h : Fine W s) (r : Req) : Fine W (s.sendAtomics r) := by
  refine foldl_fine (fun s _ hs => ?_) h _
  exact hs.spend 1

theorem Fine.makeRecord (h : Fine W s) (hp : Hop) (a b : Packet) (op : AtomOp) (signed : Bool) : Fine W (s.makeRecord hp a b op signed) := by
  unfold State.makeRecord
  refine Fine.of_eq (s := if _ then s.takeKey.2.updDie hp.die _ else s.takeKey.2) ?_ rfl rfl
  simp [h.takeKey]

theorem Fine.sendReply (h : Fine W s) (r : Reply) : Fine W (s.sendReply r) := by
  unfold State.sendReply
  split
  · split
    · exact (State.deliver_fine ..).2 h
    · exact h
  · exact h.spend 1

theorem Fine.addReq (h : Fine W s) (r : Req) : Fine W (s.addReq r).2 := h.spend 1

theorem Fine.addECmd (h : Fine W s) (c : ECmd) : Fine W (s.addECmd c) := h.spend 1

theorem Fine.doPop (h : Fine W s) (g : Grp) (o : SOp) (d : Sel) (n : Nat) : Fine W (s.doPop g o d n) := (State.updQueue_fine ..).2 h.takeKey

theorem Fine.addStatus (h : Fine W s) (g : Grp) (o : SOp) (d : Sel) (got : Option Word) (ask : Option (Nat × Option Nat)) :
    Fine W (s.addStatus g o d got ask) := h.spend 1

theorem Fine.enterWload (h : Fine W s) (c : ECmd) : Fine W (s.enterWload c) := (State.markGranules_fine ..).2 (h.addECmd c)

theorem Fine.enterFence (h : Fine W s) (b : Option Nat) (scope die : Nat) (incl : List Nat) : Fine W (s.enterFence b scope die incl) :=
  h.spend 1

theorem Fine.hartFence (h : Fine W s) (die : Nat) : Fine W (s.hartFence die) := h.enterFence ..

theorem Fine.performFence (h : Fine W s) (g : Grp) (scope : Nat) : Fine W (s.performFence g scope) := by
  refine Fine.enterFence (h.updGrp (keeps_of_alike fun x => ?_)) ..
  exact ⟨rfl, rfl, rfl, rfl, rfl, .rfl, .rfl⟩

theorem Fine.doPrefetch (h : Fine W s) (g : Grp) (i : Issue) (o : SOp) (l1 : Bool) : Fine W (s.doPrefetch g i o l1) := by
  have now (xs : List Acc) : Fine W (xs.foldl (fun s a => match a.tgt, s.grp g.uid with
      | .mem pa cls, some x => s.prefetchLine x pa cls l1
      | _, _ => s) s) := foldl_fine (fun s a hs => by split <;> simp [hs]) h xs
  unfold State.doPrefetch
  dsimp only
  split
  · exact now _
  · exact (now _).addReq _

theorem Fine.doQcfg (h : Fine W s) (g : Grp) (n : Nat) (kind : QKind) : Fine W (s.doQcfg g n kind) := by
  have hs : Fine W (s.updGrp g.uid fun x => x.setQ n { kind := kind, lost := false }) :=
    h.updGrp (keeps_of_alike fun _ => ⟨rfl, rfl, rfl, rfl, rfl, .rfl, .rfl⟩)
  unfold State.doQcfg
  dsimp only
  split
  · exact hs
  · exact (State.updQueue_fine ..).2 ((State.forgive_fine ..).2 hs)

theorem Fine.doWrsp (h : Fine W s) (g : Grp) (i : Issue) (n : Nat) (x : Word) : Fine W (s.doWrsp g i n x) := by
  refine h.updGrp fun y => ?_
  split
  · exact keeps_updFrag (h := fun z => { z with mode := x }) (fun _ => rfl) (fun _ => id) y
  · exact keeps_of_alike (f := fun y => { y with trapInfo := x }) (fun y => by simp) y
  · exact keeps_of_alike (f := fun y => { y with trapPc := x }) (fun y => by simp) y

theorem Fine.releaseHeldStores (h : Fine W s) (g t : Grp) (n : Nat) : Fine W (s.releaseHeldStores g t n) := by
  refine foldl_fine (fun s w hs => ?_) h _
  split
  · exact hs
  · dsimp only
    split
    · exact Fine.sendAtomics (by simpa using hs) _
    · simpa using hs

theorem Fine.wait (h : Fine W s) (u : Nat) (slot : Bool) (k : WaitKind) {f : Slot → Slot}
    (hf : ∀ x, (f x).join = x.join ∧ (f x).st = x.st) : Fine W (s.wait u slot k f) :=
  h.updGrp (keeps_updSlot (h := fun _ x => f { x with st := .waiting, wait := k }) (fun _ _ => (hf _).1) fun _ x hn =>
    absurd ((hf { x with st := .waiting, wait := k }).2.symm.trans hn) nofun)

theorem Fine.releaseWaiter (h : Fine W s) (u : Nat) (slot gang : Bool) (id phase t : Nat) :
    Fine W (s.releaseWaiter u slot gang id phase t) := by
  refine Fine.endWait (h.updGrp (keeps_of_alike fun x => ?_)) u slot
  exact ⟨rfl, rfl, rfl, rfl, rfl, .rfl, .rfl⟩

theorem Fine.wakeBarrier (h : Fine W s) (g : Grp) (gang : Bool) (id phase t : Nat) : Fine W (s.wakeBarrier g gang id phase t) := by
  refine foldl_fine (fun v x hv => ?_) h _
  have go (t' : State) (slot : Bool) (ht : Fine W t') : Fine W (match t'.grp x.uid with
      | none => t'
      | some y =>
        if waitsOn (y.slot slot) gang id phase && decide ((y.slot slot).wgen < (s.barrier g gang id phase).gen) then
          t'.releaseWaiter x.uid slot gang id phase t
        else t') := by
    split
    · exact ht
    · split
      · exact ht.releaseWaiter ..
      · exact ht
  exact go _ true (go v false hv)

theorem Fine.arrive (h : Fine W s) {u : Nat} {gang : Bool} {id phase : Nat} {t : State} (e : s.arrive u gang id phase = some t) :
    Fine W t := by
  unfold State.arrive at e
  split at e
  · exact Option.some.inj e ▸ h
  next g _ =>
  dsimp only at e
  split at e
  · cases e
  have ha : Fine W (s.updGrp u fun x => { x with arr := tset x.arr (arrKey gang id phase) (s.barrier g gang id phase).gen }) :=
    h.updGrp (keeps_of_alike fun x => by simp)
  split at e
  · exact Option.some.inj e ▸ Fine.wakeBarrier ((State.updBarrier_fine ..).2 ha) ..
  · exact Option.some.inj e ▸ (State.updBarrier_fine ..).2 ha

theorem Fine.beginBarrier (h : Fine W s) (u : Nat) (slot gang : Bool) (id phase : Nat) : Fine W (s.beginBarrier u slot gang id phase) := by
  unfold State.beginBarrier
  split
  · exact h
  · dsimp only
    split
    · exact h.releaseWaiter ..
    · exact h.wait _ _ _ fun _ => ⟨rfl, rfl⟩

theorem Fine.mwaitRead (h : Fine W s) (u : Nat) (slot : Bool) : Fine W (s.mwaitRead u slot) := by
  unfold State.mwaitRead
  split
  · exact h
  next g _ =>
  have hs : Fine W ((s.served (mwaitKey u slot)).unawait fun w => w == .mwait u slot) := by simpa using h
  have edit {t : State} (ht : Fine W t) {f : Slot → Slot} (hf : ∀ x, (f x).join = x.join ∧ (f x).st = x.st) :
      Fine W (t.updGrp u fun y => y.updSlot slot f) :=
    ht.updGrp (keeps_updSlot (h := fun _ => f) (fun _ x => (hf x).1) fun _ x hn => (hf x).2.symm.trans hn)
  have ends {t : State} (ht : Fine W t) (c : Prop) [Decidable c] (w : Target) : Fine W (
      if c then t.endWait u slot
      else if (g.slot slot).watched then t.updGrp u fun y => y.updSlot slot fun z => { z with fired := false }
      else if t.watchesAt w < 32 then t.updGrp u fun y => y.updSlot slot fun z => { z with watched := true, fired := false }
      else t.updGrp u fun y => y.updSlot slot fun z => { z with due := t.clk + 2048 }) := by
    split
    · exact ht.endWait u slot
    split
    · exact edit ht fun _ => ⟨rfl, rfl⟩
    split
    · exact edit ht fun _ => ⟨rfl, rfl⟩
    · exact edit ht fun _ => ⟨rfl, rfl⟩
  dsimp only
  split
  · exact ends ((State.raisePts_fine ..).2 ((State.homeLoad_fine ..).2 hs)) _ _
  · exact ends hs _ _

theorem State.rewatch_join (s : State) (g : Grp) (x : Slot) : (s.rewatch g x).join = x.join := by
  unfold State.rewatch
  split
  · split <;> rfl
  · rfl

theorem State.rewatch_st (s : State) (g : Grp) (x : Slot) : (s.rewatch g x).st = x.st := by
  unfold State.rewatch
  split
  · split <;> rfl
  · rfl

theorem Fine.mwaitTry (h : Fine W s) (u : Nat) (slot : Bool) : Fine W (s.mwaitTry u slot) := by
  have again : Fine W (match s.grp u with
      | some g => if s.stillMapped g (g.slot slot) then s else s.updGrp u fun y => y.updSlot slot (s.rewatch g)
      | none => s) := by
    split
    · split
      · exact h
      · exact h.updGrp (keeps_updSlot (fun _ => s.rewatch_join _) fun _ x hn => (s.rewatch_st _ x).symm.trans hn)
    · exact h
  have reads {t : State} (ht : Fine W t) : Fine W (match t.grp u with
      | none => t
      | some g =>
        if t.mwaitReady g (g.slot slot) then t.mwaitRead u slot
        else if !t.stillMapped g (g.slot slot) then t
        else
          match watchTarget g (g.slot slot) with
          | .mem pa _ => if t.owned (lineOf pa) then t.await (.mwait u slot) else t.demand pa (mwaitKey u slot) false
          | .scratch _ _ _ => t) := by
    split
    · exact ht
    split
    · exact ht.mwaitRead u slot
    split
    · exact ht
    split
    · split
      · exact (State.await_fine ..).2 ht
      · exact (State.demand_fine ..).2 ht
    · exact ht
  unfold State.mwaitTry
  split
  · exact h
  · exact reads again

theorem Fine.beginMwait (h : Fine W s) (i : Issue) (u : Nat) (slot : Bool) (k : WaitKind) (c : Word) : Fine W (s.beginMwait i u slot k c) := by
  refine Fine.mwaitTry (h.wait _ _ _ fun x => ?_) u slot
  exact ⟨rfl, rfl⟩

end

/-! Each word of a scene as it is performed (R37, R51). -/

section
variable {W : Watch} {s : State}

theorem Fine.doLoad (h : Fine W s) {g : Grp} {i : Issue} {o : SOp} {d : Sel} {n : Nat} {t : State} (e : s.doLoad g i o d n = some t) :
    Fine W t := by
  simp only [State.doLoad] at e
  split at e
  · split at e
    · cases e
    · refine Option.some.inj e ▸ Fine.addReq ?_ _
      simp [h]
  · split at e
    · cases e
    · exact Option.some.inj e ▸ h.addReq _

theorem Fine.hold (h : Fine W s) {g : Grp} {i : Issue} {ins : Instr} {signed : Bool} {accs : List Acc} {t : State}
    (e : s.hold g i ins signed accs = some t) : Fine W t := by
  simp only [State.hold] at e
  split at e
  · cases e
  · have hs : Fine W ({ s with fresh := s.fresh + 2 } : State) := h.spend 2
    refine Option.some.inj e ▸ ?_
    simpa using hs

theorem Fine.doStore (h : Fine W s) {g : Grp} {i : Issue} {o : SOp} {t : State} (e : s.doStore g i o = some t) : Fine W t := by
  simp only [State.doStore] at e
  split at e
  · split at e
    · cases e
    · exact Option.some.inj e ▸ (State.storeScratch_fine ..).2 h
  split at e
  · exact h.hold e
  have hs : Fine W ((s.addReq (reqFor g i o .store)).2.addSide g.part g.imgSlot i.ord i.pc 1) := (State.addSide_fine ..).2 (h.addReq _)
  split at e
  · exact Option.some.inj e ▸ (foldl_fine_iff (fun s a => State.wcPut_fine ..) _).2 hs
  · exact Option.some.inj e ▸ hs

theorem Fine.doAtomic (h : Fine W s) {g : Grp} {i : Issue} {o : SOp} {d : Option Sel} {t : State} (e : s.doAtomic g i o d = some t) :
    Fine W t := by
  simp only [State.doAtomic] at e
  split at e
  · split at e
    · cases e
    · have hs (op : AtomOp) (signed : Bool) : Fine W (s.atomScratch op signed o.accs).2 := (State.atomScratch_fine ..).2 h
      split at e
      · exact Option.some.inj e ▸ (hs ..).addReq _
      · exact Option.some.inj e ▸ hs ..
  split at e
  · exact h.hold e
  · exact Option.some.inj e ▸ Fine.sendAtomics ((State.addSide_fine ..).2 (h.addReq _)) _

theorem Fine.doCopy (h : Fine W s) {g : Grp} {i : Issue} {o : SOp} {t : State} (e : s.doCopy g i o = some t) : Fine W t := by
  simp only [State.doCopy] at e
  split at e
  · cases e
  · refine Option.some.inj e ▸ (State.addSide_fine ..).2 ((State.noteCopied_fine ..).2 ?_)
    exact Fine.takeKey ((State.agentLoads_fine ..).2 ((State.wcFlush_fine ..).2 h))

theorem Fine.doMemory (h : Fine W s) {g : Grp} {i : Issue} {o : SOp} {t : State} (e : s.doMemory g i o = some t) : Fine W t := by
  unfold State.doMemory at e
  split at e
  case h_21 => exact Option.some.inj e ▸ h.doPrefetch ..
  case h_22 =>
    split at e
    · exact Option.some.inj e ▸ h
    · exact h.doCopy e
  case h_23 => exact Option.some.inj e ▸ h
  case h_1 | h_2 | h_3 | h_4 => exact h.doLoad e
  case h_5 | h_6 | h_7 | h_8 => exact h.doStore e
  all_goals exact h.doAtomic e

theorem Fine.doWload (h : Fine W s) {g : Grp} {i : Issue} {o : SOp} {t : State} (e : s.doWload g i o = some t) : Fine W t := by
  simp only [State.doWload] at e
  split at e
  · cases e
  · exact Option.some.inj e ▸ Fine.enterWload ((State.agentLoads_fine ..).2 ((State.wcFlush_fine ..).2 h)) _

theorem Fine.mirrorWload (h : Fine W s) {g x : Grp} {o : SOp} {t : State} (e : s.mirrorWload g x o = some t) : Fine W t := by
  unfold State.mirrorWload at e
  split at e
  · cases e
  · obtain ⟨c, -, rfl⟩ := Option.map_eq_some_iff.1 e
    exact h.enterWload _

theorem Fine.mirrorCopy (h : Fine W s) {g x : Grp} {i : Issue} {o : SOp} {t : State} (e : s.mirrorCopy g x i o = some t) : Fine W t := by
  unfold State.mirrorCopy at e
  split at e
  · exact Option.some.inj e ▸ h
  · dsimp only at e
    split at e
    · exact Option.some.inj e ▸ h
    · split at e
      · cases e
      · exact Option.some.inj e ▸ (State.addSide_fine ..).2 (h.spend 1)

theorem Fine.mirror (h : Fine W s) {g : Grp} {i : Issue} {o : SOp} {t : State} (e : s.mirror g i o = some t) : Fine W t := by
  unfold State.mirror at e
  split at e
  · exact Option.some.inj e ▸ h
  split at e
  · exact Option.some.inj e ▸ h
  split at e
  · exact h.mirrorWload e
  · split at e
    · exact Option.some.inj e ▸ h
    · exact h.mirrorCopy e
  · exact Option.some.inj e ▸ h

theorem Fine.doStage (h : Fine W s) {g : Grp} {o : SOp} {t : State} (e : s.doStage g o = some t) : Fine W t := by
  unfold State.doStage at e
  dsimp only at e
  split at e
  · cases e
  · exact Option.some.inj e ▸ h.addECmd _

theorem Fine.doWfree (h : Fine W s) {g : Grp} {o : SOp} {t : State} (e : s.doWfree g o = some t) : Fine W t := by
  unfold State.doWfree at e
  split at e
  · cases e
  · exact Option.some.inj e ▸ h.addECmd _

theorem Fine.doRelease (h : Fine W s) {g : Grp} {cue : Nat} {commit : Bool} {t : State} (e : s.doRelease g cue commit = some t) :
    Fine W t := by
  unfold State.doRelease at e
  dsimp only at e
  split at e
  · cases e
  split at e
  · exact Option.some.inj e ▸ (by simpa using h)
  · exact Option.some.inj e ▸ Fine.wakeWaits ((State.dropCmds_fine ..).2 h)

theorem Fine.doPush (h : Fine W s) {g : Grp} {o : SOp} {n : Nat} {t : State} (e : s.doPush g o n = some t) : Fine W t := by
  unfold State.doPush at e
  dsimp only at e
  split at e
  · cases e
  · refine Option.some.inj e ▸ ?_
    simpa using h

theorem Fine.doBank (h : Fine W s) {g : Grp} {i : Issue} {o : SOp} {t : State} (e : s.doBank g i o = some t) : Fine W t := by
  simp only [State.doBank] at e
  split at e
  · cases e
  · have hs (bs : List BankCmd) : Fine W (({ s.takeKey.2 with bcmds := bs } : State).addSide g.part g.imgSlot i.ord i.pc 1) :=
      (State.addSide_fine ..).2 h.takeKey
    exact Option.some.inj e ▸ fine_ite.2 ⟨fun _ => (State.stopBank_fine ..).2 (hs _), fun _ => hs _⟩

/-- The status word of a gprog, stored at its target (R290, R366). -/
def State.storeStatus (s : State) (g : Grp) (i : Issue) (tgt : Target) (w : List Byte) : State :=
  match tgt with
  | .mem pa cls =>
    if (s.die (homeDie pa)).failed then s.imprecise .homelost g.part g.imgSlot i.ord pa
    else if cls = .priv then ((((s.writePa pa w).noteDirty pa 4 g.part).dropCopies pa).fireWatches tgt 4)
    else
      let x := s.homeStore g.part (((s.grp g.uid).getD g).pts) pa w (cls == .bank)
      ((x.2.raisePts g.uid x.1).refreshCopies g.core pa x.1)
  | .scratch _ _ _ => (s.writeTarget tgt w).fireWatches tgt 4

@[simp] theorem State.storeStatus_fine (s : State) (g : Grp) (i : Issue) (tgt : Target) (w : List Byte) :
    Fine W (s.storeStatus g i tgt w) ↔ Fine W s := by
  unfold State.storeStatus
  split
  · split
    · simp
    · split <;> simp
  · simp

theorem Fine.doGprog (h : Fine W s) {g : Grp} {i : Issue} {o : SOp} {t : State} (e : s.doGprog g i o = some t) : Fine W t := by
  simp only [State.doGprog] at e
  split at e
  · cases e
  have stored (v : State) (w : List Byte) : (match (o.accs.headD {}).tgt with
      | .mem pa cls =>
        if (v.die (homeDie pa)).failed then some (v.imprecise .homelost g.part g.imgSlot i.ord pa)
        else if cls = .priv then some ((((v.writePa pa w).noteDirty pa 4 g.part).dropCopies pa).fireWatches (o.accs.headD {}).tgt 4)
        else some (((v.homeStore g.part (((v.grp g.uid).getD g).pts) pa w (cls == .bank)).2.raisePts g.uid
          (v.homeStore g.part (((v.grp g.uid).getD g).pts) pa w (cls == .bank)).1).refreshCopies g.core pa
          (v.homeStore g.part (((v.grp g.uid).getD g).pts) pa w (cls == .bank)).1)
      | .scratch _ _ _ => some ((v.writeTarget (o.accs.headD {}).tgt w).fireWatches (o.accs.headD {}).tgt 4)) =
      some (v.storeStatus g i (o.accs.headD {}).tgt w) := by
    unfold State.storeStatus
    split
    · split
      · rfl
      · split <;> rfl
    · rfl
  have e := (stored _ _).symm.trans e
  refine Option.some.inj e ▸ ?_
  rw [State.storeStatus_fine, State.ackSide_fine, State.addSide_fine]
  split <;> simp [h]

theorem Fine.doWave (h : Fine W s) {g : Grp} {i : Issue} {o : SOp} {t : State} (e : s.doWave g i o = some t) : Fine W t := by
  simp only [State.doWave] at e
  have hs (p : WcEntry → Bool) : Fine W (s.wcFlush g.core p) := (State.wcFlush_fine ..).2 h
  split at e
  · exact Option.some.inj e ▸ hs _
  split at e
  · cases e
  · exact Option.some.inj e ▸ (State.addSide_fine ..).2 (Fine.takeKey ((State.noteCopied_fine ..).2 (hs _)))

end

/-! "Check" (R37) reads the machine: but for the load of winld it leaves it as it is. -/

section
variable {k : Ck} {o : SOp} {r : SOp × Ck}

theorem Ck.wload_same (e : k.wload o = .ok r) : r.2.s = k.s := by
  simp only [Ck.wload, bind, Except.bind] at e
  repeat' split at e
  all_goals cases e
  all_goals rfl

theorem Ck.stage_same {single : Bool} (e : k.stage o single = .ok r) : r.2.s = k.s := by
  simp only [Ck.stage, bind, Except.bind] at e
  repeat' split at e
  all_goals cases e
  all_goals rfl

theorem Ck.qcfg_same {n : Nat} (e : k.qcfg o n = .ok r) : r.2.s = k.s := by
  simp only [Ck.qcfg, bind, Except.bind] at e
  repeat' split at e
  all_goals cases e
  all_goals rfl

theorem Ck.wfree_same (e : k.wfree o = .ok r) : r.2.s = k.s := by
  simp only [Ck.wfree, bind, Except.bind] at e
  repeat' split at e
  all_goals cases e
  all_goals rfl

theorem Ck.bexec_same (e : k.bexec o = .ok r) : r.2.s = k.s := by
  simp only [Ck.bexec, bind, Except.bind] at e
  repeat' split at e
  all_goals cases e
  all_goals rfl

theorem Ck.rowop_same (e : k.rowop o = .ok r) : r.2.s = k.s := by
  simp only [Ck.rowop, bind, Except.bind] at e
  repeat' split at e
  all_goals cases e
  all_goals rfl

theorem Ck.bpage_same {w : Nat} (e : k.bpage o w = .ok r) : r.2.s = k.s := by
  simp only [Ck.bpage, bind, Except.bind] at e
  repeat' split at e
  all_goals cases e
  all_goals rfl

theorem Ck.gbind_same (e : k.gbind o = .ok r) : r.2.s = k.s := by
  simp only [Ck.gbind, bind, Except.bind] at e
  repeat' split at e
  all_goals cases e
  all_goals rfl

theorem Ck.gprog_same (e : k.gprog o = .ok r) : r.2.s = k.s := by
  simp only [Ck.gprog, bind, Except.bind] at e
  repeat' split at e
  all_goals cases e
  all_goals rfl

theorem Ck.gmark_same (e : k.gmark o = .ok r) : r.2.s = k.s := by
  simp only [Ck.gmark, bind, Except.bind] at e
  repeat' split at e
  all_goals cases e
  all_goals rfl

theorem Ck.gclr_same (e : k.gclr o = .ok r) : r.2.s = k.s := by
  simp only [Ck.gclr, bind, Except.bind] at e
  repeat' split at e
  all_goals cases e
  all_goals rfl

theorem Ck.gprop_same (e : k.gprop o = .ok r) : r.2.s = k.s := by
  simp only [Ck.gprop, bind, Except.bind] at e
  repeat' split at e
  all_goals cases e
  all_goals rfl

theorem Ck.gcoll_same (e : k.gcoll o = .ok r) : r.2.s = k.s := by
  simp only [Ck.gcoll, bind, Except.bind] at e
  repeat' split at e
  all_goals cases e
  all_goals rfl

theorem Ck.queueUse_same {n : Nat} {push : Bool} (e : k.queueUse o n push = .ok r) : r.2.s = k.s := by
  simp only [Ck.queueUse] at e
  repeat' split at e
  all_goals cases e
  all_goals rfl

theorem Ck.memory_same {w : Nat} {disp : Nat} {size : Nat} {kind : AccKind} (e : k.memory o w disp size kind = .ok r) : r.2.s = k.s := by
  simp only [Ck.memory] at e
  repeat' split at e
  all_goals cases e
  all_goals rfl

theorem Ck.prefetch_same {w : Nat} {disp : Nat} (e : k.prefetch o w disp = .ok r) : r.2.s = k.s := by
  simp only [Ck.prefetch] at e
  repeat' split at e
  all_goals cases e
  all_goals rfl

theorem Ck.copy_same {src : Nat} {dst : Nat} (e : k.copy o src dst = .ok r) : r.2.s = k.s := by
  simp only [Ck.copy] at e
  repeat' split at e
  all_goals cases e
  all_goals rfl

theorem Ck.winsub_same {src : Nat} (e : k.winsub o src = .ok r) : r.2.s = k.s := by
  simp only [Ck.winsub] at e
  repeat' split at e
  all_goals cases e
  all_goals rfl

theorem Ck.wrsp_same {n : Nat} (e : k.wrsp o n = .ok r) : r.2.s = k.s := by
  simp only [Ck.wrsp] at e
  repeat' split at e
  all_goals cases e
  all_goals rfl

theorem Ck.wrsys_same {n : Nat} (e : k.wrsys o n = .ok r) : r.2.s = k.s := by
  simp only [Ck.wrsys] at e
  repeat' split at e
  all_goals cases e
  all_goals rfl

theorem Ck.barinit_same {gang : Bool} {id : Nat} {phase : Nat} (e : k.barinit o gang id phase = .ok r) : r.2.s = k.s := by
  simp only [Ck.barinit] at e
  repeat' split at e
  all_goals cases e
  all_goals rfl

theorem Ck.winld_fine {W : Watch} {n : Nat} (h : Fine W k.s) (e : k.winld o n = .ok r) : Fine W r.2.s := by
  simp only [Ck.winld] at e
  repeat' split at e
  all_goals cases e
  exact (State.loadNow_fine ..).2 h

theorem Ck.acting_fine {W : Watch} (h : Fine W k.s) (e : k.acting o = .ok r) : Fine W r.2.s := by
  simp only [Ck.acting, bind, Except.bind] at e
  have same (hs : r.2.s = k.s) : Fine W r.2.s := hs ▸ h
  split at e
  case h_1 => exact same (Ck.wrsp_same e)
  case h_2 => exact Ck.winld_fine h e
  case h_3 => exact same (Ck.winsub_same e)
  case h_4 => exact same (Ck.prefetch_same e)
  case h_5 => exact same (Ck.copy_same e)
  case h_6 => exact same (Ck.barinit_same e)
  case h_8 => exact same (Ck.wload_same e)
  case h_9 => exact same (Ck.stage_same e)
  case h_10 => exact same (Ck.stage_same e)
  case h_13 => exact same (Ck.qcfg_same e)
  case h_16 => exact same (Ck.wfree_same e)
  case h_17 => exact same (Ck.gbind_same e)
  case h_18 => exact same (Ck.gprog_same e)
  case h_19 => exact same (Ck.gmark_same e)
  case h_20 => exact same (Ck.gprop_same e)
  case h_21 => exact same (Ck.gcoll_same e)
  case h_22 => exact same (Ck.gclr_same e)
  case h_23 => exact same (Ck.bexec_same e)
  case h_24 => exact same (Ck.rowop_same e)
  case h_25 => exact same (Ck.bpage_same e)
  case h_26 =>
    split at e
    · exact same (Ck.memory_same e)
    · cases e
      exact h
  all_goals
    repeat' split at e
    all_goals cases e
    all_goals exact h

theorem Ck.op_fine {W : Watch} (h : Fine W k.s) (e : k.op o = .ok r) : Fine W r.2.s := by
  have queue {n : Nat} {push : Bool} (e : k.queueUse o n push = .ok r) : Fine W r.2.s := Ck.queueUse_same e ▸ h
  simp only [Ck.op] at e
  split at e
  · exact queue e
  · exact queue e
  · exact Ck.wrsys_same e ▸ h
  · split at e
    · exact queue e
    · split at e
      · cases e
        exact h
      · exact Ck.acting_fine h e

theorem Ck.ops_fine {W : Watch} {xs : List SOp} {r : List SOp × Ck} (h : Fine W k.s) (e : k.ops xs = .ok r) : Fine W r.2.s := by
  induction xs generalizing k r with
  | nil =>
    cases e
    exact h
  | cons o xs ih =>
    simp only [Ck.ops] at e
    split at e
    · cases e
    · next o' k' hk =>
      split at e
      · cases e
      · next ys l hr =>
        cases e
        exact ih (k := k') (r := (ys, l)) (Ck.op_fine h hk) hr

theorem Fine.checkScene {W : Watch} {s : State} {i : Issue} {x : List SOp × State} (h : Fine W s) (e : s.checkScene i = .ok x) :
    Fine W x.2 := by
  simp only [State.checkScene] at e
  split at e
  · cases e
  · next hk =>
    split at e
    · cases e
    · cases e
      exact Ck.ops_fine h hk

end

/-! A scene's trailer: the words performed, the final word, and the boundary after it (R37, R14 to R18). -/

section
variable {W : Watch} {s : State}

theorem Fine.doOp (h : Fine W s) {g : Grp} {i : Issue} {o : SOp} {t : State} (e : s.doOp g i o = some t) : Fine W t := by
  have same {v : State} {f : Grp → Grp} (hv : Fine W v) (hf : ∀ x, Alike x (f x)) : Fine W (v.updGrp g.uid f) := (fine_updGrp hf).2 hv
  unfold State.doOp at e
  split at e
  case h_1 => exact h.doPush e
  case h_2 => exact Option.some.inj e ▸ h.doPop ..
  case h_3 => exact Option.some.inj e ▸ h.doWrsp ..
  case h_4 => exact Option.some.inj e ▸ same h fun x => ⟨rfl, rfl, rfl, rfl, rfl, .rfl, .rfl⟩
  case h_5 => exact Option.some.inj e ▸ same h fun x => ⟨rfl, rfl, rfl, rfl, rfl, .rfl, .rfl⟩
  case h_6 => exact Option.some.inj e ▸ h.writeReg ..
  case h_7 => exact Option.some.inj e ▸ (State.updBarrier_fine ..).2 h
  case h_8 => exact Option.some.inj e ▸ same ((State.wcFlushGroup_fine ..).2 h) fun x => by simp
  case h_9 => exact Option.some.inj e ▸ same h fun x => ⟨rfl, rfl, rfl, rfl, rfl, .rfl, .rfl⟩
  case h_10 => exact Option.some.inj e ▸ h.doQcfg ..
  case h_11 => exact Option.some.inj e ▸ h.addStatus ..
  case h_12 => exact Option.some.inj e ▸ h.addStatus ..
  case h_13 => exact h.doWload e
  case h_14 | h_15 => exact h.doStage e
  case h_16 | h_17 => exact h.doRelease e
  case h_18 => exact h.doWfree e
  case h_19 | h_20 => exact h.doBank e
  case h_21 => exact Option.some.inj e ▸ (State.doBpage_fine ..).2 h
  case h_22 => exact h.doGprog e
  case h_23 | h_24 | h_25 | h_26 | h_27 => exact h.doWave e
  case h_28 => exact Option.some.inj e ▸ fine_ite.2 ⟨fun _ => same h fun x => by simp, fun _ => h⟩
  case h_29 =>
    split at e
    · exact h.doPush e
    · exact h.doMemory e

theorem Fine.takeOrdinal (h : Fine W s) {g : Grp} {i : Issue} {o : SOp} {t : State × Issue} (e : s.takeOrdinal g i o = some t) :
    Fine W t.1 := by
  simp only [State.takeOrdinal] at e
  split at e
  · exact Option.some.inj e ▸ h
  · obtain ⟨-, e⟩ := Option.ite_none_left_eq_some.1 e
    refine Option.some.inj e ▸ ?_
    simpa using h

theorem Alike.trans {x y z : Grp} (a : Alike x y) (b : Alike y z) : Alike x z :=
  ⟨b.uid.trans a.uid, b.cached.trans a.cached, b.stack.trans a.stack, b.join0.trans a.join0, b.join1.trans a.join1,
    b.empty0.trans a.empty0, b.empty1.trans a.empty1⟩

theorem alike_foldl {α : Type} {f : Grp → α → Grp} (h : ∀ x a, Alike x (f x a)) (x : Grp) (xs : List α) : Alike x (xs.foldl f x) := by
  induction xs generalizing x with
  | nil => exact alike_refl x
  | cons a r ih => exact (h x a).trans (ih _)

/-- What an understudied group feeds its signature leaves its fragments (R358). -/
theorem alike_feed (x : Grp) (bs : List Byte) : Alike x (x.feed bs) := by
  unfold Grp.feed
  split
  · exact ⟨rfl, rfl, rfl, rfl, rfl, .rfl, .rfl⟩
  · exact alike_refl x

theorem alike_feedLanes (x : Grp) (ins : Instr) (n : Nat) (xs : List Acc) : Alike x (x.feedLanes ins n xs) := by
  induction xs generalizing x n with
  | nil => exact alike_refl x
  | cons a r ih =>
    unfold Grp.feedLanes
    refine (alike_feed x (accBytes ins a)).trans (Alike.trans ?_ (ih _ _))
    split
    · exact ⟨rfl, rfl, rfl, rfl, rfl, .rfl, .rfl⟩
    · exact alike_refl _

theorem Fine.performOne (h : Fine W s) (i : Issue) (o : SOp) : Fine W (s.performOne i o).1 := by
  have does {c : Bool} {v t : State} {g : Grp} {j : Issue} (hv : Fine W v)
      (e : (if c then some v else (v.doOp g j o).bind fun s => s.mirror g j o) = some t) : Fine W t := by
    split at e
    · exact Option.some.inj e ▸ hv
    · obtain ⟨x, hx, hy⟩ := Option.bind_eq_some_iff.1 e
      exact (hv.doOp hx).mirror hy
  unfold State.performOne
  split
  · exact h
  next g _ =>
  split
  · exact h
  split
  · exact h
  split
  · exact (State.servedBanks_fine ..).2 h
  dsimp only
  split
  · exact (State.askCompare_fine ..).2 h
  split
  · exact h
  next s1 j h1 =>
  have h1 := h.takeOrdinal h1
  split
  · exact (State.askBanks_fine ..).2 h
  next s2 h2 =>
  have h2 : Fine W (s2.servedBanks ((s1.grp g.uid).getD g)) := (State.servedBanks_fine ..).2 (does h1 h2)
  have fed (c : Bool) (n : Nat) (bs : List Byte) (x : Grp) : Alike x (if c then x.feedLanes o.ins n o.accs else x.feed bs) := by
    split
    · exact alike_feedLanes x ..
    · exact alike_feed x bs
  have h3 (v : State) (hv : Fine W v) (c d : Bool) (n : Nat) (bs : List Byte) :
      Fine W (if c then v.updGrp g.uid fun x => if d then x.feedLanes o.ins n o.accs else x.feed bs else v) :=
    fine_ite.2 ⟨fun _ => (fine_updGrp (fed d n bs)).2 hv, fun _ => hv⟩
  exact fine_ite.2 ⟨fun _ => (fine_updGrp fun x => by simp).2 (h3 _ h2 ..), fun _ => h3 _ h2 ..⟩

end

/-! The final word and the boundary after it (R14 to R18, R37, R92 to R98). -/

section
variable {W : Watch} {s : State}

theorem Fine.performAll (h : Fine W s) (i : Issue) (xs : List SOp) : Fine W (s.performAll i xs).1 := by
  induction xs generalizing s i with
  | nil => exact h
  | cons o r ih =>
    have ho := h.performOne i o
    unfold State.performAll
    split
    · next e =>
      rw [e] at ho
      exact ih ho _
    · next e =>
      rw [e] at ho
      exact ho

theorem Fine.settleSlot (h : Fine W s) (u : Nat) (slot : Bool) : Fine W (s.settleSlot u slot) := by
  unfold State.settleSlot
  split
  · exact h
  dsimp only
  split
  · split
    · exact h.releaseHeld ..
    · exact h
  split
  · split
    · exact h.releaseWaiter ..
    · exact h
  · split
    · exact h.endWait ..
    · exact h
  · exact h.wakeSlot ..

theorem Fine.exitSlot (h : Fine W s) (u : Nat) (slot : Bool) : Fine W (s.exitSlot u slot) := by
  unfold State.exitSlot
  split
  · exact h
  next g _ =>
  have hs : Fine W ((s.updGrp u fun y => (y.endSlot slot).boundary (!slot)).wcFlushGroup u g.core) :=
    (State.wcFlushGroup_fine ..).2 (h.updGrp ((keeps_boundary (!slot)).comp (keeps_endSlot slot)))
  dsimp only
  split
  · exact hs
  split
  · exact (State.afterEnd_fine ..).2 hs
  split
  · exact hs.releaseHeld ..
  · exact hs

/-- The fragment goes on at a header (R16). -/
theorem Fine.goOn (h : Fine W s) (u : Nat) (slot : Bool) (pc : Word) : Fine W (s.updGrp u fun g =>
    (g.updSlot slot fun x => { x with pc := pc, st := .ready, busy := false }).boundary slot) :=
  h.updGrp (keeps_arrive (h := fun _ x => { x with pc := pc, st := .ready, busy := false }) (fun _ _ => rfl) fun _ _ hn => absurd hn nofun)

/-- The fragment stays at its next header, for a wait or a trap. -/
theorem Fine.stay (h : Fine W s) (u : Nat) (slot : Bool) (pc : Word) : Fine W (s.updGrp u fun g =>
    g.updSlot slot fun x => { x with pc := pc, busy := false }) :=
  h.updGrp (keeps_updSlot (h := fun _ x => { x with pc := pc, busy := false }) (fun _ _ => rfl) fun _ _ => id)

theorem Grp.split_onlyFrags {g r : Grp} {i : Bool} {taken : Word} {fall target join : Word}
    (e : g.split i taken fall target join = some r) : Grp.OnlyFrags g r := by
  simp only [Grp.split] at e
  obtain ⟨-, e⟩ := Option.ite_none_left_eq_some.1 e
  cases e
  exact ((Grp.setSlot_onlyFrags g i _).trans (Grp.setSlot_onlyFrags _ (!i) _)).trans rfl

/-- A split (R14) keeps the shape of a group whose fragment is there. -/
theorem Fine.splits (h : Fine W s) {u : Nat} {slot : Bool} {taken : Word} {fall target join : Word} {x : Grp}
    (hl : ∀ g, s.grp u = some g → (g.slot slot).st ≠ .empty)
    (e : ((s.grp u).bind fun g => (g.updSlot slot fun x => { x with busy := false }).split slot taken fall target join) = some x) :
    Fine W (s.updGrp u fun _ => (x.boundary slot).boundary (!slot)) := by
  obtain ⟨g, hg, hx⟩ := Option.bind_eq_some_iff.1 e
  refine h.updGrp_where fun y hy => ?_
  cases hg.symm.trans hy
  have hf := (Grp.updSlot_onlyFrags g slot fun x => { x with busy := false }).trans (Grp.split_onlyFrags hx)
  have hb := (hf.trans (Grp.boundary_onlyFrags x slot)).trans (Grp.boundary_onlyFrags _ (!slot))
  refine ⟨hb.uid, fun _ hs hc => Grp.boundary_paired (Grp.boundary_paired (Grp.split_paired ?_ ?_ hx))⟩
  · exact Grp.updSlot_paired (hs (hb.cached.symm.trans hc)) rfl id
  · have := hl g hg
    cases slot <;> exact this

theorem alike_setS (x : Grp) (n : Nat) (r : SReg) : Alike x (x.setS n r) := ⟨rfl, rfl, rfl, rfl, rfl, .rfl, .rfl⟩

theorem Fine.applyFinal (h : Fine W s) {i : Issue} {slot : Bool} {t : State}
    (hl : ∀ g, s.grp i.g.uid = some g → (g.slot slot).st ≠ .empty) (e : s.applyFinal i slot = some t) : Fine W t := by
  unfold State.applyFinal at e
  dsimp only at e
  split at e
  · exact Option.some.inj e ▸ h.goOn ..
  · exact Option.some.inj e ▸ h.goOn ..
  · refine Option.some.inj e ▸ Fine.goOn ?_ ..
    exact fine_ite.2 ⟨fun _ => (fine_updGrp fun x => alike_setS x _ _).2 h, fun _ => h⟩
  · split at e
    · exact Option.some.inj e ▸ h.goOn ..
    split at e
    · exact Option.some.inj e ▸ h.goOn ..
    split at e
    · cases e
    · next hx => exact Option.some.inj e ▸ h.splits hl hx
  · exact Option.some.inj e ▸ h.goOn ..
  · exact Option.some.inj e ▸ h.exitSlot ..
  · exact Option.some.inj e ▸ (h.stay ..).takeTrap ..
  · exact Option.some.inj e ▸ Fine.returnTrap (h.updGrp (keeps_updSlot (h := fun _ x => { x with busy := false })
      (fun _ _ => rfl) fun _ _ => id)) ..
  · split at e
    · cases e
    next v hv =>
    have hv : Fine W v := by
      split at hv
      · exact h.arrive hv
      · exact Option.some.inj hv ▸ h
    split at e
    · exact Option.some.inj e ▸ (hv.stay ..).beginBarrier ..
    · exact Option.some.inj e ▸ hv.goOn ..
  · exact Option.some.inj e ▸ (h.stay ..).beginMwait ..
  · exact Option.some.inj e ▸ (((State.wcFlushGroup_fine ..).2 (h.stay ..)).wait _ _ _ fun _ => ⟨by rfl, by rfl⟩).wakeSlot ..
  · exact Option.some.inj e ▸ ((h.stay ..).wait _ _ _ fun _ => ⟨by rfl, by rfl⟩).wakeSlot ..
  · exact Option.some.inj e ▸ ((h.stay ..).wait _ _ _ fun _ => ⟨by rfl, by rfl⟩).wakeSlot ..

theorem Fine.endScene (h : Fine W s) {i : Issue} {slot : Bool} {t : State}
    (hl : ∀ g, s.grp i.g.uid = some g → (g.slot slot).st ≠ .empty) (e : s.endScene i slot = some t) : Fine W t := by
  unfold State.endScene at e
  split at e
  · cases e
  · next hv =>
    exact Option.some.inj e ▸ (State.beganWait_fine ..).2 ((((h.applyFinal hl hv).settleSlot _ false).settleSlot _ true).settleGang _)

theorem Grp.whereIs_there {g : Grp} {m : Word} {slot : Bool} (h : g.whereIs m = some slot) : (g.slot slot).st ≠ .empty := by
  unfold Grp.whereIs at h
  split at h
  · next hx =>
    cases h
    exact hx.2
  · split at h
    · next hx =>
      cases h
      exact hx.2
    · cases h

theorem Fine.runPerform (h : Fine W s) (i : Issue) : Fine W (s.runPerform i) := by
  have hp := h.performAll i i.ops
  unfold State.runPerform
  split
  next v j ops e =>
  rw [e] at hp
  replace hp : Fine W v := hp
  dsimp only
  split
  · exact hp
  next g hg =>
  split
  · exact hp
  split
  · split
    · exact (State.endedWork_fine ..).2 hp
    · split
      · exact hp
      · exact hp
  next slot hw =>
  split
  · exact hp
  split
  · exact (State.askCompare_fine ..).2 hp
  split
  · next hx =>
    exact hp.endScene (fun x hx => by cases hg.symm.trans hx; exact Grp.whereIs_there hw) hx
  · exact hp

/-- The scene buffer laid over the registers leaves the fragments' joins (R20, R21). -/
theorem keeps_commit (i : Issue) : Keeps fun x => x.commit i :=
  Keeps.comp (f := fun x => x.updFrag i.mask fun z => { z with mode := i.mode })
    (keeps_updFrag (h := fun z => { z with mode := i.mode }) (fun _ => rfl) fun _ => id)
    (keeps_of_alike fun x => by simp)

theorem keeps_markEmpties (xs : List SOp) : Keeps fun x => x.markEmpties xs := by
  have one (x : Grp) (d : Sel) : Alike x (x.markEmpty d) := by
    unfold Grp.markEmpty
    split
    · exact ⟨rfl, rfl, rfl, rfl, rfl, .rfl, .rfl⟩
    · exact ⟨rfl, rfl, rfl, rfl, rfl, .rfl, .rfl⟩
    · exact alike_refl x
  refine keeps_of_alike fun x => alike_foldl (fun x o => ?_) x xs
  split
  · exact alike_foldl one x _
  · exact alike_refl x

theorem Fine.finishScene (h : Fine W s) {i : Issue} {t : State} (e : s.finishScene i = .next t) : Fine W t := by
  simp only [State.finishScene] at e
  split at e
  · cases e
    exact (State.askTables_fine ..).2 h
  split at e
  · cases e
    exact h
  split at e
  · cases e
    exact Fine.trapIssue ((State.servedTables_fine ..).2 h) ..
  · cases e
  · next hc =>
    cases e
    refine Fine.runPerform (Fine.updGrp ((State.touchTlb_fine ..).2 ?_) ((keeps_markEmpties _).comp (keeps_commit i))) _
    exact Fine.checkScene ((State.servedTables_fine ..).2 h) hc

end

end Sys2Proof.Machine
end

section
/-! SUPPORT. Waves, placements, every event and every move keep the groups' shape. -/

namespace Sys2Proof.Machine

open Sys2Proof.Claim

/-! Waves (R261 to R289) spend keys and end waits; nothing else of theirs reaches the groups. -/

section
variable {W : Watch} {s : State}

theorem Fine.loseWave (h : Fine W s) (w : Wave) : Fine W (s.loseWave w) :=
  Fine.wakeWaits ((State.abortWave_fine ..).2 ((State.bareError_fine ..).2 h))

theorem Fine.endWave (h : Fine W s) (id : Nat) : Fine W (s.endWave id) := by
  unfold State.endWave
  split
  · exact h
  · refine Fine.wakeWaits ?_
    simpa using h

theorem Fine.sendFrom (h : Fine W s) {w : Wave} {n pa : Nat} {v : List Int} {p : Word} {t : State × List Marker}
    (e : s.sendFrom w n pa v p = .ok t) : Fine W t.1 := by
  simp only [State.sendFrom, bind, Except.bind] at e
  split at e
  · cases e
    exact (State.flagMalformed_fine ..).2 h
  · split at e
    · cases e
    · cases e
      simpa using h

theorem Fine.post (h : Fine W s) (w : Wave) (bank each extra : Nat) (xs : List Marker) : Fine W (s.post w bank each extra xs) := by
  induction xs generalizing s extra with
  | nil => exact h
  | cons m r ih =>
    unfold State.post
    have hs (f : Wave → Wave) : Fine W (s.takeKey.2.updWave w.id f) := (State.updWave_fine ..).2 h.takeKey
    dsimp only
    refine ih ?_ _
    split
    · exact hs _
    · split
      · exact hs _
      · rw [fine_mk]
        exact hs _

theorem Fine.dispatch (h : Fine W s) (id bank : Nat) (ms : List Marker) : Fine W (s.dispatch id bank ms) := by
  unfold State.dispatch
  split
  · exact h
  dsimp only
  split
  · exact h
  split
  · exact (State.updWave_fine ..).2 h
  · exact Fine.post ((State.updRec_fine ..).2 ((State.updWave_fine ..).2 h)) ..

theorem Fine.waveBlocked (h : Fine W s) {w : Wave} {lines : List Nat} {t : State} (e : s.waveBlocked w lines = some t) : Fine W t := by
  unfold State.waveBlocked at e
  split at e
  · split at e
    · exact Option.some.inj e ▸ h
    · exact Option.some.inj e ▸ (State.send_fine ..).2 ((State.updWave_fine ..).2 h)
  · split at e
    · cases e
    · exact Option.some.inj e ▸ h

theorem Fine.chainNode (h : Fine W s) {x : Wave} {n pa : Nat} {t : State × Bool} (e : s.chainNode x n pa = .ok t) : Fine W t.1 := by
  simp only [State.chainNode, bind, Except.bind] at e
  have ht : Fine W (if x.incl then s.take x n pa (s.nodeVal x pa x.src).1 (s.nodeVal x pa x.src).2 else (s, false)).1 := by
    split
    · exact (State.take_fine ..).2 h
    · exact h
  split at e
  · cases e
  · next hy =>
    cases e
    exact (ht.sendFrom hy).dispatch ..

theorem Fine.feed {k : Nat} (h : Fine W s) {e pa : Nat} {t : State} (hk : State.feed k s e pa = .ok t) : Fine W t := by
  induction k generalizing s e t with
  | zero =>
    cases hk
    exact h
  | succ k ih =>
    refine foldlM_fine (fun s x t hs hx => ?_) h hk
    simp only [bind, Except.bind] at hx
    split at hx
    · cases hx
    refine foldlM_fine (fun s n t hs hn => ?_) hs hx
    split at hn
    · split at hn
      · cases hn
      · next hc =>
        have hc := hs.chainNode (ofWave_ok hc)
        split at hn
        · exact ih hc hn
        · cases hn
          exact hc
    · cases hn
      exact hs

theorem Fine.fed {r : State × Bool} (h : Fine W r.1) {e pa : Nat} {t : State} (hr : State.fed r e pa = .ok t) : Fine W t := by
  unfold State.fed at hr
  split at hr
  · exact h.feed hr
  · cases hr
    exact h

theorem Fine.stopWave (h : Fine W s) (e : WaveStop) : Fine W (s.stopWave e) := by
  unfold State.stopWave
  split
  · exact h
  · split
    · exact h.loseWave _
    · exact h

theorem Fine.roundNode (h : Fine W s) {w : Wave} {n pa : Nat} {t : State} (e : s.roundNode w n pa = .ok t) : Fine W t := by
  have last {v : State} (hv : Fine W v) : Fine W (match v.wave w.id with
      | some x => if v.entriesAt x (bankOf pa) then v else v.dispatch w.id (bankOf pa) []
      | none => v) := by
    split
    · split
      · exact hv
      · exact hv.dispatch ..
    · exact hv
  simp only [State.roundNode, bind, Except.bind] at e
  split at e
  · split at e
    · cases e
    next hu =>
    have hu := Fine.fed ((State.take_fine ..).2 h) hu
    split at e
    · cases e
    next hy =>
    cases e
    exact last ((State.updWave_fine ..).2 (hu.sendFrom (ofWave_ok hy)))
  · split at e
    · cases e
    next hy =>
    cases e
    exact last ((State.updWave_fine ..).2 (h.sendFrom (ofWave_ok hy)))

theorem Fine.tryRound (h : Fine W s) (w : Wave) : Fine W (s.tryRound w) := by
  unfold State.tryRound
  split
  · exact h.stopWave _
  · exact (State.beginRound_fine ..).2 h

theorem Fine.countReturn (h : Fine W s) (w : Wave) (n : Nat) : Fine W (s.countReturn w n) := by
  have hs (f : Wave → Wave) : Fine W (s.updWave w.id f) := (State.updWave_fine ..).2 h
  unfold State.countReturn
  dsimp only
  split
  · split
    · split
      · exact (State.updWave_fine ..).2 ((State.updRec_fine ..).2 (hs _))
      · exact Fine.endWave ((State.updRec_fine ..).2 (hs _)) _
    · exact (hs _).endWave _
  · exact hs _

theorem Fine.waveLine (h : Fine W s) (w : Wave) (line : Nat) : Fine W (s.waveLine w line) := by
  unfold State.waveLine
  split
  · exact h
  split
  · split
    · exact h.loseWave w
    · exact h
  split
  · exact h
  split
  · next hb => exact h.waveBlocked hb
  split
  · split
    · next hr => exact h.roundNode hr
    · exact h.stopWave _
  · simp [h]

theorem Fine.moveWave (h : Fine W s) (w : Wave) : Fine W (s.moveWave w) := by
  unfold State.moveWave
  split
  · exact (State.updWave_fine ..).2 h
  split
  · exact h.loseWave w
  dsimp only
  split
  · exact h
  · exact (State.updWave_fine ..).2 h

theorem Fine.mergeMarkers (h : Fine W s) {wave q p : Nat} {t : State} (e : s.mergeMarkers wave q p = some t) : Fine W t := by
  unfold State.mergeMarkers at e
  split at e
  · cases e
  split at e
  · split at e
    · cases e
    · refine Option.some.inj e ▸ ?_
      simpa using h
  · cases e

end

/-! A parked gang on its way back (R28): its groups come from their images, so none of them is watched. -/

/-- No group of the gangs that p names is watched. -/
def Clear (W : Watch) (p : Nat → Prop) (s : State) : Prop := ∀ x ∈ s.groups, p x.gang → ¬W.names x.uid

/-- The groups are fine, and none of the gangs that p names has one that is watched. -/
structure Spare (W : Watch) (p : Nat → Prop) (s : State) : Prop where
  fine : Fine W s
  clear : Clear W p s

section
variable {W : Watch} {p : Nat → Prop} {s t : State}

theorem Clear.forall₂ (h : Clear W p s)
    (hr : List.Forall₂ (fun y x => (p y.gang → ¬W.names y.uid) → p x.gang → ¬W.names x.uid) s.groups t.groups) : Clear W p t := by
  intro x hx
  obtain ⟨y, hy, hyx⟩ := forall₂_mem_right hr hx
  exact hyx (h y hy)

theorem Clear.of_groups (h : Clear W p s) (e : t.groups = s.groups) : Clear W p t := by
  unfold Clear
  rw [e]
  exact h

theorem Clear.updGrp (h : Clear W p s) {u : Nat} {f : Grp → Grp}
    (hf : ∀ y, s.grp u = some y → (p y.gang → ¬W.names y.uid) → p (f y).gang → ¬W.names (f y).uid) : Clear W p (s.updGrp u f) :=
  h.forall₂ (forall₂_updFirst s.groups (fun _ => id) hf)

/-- A change of one group that leaves its name and gang. -/
theorem Clear.updGrp_same (h : Clear W p s) {u : Nat} {f : Grp → Grp} (hf : ∀ y, SameGrp y (f y)) : Clear W p (s.updGrp u f) :=
  h.updGrp fun y _ hy => by rwa [(hf y).uid, (hf y).gang]

theorem Clear.saveImage (h : Clear W p s) (u : Nat) : Clear W p (s.saveImage u) := by
  unfold State.saveImage
  split
  · split
    · exact Clear.updGrp_same (h.of_groups (State.writeImage_onlyMem ..).groups) fun _ => ⟨rfl, rfl⟩
    · exact h
  · exact h

theorem Clear.pushLines (h : Clear W p s) (u core n : Nat) : Clear W p (s.pushLines u core n) := by
  induction n generalizing s with
  | zero => exact h
  | succ n ih =>
    unfold State.pushLines
    dsimp only
    split
    · exact h
    · split
      · exact h
      · exact ih (h.saveImage _)

theorem Clear.fetchImage (h : Clear W p s) (u : Nat) : Clear W p (s.fetchImage u) := by
  unfold State.fetchImage
  split
  · next g hg =>
    split
    · exact h
    · refine h.updGrp fun y hy hn => ?_
      obtain rfl := Option.some.inj (hg.symm.trans hy)
      exact hn
  · exact h

theorem Clear.useImage (h : Clear W p s) (u : Nat) : Clear W p (s.useImage u) := by
  unfold State.useImage
  split
  · exact h
  · next g _ =>
    exact Clear.pushLines (Clear.updGrp_same (u := u) (f := fun x => x.usedAt s.clk) (h.fetchImage u) fun _ => ⟨rfl, rfl⟩) u g.core 64

theorem Clear.makeResident (h : Clear W p s) (u : Nat) : Clear W p (s.makeResident u) := by
  unfold State.makeResident
  split
  · exact h
  · exact Clear.of_groups (h.updGrp_same (u := u) (f := fun x => { x with place := .resident, ptsSince := s.clk - x.ptsAcc, ptsAcc := 0 })
      fun _ => ⟨rfl, rfl⟩) rfl

theorem Spare.updCore (h : Spare W p s) (c : Nat) (f : CoreState → CoreState) : Spare W p (s.updCore c f) := ⟨h.fine, h.clear⟩

theorem Spare.makeResident (h : Spare W p s) (u : Nat) : Spare W p (s.makeResident u) :=
  ⟨(State.makeResident_fine ..).2 h.fine, h.clear.makeResident u⟩

theorem Spare.foldl {α : Type} {f : State → α → State} {xs : List α} (h : ∀ s, ∀ x ∈ xs, Spare W p s → Spare W p (f s x))
    (hs : Spare W p s) : Spare W p (xs.foldl f s) := by
  induction xs generalizing s with
  | nil => exact hs
  | cons x r ih => exact ih (fun s y hy => h s y (List.mem_cons_of_mem x hy)) (h s x List.mem_cons_self hs)

/-- A group that is not watched comes from its image. -/
theorem Spare.reload (h : Spare W p s) {g : Grp} (hg : ¬W.names g.uid) (core : Nat) : Spare W p (s.reload g core) := by
  have hn {v : Nat} (e : v = g.uid) : ¬W.names v := e ▸ hg
  unfold State.reload
  split
  · refine ⟨h.fine.updGrp (keeps_of_alike fun x => by simp), h.clear.updGrp_same fun _ => ⟨rfl, rfl⟩⟩
  · dsimp only
    refine ⟨Fine.useImage ?_ fun hw => absurd hw hg, Clear.useImage ?_ _⟩
    · exact h.fine.updGrp_where fun x hx => ⟨(grp_uid hx).symm, fun hw => absurd hw (hn (grp_uid hx))⟩
    · exact h.clear.updGrp fun y _ _ _ => hg

theorem Spare.settleResumed (h : Spare W p s) {gs : List Grp} (hg : ∀ g ∈ gs, ¬W.names g.uid) (core : Nat) :
    Spare W p (s.settleResumed gs core) := by
  unfold State.settleResumed
  refine Spare.foldl (fun s g _ hs => ?_) (Spare.foldl (fun s g _ hs => ?_) (Spare.foldl (fun s g hm hs => hs.reload (hg g hm) _) h))
  · split
    · exact hs.makeResident _
    · exact hs
  · dsimp only
    split
    · exact hs.makeResident _
    · exact hs.updCore ..

theorem Spare.reloading (h : Spare W p s) (hr : Reloading s t) : Spare W p t := by
  obtain ⟨⟨ls, gs, es, xs, rfl⟩, hg⟩ := hr
  refine ⟨(fineOn_alike (hg.imp ?_)).2 h.fine, h.clear.forall₂ (hg.imp ?_)⟩
  · rintro y x ⟨a, rfl⟩
    exact ⟨rfl, rfl, rfl, rfl, rfl, .rfl, .rfl⟩
  · rintro y x ⟨a, rfl⟩
    exact id

/-- A gang none of whose groups is watched resumes. -/
theorem Spare.resumeGang (h : Spare W p s) {k : Nat} (hk : p k) (core : Nat) : Spare W p (s.resumeGang k core) := by
  cases hg : s.gang k with
  | none =>
    unfold State.resumeGang
    rw [hg]
    exact h
  | some g =>
    cases hl : s.launch g.launch with
    | none =>
      unfold State.resumeGang
      rw [hg]
      dsimp only
      rw [hl]
      exact h
    | some l =>
      rw [State.resumeGang_eq hg hl]
      have hr := h.reloading ((Reloading.resuming s k core l).trans (Reloading.readGangImage _ g core))
      refine hr.settleResumed (fun x hx => ?_) core
      have hx := (List.mem_filter.1 (List.mem_filter.1 hx).1)
      exact hr.clear x hx.1 (beq_iff_eq.1 hx.2 ▸ hk)

end

/-! A gang placed (R322): its groups have names of their own, each new, and the shape of a group with one fragment. -/

/-- A group at its start has the shape of R411: one fragment, no join, an empty stack. -/
theorem freshGroup_paired (l : Launch) (gang gangNo block gi core coreIdx uid base img pts : Nat) (under : Bool) :
    Paired (freshGroup l gang gangNo block gi core coreIdx uid base img pts under) := by
  simp [Paired, freshGroup]

/-- An outcome whose next state, if there is one, has its groups fine. -/
def FineOut (W : Watch) (o : Out) : Prop := ∀ t, o = .next t → Fine W t

section
variable {W : Watch}

@[simp] theorem fineOut_next {t : State} : FineOut W (.next t) ↔ Fine W t := ⟨fun h => h t rfl, fun h u e => by cases e; exact h⟩

@[simp] theorem fineOut_fault {f : Fault} : FineOut W (.fault f) := by simp [FineOut]

@[simp] theorem fineOut_blockStop {pa : Nat} : FineOut W (blockStop pa) := fineOut_fault

@[simp] theorem fineOut_ite {c : Prop} [Decidable c] {a b : Out} :
    FineOut W (if c then a else b) ↔ (c → FineOut W a) ∧ (¬c → FineOut W b) := by
  split <;> simp [*]

/-- Groups are added under new names. -/
theorem FineOn.append {gs hs : List Grp} {n m : Nat} (h : FineOn W gs n) (hd : (hs.map (·.uid)).Nodup)
    (hr : ∀ x ∈ hs, n ≤ x.uid ∧ x.uid < m) (hm : n ≤ m) : FineOn W (gs ++ hs) m := by
  refine ⟨?_, fun x hx => ?_, h.early.trans hm, fun x hx hw => ?_⟩
  · rw [List.map_append, List.nodup_append]
    refine ⟨h.distinct, hd, fun a ha b hb => ?_⟩
    obtain ⟨x, hx, rfl⟩ := List.mem_map.1 ha
    obtain ⟨y, hy, rfl⟩ := List.mem_map.1 hb
    exact Nat.ne_of_lt (Nat.lt_of_lt_of_le (h.below x hx) (hr y hy).1)
  · rcases List.mem_append.1 hx with hx | hx
    · exact Nat.lt_of_lt_of_le (h.below x hx) hm
    · exact (hr x hx).2
  · rcases List.mem_append.1 hx with hx | hx
    · exact h.shaped x hx hw
    · exact absurd (Nat.lt_of_lt_of_le (W.lt _ hw) (h.early.trans (hr x hx).1)) (Nat.lt_irrefl _)

/-- Groups of consecutive new names, the first after a key that is spent. -/
theorem FineOn.append_range {gs : List Grp} {n k : Nat} {f : Nat → Grp} (h : FineOn W gs n) (hf : ∀ i, (f i).uid = n + 1 + i) :
    FineOn W (gs ++ (List.range k).map f) (n + 1 + k) := by
  refine h.append ?_ (fun x hx => ?_) (by omega)
  · rw [List.map_map]
    refine List.Nodup.map (fun i j e => ?_) List.nodup_range
    have : n + 1 + i = n + 1 + j := by rw [← hf i, ← hf j]; exact e
    omega
  · obtain ⟨i, hi, rfl⟩ := List.mem_map.1 hx
    have := List.mem_range.1 hi
    rw [hf]
    omega

variable {s : State}

/-- A group of a name not watched takes its place on its core. -/
theorem Fine.useImage_other (h : Fine W s) {v : Nat} (hv : ¬W.names v) : Fine W (s.useImage v) := h.useImage fun hw => absurd hw hv

theorem Fine.placeGang (h : Fine W s) (l : Launch) (gangNo attempts pts core : Nat) (under : Bool) (img : Nat) (imgs : List Nat) :
    Fine W (s.placeGang l gangNo attempts pts core under img imgs).2 := by
  unfold State.placeGang
  dsimp only
  have hfresh (i : Nat) : ¬W.names (s.fresh + 1 + i) := fun hw => by
    have := W.lt _ hw
    have := FineOn.early h
    omega
  refine foldl_fine_mem (fun t g hg ht => ?_) ?_
  · obtain ⟨i, -, rfl⟩ := List.mem_map.1 hg
    have hu := ht.useImage_other (hfresh i)
    split
    · exact (State.makeResident_fine ..).2 hu
    · exact (State.updCore_fine ..).2 hu
  · exact FineOn.append_range h fun i => rfl

end

/-! Each event of loads, stores, copies, engines, banks and waves keeps the groups fine. -/

/-- Each watched group is in the register cache, and no gang is parked that is its gang or has that for its twin. -/
structure Here (W : Watch) (s : State) : Prop where
  held : Held W s
  placed : ∀ v, W.names v → ∀ x, s.grp v = some x → ∀ k ∈ s.gangs, (k.id = x.gang ∨ k.twin = some x.gang) → k.place ≠ .parked

theorem alike_landV (x : Grp) (n : Nat) (m : Word) (tag : BitVec 4) (y : Lanes) (p : Word) : Alike x (x.landV n m tag y p) :=
  ⟨rfl, rfl, rfl, rfl, rfl, .rfl, .rfl⟩

theorem alike_landS (x : Grp) (n : Nat) (v : Word) (p : Bool) : Alike x (x.landS n v p) := ⟨rfl, rfl, rfl, rfl, rfl, .rfl, .rfl⟩

/-- Results land in registers alone (R47). -/
theorem alike_landReq (x : Grp) (r : Req) : Alike x (x.landReq r) := by
  unfold Grp.landReq
  split
  · exact alike_refl x
  · exact alike_foldl (fun x j => alike_landS ..) x _
  · exact alike_foldl (fun x j => alike_landV ..) x _

theorem alike_landEntry (x : Grp) (p : Pending) (e : Entry) : Alike x (x.landEntry p e) := by
  unfold Grp.landEntry
  split
  · exact alike_refl x
  · exact alike_landV ..
  · exact alike_landS ..

section
variable {W : Watch} {s : State}

theorem execDeferredResultLands_fine (h : Fine W s) (id : Nat) : FineOut W (execDeferredResultLands id s) := by
  have land {t : State} (ht : Fine W t) (u : Nat) (r : Req) : Fine W (t.updImage u fun g => g.landReq r) :=
    ht.updImage (keeps_of_alike fun x => alike_landReq x r)
  unfold execDeferredResultLands
  split
  · next r _ =>
    rw [fineOut_ite]
    refine ⟨fun _ => ?_, fun _ => fineOut_next.2 h⟩
    have both : Fine W (match r.twin with
        | some (v, _) => (s.updImage r.uid fun g => g.landReq r).updImage v fun g => g.landReq r
        | none => s.updImage r.uid fun g => g.landReq r) := by
      split
      · exact land (land h _ r) _ r
      · exact land h _ r
    rw [fineOut_ite]
    exact ⟨fun _ => fineOut_next.2 ((State.dropReq_fine ..).2 both), fun _ => fineOut_next.2 ((State.updReq_fine ..).2 both)⟩
  · split
    · exact fineOut_next.2 h
    · next p _ =>
      split
      · exact fineOut_next.2 h
      · next e _ => exact fineOut_next.2 (Fine.updImage h (keeps_of_alike fun x => alike_landEntry x p e))

theorem execEmptyWaitEnd_fine (h : Fine W s) (u : Nat) (slot : Bool) : FineOut W (execEmptyWaitEnd u slot s) := by
  unfold execEmptyWaitEnd
  split
  · exact fineOut_next.2 h
  · rw [fineOut_ite]
    exact ⟨fun _ => fineOut_next.2 (h.updGrp (keeps_updSlot (h := fun _ z => { z with hold := .none }) (fun _ _ => rfl) fun _ _ => id)),
      fun _ => fineOut_next.2 h⟩

theorem execStalledPerformResume_fine (h : Fine W s) (hh : Here W s) (u : Nat) (slot : Bool) :
    FineOut W (execStalledPerformResume u slot s) := by
  unfold execStalledPerformResume
  split
  · exact fineOut_next.2 h
  dsimp only
  have taken (r : List Issue) : Fine W (({ s with stowed := r } : State).useImage u) :=
    Fine.useImage (s := { s with stowed := r }) h fun hw => hh.held u hw
  rw [fineOut_ite]
  refine ⟨fun _ => ?_, fun _ => fineOut_next.2 (fine_ite.2 ⟨fun _ => h, fun _ => ?_⟩)⟩
  · split
    · next t ht =>
      refine fineOut_next.2 (fine_ite.2 ⟨fun _ => h, fun _ => ?_⟩)
      rw [fine_mk]
      exact (taken _).finishScene ht
    · exact fun t ht => (taken _).finishScene ht
  · exact (State.lateWork_fine ..).2 ((taken _).runPerform _)

theorem execPreemptionRequest_fine (h : Fine W s) (gang : Nat) :
    FineOut W (execPreemptionRequest gang s) := by
  simp [execPreemptionRequest, h, Fine.askEvict]

/-- A parked gang and its twin have no watched group. -/
theorem Here.spare (hh : Here W s) (h : Fine W s) {k : Nat} {g : Gang} (hg : s.gang k = some g) (hp : g.place = .parked) :
    Spare W (fun v => v = k ∨ g.twin = some v) s := by
  refine ⟨h, fun x hx hk hw => hh.placed x.uid hw x (grp_of_mem h.distinct hx) g (List.mem_of_find?_eq_some hg) ?_ hp⟩
  exact hk.imp_left fun e => (State.gang_id hg).trans e.symm

theorem execGroupResume_fine (h : Fine W s) (hh : Here W s) (gang core : Nat) : FineOut W (execGroupResume gang core s) := by
  unfold execGroupResume
  split
  · exact fineOut_next.2 h
  next g hg =>
  split
  · exact fineOut_next.2 h
  dsimp only
  rw [fineOut_ite]
  refine ⟨fun hw => ?_, fun _ => fineOut_next.2 h⟩
  have hp : g.place = .parked := by
    have hw := hw.1
    simp only [State.wantsPlace, Bool.and_eq_true, beq_iff_eq] at hw
    exact hw.1.1
  have hs := hh.spare h hg hp
  rw [fineOut_ite, fineOut_ite]
  refine ⟨fun _ => ?_, fun _ => ⟨fun _ => fineOut_next.2 h, fun _ => fineOut_next.2 (h.makeRoom ..)⟩⟩
  split
  · exact fineOut_next.2 (hs.resumeGang (.inl rfl) core).fine
  · next t ht =>
    split
    · exact fineOut_next.2 ((hs.resumeGang (.inl rfl) core).resumeGang (.inr ht) _).fine
    · exact fineOut_next.2 h

theorem execParkedGroupReady_fine (h : Fine W s) (u : Nat) :
    FineOut W (execParkedGroupReady u s) := by
  unfold execParkedGroupReady
  repeat' split
  all_goals simp [h]

theorem execPtsSelfIncrement_fine (h : Fine W s) (u : Nat) : FineOut W (execPtsSelfIncrement u s) := by
  unfold execPtsSelfIncrement
  split
  · exact fineOut_next.2 h
  · rw [fineOut_ite]
    exact ⟨fun _ => fineOut_next.2 (h.updGrp (keeps_of_alike fun x => ⟨rfl, rfl, rfl, rfl, rfl, .rfl, .rfl⟩)), fun _ => fineOut_next.2 h⟩

theorem execLineEviction_fine (h : Fine W s) (line : Nat) :
    FineOut W (execLineEviction line s) := by
  simp [execLineEviction, h]

/-- A load's value from a copy or its home. -/
theorem loaded_fine {near : Option (Copy × Bool)} {m : Option Nat} {g : Grp} {pa n : Nat} {cls : Class}
    {policy : Policy} {bs : List Byte} {pois : Bool} {t : State} (h : Fine W s)
    (e : (match near with
      | some (c, l1) => some (s.loadHit g c l1 pa n)
      | none =>
        match m with
        | some m => some (s.loadHome g pa n m cls policy true)
        | none => none) = some (bs, pois, t)) : Fine W t := by
  rcases near with _ | ⟨c, l1⟩
  · rcases m with _ | m
    · cases e
    · have ht : (s.loadHome g pa n m cls policy true).2.2 = t := congrArg (·.2.2) (Option.some.inj e)
      exact ht ▸ (State.loadHome_fine ..).2 h
  · have ht : (s.loadHit g c l1 pa n).2.2 = t := congrArg (·.2.2) (Option.some.inj e)
    exact ht ▸ (State.loadHit_fine ..).2 h

theorem execHomeLoad_fine (h : Fine W s) (r i : Nat) : FineOut W (execHomeLoad r i s) := by
  unfold execHomeLoad
  dsimp only
  repeat' split
  all_goals simp [h]
  · next hx => exact loaded_fine h hx
  · next hx => exact loaded_fine (near := none) h hx

theorem execHomeStore_fine (h : Fine W s) (r i : Nat) :
    FineOut W (execHomeStore r i s) := by
  unfold execHomeStore
  dsimp only
  repeat' split
  all_goals simp [h]

theorem execHomeAtomic_fine (h : Fine W s) (pkt : Nat) : FineOut W (execHomeAtomic pkt s) := by
  unfold execHomeAtomic
  split
  · exact fineOut_next.2 h
  split
  · dsimp only
    simp only [fineOut_ite, fineOut_next]
    refine ⟨fun _ => h, fun _ => ⟨fun _ => (State.await_fine ..).2 h, fun _ => ⟨fun _ => (State.demand_fine ..).2 h, fun _ => ?_⟩⟩⟩
    refine ⟨fun _ => ?_, fun _ => ?_⟩
    · rw [fine_mk]
      refine Fine.takeKey ?_
      simp [h]
    · simp [h]
  · exact fineOut_next.2 h

theorem execStoreAcknowledge_fine (h : Fine W s) (r : Nat) :
    FineOut W (execStoreAcknowledge r s) := by
  unfold execStoreAcknowledge
  dsimp only
  repeat' split
  all_goals simp [h]

theorem execWcSectorTimeout_fine (h : Fine W s) (core i : Nat) :
    FineOut W (execWcSectorTimeout core i s) := by
  unfold execWcSectorTimeout
  repeat' split
  all_goals simp [h]

theorem execGatherWindowExpiry_fine (h : Fine W s) (r : Nat) :
    FineOut W (execGatherWindowExpiry r s) := by
  unfold execGatherWindowExpiry
  dsimp only
  repeat' split
  all_goals simp [h]

theorem execGatherWake_fine (h : Fine W s) (r : Nat) :
    FineOut W (execGatherWake r s) := by
  unfold execGatherWake
  repeat' split
  all_goals simp [h]

theorem execAgentLineRelease_fine (h : Fine W s) (cmd line : Nat) : FineOut W (execAgentLineRelease cmd line s) := by
  unfold execAgentLineRelease
  split
  · simp [h]
  split
  · exact fineOut_next.2 h
  rw [fineOut_ite]
  refine ⟨fun _ => fineOut_next.2 h, fun _ => fineOut_next.2 ?_⟩
  rw [fine_mk]
  split
  · exact (State.fireWatches_fine ..).2 ((State.stampLine_fine ..).2 h)
  · exact h

theorem execCopyRetire_fine (h : Fine W s) (r : Nat) : FineOut W (execCopyRetire r s) := by
  unfold execCopyRetire
  split
  · exact fineOut_next.2 h
  rw [fineOut_ite, fineOut_ite]
  refine ⟨fun _ => fineOut_next.2 ((State.moveCopy_fine ..).2 h), fun _ => ⟨fun _ => fineOut_next.2 h, fun _ => fineOut_next.2 ?_⟩⟩
  rw [State.endCopy_fine]
  refine foldl_fine (fun s kn hs => ?_) (foldl_fine (fun s b hs => ?_) (foldl_fine (fun s l hs => ?_) ?_ _) _) _
  · simpa using hs
  · simpa using hs
  · exact (State.imprecise_fine ..).2 hs
  · simpa using h

theorem execFencePerform_fine (h : Fine W s) (u : Nat) : FineOut W (execFencePerform u s) := by
  have wake {t : State} (ht : Fine W t) (slot : Bool) : Fine W (match t.grp u with
      | none => t
      | some x => if (x.slot slot).st == .waiting && (x.slot slot).wait == .fence then t.endWait u slot else t) := by
    split
    · exact ht
    · exact fine_ite.2 ⟨fun _ => ht.endWait u slot, fun _ => ht⟩
  unfold execFencePerform
  split
  · exact fineOut_next.2 h
  · rw [fineOut_ite]
    exact ⟨fun _ => fineOut_next.2 (wake (wake (h.performFence ..) false) true), fun _ => fineOut_next.2 h⟩

theorem execDrainComplete_fine (h : Fine W s) (u : Nat) (slot : Bool) :
    FineOut W (execDrainComplete u slot s) := by
  unfold execDrainComplete
  dsimp only
  repeat' split
  all_goals simp [h, Fine.endWait]

theorem execMwaitWatchFire_fine (h : Fine W s) (u : Nat) (slot : Bool) :
    FineOut W (execMwaitWatchFire u slot s) := by
  unfold execMwaitWatchFire
  dsimp only
  repeat' split
  all_goals simp [h, Fine.mwaitTry]

theorem execMwaitPoll_fine (h : Fine W s) (u : Nat) (slot : Bool) :
    FineOut W (execMwaitPoll u slot s) := by
  unfold execMwaitPoll
  dsimp only
  repeat' split
  all_goals simp [h, Fine.mwaitTry]

theorem execSequencerIssue_fine (h : Fine W s) (cmd : Nat) :
    FineOut W (execSequencerIssue cmd s) := by
  unfold execSequencerIssue
  dsimp only
  repeat' split
  all_goals simp [h]

theorem execWloadRetire_fine (h : Fine W s) (cmd : Nat) :
    FineOut W (execWloadRetire cmd s) := by
  unfold execWloadRetire
  dsimp only
  repeat' split
  all_goals simp [h, Fine.wakeWaits]

theorem execWfreeRetire_fine (h : Fine W s) (cmd : Nat) :
    FineOut W (execWfreeRetire cmd s) := by
  unfold execWfreeRetire
  repeat' split
  all_goals simp [h, Fine.wakeWaits]

theorem execEngineOutputEntry_fine (h : Fine W s) (cmd : Nat) :
    FineOut W (execEngineOutputEntry cmd s) := by
  unfold execEngineOutputEntry
  dsimp only
  repeat' split
  all_goals simp [h]

theorem execStageRetire_fine (h : Fine W s) (cmd : Nat) :
    FineOut W (execStageRetire cmd s) := by
  unfold execStageRetire
  repeat' split
  all_goals simp [h, Fine.wakeWaits]

theorem execRehearsalHeld_fine (h : Fine W s) (cmd : Nat) :
    FineOut W (execRehearsalHeld cmd s) := by
  unfold execRehearsalHeld
  dsimp only
  repeat' split
  all_goals simp [h]

theorem execEngineBitstepReplay_fine (h : Fine W s) (core : Nat) :
    FineOut W (execEngineBitstepReplay core s) := by
  simp [execEngineBitstepReplay, h, Fine.countLte]

theorem execBankCommandComplete_fine (h : Fine W s) (cmd : Nat) :
    FineOut W (execBankCommandComplete cmd s) := by
  unfold execBankCommandComplete
  dsimp only
  repeat' split
  all_goals simp [h]

theorem execBankRowWrite_fine (h : Fine W s) (cmd line : Nat) :
    FineOut W (execBankRowWrite cmd line s) := by
  unfold execBankRowWrite
  repeat' split
  all_goals simp [h, Fine.waveLine]

theorem execDemandWaitTimeout_fine (h : Fine W s) (bank : Nat) :
    FineOut W (execDemandWaitTimeout bank s) := by
  unfold execDemandWaitTimeout
  dsimp only
  repeat' split
  all_goals simp [h]

theorem execBankRefresh_fine (h : Fine W s) (bank : Nat) :
    FineOut W (execBankRefresh bank s) := by
  unfold execBankRefresh
  repeat' split
  all_goals simp [h]

theorem execWaveArrival_fine (h : Fine W s) (wave : Nat) : FineOut W (execWaveArrival wave s) := by
  unfold execWaveArrival
  split
  · exact fineOut_next.2 h
  · rw [fineOut_ite]
    exact ⟨fun _ => fineOut_next.2 h,
      fun _ => fineOut_next.2 (Fine.wakeWaits ((State.updLaunch_fine ..).2 ((State.updWave_fine ..).2 h.takeKey)))⟩

theorem execGbindApply_fine (h : Fine W s) (wave : Nat) :
    FineOut W (execGbindApply wave s) := by
  unfold execGbindApply
  dsimp only
  repeat' split
  all_goals simp [h, Fine.wakeWaits]

theorem execWaveStart_fine (h : Fine W s) (wave : Nat) :
    FineOut W (execWaveStart wave s) := by
  unfold execWaveStart
  dsimp only
  repeat' split
  all_goals simp [h, Fine.tryRound, Fine.endWave, Fine.loseWave]

theorem execMarkerMessage_fine (h : Fine W s) (wave i : Nat) : FineOut W (execMarkerMessage wave i s) := by
  unfold execMarkerMessage
  split
  · exact fineOut_next.2 h
  split
  · exact fineOut_next.2 h
  rw [fineOut_ite]
  refine ⟨fun _ => fineOut_next.2 h, fun _ => ?_⟩
  split
  · exact fineOut_next.2 (h.stopWave _)
  split
  · next hb => exact fineOut_next.2 (h.waveBlocked hb)
  dsimp only
  split
  · exact fineOut_next.2 (h.stopWave _)
  next hu =>
  have hu := Fine.fed ((State.take_fine ..).2 ((State.dropPkt_fine ..).2 ((State.updWave_fine ..).2 h))) hu
  rw [fineOut_ite]
  refine ⟨fun _ => ?_, fun _ => fineOut_next.2 hu⟩
  split
  · next hy => exact fineOut_next.2 ((hu.sendFrom hy).dispatch ..)
  · exact fineOut_next.2 h
  · exact fineOut_next.2 (hu.loseWave _)

theorem execWeightReturn_fine (h : Fine W s) (wave bank : Nat) : FineOut W (execWeightReturn wave bank s) := by
  unfold execWeightReturn
  split
  · exact fineOut_next.2 h
  split
  · exact fineOut_next.2 (Fine.countReturn ((State.dropPkt_fine ..).2 h) _ _)
  split
  · exact fineOut_next.2 h
  · rw [fineOut_ite]
    refine ⟨fun _ => fineOut_next.2 h, fun _ => fineOut_next.2 ?_⟩
    rw [fine_mk]
    exact h.takeKey

theorem execWeightLoan_fine (h : Fine W s) (wave bank : Nat) : FineOut W (execWeightLoan wave bank s) := by
  unfold execWeightLoan
  split
  · exact fineOut_next.2 h
  · simp only [fineOut_ite, fineOut_next]
    refine ⟨fun _ => h, fun _ => ⟨fun _ => fine_ite.2 ⟨fun _ => h, fun _ => h.dispatch ..⟩, fun _ => Fine.dispatch ?_ ..⟩⟩
    simpa using h

theorem execCollectPush_fine (h : Fine W s) (wave : Nat) :
    FineOut W (execCollectPush wave s) := by
  unfold execCollectPush
  dsimp only
  repeat' split
  all_goals simp [h, Fine.loseWave, Fine.moveWave]

end

/-! Each event of launches, system software, margins and failures keeps the groups fine. -/

section
variable {W : Watch} {s : State}

theorem execLaunchWatchFire_fine (h : Fine W s) (part queue : Nat) : FineOut W (execLaunchWatchFire part queue s) := by
  have hs (k : Nat × Nat) : Fine W (s.served k).takeKey.2 := ((State.served_fine ..).2 h).takeKey
  simp only [execLaunchWatchFire]
  rw [fineOut_ite]
  refine ⟨fun _ => fineOut_next.2 h, fun _ => ?_⟩
  split
  · exact fineOut_next.2 h
  simp only [fineOut_ite, fineOut_next]
  refine ⟨fun _ => h, fun _ => ⟨fun _ => (State.demand_fine ..).2 h, fun _ => ⟨fun _ => (State.startLaunch_fine ..).2 ?_, fun _ => ?_⟩⟩⟩
  all_goals
    rw [fine_mk]
    split
    · split <;> simp [hs]
    · split <;> simp [h.takeKey]

theorem execPredecessorRelease_fine (h : Fine W s) (launch : Nat) :
    FineOut W (execPredecessorRelease launch s) := by
  unfold execPredecessorRelease
  repeat' split
  all_goals simp [h]

/-- The groups of two gangs become each other's twins (R358). -/
theorem Fine.twinGroups (h : Fine W s) (a b d : Nat) : Fine W { s with groups := s.groups.map fun g =>
    if g.gang = a then { g with twin := some (g.uid + d) } else if g.gang = b then { g with twin := some (g.uid - d) } else g } := by
  refine h.updGrps (keeps_of_alike fun x => ?_)
  rw [alike_ite, alike_ite]
  exact ⟨fun _ => by simp, fun _ => ⟨fun _ => by simp, fun _ => alike_refl x⟩⟩

theorem execGangPlacement_fine (h : Fine W s) (cluster launch core : Nat) : FineOut W (execGangPlacement cluster launch core s) := by
  have taken : Fine W (s.updLaunch launch fun x => x.takeGang cluster s.clk) := (State.updLaunch_fine ..).2 h
  unfold execGangPlacement
  split
  · exact fineOut_next.2 h
  split
  · exact fineOut_next.2 h
  rw [fineOut_ite]
  refine ⟨fun _ => fineOut_next.2 h, fun _ => ?_⟩
  dsimp only
  split
  · rw [fineOut_ite]
    refine ⟨fun _ => ?_, fun _ => fineOut_next.2 (taken.placeGang ..)⟩
    split
    · split
      · exact fineOut_next.2 (h.makeRoom ..)
      · exact fineOut_next.2 h
    · refine fineOut_next.2 (Fine.twinGroups ?_ ..)
      rw [State.updGang_fine, State.updGang_fine]
      exact (taken.placeGang ..).placeGang ..
  · rw [fineOut_ite]
    exact ⟨fun _ => fineOut_next.2 h, fun _ => fineOut_next.2 (h.makeRoom ..)⟩

theorem execGangSteal_fine (h : Fine W s) (cluster launch victim : Nat) :
    FineOut W (execGangSteal cluster launch victim s) := by
  unfold execGangSteal
  dsimp only
  repeat' split
  all_goals simp [h]

theorem execClusterClear_fine (h : Fine W s) (cluster launch core : Nat) :
    FineOut W (execClusterClear cluster launch core s) := by
  unfold execClusterClear
  dsimp only
  repeat' split
  · exact fineOut_next.2 h
  · exact fineOut_next.2 (foldl_fine (fun s g hs => hs.askEvict g) ((State.updLaunch_fine ..).2 h) _)
  · exact fineOut_next.2 h
  · exact fineOut_next.2 h

theorem execProgressEviction_fine (h : Fine W s) (launch : Nat) :
    FineOut W (execProgressEviction launch s) := by
  unfold execProgressEviction
  dsimp only
  repeat' split
  all_goals simp [h, Fine.askEvict]

theorem execLaunchCompletion_fine (h : Fine W s) (launch : Nat) :
    FineOut W (execLaunchCompletion launch s) := by
  unfold execLaunchCompletion
  repeat' split
  all_goals simp [h]

theorem execCallboardAgeTrigger_fine (h : Fine W s) (part ring : Nat) :
    FineOut W (execCallboardAgeTrigger part ring s) := by
  unfold execCallboardAgeTrigger
  dsimp only
  repeat' split
  all_goals simp [h]

theorem execCallboardHoldRelease_fine (h : Fine W s) (launch : Nat) :
    FineOut W (execCallboardHoldRelease launch s) := by
  unfold execCallboardHoldRelease
  repeat' split
  all_goals simp [h]

theorem execParkRetry_fine (h : Fine W s) (hh : Here W s) (part slot : Nat) : FineOut W (execParkRetry part slot s) :=
  fineOut_next.2 (h.parkRetry hh.held part slot)

theorem execParkDeliver_fine (h : Fine W s) (hh : Here W s) (part slot : Nat) : FineOut W (execParkDeliver part slot s) :=
  fineOut_next.2 (h.parkDeliver hh.held part slot)

theorem execParkKillGang_fine (h : Fine W s) (part slot : Nat) :
    FineOut W (execParkKillGang part slot s) := by
  simp [execParkKillGang, h, Fine.parkKill]

theorem execQuiesce_fine (h : Fine W s) (part : Nat) :
    FineOut W (execQuiesce part s) := by
  simp [execQuiesce, h, Fine.doQuiesce]

theorem execRebase_fine (h : Fine W s) (part : Nat) :
    FineOut W (execRebase part s) := by
  simp [execRebase, h, Fine.askRebase]

theorem execTeardown_fine (h : Fine W s) (part : Nat) :
    FineOut W (execTeardown part s) := by
  simp [execTeardown, h, Fine.teardownPart]

theorem execTeardownClear_fine (h : Fine W s) (part : Nat) :
    FineOut W (execTeardownClear part s) := by
  simp [execTeardownClear, h]

theorem execShootdownGo_fine (h : Fine W s) (part : Nat) (value : Word) : FineOut W (execShootdownGo part value s) :=
  fineOut_next.2 (h.doShootdown part value)

theorem execShootdownDone_fine (h : Fine W s) (part : Nat) :
    FineOut W (execShootdownDone part s) := by
  unfold execShootdownDone
  repeat' split
  all_goals simp [h]

theorem execPartidWrite_fine (h : Fine W s) (core : Nat) (value : Word) :
    FineOut W (execPartidWrite core value s) := by
  simp [execPartidWrite, h, Fine.hartWriteReg]

theorem execPtrootWrite_fine (h : Fine W s) (core : Nat) (value : Word) :
    FineOut W (execPtrootWrite core value s) := by
  simp [execPtrootWrite, h, Fine.hartWriteReg]

theorem execGraphctlWrite_fine (h : Fine W s) (part r : Nat) (value : Word) :
    FineOut W (execGraphctlWrite part r value s) := by
  simp [execGraphctlWrite, h]

theorem execMarginWrite_fine (h : Fine W s) (core : Nat) (value : Word) :
    FineOut W (execMarginWrite core value s) := by
  simp [execMarginWrite, h, Fine.hartWriteReg]

theorem execLtelimWrite_fine (h : Fine W s) (core : Nat) (value : Word) :
    FineOut W (execLtelimWrite core value s) := by
  simp [execLtelimWrite, h, Fine.hartWriteReg]

theorem execLtewinWrite_fine (h : Fine W s) (core : Nat) (value : Word) :
    FineOut W (execLtewinWrite core value s) := by
  simp [execLtewinWrite, h, Fine.hartWriteReg]

theorem execQuarWrite_fine (h : Fine W s) (core : Nat) (value : Word) :
    FineOut W (execQuarWrite core value s) := by
  simp [execQuarWrite, h, Fine.hartWriteReg]

theorem execHealthWrite_fine (h : Fine W s) (die : Nat) (value : Word) :
    FineOut W (execHealthWrite die value s) := by
  simp [execHealthWrite, h, Fine.hartWriteReg]

theorem execRegisterWrite_fine (h : Fine W s) (hh : Here W s) (reg : RegAddr) (value : Word) :
    FineOut W (execRegisterWrite reg value s) := by
  unfold execRegisterWrite
  repeat' split
  all_goals simp [h, Fine.hartWriteReg, h.writeUnit hh.held]

theorem execLateTransitionEvent_fine (h : Fine W s) (core : Nat) :
    FineOut W (execLateTransitionEvent core s) := by
  simp [execLateTransitionEvent, h, Fine.countLte]

theorem execLteWindowExpiry_fine (h : Fine W s) (core : Nat) :
    FineOut W (execLteWindowExpiry core s) := by
  unfold execLteWindowExpiry
  dsimp only
  repeat' split
  all_goals simp [h]

theorem execSliceErrorThreshold_fine (h : Fine W s) (die slice : Nat) :
    FineOut W (execSliceErrorThreshold die slice s) := by
  unfold execSliceErrorThreshold
  dsimp only
  repeat' split
  all_goals simp [h]

theorem execImpreciseError_fine (h : Fine W s) (kind : ErrKind) (slot : Nat) (ord : BitVec 8) (pa : Nat) :
    FineOut W (execImpreciseError kind slot ord pa s) := by
  unfold execImpreciseError
  dsimp only
  repeat' split
  all_goals simp [h]

/-- The points that two copies have both passed are forgotten (R361). -/
theorem alike_passed (x : Grp) : Alike x (match x.points with
    | [] => x
    | p :: r => { x with held := x.held.drop p.2, points := r.map fun q => (q.1, q.2 - p.2), lax := x.lax.drop 1 }) := by
  split
  · exact alike_refl x
  · exact ⟨rfl, rfl, rfl, rfl, rfl, .rfl, .rfl⟩

theorem execUnderstudyCompare_fine (h : Fine W s) (u : Nat) : FineOut W (execUnderstudyCompare u s) := by
  unfold execUnderstudyCompare
  split
  · exact fineOut_next.2 h
  split
  · exact fineOut_next.2 h
  split
  · dsimp only
    rw [fineOut_ite]
    refine ⟨fun _ => fineOut_next.2 (Fine.settleGang ?_ _), fun _ => fineOut_next.2 (Fine.gangFate ?_ ..)⟩
    · exact ((h.releaseHeldStores ..).updGrp (keeps_of_alike alike_passed)).updGrp (keeps_of_alike alike_passed)
    · simp [h]
  · exact fineOut_next.2 h

theorem execDieFailure_fine (h : Fine W s) (die : Nat) :
    FineOut W (execDieFailure die s) := by
  simp [execDieFailure, h, Fine.loseDie]

theorem execDieLinkFailure_fine (h : Fine W s) (die port : Nat) (full : Bool) :
    FineOut W (execDieLinkFailure die port full s) := by
  unfold execDieLinkFailure
  dsimp only
  repeat' split
  all_goals simp [h, Fine.loseDiesSince]

theorem execThermalGate_fine (h : Fine W s) (die : Nat) :
    FineOut W (execThermalGate die s) := by
  simp [execThermalGate, h]

theorem execThermalStop_fine (h : Fine W s) (die : Nat) :
    FineOut W (execThermalStop die s) := by
  simp [execThermalStop, h, Fine.loseDie]

end

/-! Each event of the fabric, the ports and boot keeps the groups fine. -/

section
variable {W : Watch} {s : State}

theorem execCombineRequestArrival_fine (h : Fine W s) (pkt : Nat) : FineOut W (execCombineRequestArrival pkt s) := by
  unfold execCombineRequestArrival
  dsimp only
  repeat' split
  all_goals simp [h, Fine.makeRecord]
  next hm => exact h.mergeMarkers hm

theorem execCombineHoldExpiry_fine (h : Fine W s) (pkt : Nat) :
    FineOut W (execCombineHoldExpiry pkt s) := by
  unfold execCombineHoldExpiry
  repeat' split
  all_goals simp [h]

theorem execReplySplit_fine (h : Fine W s) (reply : Nat) : FineOut W (execReplySplit reply s) := by
  unfold execReplySplit
  dsimp only
  repeat' split
  all_goals simp [h, Fine.sendReply]

theorem execRecoverReply_fine (h : Fine W s) (reply : Nat) : FineOut W (execRecoverReply reply s) := by
  unfold execRecoverReply
  dsimp only
  repeat' split
  all_goals simp [h]

theorem execRecordExpiry_fine (h : Fine W s) (record : Nat) :
    FineOut W (execRecordExpiry record s) := by
  unfold execRecordExpiry
  dsimp only
  repeat' split
  all_goals simp [h]

theorem execSwitchReset_fine (h : Fine W s) (die stage switch : Nat) :
    FineOut W (execSwitchReset die stage switch s) := by
  simp [execSwitchReset, h]

theorem execCombtestDisarm_fine (h : Fine W s) (die : Nat) (value : Word) :
    FineOut W (execCombtestDisarm die value s) := by
  simp [execCombtestDisarm, h, Fine.combtestStore]

theorem execCombtestCorruptCopy_fine (h : Fine W s) (die : Nat) (value : Word) :
    FineOut W (execCombtestCorruptCopy die value s) := by
  simp [execCombtestCorruptCopy, h, Fine.combtestStore]

theorem execCombtestLoseRecord_fine (h : Fine W s) (die : Nat) (value : Word) :
    FineOut W (execCombtestLoseRecord die value s) := by
  simp [execCombtestLoseRecord, h, Fine.combtestStore]

theorem execCombtestResetSwitch_fine (h : Fine W s) (die : Nat) (value : Word) :
    FineOut W (execCombtestResetSwitch die value s) := by
  simp [execCombtestResetSwitch, h, Fine.combtestStore]

/-- A request that is answered with a NAK, or waits. -/
theorem Fine.nak (h : Fine W s) (p : NetPacket) (a : Nat) (invalid : Bool) : FineOut W (s.nak p a invalid) := by
  simp [State.nak, h]

theorem execRdmaWrite_fine (h : Fine W s) (p : NetPacket) :
    FineOut W (execRdmaWrite p s) := by
  unfold execRdmaWrite
  dsimp only
  repeat' split
  all_goals simp [h, h.nak]

theorem execRdmaRead_fine (h : Fine W s) (p : NetPacket) :
    FineOut W (execRdmaRead p s) := by
  unfold execRdmaRead
  dsimp only
  repeat' split
  all_goals simp [h, h.nak]

theorem execAtomicFetchAdd_fine (h : Fine W s) (p : NetPacket) :
    FineOut W (execAtomicFetchAdd p s) := by
  unfold execAtomicFetchAdd
  dsimp only
  repeat' split
  all_goals simp [h, h.nak]

theorem execInvalidRequest_fine (h : Fine W s) (p : NetPacket) :
    FineOut W (execInvalidRequest p s) := by
  unfold execInvalidRequest
  repeat' split
  all_goals simp [h, h.nak]

theorem execDeviceDma_fine (h : Fine W s) (q : DmaRequest) :
    FineOut W (execDeviceDma q s) := by
  unfold execDeviceDma
  dsimp only
  repeat' split
  all_goals simp [h]

theorem execPldmMonitoring_fine (h : Fine W s) (die : Nat) :
    FineOut W (execPldmMonitoring die s) := by
  simp [execPldmMonitoring, h]

theorem execPldmFirmwareUpdate_fine (h : Fine W s) (f : Flash) :
    FineOut W (execPldmFirmwareUpdate f s) := by
  simp [execPldmFirmwareUpdate, h]

theorem execSpdmMeasurements_fine (h : Fine W s) :
    FineOut W (execSpdmMeasurements s) := by
  simp [execSpdmMeasurements, h]

/-- A configuration record applied to a die (R403). -/
theorem Fine.applyRecord (h : Fine W s) (r : ConfigRecord) (die : Nat) : Fine W (s.applyRecord r die) := by
  unfold State.applyRecord
  dsimp only
  rw [State.updDie_fine]
  refine foldl_fine (fun s c hs => Fine.quarantine ((State.updCore_fine ..).2 hs) c) ?_ _
  refine (foldl_fine_iff (fun s x => ?_) _).2 ((foldl_fine_iff (fun s c => State.updCore_fine ..) _).2 h)
  exact (State.alarm_fine ..).trans (State.healthEvent_fine ..)

theorem execPowerOnBoot_fine (h : Fine W s) : FineOut W (execPowerOnBoot s) := by
  have applied (ds : List Nat) : Fine W (ds.foldl (fun s d => s.applyRecord s.flash.record d) s) :=
    foldl_fine (fun s d hs => hs.applyRecord ..) h ds
  unfold execPowerOnBoot
  simp only [fineOut_ite, fineOut_next]
  refine ⟨fun _ => h, fun _ => ⟨fun _ => ?_, fun _ => applied _⟩⟩
  rw [fine_mk]
  exact (foldl_fine_iff (fun s d => State.updDie_fine ..) _).2 (applied _)

theorem execThermalUngate_fine (h : Fine W s) (die : Nat) :
    FineOut W (execThermalUngate die s) := by
  simp [execThermalUngate, h]

theorem execBisnpResponse_fine (h : Fine W s) (cmd line : Nat) :
    FineOut W (execBisnpResponse cmd line s) := by
  unfold execBisnpResponse
  dsimp only
  repeat' split
  all_goals simp [h]

theorem execHomeLogExpiry_fine (h : Fine W s) (entry : Nat) :
    FineOut W (execHomeLogExpiry entry s) := by
  unfold execHomeLogExpiry
  repeat' split
  all_goals simp [h]

/-- A fragment waits at its header, or its scene is in issue (R48). -/
theorem Fine.atHeader (h : Fine W s) (u : Nat) (slot : Bool) {f : Slot → Slot} (hj : ∀ y, (f y).join = y.join)
    (he : ∀ y, (f y).st = .empty → y.st = .empty) : Fine W (s.updGrp u fun y => y.updSlot slot f) :=
  h.updGrp (keeps_updSlot (h := fun _ => f) (fun _ => hj) fun _ => he)

theorem execScene_fine (h : Fine W s) (l : BitVec 5) : FineOut W (execScene l s) := by
  unfold execScene
  rw [fineOut_ite]
  refine ⟨fun _ => fineOut_next.2 h, fun _ => ?_⟩
  dsimp only
  split
  · exact fineOut_next.2 h
  rw [fineOut_ite]
  refine ⟨fun _ => fineOut_next.2 h, fun _ => ?_⟩
  have touched {k p : Nat} {vas : List Nat} : Fine W (({ s with iss := {} } : State).touchTlb k p vas) := (State.touchTlb_fine ..).2 h
  split
  · exact fineOut_next.2 (touched.takeTrap ..)
  · exact fineOut_fault
  · exact fineOut_next.2 (touched.atHeader _ _ (fun _ => rfl) fun _ => id)
  · exact fineOut_next.2 (touched.atHeader _ _ (fun _ => rfl) fun _ => nofun)
  · refine fineOut_next.2 ?_
    rw [fine_mk]
    exact touched.updGrp ((keeps_of_alike fun x => ⟨rfl, rfl, rfl, rfl, rfl, .rfl, .rfl⟩).comp
      (keeps_updSlot (fun _ _ => rfl) fun _ _ => id))

theorem execSceneEnd_fine (h : Fine W s) (x y z : BitVec 8) : FineOut W (execSceneEnd x y z s) := by
  unfold execSceneEnd
  rw [fineOut_ite]
  exact ⟨fun _ _ e => Fine.finishScene (s := { s with iss := {} }) h e, fun _ => fineOut_next.2 h⟩

end

/-! Each move keeps the groups fine, and so does what settles after it. -/

section
variable {W : Watch} {s : State}

theorem Here.of_eq {t : State} (h : Here W s) (hg : t.groups = s.groups) (hk : t.gangs = s.gangs) : Here W t := by
  have hgrp (v : Nat) : t.grp v = s.grp v := by rw [State.grp, hg, State.grp]
  refine ⟨h.held.of_groups hg, fun v hv x hx k hm => ?_⟩
  rw [hgrp] at hx
  rw [hk] at hm
  exact h.placed v hv x hx k hm

theorem Fine.word (h : Fine W s) (i : Instr) (f : Issue → Except Trap Issue) : FineOut W (s.word i f) := by
  unfold State.word
  dsimp only
  rw [fineOut_ite, fineOut_ite]
  refine ⟨fun _ => ⟨fun _ => ?_, fun _ => fineOut_next.2 (h.trapScene _)⟩, fun _ => fineOut_next.2 h⟩
  split
  · exact fineOut_next.2 h
  · exact fineOut_next.2 (h.trapScene _)

/-- Every instruction's and event's outcome has its groups fine. -/
theorem exec_fine (i : Instr) (h : Fine W s) (hh : Here W s) : FineOut W (exec i s) := by
  by_cases hw : isWord i = true
  · by_cases hs : ∃ l, i = .scene l
    · obtain ⟨l, rfl⟩ := hs
      exact execScene_fine h l
    by_cases he : ∃ x y z, i = .sceneEnd x y z
    · obtain ⟨x, y, z, rfl⟩ := he
      exact execSceneEnd_fine h x y z
    obtain ⟨f, hx⟩ := exec_word s hw (fun l e => hs ⟨l, e⟩) fun x y z e => he ⟨x, y, z, e⟩
    rw [hx]
    exact h.word i f
  · cases i
    case deferredResultLands r => exact execDeferredResultLands_fine h r
    case emptyWaitEnd u slot => exact execEmptyWaitEnd_fine h u slot
    case stalledPerformResume u slot => exact execStalledPerformResume_fine h hh u slot
    case preemptionRequest gang => exact execPreemptionRequest_fine h gang
    case groupResume gang core => exact execGroupResume_fine h hh gang core
    case parkedGroupReady u => exact execParkedGroupReady_fine h u
    case ptsSelfIncrement u => exact execPtsSelfIncrement_fine h u
    case lineEviction line => exact execLineEviction_fine h line
    case homeLoad r k => exact execHomeLoad_fine h r k
    case homeStore r k => exact execHomeStore_fine h r k
    case homeAtomic pkt => exact execHomeAtomic_fine h pkt
    case storeAcknowledge r => exact execStoreAcknowledge_fine h r
    case wcSectorTimeout core k => exact execWcSectorTimeout_fine h core k
    case gatherWindowExpiry r => exact execGatherWindowExpiry_fine h r
    case gatherWake r => exact execGatherWake_fine h r
    case agentLineRelease cmd line => exact execAgentLineRelease_fine h cmd line
    case copyRetire cmd => exact execCopyRetire_fine h cmd
    case fencePerform u => exact execFencePerform_fine h u
    case drainComplete u slot => exact execDrainComplete_fine h u slot
    case mwaitWatchFire u slot => exact execMwaitWatchFire_fine h u slot
    case mwaitPoll u slot => exact execMwaitPoll_fine h u slot
    case sequencerIssue cmd => exact execSequencerIssue_fine h cmd
    case wloadRetire cmd => exact execWloadRetire_fine h cmd
    case wfreeRetire cmd => exact execWfreeRetire_fine h cmd
    case engineOutputEntry cmd => exact execEngineOutputEntry_fine h cmd
    case stageRetire cmd => exact execStageRetire_fine h cmd
    case rehearsalHeld cmd => exact execRehearsalHeld_fine h cmd
    case engineBitstepReplay core => exact execEngineBitstepReplay_fine h core
    case bankCommandComplete cmd => exact execBankCommandComplete_fine h cmd
    case bankRowWrite cmd line => exact execBankRowWrite_fine h cmd line
    case demandWaitTimeout bank => exact execDemandWaitTimeout_fine h bank
    case bankRefresh bank => exact execBankRefresh_fine h bank
    case waveArrival wave => exact execWaveArrival_fine h wave
    case gbindApply wave => exact execGbindApply_fine h wave
    case waveStart wave => exact execWaveStart_fine h wave
    case markerMessage wave k => exact execMarkerMessage_fine h wave k
    case weightReturn wave bank => exact execWeightReturn_fine h wave bank
    case weightLoan wave bank => exact execWeightLoan_fine h wave bank
    case collectPush wave => exact execCollectPush_fine h wave
    case launchWatchFire part queue => exact execLaunchWatchFire_fine h part queue
    case predecessorRelease launch => exact execPredecessorRelease_fine h launch
    case gangPlacement cluster launch core => exact execGangPlacement_fine h cluster launch core
    case gangSteal cluster launch victim => exact execGangSteal_fine h cluster launch victim
    case clusterClear cluster launch core => exact execClusterClear_fine h cluster launch core
    case progressEviction launch => exact execProgressEviction_fine h launch
    case launchCompletion launch => exact execLaunchCompletion_fine h launch
    case callboardAgeTrigger part ring => exact execCallboardAgeTrigger_fine h part ring
    case callboardHoldRelease launch => exact execCallboardHoldRelease_fine h launch
    case parkRetry part slot => exact execParkRetry_fine h hh part slot
    case parkDeliver part slot => exact execParkDeliver_fine h hh part slot
    case parkKillGang part slot => exact execParkKillGang_fine h part slot
    case quiesce part => exact execQuiesce_fine h part
    case rebase part => exact execRebase_fine h part
    case teardown part => exact execTeardown_fine h part
    case teardownClear part => exact execTeardownClear_fine h part
    case shootdownGo part value => exact execShootdownGo_fine h part value
    case shootdownDone part => exact execShootdownDone_fine h part
    case partidWrite core value => exact execPartidWrite_fine h core value
    case ptrootWrite core value => exact execPtrootWrite_fine h core value
    case graphctlWrite part r value => exact execGraphctlWrite_fine h part r value
    case marginWrite core value => exact execMarginWrite_fine h core value
    case ltelimWrite core value => exact execLtelimWrite_fine h core value
    case ltewinWrite core value => exact execLtewinWrite_fine h core value
    case quarWrite core value => exact execQuarWrite_fine h core value
    case healthWrite die value => exact execHealthWrite_fine h die value
    case registerWrite reg value => exact execRegisterWrite_fine h hh reg value
    case lateTransitionEvent core => exact execLateTransitionEvent_fine h core
    case lteWindowExpiry core => exact execLteWindowExpiry_fine h core
    case sliceErrorThreshold die slice => exact execSliceErrorThreshold_fine h die slice
    case impreciseError kind slot ord pa => exact execImpreciseError_fine h kind slot ord pa
    case understudyCompare u => exact execUnderstudyCompare_fine h u
    case dieFailure die => exact execDieFailure_fine h die
    case dieLinkFailure die port full => exact execDieLinkFailure_fine h die port full
    case thermalGate die => exact execThermalGate_fine h die
    case thermalStop die => exact execThermalStop_fine h die
    case combineRequestArrival pkt => exact execCombineRequestArrival_fine h pkt
    case combineHoldExpiry pkt => exact execCombineHoldExpiry_fine h pkt
    case replySplit reply => exact execReplySplit_fine h reply
    case recoverReply reply => exact execRecoverReply_fine h reply
    case recordExpiry record => exact execRecordExpiry_fine h record
    case switchReset die stage switch => exact execSwitchReset_fine h die stage switch
    case combtestDisarm die value => exact execCombtestDisarm_fine h die value
    case combtestCorruptCopy die value => exact execCombtestCorruptCopy_fine h die value
    case combtestLoseRecord die value => exact execCombtestLoseRecord_fine h die value
    case combtestResetSwitch die value => exact execCombtestResetSwitch_fine h die value
    case rdmaWrite p => exact execRdmaWrite_fine h p
    case rdmaRead p => exact execRdmaRead_fine h p
    case atomicFetchAdd p => exact execAtomicFetchAdd_fine h p
    case invalidRequest p => exact execInvalidRequest_fine h p
    case deviceDma q => exact execDeviceDma_fine h q
    case pldmMonitoring die => exact execPldmMonitoring_fine h die
    case pldmFirmwareUpdate f => exact execPldmFirmwareUpdate_fine h f
    case spdmMeasurements => exact execSpdmMeasurements_fine h
    case powerOnBoot => exact execPowerOnBoot_fine h
    case thermalUngate die => exact execThermalUngate_fine h die
    case bisnpResponse cmd line => exact execBisnpResponse_fine h cmd line
    case homeLogExpiry entry => exact execHomeLogExpiry_fine h entry
    all_goals exact absurd rfl hw

theorem OwnEvent.fine {e : State → Out} (he : OwnEvent e) (h : Fine W s) (hh : Here W s) : FineOut W (e s) := by
  rcases he with i | _
  · exact exec_fine i h hh
  · exact fineOut_next.2 ((State.serveStall_fine ..).2 h)

theorem Fine.runWord (h : Fine W s) (hh : Here W s) (w : Word) : FineOut W (s.runWord w) := by
  unfold State.runWord
  split
  · exact exec_fine _ h hh
  · exact fineOut_next.2 (h.trapScene _)

theorem Fine.issueHeader (h : Fine W s) (hh : Here W s) (u : Nat) (slot : Bool) : FineOut W (s.issueHeader u slot) := by
  have used : Fine W (s.useImage u) := h.useImage fun hw => hh.held u hw
  have trapped (t : Trap) (pc : Word) : FineOut W (.next ((s.useImage u).takeTrap u slot t pc)) := fineOut_next.2 (used.takeTrap ..)
  unfold State.issueHeader
  split
  · exact fineOut_next.2 h
  dsimp only
  rw [fineOut_ite, fineOut_ite]
  refine ⟨fun _ => fineOut_next.2 h, fun _ => ⟨fun _ => trapped _ _, fun _ => ?_⟩⟩
  split
  · exact fineOut_fault
  · exact trapped _ _
  · split
    · rw [exec_scene]
      refine execScene_fine ?_ _
      rw [fine_mk]
      exact used
    · exact trapped _ _

theorem Fine.schedIssue (h : Fine W s) (hh : Here W s) (core k : Nat) : FineOut W (s.schedIssue core k) := by
  unfold State.schedIssue
  dsimp only
  rw [fineOut_ite]
  refine ⟨fun _ => fineOut_next.2 ((State.updCore_fine ..).2 h), fun _ => ?_⟩
  split
  · exact fineOut_next.2 h
  next g slot _ _ =>
  have hi := h.issueHeader hh g.uid slot
  split
  · next t ht =>
    rw [ht] at hi
    rw [fineOut_ite]
    exact ⟨fun _ => fineOut_next.2 ((State.updCore_fine ..).2 (fineOut_next.1 hi)),
      fun _ => fineOut_next.2 ((State.updCore_fine ..).2 (fineOut_next.1 hi))⟩
  · exact hi

theorem Fine.ownMove (h : Fine W s) (hh : Here W s) : FineOut W s.ownMove := by
  rcases s.ownMove_cases with ⟨w, -, e⟩ | ⟨f, v, k, l, hown, e⟩ | ⟨k, e⟩ | e
  · exact e ▸ h.runWord hh w
  · exact e ▸ hown.fine (s := { s with evs := v, evTurn := k, evLast := l }) h (hh.of_eq rfl rfl)
  · exact e ▸ Fine.schedIssue (s := { s with turn := k, evs := 0 }) h (hh.of_eq rfl rfl) _ _
  · exact e ▸ fineOut_next.2 h

theorem Fine.servePacket (h : Fine W s) (p : NetPacket) : FineOut W (s.servePacket p) := by
  unfold State.servePacket
  split
  · exact execRdmaRead_fine h p
  · exact execAtomicFetchAdd_fine h p
  · exact execRdmaWrite_fine h p

@[simp] theorem State.installProgram_fine (s : State) (part slot : Nat) (image : List Byte) :
    Fine W (s.installProgram part slot image) ↔ Fine W s := by
  unfold State.installProgram
  split <;> simp

theorem Fine.hartStore (h : Fine W s) (hh : Here W s) (hart part pa : Nat) (data : List Byte) :
    FineOut W (s.hartStore hart part pa data) := by
  unfold State.hartStore
  dsimp only
  split
  · rw [fineOut_ite]
    refine ⟨fun _ => ?_, fun _ => fineOut_blockStop⟩
    split
    · next ht => exact fineOut_next.2 (h.blockStore hh.held ht)
    · exact fineOut_blockStop
  · exact fineOut_fault
  · rw [fineOut_ite]
    refine ⟨fun _ => fineOut_next.2 ((State.waitOutside_fine ..).2 h), fun _ => fineOut_next.2 ?_⟩
    rw [fine_mk]
    exact (State.storeRuns_fine ..).2 ((State.servedOutside_fine ..).2 h)

theorem Fine.hartLoad (h : Fine W s) (hart part pa n : Nat) : FineOut W (s.hartLoad hart part pa n) := by
  unfold State.hartLoad
  dsimp only
  split
  · split
    · exact fineOut_next.2 h
    · exact fineOut_blockStop
  · exact fineOut_fault
  · rw [fineOut_ite]
    refine ⟨fun _ => fineOut_next.2 ((State.waitOutside_fine ..).2 h), fun _ => fineOut_next.2 ((State.send_fine ..).2 ?_)⟩
    rw [fine_mk]
    exact (State.hartLoads_fine ..).2 ((State.servedOutside_fine ..).2 h)

/-- Power that goes off and comes back leaves no group (R405). -/
theorem Fine.powerCycle (h : Fine W s) : Fine W s.powerCycle :=
  ⟨List.nodup_nil, fun _ hx => absurd hx List.not_mem_nil, h.early, fun _ hx => absurd hx List.not_mem_nil⟩

theorem Fine.runMove (h : Fine W s) (hh : Here W s) (m : Move) : FineOut W (s.runMove m) := by
  unfold State.runMove
  rw [fineOut_ite]
  refine ⟨fun _ => fineOut_next.2 h, fun _ => ?_⟩
  cases m with
  | own => exact h.ownMove hh
  | packet p => exact h.servePacket p
  | dma q => exact execDeviceDma_fine h q
  | event i => exact exec_fine i h hh
  | issue u slot => exact h.issueHeader hh u slot
  | wait n => exact fineOut_next.2 h
  | hartStore k p pa bs => exact h.hartStore hh k p pa bs
  | hartLoad k p pa n => exact h.hartLoad k p pa n
  | hartFence k d => exact fineOut_next.2 (h.hartFence d)
  | pageList p => exact fineOut_next.2 ((State.setPageList_fine ..).2 h)
  | program p k bs => exact fineOut_next.2 ((State.installProgram_fine ..).2 h)
  | powerCycle => exact fineOut_next.2 h.powerCycle
  | readError t => exact fineOut_next.2 ((State.poisonTarget_fine ..).2 h)
  | copyError c l k => exact fineOut_next.2 ((State.copyError_fine ..).2 h)

theorem Fine.move (h : Fine W s) (hh : Here W s) : FineOut W s.move := by
  unfold State.move
  split
  · next m r _ => exact Fine.runMove (s := { s with agenda := r }) h (hh.of_eq rfl rfl) m
  · exact h.ownMove hh

theorem Fine.lateTeardown {t : State} (h : Fine W t) : Fine W (s.lateTeardown t) :=
  foldl_fine (fun _ p hv => fine_ite.2 ⟨fun _ => hv.teardownPart p, fun _ => hv⟩) h _

/-- What settles at the end of a step keeps the groups fine. -/
theorem FineOut.settle {o : Out} (h : FineOut W o) : FineOut W (s.settle o) := by
  unfold State.settle
  split
  · exact fineOut_next.2 (((Fine.lateTeardown (fineOut_next.1 h)).settleParks.settleGangs).onlyMem (State.saveTombs_onlyMem ..))
  · exact h

/-- Every step keeps the groups fine. -/
theorem Fine.step (h : Fine W s) (hh : Here W s) : FineOut W (step s) :=
  FineOut.settle (Fine.move (s := s.tick) h (hh.of_eq rfl rfl))

end

/-- No name is watched. -/
def unwatched : Watch := ⟨fun _ => False, 0, nofun⟩

/-- One name is watched, below a key. -/
def watchOne {u n : Nat} (h : u < n) : Watch := ⟨fun v => v = u, n, fun _ e => e ▸ h⟩

theorem fine_unwatched {s : State} : Fine unwatched s ↔ UidsOk s :=
  ⟨fun h => ⟨h.distinct, h.below⟩, fun h => ⟨h.distinct, h.below, Nat.zero_le _, fun _ _ => nofun⟩⟩

theorem here_unwatched (s : State) : Here unwatched s := ⟨nofun, nofun⟩

/-- Settles O60: what every step keeps of the groups, with the group watched for its shape, with none for the names alone. -/
theorem stepKeepsSplitShape : Obligations.StepKeepsSplitShape := by
  unfold Obligations.StepKeepsSplitShape
  refine ⟨fun s t u g h hst hu hg hc hk hp ht hth => ?_, fun s t hst hu => ?_, ?_, freshGroup_paired⟩
  · have hlt : u < s.fresh := grp_uid hg ▸ hu.below g (List.mem_of_find?_eq_some hg)
    have only {x : Grp} (hx : s.grp u = some x) : x = g := Option.some.inj (hx.symm.trans hg)
    have hs : Fine (watchOne hlt) s := by
      refine ⟨hu.distinct, hu.below, Nat.le_refl _, fun x hx hw _ => ?_⟩
      have hx := grp_of_mem hu.distinct hx
      rw [show x.uid = u from hw] at hx
      rwa [only hx]
    have hh : Here (watchOne hlt) s := by
      refine ⟨fun v hv x hx => ?_, fun v hv x hx k hkm hkg => ?_⟩
      · rw [show v = u from hv] at hx
        rwa [only hx]
      · rw [show v = u from hv] at hx
        rw [only hx] at hkg
        exact hk k hkm hkg
    exact (hs.step hh t hst).grp ht rfl hth
  · exact fine_unwatched.1 ((fine_unwatched.2 hu).step (here_unwatched s) t hst)
  · exact ⟨List.nodup_nil, fun _ hx => absurd hx List.not_mem_nil⟩

end Sys2Proof.Machine
end
